-- ==== Sys2Proof/Word.lean ====
section
/-! DEFINITION. The word types of the OX6440: bytes, 32-bit registers, 64-bit registers (R51) and
table-entry images (R63: no entry is wider than 1,920 bits). -/

namespace Sys2Proof

/-- An octet of a frame or of a transfer. -/
abbrev Byte := BitVec 8
/-- A 32-bit register word. -/
abbrev Word := BitVec 32
/-- A 64-bit register (R51). -/
abbrev DWord := BitVec 64
/-- The image of a table entry in the indirect window (R63). -/
abbrev Entry := BitVec 1920
/-- A BAR0 page number (R39). -/
abbrev Page := BitVec 16
/-- A port number, 0 to 255 (R18). -/
abbrev Port := BitVec 8
/-- A MAC address, first transmitted octet in [47:40]. -/
abbrev MacAddr := BitVec 48

/-- Sparse data by key: the listed keys hold the listed values, every other key holds the default that the
reader of the map names. Canonical form: keys strictly rising, no entry equal to the default. -/
abbrev SMap (α : Type) := List (Nat × α)

end Sys2Proof
end

