-- ==== Sys2Proof/Syntax.lean ====
section
/-! DEFINITION. The commands of the OX6440: one constructor of `Instr` for each row of
spec/opcode_table.json, in the table's order, with the operands the outside party supplies. The table
gives no operand fields, so the operands are taken from the rules each row cites. -/

namespace Sys2Proof

/-- The three kinds of requester that reach the register pages (R41). -/
inductive Requester where
  | host
  | spx
  | engine (k : BitVec 6)
  deriving DecidableEq, Repr

/-- The four states of a switched power domain, with the codes of R27. -/
inductive PwrState where
  | off | retain | gated | on
  deriving DecidableEq, Repr

/-- What an access of the host addresses (R38, R423): the register pages, the MSI-X table and its pending bits, configuration space,
or the two words of the device serial number capability, whose place in configuration space the spec does not give. Bit aliases (BAR2)
have commands of their own; the other requesters reach the register pages alone. -/
inductive Aperture where
  | bar0 | bar4 | config | serialNumber
  deriving DecidableEq, Repr

/-- Direction of travel over the die-to-die link: from the field pipeline toward COR, or back (R12). -/
inductive D2dDir where
  | toCor | toFld
  deriving DecidableEq, Repr

/-- What a reset acts on (R32, R33). -/
inductive ResetScope where
  /-- One cell, named by its cell page. -/
  | cell (page : Page)
  /-- One block: region code, block type and instance as PG_ID gives them. -/
  | block (region : BitVec 4) (btype inst : BitVec 8)
  | region (region : BitVec 4)
  | warm
  | cold
  deriving DecidableEq, Repr

/-- The observed condition of a link: the five terms of "good" in R90. -/
structure LinkCond where
  signal : Bool
  lock : Bool
  localFault : Bool
  remoteFault : Bool
  hiBer : Bool
  /-- The lane of a line port, counted from its slot, that lost its signal or its lock (R80). -/
  lane : BitVec 2 := 0
  /-- FEC codewords of a line port since the last report, and how many of them were corrected and could not be (R75, R77). -/
  codewords : Nat := 0
  corrected : Nat := 0
  uncorrectable : Nat := 0
  /-- The partner is in LPI (R78, R117). -/
  partnerLpi : Bool := false
  /-- The transmit PLL of a line port's rate is unlocked (R80). -/
  pllLost : Bool := false
  deriving DecidableEq, Repr

/-- What a port delivers to its MAC (R575). `bytes` run from the destination address up to the FCS,
which is not included: the outcome of the FCS check is `fcsOk`. -/
inductive RxEvent where
  /-- A frame received whole. `symErr`: an uncorrectable codeword or invalid code group inside it. -/
  | whole (bytes : List Byte) (fcsOk symErr icvOk : Bool)
  /-- A frame whose end has not arrived yet: it may be cut through (R240). The bytes are those the whole frame will have. -/
  | begins (bytes : List Byte)
  /-- The end of the frame that began: its length is known and its FCS checked. -/
  | ends (length : Nat) (fcsOk symErr icvOk : Bool)
  deriving DecidableEq, Repr

/-- A received MAC control frame (R84). -/
inductive MacControl where
  | pause (quanta : BitVec 16)
  | pfc (vector : BitVec 8) (quanta : List (BitVec 16))
  | other
  deriving DecidableEq, Repr

/-- What the echo test of R122 reports. -/
inductive Echo where
  | clear | open | short
  deriving DecidableEq, Repr

/-- The two pools of the pool manager model (R201, R202). -/
inductive Pool where
  | granules | pages
  deriving DecidableEq, Repr

/-- A banked table that retires (R154, R253, R256). -/
inductive BankTarget where
  | rules (pipe : BitVec 3)
  | meters (pipe : BitVec 3)
  | gates (port : Port)
  deriving DecidableEq, Repr

/-- A learn event in the format of R185. -/
structure LearnEvent where
  /-- 0 learn, 1 move, 2 delete. -/
  kind : BitVec 2
  pipe : BitVec 3
  port : Port
  fid : BitVec 12
  mac : MacAddr
  ts : BitVec 40
  deriving DecidableEq, Repr

/-- The span header fields a receiver reads from an encapsulated frame (R312). -/
structure SpanHeader where
  srcMac : MacAddr
  version : BitVec 4
  ftype : BitVec 4
  rel : Bool
  retx : Bool
  tc : BitVec 3
  trunc : Bool
  colour : BitVec 2
  destKind : BitVec 2
  link : BitVec 3
  src : BitVec 8
  dest : BitVec 16
  seq : Word
  age : Word
  deriving DecidableEq, Repr

/-- A service message (R406) as a sender submits it. `ring` is the submission ring it came from. -/
structure SvcRequest where
  service : BitVec 8
  opcode : BitVec 8
  noResp : Bool
  tag : BitVec 16
  key : Word
  ring : Option (BitVec 8)
  body : List Byte
  /-- Commands through which the engine that takes it still handles it: 0 where it is finished at once. -/
  busy : Nat := 0
  /-- Set by EMB on a second delivery (R418). -/
  redelivered : Bool := false
  deriving DecidableEq, Repr

/-- The agreement fields of a coordinated group (R391, R392). -/
structure CoordFields where
  group : BitVec 8
  tb : BitVec 4
  lateDiscard : Bool
  sec : DWord
  ns : Word
  period : Word
  repeats : BitVec 16
  deriving DecidableEq, Repr

/-- The result of a read the device made of host memory. -/
inductive HostRead (α : Type) where
  | ok (v : α)
  | error
  deriving DecidableEq, Repr

/-- One component entry of a bundle manifest (R527), without offset, length and digest bytes. -/
structure Component where
  /-- 1 SPX firmware, 2 service image, 3 SerDes firmware, 4 DDR PHY firmware, 5 footway configuration. -/
  ctype : BitVec 8
  target : BitVec 8
  version : BitVec 16
  svn : BitVec 7
  counter : BitVec 6
  stateVer : BitVec 8
  stateMin : BitVec 8
  digest : BitVec 512
  digestOk : Bool
  deriving DecidableEq, Repr

/-- A bundle as SPX reads it (R526): the manifest's fields, the outcome of its signature checks and its
components. -/
structure Bundle where
  generation : DWord
  manifestDigest : BitVec 512
  /-- Which of the four ROM digests the signer's key matches, if any. -/
  signerSlot : Option (BitVec 2)
  sigAskineOk : Bool
  sigOwnerOk : Bool
  mib : Nat
  components : List Component
  /-- The 16 port slots of a footway-configuration component. -/
  fwSlots : List (BitVec 16)
  fwTable : List (BitVec 128)
  fwCfg : Word
  deriving DecidableEq, Repr

/-- The commands of the block: the rows of spec/opcode_table.json. [DESIGN CHOICE, log 3; DESIGN CHOICE, log 112] -/
inductive Instr where
  -- structure, clocks, power and reset (01)
  | flitReceive (dir : D2dDir) (seq : BitVec 16) (crcOk endsFrame : Bool)
  | d2dRetrain
  | d2dRetrainDone
  | d2dLinkDown
  | d2dLinkReturn
  | ckRefLost
  | ckRefRelock
  | holdoverExpire
  | ckPcieLoss
  | powerRequest (req : Requester) (page : Page) (entry : Option (BitVec 6)) (target : PwrState)
  | powerTransitionStart (dom : BitVec 8)
  | powerTransitionDone (dom : BitVec 8)
  | pgEnable (req : Requester) (page : Page) (on : Bool)
  | pgDrain (req : Requester) (page : Page) (on : Bool)
  | pgIsolate (req : Requester) (page : Page) (on : Bool)
  | softReset (req : Requester) (page : Page)
  | resetComplete (scope : ResetScope)
  | holdRelease (req : Requester) (page : Page)
  /-- The link trains at the rise: speed in Gen units and width (R423). -/
  | perstN (low : Bool) (speed : BitVec 4 := 5) (width : BitVec 6 := 8)
  | pwrWarm (req : Requester) (value : Word)
  -- register access (02)
  -- `enables`: every byte enable of the request is set (R40)
  | registerWrite (req : Requester) (addr : BitVec 28) (size : Nat) (data : DWord) (enables : Bool := true) (space : Aperture := .bar0)
  | lowWordRead (req : Requester) (addr : BitVec 28) (size : Nat) (enables : Bool := true) (space : Aperture := .bar0)
  | highWordRead (req : Requester) (addr : BitVec 28) (size : Nat) (enables : Bool := true)
  | lowWordWrite (req : Requester) (addr : BitVec 28) (data : Word) (enables : Bool := true)
  | highWordWrite (req : Requester) (addr : BitVec 28) (data : Word) (enables : Bool := true)
  | accessTimeout (req : Requester) (addr : BitVec 28) (write : Bool)
  | aliasWrite (req : Requester) (addr : BitVec 29) (size : Nat) (data : Word) (enables : Bool := true)
  | aliasRead (req : Requester) (addr : BitVec 29) (size : Nat) (enables : Bool := true)
  | cfgParityScan (page : Page)
  | cfgParInj (req : Requester) (page : Page) (word : BitVec 10) (arm : Bool)
  | intInj (req : Requester) (page : Page) (sources : Word)
  | intcArm (req : Requester) (word : BitVec 4) (vectors : Word)
  | tblRead (req : Requester) (page : Page)
  | tblWrite (req : Requester) (page : Page)
  | tblInvalidate (req : Requester) (page : Page)
  | tblCmdDone (page : Page)
  | tblLockAcquire (req : Requester) (page : Page)
  | tblLockRelease (req : Requester) (page : Page)
  | tblLockForceRelease (req : Requester) (page : Page)
  | snapRequest (req : Requester) (page : Page) (clear : Bool)
  | snapshotDone (page : Page)
  -- line ports, modules (03)
  | portEnable (req : Requester) (port : BitVec 6) (cfg : Word)
  | portDisable (req : Requester) (port : BitVec 6)
  | linkUp (port : Port) (level24 master polRev : Bool)
  | linkFault (port : Port) (cond : LinkCond)
  | linkHoldExpire (port : Port)
  | frameReceive (port : Port) (rx : RxEvent)
  | macControlReceive (port : Port) (mc : MacControl)
  | pauseExpire (port : Port) (classes : BitVec 8)
  | pauseRefresh (port : Port)
  | lpiEnter (port : Port)
  | lpiWake (port : Port)
  | eyeScanStart (req : Requester) (quad : BitVec 4) (lane : BitVec 2)
  | eyeScanDone (quad : BitVec 4) (height width : BitVec 16)
  | laneAdaptNow (req : Requester) (quad : BitVec 4) (lane : BitVec 2) (snr : BitVec 8)
  | moduleInsert (cage : BitVec 4)
  | moduleResetRelease (cage : BitVec 4)
  -- `judged`: the applications have been compared with the port mode; `ack`: the bus transaction was acknowledged (R92)
  | moduleIdentify (cage : BitVec 4) (identity : List Byte) (appMatches : Bool) (judged : Bool := true) (ack : Bool := true)
  | moduleReadyTimeout (cage : BitVec 4)
  | moduleDatapathActive (cage : BitVec 4)
  | moduleInterrupt (cage : BitVec 4) (ack : Bool := true)
  | moduleRemove (cage : BitVec 4)
  | moduleRetry (req : Requester) (cage : BitVec 4)
  | modXfer (req : Requester) (cage : BitVec 4) (cmd : Word)
  | modXferDone (cage : BitVec 4) (ack : Bool) (data : List Byte)
  -- field ports and line sense (04)
  | fieldPortEnable (req : Requester) (port : Port) (cfg : Word)
  | collision (port : Port) (late : Bool)
  | backoffExpire (port : Port)
  | plcaActive (port : Port)
  | plcaTxOpportunity (port : Port)
  | sgmiiControlWord (port : Port) (speed : BitVec 2) (fullDuplex : Bool)
  | mdioAddress (req : Requester) (cmd : Word)
  | mdioWrite (req : Requester) (cmd : Word)
  | mdioRead (req : Requester) (cmd : Word)
  | mdioReadIncrement (req : Requester) (cmd : Word)
  | mdioDone (data : BitVec 16)
  | senseSample (pair : BitVec 6) (vp vn : BitVec 12) (overRange : Bool)
  | echoTestStart (pair : BitVec 6)
  | echoTestDone (pair : BitVec 6) (result : Echo)
  -- `neg`: the comparator of conductor N (R124)
  | clampEvent (pair : BitVec 6) (begins : Bool) (neg : Bool := false)
  | senseCalibrate (pair : BitVec 6)
  | senseCalAll (req : Requester)
  | senseCalDone (pair : BitVec 6) (inRange : Bool)
  | cableDiagStart (req : Requester) (cmd : Word)
  | cableDiagDone (result : BitVec 2) (samples : BitVec 16)
  | senseHoldReturn (pair : BitVec 6)
  | senseRelease (req : Requester) (pair : BitVec 6)
  -- pipeline (05, 06)
  | pipelinePass (pipe : BitVec 3)
  | recircIssue (pipe : BitVec 3)
  | recircStale (pipe : BitVec 3)
  | rulSwapGo (req : Requester) (pipe : BitVec 3)
  | swapGuard (lift : BitVec 12)
  | bankRetired (bank : BankTarget)
  | tableParityScan (page : Page)
  | walkerVisit (pipe : BitVec 3)
  | fdbFlush (req : Requester) (pipe : BitVec 3) (value : Word)
  | fdbFlushDone (pipe : BitVec 3)
  | learnEventApply (pipe : BitVec 3)
  | learnResync (pipe : BitVec 3)
  -- pools (07)
  | grant (pool : Pool) (by_ : BitVec 4) (size : Nat) (rivals : List (BitVec 4 × Nat) := [])
  | handover (pool : Pool) (buf : Nat) (by_ dst : BitVec 4)
  | addref (pool : Pool) (buf : Nat) (by_ : BitVec 4) (k : Nat)
  | drop (pool : Pool) (buf : Nat) (by_ : BitVec 4)
  | release (pool : Pool) (buf : Nat) (by_ : BitVec 4)
  | fence (pool : Pool) (buf : Nat) (by_ : BitVec 4)
  | unfence (pool : Pool) (buf : Nat) (by_ : BitVec 4)
  | queueAdmission
  | quotaWrite (req : Requester) (pool : Pool) (i : BitVec 4) (isMax : Bool) (value : Word)
  | spillWrite (slice : BitVec 2)
  | spillRefill (queue : BitVec 10)
  | bankFenceRequest (group : BitVec 4)
  | bankFenceDone (group : BitVec 4)
  -- queues, scheduling, gates, meters (08)
  | frameReady (queue : BitVec 10) (seq : Word)
  | seqSkip (queue : BitVec 10)
  | schedulerSelect (port : Port)
  | transmitComplete (port : Port)
  | gateEntryChange (port : Port)
  | gatSwapGo (req : Requester) (port : Port)
  | mtrSwapGo (req : Requester) (pipe : BitVec 3)
  -- custody (09)
  | custodyEnApply (queue : BitVec 10)
  | settleExpire (queue : BitVec 10)
  | replayAdmit (queue : BitVec 10)
  | expiryInspect (queue : BitVec 10)
  | custodyFlush (req : Requester) (value : Word)
  | pfwNAccept
  | custodyHoldEnter (req : Requester)
  | custodyHoldAbandon (req : Requester)
  | checkpointJournal
  | journalNow (req : Requester)
  | holdExitTimer
  | rebuildPhaseDone
  | channelDrain (req : Requester) (channel : BitVec 4)
  | pageMigrate (page : Nat)
  | drainDone
  | drainAbort (req : Requester)
  | channelReadmit (req : Requester) (channel : BitVec 4) (serial : Word) (capacityTib16 : Nat)
  | readmitDone
  -- span pairs (10)
  | spanPairEnable (req : Requester) (on : Bool)
  | spanLinkEnable (req : Requester) (link : BitVec 3) (cfg : Word)
  | helloSend (link : BitVec 3)
  | helloReceive (link : BitVec 3) (serial : DWord) (mac : MacAddr) (session : Word)
  | authOffer (link : BitVec 3) (serial : DWord) (chainOk ownerMatch : Bool)
  | authProof (link : BitVec 3) (proofOk : Bool)
  | authTimeout (link : BitVec 3)
  | helloDead (link : BitVec 3)
  | spanDataReceive (link : BitVec 3) (hdr : SpanHeader) (bytes : List Byte)
  | ackTimer (link : BitVec 3) (space : BitVec 4)
  | spanAckReceive (link : BitVec 3) (space : BitVec 4) (cum : Word) (sacks : List (BitVec 16 × BitVec 16))
  | rtoExpire (link : BitVec 3) (space : BitVec 4)
  | spanHandover (oldLink newLink : BitVec 3) (fromPartner : Bool) (rcvCum : List Word)
  | spanLearnReceive (link : BitVec 3) (seq : Word) (events : List LearnEvent)
  | learnFrameFlush
  | spanTimeExchange (link : BitVec 3)
  | bpduRelay (outbound : Bool) (port : Port) (body : List Byte)
  | splitHoldExpire
  | sessionKeepExpire
  -- time (11)
  | tbSet (req : Requester) (k : BitVec 4)
  | tbSetNow (req : Requester) (k : BitVec 4)
  | tbStep (req : Requester) (k : BitVec 4)
  | tbSlew (req : Requester) (k : BitVec 4)
  | tbSlewAbort (req : Requester) (k : BitVec 4)
  | tbFreqWrite (req : Requester) (k : BitVec 4) (value : Word)
  | tbChangeRelease (k : BitVec 4)
  | slewEnd (k : BitVec 4)
  | servoSample (req : Requester) (k : BitVec 4) (theta : DWord)
  | servoHoldover (k : BitVec 4)
  | alignmentMarker (mismatched : List Page)
  | convert (req : Requester) (tb : BitVec 4)
  | timeCapture (req : Requester)
  | tioCapture (pin : BitVec 2) (rising : Bool)
  | tioCapPop (req : Requester) (pin : BitVec 2)
  | tioOutputEdge (pin : BitVec 2)
  | synceRelease (output : BitVec 1)
  -- Bascule (12)
  | liftArm (req : Requester) (index : BitVec 12) (record : BitVec 384)
  | liftDispatch (index : BitVec 12)
  | liftLaunch (index : BitVec 12)
  | liftCancel (req : Requester) (value : Word)
  | liftAnnounce (req : Requester) (value : Word)
  | announce (fields : CoordFields)
  | commit (group : BitVec 8)
  | committed (group : BitVec 8)
  | reject (group : BitVec 8) (cause : BitVec 8)
  | cancel (group : BitVec 8) (firstOccurrence : Word)
  | cancelled (group : BitVec 8) (firstOccurrence : Word)
  | commitDeadline (group : BitVec 8)
  | bscDonePop (req : Requester)
  -- engines and services (13)
  | serviceLoad (req : Requester) (value : Word)
  | serviceLoadDone (digestOk : Bool)
  | serviceStart (req : Requester) (value : Word)
  | serviceMigrate (req : Requester) (value : Word)
  | migrationDone (freezeUs : BitVec 16)
  | serviceRelease (req : Requester) (value : Word)
  | serviceMessage (msg : SvcRequest)
  | engineWatchdog (block : BitVec 6) (engine : BitVec 4)
  | engineFault (block : BitVec 6) (engine : BitVec 4) (instruction : Bool)
  | engineRestart (req : Requester) (block : BitVec 6) (engines : BitVec 16)
  | blockHeld (block : BitVec 6)
  | ping (msg : SvcRequest)
  | stats (msg : SvcRequest)
  | configGet (msg : SvcRequest)
  | configSet (msg : SvcRequest)
  | resync (msg : SvcRequest)
  | partnerSync (msg : SvcRequest)
  | linkInfo (msg : SvcRequest)
  | authRetry (msg : SvcRequest)
  | instanceSet (msg : SvcRequest)
  | datasetGet (msg : SvcRequest)
  | queueInfo (msg : SvcRequest)
  | indexCheck (msg : SvcRequest)
  | mepSet (msg : SvcRequest)
  | measureStart (msg : SvcRequest)
  | oamCcmTimer (mep : BitVec 12) (missed : Bool)
  | subscribe (msg : SvcRequest)
  | unsubscribe (msg : SvcRequest)
  | telemPeriod (subscription : BitVec 16)
  | diagSchedule (msg : SvcRequest)
  | segmentNodes (msg : SvcRequest)
  | bridgeSet (msg : SvcRequest)
  | portStateGet (msg : SvcRequest)
  | neighboursGet (msg : SvcRequest)
  | caSet (msg : SvcRequest)
  | caStatus (msg : SvcRequest)
  | footwayStatus (msg : SvcRequest)
  | inspectRequest (msg : SvcRequest)
  | inspectCancel (msg : SvcRequest)
  | cageInfo (msg : SvcRequest)
  | appSet (msg : SvcRequest)
  | sign (block : BitVec 6) (region : BitVec 4) (digest : BitVec 512)
  | verifyPeer (block : BitVec 6) (offset length : Nat) (serial : DWord) (chainOk ownerMatch : Bool)
  -- host rings (14)
  | sqDoorbell (req : Requester) (n : BitVec 8)
  | rcbProdRead (n : BitVec 8) (prod : HostRead Word)
  | txEntry (n : BitVec 8) (slots : HostRead (List (BitVec 128))) (data : HostRead (List Byte))
  | rxEntry (n : BitVec 8) (slots : HostRead (List (BitVec 128)))
  | svcEntry (n : BitVec 8) (slots : HostRead (List (BitVec 128)))
  | copyEntry (n : BitVec 8) (slots : HostRead (List (BitVec 128)))
  | hostFrameDeliver (tc : BitVec 3)
  | rxWaitExpire (tc : BitVec 3)
  | tsTimeout (tag : Word)
  | cqDoorbell (req : Requester) (n : BitVec 8) (cons : HostRead Word)
  | cqReread (n : BitVec 8) (cons : HostRead Word)
  | cqModTimer (n : BitVec 8)
  | ringEnable (req : Requester) (completion : Bool) (n : BitVec 8)
  | ringDisable (req : Requester) (completion : Bool) (n : BitVec 8)
  | functionLevelReset
  | busMasterDisable (bme d3hot : Bool)
  -- copy channels (15)
  | copyExecute (channel : BitVec 4)
  | copyReadResponse (channel : BitVec 4) (data : HostRead (List Byte)) (last : Bool)
  | scratchResize (req : Requester) (value : Word)
  | scratchDone
  -- capture (16)
  | captureEnable (req : Requester) (part : BitVec 4) (on : Bool)
  | captureArm (req : Requester) (part : BitVec 4)
  | captureTrigger (req : Requester) (part : BitVec 4)
  | captureFreeze (req : Requester) (part : BitVec 4)
  | capturePostDone (part : BitVec 4)
  -- faults, injection, inspection, footway (17)
  | chipWatchdog
  | watchdogKick (req : Requester)
  | injNonceRead (req : Requester)
  | injKey (req : Requester) (key : Word)
  | injUnlock (req : Requester) (minutes : BitVec 6)
  | injLock (req : Requester)
  | injUnlockExpire
  | injectSingleBit (req : Requester)
  | injectDoubleBit (req : Requester)
  | injectParity (req : Requester)
  | injectFlitCrc (req : Requester)
  | injectDramSingle (req : Requester)
  | injectDramUncorr (req : Requester)
  | injectEngineStall (req : Requester)
  | injectLossOfSignal (req : Requester)
  | injectThermal (req : Requester)
  | testCtlWrite (req : Requester) (page : Page) (ctl0 ctl1 : Word)
  | inspectPrepared (id : BitVec 16)
  | inspectTestDone (id : BitVec 16) (errors : Word) (firstAddr : Word)
  | inspectDeadline (id : BitVec 16)
  | failoverSet (req : Requester) (value : BitVec 8)
  | footwayCommit (req : Requester)
  | footwayEnter (cause : BitVec 3)
  | thermalFootway
  | footwayFrame (port : Port) (bytes : List Byte)
  | footwayExit (req : Requester)
  | footwayAutoExit
  | footwayHandover (req : Requester)
  -- identity and boot (18)
  | quote (req : Requester)
  | stage (req : Requester) (bundle : HostRead Bundle) (flashOk : Bool := true)
  | select (req : Requester)
  | bootOk (req : Requester)
  | spxUpdate (req : Requester)
  | fwApply (req : Requester)
  | certRead (req : Requester)
  | fuseOwner (req : Requester)
  | debug (req : Requester) (sigAskineOk sigOwnerOk : Bool)
  | debugNonce (req : Requester)
  | secCommandDone
  | bootHostGo (req : Requester) (bundle : HostRead Bundle)
  -- power-up, reset pins, thermal (19)
  | resetNRise
  | resetNFall
  | thermalSample (readings : List (BitVec 16 × Bool)) (aonDeck aonAbut : BitVec 8)
  | throttleEnter
  | throttleExit
  -- rows the table lists last
  | rcRegisterRead (req : Requester) (addr : BitVec 28) (size : Nat) (enables : Bool := true)
  | plcaInactive (port : Port)
  | spanRcvCumAnnounce (link : BitVec 3) (rcvCum : List Word)
  | spanTimeReceive (link : BitVec 3) (t1 t2 t3 t4 : BitVec 96)
  | patrolScrub (page : Page)
  | pcieLinkDown
  | supplyLoss (beforeHold : Bool)
  | bootStageDone (flashOk : Bool := true)
  | dimmTrainingDone
  | dramInitDone
  deriving DecidableEq, Repr

end Sys2Proof
end

