-- ==== Sys2Proof/Decode.lean ====
section
/-! DEFINITION. The command that a word spells. The command table of the spec gives its rows no bits, so no word spells one. -/

namespace Sys2Proof

/-- The command spelt by an instruction word of `nbits` bits: none, for the table gives no row an encoding. [DESIGN CHOICE, log 2] -/
def decodeTableWord (_nbits _w : Nat) : Option Instr := none

end Sys2Proof
end

