-- ==== Sys2Proof/Config.lean ====
section
/-! DEFINITION. What an implementation or a board fixes, and the free values: constants without a body, so that
nothing can be proved from a value the spec does not give. -/

namespace Sys2Proof.Config

/-- Free values of the spec, one for each value of the model's counter: nonces, session identifiers, back-off
draws and every value the spec leaves open. [DESIGN CHOICE, log 7] -/
opaque freeValue : Nat → Nat

/-- Octets of the body of a CTRL frame whose format the spec does not give: HANDOVER, RCV_CUM and BPDU, by kind and fields. [DESIGN CHOICE, log 155] -/
opaque ctrlBody : String → List Nat → Nat
/-- Fused at manufacture (R522, R546): the device serial number. [DESIGN CHOICE, log 15] -/
opaque serial : DWord
/-- SHA-512 over the bytes given as a number of octets and their value (R519, R532). [DESIGN CHOICE, log 15] -/
opaque sha512 : List Nat → Nat
/-- The device certificate of R519, as it stands in the certificate OTP. [DESIGN CHOICE, log 15] -/
opaque deviceCert : List Byte
/-- The fused 256-bit seed (R519), as octets. [DESIGN CHOICE, log 15] -/
opaque seed : List Nat
/-- An Ed25519 signature (R519): the private key and the signed digest give it. [DESIGN CHOICE, log 15] -/
opaque ed25519 : Nat → Nat → Nat
/-- The X.509 encoding of a region certificate (R520), of which the spec gives the contents alone: region, serialNumber, measurement
register at issue, owner digest, generation. [DESIGN CHOICE, log 108] -/
opaque regionCert : Nat → Nat → Nat → Nat → Nat → List Byte
/-- AES-256 in Galois/Counter mode, the cipher of both MACsec suites (R94): key, initialisation vector, associated data and plaintext
give the ciphertext with the 16 bytes of the ICV behind it. [DESIGN CHOICE, log 15] -/
opaque macsecSeal : Nat → Nat → List Byte → List Byte → List Byte
/-- Its inverse (R94, R99): key, initialisation vector, associated data and ciphertext without ICV give the plaintext. [DESIGN CHOICE, log 15] -/
opaque macsecOpen : Nat → Nat → List Byte → List Byte → List Byte

end Sys2Proof.Config
end

