-- ==== Sys2Proof/Machine/State.lean ====
section
/-! DEFINITION. The state of the OX6440 as plain data, its faults and refusals, and the state after reset.
Registers stand in one sparse map keyed by BAR0 offset and table entries in another keyed by page, select, bank
and index; an unlisted key holds its reset value. The structures below hold what no register shows. -/

namespace Sys2Proof.Machine

/-- Why a step stops with a fault. No command of the spec stops the machine, so nothing raises this one; it is
here because the interface asks for a fault type. Safe: it is never raised. -/
inductive Fault where
  | none
  deriving DecidableEq, Repr

/-- Why a step is refused. -/
inductive Refusal where
  /-- Raised by Dispatch.lean for a command that has no meaning yet. Safe: the machine stops. -/
  | notModelled (mnemonic : String)
  deriving DecidableEq, Repr

/-- What a requester got back for its last register access (R40, R53, R56, R61). [DESIGN CHOICE, log 6] -/
inductive Response where
  | none
  | value (v : DWord)
  | completerAbort
  | busError
  | done
  deriving DecidableEq, Repr

/-- What leaves the chip: kept in order, the newest first. [DESIGN CHOICE, log 6] -/
inductive Output where
  /-- A transmission of a port that ended; `stomped` when its FCS was inverted. -/
  | tx (port : Nat) (bytes : List Byte) (stomped : Bool)
  /-- A pause frame, or a PFC frame with its class vector (R85). -/
  | pause (port : Nat) (vector : Nat) (quanta : Nat)
  | msix (vector : Nat)
  | errNonfatal
  /-- Requests to host memory, with No-Snoop (R447). -/
  | hostWrite (addr : Nat) (bytes : List Byte) (noSnoop : Bool := false)
  | hostRead (addr len : Nat) (noSnoop : Bool := false)
  | pin (name : String) (level : Bool)
  | i2c (cage : Nat) (what : String)
  /-- A raw access on a cage's bus (R92): its command word, the bus rate in kHz, the bytes of a write. -/
  | i2cXfer (cage cmd khz : Nat) (bytes : List Byte)
  /-- The BEACON of a PLCA coordinator: transmit opportunities of the cycle and their timer (R107). -/
  | beacon (port nodes timer : Nat)
  | mdio (cmd : Nat) (data : Nat)
  /-- A control frame of a span link: its kind and its fields, and the addresses and span header it goes out under (R312). -/
  | spanCtrl (link : Nat) (kind : String) (fields : List Nat) (head : List Byte)
  /-- A service response or notification (R406, R407). -/
  | response (service opcode tag status : Nat) (ring : Option Nat) (body : List Nat)
  | notify (service opcode : Nat) (body : List Nat)
  /-- An edge of a time I/O output (R365, R366): base count, level that the edge leads to, width in ns. -/
  | tioPulse (pin : Nat) (bc : Nat) (high : Bool) (width : Nat)
  | completion (ring : Nat) (kind : String) (fields : List Nat)
  /-- A frame that a service sends of itself: service and what it is about. -/
  | serviceFrame (service key : Nat)
  deriving DecidableEq, Repr

/-- A frame with its metadata (R7). `bytes` run from the destination address to the end, the FCS left out.
`length` is the number of octets the MAC received and passed on, FCS included (R201). -/
structure Frame where
  id : Nat
  bytes : List Byte
  ingress : Nat
  ts : Nat
  tc : Nat := 0
  colour : Nat := 0
  epoch : Nat := 0
  mtrEpoch : Nat := 0
  pass : Nat := 0
  trunc : Bool := false
  custody : Bool := false
  /-- It arrived at a queue in spill mode (R215). -/
  spilled : Bool := false
  mirror : Nat := 0
  /-- The whole frame has arrived and its FCS check is known. -/
  complete : Bool := true
  /-- Its FCS failed, or it was truncated after a cut-through start: an egress in progress is stomped. -/
  bad : Bool := false
  /-- An oversize protected frame that was not verified (R99). -/
  unverified : Bool := false
  /-- The frame was released to the parser only after its ICV was verified (R99). -/
  heldForIcv : Bool := false
  /-- The tag of a host TX entry that asked for a transmit stamp (R436). -/
  tsTag : Option (Nat × Nat) := none
  /-- Came in over a span link, with the partner port it was received on (R327), and the class and colour of its header (R314). -/
  viaSpan : Option Nat := none
  spanClass : Nat × Nat := (0, 0)
  /-- md.ts in the port's tb_a and, where enabled, tb_b, each with the valid bit of its time base (R359); empty before pass 0. -/
  times : List (Int × Bool) := []
  /-- A one-step or two-step PTP treatment chosen at ingress (R363, R364), and the pipeline whose parser recorded the headers of a
  frame that the host directed to a port (R435). -/
  ptp : Nat := 0
  parser : Option Nat := none
  /-- Granules are charged to (port, class) in the ingress accounting (R224). -/
  charged : Bool := false
  /-- A mirror copy: never mirrored again (R477). -/
  isMirror : Bool := false
  /-- Host code, the cause of a trap by forwarding and the cut mark of a copy for the host port (R438, R443). -/
  hostCode : Nat := 0
  cause : Nat := 0
  cut : Bool := false
  /-- Egress editing: 0 none, 1 bridged, 2 routed, and the next-hop entry of a routed copy (R161, R194). -/
  egr : Nat := 0
  route : Nat := 0
  /-- The resolved VID (R172), or the VID of a group list entry (R195), and its untag bit. -/
  vid : Option Nat := none
  listVid : Bool := false
  untag : Bool := false
  /-- dest_kind and dest of a copy for the span partner (R327). -/
  partner : Option (Nat × Nat) := none
  deriving DecidableEq, Repr

/-- Where an admitted frame stands (R213 to R219). -/
inductive Place where
  | sram | staged | dram | refill
  deriving DecidableEq, Repr

/-- A frame in an egress queue. -/
structure QFrame where
  frame : Frame
  seq : Word
  place : Place
  /-- Head granule of its buffer while it is in SRAM. -/
  buf : Option Nat := none
  /-- It holds a reference to a shared multicast buffer instead of owning one (R260). -/
  shared : Bool := false
  /-- DRAM pages its record touches, the offset of the record in the first, and the record as it was written (R217). -/
  pages : List Nat := []
  off : Nat := 0
  image : List Byte := []
  /-- The multicast job that waits to hear whether the custody store takes it (R283). -/
  job : Option Nat := none
  /-- A frame that a span sender holds, sent anew: its sequence number (R320). -/
  again : Option Word := none
  ready : Bool := false
  cutThrough : Bool := false
  /-- Place in the arrival order of staged frames (R218). -/
  stagedAt : Nat := 0
  /-- Replayed from the custody store (R284). -/
  replayed : Bool := false
  /-- Time on TB0 of a custody record (R276), with its untimed bit. -/
  cts : Nat := 0
  untimed : Bool := false
  deriving DecidableEq, Repr

/-- An egress queue: TMS, RSQ and SCH state (R234 to R247). [DESIGN CHOICE, log 14] -/
structure Queue where
  frames : List QFrame := []
  /-- The sequence counter of the queue (R235). -/
  seqCtr : Word := 0
  /-- RSQ's next_seq (R237). -/
  nextSeq : Word := 0
  /-- Numbers reported ahead of next_seq. -/
  reported : List Word := []
  /-- Numbers skipped under R239. -/
  skipped : List Word := []
  spill : Bool := false
  /-- The open page of the spill chain and the next free byte in it. -/
  tail : Option (Nat × Nat) := none
  deficit : Int := 0
  turn : Bool := false
  /-- CBS credit (R247) in 1/1,228,800,000 byte: a slope of 1 kb/s moves it by 1 per base unit. -/
  credit : Int := 0
  creditBc : Nat := 0
  deriving DecidableEq, Repr

/-- A transmission in progress on a port (R242). -/
structure Tx where
  queue : Nat
  qf : QFrame
  stomp : Bool := false
  underrun : Bool := false
  startBc : Nat := 0
  /-- Length charged to the shapers. -/
  len : Nat := 0
  /-- Epoch of the gate list the frame started under (R253). -/
  gateEpoch : Nat := 0
  /-- The span sender holds the frame until it is acknowledged (R323), with the header it was sent under. -/
  held : Bool := false
  hdr : Option SpanHeader := none
  /-- Bytes as they leave, without FCS. -/
  wire : List Byte := []
  /-- The transmit stamp of the present attempt (R114). -/
  stamp : Nat := 0
  /-- The mirror session whose copy of this transmission waits for its end, 0 for none (R479). -/
  mirror : Nat := 0
  deriving DecidableEq, Repr

/-- The egress side of a port. [DESIGN CHOICE, log 14] -/
structure EPort where
  tx : Option Tx := none
  /-- DWRR pointer (R243). -/
  rr : Nat := 7
  /-- Port shaper tokens in 1/1,228,800 byte, and the base count they were filled at (R245). -/
  tokens : Int := 0
  tokensBc : Nat := 0
  /-- Base count before which no frame is promoted (R246). -/
  promoAfter : Nat := 0
  /-- Classes stopped by received pause or PFC (R84). -/
  paused : Nat := 0
  /-- XOFF signalled to the MAC: the classes, and the port as a whole (R85, R224). -/
  xoff : Nat := 0
  xoffPort : Bool := false
  /-- Local LPI has been entered and the wake is awaited. -/
  lpi : Bool := false
  /-- The LPI is deep sleep, not fast wake (R87). -/
  deep : Bool := false
  /-- MAC_PORT_CFG or FP_PORT_CFG as sampled when enable went from 0 to 1 (R74, R117). -/
  cfg : Nat := 0
  /-- Speed that the SGMII control word gave (R111). -/
  sgmii : Nat := 0
  /-- The SGMII control word has come and reports full duplex (R111, R115). -/
  sgmiiFull : Bool := false
  /-- A T1S segment's FP_PLCA_CFG and, above its 32 bits, FP_PLCA_BURST as last sampled (R107). -/
  plca : Nat := 0
  /-- Frames that may still follow in the present transmit opportunity, and the base count until which the next may start. -/
  burst : Nat := 0
  burstUntil : Nat := 0
  deriving DecidableEq, Repr

/-- A custody record (R276). [DESIGN CHOICE, log 65] -/
structure Record where
  frame : Frame
  cts : Nat
  untimed : Bool
  pages : List Nat
  off : Nat := 0
  image : List Byte := []
  deriving DecidableEq, Repr

/-- A custody queue (R273 to R286). -/
structure CQueue where
  /-- 0 EMPTY, 1 OVERFLOW, 2 HELD, 3 SETTLE, 4 REPLAY (R301). -/
  st : Nat := 0
  records : List Record := []
  tail : Option (Nat × Nat) := none
  /-- Slots of its anchors in append order, and the pages appended since its first (R278). -/
  anchors : List Nat := []
  appended : Nat := 0
  /-- A change of custody_en that waits for the queue to empty (R274). -/
  pendingEn : Option Bool := none
  /-- The custody_en in force. -/
  en : Bool
  /-- Replay token bucket in bytes (R284). -/
  bucket : Int := 0
  bucketBc : Nat := 0
  /-- Held by a lift under R381. -/
  lifted : Bool := false
  /-- Base count until which CUSTODY walks the queue anew after the loss of a block (R417). -/
  walkTill : Nat := 0
  deriving DecidableEq, Repr

/-- The states of a buffer (R204). -/
inductive BufState where
  | free | held | released | fenced
  deriving DecidableEq, Repr

/-- The state record of a buffer: a chain of granules, or one page (R204). [DESIGN CHOICE, log 65] -/
structure Buf where
  st : BufState := .free
  owner : Nat := 0
  refs : Nat := 0
  bad : Bool := false
  size : Nat := 1
  /-- Granules of the chain, head first, and those of them found bad (R232). -/
  chain : List Nat := []
  badGran : List Nat := []
  next : Nat := 0x3FFFFFFF
  gen : Nat := 0
  /-- Ingress port and class its granules are charged to (R224). -/
  charge : Option (Nat × Nat) := none
  /-- The page tag of a custody page (R276). -/
  tag : Option Nat := none
  deriving DecidableEq, Repr

/-- A pool of the pool-manager model (R201 to R212). [DESIGN CHOICE, log 14] -/
structure PoolSt where
  bufs : SMap Buf := []
  /-- Usage of each requester. -/
  usage : SMap Nat := []
  /-- Next bank group, or next channel, to grant from. -/
  rot : Nat := 0
  /-- Requester granted last from the shared part (R207). -/
  lastShared : Nat := 15
  /-- Bank groups fenced, and fencing (R225). -/
  fencedGroups : List Nat := []
  fencing : List Nat := []
  /-- Channels no page is granted from (R295). -/
  closed : List Nat := []
  /-- Granules whose state record does not match its parity bit (R204, R232). -/
  parBad : List Nat := []
  deriving DecidableEq, Repr

/-- A copy on its way to an egress queue (R213, R260). -/
structure Copy where
  frame : Frame
  port : Nat
  buf : Nat
  /-- The multicast job it belongs to. -/
  job : Option Nat := none
  /-- Admitted for replay, exempt from T (R284). -/
  replay : Bool := false
  deriving DecidableEq, Repr

/-- A frame that REP replicates: how its copies have fared (R260, R261). -/
structure McJob where
  id : Nat
  ingress : Nat := 0
  left : Nat
  admitted : Nat := 0
  refused : Nat := 0
  buf : Nat
  deriving DecidableEq, Repr

/-- A frame in a pipeline, between its passes. -/
structure PFrame where
  frame : Frame
  buf : Nat
  /-- Why it recirculates: 0 fresh, 1 rule action, 2 LPM continuation. -/
  stage : Nat := 0
  /-- Rule key carried to pass 1, or the LPM depth reached. -/
  arg : Nat := 0
  /-- Base count at which it entered the recirculation FIFO. -/
  since : Nat := 0
  /-- The rule bank it was pinned to at pass 0 (R153). -/
  bank : Nat := 0
  mtrBank : Nat := 0
  deriving DecidableEq, Repr

/-- The state of a banked table: RUL, MTR or a GAT list (R153 to R156, R253, R256). -/
structure Bank where
  active : Nat := 0
  epoch : Nat := 0
  /-- Frames in flight on the falsework bank. -/
  inflight0 : Nat := 0
  inflight1 : Nat := 0
  retiring : Bool := false
  guard : Bool := false
  deriving DecidableEq, Repr

/-- A queued FDB flush (R184). -/
structure Flush where
  value : Nat
  since : Nat
  deriving DecidableEq, Repr

/-- A pipeline: LN0 to LN3 (0 to 3) and the field pipeline (4). [DESIGN CHOICE, log 14] -/
structure Pipe where
  /-- Frames waiting for a pass-0 slot, oldest first. -/
  arrivals : List PFrame := []
  /-- The recirculation FIFO (R155). -/
  recirc : List PFrame := []
  rul : Bank := {}
  mtr : Bank := {}
  /-- Rule, FDB, LPM, group entries that failed parity: (page, select, bank, index) keys. -/
  failed : List Nat := []
  /-- FDB bucket the walker visits next, and the two passes of R181. -/
  bucket : Nat := 0
  ageing : Bool := false
  passStart : Nat := 0
  flushes : List Flush := []
  /-- The LEARN service resynchronises this pipeline and waits for the flushes elsewhere (R188). -/
  resyncing : Bool := false
  /-- Learn events queued for the other pipelines (R185). -/
  events : List LearnEvent := []
  /-- The FDB seed in use (R197). -/
  seed : Nat := 0
  /-- Base count since which frames have waited with no slot issued; base count up to which unused slots are counted, and the slots used
  since (R160). -/
  waitFrom : Nat := 0
  idleFrom : Nat := 0
  slotsUsed : Nat := 0
  deriving DecidableEq, Repr

/-- A power domain (R27, R28). -/
structure Dom where
  st : PwrState := .on
  /-- Transition in progress. -/
  going : Option PwrState := none
  /-- Request that waits: for the transition to end, or for an in-rush slot. -/
  pending : Option PwrState := none
  /-- The page that named the request: a refusal is recorded there (R30). -/
  reqPage : Nat := 0
  deriving DecidableEq, Repr

/-- The die-to-die link (R11 to R14). -/
inductive D2dState where
  | up | replay | retrain | down
  deriving DecidableEq, Repr

/-- [DESIGN CHOICE, log 14; DEDUCED, log 39] -/
structure D2d where
  st : D2dState := .up
  /-- Of the deck-die receiver and of the abutment-die receiver: it replays, and how many replays in a row have failed. -/
  repCor : Bool := false
  repFld : Bool := false
  fails : Nat := 0
  failsFld : Nat := 0
  expToCor : BitVec 16 := 0
  expToFld : BitVec 16 := 0
  /-- Frames held toward COR while the link does not carry them (R13). -/
  toCor : List PFrame := []
  /-- Escalations of FLD to chip level that wait for the link (R12): unit, source and power domain. -/
  signals : List (Nat × Nat × Nat) := []
  deriving DecidableEq, Repr

/-- How the chip as a whole runs. -/
inductive Mode where
  | run
  /-- Custody hold with its hold cause (R292). -/
  | custodyHold
  /-- Held in reset: RESET_N low, or a start that must wait (R563). -/
  | inReset
  deriving DecidableEq, Repr

/-- The control pins (R549, R568). [DESIGN CHOICE, log 10] -/
structure Pins where
  resetN : Bool := true
  pfwN : Bool := true
  perstN : Bool := true
  custodyHold : Bool := false
  bootSrc : BitVec 2 := 0
  footwayEn : Bool := false
  deriving DecidableEq, Repr

/-- A latched window command (R64): 1 read, 2 write, 3 invalidate. -/
structure TblCmd where
  op : Nat
  addr : Nat
  data : Entry
  deriving DecidableEq, Repr

/-- An anchor of a custody queue (R278). Until a record begins in its page the stamp reads 0. [DESIGN CHOICE, log 65] -/
structure Anchor where
  page : Nat
  queue : Nat
  gen : Nat
  next : Nat := 0x1FFFFF
  stamp : Nat := 0
  begun : Bool := false
  deriving DecidableEq, Repr

/-- A queue record of a journal (R290). -/
structure JournalQueue where
  queue : Nat
  st : Nat
  head : Nat
  headOff : Nat
  tail : Nat
  tailOff : Nat
  frames : Nat
  pages : Nat
  firstAnchor : Nat
  lastAnchor : Nat
  deriving DecidableEq, Repr

/-- A message that an engine has taken and not finished: block, engine, message, ring entry (R404, R418). -/
structure HandMsg where
  block : Nat
  engine : Nat
  msg : SvcRequest
  index : Nat
  deriving DecidableEq, Repr

/-- A journal (R290). [DESIGN CHOICE, log 65] -/
structure Journal where
  generation : Nat
  cause : Nat
  lost : Nat
  /-- TB0 at writing. -/
  sec : Nat
  ns : Nat
  queues : List JournalQueue
  channels : Nat
  serials : List Nat
  crc : Nat := 0
  /-- The records that each queue's recorded chain reaches (R291). -/
  records : List (Nat × List Record) := []
  deriving DecidableEq, Repr

/-- The custody store as a whole. -/
structure Custody where
  /-- The journal slots: A and B of channel 0, A and B of channel 8 (R277). -/
  slots : SMap (Option Journal) := []
  /-- The anchor slots in use (R277, R278). -/
  anchors : SMap (Option Anchor) := []
  /-- TB0 value, in ns, at which TB0 became valid in this start-up (R280). -/
  tb0ValidAt : Nat := 0
  draining : Option Nat := none
  readmitting : Option Nat := none
  deriving DecidableEq, Repr

/-- A DIMM of a memory channel (R297). [DESIGN CHOICE, log 11] -/
structure Dimm where
  serial : Nat
  /-- Capacity in 1/16 TiB. -/
  capacity : Nat := 4
  present : Bool := true
  inService : Bool := true
  selfRefresh : Bool := false
  deriving DecidableEq, Repr

/-- Injection (R494 to R496). -/
structure Injection where
  /-- The nonce drawn last and the base count of the draw. -/
  nonce : Option (Nat × Nat) := none
  /-- Base count of a matching key, or of a token's verification. -/
  keyAt : Option Nat := none
  /-- Faults in force: kind, page, cell, index, bit; sticky ones are re-applied. -/
  faults : List (Nat × Nat × Nat × Nat × Nat × Bool) := []
  /-- Base count at which injection locks again. -/
  until' : Nat := 0
  /-- Interrupt sources injected, which INT_INJ_MODE may re-raise: page and source. -/
  srcs : List (Nat × Nat) := []
  /-- Lanes without a signal by injection kind 8, and the base count at which each may have it again. -/
  dark : List (Nat × Nat) := []
  deriving DecidableEq, Repr

/-- An inspection request (R497, R498). -/
structure Inspection where
  id : Nat
  action : Nat
  page : Nat
  cell : Nat
  force : Bool := false
  windowed : Bool := false
  tb : Nat := 0
  /-- Instant of the window in ns, and its length in µs. -/
  inst : Nat := 0
  len : Nat := 0
  /-- Deadline in seconds; 0 for none. -/
  deadline : Nat := 0
  param : Nat := 0
  /-- 0 queued, 1 running. -/
  phase : Nat := 0
  /-- Its preparation has been started. -/
  prep : Bool := false
  /-- MARK lift entry armed for the window. -/
  lift : Option Nat := none
  deriving DecidableEq, Repr

/-- Footway state that no register shows (R507): egress FIFOs by slot, high priority first. -/
structure Footway where
  high : SMap (List Frame) := []
  low : SMap (List Frame) := []
  /-- The millisecond of the last frame, and the frames and octets forwarded in it: all, and those of high priority (R507). -/
  slot : Nat := 0
  all : Nat × Nat := (0, 0)
  urgent : Nat × Nat := (0, 0)
  deriving DecidableEq, Repr

/-- Thermal state (R561 to R563). [DESIGN CHOICE, log 14] -/
structure Thermal where
  /-- A reading forced by injection kind 9, in 0.1 °C, and the base count at which it ends. -/
  forced : Option (Int × Nat) := none
  /-- Reported temperature at the last sample, in 0.1 °C. -/
  reported : Int := 250
  /-- The two always-on sensors, in °C (R563). -/
  aonDeck : Int := 25
  aonAbut : Int := 25
  deriving DecidableEq, Repr

/-- A SEC command in progress (R542, R543): its code and what it was given. -/
structure SecCmd where
  code : Nat
  bundle : HostRead Bundle := .error
  sigAskineOk : Bool := false
  sigOwnerOk : Bool := false
  /-- The request met a bus error (R536). -/
  busError : Bool := false
  /-- The flash took what STAGE programs (R544). -/
  flashOk : Bool := true
  deriving DecidableEq, Repr

/-- A region certificate (R520): what its extension carries. -/
structure Cert where
  measure : Nat := 0
  owner : Nat := 0
  generation : Nat := 0
  deriving DecidableEq, Repr

/-- A request of an engine to SPX (R535): the block, SIGN or VERIFY_PEER by its opcode, and what it asks. -/
structure SpxReq where
  block : Nat
  op : Nat
  args : List Nat
  deriving DecidableEq, Repr

/-- The security processor and the start-up (R519 to R546). [DESIGN CHOICE, log 110] -/
structure BootSt where
  /-- 0 ROM, 1 SPX firmware, 2 the other images, 3 started. -/
  stage : Nat := 0
  slotA : Option Bundle := none
  slotB : Option Bundle := none
  /-- The host bundle ROM has read for this start. -/
  hostBundle : Option Bundle := none
  running : Option Bundle := none
  /-- The always-on domain has lost power since BOOT_SEL was kept (R525). -/
  aonLost : Bool := true
  /-- DIMM contents were kept for this start (R530 step 10). -/
  kept : Bool := false
  /-- 0 no DIMM work, 1 training, 2 initialising. -/
  dram : Nat := 0
  /-- Debug scopes unlocked, with the base count each ends at (R540). -/
  scopes : List (Nat × Nat) := []
  /-- SPX refuses signatures until the next cold chip reset (R540). -/
  locked : Bool := false
  /-- Nonce drawn last by DEBUG_NONCE and when (R539). -/
  nonce : Option (Nat × Nat) := none
  cmd : Option SecCmd := none
  /-- Channels that take the DDR PHY firmware at their next training, and that firmware (R538). -/
  phyMask : Nat := 0
  phyNew : Option Component := none
  /-- Requests of engines that wait for SPX to restart, at most 64 (R535, R538). -/
  asked : List SpxReq := []
  /-- The region certificates issued last (R520, R521). -/
  certs : SMap Cert := []
  deriving DecidableEq, Repr

/-- PCIe state that no register shows: the MSI-X table of R423 and the two conditions of R424. Every vector is masked at reset. [PRESUMED, log 31] -/
structure Pcie where
  bme : Bool := false
  d3hot : Bool := false
  linkUp : Bool := true
  /-- Speed in Gen units and width at which the link trained (R423, R451). -/
  speed : Nat := 5
  width : Nat := 8
  /-- Per-vector mask and pending bits of the MSI-X table. -/
  mask : Nat := 2 ^ 512 - 1
  pend : Nat := 0
  /-- Message address and data words of the table, by BAR4 offset. -/
  msix : SMap Word := []
  deriving DecidableEq, Repr

/-- A time base (R341): its anchor pair and rate word, and what steers it. Times are kept in units of 2^-32 ns. [DESIGN CHOICE, log 14] -/
structure TimeBase where
  ba : Nat := 0
  ta : Nat := 0
  /-- The rate word R in 2^-64 ns per base unit (R343). -/
  rate : Nat := 0x01AAAAAAAAAAAAAB
  /-- TB_FREQ, or the servo output, in force, in 2^-8 ppb. -/
  f : Int := 0
  /-- The slew term in force, in ppb, 0 when no slew runs (R347). -/
  slew : Int := 0
  /-- Interval time at `runBc`, in 2^-64 ns: what the rate has added since cold reset, without sets and steps (R351). -/
  run : Nat := 0
  runBc : Nat := 0
  /-- Base count at which the slew in progress ends. -/
  slewEnd : Nat := 0
  /-- Remainder of the slew at the anchor, in 2^-32 ns, signed. -/
  slewLeft : Int := 0
  /-- Base count of the last change, and whether there was one (R348). -/
  lastChange : Option Nat := none
  /-- Held changes: set (sec-ns-frac total, base count), set now, sum of steps, rate, servo, slew. -/
  heldSet : Option (Nat × Nat) := none
  heldSetNow : Option Nat := none
  heldStep : Option Int := none
  heldRate : Option Int := none
  heldServo : Option Int := none
  heldSlew : Option (Int × Nat) := none
  /-- Lift entries whose TIME_STEP waits in `heldStep`. -/
  heldLifts : List Nat := []
  /-- Parameter sets of the generations before this one, newest first, seven at most: the base count it began at, its
  anchor, its rate words with and without the slew term, and the end of its slew, 0 for none (R357). -/
  gens : List (Nat × Nat × Nat × Nat × Nat × Nat) := []
  /-- The next sample is handled as after HOLDOVER (R354). -/
  fromHold : Bool := false
  /-- Servo: integrator and last θ in 2^-16 ns, frequency estimate held, samples in a row, last sample time. -/
  integ : Int := 0
  thetaPrev : Int := 0
  haveTheta : Bool := false
  haveEst : Bool := false
  locks : Nat := 0
  lastSample : Option Nat := none
  deriving DecidableEq, Repr

/-- An entry of a pin's capture FIFO (R366): base count, time in 2^-32 ns, valid bit of the time base. -/
structure TioCap where
  bc : Nat
  time : Int := 0
  valid : Bool := false
  deriving DecidableEq, Repr

/-- A capture record: its offset in the ring and its bytes, header first (R483). -/
structure CapRec where
  off : Nat
  bytes : List Byte
  deriving DecidableEq, Repr

/-- A capture partition (R483, R484). -/
structure CapPart where
  size : Nat := 0
  pages : List Nat := []
  recs : List CapRec := []
  /-- Bytes written since the trigger. -/
  post : Nat := 0
  deriving DecidableEq, Repr

/-- A started entry of a copy channel (R439, R462). -/
structure ChanEntry where
  ring : Nat
  waitLift : Bool
  srcSpace : Nat
  dstSpace : Nat
  tag : Nat
  len : Nat
  xform : Nat
  src : Nat
  dst : Nat
  /-- Source bytes read so far, and the lowest and highest address written. -/
  got : List Byte := []
  written : Nat := 0
  /-- gen of the DRAM page at the first beat (R457). -/
  gen : Option Nat := none
  /-- Status fixed before the first beat: refused entries complete with it. -/
  status : Nat := 0
  running : Bool := false
  /-- Submission index of its first slot. -/
  index : Nat := 0
  /-- Source bytes that reads have been issued for; the next read waits to be issued (R462, R463). -/
  asked : Nat := 0
  due : Bool := false
  /-- Lowest, and one past the highest, destination address written. -/
  dirtyLo : Nat := 0
  dirtyHi : Nat := 0
  deriving DecidableEq, Repr

/-- A copy channel: its entries, its token bucket in 1/12288 byte with the base count it was filled at, and the source bytes it has
asked for over its weight, in 2^-16 byte (R463). -/
structure Chan where
  entries : List ChanEntry := []
  fill : Int := 65536 * 12288
  fillBc : Nat := 0
  used : Nat := 0
  deriving DecidableEq, Repr

/-- A sequenced frame that a span sender holds (R316, R323). A LEARN or CTRL frame holds its kind and fields. -/
structure SpanSent where
  seq : Word
  frame : Option Frame := none
  ctrl : Option (String × List Nat) := none
  /-- Granules referenced, or pages of the record. -/
  buf : Option Nat := none
  pages : List Nat := []
  /-- The pages belong to the region's SPN requester (R324). -/
  own : Bool := false
  /-- Times it has been sent on its link, and whether it waits to be sent once more (R320, R324, R325). -/
  sends : Nat := 1
  due : Bool := false
  sentBc : Nat := 0
  deriving DecidableEq, Repr

/-- A sequence space of a span link (R315 to R319). Times are in TB0 interval time (R351). -/
structure SpanSpace where
  una : Word := 0
  nxt : Word := 0
  rcvCum : Word := 0
  sent : List SpanSent := []
  /-- Held beyond rcv_cum: number, frame and its granules, or learn events of space 8. -/
  ooo : List (Word × Frame × Option Nat) := []
  oooLearn : List (Word × List LearnEvent) := []
  sinceAck : Nat := 0
  sampled : Bool := false
  srtt : Nat := 0
  rttvar : Nat := 0
  /-- Doublings of RTO since the last advance, and consecutive expiries. -/
  backoff : Nat := 0
  expiries : Nat := 0
  deriving DecidableEq, Repr

/-- A span link. -/
structure SpanLink where
  /-- The port sampled when enable went from 0 to 1. -/
  port : Option Nat := none
  spaces : SMap SpanSpace := []
  lastHello : Nat := 0
  /-- TB0 interval time before which no new exchange starts (R308). -/
  retryAt : Nat := 0
  /-- Serial, span MAC and session of the HELLO under authentication. -/
  peer : Nat := 0
  peerMac : Nat := 0
  peerSession : Nat := 0
  offered : Bool := false
  /-- The open page of the copies of R324. -/
  tail : Option (Nat × Nat) := none
  /-- The partner has named this link in a HANDOVER (R325). -/
  closed : Bool := false
  /-- It has been joined in the present session. -/
  member : Bool := false
  /-- Rejoined in its session: the partner's rcv_cum has not come yet (R324). -/
  awaitCum : Bool := false
  deriving DecidableEq, Repr

/-- The span pair (R309, R329). [DESIGN CHOICE, log 14] -/
structure Span where
  /-- Span MAC sampled when enable went from 0 to 1. -/
  mac : Nat := 0
  on : Bool := false
  links : SMap SpanLink := []
  /-- Session identifier the secondary has heard of. -/
  splitSince : Nat := 0
  /-- Learn events of the frame that is filling (R330). -/
  learn : List LearnEvent := []
  /-- The bulk synchronisation of R332 is still to be made, or to be repeated. -/
  bulk : Bool := false
  /-- The old link of a handover that waits (R325). -/
  handover : Option Nat := none
  deriving DecidableEq, Repr

/-- Codewords of an RS-FEC port in the present 10⁶, how many could not be corrected, and the verdict in force (R75). -/
structure FecWindow where
  seen : Nat := 0
  bad : Nat := 0
  high : Bool := false
  deriving DecidableEq, Repr

/-- Line sensing of a pair (R122 to R128). [DESIGN CHOICE, log 14] -/
structure Sense where
  /-- Class of the last sample and how many in a row gave it. -/
  cand : Nat := 0
  run : Nat := 0
  echo : Echo := .clear
  testing : Bool := false
  /-- Conductors P and N inside a clamp event, the base count the last event began at, and the one it ended at. -/
  clamped : Bool := false
  clampedN : Bool := false
  clampAt : Option Nat := none
  clampEnd : Option Nat := none
  calBad : Bool := false
  latched : Bool := false
  deriving DecidableEq, Repr

/-- Collisions of the frame at a T1S port (R109, R110): attempts made, waiting for its turn, slot times drawn. -/
structure Coll where
  attempts : Nat := 0
  waiting : Bool := false
  slots : Nat := 0
  deriving DecidableEq, Repr

/-- What a capture or mirror copy says of its frame (R481, R483). -/
structure CopyInfo where
  session : Nat
  dir : Nat
  trunc : Bool
  cut : Bool
  dropped : Bool
  inPort : Nat
  outPort : Nat
  reason : Nat
  tc : Nat
  colour : Nat
  origLen : Nat
  ts : Nat
  deriving DecidableEq, Repr

/-- An ingress mirror copy that waits for the end of its frame (R82, R477): the frame, the copy, the region. -/
structure HeldCopy where
  frame : Frame
  info : CopyInfo
  region : Nat
  deriving DecidableEq, Repr

/-- An entry of a stamp FIFO (R364): the port, the ring and tag of the host entry, and the stamp. -/
structure Stamp where
  port : Nat
  ring : Nat
  tag : Nat
  bc : Nat
  deriving DecidableEq, Repr

/-- What Bascule keeps of an armed lift beside its record and its status entry (R377, R382 to R387). -/
structure LiftX where
  /-- Instant of the next occurrence in ns, and how many occurrences came before it. -/
  inst : Nat := 0
  done : Nat := 0
  /-- Occurrences left after the next; none where the series has no end. -/
  left : Option Nat := some 0
  launch : Nat := 0
  /-- Base count of the last launch (R397). -/
  last : Nat := 0
  late : Bool := false
  /-- A TIME_STEP that R348 holds back (R386). -/
  waiting : Bool := false
  /-- A TIME_STEP lift has launched in the cycle in which this lift is due, and does not move it (R383). -/
  due : Bool := false
  solo : Bool := false
  /-- First occurrence that an agreed cancellation takes away (R394). -/
  stopAt : Option Nat := none
  deriving DecidableEq, Repr

/-- A coordinated group (R391 to R394). -/
structure CoordGroup where
  announced : Bool := false
  partner : Option CoordFields := none
  committed : Bool := false
  /-- COMMITTED has come back (primary). -/
  confirmed : Bool := false
  deriving DecidableEq, Repr

/-- An entry of a submission ring that is on chip: its index, its slots and what its gather reads return, or its message. -/
structure Fetched where
  index : Nat
  count : Nat
  slots : List (BitVec 128) := []
  data : HostRead (List Byte) := .error
  msg : Option SvcRequest := none
  deriving DecidableEq, Repr

/-- A posted receive buffer (R437). -/
structure RxBuf where
  index : Word
  tag : Nat
  len : Nat
  addr : Nat
  deriving DecidableEq, Repr

/-- A submission ring as it was sampled (R429), and its work. -/
structure SqRing where
  on : Bool := false
  typ : Nat := 0
  size : Nat := 64
  cq : Nat := 0
  pipe : Nat := 0
  base : Nat := 0
  rcb : Nat := 0
  noSnoop : Bool := false
  /-- A read of prod is outstanding, and another is wanted after it (R430). -/
  reading : Bool := false
  again : Bool := false
  /-- A doorbell came while PCIe took no request: the read of prod is still to be issued (R424, R430). -/
  readDue : Bool := false
  /-- Posted buffers of an RX ring, oldest first. -/
  posted : List RxBuf := []
  /-- Entries of another ring that are fetched and not yet started, oldest first (R431). -/
  fetched : List Fetched := []
  /-- Entries started and not yet complete. -/
  inflight : Nat := 0
  /-- Its next entry waits for completion room (R441). -/
  waiting : Bool := false
  deriving DecidableEq, Repr

/-- A completion (R442, R443): its records, and its data area or, for a service message, the message's fields. -/
structure Compl where
  typ : Nat
  notify : Bool := false
  status : Nat := 0
  sq : Nat := 0
  index : Nat := 0
  tag : Nat := 0
  records : Nat := 1
  data : List Byte := []
  msg : List Nat := []
  deriving DecidableEq, Repr

/-- A completion ring as it was sampled, the completions it holds on chip, and its moderation (R440, R449). -/
structure CqRing where
  on : Bool := false
  size : Nat := 64
  vector : Nat := 0
  irq : Bool := false
  base : Nat := 0
  rcb : Nat := 0
  held : List Compl := []
  reserved : Nat := 0
  count : Nat := 0
  since : Option Nat := none
  due : Bool := false
  /-- A doorbell came while PCIe took no request (R424, R441). -/
  readDue : Bool := false
  deriving DecidableEq, Repr

/-- A TX entry that waits for its two-step stamp, in tb_a or tb_b of its port (R434, R436). -/
structure TxWait where
  ring : Nat
  tag : Nat
  index : Nat
  len : Nat
  sel : Bool
  since : Nat
  deriving DecidableEq, Repr

/-- The image that an engine block holds (R410). -/
structure BlockImg where
  service : Nat := 0
  version : Nat := 0
  stateVer : Nat := 0
  stateMin : Nat := 0
  slot : Nat := 0
  deriving DecidableEq, Repr

/-- A load or a migration in progress (R410, R412). -/
inductive SvcOp where
  | load (block slot : Nat)
  | migrate (source target : Nat)
  deriving DecidableEq, Repr

/-- The whole machine. -/
structure State where
  baseCount : BitVec 96 := 0
  regs : SMap Word := []
  tabs : SMap Entry := []
  snaps : SMap Entry := []
  /-- Commands waiting, first in first out. -/
  pending : List Instr := []
  /-- The model's own counter for free values: each use reads it and advances it. -/
  freeCtr : Nat := 0
  /-- The model's own record of what left the chip, newest first. -/
  out : List Output := []
  /-- What the last register access answered. -/
  resp : Response := .none
  /-- Sources of severity ESCALATE that fired in the present command and wait for the levels above. -/
  escal : List (Nat × Nat) := []
  rdShadow : SMap (Option (Nat × Word)) := []
  wrShadow : SMap (Option (Nat × Word)) := []
  tblCmd : SMap (Option TblCmd) := []
  /-- Words whose stored parity is inverted (R58). -/
  parBad : List Nat := []
  mode : Mode := .run
  pins : Pins := {}
  doms : SMap Dom := []
  /-- Scopes in HOLD: (page, cell + 1), cell 0 for the page's whole scope (R66). -/
  holds : List (Nat × Nat) := []
  resets : List ResetScope := []
  d2d : D2d := {}
  queues : SMap Queue := []
  eports : SMap EPort := []
  admitting : List Copy := []
  jobs : List McJob := []
  /-- Frame whose end a port has not received yet. -/
  rxOpen : SMap (Option PFrame) := []
  pipes : SMap Pipe := []
  gates : SMap Bank := []
  gran : PoolSt := {}
  page : PoolSt := {}
  /-- DRAM words that do not read correctly: page index and 8-byte word (R220, R221). -/
  dramBad : List (Nat × Nat) := []
  cqueues : SMap CQueue := []
  cust : Custody := {}
  dimms : SMap Dimm := []
  nextId : Nat := 1
  inj : Injection := {}
  insp : List Inspection := []
  foot : Footway := {}
  /-- The footway slots and table as the last accepted commit took them (R505). -/
  fwTabs : SMap Entry := []
  therm : Thermal := {}
  pcie : Pcie := {}
  tbs : SMap TimeBase := []
  /-- Base count + 1 of the last fill of a meter's buckets; 0 while they are full (R255). Keyed page * 2^16 + index. -/
  mtrLast : SMap Nat := []
  /-- Mirror sampling counts, keyed session * 16 + region, and per-session copy counts (R478, R481). -/
  mirCnt : SMap Nat := []
  mirSeq : SMap Nat := []
  /-- Length-filter counts stuck at 15 (R191): keyed ((pipe * 2 + v6) * 256 + len) * 16384 + index. -/
  lpmStuck : SMap Nat := []
  caps : SMap CapPart := []
  chans : SMap Chan := []
  scratch : List Nat := []
  span : Span := {}
  /-- Capture FIFOs of the TIO pins: base counts, oldest first (R366). -/
  tioFifo : SMap (List TioCap) := []
  /-- Base count of the last edge that each capture pin counted (R366). -/
  tioLast : SMap (Option Nat) := []
  sense : SMap Sense := []
  colls : SMap Coll := []
  /-- Cages whose module has had its one ResetL pulse, and their bus recoveries in a row (R91, R92). -/
  modRetry : List Nat := []
  /-- By lane: the SDQ_LANEl_TXEQ write that waits for link training to end (R80). -/
  eqHeld : SMap (Option Word) := []
  modNacks : SMap Nat := []
  /-- By port: the codeword window (R75). By quad: the lane whose eye is scanned (R80). By cage: the levels of ResetL [0], LPMode
  [1] and ModSelL [2], and the command of the raw access in progress (R91, R92). The latched SNS_DIAG_CMD (R126). -/
  fecWin : SMap FecWindow := []
  eyeLane : SMap Nat := []
  cagePins : SMap Nat := []
  xferCmd : SMap Nat := []
  diagCmd : Nat := 0
  /-- Mirror copies held until their frame ends. -/
  mirHeld : List HeldCopy := []
  /-- The stamp FIFOs of the line regions and FLD, oldest first. -/
  stamps : List Stamp := []
  /-- Ports that act as a transparent clock, and ports that carry PTP event messages, as bit masks (R88, R364). -/
  tcPorts : Nat := 0
  ptpPorts : Nat := 0
  /-- Bascule: its lifts, coordinated groups, done FIFO (index, outcome, group, lateness), and the held TIME_STEPs that a
  change of a time base has just let through or refused. -/
  lifts : SMap LiftX := []
  groups : SMap CoordGroup := []
  /-- Base count of the last dispatch: at most one lift goes in a CK_TIME cycle (R382). -/
  dispatchAt : Option Nat := none
  bscFifo : List (Nat × Nat × Nat × Nat) := []
  stepped : List (Nat × Bool) := []
  /-- The rings (R425), the TX entries that wait for a stamp, and the base count + 1 at which each class of the host port began
  to wait for a buffer. -/
  sqs : SMap SqRing := []
  cqs : SMap CqRing := []
  txWait : List TxWait := []
  /-- Per class, the head of its host-port queue that waits for a buffer and the base count it began to (R438). -/
  rxWait : SMap (Option (Word × Nat)) := []
  /-- Per ring type, the ring whose turn it is and the entries that it has started in it (R432). -/
  turns : SMap (Nat × Nat) := []
  /-- Stamped host frames that ended unsent in the present command (ring and tag), and the reason code counted last in it. -/
  lostTx : List (Nat × Nat) := []
  lastReason : Nat := 0
  /-- A scratch change in progress (R458), and the bytes of the scratch area: value + 1, 0 where nothing was written. -/
  scratchNew : Option (List Nat) := none
  scratchMem : SMap Nat := []
  /-- Engines: images in blocks, the load or migration in progress, the bucket tables of the services (R404), the messages
  that EMB holds with their submission index (R412), and what each service keeps: configuration bytes, objects (service, key, bytes), requests served. -/
  blkImg : SMap BlockImg := []
  svcOp : Option SvcOp := none
  buckets : SMap (List Nat) := []
  embHold : List (SvcRequest × Nat) := []
  /-- Messages that engines handle, in the order taken, and those that wait to be redelivered (R418). -/
  inHand : List HandMsg := []
  redeliv : List (SvcRequest × Nat) := []
  svcCfg : SMap (List Byte) := []
  svcObjs : List (Nat × Nat × List Byte) := []
  svcServed : SMap Nat := []
  /-- Digests of the stored images, the length of the measurement log, and the serial numbers of region certificates. -/
  storeDigest : SMap Nat := []
  logLen : Nat := 0
  certSerial : SMap Nat := []
  /-- The security processor and the start-up. -/
  boot : BootSt := {}
  /-- Table entries whose parity failed and that no scan has reported yet. -/
  tabBad : List Nat := []
  /-- The always-on supply has failed since the last start: group 1 of R555 comes up anew (R37). -/
  aonFailed : Bool := false
  /-- Base count of the last kick of the chip watchdog, or of the write that set its period (R493). -/
  wdogAt : Nat := 0
  /-- Base-count replicas that have been reloaded (R356), by page: 1 not matched since, 2 matched once; 0 for the others. -/
  replicas : SMap Nat := []
  deriving DecidableEq, Repr

/-- R530 steps 1 to 3: the domains that a cold start has ON before SPX firmware runs: HST PCIe, HST security, TIM core. [DEDUCED, log 9] -/
def startDoms : SMap Dom :=
  ((List.range 176).filter (fun d => !(d == 170 || d == 172 || d == 174))).map (fun d => (d, ({ st := .off } : Dom)))

/-- The machine right after reset: every register and table at its reset value, every queue empty, ROM about to choose a
bundle (R523, R530). BOOT_SRC is strapped 10: flash, and the host when no slot holds a valid bundle. [DEDUCED, log 9; DESIGN CHOICE, log 10] -/
def State.reset : State := { doms := startDoms, pins := { bootSrc := 2 } }

end Sys2Proof.Machine
end

