-- ==== Sys2Proof/Machine/Bits.lean ====
section
/-! DEFINITION. Bit fields, sign extension and byte order: the plain helpers over numbers that the register
fields (R5: [msb:lsb]), table entries and frames are read and written with. -/

namespace Sys2Proof.Machine

/-- Bits [hi:lo] of `n` as a number. -/
def bitsOf (n hi lo : Nat) : Nat := (n >>> lo) % 2 ^ (hi + 1 - lo)
/-- Bit `b` of `n`. -/
def bitOf (n b : Nat) : Bool := n.testBit b
/-- `n` with bits [hi:lo] replaced by the low bits of `v`. -/
def withBits (n hi lo v : Nat) : Nat :=
  n - (bitsOf n hi lo) * 2 ^ lo + (v % 2 ^ (hi + 1 - lo)) * 2 ^ lo
/-- 1 for true, 0 for false. -/
def b2n (b : Bool) : Nat := if b then 1 else 0
/-- The low `w` bits of `n` read as a signed number. -/
def signedOf (w n : Nat) : Int :=
  let m := n % 2 ^ w
  if m < 2 ^ (w - 1) then (m : Int) else (m : Int) - (2 ^ w : Nat)
/-- A signed number as `w` bits. -/
def unsignedOf (w : Nat) (i : Int) : Nat := (i % ((2 ^ w : Nat) : Int)).toNat
/-- `n + k`, stopping at `2 ^ w - 1`. [DESIGN CHOICE, log 81] -/
def satAdd (w n k : Nat) : Nat := min (n + k) (2 ^ w - 1)
/-- ⌈a / b⌉. -/
def ceilDiv (a b : Nat) : Nat := (a + b - 1) / b
/-- `a` clamped to [lo, hi]. -/
def clampN (a lo hi : Nat) : Nat := max lo (min a hi)
/-- `a` clamped to [lo, hi]. -/
def clampI (a lo hi : Int) : Int := max lo (min a hi)
/-- The number of ones among the low `w` bits. -/
def popCount : Nat → Nat → Nat
  | 0, _ => 0
  | w + 1, n => n % 2 + popCount w (n / 2)
/-- The positions of the ones among bits `from` to `from + w - 1`. -/
def onesFrom : Nat → Nat → Nat → List Nat
  | 0, _, _ => []
  | w + 1, i, n => if n % 2 = 1 then i :: onesFrom w (i + 1) (n / 2) else onesFrom w (i + 1) (n / 2)
/-- The positions of the ones among the low `w` bits, lowest first. -/
def onesOf (w n : Nat) : List Nat := onesFrom w 0 n

/-- Bytes read as one number, the first byte most significant (the order on the wire). -/
def beNat (bs : List Byte) : Nat := bs.foldl (fun a b => a * 256 + b.toNat) 0
/-- Bytes read as one number, the first byte least significant. -/
def leNat : List Byte → Nat
  | [] => 0
  | b :: bs => b.toNat + 256 * leNat bs
/-- A number as `n` bytes, the first byte least significant. -/
def leBytes : Nat → Nat → List Byte
  | 0, _ => []
  | n + 1, v => BitVec.ofNat 8 v :: leBytes n (v / 256)
/-- A number as `n` bytes, the first byte most significant. -/
def beBytes (n v : Nat) : List Byte := (leBytes n v).reverse
/-- `len` bytes of `bs` from `off`. -/
def slice (bs : List Byte) (off len : Nat) : List Byte := (bs.drop off).take len
/-- The field of `len` bytes at `off`, first byte most significant. -/
def beAt (bs : List Byte) (off len : Nat) : Nat := beNat (slice bs off len)
/-- `bs` with the bytes at `off` replaced by `new`. -/
def splice (bs : List Byte) (off : Nat) (new : List Byte) : List Byte :=
  bs.take off ++ new ++ bs.drop (off + new.length)

/-- Exactly `n` bytes. -/
def fitBytes (n : Nat) (l : List Byte) : List Byte := (l ++ List.replicate n 0).take n

/-- The first element that satisfies `p`, and the rest without it. -/
def takeFirst {α : Type} (p : α → Bool) : List α → Option (α × List α)
  | [] => none
  | x :: xs =>
    if p x then some (x, xs)
    else match takeFirst p xs with
      | none => none
      | some (y, ys) => some (y, x :: ys)

/-- The elements of `l` numbered from `i`. -/
def numbered {α : Type} : Nat → List α → List (Nat × α)
  | _, [] => []
  | i, x :: xs => (i, x) :: numbered (i + 1) xs

/-- The list with its element at `i` replaced. -/
def setNth {α : Type} : List α → Nat → α → List α
  | [], _, _ => []
  | _ :: xs, 0, y => y :: xs
  | x :: xs, i + 1, y => x :: setNth xs i y

/-! ### CRC-32 (R81, R290) -/

/-- One bit of the reflected CRC-32 of IEEE 802.3. -/
def crcBit (c : Nat) : Nat := if c % 2 = 1 then (c / 2) ^^^ 0xEDB88320 else c / 2
def crcByte (c : Nat) (b : Byte) : Nat := (List.range 8).foldl (fun c _ => crcBit c) (c ^^^ b.toNat)
def crc32 (bs : List Byte) : Nat := bs.foldl crcByte 0xFFFFFFFF ^^^ 0xFFFFFFFF

/-- The FCS of a frame, in the order of transmission. -/
def fcsOf (bs : List Byte) : List Byte := leBytes 4 (crc32 bs)

end Sys2Proof.Machine
end

