-- ==== Sys2Proof/Machine/Map.lean ====
section
/-! DEFINITION. Sparse maps: reading a key, writing a key, and the canonical form that every write keeps. The
default `d` says what an unlisted key holds. -/

namespace Sys2Proof.Machine

/-- The value at key `k`; `d k` where the map lists nothing. -/
def mapGet {α : Type} (d : Nat → α) : SMap α → Nat → α
  | [], k => d k
  | (j, v) :: m, k => if j = k then v else mapGet d m k

/-- The map without key `k`. -/
def mapErase {α : Type} : SMap α → Nat → SMap α
  | [], _ => []
  | (j, v) :: m, k => if j = k then mapErase m k else (j, v) :: mapErase m k

/-- The map with an entry put before the first larger key. -/
def mapInsert {α : Type} : SMap α → Nat → α → SMap α
  | [], k, v => [(k, v)]
  | (j, w) :: m, k, v => if k < j then (k, v) :: (j, w) :: m else (j, w) :: mapInsert m k v

/-- Writing `v` at key `k`: the entry goes where `v` is the default. -/
def mapSet {α : Type} [DecidableEq α] (d : Nat → α) (m : SMap α) (k : Nat) (v : α) : SMap α :=
  if v = d k then mapErase m k else mapInsert (mapErase m k) k v

/-- Keys strictly rising from above `lo`, and no entry equal to its default. -/
def mapWfFrom {α : Type} [DecidableEq α] (d : Nat → α) : Option Nat → SMap α → Bool
  | _, [] => true
  | lo, (k, v) :: m =>
    (match lo with
      | none => true
      | some l => decide (l < k)) && decide (v ≠ d k) && mapWfFrom d (some k) m

/-- The canonical form of a sparse map. -/
def mapWf {α : Type} [DecidableEq α] (d : Nat → α) (m : SMap α) : Bool := mapWfFrom d none m

/-- Every listed entry replaced by `f key value`; entries that become the default go. -/
def mapUpdate {α : Type} [DecidableEq α] (d : Nat → α) (f : Nat → α → α) : SMap α → SMap α
  | [] => []
  | (k, v) :: m => if f k v = d k then mapUpdate d f m else (k, f k v) :: mapUpdate d f m

end Sys2Proof.Machine
end

