-- ==== Sys2Proof/Machine/RegMap.lean ====
section
/-! DEFINITION. The register map: which pages exist, what each page holds and the access code of each bit
(R38, R39, R42 to R48, R76, R102, R159, R168, R226, R266, R306, R369, R395, R420, R451, R513, R541).
A register is addressed by its BAR0 byte offset, page * 4096 + offset. -/

namespace Sys2Proof.Machine

/-- One row of a register table: `n` words from `off`, `stride` bytes apart. Each mask says which bits carry
that access code of R42; a bit in none of them is RO or RSV. -/
structure RegRow where
  off : Nat
  n : Nat := 1
  stride : Nat := 4
  reset : Nat := 0
  rw : Nat := 0
  rws : Nat := 0
  w1c : Nat := 0
  w1s : Nat := 0
  rc : Nat := 0
  wo : Nat := 0
  /-- This word is the low word of a 64-bit register (R51). -/
  wide : Bool := false
  deriving DecidableEq, Repr

/-- All 32 bits. -/
abbrev all32 : Nat := 0xFFFFFFFF

/-- A register of one word, every bit RW. -/
def rowRW (off : Nat) (mask : Nat := all32) (reset : Nat := 0) : RegRow := { off := off, rw := mask, reset := reset }
/-- A register of one word, every bit RO. -/
def rowRO (off : Nat) (reset : Nat := 0) : RegRow := { off := off, reset := reset }
/-- A register of one word, every bit RC. -/
def rowRC (off : Nat) : RegRow := { off := off, rc := all32 }
/-- `n` consecutive RW words. -/
def rowsRW (off n : Nat) (mask : Nat := all32) (reset : Nat := 0) : RegRow :=
  { off := off, n := n, rw := mask, reset := reset }
/-- `n` consecutive RO words. -/
def rowsRO (off n : Nat) : RegRow := { off := off, n := n }
/-- `n` consecutive RC words. -/
def rowsRC (off n : Nat) : RegRow := { off := off, n := n, rc := all32 }
/-- A 64-bit RO register. -/
def wideRO (off : Nat) : List RegRow := [{ off := off, wide := true }, { off := off + 4 }]
/-- A 64-bit RW register. -/
def wideRW (off : Nat) (lo : Nat := all32) (hi : Nat := all32) : List RegRow :=
  [{ off := off, rw := lo, wide := true }, { off := off + 4, rw := hi }]

/-- The common header of R43, R45 and R47. -/
def headerRows : List RegRow :=
  [ rowRO 0x000, rowRO 0x004, rowRO 0x008
  , { off := 0x00C, rw := 0x3, reset := 0x33 }
  , { off := 0x010, rw := 0x7, w1s := 0x18, reset := 0x1 }
  , { off := 0x014, w1c := 0x20 }
  , rowRO 0x018
  , { off := 0x020, w1c := all32 }
  , rowRW 0x024, rowRW 0x028, rowRW 0x02C
  , { off := 0x030, wo := all32 }
  , rowRW 0x034
  , { off := 0x038, w1c := 0x1 }
  , { off := 0x03C, wide := true }, rowRO 0x040, rowRO 0x044
  , { off := 0x048, rw := 0x1, w1c := 0x6, reset := 0x1 }
  , { off := 0x04C, wo := 0x800003FF } ]

/-- The snapshot registers of R47, on pages with `has_snap`. -/
def snapRows : List RegRow :=
  [ { off := 0x060, w1s := 0x1, rw := 0x2 }, { off := 0x064, w1c := 0x6 } ]

/-- The live test controls of R500, on the pages of R578. They are RSV: a write to them is judged by R500. -/
def testRows : List RegRow := [ rowsRO 0x050 4 ]

/-- The indirect table window of R63, on pages with `has_window`. -/
def windowRows : List RegRow :=
  [ rowRW 0xF00 0x1FFFFFFF, { off := 0xF04, wo := 0x7 }, { off := 0xF08, w1c := 0x6 }, rowRO 0xF0C
  , rowsRW 0xF10 60 ]

/-- First power domain of a region and how many it has (R26, R48). -/
def regionDomains (r : Nat) : Nat × Nat :=
  match r with
  | 0 | 1 | 2 | 3 => (12 * r, 12)
  | 4 => (48, 19) | 5 => (67, 22) | 6 => (89, 17) | 7 => (106, 64) | 8 => (170, 4) | 9 => (174, 2)
  | _ => (0, 0)

/-- R48 and R514: the block registers of a region header page. -/
def regionRows (r : Nat) : List RegRow :=
  let n := (regionDomains r).2
  [ { off := 0x100, n := n, rw := 0x3, reset := 0x33 }
  , { off := 0x100 + 4 * n, n := 64 - n, reset := 0x33 }
  , rowsRO 0x200 3
  , rowsRW 0x210 6 all32 0xFFFFFFFF
  , rowRC 0x228 ]

/-- R37: HST.PWR. -/
def pwrRows : List RegRow :=
  [ { off := 0x100, wo := all32 }, rowRC 0x104, { off := 0x108, w1c := 0xC }, rowRO 0x10C, rowRO 0x110
  , rowsRO 0x120 6 ]

/-- R69: HST.INTC. -/
def intcRows : List RegRow :=
  [ rowRO 0x100, { off := 0x104, w1c := 0x11 }, rowRO 0x108, rowRC 0x10C, { off := 0x110, w1c := 0x3 }
  , rowRO 0x114, { off := 0x140, n := 16, w1s := all32, reset := all32 } ]

/-- R515: the INSP page. Every field is RWS except triggers and counters (R513). -/
def inspRows : List RegRow :=
  [ { off := 0x100, rws := 0xFFFFF, reset := 0x000EBEAA }, { off := 0x104, w1c := 0x1 } ] ++ wideRO 0x108 ++
  [ { off := 0x110, rws := 0xFF, reset := 0x55 }, rowRO 0x114
  , { off := 0x118, rws := 0xFFFF, w1s := 0x80000000 }, rowRO 0x11C, rowRC 0x120, { off := 0x124, w1c := 0x3FF } ]

/-- R516: the injection page 0x011. -/
def injRows : List RegRow :=
  [ { off := 0x100, rws := 0x1F, w1s := 0x80000000 }, { off := 0x104, rws := all32 }, { off := 0x108, rws := all32 }
  , { off := 0x10C, rws := 0xFFFF03FF }, { off := 0x110, w1c := 0x6 }, rowRC 0x114 ]

/-- R516: the injection-unlock page 0x012. -/
def injUnlockRows : List RegRow :=
  wideRO 0x100 ++ [ { off := 0x108, wo := all32 }, { off := 0x10C, rw := 0x3F, w1s := 0x300 } ]

/-- R517: the footway page. -/
def fwRows : List RegRow :=
  [ { off := 0x100, rws := 0xFF }, { off := 0x104, w1s := 0xF }, { off := 0x108, w1c := 0x100 }, rowRC 0x10C
  , rowRC 0x110 ]

/-- R542: the SEC page. -/
def secRows : List RegRow :=
  [ { off := 0x100, rw := 0xFF, w1s := 0x80000000 }, { off := 0x104, w1c := 0x2 }, rowsRW 0x108 6, rowRO 0x120 ]

/-- R545: the BOOT page. -/
def bootRows : List RegRow :=
  [ rowRO 0x100, rowRO 0x104, { off := 0x108, rws := 0xF, reset := 0x3 } ] ++ wideRW 0x110 ++
  [ rowRW 0x118, { off := 0x11C, w1s := 0x1 } ]

/-- R546: the FUSE page. [DESIGN CHOICE, log 113] -/
def fuseRows : List RegRow :=
  wideRO 0x100 ++ [ rowRO 0x108, rowsRO 0x140 16, rowsRO 0x180 16 ]

/-- R564: the thermal page. -/
def thermRows : List RegRow :=
  [ rowRO 0x100, { off := 0x104, rc := 0xFFFF }, { off := 0x108, rw := 0xFFFF, reset := 0x3E8 }
  , { off := 0x10C, w1c := 0x6 }, rowRC 0x110, rowRO 0x114, rowsRO 0x140 30, rowRO 0x1C0 ]

/-- R77 and R78: a MAC page. -/
def macRows : List RegRow :=
  [ rowRW 0x100 0x1FF, rowRW 0x104 0x3FFF 0x5F8, rowRW 0x108 0x00FFFF0F, rowRW 0x10C 0x0FFFFFF1 0x00640110
  , rowRW 0x110 0x03FF03FF, { off := 0x114, w1c := 0x100, rc := 0xFFFF0000 }, rowRW 0x118
  , rowRW 0x11C 0x7FFFFFFF 0x7FFFFFFF ] ++ wideRO 0x120 ++ wideRO 0x128

/-- R80: an SDQ page. -/
def sdqRows : List RegRow :=
  [ rowRO 0x100, { off := 0x110, rw := 0x3, w1s := 0x100, w1c := 0xC00 }, rowRO 0x114
  , { off := 0x140, n := 4, stride := 0x20, rw := 0x1F, reset := 0x10 }
  , { off := 0x144, n := 4, stride := 0x20, rw := 0x3FFFFFFF, reset := 0x00FC0000 }
  , { off := 0x148, n := 4, stride := 0x20, rw := 0x2, w1s := 0x1 }
  , { off := 0x14C, n := 4, stride := 0x20 } ]

/-- R93: a MOD page. -/
def modRows : List RegRow :=
  [ { off := 0x100, rw := 0x1F, w1s := 0x100 }, rowRO 0x104, rowRW 0x108, { off := 0x10C, w1c := 0x6 }
  , rowsRW 0x110 32 ]

/-- R100: the MSEC page. -/
def msecRows : List RegRow :=
  [ rowRW 0x100 0xFFFF, rowRW 0x104 all32 0xAAAAAAAA
  , { off := 0x108, rw := all32, reset := 0xC0000000, wide := true }, rowRW 0x10C ]

/-- R226: a BUF page. -/
def bufRows : List RegRow := [ rowRC 0x100 ]

/-- R205: the reset minimum and maximum of granule requester `i`. -/
def granMin (i : Nat) : Nat :=
  match i with
  | 0 | 1 | 2 | 3 => 4096 | 4 => 1024 | 5 => 512 | 6 => 512 | 8 | 9 | 10 | 11 => 16384 | 12 => 2048 | _ => 0
def granMax (i : Nat) : Nat :=
  match i with
  | 0 | 1 | 2 | 3 => 262144 | 4 => 16384 | 5 => 16384 | 6 => 16384 | 7 => 32768
  | 8 | 9 | 10 | 11 => 524288 | 12 => 131072 | 13 => 32768 | _ => 0
/-- R205: the reset minimum and maximum of page requester `i`, in 1/1,024 parts. -/
def pageMin (i : Nat) : Nat :=
  match i with | 0 | 1 | 2 | 3 => 16 | 4 => 256 | 8 | 9 | 10 | 11 => 4 | _ => 0
def pageMax (i : Nat) : Nat :=
  match i with
  | 0 | 1 | 2 | 3 => 512 | 4 => 1024 | 5 | 6 | 7 => 64 | 8 | 9 | 10 | 11 => 64 | _ => 0

/-- R227: the BPM page. -/
def bpmRows : List RegRow :=
  [ { off := 0x100, rw := 0x9, w1c := 0x2, reset := 0x11 }, rowRO 0x104 0x6B000, rowRO 0x108 0x80000
  , rowRW 0x10C 0xFFFFF 0x10000, rowRW 0x110 0xFFFFF 0x4000, rowRW 0x114 all32 0x40404040, rowRO 0x118
  , { off := 0x11C, w1c := 0x1 }, rowRO 0x120, rowRC 0x124, rowRC 0x128, rowRC 0x12C, rowRC 0x130, rowRC 0x134 ] ++
  (List.range 16).flatMap (fun i =>
    [ rowRW (0x140 + 8 * i) 0xFFFFF (granMin i), rowRW (0x144 + 8 * i) 0xFFFFF (granMax i) ]) ++
  [ rowsRO 0x1C0 16 ]

/-- R230: the PPM page. -/
def ppmRows : List RegRow :=
  [ rowRO 0x100, rowRW 0x104 0x3F ] ++ wideRO 0x108 ++ wideRO 0x110 ++ wideRO 0x118 ++
  [ { off := 0x120, w1c := 0x1 } ] ++ wideRO 0x128 ++ [ rowRC 0x130, rowRC 0x134, rowRC 0x138 ] ++
  (List.range 16).map (fun i => rowRW (0x140 + 4 * i) 0x07FF07FF (pageMin i + pageMax i * 65536)) ++
  (List.range 16).flatMap (fun i => wideRO (0x180 + 8 * i))

/-- R267: a TMS port page. -/
def tmsRows : List RegRow :=
  [ rowRW 0x100 0xFF 0x80, rowRO 0x104, rowRC 0x108, rowRC 0x10C, rowRC 0x110 ]

/-- R268: a SCH page. -/
def schRows : List RegRow :=
  [ rowRW 0x100 0xFFFFFF01 0x00641400, rowRW 0x104 0xFFFFF, rowRW 0x108 0xFFFFFF 0x4000, rowRC 0x10C ] ++
  (List.range 8).flatMap (fun c =>
    [ rowRW (0x140 + 16 * c) 0xFFFFFFF3 (if c < 4 then 0x5DC1 else 0x5DC0), rowRW (0x144 + 16 * c)
    , rowRW (0x148 + 16 * c) 0xFFFFFF 0x2000, rowRO (0x14C + 16 * c) ])

/-- R163: the swap register of a banked page (RUL_SWAP, MTR_SWAP, GAT_SWAP). -/
def swapRow (off : Nat) : RegRow := { off := off, w1s := 0x1, w1c := 0xA }

/-- R269: a GAT page. -/
def gatRows : List RegRow :=
  [ rowRW 0x100 0x1, swapRow 0x104, rowRO 0x108 0xFF, rowRC 0x10C, rowRC 0x110 ]

/-- R270: the MTR page. -/
def mtrRows : List RegRow := [ swapRow 0x100, rowRO 0x104, rowRC 0x108, rowRC 0x10C ]

/-- R271: the RSQ and REP pages. -/
def rsqRows : List RegRow := [ rowRW 0x100 0x3FF 0x14, rowRC 0x104, rowRC 0x108 ]
def repRows : List RegRow := [ rowRC 0x100, rowRC 0x104 ]

/-- R299: the CST page. -/
def cstRows : List RegRow :=
  [ rowRW 0x100 0x3 0x1, rowRO 0x104 ] ++ wideRO 0x108 ++ wideRO 0x110 ++
  [ rowRC 0x118, rowRC 0x11C, rowRC 0x120, rowRC 0x124, { off := 0x128, rw := 0x3FF, w1s := 0x80000000 }
  , { off := 0x12C, rw := 0xF, w1s := 0x700, w1c := 0x60000 } ] ++ wideRO 0x130 ++ [ { off := 0x138, w1s := 0x3 } ]

/-- R302: the JRN page. -/
def jrnRows : List RegRow :=
  [ rowRW 0x100 0xFFFF 0x3E8, { off := 0x104, w1s := 0x1 }, rowRO 0x108 ] ++ wideRO 0x110 ++ [ rowRO 0x118 ]

/-- R482: the MIR page. MIR_ETYPE resets to 0x88B6 (R481). -/
def mirRows : List RegRow := [ rowRW 0x100 0xFFFF 0x88B6 ]

/-- R475: SNAP_BC, on every page that holds a counter set. -/
def snapBcRows : List RegRow := wideRO 0xEF8

/-- R486: the CAP page. -/
def capRows : List RegRow :=
  (List.range 16).flatMap (fun n =>
    let b := 0x100 + 0x40 * n
    [ rowRW b 0x1F, rowRW (b + 0x04) 0x0FFFFFFF 0x10, rowRW (b + 0x08) 0x0FFFFFFF, { off := b + 0x0C, w1s := 0x7 }
    , { off := b + 0x10, w1c := 0x30 } ] ++ wideRO (b + 0x18) ++ wideRO (b + 0x20) ++ wideRO (b + 0x28) ++
    wideRO (b + 0x30) ++ [ rowRC (b + 0x38), rowRC (b + 0x3C) ])

/-- R487: the CNT page and FLD page 0x064 (`units` is 2 or 1). -/
def cntRows (units : Nat) : List RegRow := [ rowsRW 0x100 units ]

/-- R116, R117: what every field port page holds; `cfg` and `reset` are the fields of FP_PORT_CFG that apply. -/
def fieldCommon (cfg reset : Nat) : List RegRow :=
  [ rowRW 0x100 cfg reset, rowRW 0x104 0x3FFF 0x5F8, rowRW 0x110 0x03FF03FF
  , { off := 0x114, w1c := 0x200, rc := 0xFFFF0000 }, rowRW 0x118 ]
/-- R116: T1L, T1S and MGT pages; the MDIO controller stands on page 0x040 alone (R111). -/
def t1lRows : List RegRow := fieldCommon 0x7F 0x42 ++ [ rowRW 0x108 0x0FFFFFF1 0x00640110 ]
def t1sRows : List RegRow :=
  fieldCommon 0x1 0 ++ [ rowRW 0x120 0x00FF0F71 0x00200801, rowRW 0x124 0xFFFF 0x8000, rowRC 0x128, rowRO 0x12C ]
def mgtRows (port : Nat) : List RegRow :=
  fieldCommon 0x303 0 ++ if port ≠ 104 then [] else [ { off := 0x140, rw := 0x3FFF, w1s := 0x80000000 }, rowRW 0x144 0xFFFF ]

/-- R130: the SNS control page. -/
def snsRows : List RegRow :=
  [ { off := 0x100, rw := 0xFF01, w1s := 0x2, reset := 0xA01 }, rowRW 0x104 0xFFFC 0x76A4
  , rowRW 0x108 0xFFFFFF 0x3A0A05, rowRW 0x10C 0xFFFFFF 0x143A14
  , { off := 0x110, rw := 0xFFFF023F, w1s := 0x100, reset := 0x02A40000 }, { off := 0x114, w1c := 0x6 }, rowRO 0x118 ]

/-- R131: the SNS pair page. -/
def snsPairRows : List RegRow :=
  [ { off := 0x100, n := 40, rw := 0x3, w1s := 0x100, reset := 0x2 }, rowsRO 0x200 40
  , { off := 0x300, n := 40, rws := 0x1FFFF } ]

/-- R160: IPL. -/
def iplRows : List RegRow := [ rowRO 0x100 0x3, rowRC 0x104, rowRC 0x108, rowRC 0x10C, rowRC 0x110 ]
/-- R161: EPL. -/
def eplRows : List RegRow := [ rowRW 0x100 0xFFFF 0x8100, rowRC 0x104, rowRC 0x108, rowRC 0x10C, rowRC 0x110 ]
/-- R162: PRS. -/
def prsRows : List RegRow :=
  [ rowRW 0x100 0x7 0x7, rowRW 0x104 0x1FFFF 0x9100, rowRW 0x108 0x21FFC 0x1170, { off := 0x10C, rc := 0x03FF0000 } ]
/-- R163: RUL. -/
def rulRows : List RegRow := [ swapRow 0x120, rowRO 0x124 ]
/-- R197: FDB. -/
def fdbRows : List RegRow :=
  [ { off := 0x100, rw := 0xF, rws := 0xFFFF0000, reset := 0x7 }, rowRW 0x104 0xFFFFF 0x12C, rowRW 0x108 0xFFFFF 0x3E8
  , { off := 0x10C, rw := 0x07FFFFFF, w1s := 0x80000000 }, rowRO 0x110, rowRC 0x114, rowRC 0x118, rowRC 0x11C
  , rowRC 0x120, rowRC 0x124, { off := 0x128, rc := 0x1FFF0000, w1c := 0x80000000 }, rowRO 0x12C
  , rowsRW 0x130 3 all32 all32, rowRW 0x13C all32 0xFFFCFFFF ]
/-- R199: LPM. -/
def lpmRows : List RegRow :=
  [ rowRW 0x100 0x3 0x3, rowRW 0x104 0x8000FFFF, rowRW 0x108 0x8000FFFF, rowRC 0x10C, rowRC 0x110, rowRC 0x114
  , rowRO 0x118, rowRO 0x11C ]

/-- R336: the pair page of SPN. -/
def spnPairRows : List RegRow :=
  [ rowRW 0x100 0xFF07 0x1402, rowRW 0x104 all32 0x0E10030A ] ++ wideRW 0x108 ++ wideRW 0x110 all32 0xFFFF ++
  [ { off := 0x118, rw := all32, reset := 0x000088B5, wide := true }, { off := 0x11C, rw := 0xFFFF, reset := 0x0B00 }
  , rowRW 0x120 0xFFFF 0x88B5, rowRW 0x124 all32 0x76543210, rowRW 0x128 all32 0x007D0001, rowRO 0x12C
  , rowRO 0x130 ] ++ wideRO 0x138 ++ [ rowRO 0x140 ]
/-- R337: a span link page. -/
def spnLinkRows : List RegRow :=
  [ rowRW 0x100 0xFFFF01FF 0x04000100, rowRW 0x104 0xFFFFFF 0x6440, rowRW 0x108 all32 0x03E80032
  , rowRW 0x10C 0x0F0FFFFF 0x08008000, rowRW 0x110, rowRO 0x114 ] ++ wideRO 0x118 ++
  [ rowRO 0x120, rowRC 0x124, rowRC 0x128, rowRC 0x12C, rowRC 0x130 ]

/-- R370: the TBS page. -/
def tbsRows : List RegRow :=
  [ { off := 0x100, w1s := 0x1, w1c := 0x2 } ] ++ wideRO 0x108 ++ [ rowRO 0x110, rowRO 0x114 ] ++ wideRW 0x120 ++
  [ { off := 0x128, rw := 0xF, w1s := 0x100, w1c := 0x200 } ] ++ wideRO 0x130 ++ [ rowRO 0x138, rowRO 0x13C ]
/-- R371: a time-base page. -/
def tbRows : List RegRow :=
  [ rowRW 0x100 0xFF 0x4, { off := 0x104, w1c := 0x60C } ] ++ wideRW 0x110 ++ [ rowRW 0x118 0x3FFFFFFF, rowRW 0x11C ] ++
  wideRW 0x120 ++ [ { off := 0x128, w1s := 0x1F } ] ++ wideRW 0x130 ++
  [ rowRW 0x138, rowRW 0x13C, rowRW 0x140 0xFFFFF 0x2710, rowRO 0x144, rowRW 0x150 0xFFFFFF 0x00C040C0
  , rowRW 0x154 all32 0x03E80064, rowRW 0x158 all32 0x03E81E04
  , { off := 0x160, wo := all32, wide := true }, { off := 0x164, wo := all32 }
  , rowRO 0x168, rowRO 0x16C, rowRO 0x170 ] ++ wideRO 0x180 ++ [ rowRO 0x188, rowRO 0x18C ]
/-- R372: the TDS page. -/
def tdsRows : List RegRow := [ rowRC 0x100, rowRC 0x104 ]
/-- R373: the TIO page. -/
def tioRows : List RegRow :=
  (List.range 4).flatMap (fun n =>
    let b := 0x100 + 0x40 * n
    [ rowRW b 0x3F7 ] ++ wideRW (b + 0x08) ++ [ rowRW (b + 0x10) 0x3FFFFFFF, rowRW (b + 0x14) all32 0x3B9ACA00
    , rowRW (b + 0x18) all32 0x05F5E100, { off := b + 0x1C, w1c := 0x100 } ] ++ wideRO (b + 0x20) ++
    wideRO (b + 0x28) ++ [ rowRO (b + 0x30) ])
/-- R374: the SYE page. -/
def syeRows : List RegRow := [ { off := 0x100, n := 2, rw := 0x173F, reset := 0x1000 }, rowRO 0x108 ]
/-- R396: the BSC page. -/
def bscRows : List RegRow :=
  [ rowRW 0x100 0x1 0x1, rowRO 0x104, { off := 0x108, rw := 0x1FFFFF, w1s := 0x80000000 }, { off := 0x10C, w1c := 0x7 }
  , rowRC 0x110, rowRO 0x114, { off := 0x118, w1c := 0x10000 }, rowRW 0x120 0x1FFFF 0xA
  , { off := 0x124, rw := 0xFF, w1s := 0x80000000 }, rowRC 0x128, rowRC 0x12C ]

/-- R420: an EBK page. -/
def ebkRows : List RegRow :=
  [ rowRW 0x100 0xFFFF 0xFFFF, rowRO 0x104, rowRO 0x108, rowRW 0x10C 0xFFFF 0x64, { off := 0x110, w1s := 0xFFFF }
  , rowRC 0x114, rowRC 0x118, rowRO 0x11C, rowsRO 0x140 16 ]
/-- R421: the SVC page. SVC_MAP resets to the layout of R402. -/
def svcRows : List RegRow :=
  [ rowRW 0x100 0x1 0x1, { off := 0x104, rw := 0x1F3F, w1s := 0x80000000 }, { off := 0x108, rw := 0x3F3F, w1s := 0x80000000 }
  , { off := 0x10C, rw := 0x3F, w1s := 0x80000000 }, { off := 0x110, rw := 0x3F, w1s := 0x80000000 }
  , { off := 0x114, w1c := 0x6 }
  , rowRO 0x120 0x2111111A, rowRO 0x124 0x43333222, rowRO 0x128 0x44444444, rowRO 0x12C 0x55555444, rowRO 0x130 0x66666555, rowRO 0x134 0x76666666, rowRO 0x138 0xCBB99887, rowRO 0x13C, rowRO 0x140 ]
/-- R422: the EMB page. -/
def embRows : List RegRow := [ rowRO 0x100, rowRC 0x104, rowRC 0x108, rowRC 0x10C ]

/-- R451: the PCI page. PCI_LINK_STAT reads a Gen5 link of eight lanes (R423). -/
def pciRows : List RegRow := [ rowRO 0x100, rowRC 0x104 ]
/-- R452: a submission ring page. -/
def sqRows (n : Nat) : List RegRow :=
  [ { off := 0x100, wo := all32 }, rowRW 0x104 0x0F0FFFF7 (0x01000060 + n * 0x100) ] ++ wideRW 0x108 0xFFFFF000 ++
  wideRW 0x110 0xFFFFFF80 ++ [ rowRO 0x118, rowRO 0x11C, rowRO 0x120, rowRC 0x124 ]
/-- R453: a completion ring page. -/
def cqRows (n : Nat) : List RegRow :=
  [ { off := 0x100, wo := all32 }, rowRW 0x104 0x7FEF1 (0x60 + n * 0x200) ] ++ wideRW 0x108 0xFFFFF000 ++
  wideRW 0x110 0xFFFFFF80 ++ [ rowRW 0x118 all32 0x00080001, { off := 0x11C, w1c := 0x20000 }, rowRO 0x120, rowRO 0x124 ]
/-- R454: the RNG page. -/
def rngRows : List RegRow :=
  [ rowRW 0x100 0xFFFF 0x64, rowRO 0x104, rowRO 0x108, rowRC 0x10C, rowRC 0x110, rowsRO 0x200 64 ]
/-- R468: the DMA page. -/
def dmaRows : List RegRow :=
  [ rowRW 0x100 0xFF 0x32, { off := 0x104, rw := 0x0FFFFFFF, w1s := 0x80000000 }, { off := 0x108, w1c := 0x6 } ] ++
  wideRO 0x110 ++
  (List.range 16).flatMap (fun c =>
    [ rowRW (0x140 + 16 * c) 0xFFFF00FF 0x1, rowRO (0x144 + 16 * c), rowRC (0x148 + 16 * c), rowRC (0x14C + 16 * c) ])

/-- What a page is: its place in the hierarchy (R44) and the rows of its block. -/
inductive PageKind where
  | header | sdq | mac | msec | mod | prs | rul | fdb | lpm | mtr | cnt | ipl | epl | spnPair | spnLink
  | t1l | t1s | mgt | sns | snsPair | fplRul | fplFdb | fplLpm | fplMtr | fplCnt | d2d
  | buf | bpm | bpmIn | rep | rsq | mir | tms | sch | gat
  | ppm | cst | jrn | cap | ebk | svc | emb
  | pci | rng | dma | sq | cq | intc | insp | inj | injUnlock | fw | therm | pwr | sec | boot | fuse
  | tbs | tds | tio | sye | tb | bsc
  deriving DecidableEq, Repr

/-- A page as PG_ID and PG_CAP describe it (R44). `sub` is the number within the kind: slot, port, ring. -/
structure PageInfo where
  kind : PageKind
  region : Nat
  btype : Nat := 0
  inst : Nat := 0
  index : Nat := 0
  domain : Nat
  sub : Nat := 0
  deriving DecidableEq, Repr

/-- Region codes of R38. -/
abbrev rFLD : Nat := 4
abbrev rCOR : Nat := 5
abbrev rCUS : Nat := 6
abbrev rENG : Nat := 7
abbrev rHST : Nat := 8
abbrev rTIM : Nat := 9

/-- A queue-bearing port (R234). -/
def isQueuePort (n : Nat) : Bool := n ≤ 105 || (112 ≤ n && n ≤ 118)
/-- R20: the traffic-manager slice of port `n`. -/
def sliceOf (n : Nat) : Nat := if n < 64 then n / 16 else n % 4
/-- Index of a port's page within its TMS slice, ports counted upward. -/
def tmsIndex (n : Nat) : Nat :=
  if n < 64 then n % 16
  else if n ≤ 105 then 16 + (n - 64) / 4
  else 16 + (if n % 4 < 2 then 11 else 10) + (n - 112) / 4

/-- The pages of a line region (R76, R159, R168, R266, R306). -/
def linePage (r p : Nat) : Option PageInfo :=
  if p = 0 then some { kind := .header, region := r, domain := 176 }
  else if p ≤ 4 then some { kind := .sdq, region := r, btype := 1, inst := p - 1, domain := 12 * r + 2 * (p - 1), sub := p - 1 }
  else if 0x10 ≤ p ∧ p ≤ 0x1F then
    some { kind := .mac, region := r, btype := 2, index := p - 0x10, domain := 12 * r + 8 + (p - 0x10) / 8, sub := p - 0x10 }
  else if p = 0x20 then some { kind := .msec, region := r, btype := 3, domain := 12 * r + 8 }
  else if 0x30 ≤ p ∧ p ≤ 0x33 then
    some { kind := .mod, region := r, btype := 13, index := p - 0x30, domain := 12 * r + 8 + (p - 0x30) / 2, sub := p - 0x30 }
  else if p = 0x40 then some { kind := .prs, region := r, btype := 4, domain := 12 * r + 10 }
  else if p = 0x41 then some { kind := .rul, region := r, btype := 7, domain := 12 * r + 10 }
  else if p = 0x42 then some { kind := .fdb, region := r, btype := 8, domain := 12 * r + 10 }
  else if p = 0x43 then some { kind := .lpm, region := r, btype := 9, domain := 12 * r + 10 }
  else if p = 0x44 then some { kind := .mtr, region := r, btype := 10, domain := 12 * r + 10 }
  else if p = 0x45 then some { kind := .cnt, region := r, btype := 11, domain := 12 * r + 10 }
  else if p = 0x46 then some { kind := .ipl, region := r, btype := 5, domain := 12 * r + 10 }
  else if p = 0x47 then some { kind := .epl, region := r, btype := 6, domain := 12 * r + 10 }
  else if p = 0x50 ∧ r = 0 then some { kind := .spnPair, region := r, btype := 12, domain := 12 * r + 10 }
  else if p = 0x51 ∨ p = 0x52 then
    some { kind := .spnLink, region := r, btype := 12, index := p - 0x51 + (if r = 0 then 1 else 0)
           domain := 12 * r + 10, sub := 2 * r + (p - 0x51) }
  else none

/-- The pages of FLD (R102, R168). -/
def fieldPage (p : Nat) : Option PageInfo :=
  if p = 0 then some { kind := .header, region := 4, domain := 177 }
  else if p ≤ 0x20 then
    some { kind := .t1l, region := 4, btype := 1, inst := (p - 1) / 4, index := (p - 1) % 4, domain := 48 + (p - 1) / 4, sub := 63 + p }
  else if 0x30 ≤ p ∧ p ≤ 0x37 then
    some { kind := .t1s, region := 4, btype := 2, inst := p - 0x30, domain := 56 + (p - 0x30), sub := 96 + (p - 0x30) }
  else if p = 0x40 ∨ p = 0x41 then
    some { kind := .mgt, region := 4, btype := 5, index := p - 0x40, domain := 64, sub := 104 + (p - 0x40) }
  else if p = 0x50 then some { kind := .sns, region := 4, btype := 3, domain := 177 }
  else if p = 0x51 then some { kind := .snsPair, region := 4, btype := 3, index := 1, domain := 177 }
  else if p = 0x60 then some { kind := .fplRul, region := 4, btype := 4, domain := 65 }
  else if p = 0x61 then some { kind := .fplFdb, region := 4, btype := 4, index := 1, domain := 65 }
  else if p = 0x62 then some { kind := .fplLpm, region := 4, btype := 4, index := 2, domain := 65 }
  else if p = 0x63 then some { kind := .fplMtr, region := 4, btype := 4, index := 3, domain := 65 }
  else if p = 0x64 then some { kind := .fplCnt, region := 4, btype := 4, index := 4, domain := 65 }
  else if p = 0x70 then some { kind := .d2d, region := 4, btype := 6, domain := 66 }
  else none

/-- The pages of COR (R226, R266, R168, R482). -/
def corPage (p : Nat) : Option PageInfo :=
  if p = 0 then some { kind := .header, region := 5, domain := 176 }
  else if p ≤ 0x10 then some { kind := .buf, region := 5, btype := 1, inst := p - 1, domain := 67 + (p - 1), sub := p - 1 }
  else if p = 0x20 then some { kind := .bpm, region := 5, btype := 2, domain := 88 }
  else if p = 0x21 then some { kind := .bpmIn, region := 5, btype := 2, index := 1, domain := 88 }
  else if p = 0xA0 then some { kind := .rep, region := 5, btype := 7, domain := 87 }
  else if p = 0xB0 then some { kind := .rsq, region := 5, btype := 6, domain := 88 }
  else if p = 0xC0 then some { kind := .mir, region := 5, btype := 8, domain := 87 }
  else if 0x100 ≤ p ∧ p ≤ 0x176 ∧ isQueuePort (p - 0x100) then
    let n := p - 0x100
    some { kind := .tms, region := 5, btype := 3, inst := sliceOf n, index := tmsIndex n, domain := 83 + sliceOf n, sub := n }
  else if 0x200 ≤ p ∧ p ≤ 0x276 ∧ isQueuePort (p - 0x200) then
    let n := p - 0x200
    some { kind := .sch, region := 5, btype := 4, index := if n ≤ 105 then n else n - 6, domain := 83 + sliceOf n, sub := n }
  else if 0x300 ≤ p ∧ p ≤ 0x369 then
    let n := p - 0x300
    some { kind := .gat, region := 5, btype := 5, index := n, domain := 83 + sliceOf n, sub := n }
  else none

/-- The pages of CUS (R230, R298, R486). -/
def cusPage (p : Nat) : Option PageInfo :=
  if p = 0 then some { kind := .header, region := 6, domain := 176 }
  else if p = 0x20 then some { kind := .ppm, region := 6, btype := 2, domain := 105 }
  else if p = 0x30 then some { kind := .cst, region := 6, btype := 3, domain := 105 }
  else if p = 0x40 then some { kind := .jrn, region := 6, btype := 4, domain := 105 }
  else if p = 0x50 then some { kind := .cap, region := 6, btype := 5, domain := 105 }
  else none

/-- The pages of ENG (R420). -/
def engPage (p : Nat) : Option PageInfo :=
  if p = 0 then some { kind := .header, region := 7, domain := 176 }
  else if p ≤ 64 then some { kind := .ebk, region := 7, btype := 1, inst := p - 1, domain := 106 + (p - 1), sub := p - 1 }
  else if p = 0x80 then some { kind := .svc, region := 7, btype := 2, domain := 106 }
  else if p = 0x81 then some { kind := .emb, region := 7, btype := 3, domain := 106 }
  else none

/-- The pages of HST (R37, R69, R451, R468, R513, R541, R564). -/
def hstPage (p : Nat) : Option PageInfo :=
  if p = 0 then some { kind := .header, region := 8, domain := 176 }
  else if p = 1 then some { kind := .pci, region := 8, btype := 1, domain := 170 }
  else if p = 2 then some { kind := .rng, region := 8, btype := 2, domain := 171 }
  else if p = 3 then some { kind := .dma, region := 8, btype := 3, domain := 171 }
  else if p = 4 then some { kind := .intc, region := 8, btype := 9, domain := 173 }
  else if p = 0x10 then some { kind := .insp, region := 8, btype := 10, domain := 173 }
  else if p = 0x11 then some { kind := .inj, region := 8, btype := 10, index := 1, domain := 173 }
  else if p = 0x12 then some { kind := .injUnlock, region := 8, btype := 10, index := 2, domain := 173 }
  else if p = 0x13 then some { kind := .fw, region := 8, btype := 10, index := 3, domain := 173 }
  else if p = 0x14 then some { kind := .therm, region := 8, btype := 10, index := 4, domain := 173 }
  else if p = 0x20 then some { kind := .pwr, region := 8, btype := 8, domain := 176 }
  else if p = 0x21 then some { kind := .sec, region := 8, btype := 5, domain := 172 }
  else if p = 0x22 then some { kind := .boot, region := 8, btype := 6, domain := 172 }
  else if p = 0x23 then some { kind := .fuse, region := 8, btype := 7, domain := 172 }
  else if 0x100 ≤ p ∧ p ≤ 0x1FF then
    some { kind := .sq, region := 8, btype := 2, index := 1 + (p - 0x100), domain := 171, sub := p - 0x100 }
  else if 0x200 ≤ p ∧ p ≤ 0x2FF then
    some { kind := .cq, region := 8, btype := 2, index := 257 + (p - 0x200), domain := 171, sub := p - 0x200 }
  else none

/-- The pages of TIM (R369, R395). -/
def timPage (p : Nat) : Option PageInfo :=
  if p = 0 then some { kind := .header, region := 9, domain := 176 }
  else if p = 1 then some { kind := .tbs, region := 9, btype := 1, domain := 174 }
  else if p = 2 then some { kind := .tds, region := 9, btype := 2, domain := 174 }
  else if p = 3 then some { kind := .tio, region := 9, btype := 3, domain := 175 }
  else if p = 4 then some { kind := .sye, region := 9, btype := 5, domain := 175 }
  else if p = 5 then some { kind := .bsc, region := 9, btype := 4, domain := 174 }
  else if 0x10 ≤ p ∧ p ≤ 0x1F then
    some { kind := .tb, region := 9, btype := 1, index := 1 + (p - 0x10), domain := 174, sub := p - 0x10 }
  else none

/-- R39: what stands on a page number; `none` for an unmapped page or the unmapped part of BAR0. -/
def pageInfo (page : Nat) : Option PageInfo :=
  match page / 4096 with
  | 0 | 1 | 2 | 3 => linePage (page / 4096) (page % 4096)
  | 4 => fieldPage (page % 4096)
  | 5 => corPage (page % 4096)
  | 6 => cusPage (page % 4096)
  | 7 => engPage (page % 4096)
  | 8 => hstPage (page % 4096)
  | 9 => timPage (page % 4096)
  | _ => none

/-- R61: the privileged pages. -/
def PageKind.privileged : PageKind → Bool
  | .sec | .fuse | .pwr | .boot | .injUnlock => true
  | _ => false
/-- R33: the cell pages. -/
def PageKind.cellPage : PageKind → Bool
  | .mac | .mod | .t1l | .t1s | .mgt | .tms | .sch | .gat | .spnLink | .tb | .sq | .cq => true
  | _ => false
/-- R63: the pages with an indirect table window. -/
def PageKind.window : PageKind → Bool
  | .header | .msec | .mod | .rul | .fdb | .lpm | .mtr | .cnt | .spnLink | .fplRul | .fplFdb | .fplLpm | .fplMtr
  | .fplCnt | .bpm | .bpmIn | .rep | .mir | .tms | .gat | .ppm | .cst | .svc | .intc | .rng | .fw | .sec | .tds
  | .bsc => true
  | _ => false
/-- R475: the pages with snapshot registers. -/
def PageKind.snap : PageKind → Bool
  | .header | .cnt | .mtr | .spnLink | .fplCnt | .fplMtr | .tms | .mir => true
  | _ => false
/-- R578: the pages with live test controls. -/
def PageKind.test : PageKind → Bool
  | .sdq | .t1l | .t1s | .snsPair | .rul | .fplRul | .mtr | .fplMtr | .gat | .ipl | .buf | .tms | .ppm | .ebk => true
  | _ => false

/-- The block registers of a page. -/
def blockRows (i : PageInfo) : List RegRow :=
  match i.kind with
  | .header => regionRows i.region | .sdq => sdqRows | .mac => macRows | .msec => msecRows | .mod => modRows
  | .prs => prsRows | .rul => rulRows | .fdb => fdbRows | .lpm => lpmRows | .mtr => mtrRows | .cnt => cntRows 2
  | .ipl => iplRows | .epl => eplRows | .spnPair => spnPairRows | .spnLink => spnLinkRows
  | .t1l => t1lRows | .t1s => t1sRows | .mgt => mgtRows i.sub | .sns => snsRows | .snsPair => snsPairRows
  | .fplRul => prsRows ++ rulRows | .fplFdb => fdbRows | .fplLpm => lpmRows | .fplMtr => mtrRows | .fplCnt => cntRows 1
  | .d2d => [] | .buf => bufRows | .bpm => bpmRows | .bpmIn => [] | .rep => repRows | .rsq => rsqRows | .mir => mirRows
  | .tms => tmsRows | .sch => schRows | .gat => gatRows | .ppm => ppmRows | .cst => cstRows | .jrn => jrnRows
  | .cap => capRows | .ebk => ebkRows | .svc => svcRows | .emb => embRows | .pci => pciRows | .rng => rngRows
  | .dma => dmaRows | .sq => sqRows i.sub | .cq => cqRows i.sub | .intc => intcRows | .insp => inspRows | .inj => injRows
  | .injUnlock => injUnlockRows | .fw => fwRows | .therm => thermRows | .pwr => pwrRows | .sec => secRows
  | .boot => bootRows | .fuse => fuseRows | .tbs => tbsRows | .tds => tdsRows | .tio => tioRows | .sye => syeRows
  | .tb => tbRows | .bsc => bscRows

/-- The row that holds offset `o` among `rows`. -/
def findRow (rows : List RegRow) (o : Nat) : Option RegRow :=
  rows.find? (fun r => decide (r.off ≤ o) && decide ((o - r.off) % r.stride = 0) && decide ((o - r.off) / r.stride < r.n))

/-- The row of a register; `none` for a reserved or unimplemented location (R61, R62). [DEDUCED, log 16] -/
def regRow (page o : Nat) : Option RegRow :=
  match pageInfo page with
  | none => none
  | some i =>
    if o < 0x50 then findRow headerRows o
    else if o < 0x60 then (if i.kind.test then findRow testRows o else none)
    else if o < 0x68 then (if i.kind.snap then findRow snapRows o else none)
    else if o < 0x100 then none
    else if o < 0xEF8 then findRow (blockRows i) o
    else if o < 0xF00 then (if i.kind.snap then findRow snapBcRows o else none)
    else if i.kind.window then findRow windowRows o
    else none

/-- The reset severities: the sources of a page that are WARN and the sources that are HOLD; every other source is
NOTE. Sources 30 and 31 are WARN on every page (R60). -/
def sevWarn : PageKind → List Nat
  | .header => [0, 1] | .sdq => [0] | .mac => [0, 1, 2, 3, 6] | .mod => [0, 1, 2, 3] | .msec => [0, 1]
  | .t1l | .t1s | .mgt => [0, 1, 2, 7] | .sns => [0, 2] | .prs => [3] | .rul => [5, 7] | .fplRul => [3, 5, 7]
  | .fdb | .fplFdb => [2, 3] | .lpm | .fplLpm => [0, 1] | .rep => [1]
  | .bpm => [2, 3, 4, 5, 8, 9, 10, 12] | .ppm => [2, 3, 4, 5, 6, 7, 12]
  | .ipl => [0] | .tms => [1] | .gat => [1] | .mtr | .fplMtr => [2, 4, 5]
  | .cst => [2, 3, 7] | .jrn => [0, 1] | .cap => [1, 2]
  | .spnPair => [0, 1, 2, 3, 4, 5] | .spnLink => [0, 1, 4, 5]
  | .tb => [1, 3, 4, 5] | .tds => [0] | .sye => [0, 1] | .bsc => [0, 2, 3, 4, 5, 6]
  | .ebk => [0] | .svc => [1, 3, 4, 5] | .emb => [1] | .rng => [0, 3] | .dma => [1, 3]
  | .pwr => [0] | .insp => [0, 1, 2, 3] | .fw => [0, 1] | .therm => [0, 1, 3] | .sec => [1, 2]
  | _ => []
/-- Sources whose reset severity is HOLD: a whole engine block held (R420). -/
def sevHold : PageKind → List Nat
  | .ebk => [1]
  | _ => []

/-- Sum of 2-bit codes of the sources in [lo, lo + 15]. -/
def sevWord (k : PageKind) (lo : Nat) : Nat :=
  ((List.range 16).map (fun j =>
    let s := lo + j
    (if s ∈ sevHold k then 2 else if s ∈ sevWarn k ∨ 30 ≤ s then 1 else 0) * 4 ^ j)).foldl (· + ·) 0

/-- PG_ID (R44). -/
def pgId (i : PageInfo) : Nat := i.region * 2 ^ 28 + i.btype * 2 ^ 20 + i.inst * 2 ^ 12 + i.index
/-- PG_CAP without block_cap, which no chapter gives (R44). [DESIGN CHOICE, log 12] -/
def pgCap (i : PageInfo) : Nat :=
  let b (x : Bool) (n : Nat) : Nat := if x then 2 ^ n else 0
  i.domain + b i.kind.window 8 + b i.kind.snap 9 + b i.kind.test 10 + b i.kind.privileged 11 + b i.kind.cellPage 12

/-- The reset value of the word at offset `o` of a page. PG_VER shows stepping B0 in [31:24] (R44, R2). [DESIGN CHOICE, log 12] -/
def regResetAt (page o : Nat) : Nat :=
  match pageInfo page with
  | none => 0
  | some i =>
    if o = 0x000 then pgId i
    else if o = 0x004 then 0x10 * 2 ^ 24
    else if o = 0x008 then pgCap i
    else if o = 0x028 then sevWord i.kind 0
    else if o = 0x02C then sevWord i.kind 16
    else match regRow page o with
      | none => 0
      | some r => r.reset

/-- The reset value of the register at BAR0 offset `a`. -/
def regReset (a : Nat) : Word := BitVec.ofNat 32 (regResetAt (a / 4096) (a % 4096))

/-- First page of the block a page belongs to: the page whose PG_CTL acts on the whole block (R33). -/
def blockKey (page : Nat) : Nat :=
  match pageInfo page with
  | none => page
  | some i => i.region * 4096 * 256 + i.btype * 256 + i.inst

/-- The bit of a block instance in RGN_INT_SUM (R68): instances ordered by block type, then instance. -/
def summaryBit (i : PageInfo) : Nat :=
  if i.btype = 0 then 0 else
  match i.region with
  | 0 | 1 | 2 | 3 => if i.btype = 1 then 1 + i.inst else 3 + i.btype
  | 4 => if i.btype = 1 then 1 + i.inst else if i.btype = 2 then 9 + i.inst else 14 + i.btype
  | 5 => if i.btype = 1 then 1 + i.inst else if i.btype = 2 then 17 else if i.btype = 3 then 18 + i.inst
         else 18 + i.btype
  | 6 => if i.btype = 1 then 1 + i.inst else 15 + i.btype
  | 7 => if i.btype = 1 then 1 + i.inst else 63 + i.btype
  | _ => i.btype

end Sys2Proof.Machine
end

