-- ==== Sys2Proof/Machine/TabMap.lean ====
section
/-! DEFINITION. The tables behind the indirect windows (R63): how many entries each select holds, how wide they
are, which are banked, read-only or counters, and what their entries hold at reset. -/

namespace Sys2Proof.Machine

/-- One table of a window. -/
structure TabDesc where
  n : Nat
  width : Nat
  banked : Bool := false
  ro : Bool := false
  /-- Position of the valid bit, for an entry whose valid bit is written last (R64). -/
  valid : Option Nat := none
  /-- The entry fits in one table-access word. -/
  single : Bool := true
  /-- A counter set of R470 or the MIR counters. -/
  counter : Bool := false
  deriving DecidableEq, Repr

/-- The table at a select of a page kind; `fld` on the field pipeline's pages. -/
def tabDesc (k : PageKind) (sel : Nat) : Option TabDesc :=
  match k, sel with
  | .header, 0 => some { n := 256, width := 64, counter := true }
  | .msec, 0 => some { n := 128, width := 128, valid := some 127, single := false }
  | .msec, 1 => some { n := 256, width := 512, valid := some 511, single := false }
  | .mod, 0 => some { n := 48, width := 64, ro := true }
  | .rul, 0 => some { n := 8192, width := 896, banked := true, valid := some 895, single := false }
  | .fplRul, 0 => some { n := 1024, width := 896, banked := true, valid := some 895, single := false }
  | .rul, 1 | .fplRul, 1 => some { n := 128, width := 64, banked := true }
  | .rul, 2 | .fplRul, 2 => some { n := 256, width := 8, banked := true }
  | .fdb, 0 => some { n := 524288, width := 128 }
  | .fplFdb, 0 => some { n := 65536, width := 128 }
  | .fdb, 1 | .fplFdb, 1 => some { n := 4096, width := 320 }
  | .fdb, 2 | .fplFdb, 2 => some { n := 4096, width := 8 }
  | .fdb, 3 | .fplFdb, 3 => some { n := 16, width := 64 }
  | .fdb, 4 | .fplFdb, 4 => some { n := 128, width := 16 }
  | .lpm, 0 => some { n := 393216, width := 64 }
  | .fplLpm, 0 => some { n := 16384, width := 64 }
  | .lpm, 1 => some { n := 196608, width := 192 }
  | .fplLpm, 1 => some { n := 8192, width := 192 }
  | .lpm, 2 | .fplLpm, 2 => some { n := 193, width := 64 }
  | .lpm, 3 => some { n := 65536, width := 128 }
  | .fplLpm, 3 => some { n := 8192, width := 128 }
  | .mtr, 0 => some { n := 65536, width := 128, banked := true, valid := some 127, single := false }
  | .fplMtr, 0 => some { n := 4096, width := 128, banked := true, valid := some 127, single := false }
  | .mtr, 1 => some { n := 65536, width := 64, ro := true }
  | .fplMtr, 1 => some { n := 4096, width := 64, ro := true }
  | .mtr, 2 | .fplMtr, 2 => some { n := 4096, width := 64 }
  | .mtr, 3 => some { n := 256, width := 160, banked := true, valid := some 159, single := false }
  | .fplMtr, 3 => some { n := 32, width := 160, banked := true, valid := some 159, single := false }
  | .mtr, 4 => some { n := 16384, width := 64, banked := true }
  | .fplMtr, 4 => some { n := 2048, width := 64, banked := true }
  | .mtr, 5 => some { n := 65536, width := 384, counter := true }
  | .fplMtr, 5 => some { n := 4096, width := 384, counter := true }
  | .cnt, 0 => some { n := 262144, width := 64, counter := true }
  | .fplCnt, 0 => some { n := 32768, width := 64, counter := true }
  | .cnt, 1 => some { n := 16, width := 1024, counter := true }
  | .fplCnt, 1 => some { n := 42, width := 1024, counter := true }
  | .spnLink, 0 => some { n := 9, width := 128, ro := true }
  | .spnLink, 1 => some { n := 9, width := 256, counter := true }
  | .bpm, 0 => some { n := 1024, width := 64 }
  | .bpm, 1 => some { n := 1024, width := 64, ro := true }
  | .bpmIn, 0 => some { n := 576, width := 64 }
  | .bpmIn, 1 => some { n := 576, width := 32, ro := true }
  | .rep, 0 => some { n := 65536, width := 192 }
  | .rep, 1 => some { n := 262144, width := 32 }
  | .mir, 0 => some { n := 16, width := 256, valid := some 255, single := false }
  | .mir, 1 => some { n := 106, width := 16 }
  | .mir, 2 => some { n := 16, width := 256, counter := true }
  | .tms, 0 => some { n := 8, width := 512, counter := true }
  | .gat, 0 => some { n := 256, width := 64, banked := true }
  | .gat, 1 => some { n := 1, width := 160, banked := true, valid := some 159, single := false }
  | .ppm, 0 => some { n := 2 ^ 24, width := 64, ro := true }
  | .ppm, 1 => some { n := 2 ^ 24, width := 32, ro := true }
  | .cst, 0 => some { n := 848, width := 64 }
  | .cst, 1 => some { n := 106, width := 64 }
  | .cst, 2 => some { n := 848, width := 128, ro := true }
  | .svc, 0 => some { n := 256, width := 16 }
  | .intc, 0 => some { n := 1280, width := 32 }
  | .rng, 0 => some { n := 256, width := 16 }
  | .fw, 0 => some { n := 16, width := 16 }
  | .fw, 1 => some { n := 256, width := 128, valid := some 127, single := false }
  | .sec, 0 => some { n := 64, width := 512 }
  | .sec, 1 => some { n := 32, width := 256, ro := true }
  | .sec, 2 => some { n := 16, width := 512, ro := true }
  | .sec, 3 => some { n := 512, width := 640, ro := true }
  | .tds, 0 => some { n := 106, width := 16 }
  | .bsc, 0 => some { n := 4096, width := 384, single := false }
  | .bsc, 1 => some { n := 4096, width := 128, ro := true }
  | _, _ => none

/-- The key of a table entry. -/
def tabKey (page sel bank idx : Nat) : Nat := ((page * 16 + sel) * 2 + bank) * 2 ^ 24 + idx
def keyPage (k : Nat) : Nat := k / 2 ^ 29
def keySel (k : Nat) : Nat := k / 2 ^ 25 % 16
def keyBank (k : Nat) : Nat := k / 2 ^ 24 % 2
def keyIdx (k : Nat) : Nat := k % 2 ^ 24

/-- R228: the admission entry of a class at reset. -/
def admReset (tc : Nat) : Nat :=
  match tc with
  | 7 => 8 + 64 * 256
  | 6 => 7 + 32 * 256
  | 5 | 4 => 6 + 16
  | 3 | 2 => 5
  | 1 => 4 + 16
  | _ => 3 + 16

/-- What a table entry holds at reset (R69, R165, R171, R195, R228, R229, R300, R301). -/
def tabResetNat (k : PageKind) (sel idx : Nat) (region : Nat) : Nat :=
  match k, sel with
  | .intc, 0 => 0x8000 + (256 + idx / 128)
  | .rul, 1 | .fplRul, 1 => 0x00FAC688
  | .rul, 2 | .fplRul, 2 => idx % 64 / 8
  | .fdb, 1 | .fplFdb, 1 =>
    if idx = 1 then (2 ^ 106 - 1) + (2 ^ 106 - 1) * 2 ^ 128 + 1 * 2 ^ 256 + 2 ^ 268 + 2 ^ 319 else 0
  | .fdb, 2 | .fplFdb, 2 => if region = 4 then 2 else 3
  | .fdb, 4 | .fplFdb, 4 => 1
  | .rep, 0 => if idx = 0 then (2 ^ 106 - 1) + 2 ^ 191 else 0
  | .bpm, 0 => admReset (idx % 8)
  | .bpmIn, 0 => 0x0FFFFFFFFFFFFFFF
  | .cst, 0 => if idx % 8 = 5 then 0x3224EA01 else if idx % 8 = 4 then 0x32000015 else 0x3224EA00
  | .cst, 1 => 0x000003E800400000
  | _, _ => 0

/-- The reset value of the entry with key `key`. -/
def tabReset (key : Nat) : Entry :=
  match pageInfo (keyPage key) with
  | none => 0
  | some i => BitVec.ofNat 1920 (tabResetNat i.kind (keySel key) (keyIdx key) i.region)

end Sys2Proof.Machine
end

