-- ==== Sys2Proof/Machine/Ops.lean ====
section
/-! DEFINITION. The named operations over the state: registers and their fields, table entries, counters, outputs,
power, isolation, and the firing of an interrupt source (R66). -/

namespace Sys2Proof.Machine

/-! ### Registers -/

/-- The stored word of the register at offset `o` of page `p`. -/
def rd (s : State) (p o : Nat) : Word := mapGet regReset s.regs (p * 4096 + o)
/-- Store a word. -/
def wr (s : State) (p o : Nat) (v : Word) : State := { s with regs := mapSet regReset s.regs (p * 4096 + o) v }
/-- Bits [hi:lo] of a register. -/
def fld (s : State) (p o hi lo : Nat) : Nat := bitsOf (rd s p o).toNat hi lo
/-- Set bits [hi:lo] of a register. -/
def setFld (s : State) (p o hi lo n : Nat) : State := wr s p o (BitVec.ofNat 32 (withBits (rd s p o).toNat hi lo n))
/-- Bit `b` of a register. -/
def bitAt (s : State) (p o b : Nat) : Bool := (rd s p o).toNat.testBit b
/-- Set or clear bit `b` of a register. -/
def setBit (s : State) (p o b : Nat) (v : Bool) : State := setFld s p o b b (b2n v)
/-- Add to the field [hi:lo], saturating. -/
def addSat (s : State) (p o hi lo k : Nat) : State :=
  setFld s p o hi lo (satAdd (hi + 1 - lo) (fld s p o hi lo) k)
/-- Add one to a 32-bit event counter, which saturates. -/
def inc (s : State) (p o : Nat) : State := addSat s p o 31 0 1
/-- A 64-bit register as a number (R51). -/
def rd64 (s : State) (p o : Nat) : Nat := (rd s p o).toNat + (rd s p (o + 4)).toNat * 2 ^ 32
/-- Store both words of a 64-bit register. -/
def wr64 (s : State) (p o v : Nat) : State := wr (wr s p o (BitVec.ofNat 32 v)) p (o + 4) (BitVec.ofNat 32 (v / 2 ^ 32))

/-! ### Table entries -/

/-- An entry of a window table. -/
def tget (s : State) (p sel bank idx : Nat) : Entry := mapGet tabReset s.tabs (tabKey p sel bank idx)
/-- Store an entry. -/
def tset (s : State) (p sel bank idx : Nat) (e : Entry) : State :=
  { s with tabs := mapSet tabReset s.tabs (tabKey p sel bank idx) e }
/-- Bits [hi:lo] of an entry. -/
def efld (e : Entry) (hi lo : Nat) : Nat := bitsOf e.toNat hi lo
/-- An entry with bits [hi:lo] set. -/
def esetFld (e : Entry) (hi lo n : Nat) : Entry := BitVec.ofNat 1920 (withBits e.toNat hi lo n)
/-- Bit `b` of an entry. -/
def ebit (e : Entry) (b : Nat) : Bool := e.toNat.testBit b
/-- Add `k` to the 64-bit counter `c` of a counter entry, modulo 2^64 (R470). -/
def addCounter (s : State) (p sel idx c k : Nat) : State :=
  let e := tget s p sel 0 idx
  tset s p sel 0 idx (esetFld e (64 * c + 63) (64 * c) (efld e (64 * c + 63) (64 * c) + k))

/-! ### Outputs and free values -/

/-- Record something that leaves the chip. [DESIGN CHOICE, log 6] -/
def emit (s : State) (o : Output) : State := { s with out := o :: s.out }
/-- A fresh free value: what the spec does not give, one for each use. [DESIGN CHOICE, log 7] -/
def fresh (s : State) : Nat × State := (Config.freeValue s.freeCtr, { s with freeCtr := s.freeCtr + 1 })
/-- The base count as a number (R339). -/
def now (s : State) : Nat := s.baseCount.toNat
/-- The stamp of this moment at a capture point (R340): its low 4 bits are 0. -/
def stampNow (s : State) : Nat := now s / 16 * 16
/-- Base units in `n` microseconds (R339: 153.6 GHz). -/
def usUnits (n : Nat) : Nat := n * 153600
def msUnits (n : Nat) : Nat := n * 153600000

/-! ### Where things are -/

def macPage (port : Nat) : Nat := port / 16 * 4096 + 0x10 + port % 16
def msecPage (region : Nat) : Nat := region * 4096 + 0x20
def sdqPage (quad : Nat) : Nat := quad / 4 * 4096 + 1 + quad % 4
def modPage (cage : Nat) : Nat := cage / 4 * 4096 + 0x30 + cage % 4
/-- The page of a field port (R102). -/
def fpPage (port : Nat) : Nat :=
  4 * 4096 + (if port < 96 then 1 + (port - 64) else if port < 104 then 0x30 + (port - 96) else 0x40 + (port - 104))
/-- The page that holds a port's link state. -/
def portPage (port : Nat) : Nat := if port < 64 then macPage port else fpPage port
def tmsPage (port : Nat) : Nat := 5 * 4096 + 0x100 + port
def schPage (port : Nat) : Nat := 5 * 4096 + 0x200 + port
def gatPage (port : Nat) : Nat := 5 * 4096 + 0x300 + port
abbrev bpmPage : Nat := 5 * 4096 + 0x20
abbrev bpmInPage : Nat := 5 * 4096 + 0x21
abbrev repPage : Nat := 5 * 4096 + 0xA0
abbrev rsqPage : Nat := 5 * 4096 + 0xB0
abbrev mirPage : Nat := 5 * 4096 + 0xC0
abbrev ppmPage : Nat := 6 * 4096 + 0x20
abbrev cstPage : Nat := 6 * 4096 + 0x30
abbrev jrnPage : Nat := 6 * 4096 + 0x40
abbrev capPage : Nat := 6 * 4096 + 0x50
def ebkPage (k : Nat) : Nat := 7 * 4096 + 1 + k
abbrev svcPage : Nat := 7 * 4096 + 0x80
abbrev embPage : Nat := 7 * 4096 + 0x81
abbrev pciPage : Nat := 8 * 4096 + 0x01
abbrev rngPage : Nat := 8 * 4096 + 0x02
abbrev dmaPage : Nat := 8 * 4096 + 0x03
abbrev intcPage : Nat := 8 * 4096 + 0x04
abbrev inspPage : Nat := 8 * 4096 + 0x10
abbrev injPage : Nat := 8 * 4096 + 0x11
abbrev unlockPage : Nat := 8 * 4096 + 0x12
abbrev fwPage : Nat := 8 * 4096 + 0x13
abbrev thermPage : Nat := 8 * 4096 + 0x14
abbrev pwrPage : Nat := 8 * 4096 + 0x20
abbrev secPage : Nat := 8 * 4096 + 0x21
abbrev bootPage : Nat := 8 * 4096 + 0x22
abbrev fusePage : Nat := 8 * 4096 + 0x23
def sqPage (n : Nat) : Nat := 8 * 4096 + 0x100 + n
def cqPage (n : Nat) : Nat := 8 * 4096 + 0x200 + n
abbrev tbsPage : Nat := 9 * 4096 + 1
abbrev tdsPage : Nat := 9 * 4096 + 2
abbrev tioPage : Nat := 9 * 4096 + 3
abbrev syePage : Nat := 9 * 4096 + 4
abbrev bscPage : Nat := 9 * 4096 + 5
def tbPage (k : Nat) : Nat := 9 * 4096 + 0x10 + k
abbrev spnPairPage : Nat := 0x50
def spnLinkPage (l : Nat) : Nat := l / 2 * 4096 + 0x51 + l % 2
/-- Pages of a pipeline: 0 to 3 the line pipelines, 4 the field pipeline (R159, R168). -/
def prsPage (k : Nat) : Nat := if k < 4 then k * 4096 + 0x40 else 4 * 4096 + 0x60
def rulPage (k : Nat) : Nat := if k < 4 then k * 4096 + 0x41 else 4 * 4096 + 0x60
def fdbPage (k : Nat) : Nat := if k < 4 then k * 4096 + 0x42 else 4 * 4096 + 0x61
def lpmPage (k : Nat) : Nat := if k < 4 then k * 4096 + 0x43 else 4 * 4096 + 0x62
def mtrPage (k : Nat) : Nat := if k < 4 then k * 4096 + 0x44 else 4 * 4096 + 0x63
def cntPage (k : Nat) : Nat := if k < 4 then k * 4096 + 0x45 else 4 * 4096 + 0x64
def iplPage (k : Nat) : Nat := k * 4096 + 0x46
def eplPage (k : Nat) : Nat := k * 4096 + 0x47
/-- The pipeline, and region, that serves a port by R18. -/
def regionOfPort (port : Nat) : Nat :=
  if port < 64 then port / 16
  else if port ≤ 105 then 4
  else if port = 112 then 8
  else if port = 113 then 7
  else if port ≤ 117 then port - 114
  else 4
/-- The pipeline that a port's own region holds. -/
def pipeOfPort (port : Nat) : Nat := min (regionOfPort port) 4

/-! ### Power, reset and isolation -/

/-- A power domain; every domain is ON at reset (R45: state resets to 3). -/
def domOf (s : State) (d : Nat) : Dom := mapGet (fun _ => ({} : Dom)) s.doms d
def setDom (s : State) (d : Nat) (x : Dom) : State := { s with doms := mapSet (fun _ => ({} : Dom)) s.doms d x }
/-- Domains 176 and 177 are always ON (R26). -/
def domOn (s : State) (d : Nat) : Bool := 176 ≤ d || (domOf s d).st == .on
/-- The power domain of a page. [DEDUCED, log 33] -/
def pageDom (p : Nat) : Nat := match pageInfo p with | none => 0 | some i => i.domain
/-- R46: a page can be reached only while its domain is ON. While the die-to-die link is down, FLD pages read as
unpowered (R14), SNS and the header page included. -/
def pageOn (s : State) (p : Nat) : Bool :=
  domOn s (pageDom p) && !(p / 4096 == 4 && s.d2d.st == .down)

/-- The key of the scope that a HOLD or a PG_CTL write on a page acts on (R33, R66). -/
def scopeKey (p : Nat) : Nat :=
  match pageInfo p with
  | none => p
  | some i => if i.kind.cellPage then p else 2 ^ 30 + blockKey p
/-- The page whose PG_CTL governs a cell page's whole block, where the block has one. -/
def blockCtlPage (p : Nat) : Option Nat :=
  match pageInfo p with
  | none => none
  | some i => match i.kind with
    | .sq | .cq => some rngPage
    | .tb => some tbsPage
    | .spnLink => if i.region = 0 then some spnPairPage else none
    | _ => none
/-- R66, R489: the page is held, by its own scope, its block or its region. -/
def held (s : State) (p : Nat) : Bool :=
  s.holds.contains (scopeKey p, 0) || s.holds.contains (2 ^ 30 + blockKey p, 0) ||
  s.holds.contains (scopeKey (p / 4096 * 4096), 0)
/-- A reset scope covers a page. -/
def covers (r : ResetScope) (p : Nat) : Bool :=
  match r, pageInfo p with
  | .cell q, _ => q.toNat == p
  | .block rg bt inst, some i => rg.toNat == i.region && bt.toNat == i.btype && inst.toNat == i.inst
  | .region rg, some i => rg.toNat == i.region && i.btype != 0 && !(i.region == 4 && i.btype == 3) &&
    !(i.region == 8 && decide (4 ≤ i.btype) && decide (i.btype ≤ 8))
  | .warm, some i => i.domain != 174 && i.domain != 176 && i.domain != 177
  | .cold, some _ => true
  | _, none => false
/-- PG_STAT.in_reset: a reset that covers the page is in progress. -/
def inReset (s : State) (p : Nat) : Bool := s.resets.any (fun r => covers r p)
/-- The pages of a block that is no cell: PG_CTL of any of them acts on the whole block (R33). -/
def siblings (p : Nat) : List Nat :=
  match pageInfo p with
  | none => [p]
  | some i => match i.kind with
    | .fplRul | .fplFdb | .fplLpm | .fplMtr | .fplCnt => (List.range 5).map (· + (4 * 4096 + 0x60))
    | .bpm | .bpmIn => [bpmPage, bpmInPage]
    | .sns | .snsPair => [4 * 4096 + 0x50, 4 * 4096 + 0x51]
    | .insp | .inj | .injUnlock | .fw | .therm => (List.range 5).map (· + inspPage)
    | _ => [p]
/-- PG_CTL of the page, or of its block's control page, stops or cuts off the scope (R45). [DEDUCED, log 36] -/
def ctlStops (s : State) (p : Nat) : Bool :=
  let one (q : Nat) : Bool := !bitAt s q 0x010 0 || bitAt s q 0x010 2
  (siblings p).any one || (match blockCtlPage p with | none => false | some q => one q)
/-- PG_STAT.isolated, or the datapath stopped: arriving work is discarded and counted. -/
def isolated (s : State) (p : Nat) : Bool := ctlStops s p || held s p
/-- PG_CTL.drain refuses new work. [DEDUCED, log 44] -/
def draining (s : State) (p : Nat) : Bool :=
  (siblings p).any (fun q => bitAt s q 0x010 1) || (match blockCtlPage p with | none => false | some q => bitAt s q 0x010 1)
/-- The scope of a page takes and does work. -/
def serving (s : State) (p : Nat) : Bool := pageOn s p && !isolated s p && !inReset s p
/-- Footway state code of FW_STAT (R517): 0 NORMAL, 1 ENTERING, 2 FOOTWAY, 3 EXITING. -/
def fwState (s : State) : Nat := fld s fwPage 0x108 2 0

/-! ### Reason codes and interrupt sources -/

/-- R473: count an event under its reason code in the reason table of region `r`. -/
def countReason (s : State) (r code : Nat) : State := addCounter { s with lastReason := code } (r * 4096) 0 code 0 1

/-- The severity configured for a source (R66). -/
def sevOf (s : State) (p src : Nat) : Nat :=
  if src < 16 then fld s p 0x028 (2 * src + 1) (2 * src) else fld s p 0x02C (2 * (src - 16) + 1) (2 * (src - 16))

/-- R66, R488: the source isolates the cell named in ERR_CAPT0.cell. -/
def cellSource (p src : Nat) : Bool :=
  match pageInfo p with
  | none => false
  | some i => match i.kind with
    | .ebk => src == 0
    | .bpm => src == 8 || src == 9
    | _ => false

/-- R47: first-error capture, and the count of later events. -/
def capture (s : State) (p src sev cell reason detail : Nat) : State :=
  if bitAt s p 0x038 0 then addSat s p 0x044 15 0 1
  else
    let s := wr s p 0x038 (BitVec.ofNat 32 (1 + src * 2 + sev * 64 + (cell % 65536) * 256 + (reason % 256) * 2 ^ 24))
    let s := wr64 s p 0x03C (stampNow s % 2 ^ 64)
    wr s p 0x044 (BitVec.ofNat 32 ((detail % 65536) * 65536))

/-- Put a scope in HOLD. -/
def addHold (s : State) (k : Nat × Nat) : State :=
  if s.holds.contains k then s else { s with holds := k :: s.holds }

/-- R66: a source fires. Its cause bit is set, the event is captured, and its severity acts: HOLD isolates the
scope, ESCALATE is left for the level above, which acts at the end of the command. -/
def raise (s : State) (p src : Nat) (reason : Nat := 0) (detail : Nat := 0) (cell : Nat := 0) : State :=
  let sev := sevOf s p src
  let s := setBit s p 0x020 src true
  let s := capture s p src sev cell reason detail
  if sev = 2 then addHold s (if cellSource p src then (scopeKey p, cell + 1) else (scopeKey p, 0))
  else if sev = 3 then { s with escal := s.escal ++ [(p, src)] }
  else s

/-- The unmasked causes of a page whose severity signals (R68). -/
def signalling (s : State) (p : Nat) : Bool :=
  let c := (rd s p 0x020).toNat
  let m := (rd s p 0x024).toNat
  (onesOf 32 c).any (fun b => !m.testBit b && sevOf s p b != 0)

/-- The pages that have a cause bit set. -/
def causePages (s : State) : List Nat :=
  (s.regs.filter (fun e => e.1 % 4096 == 0x020)).map (fun e => e.1 / 4096)

/-- R68: the summary bits that are set, as region code * 128 + bit. -/
def summaries (s : State) : List Nat :=
  (causePages s).filterMap (fun p =>
    match pageInfo p with
    | none => none
    | some i => if signalling s p then some (i.region * 128 + summaryBit i) else none)

/-- The summary bits that reach HST.INTC: those of FLD cross the die-to-die link, and only while it carries traffic (R12). -/
def heardSums (s : State) : List Nat := (summaries s).filter (fun b => b / 128 != 4 || s.d2d.st == .up)

/-- R424: the device may issue requests on PCIe. -/
def pcieLive (s : State) : Bool := s.pcie.bme && !s.pcie.d3hot && s.pcie.linkUp && serving s pciPage

/-- Vector `v` is armed (R69). -/
def armed (s : State) (v : Nat) : Bool := bitAt s intcPage (0x140 + v / 32 * 4) (v % 32)

/-- R70: send the message of vector `v`, which clears its arm. A masked vector becomes pending instead. [PRESUMED, log 31] -/
def sendVector (s : State) (v : Nat) : State :=
  let s := setBit s intcPage (0x140 + v / 32 * 4) (v % 32) false
  if s.pcie.mask.testBit v then { s with pcie := { s.pcie with pend := s.pcie.pend ||| 2 ^ v } }
  else emit s (.msix v)

/-- R69, R70: send the message of every armed vector that an enabled summary bit is mapped to. -/
def sendSummaries (s : State) : List Nat → State
  | [] => s
  | b :: bs =>
    let e := tget s intcPage 0 0 b
    let v := efld e 8 0
    let s' := if ebit e 15 && armed s v && pcieLive s && serving s intcPage then sendVector s v else s
    sendSummaries s' bs

/-- R70, R423: pending vectors whose mask has been cleared are sent. -/
def sendPending (s : State) : State :=
  if s.pcie.pend = 0 ∨ !(pcieLive s && serving s intcPage) then s
  else
    let l := (onesOf 512 s.pcie.pend).filter (fun v => !s.pcie.mask.testBit v)
    { s with pcie := { s.pcie with pend := s.pcie.pend &&& s.pcie.mask }, out := (l.map Output.msix).reverse ++ s.out }
/-- The messages due after a command. [DESIGN CHOICE, log 8] -/
def signal (s : State) : State := let s := sendPending s; sendSummaries s (heardSums s)

/-- ERR_NONFATAL (R61). -/
def errNonfatal (s : State) : State := inc (emit s .errNonfatal) pciPage 0x104

/-- `f` applied for each element in turn. -/
def forEach {α : Type} (s : State) (l : List α) (f : State → α → State) : State := l.foldl f s

end Sys2Proof.Machine
end

