-- ==== Sys2Proof/Machine/PoolOps.lean ====
section
/-! DEFINITION. The pool manager that both pools follow: quotas, grants and the operations on buffers (R201 to
R212, R576), the ingress accounting (R224) and the fencing of bank groups (R225). -/

namespace Sys2Proof.Machine

/-! ### Sizes and quotas -/

/-- A DIMM whose slot nothing has changed: 256 GiB, in service (the board's; a log entry names it). [DESIGN CHOICE, log 11] -/
def dimmDflt (k : Nat) : Dimm := { serial := 0x1000 + k }
def dimmOf (s : State) (k : Nat) : Dimm := mapGet dimmDflt s.dimms k
def setDimm (s : State) (k : Nat) (d : Dimm) : State := { s with dimms := mapSet dimmDflt s.dimms k d }

/-- Rows of a channel: 2^24 for each sixteenth of a TiB (R202, R203). -/
def rowsOf (s : State) (k : Nat) : Nat := if (dimmOf s k).present then (dimmOf s k).capacity * 2 ^ 24 else 0
/-- Pool pages of a channel: its rows less the highest 1/256, which hold metadata (R202). [DESIGN CHOICE, log 11] -/
def poolRows (s : State) (k : Nat) : Nat := rowsOf s k - rowsOf s k / 256
/-- PPM_USABLE (R230). -/
def usable (s : State) : Nat := ((List.range 16).map (poolRows s)).sum
/-- R202: the 16 channels in service. -/
def channels (s : State) : List Nat :=
  (List.range 16).filter (fun k => (dimmOf s k).inService && (dimmOf s k).present && domOn s (89 + k))

def poolSt (s : State) (q : Pool) : PoolSt := match q with | .granules => s.gran | .pages => s.page
def setPool (s : State) (q : Pool) (x : PoolSt) : State :=
  match q with | .granules => { s with gran := x } | .pages => { s with page := x }
def poolPage (q : Pool) : Nat := match q with | .granules => bpmPage | .pages => ppmPage
/-- The region whose reason table a pool counts in. -/
def poolRegion (q : Pool) : Nat := match q with | .granules => 5 | .pages => 6

def bufDflt (_ : Nat) : Buf := {}
def bufOf (s : State) (q : Pool) (b : Nat) : Buf := mapGet bufDflt (poolSt s q).bufs b
def setBuf (s : State) (q : Pool) (b : Nat) (x : Buf) : State :=
  setPool s q { poolSt s q with bufs := mapSet bufDflt (poolSt s q).bufs b x }
def usageOf (s : State) (q : Pool) (i : Nat) : Nat := mapGet (fun _ => 0) (poolSt s q).usage i
def setUsage (s : State) (q : Pool) (i u : Nat) : State :=
  setPool s q { poolSt s q with usage := mapSet (fun _ => 0) (poolSt s q).usage i u }

/-- m_i (R205, R206). -/
def minOf (s : State) (q : Pool) (i : Nat) : Nat :=
  match q with
  | .granules => fld s bpmPage (0x140 + 8 * i) 19 0
  | .pages => usable s * min (fld s ppmPage (0x140 + 4 * i) 10 0) 1024 / 1024
/-- M_i (R205, R206). -/
def maxOf (s : State) (q : Pool) (i : Nat) : Nat :=
  match q with
  | .granules => fld s bpmPage (0x144 + 8 * i) 19 0
  | .pages => usable s * min (fld s ppmPage (0x140 + 4 * i) 26 16) 1024 / 1024

/-- The granules in use of a bank group: those of chains that are HELD or RELEASED. -/
def usedGranules (p : PoolSt) (g : Nat) : List Nat :=
  (p.bufs.flatMap (fun e => if e.2.st = .held ∨ e.2.st = .released then e.2.chain else [])).filter (fun a => a / 32768 == g)
/-- Buffers fenced one by one, outside the groups being fenced. -/
def fencedSingles (p : PoolSt) : Nat :=
  (p.bufs.filter (fun e => e.2.st == .fenced && !(p.fencedGroups ++ p.fencing).contains (e.1 / 32768))).length
/-- Buffers out of the pool: in a group fenced or being fenced every granule that is not in use, and single ones (R206). -/
def fencedCount (s : State) (q : Pool) : Nat :=
  match q with
  | .granules => fencedSingles s.gran + ((s.gran.fencedGroups ++ s.gran.fencing).map (fun g => 32768 - (usedGranules s.gran g).length)).sum
  | .pages => (s.page.bufs.filter (fun e => e.2.st == .fenced)).length
/-- A: the available size (R206). -/
def avail (s : State) (q : Pool) : Nat :=
  (match q with | .granules => 524288 | .pages => usable s) - fencedCount s q
/-- Σ m_i. -/
def sumMin (s : State) (q : Pool) : Nat := ((List.range 16).map (minOf s q)).sum
/-- F: the shared free count (R206). -/
def freeShared (s : State) (q : Pool) : Int :=
  (avail s q : Int) - (sumMin s q : Int) -
    (((List.range 16).map (fun i => usageOf s q i - minOf s q i)).sum : Nat)

/-- PPM_STAT.ready (R230). -/
def ppmReady (s : State) : Bool := bitAt s ppmPage 0x100 0

/-- The least number from 0 that is not in `used`. -/
def leastFree : Nat → Nat → List Nat → Nat
  | 0, n, _ => n
  | fuel + 1, n, used => if used.contains n then leastFree fuel (n + 1) used else n

/-- Bank groups that grants are made from, starting at the rotation point (R201). -/
def grantGroups (p : PoolSt) : List Nat :=
  ((List.range 16).map (fun i => (p.rot + i) % 16)).filter (fun g => !(p.fencedGroups ++ p.fencing).contains g)
/-- The granules that are not FREE. -/
def takenGranules (p : PoolSt) : List Nat := p.bufs.flatMap (fun e => if e.2.st = .free then [] else e.2.chain)
/-- Those of one bank group. -/
def inGroup (l : List Nat) (g : Nat) : List Nat := l.filter (fun a => a / 32768 == g)

/-- A chain of `n` granules from successive bank groups (R201); a group that is full is passed over. -/
def takeGranules (used : List Nat) (groups : List Nat) : Nat → Nat → List Nat
  | 0, _ => []
  | n + 1, i =>
    let turn := (List.range groups.length).map (fun j => groups.getD ((i + j) % max groups.length 1) 0)
    let g := (turn.find? (fun g => decide ((inGroup used g).length < 32768))).getD 0
    let mine := inGroup used g
    let a := g * 32768 + leastFree (mine.length + 1) 0 (mine.map (· % 32768))
    a :: takeGranules (a :: used) groups n (i + 1)

/-- Rows of a channel whose page is not FREE. -/
def takenRows (s : State) (k : Nat) : List Nat := (s.page.bufs.filter (fun e => e.2.st != .free && e.1 % 16 == k)).map (fun e => e.1 / 16)
/-- The channels that grants are made from, in rotation, those without a free pool page passed over (R202, R207). -/
def grantChannels (s : State) : List Nat :=
  ((List.range 16).map (fun i => (s.page.rot + i) % 16)).filter (fun k =>
    (channels s).contains k && !s.page.closed.contains k && decide ((takenRows s k).length < poolRows s k))
/-- The page granted next: the channel in rotation, its least free row (R207). -/
def takePage (s : State) : Nat :=
  let k := (grantChannels s).headD 0
  leastFree ((takenRows s k).length + 1) 0 (takenRows s k) * 16 + k

/-- The number of buffers that a grant takes: a page is a buffer by itself (R204). -/
def grantSize (q : Pool) (size : Nat) : Nat := match q with | .granules => size | .pages => 1
/-- The buffers that a grant takes are in reach (R233). -/
def inReach (s : State) (q : Pool) (size : Nat) : Bool :=
  match q with
  | .granules => decide (size ≤ ((grantGroups s.gran).map (fun g => 32768 - (inGroup (takenGranules s.gran) g).length)).sum)
  | .pages => !(grantChannels s).isEmpty
/-- What requester `i` needs of the shared part for a grant of `size` (R206). -/
def sharedNeed (s : State) (q : Pool) (i size : Nat) : Nat := size - min size (minOf s q i - usageOf s q i)
/-- R206: why a grant of `size` to requester `i` fails: 0x60, 0x61, or 0 where it is made. [DEDUCED, log 66] -/
def grantVerdict (s : State) (q : Pool) (i size : Nat) : Nat :=
  let n := grantSize q size
  if q = .pages ∧ !ppmReady s then 0x60
  else
    let shared := sharedNeed s q i n
    if shared ≠ 0 ∧ maxOf s q i < usageOf s q i + n then 0x61
    else if shared ≠ 0 ∧ freeShared s q < (shared : Int) then 0x60
    else if !inReach s q n then 0x60
    else 0

/-! ### The metadata area (R202, R203, R277) -/

/-- A page that is not in the pool: a metadata page, or one past the channel's rows. [DESIGN CHOICE, log 144] -/
def outOfPool (s : State) (p : Nat) : Bool := decide (poolRows s (p % 16) ≤ p / 16)
/-- The page and the 8-byte word at byte `b` of a channel's metadata rows. -/
def metaWord (s : State) (k b : Nat) : Nat × Nat := ((poolRows s k + b / 4096) * 16 + k, b % 4096 / 8)
/-- Where the descriptor of a page lies: 8 bytes a row. [DESIGN CHOICE, log 65] -/
def descWord (s : State) (p : Nat) : Nat × Nat := metaWord s (p % 16) (8 * (p / 16))
/-- Where its link copy lies: behind the descriptors, 4 bytes a row. [DESIGN CHOICE, log 65] -/
def linkWord (s : State) (p : Nat) : Nat × Nat := metaWord s (p % 16) (8 * rowsOf s (p % 16) + 4 * (p / 16))
/-- Byte `b` of a channel's custody area, which lies behind the link copies. [DESIGN CHOICE, log 65] -/
def custWord (s : State) (k b : Nat) : Nat × Nat := metaWord s k (12 * rowsOf s k + b)
/-- Where the page tag of a page lies (R277). [DESIGN CHOICE, log 65] -/
def tagWord (s : State) (p : Nat) : Nat × Nat := custWord s (p % 16) (2 * (p / 16))
/-- [DESIGN CHOICE, log 158] -/
def wordBad (s : State) (w : Nat × Nat) : Bool := s.dramBad.contains w
/-- A sticky injected error stands on a DRAM page: rewriting does not mend it (R496). -/
def stickyDram (s : State) (p : Nat) : Bool := s.inj.faults.any (fun f => f.1 == 6 && f.2.2.2.1 == p && f.2.2.2.2.2)
/-- Words that are rewritten read correctly again. -/
def mendWords (s : State) (which : Nat × Nat → Bool) : State :=
  if s.dramBad.isEmpty then s else { s with dramBad := s.dramBad.filter (fun d => !which d || stickyDram s d.1) }
/-- PPM rewrites the descriptor and the link copy of a page. -/
def rewriteMeta (s : State) (p : Nat) : State := mendWords s (fun d => d == descWord s p || d == linkWord s p)
/-- The next field of a page: its descriptor and its link copy name the page that follows it (R203, R204). -/
def linkPage (s : State) (p nx : Nat) : State := rewriteMeta (setBuf s .pages p { bufOf s .pages p with next := nx }) p
/-- The pages of a list name one another. -/
def linkPages (s : State) : List Nat → State
  | p :: r :: l => linkPages (linkPage s p r) (r :: l)
  | _ => s

/-- A grant that R206 allows: the buffer's head, and the state with it HELD by requester `i`. -/
def grantBuf (s : State) (q : Pool) (i size : Nat) : Nat × State :=
  let p := poolSt s q
  let n := grantSize q size
  let chain : List Nat := match q with
    | .granules => takeGranules (takenGranules p) (grantGroups p) n 0
    | .pages => [takePage s]
  let head := chain.headD 0
  let old := bufOf s q head
  let fromReserve := sharedNeed s q i n = 0
  let nx := (chain.drop 1).headD ({} : Buf).next
  let b : Buf := { st := .held, owner := i, refs := 0, bad := false, size := n, chain := chain, next := nx
                   gen := (old.gen + 1) % 256, charge := none, tag := none }
  let s := setBuf s q head b
  let s := setUsage s q i (usageOf s q i + n)
  let rot : Nat := match q with
    | .granules => (p.rot + n) % 16
    | .pages => (head % 16 + 1) % 16
  let s := setPool s q { poolSt s q with rot := rot, lastShared := if fromReserve then p.lastShared else i }
  (head, match q with | .granules => s | .pages => rewriteMeta s head)

/-- A failed grant is counted and raised (R206, R227, R230, R231). The requester may count it under a reason of its own (R218). -/
def grantFailed (s : State) (q : Pool) (reason region : Nat) (as : Option Nat := none) : State :=
  let s := countReason s region (as.getD reason)
  if reason = 0x60 then
    raise (inc s (poolPage q) (match q with | .granules => 0x124 | .pages => 0x130)) (poolPage q) 0 0x60
  else raise s (poolPage q) 1 0x61

/-- GRANT (R210): `none` and the counted failure, or the head of the buffer granted. `region` names the reason
table the requester's failure counts in (R208). -/
def grant (s : State) (q : Pool) (i size region : Nat) (as : Option Nat := none) : Option Nat × State :=
  let v := grantVerdict s q i size
  if v = 0 then
    let r := grantBuf s q i size
    (some r.1, r.2)
  else (none, grantFailed s q v region as)
/-- Requests of one cycle (R207): those that a reserve covers are granted; those that need the shared part follow in requester order,
from the one after the requester that the shared part granted last. -/
def grantCycle (s : State) (q : Pool) (reqs : List (Nat × Nat)) (region : Nat) : State :=
  let last := (poolSt s q).lastShared
  let needs (r : Nat × Nat) : Bool := sharedNeed s q r.1 (grantSize q r.2) != 0
  let turn := (List.range 16).flatMap (fun j => reqs.filter (fun r => needs r && r.1 == (last + 1 + j) % 16))
  forEach s (reqs.filter (fun r => !needs r) ++ turn) (fun s r => (grant s q r.1 r.2 region).2)

/-! ### Ingress accounting (R224) -/

/-- MAC_FC_CFG of a line port. -/
def fcMode (s : State) (port : Nat) : Nat := fld s (macPage port) 0x108 1 0
def fcTx (s : State) (port : Nat) : Bool := bitAt s (macPage port) 0x108 3

/-- R85: send pause or PFC for a change of XOFF on entry `idx` (a class, or the port total). -/
def signalXoff (s : State) (port : Nat) (cls : Option Nat) (on : Bool) : State :=
  let quanta := if on then fld s (macPage port) 0x11C 15 0 else 0
  if !fcTx s port then s
  else match cls with
    | none =>
      if fcMode s port = 1 then addCounter (emit s (.pause port 0x100 quanta)) (cntPage (port / 16)) 1 (port % 16) 13 1 else s
    | some c =>
      if fcMode s port = 2 ∧ bitAt s (macPage port) 0x108 (16 + c) then
        addCounter (emit s (.pause port (2 ^ c) quanta)) (cntPage (port / 16)) 1 (port % 16) 13 1
      else s

/-- Index of a line port's entry in the ingress accounting tables (R229). -/
def inIdx (port : Nat) (cls : Option Nat) : Nat := match cls with | none => 512 + port | some c => port * 8 + c

/-- Move the count of one entry, with its XOFF and XON (R224). -/
def moveCount (s : State) (port : Nat) (cls : Option Nat) (up : Bool) (g : Nat) : State :=
  let idx := inIdx port cls
  let e := tget s bpmInPage 1 0 idx
  let c := if up then efld e 19 0 + g else efld e 19 0 - g
  let lim := tget s bpmInPage 0 0 idx
  let was := ebit e 31
  let xo := if c ≥ efld lim 19 0 then true else if c ≤ efld lim 39 20 then false else was
  let s := tset s bpmInPage 1 0 idx (BitVec.ofNat 1920 (min c (2 ^ 20 - 1) + b2n xo * 2 ^ 31))
  if xo = was then s else signalXoff s port cls xo

/-- R224: the port total, or the class count, has reached its limit. -/
def overLimit (s : State) (port : Nat) (cls : Option Nat) : Bool :=
  efld (tget s bpmInPage 1 0 (inIdx port cls)) 19 0 ≥ efld (tget s bpmInPage 0 0 (inIdx port cls)) 59 40

/-- Charge `g` granules of buffer `b` to a line port, and to a class once pass 0 has set it. -/
def charge (s : State) (b port : Nat) (cls : Option Nat) (g : Nat) : State :=
  if 64 ≤ port then s
  else
    let x := bufOf s .granules b
    let s := setBuf s .granules b { x with charge := some (port, match cls with | none => 8 | some c => c) }
    match cls with
    | none => moveCount s port none true g
    | some c => moveCount s port (some c) true g

/-- R224: a buffer that becomes FREE leaves both counts. -/
def uncharge (s : State) (x : Buf) : State :=
  match x.charge with
  | none => s
  | some (port, c) =>
    let s := moveCount s port none false x.size
    if c < 8 then moveCount s port (some c) false x.size else s

/-! ### Operations on buffers (R210 to R212) -/

/-- The buffer that a granule is part of, by its head; a page is a buffer by itself. Every granule of a chain carries the chain's state
and owner (R204). [DESIGN CHOICE, log 144] -/
def bufHead (s : State) (q : Pool) (b : Nat) : Nat :=
  match q with
  | .granules => ((s.gran.bufs.find? (fun e => e.2.st != .free && e.2.chain.contains b)).map (·.1)).getD b
  | .pages => b
/-- The record of a buffer: a page that is not in the pool reads FENCED with owner 15 (R203). [DESIGN CHOICE, log 144] -/
def recordOf (s : State) (q : Pool) (b : Nat) : Buf :=
  if q = .pages ∧ outOfPool s b then { st := .fenced, owner := 15 } else bufOf s q b
/-- R211: an operation that is not accepted. `op` is the code of BADOP0. [DEDUCED, log 67] -/
def badOp (s : State) (q : Pool) (b op by_ reason : Nat) : State :=
  let pg := poolPage q
  let o0 := match q with | .granules => 0x11C | .pages => 0x120
  let o1 := match q with | .granules => 0x120 | .pages => 0x128
  let own := (recordOf s q b).owner
  let s := countReason s (poolRegion q) reason
  let s := inc s pg (match q with | .granules => 0x134 | .pages => 0x134)
  let s := if bitAt s pg o0 0 then s
    else wr (wr s pg o0 (BitVec.ofNat 32 (1 + op * 2 + by_ * 16 + own * 256 + reason * 4096))) pg o1 (BitVec.ofNat 32 b)
  raise s pg (2 + (reason - 0x62)) reason

/-- A granule is marked bad and FENCED; INSP is charged for it (R232). -/
def fenceGranule (s : State) (a : Nat) : State :=
  let s := { s with gran := { s.gran with parBad := s.gran.parBad.erase a } }
  setUsage (setBuf s .granules a { bufOf s .granules a with st := .fenced, owner := 13, bad := true, refs := 0, size := 1, chain := [a], badGran := [], charge := none, next := ({} : Buf).next })
    .granules 13 (usageOf s .granules 13 + 1)
/-- The buffer becomes FREE; a page marked bad stays FENCED (R220), and so do the bad granules of a chain (R232). -/
def freeBuf (s : State) (q : Pool) (b : Nat) : State :=
  let x := bufOf s q b
  match q with
  | .granules =>
    let s := setBuf (uncharge s x) q b { gen := x.gen }
    forEach s x.badGran fenceGranule
  | .pages =>
    let s := if x.bad then setBuf s q b { gen := x.gen, st := .fenced, owner := 7, bad := true, chain := [b] } else setBuf s q b { gen := x.gen }
    rewriteMeta s b

/-- RELEASE by the owner (R210). The tag of a custody page is cleared (R276). -/
def opRelease (s : State) (q : Pool) (b by_ : Nat) : State :=
  let x := recordOf s q b
  if x.st ≠ .held then badOp s q b 5 by_ 0x62
  else if x.owner ≠ by_ then badOp s q b 5 by_ 0x63
  else
    let s := setUsage s q by_ (usageOf s q by_ - x.size)
    if x.refs = 0 then freeBuf s q b else setBuf s q b { x with st := .released, tag := none }

/-- DROP by a holder of a reference (R210). -/
def opDrop (s : State) (q : Pool) (b by_ : Nat) : State :=
  let x := recordOf s q b
  if x.st = .free ∨ x.st = .fenced then badOp s q b 4 by_ 0x62
  else if x.refs = 0 then badOp s q b 4 by_ 0x64
  else if x.refs = 1 ∧ x.st = .released then freeBuf (setBuf s q b { x with refs := 0 }) q b
  else setBuf s q b { x with refs := x.refs - 1 }

/-- ADDREF(k) by the owner (R210). -/
def opAddref (s : State) (q : Pool) (b by_ k : Nat) : State :=
  let x := recordOf s q b
  if x.st = .free ∨ x.st = .fenced then badOp s q b 3 by_ 0x62
  else if x.owner ≠ by_ then badOp s q b 3 by_ 0x63
  else if x.st ≠ .held then badOp s q b 3 by_ 0x62
  else if 511 < x.refs + k then badOp s q b 3 by_ 0x65
  else setBuf s q b { x with refs := x.refs + k }

/-- R576: the verdict on a HANDOVER of `g` buffers from `i` to `j`: 0, 0x60 or 0x61. -/
def handoverVerdict (s : State) (q : Pool) (i j g : Nat) : Nat :=
  let s' := setUsage s q i (usageOf s q i - g)
  let u := usageOf s' q j + g
  if maxOf s q j < u then 0x61
  else if u ≤ minOf s q j then 0
  else if 0 ≤ freeShared (setUsage s' q j u) q then 0
  else 0x60

/-- The buffer passes to requester `j` (R210). -/
def moveOwner (s : State) (q : Pool) (b j : Nat) : State :=
  let x := bufOf s q b
  let s := setUsage s q x.owner (usageOf s q x.owner - x.size)
  let s := setUsage s q j (usageOf s q j + x.size)
  setBuf s q b { x with owner := j }

/-- HANDOVER by the owner (R210, R576). -/
def opHandover (s : State) (q : Pool) (b by_ j : Nat) : State :=
  let x := recordOf s q b
  if x.st = .free ∨ x.st = .fenced then badOp s q b 2 by_ 0x62
  else if x.owner ≠ by_ then badOp s q b 2 by_ 0x63
  else if x.st ≠ .held then badOp s q b 2 by_ 0x62
  else
    let v := handoverVerdict s q by_ j x.size
    if v = 0 then moveOwner s q b j else grantFailed s q v (poolRegion q)

/-- FENCE and UNFENCE, by INSP only: requester 13 of the granule pool, 7 of the page pool (R205, R210). -/
def inspOf (q : Pool) : Nat := match q with | .granules => 13 | .pages => 7
/-- [DEDUCED, log 67] -/
def opFence (s : State) (q : Pool) (b by_ : Nat) : State :=
  let x := recordOf s q b
  if by_ ≠ inspOf q then badOp s q b 6 by_ 0x63
  else if x.st ≠ .free then badOp s q b 6 by_ 0x62
  else setBuf s q b { x with st := .fenced, owner := inspOf q, size := 1, chain := [b] }
/-- A granule that was charged to INSP leaves its usage (R232). [DEDUCED, log 67; DESIGN CHOICE, log 144] -/
def opUnfence (s : State) (q : Pool) (b by_ : Nat) : State :=
  let x := recordOf s q b
  if by_ ≠ inspOf q ∨ x.owner = 15 then badOp s q b 6 by_ 0x63
  else if x.st ≠ .fenced then badOp s q b 6 by_ 0x62
  else
    let s := if q = .granules ∧ x.bad then setUsage s q 13 (usageOf s q 13 - 1) else s
    setBuf s q b { gen := x.gen }

/-! ### Push-out mode (R222) -/

/-- BPM_MODE.fence_active. -/
def fenceActive (s : State) : Bool := !(s.gran.fencedGroups ++ s.gran.fencing).isEmpty
/-- BPM_MODE.pushout: the OR of the four conditions. -/
def pushout (s : State) : Bool :=
  bitAt s bpmPage 0x100 0 || bitAt s bpmPage 0x100 1 || fenceActive s || bitAt s bpmPage 0x100 3
/-- BPM source 6: push-out changed from what it was. -/
def notePushout (before : Bool) (s : State) : State := if pushout s = before then s else raise s bpmPage 6
/-- The OX6440 sets recovery when a bank group or a channel leaves service through a fault or HOLD. -/
def setRecovery (s : State) : State :=
  let before := pushout s
  if bitAt s bpmPage 0x100 1 then s
  else notePushout before (raise (setBit s bpmPage 0x100 1 true) bpmPage 10)

end Sys2Proof.Machine
end

