-- ==== Sys2Proof/Machine/GateOps.lean ====
section
/-! DEFINITION. What the queues stand on: time on a time base (R341, R357), the records of queues and ports, port rates,
gate lists (R248 to R251) and the credit of the CBS queues (R247). -/

namespace Sys2Proof.Machine

/-! ### Time on TB0 -/

def tbDflt (_ : Nat) : TimeBase := {}
def tbOf (s : State) (k : Nat) : TimeBase := mapGet tbDflt s.tbs k
def setTb (s : State) (k : Nat) (t : TimeBase) : State := { s with tbs := mapSet tbDflt s.tbs k t }
/-- R343: R_nom, and the rate word of a fractional offset in 2^-8 ppb. -/
abbrev rNom : Nat := 0x01AAAAAAAAAAAAAB
def rateWord (f : Int) : Nat := ((rNom : Int) + (rNom : Int) * clampI f (-256000000) 256000000 / (256000000000 : Nat)).toNat
/-- T_a + R * (B - B_a) in 2^-32 ns (R341). -/
def lineAt (ta ba rate : Nat) (b : Int) : Int := (ta : Int) + ((rate : Int) * (b - (ba : Int))) / (2 ^ 32 : Nat)
/-- R341, R347: a parameter set at base count `b`; a slew's term ends at its end. -/
def setAt (ta ba rate rate0 slewEnd b : Nat) : Int :=
  if slewEnd ≠ 0 ∧ slewEnd ≤ b then lineAt ta ba rate slewEnd + ((rate0 : Int) * ((b : Int) - slewEnd)) / (2 ^ 32 : Nat)
  else lineAt ta ba rate b
/-- R341: the value of a time base at base count `b`, in 2^-32 ns, with the parameters in force. -/
def tbLinear (t : TimeBase) (b : Nat) : Int := setAt t.ta t.ba t.rate (rateWord t.f) (if t.slew = 0 then 0 else t.slewEnd) b
def tbAt (s : State) (k b : Nat) : Int := tbLinear (tbOf s k) b
/-- The rate word in force now: a slew that has ended adds nothing (R343, R347). -/
def rateOf (s : State) (k : Nat) : Nat :=
  let t := tbOf s k
  if t.slew ≠ 0 ∧ t.slewEnd ≤ now s then rateWord t.f else t.rate
/-- What the rate adds to a time base between two base counts, the end of a slew minded, in 2^-64 ns (R347, R351). -/
def ranOn (t : TimeBase) (a b : Nat) : Nat :=
  if t.slew ≠ 0 ∧ t.slewEnd ≤ b then t.rate * (max a t.slewEnd - a) + rateWord t.f * (b - max a t.slewEnd) else t.rate * (b - a)
/-- TB0 interval time, in 2^-32 ns: TB0 without its sets and steps, whether or not it is valid (R351). -/
def tb0Time (s : State) : Nat := ((tbOf s 0).run + ranOn (tbOf s 0) (tbOf s 0).runBc (now s)) / 2 ^ 32
/-- Microseconds and milliseconds of interval time. -/
def usTime (n : Nat) : Nat := n * (1000 * 2 ^ 32)
def msTime (n : Nat) : Nat := n * (10 ^ 6 * 2 ^ 32)
/-- R357: the parameters in force at `b`; the flag says that they are no longer held. -/
def tbPast (t : TimeBase) (b : Nat) : Int × Bool :=
  if t.lastChange.getD 0 ≤ b then (tbLinear t b, false)
  else match t.gens.find? (fun g => g.1 ≤ b) with
    | some (_, ta, ba, r, r0, e) => (setAt ta ba r r0 e b, false)
    | none => match t.gens.getLast? with
      | some (from', ta, ba, r, r0, e) => (setAt ta ba r r0 e b, decide (0 < from' ∧ 7 ≤ t.gens.length))
      | none => (tbLinear t b, false)
/-- TB_STAT.valid (R344). -/
def tbValid (s : State) (k : Nat) : Bool := bitAt s (tbPage k) 0x104 0
/-- R340: a 64-bit stamp restored from the base count of this moment. -/
def restore (s : State) (stamp : Nat) : Nat :=
  let n := now s
  let hi := n / 2 ^ 64
  (if n % 2 ^ 64 < stamp % 2 ^ 64 then hi - 1 else hi) * 2 ^ 64 + stamp % 2 ^ 64
/-- A stamp converted into a time base with the parameters noted at its capture; source 6 where they are gone (R357). -/
def convertStamp (s : State) (k stamp : Nat) : Int × State :=
  let r := tbPast (tbOf s k) (restore s stamp)
  (r.1, if r.2 then raise (setBit s (tbPage k) 0x104 9 true) (tbPage k) 6 else s)
/-- The time bases into which a port's stamps are converted: tb_a, and tb_b where it is enabled (R359). -/
def portTbs (s : State) (port : Nat) : List Nat :=
  let e := if port ≤ 105 then tget s tdsPage 0 0 port else 0
  efld e 3 0 :: (if ebit e 8 then [efld e 7 4] else [])
/-- md.ts is converted on pass 0; the values and valid bits travel with the frame (R359). -/
def stampFrame (s : State) (f : Frame) : Frame × State :=
  (portTbs s f.ingress).foldl (fun a k =>
    let r := convertStamp a.2 k f.ts
    ({ a.1 with times := a.1.times ++ [(r.1, tbValid s k)] }, r.2)) ({ f with times := [] }, s)
/-- TB0 at base count `b` in ns modulo 2^64 (R276). -/
def tb0Ns (s : State) (b : Nat) : Nat := (tbAt s 0 b / (2 ^ 32 : Nat)).toNat % 2 ^ 64

/-! ### Queues and ports -/

def qIdx (port tc : Nat) : Nat := port * 8 + tc
def qPort (q : Nat) : Nat := q / 8
def qTc (q : Nat) : Nat := q % 8
def queueDflt (_ : Nat) : Queue := {}
def queueOf (s : State) (q : Nat) : Queue := mapGet queueDflt s.queues q
def setQueue (s : State) (q : Nat) (x : Queue) : State := { s with queues := mapSet queueDflt s.queues q x }
def eportDflt (_ : Nat) : EPort := {}
def eportOf (s : State) (p : Nat) : EPort := mapGet eportDflt s.eports p
def setEport (s : State) (p : Nat) (x : EPort) : State := { s with eports := mapSet eportDflt s.eports p x }
/-- R273: TC4 and TC5 of ports 0 to 105 are custody-marked at reset. -/
def cqDflt (q : Nat) : CQueue := { en := q % 8 == 4 || q % 8 == 5 }
def cqOf (s : State) (q : Nat) : CQueue := mapGet cqDflt s.cqueues q
def setCq (s : State) (q : Nat) (x : CQueue) : State := { s with cqueues := mapSet cqDflt s.cqueues q x }

/-! ### Rates -/

/-- Port rate in kb/s (R71, R104, R107, R111). The internal ports run at the host port's 200 Gb/s. [DESIGN CHOICE, log 71] -/
def portKbps (s : State) (port : Nat) : Nat :=
  let cfg := (eportOf s port).cfg
  if port < 64 then
    match bitsOf cfg 3 1 with
    | 0 => 1000000 | 1 => 10000000 | 2 => 25000000 | 3 => 50000000 | 4 => 100000000 | 5 => 200000000 | _ => 400000000
  else if port < 104 then 10000
  else if port ≤ 105 then
    match bitsOf cfg 9 8 with
    | 1 => 10000 | 2 => 100000 | 3 => 1000000
    | _ => match (eportOf s port).sgmii with | 0 => 10000 | 1 => 100000 | _ => 1000000
  else 200000000

/-! ### Gate lists -/

/-- The intervals and the index in force at `phase` (R249): the last entry lasts to the end of the cycle. -/
def gateIndex : List Nat → Nat → Nat → Nat
  | [], i, _ => i - 1
  | [_], i, _ => i
  | d :: ds, i, ph => if ph < d then i else gateIndex ds (i + 1) (ph - d)

/-- A gate list: header, and the entries' intervals. -/
structure GateList where
  base : Nat
  cycle : Nat
  tb : Nat
  intervals : List Nat
  deriving DecidableEq, Repr

/-- A time base at base count `b`, by the parameters in force then (R357). -/
def tbThen (s : State) (k b : Nat) : Int := (tbPast (tbOf s k) b).1
/-- Time since a list's base time, and a cycle, in 2^-32 ns (R249). -/
def gateSince (s : State) (g : GateList) (b : Nat) : Int := tbThen s g.tb b - (g.base * 2 ^ 32 : Nat)
def cycleTicks (g : GateList) : Nat := max g.cycle 1 * 2 ^ 32
/-- Phase in 2^-32 ns, and in whole ns, at base count `b` (R249). -/
def gateTick (s : State) (g : GateList) (b : Nat) : Nat := (gateSince s g b % (cycleTicks g : Nat)).toNat
def gatePhase (s : State) (g : GateList) (b : Nat) : Nat := gateTick s g b / 2 ^ 32

/-- Read a list's header: none while it is not valid. -/
def gateHeader (e : Entry) (ivl : Nat → Nat) : Option GateList :=
  if !ebit e 159 then none
  else some { base := efld e 63 0 * 10 ^ 9 + efld e 93 64, cycle := efld e 127 96, tb := efld e 143 140
              intervals := (List.range (efld e 136 128)).map ivl }

/-- R248: the active list of a port. -/
def gatBank (s : State) (port : Nat) : Bank := mapGet (fun _ => ({} : Bank)) s.gates port
def setGat (s : State) (port : Nat) (b : Bank) : State := { s with gates := mapSet (fun _ => ({} : Bank)) s.gates port b }
def portGates (s : State) (port : Nat) : Option GateList :=
  let b := (gatBank s port).active
  gateHeader (tget s (gatPage port) 1 b 0) (fun i => efld (tget s (gatPage port) 0 b i) 39 8)
/-- GAT_CFG.gate_en with a valid active header (R249). -/
def gatesRun (s : State) (port : Nat) : Bool := port ≤ 105 && bitAt s (gatPage port) 0x100 0 && (portGates s port).isSome

/-- States of entry `i` of the active list. -/
def gateStates (s : State) (port i : Nat) : Nat := efld (tget s (gatPage port) 0 (gatBank s port).active i) 7 0
/-- The gates of a port at this moment (R249): every gate is open while gates do not run. -/
def gatesNow (s : State) (port : Nat) : Nat :=
  match portGates s port with
  | none => 0xFF
  | some g => if gatesRun s port then gateStates s port (gateIndex g.intervals 0 (gatePhase s g (now s))) else 0xFF

/-- Length of each entry of a list within one cycle (R249). -/
def gateSpans : List Nat → Nat → List Nat
  | [], _ => []
  | [_], left => [left]
  | d :: ds, left => min d left :: gateSpans ds (left - min d left)

/-- Time in ns from phase `ph` until the gate of class `c` closes (R251); none when it stays open. The spans are those
of one cycle, taken twice. -/
def openFor (states : List (Nat × Nat)) (c : Nat) : Nat → Option Nat
  | ph =>
    let rec go : List (Nat × Nat) → Nat → Nat → Option Nat
      | [], _, _ => none
      | (st, d) :: rest, skip, acc =>
        if d ≤ skip then go rest (skip - d) acc
        else if st.testBit c then go rest 0 (acc + (d - skip)) else some acc
    go (states ++ states ++ states) ph 0

/-- The entries of a port's active list with their spans. -/
def portSpans (s : State) (port : Nat) (g : GateList) : List (Nat × Nat) :=
  (numbered 0 (gateSpans g.intervals g.cycle)).map (fun e => (gateStates s port e.1, e.2))

/-- Longest unbroken open span of class `c` over a cyclic list; none when the gate never closes (R252). -/
def longestOpen (spans : List (Nat × Nat)) (c : Nat) : Option Nat :=
  if spans.all (fun e => e.1.testBit c || e.2 == 0) then none
  else
    let r := (spans ++ spans).foldl (fun (a : Nat × Nat) e =>
      let run := if e.1.testBit c then a.1 + e.2 else if e.2 = 0 then a.1 else 0
      (run, max a.2 run)) (0, 0)
    some r.2

/-! ### Credit -/

def schMode (s : State) (port c : Nat) : Nat :=
  let m := fld s (schPage port) (0x140 + 16 * c) 1 0
  if m = 3 then 0 else m
/-- Time that class `c` is open in the first `ph` of a cycle, in 2^-32 ns. -/
def openUpTo (spans : List (Nat × Nat)) (c ph : Nat) : Nat :=
  (spans.foldl (fun (a : Nat × Nat) e => (a.1 + (if e.1.testBit c then min (e.2 * 2 ^ 32) (ph - a.2) else 0), a.2 + e.2 * 2 ^ 32)) (0, 0)).1
/-- Base units since `b` for which the gate of class `c` stood open. -/
def openUnits (s : State) (port c b : Nat) : Nat :=
  let d := now s - b
  match (if gatesRun s port then portGates s port else none) with
  | none => d
  | some g =>
    let spans := portSpans s port g
    let upTo (t : Int) : Int := t / (cycleTicks g : Nat) * (openUpTo spans c (cycleTicks g) : Nat) + (openUpTo spans c (t % (cycleTicks g : Nat)).toNat : Nat)
    let t0 := gateSince s g b
    let t1 := gateSince s g (now s)
    if t1 ≤ t0 then (if (gatesNow s port).testBit c then d else 0) else ((d : Int) * (upTo t1 - upTo t0) / (t1 - t0)).toNat
/-- send_slope of a CBS queue, in kb/s (R247). [PRESUMED, log 70] -/
def sendSlope (s : State) (port c : Nat) : Int := ((rd s (schPage port) (0x144 + 16 * c)).toNat : Int) - (portKbps s port : Int)
/-- Base units for which a frame of scheduling length `len` lets the credit fall (R244, R247). [PRESUMED, log 70] -/
def creditSpan (s : State) (port len : Nat) : Nat := len * 8 * 153600000 / portKbps s port
/-- CBS credit since the last event of the queue (R247). [PRESUMED, log 70] -/
def creditQueue (s : State) (port c : Nat) : State :=
  if schMode s port c ≠ 2 then s
  else
    let q := qIdx port c
    let x := queueOf s q
    let e := eportOf s port
    let idle : Int := (rd s (schPage port) (0x144 + 16 * c)).toNat
    let hi : Int := (fld s (schPage port) (0x148 + 16 * c) 23 0 * 1228800000 : Nat)
    let cr := match e.tx.filter (fun t => t.queue == q) with
      | some t => x.credit + sendSlope s port c * (min (now s) (t.startBc + creditSpan s port t.len) - x.creditBc : Nat)
      | none =>
        if x.frames.isEmpty then min x.credit 0
        else if e.paused.testBit c then x.credit
        else min hi (x.credit + idle * (openUnits s port c x.creditBc : Nat))
    setQueue s q { x with credit := cr, creditBc := now s }
/-- What is left of a frame's charge when it ends (R244). [PRESUMED, log 70] -/
def creditEnd (s : State) (port : Nat) (t : Tx) : State :=
  if schMode s port (qTc t.queue) ≠ 2 then s
  else
    let x := queueOf s t.queue
    setQueue s t.queue { x with credit := x.credit + sendSlope s port (qTc t.queue) * (t.startBc + creditSpan s port t.len - now s : Nat) }
/-- [PRESUMED, log 70] -/
def creditTick (s : State) (port : Nat) : State := forEach s (List.range 8) (fun s c => creditQueue s port c)
/-- The frames of a queue change: its credit is brought up to now, and one that becomes empty keeps no deficit (R243, R247). -/
def setFrames (s : State) (q : Nat) (l : List QFrame) : State :=
  let s := creditQueue s (qPort q) (qTc q)
  let x := queueOf s q
  setQueue s q { x with frames := l, deficit := if l.isEmpty then 0 else x.deficit }

end Sys2Proof.Machine
end

