-- ==== Sys2Proof/Machine/QueueOps.lean ====
section
/-! DEFINITION. Egress queues and custody queues: admission (R213 to R216, R222, R223, R262, R279), spill records
(R217 to R221), the resequencer (R237 to R239), replication accounts (R260, R261), port down and return (R262). -/

namespace Sys2Proof.Machine

/-! ### Frames and links -/

/-- Octets the MAC passed on, from the destination address to the FCS, or to the truncation point (R81, R201). -/
def frameLen (f : Frame) : Nat := f.bytes.length + if f.trunc then 0 else 4
/-- ⌈L / 256⌉ granules (R201). -/
def granulesOf (f : Frame) : Nat := ceilDiv (frameLen f) 256
/-- A record: its 16-byte header and the frame, padded to 8 bytes (R217). -/
def recSize (f : Frame) : Nat := ceilDiv (16 + frameLen f) 8 * 8

/-- Link state codes of MAC_LINK_STAT and FP_LINK_STAT (R78, R117): 0 DISABLED, 1 TRAINING, 2 UP, 3 HOLD, 4 DOWN.
Ports 112 to 118 have no link and are always up. -/
def linkState (s : State) (port : Nat) : Nat := if port ≤ 105 then fld s (portPage port) 0x114 2 0 else 2
/-- PLCA is in use on a T1S segment: plca_en as sampled (R107). [PRESUMED, log 114] -/
def plcaOn (s : State) (port : Nat) : Bool := bitOf (eportOf s port).plca 0
/-- A T1S segment, not held by sensing, whose PLCA is in use but inactive: it sends by CSMA/CD (R108) although its link is not good
(R115). [DESIGN CHOICE, log 132] -/
def csmaNow (s : State) (port : Nat) : Bool :=
  decide (96 ≤ port) && decide (port < 104) && linkState s port != 0 && plcaOn s port && !bitAt s (portPage port) 0x12C 0 &&
  !bitAt s (portPage port) 0x114 8
/-- R262: 0 RUN, 1 PAUSED, 2 DOWN. A field or management port is down while the die-to-die link is down (R14). -/
def portQ (s : State) (port : Nat) : Nat :=
  if 64 ≤ port ∧ port ≤ 105 ∧ s.d2d.st = .down then 2
  else if linkState s port = 2 then 0 else if linkState s port = 3 then 1 else 2

/-- R273: the class is custody-marked on its port. -/
def marked (s : State) (q : Nat) : Bool := q < 848 && (cqOf s q).en
/-- R299, R283: the custody store is ready and enabled. -/
def cstReady (s : State) : Bool := bitAt s cstPage 0x104 0 && bitAt s cstPage 0x100 0
/-- R275: a queue is in spill mode. -/
def inSpill (s : State) (q : Nat) : Bool := (queueOf s q).spill || (marked s q && (cqOf s q).st != 0)

/-- Granules a queue holds in SRAM: its SRAM part, its refill and its staged frames, and the frame that it is sending
(R213, R222). [DEDUCED, log 121] -/
def qGran (s : State) (q : Nat) : Nat :=
  (((queueOf s q).frames.filter (fun f => f.place != .dram)).map (fun f => granulesOf f.frame)).sum +
  (match (eportOf s (qPort q)).tx with | some t => if t.queue = q ∧ t.qf.again.isNone then granulesOf t.qf.frame else 0 | none => 0)
/-- Staged granules of a slice (R216). -/
def stagedGran (s : State) (slice : Nat) : Nat :=
  ((s.queues.filter (fun e => sliceOf (qPort e.1) == slice)).map (fun e =>
    ((e.2.frames.filter (fun f => f.place == .staged)).map (fun f => granulesOf f.frame)).sum)).sum
/-- Pages that a queue's frames in DRAM, its records and its open page touch. -/
def queuePages (s : State) (q : Nat) : List Nat :=
  let x := queueOf s q
  let c := cqOf s q
  ((x.frames.flatMap (fun f => f.pages)) ++ (x.tail.toList.map (·.1)) ++ (c.records.flatMap (fun r => r.pages)) ++
    (c.tail.toList.map (·.1))).eraseDups
/-- R282: custody pages of all classes of a port, by their tags (R276, R293). -/
def portPages (s : State) (port : Nat) : Nat :=
  (s.page.bufs.filter (fun e => e.2.st == .held && e.2.owner == 4 && e.2.tag.any (fun t => t % 1024 / 8 == port))).length
/-- Records of a custody queue (R301). -/
def cqRecords (s : State) (q : Nat) : Nat :=
  (cqOf s q).records.length + (if marked s q then ((queueOf s q).frames.filter (fun f => f.place == .dram)).length else 0)

/-- The admission entry of a queue (R228). -/
def admEntry (s : State) (q : Nat) : Entry := tget s bpmPage 0 0 q
def spillEn (s : State) (q : Nat) : Bool := ebit (admEntry s q) 4
def qResv (s : State) (q : Nat) : Nat := efld (admEntry s q) 19 8
/-- T = ⌊F × 2^(a − 6)⌋, at most 1,048,575 (R213). -/
def threshold (s : State) (q : Nat) : Int :=
  let a := min (efld (admEntry s q) 3 0) 9
  min (freeShared s .granules * (2 ^ a : Nat) / (64 : Nat)) 1048575

/-- Requesters of a queue's slice in the two pools (R205). -/
def tmsReq (q : Nat) : Nat := 8 + sliceOf (qPort q)
def spillReq (q : Nat) : Nat := sliceOf (qPort q)

/-- The queue set of class c on port n (R473): counter `k` of it. -/
def qCount (s : State) (q k n : Nat) : State := addCounter s (tmsPage (qPort q)) 0 (qTc q) k n
/-- A frame of the queue refused or discarded (R473). -/
def qDrop (s : State) (q : Nat) (f : Frame) : State :=
  qCount (qCount { s with lostTx := s.lostTx ++ f.tsTag.toList } q 4 1) q 5 (frameLen f)

/-! ### The resequencer -/

/-- next_seq moves past every number already reported (R237). -/
def advance : Nat → Queue → Queue
  | 0, x => x
  | fuel + 1, x =>
    if x.reported.contains x.nextSeq then
      advance fuel { x with reported := x.reported.erase x.nextSeq, nextSeq := x.nextSeq + 1 }
    else x
/-- R235: a frame of the queue has ended. A number that R239 skipped is awaited no more. -/
def reportSeq (x : Queue) (n : Word) : Queue :=
  if x.skipped.contains n then { x with skipped := x.skipped.erase n }
  else
    let x := { x with reported := x.reported ++ [n] }
    advance x.reported.length x
def report (s : State) (q : Nat) (n : Word) : State := setQueue s q (reportSeq (queueOf s q) n)

/-! ### Buffers of queued frames -/

/-- The copy gives up its granules: a shared one drops its reference, another is released (R212, R260). [DEDUCED, log 57] -/
def dropBuf (s : State) (q : Nat) (f : QFrame) : State :=
  match f.buf with
  | none => s
  | some b => if f.shared then opDrop s .granules b (tmsReq q) else opRelease s .granules b (tmsReq q)

/-- Pages given up by a record that goes: those that nothing left touches (R219). -/
def freePages (s : State) (req : Nat) (mine : List Nat) (kept : List Nat) : State :=
  forEach s (mine.eraseDups.filter (fun p => !kept.contains p)) (fun s p => opRelease s .pages p req)

/-- The page requester of a queue's records: CST for a custody-marked queue, its slice otherwise (R275). -/
def pageReq (s : State) (q : Nat) : Nat := if marked s q then 4 else spillReq q

/-- The anchors of a queue whose pages it has given up go; the count of its pages starts anew with its next first page (R278). [DESIGN CHOICE, log 145] -/
def pruneAnchors (s : State) (q : Nat) : State :=
  let c := cqOf s q
  if c.anchors.isEmpty then s
  else
    let held := queuePages s q
    let pageOf (n : Nat) : Nat := ((mapGet (fun _ => none) s.cust.anchors n).map (fun a => a.page)).getD 0
    let gone := c.anchors.filter (fun n => !held.contains (pageOf n))
    let s := { s with cust := { s.cust with anchors := gone.foldl (fun m n => mapSet (fun _ => none) m n none) s.cust.anchors } }
    setCq s q { c with anchors := c.anchors.filter (fun n => held.contains (pageOf n)), appended := if held.isEmpty then 0 else c.appended }
/-- After a record has gone, its pages are given up, with the open page when nothing is left in DRAM. -/
def releaseRecord (s : State) (q : Nat) (mine : List Nat) : State :=
  let x := queueOf s q
  let c := cqOf s q
  let left := (x.frames.flatMap (fun f => f.pages)) ++ (c.records.flatMap (fun r => r.pages))
  let tails := (x.tail.toList.map (·.1)) ++ (c.tail.toList.map (·.1))
  let req := pageReq s q
  if left.isEmpty then
    pruneAnchors (freePages (setCq (setQueue s q { x with tail := none }) q { c with tail := none }) req (mine ++ tails) []) q
  else pruneAnchors (freePages s req mine (left ++ tails)) q

/-! ### Replication accounts (R260, R261) -/

/-- R472: a frame that passed the MAC and MSEC and was admitted nowhere. -/
def rxDrop (s : State) (port : Nat) : State :=
  if port ≤ 105 then addCounter s (cntPage (pipeOfPort port)) 1 (if port < 64 then port % 16 else port - 64) 5 1 else s

/-- The port whose rx_drops counts a frame that is admitted nowhere: none where it failed at the MAC, which counted it
under rx_errors (R472). [DEDUCED, log 120] -/
def dropPort (f : Frame) : Nat := if f.complete ∧ f.bad then 106 else f.ingress

/-- One copy of a multicast job has been dealt with; the last one closes the account and the owner's hold. [DEDUCED, log 124] -/
def jobDone (s : State) (job : Option Nat) (admitted : Bool) : State :=
  match job with
  | none => s
  | some id =>
    match s.jobs.find? (fun j => j.id == id) with
    | none => s
    | some j =>
      let j := { j with left := j.left - 1, admitted := j.admitted + b2n admitted, refused := j.refused + b2n (!admitted) }
      let others := s.jobs.filter (fun k => k.id != id)
      if 0 < j.left then { s with jobs := j :: others }
      else
        let s := opRelease { s with jobs := others } .granules j.buf (bufOf s .granules j.buf).owner
        if 0 < j.admitted ∧ 0 < j.refused then raise (inc (countReason s 5 0x8A) repPage 0x100) repPage 2 0x8A
        else if j.admitted = 0 ∧ 0 < j.refused then rxDrop (inc (countReason s 5 0x8B) repPage 0x104) j.ingress
        else s

/-- An admitted frame ends before its transmission (R235): its buffer and pages go, its number is reported. -/
def discard (s : State) (q : Nat) (f : QFrame) (region reason : Nat) : State :=
  let s := setFrames s q ((queueOf s q).frames.filter (fun g => g.seq != f.seq))
  let s := dropBuf s q f
  let s := releaseRecord s q f.pages
  let s := if reason = 0 then s else countReason (qDrop s q f.frame) region reason
  jobDone (report s q f.seq) f.job false

/-! ### Records in DRAM -/

/-- Room left in the open page. -/
def room (tail : Option (Nat × Nat)) : Nat := match tail with | none => 0 | some (_, o) => 4096 - o

/-- Grant `n` pages one after another; on a failure those granted so far go back (R206). [DEDUCED, log 66] -/
def grantPages (s : State) (req region : Nat) (as : Option Nat := none) : Nat → List Nat → Option (List Nat) × State
  | 0, acc => (some acc.reverse, s)
  | n + 1, acc =>
    match grant s .pages req 1 region as with
    | (none, s) => (none, forEach s acc (fun s p => opRelease s .pages p req))
    | (some p, s) => grantPages s req region as n (p :: acc)

/-- The 16-byte header of a record (R217, R276). -/
def recHeader (f : Frame) (ts : Nat) (seq : Word) (untimed : Bool) : Nat :=
  ts % 2 ^ 64 + seq.toNat * 2 ^ 64 + frameLen f % 2 ^ 14 * 2 ^ 96 + b2n f.trunc * 2 ^ 110 + b2n f.custody * 2 ^ 111 + f.tc % 8 * 2 ^ 112 +
  f.colour % 4 * 2 ^ 115 + f.ingress % 256 * 2 ^ 117 + b2n untimed * 2 ^ 125
/-- A record as it stands in DRAM: header, frame with its FCS, padding (R201, R217). -/
def recImage (f : Frame) (ts : Nat) (seq : Word) (untimed : Bool) : List Byte :=
  let l := leBytes 16 (recHeader f ts seq untimed) ++ f.bytes ++ (if f.trunc then [] else fcsOf f.bytes)
  l ++ List.replicate (recSize f - l.length) 0
/-- The offset in its first page of a record that is appended behind `tail`. -/
def recOff (tail : Option (Nat × Nat)) : Nat := (tail.map (fun t => t.2)).getD 0 % 4096
/-- A DRAM word lies among the first `len` bytes of a record. -/
def inRecord (pages : List Nat) (off len : Nat) (w : Nat × Nat) : Bool :=
  (numbered 0 pages).any (fun e => e.2 == w.1 && decide (off < e.1 * 4096 + 8 * w.2 + 8) && decide (e.1 * 4096 + 8 * w.2 < off + len))
/-- The words of those bytes that do not read correctly. -/
def badWords (s : State) (pages : List Nat) (off len : Nat) : List (Nat × Nat) := s.dramBad.filter (inRecord pages off len)

/-- Append a record of `size` bytes behind `tail` (R217): the pages it touches and the new open page. The pages of a chain name one
another, and the words written read correctly again. -/
def appendRecord (s : State) (req region : Nat) (tail : Option (Nat × Nat)) (size : Nat) (as : Option Nat := none) :
    Option (List Nat × Option (Nat × Nat)) × State :=
  let r := room tail
  let wrote (s : State) (pages : List Nat) : State := mendWords s (inRecord pages (recOff tail) size)
  if size ≤ r then
    let pages := tail.toList.map (·.1)
    (some (pages, tail.map (fun t => (t.1, t.2 + size))), wrote s pages)
  else
    let need := size - r
    match grantPages s req region as (ceilDiv need 4096) [] with
    | (none, s) => (none, s)
    | (some new, s) =>
      let last := new.getLastD 0
      let s := linkPages s (tail.toList.map (·.1) ++ new)
      let pages := (if r = 0 then [] else tail.toList.map (·.1)) ++ new
      (some (pages, some (last, need - 4096 * (ceilDiv need 4096 - 1))), wrote s pages)

/-! ### Page tags and anchors (R276 to R278) -/

def anchorOf (s : State) (n : Nat) : Option Anchor := mapGet (fun _ => none) s.cust.anchors n
def setAnchor (s : State) (n : Nat) (a : Option Anchor) : State :=
  { s with cust := { s.cust with anchors := mapSet (fun _ => none) s.cust.anchors n a } }
/-- Where word `j` of an anchor slot lies (R277). [DESIGN CHOICE, log 65] -/
def anchorWord (s : State) (n j : Nat) : Nat × Nat := custWord s (n % 16) (2 * rowsOf s (n % 16) + 32 * (n / 16) + 8 * j)
/-- The anchor of a slot changes, and the slot is rewritten. -/
def writeAnchor (s : State) (n : Nat) (a : Anchor) : State :=
  mendWords (setAnchor s n (some a)) (fun d => (List.range 4).any (fun j => d == anchorWord s n j))
/-- CUSTODY anchors a page of a queue, in the lowest slot free, behind the queue's other anchors. [DESIGN CHOICE, log 145] -/
def addAnchor (s : State) (q page : Nat) : State :=
  let used := s.cust.anchors.map (·.1)
  let n := leastFree (used.length + 1) 0 used
  let c := cqOf s q
  let s := match c.anchors.getLast? with
    | none => s
    | some l => match anchorOf s l with
      | none => s
      | some a => writeAnchor s l { a with next := n }
  let s := writeAnchor s n { page := page, queue := q, gen := (bufOf s .pages page).gen }
  setCq s q { c with anchors := c.anchors ++ [n] }
/-- A page appended to a custody queue: CST writes its tag; the first and then every 1,024th is anchored. -/
def tagPage (q : Nat) (s : State) (p : Nat) : State :=
  let b := bufOf s .pages p
  if b.owner = 4 ∧ b.tag = none then
    let s := mendWords (setBuf s .pages p { b with tag := some (q + (b.gen % 32) * 1024 + 2 ^ 15) }) (fun d => d == tagWord s p)
    let s := if (cqOf s q).appended % 1024 = 0 then addAnchor s q p else s
    setCq s q { cqOf s q with appended := (cqOf s q).appended + 1 }
  else s
/-- The first record that begins in an anchored page gives the anchor its stamp. [DESIGN CHOICE, log 145] -/
def stampAnchor (s : State) (q page ts : Nat) : State :=
  match (cqOf s q).anchors.find? (fun n => (anchorOf s n).any (fun a => a.page == page && !a.begun)) with
  | none => s
  | some n => match anchorOf s n with
    | none => s
    | some a => writeAnchor s n { a with stamp := ts % 2 ^ 64, begun := true }
/-- The pages of a record just written to a custody queue. -/
def tagPages (s : State) (q : Nat) (pages : List Nat) (ts : Nat) : State :=
  stampAnchor (forEach s pages (tagPage q)) q (pages.headD 0) ts

/-! ### Custody refusals (R282, R283) -/

/-- A frame refused or lost by the custody store: counters, sources and reason (R299, R303, R304). -/
def custodyCount (s : State) (q reason : Nat) : State :=
  let s := countReason s 6 reason
  if reason = 0xA1 then raise (inc s cstPage 0x118) cstPage 0 reason q
  else if reason = 0xA2 then raise (inc s cstPage 0x11C) cstPage 1 reason q
  else if reason = 0xA0 ∨ reason = 0xA3 ∨ reason = 0xA4 then raise (inc s cstPage 0x120) cstPage 2 reason q
  else if reason = 0xA6 ∨ reason = 0xA7 ∨ reason = 0xA8 then raise (inc s cstPage 0x124) cstPage 3 reason q
  else s

/-- Discard the head record of a custody queue; while it is in OVERFLOW its records are the queue's frames in DRAM. -/
def dropHead (s : State) (q reason : Nat) : State :=
  let c := cqOf s q
  match c.records with
  | [] => match (queueOf s q).frames.find? (fun f => f.place == .dram) with
    | none => s
    | some f => custodyCount (qDrop (discard s q f 6 0) q f.frame) q reason
  | r :: rs =>
    let s := setCq s q { c with records := rs }
    let s := releaseRecord s q r.pages
    custodyCount (qDrop s q r.frame) q reason

/-- R282, evict oldest: head records go until a page of the queue is released. -/
def evictHead : Nat → State → Nat → Nat → State
  | 0, s, _, _ => s
  | fuel + 1, s, q, had =>
    if cqRecords s q = 0 then s
    else
      let s := dropHead s q 0xA2
      if (queuePages s q).length < had then s else evictHead fuel s q had

/-- R282, evict oldest: every page that a record needs while the port holds its quota costs its queue a page. `opened`
counts the pages found so far; the answer is 0 or the reason of the refusal. [DEDUCED, log 126] -/
def evictFor (quota q : Nat) : Nat → Nat → State → Nat × State
  | 0, _, s => (0, s)
  | need + 1, opened, s =>
    if portPages s (qPort q) + opened < quota then evictFor quota q need (opened + 1) s
    else
      let had := (queuePages s q).length
      let s := evictHead (cqRecords s q) s q had
      if (queuePages s q).length < had then evictFor quota q need (opened + 1) s else (0xA3, s)

/-- R282: the verdict of the port quota on a record of `size` bytes; 0 allows it. [DEDUCED, log 126] -/
def quotaVerdict (s : State) (q size : Nat) (tail : Option (Nat × Nat)) : Nat × State :=
  let quota := efld (tget s cstPage 1 0 (qPort q)) 29 0
  let need := ceilDiv (size - room tail) 4096
  if quota = 0 ∨ size ≤ room tail ∨ portPages s (qPort q) + need ≤ quota then (0, s)
  else if efld (tget s cstPage 0 0 q) 1 1 = 1 then (0xA3, s)
  else evictFor quota q need 0 s

/-- A frame as a record: its arrival on TB0, by the parameters in force then, and the untimed bit (R276, R357). -/
def recordTime (s : State) (f : Frame) : Nat × Bool :=
  (((tbPast (tbOf s 0) (restore s f.ts)).1 / (2 ^ 32 : Nat)).toNat % 2 ^ 64, !tbValid s 0)

/-- Why a frame makes no record: it failed at its end, was not verified, or was cut short (R81, R82, R99), with the
region that counts it. [DEDUCED, log 122] -/
def recordBar (port : Nat) (f : Frame) : Option (Nat × Nat) :=
  let region := if port < 64 then port / 16 else 4
  if f.complete ∧ f.bad then some (5, 0)
  else if f.isMirror then none
  else if f.unverified then some (region, if port < 64 then 0x0D else 0x12)
  else if f.trunc then some (region, if port < 64 then 0x03 else 0x12)
  else none
/-- Write a frame as the last record of a custody queue (R279). `exempt`: written ahead at port down, at a hold, at
R287 or at the end of a session, so the port quota does not apply (R282). -/
def writeCustody (s : State) (q : Nat) (f : Frame) (exempt : Bool) (old : Option (Nat × Bool)) (seq : Word := 0) : Bool × State :=
  match recordBar (qPort q) f with
  | some (region, reason) => (false, if reason = 0 then qDrop s q f else countReason (qDrop s q f) region reason)
  | none =>
  if !cstReady s then (false, custodyCount (qDrop s q f) q 0xA0)
  else
    let v := if exempt then (0, s) else quotaVerdict s q (recSize f) (cqOf s q).tail
    let s := v.2
    if v.1 ≠ 0 then (false, custodyCount (qDrop s q f) q v.1)
    else
      match appendRecord s 4 6 (cqOf s q).tail (recSize f) with
      | (none, s) => (false, custodyCount (qDrop s q f) q 0xA4)
      | (some (pages, tail), s) =>
        let t := old.getD (recordTime s f)
        let off := recOff (cqOf s q).tail
        let s := tagPages s q pages t.1
        let c := cqOf s q
        (true, setCq s q { c with records := c.records ++ [{ frame := f, cts := t.1, untimed := t.2, pages := pages, off := off
                                                             image := recImage f t.1 seq t.2 }], tail := tail })

/-- Write one frame of a queue to its custody queue as the last record so far. It is reported (R235), its granules go, and the job it
belongs to hears whether the store took it (R261, R283). -/
def handOne (exempt : Bool) (q : Nat) (s : State) (f : QFrame) : State :=
  let r := writeCustody (report s q f.seq) q f.frame exempt (if f.replayed || f.place == .staged then some (f.cts, f.untimed) else none) f.seq
  let s := jobDone (dropBuf r.2 q f) f.job r.1
  if r.1 then qCount s q 7 1 else s
/-- A frame that is already a record in DRAM becomes one of the custody queue's. -/
def asRecord (f : QFrame) : Record :=
  { frame := f.frame, cts := f.cts, untimed := f.untimed, pages := f.pages, off := f.off, image := f.image }
/-- Records written ahead of those a custody queue holds: a new chain, whose last page links to the old head (R279). The anchors of
the new chain come first. [DESIGN CHOICE, log 145] -/
def writeAhead (s : State) (q : Nat) (write : State → State) (old : List Record) (oldTail : Option (Nat × Nat)) : State :=
  let c := cqOf s q
  let s := write (setCq s q { c with records := [], tail := none, anchors := [], appended := 0 })
  let n := cqOf s q
  if old.isEmpty then s
  else
    let s := match n.tail, old.head? with
      | some t, some r => linkPage s t.1 (r.pages.headD 0)
      | _, _ => s
    let s := match n.anchors.getLast?, c.anchors.head? with
      | some l, some h => match anchorOf s l with
        | some a => writeAnchor s l { a with next := h }
        | none => s
      | _, _ => s
    setCq s q { cqOf s q with records := n.records ++ old, tail := oldTail, anchors := n.anchors ++ c.anchors, appended := c.appended }

/-- Hand the frames of a queue to its custody queue, in md.seq order (R262, R279, R285): those in SRAM ahead of the records that
stand in DRAM; frames that were staged after those records follow them, and so do diverted arrivals, which alone meet the port's
quota (R282). -/
def handOver (s : State) (q : Nat) : State :=
  let x := queueOf s q
  let c := cqOf s q
  let isBehind (f : QFrame) : Bool := decide (2 ≤ c.st) && f.place == .staged
  let mine := x.frames.filter (fun f => !isBehind f)
  let old := (mine.filter (fun f => f.place == .dram)).map asRecord
  let ahead := if old.isEmpty then mine else mine.takeWhile (fun f => f.place != .dram)
  let after := (mine.drop ahead.length).filter (fun f => f.place != .dram)
  let s := setFrames s q []
  let s := setQueue s q { queueOf s q with tail := none, spill := false }
  let s := writeAhead s q (fun s => forEach s ahead (handOne true q)) (old ++ c.records) (if old.isEmpty then c.tail else x.tail)
  let s := forEach s (mine.filter (fun f => f.place == .dram)) (fun s f => report s q f.seq)
  forEach (forEach s after (handOne true q)) (x.frames.filter isBehind) (handOne false q)

/-! ### Admission -/

/-- A copy that is not admitted: its hold on the buffer goes; the ingress owner releases it, a multicast copy drops
its reference (R210, R261). -/
def refuse (s : State) (c : Copy) : State :=
  let s := qDrop s (qIdx c.port c.frame.tc) c.frame
  let s := if c.job.isSome then opDrop s .granules c.buf 12
    else opRelease s .granules c.buf (bufOf s .granules c.buf).owner
  if c.job.isNone ∧ !c.replay ∧ !c.frame.isMirror then rxDrop s (dropPort c.frame) else jobDone s c.job false

/-- An admission to SRAM or to spill is counted in the queue set (R473). [DEDUCED, log 123] -/
def countEnq (s : State) (q : Nat) (f : Frame) : State := qCount (qCount s q 0 1) q 1 (frameLen f)
/-- The copy takes its place in the queue with the next md.seq (R235). A frame diverted to custody is counted when it is
read back into SRAM (R284, R473). [DEDUCED, log 123] -/
def enqueue (s : State) (c : Copy) (place : Place) (cts : Nat × Bool) (diverted : Bool := false) : State :=
  let q := qIdx c.port c.frame.tc
  let x := queueOf s q
  let f : QFrame := { frame := { c.frame with custody := marked s q && !c.frame.isMirror, spilled := place == .staged }, seq := x.seqCtr, place := place
                      buf := some c.buf, shared := c.job.isSome, replayed := c.replay, cts := cts.1, untimed := cts.2, stagedAt := s.nextId
                      job := if diverted then c.job else none }
  let s := setFrames { s with nextId := s.nextId + 1 } q (x.frames ++ [f])
  let s := setQueue s q { queueOf s q with seqCtr := x.seqCtr + 1 }
  let s := if diverted then s else countEnq s q c.frame
  let s := if place = .staged ∧ !diverted then qCount s q 6 1 else s
  if diverted then s else jobDone s c.job true

/-- The slice takes the buffer over (R213); a multicast copy shares REP's buffer instead (R260). -/
def takeOver (s : State) (c : Copy) : Nat :=
  if c.job.isSome then 0
  else handoverVerdict s .granules (bufOf s .granules c.buf).owner (tmsReq (qIdx c.port c.frame.tc)) (bufOf s .granules c.buf).size
def doTakeOver (s : State) (c : Copy) : State :=
  if c.job.isSome then s else moveOwner s .granules c.buf (tmsReq (qIdx c.port c.frame.tc))

/-- R216: why a frame that would be staged is dropped; 0 lets it pass. A multicast copy of a custody class is not
refused for want of staging: it goes to the custody store all the same (R261), which `multi` says. -/
def stageVerdict (s : State) (q : Nat) (f : Frame) (multi : Bool) : Nat :=
  let limit := efld (admEntry s q) 47 20
  let opens := ceilDiv (recSize f - room (queueOf s q).tail) 4096
  if !multi ∧ fld s bpmPage 0x110 19 0 < stagedGran s (sliceOf (qPort q)) + granulesOf f then 0x68
  else if marked s q = false ∧ limit ≠ 0 ∧ limit < (queuePages s q).length + opens then 0x69
  else 0

/-- A drop under 0x68 or 0x69 (R227, R231). -/
def spillDrop (s : State) (c : Copy) (reason : Nat) : State :=
  refuse (raise (inc (countReason s 5 reason) bpmPage 0x130) bpmPage 7 reason) c

/-- Stage the frame for DRAM (R215, R216, R275). [DEDUCED, log 68] -/
def stage (s : State) (c : Copy) : State :=
  let q := qIdx c.port c.frame.tc
  let v := stageVerdict s q c.frame false
  if v ≠ 0 then spillDrop s c v
  else
    let h := takeOver s c
    if h ≠ 0 then refuse (grantFailed s .granules h 5) c
    else
      let s := enqueue (doTakeOver s c) c .staged (recordTime s c.frame)
      setQueue s q { queueOf s q with spill := !marked s q || (queueOf s q).spill }

/-- R279: divert an arrival behind the custody queue. While CST is not ready it is discarded with 0xA0 (R283). -/
def divert (s : State) (c : Copy) (toState : Nat) : State :=
  let q := qIdx c.port c.frame.tc
  if !cstReady s then
    let x := queueOf s q
    let s := setQueue s q (reportSeq { x with seqCtr := x.seqCtr + 1 } x.seqCtr)
    refuse (custodyCount s q 0xA0) c
  else
    let v := stageVerdict s q c.frame c.job.isSome
    if v ≠ 0 then spillDrop s c v
    else
      let h := takeOver s c
      if h ≠ 0 then refuse (grantFailed s .granules h 5) c
      else
        let s := enqueue (doTakeOver s c) c .staged (recordTime s c.frame) true
        setCq s q { cqOf s q with st := toState }

/-- The queues of a slice that push-out may take from for a class-`tc` arrival (R222). -/
def victims (s : State) (slice tc : Nat) : List (Nat × Queue) :=
  s.queues.filter (fun e => sliceOf (qPort e.1) == slice && decide (qTc e.1 < tc) && !marked s e.1 && !e.2.spill &&
    !e.2.frames.isEmpty)
/-- R222: lowest class, then most granules, then lowest index. -/
def better (s : State) (a b : Nat × Queue) : Bool :=
  qTc a.1 < qTc b.1 || (qTc a.1 == qTc b.1 && (qGran s b.1 < qGran s a.1 || (qGran s a.1 == qGran s b.1 && a.1 < b.1)))
def bestVictim (s : State) : List (Nat × Queue) → Option (Nat × Queue)
  | [] => none
  | a :: l => match bestVictim s l with
    | none => some a
    | some b => if better s a b then some a else some b
/-- The victim goes on until it has no frame left to evict; then the next is chosen. -/
def nextVictim (s : State) (c : Copy) (now' : Option Nat) : Option (Nat × QFrame) :=
  let tail (q : Nat) : Option (Nat × QFrame) := (queueOf s q).frames.getLast?.map (fun f => (q, f))
  match now'.bind tail with
  | some v => some v
  | none => (bestVictim s (victims s (sliceOf c.port) c.frame.tc)).bind (fun e => tail e.1)
/-- Evict tail frames, those of queue `now'` first, until the arrival fits or no victim remains. -/
def pushOut : Nat → Option Nat → State → Copy → Nat × State
  | 0, _, s, c => (takeOver s c, s)
  | fuel + 1, now', s, c =>
    let v := takeOver s c
    if v ≠ 0x60 then (v, s)
    else match nextVictim s c now' with
      | none => (v, s)
      | some (q, f) => pushOut fuel (some q) (inc (discard s q f 5 0x6A) bpmPage 0x12C) c

/-- Admit to SRAM through the HANDOVER (R213, R222). -/
def admitSram (s : State) (c : Copy) : State :=
  let r := if pushout s then pushOut ((s.queues.map (fun e => e.2.frames.length)).sum) none s c else (takeOver s c, s)
  if r.1 ≠ 0 then refuse (grantFailed r.2 .granules r.1 5) c
  else enqueue (doTakeOver r.2 c) c .sram (0, false)

/-- The block that edits the copies for a port: EPL, or FPL for field and management ports (R161). -/
def editPage (port : Nat) : Nat := if port < 64 then eplPage (port / 16) else 4 * 4096 + 0x60
/-- R261: the slice, the port's cell pages or the egress block cannot take the copy. -/
def egressBlocked (s : State) (port : Nat) : Bool :=
  !serving s (tmsPage port) || !serving s (schPage port) ||
  (port ≤ 105 && (isolated s (portPage port) || inReset s (portPage port) || !serving s (editPage port)))

/-- QUEUE_ADMISSION of one copy: the port's state, the custody queue's state, spill mode, push-out and the dynamic
threshold, in that order (R214, R215, R222, R223, R262, R279). A copy that REP could not take over comes here for the
custody store alone (R261). [DEDUCED, log 44; DEDUCED, log 124] -/
def admitCopy (s : State) (c : Copy) : State :=
  let q := qIdx c.port c.frame.tc
  let cust := marked s q
  let st := (cqOf s q).st
  if egressBlocked s c.port then refuse (countReason s 5 0xE1) c
  else if portQ s c.port = 2 ∧ !cust ∧ !csmaNow s c.port then refuse (inc (countReason s 5 0x80) (tmsPage c.port) 0x10C) c
  else if portQ s c.port = 2 ∧ cust then divert s c 2
  else if cust ∧ st ≠ 0 then divert s c st
  else if cust ∧ c.job.isSome ∧ (bufOf s .granules c.buf).owner ≠ 12 then divert s c 1
  else if !cust ∧ (queueOf s q).spill then stage s c
  else if draining s (tmsPage c.port) then refuse (countReason s 5 0xE1) c
  else
    let wouldSpill := (spillEn s q || cust) && ppmReady s
    if pushout s then
      if wouldSpill && decide (freeShared s .granules < (fld s bpmPage 0x10C 19 0 : Nat)) then
        (if cust then (if cstReady s then divert s c 1 else admitSram s c) else stage s c)
      else admitSram s c
    else if ((qGran s q + granulesOf c.frame : Nat) : Int) ≤ max (threshold s q) (qResv s q : Nat) then admitSram s c
    else if wouldSpill && (!cust || cstReady s) then (if cust then divert s c 1 else stage s c)
    else if cust && c.job.isSome then refuse (custodyCount s q 0xA0) c
    else refuse (inc (countReason s 5 0x67) bpmPage 0x128) c

/-! ### Port down and return (R262) -/

/-- A custody-class queue at port down (R279): its frames become records, its state HELD. Where it holds nothing and
no record, it is HELD all the same, since arrivals are diverted while the port is down. -/
def custodyDown (s : State) (q : Nat) : State :=
  let s := handOver s q
  setCq s q { cqOf s q with st := 2 }

/-- R262: every non-custody frame of a port is discarded with 0x81. -/
def flushQueue (s : State) (q : Nat) : State :=
  let x := queueOf s q
  let s := forEach s x.frames (fun s f => inc (discard s q f 5 0x81) (tmsPage (qPort q)) 0x108)
  setQueue s q { queueOf s q with spill := false }

/-- The port goes down to its queues: flush, hand to custody, TMS source 1. -/
def portDown (s : State) (port : Nat) : State :=
  let s := forEach s (List.range 8) (fun s c =>
    if marked s (qIdx port c) then custodyDown s (qIdx port c) else flushQueue s (qIdx port c))
  raise s (tmsPage port) 1 0x81

/-- Queues pause at HOLD: no new frame starts, admission goes on; TMS source 0. -/
def portPause (s : State) (port : Nat) : State := raise s (tmsPage port) 0

/-- The port returns: custody queues with a backlog settle, the others go on as EMPTY (R262, R279). -/
def portReturn (s : State) (port : Nat) : State :=
  forEach s (List.range 8) (fun s c =>
    let q := qIdx port c
    let x := cqOf s q
    if x.lifted then s
    else if marked s q ∧ x.st = 2 ∧ cstReady s then setCq s q { x with st := 3 }
    else if marked s q ∧ x.st = 2 ∧ x.records.isEmpty then setCq s q { x with st := 0 }
    else s)

/-- The frame in transmission at a gate-list swap ends: the old bank retires no longer (R253). -/
def gatFree (s : State) (port : Nat) : State :=
  let d : Nat → Bank := fun _ => {}
  { s with gates := mapSet d s.gates port { mapGet d s.gates port with retiring := false } }
def collOf (s : State) (port : Nat) : Coll := mapGet (fun _ => ({} : Coll)) s.colls port
def setColl (s : State) (port : Nat) (c : Coll) : State := { s with colls := mapSet (fun _ => ({} : Coll)) s.colls port c }
/-- The mirror copy of a transmission that MIR holds for session `n` is discarded (R479); 0 holds none. [DEDUCED, log 73] -/
def mirrorAbort (s : State) (n : Nat) : State := if n = 0 then s else raise (addCounter s mirPage 2 n 2 1) mirPage 1
/-- R263: the link stops being good during a transmission. -/
def abortTx (s : State) (port : Nat) : State :=
  let e := eportOf s port
  match e.tx with
  | none => s
  | some t =>
    let s := mirrorAbort (gatFree (setColl (setEport s port { e with tx := none }) port {}) port) t.mirror
    let held := t.held || t.hdr.any (·.rel)
    let s := if held ∧ t.qf.again.isNone then releaseRecord (if t.qf.shared then s else dropBuf s t.queue t.qf) t.queue t.qf.pages else s
    let s := if port ≤ 105 then addCounter s (cntPage (pipeOfPort port)) 1 (if port < 64 then port % 16 else port - 64) 14 1 else s
    if held then s
    else if marked s t.queue then
      let s := setFrames s t.queue (t.qf :: (queueOf s t.queue).frames)
      let x := queueOf s t.queue
      let later := (List.range ((x.nextSeq - t.qf.seq).toNat - 1)).map (fun i => t.qf.seq + 1 + BitVec.ofNat 32 i)
      setQueue s t.queue { x with nextSeq := t.qf.seq, reported := later ++ x.reported }
    else
      let s := dropBuf s t.queue t.qf
      raise (inc (countReason (qDrop s t.queue t.qf.frame) 5 0x8E) (tmsPage port) 0x110) (tmsPage port) 2 0x8E

/-- R574: every frame a scope holds for a port is discarded with 0xE1. -/
def dropQueues (s : State) (port : Nat) : State :=
  forEach s (List.range 8) (fun s c =>
    let q := qIdx port c
    forEach s (queueOf s q).frames (fun s f => discard s q f 5 0xE1))

end Sys2Proof.Machine
end

