-- ==== Sys2Proof/Machine/RingOps.lean ====
section
/-! DEFINITION. The rings of the host path and their control blocks (R425 to R432), completions and their room (R440 to R444), the
halt (R445, R446) and moderation (R449). -/

namespace Sys2Proof.Machine

/-! ### Rings -/

def sqOf (s : State) (n : Nat) : SqRing := mapGet (fun _ => ({} : SqRing)) s.sqs n
def setSq (s : State) (n : Nat) (x : SqRing) : State := { s with sqs := mapSet (fun _ => ({} : SqRing)) s.sqs n x }
/-- Slots of a submission ring that are on chip (R431, R452). -/
def heldSlots (x : SqRing) : Nat := x.posted.length + (x.fetched.map (fun f => f.count)).sum
/-- Store a submission ring; SQ_STAT shows the slots it holds. -/
def setHeld (s : State) (n : Nat) (x : SqRing) : State := setFld (setSq s n x) (sqPage n) 0x118 8 2 (heldSlots x)
def cqRing (s : State) (n : Nat) : CqRing := mapGet (fun _ => ({} : CqRing)) s.cqs n
def heldRecords (x : CqRing) : Nat := (x.held.map (fun c => c.records)).sum
/-- Store a completion ring; CQ_STAT shows what it holds and has reserved. -/
def setCqRing (s : State) (n : Nat) (x : CqRing) : State :=
  setFld (setFld { s with cqs := mapSet (fun _ => ({} : CqRing)) s.cqs n x } (cqPage n) 0x11C 6 0 (heldRecords x)) (cqPage n) 0x11C 14 8 x.reserved
/-- The host path is halted (R445). -/
def halted (s : State) : Bool := bitAt s rngPage 0x104 0
/-- Rings are fetched and written. -/
def hostLive (s : State) : Bool := pcieLive s && !halted s && serving s rngPage
/-- A request to host memory, where PCIe takes one. -/
def toHost (s : State) (o : Output) : State := if pcieLive s then emit s o else s
def ringSize (log2 : Nat) : Nat := 2 ^ (if log2 < 6 ∨ 16 < log2 then 6 else log2)
def sqConsOf (s : State) (n : Nat) : Word := rd s (sqPage n) 0x11C
def cqProd (s : State) (n : Nat) : Word := rd s (cqPage n) 0x120
def cqCons (s : State) (n : Nat) : Word := rd s (cqPage n) 0x124

/-- The host path halts (R445, R446); `slots` are the offending entry's slots as fetched. -/
def halt (s : State) (cause ring : Nat) (completion : Bool) (idx : Nat) (slots : List (BitVec 128)) : State :=
  let s := countReason s 8 (if cause = 10 then 0xC9 else 0xC0)
  let s := if completion then s else setBit s (sqPage ring) 0x118 1 true
  let s := if bitAt s rngPage 0x104 0 then s
    else
      let n := min slots.length 16
      let s := wr s rngPage 0x104 (BitVec.ofNat 32 (1 + cause * 2 + n * 256 + ring * 2 ^ 16 + b2n completion * 2 ^ 24))
      let s := wr s rngPage 0x108 (BitVec.ofNat 32 idx)
      forEach s (numbered 0 (slots.take 16)) (fun s e =>
        forEach s (List.range 4) (fun s w => wr s rngPage (0x200 + 16 * e.1 + 4 * w) (BitVec.ofNat 32 (e.2.toNat / 2 ^ (32 * w)))))
  raise (if completion then s else toHost s (.hostWrite ((sqOf s ring).rcb + 0x44) (leBytes 4 1))) rngPage 0 (if cause = 10 then 0xC9 else 0xC0)

/-! ### Completions (R440 to R444, R449) -/

/-- Free records that the ring last saw in host memory. -/
def freeRecords (s : State) (n : Nat) : Nat := (cqRing s n).size - (cqProd s n - cqCons s n).toNat
/-- R440: a completion of `k` records has a place. [DEDUCED, log 95] -/
def roomFor (s : State) (n k : Nat) : Bool :=
  let x := cqRing s n
  decide (heldRecords x + x.reserved + k ≤ freeRecords s n + 64)
/-- The header of a completion (R442). -/
def complHeader (c : Compl) (phase : Bool) : Nat :=
  c.typ + b2n phase * 2 ^ 4 + b2n c.notify * 2 ^ 5 + c.records * 2 ^ 8 + c.status % 256 * 2 ^ 16 + c.sq % 256 * 2 ^ 32 +
  c.index % 2 ^ 32 * 2 ^ 64 + c.tag % 2 ^ 32 * 2 ^ 96
/-- One completion is written, record 0 last, then the completion index (R444). A service message is recorded by its
fields. -/
def writeCompl (s : State) (n : Nat) (c : Compl) : State :=
  let x := cqRing s n
  let prod := cqProd s n
  let at' (j : Nat) : Nat := x.base + 32 * ((prod.toNat + j) % x.size)
  let phase := prod.toNat / x.size % 2 == 0
  let all := fitBytes (32 * c.records) (leBytes 16 (complHeader c phase) ++ c.data)
  let s := if c.typ = 2 then emit s (.completion n "SVC" (complHeader c phase :: c.msg))
    else
      let s := forEach s (List.range (c.records - 1)) (fun s j => emit s (.hostWrite (at' (j + 1)) (slice all (32 * (j + 1)) 32)))
      emit s (.hostWrite (at' 0) (slice all 0 32))
  let prod' := prod + BitVec.ofNat 32 c.records
  let s := emit (wr s (cqPage n) 0x120 prod') (.hostWrite (x.rcb + 0x40) (leBytes 4 prod'.toNat))
  let k := x.count + 1
  setCqRing s n { x with count := k, since := x.since.orElse (fun _ => some (now s))
                         due := x.due || decide (max 1 (fld s (cqPage n) 0x118 15 0) ≤ k) }
/-- Held completions are written while there is room in host memory. -/
def drainCq (s : State) (n : Nat) : Nat → State
  | 0 => s
  | fuel + 1 =>
    let x := cqRing s n
    match x.held with
    | [] => s
    | c :: rest =>
      if hostLive s && c.records ≤ freeRecords s n then drainCq (writeCompl (setCqRing s n { x with held := rest }) n c) n fuel else s
/-- The entry's reservation becomes its completion (R440). -/
def postCompl (s : State) (n reserved : Nat) (c : Compl) : State :=
  let x := cqRing s n
  let x := { x with reserved := x.reserved - reserved }
  if !x.on then countReason (setCqRing s n x) 8 0xC3
  else if halted s ∧ c.typ ≠ 2 then setCqRing s n x
  else drainCq (setCqRing s n { x with held := x.held ++ [c] }) n (x.held.length + 1)
/-- An entry of a submission ring is over (R429). -/
def entryDone (s : State) (n : Nat) : State :=
  let x := sqOf s n
  let x := { x with inflight := x.inflight - 1 }
  let s := setSq s n x
  if !x.on ∧ x.inflight = 0 then setBit s (sqPage n) 0x118 0 false else s
/-- An entry completes on the ring its submission ring names. -/
def complete (s : State) (n : Nat) (c : Compl) : State :=
  entryDone (postCompl s (sqOf s n).cq c.records { c with sq := n }) n

/-- Submission rings that name completion ring `n`. -/
def feeders (s : State) (n : Nat) : List Nat := (s.sqs.filter (fun e => e.2.cq == n)).map (·.1)
/-- CQ_STAT.blocking and the bit in the RCB (R441). -/
def setBlocking (s : State) (n : Nat) (on : Bool) : State :=
  if bitAt s (cqPage n) 0x11C 16 = on then s
  else toHost (setBit s (cqPage n) 0x11C 16 on) (.hostWrite ((cqRing s n).rcb + 0x44) (leBytes 4 (b2n on)))
/-- Records that the completion of a fetched entry needs (R440): the largest response is reserved for a service message. [DEDUCED, log 95] -/
def recordsNeeded (typ : Nat) (f : Fetched) : Nat :=
  match typ with
  | 0 => if bitsOf (f.slots.headD 0).toNat 6 5 = 1 then 2 else 1
  | 2 => if f.msg.any (fun m => m.noResp) then 0 else 9
  | _ => 2
/-- The ring's next entry finds no room. -/
def lacksRoom (s : State) (n : Nat) : Bool :=
  ((sqOf s n).fetched.head?).any (fun f => !roomFor s (sqOf s n).cq (recordsNeeded (sqOf s n).typ f))
/-- blocking clears once every waiting entry can start (R441). -/
def unblock (s : State) (cq : Nat) : State :=
  if (feeders s cq).any (fun m => (sqOf s m).waiting || lacksRoom s m) then s else setBlocking s cq false
/-- An entry that needs more records than there is room for cannot start (R441). [DEDUCED, log 93] -/
def blockEntry (s : State) (n cq : Nat) : State :=
  let first := !bitAt s (cqPage cq) 0x11C 16
  let s := setSq s n { sqOf s n with waiting := true }
  let s := setBlocking s cq true
  if first then raise (countReason (setBit s (cqPage cq) 0x11C 17 true) 8 0xC7) rngPage 1 0xC7 cq else s
/-- The ring whose turn it is among those of a type, and the entries it has started in it (R432). -/
def ringTurn (s : State) (typ : Nat) : Nat × Nat := mapGet (fun _ => (0, 0)) s.turns typ
/-- SQ_CFG.weight: entries of one turn. -/
def ringWeight (s : State) (n : Nat) : Nat := max 1 (fld s (sqPage n) 0x104 27 24)
/-- The rings of a type that hold fetched entries, in the order of their turns. [DESIGN CHOICE, log 153] -/
def ringOrder (s : State) (typ : Nat) : List Nat :=
  let l := (s.sqs.filter (fun e => e.2.on && e.2.typ == typ && !e.2.fetched.isEmpty)).map (·.1)
  let t := ringTurn s typ
  let after := l.filter (fun n => decide (t.1 < n)) ++ l.filter (fun n => decide (n < t.1))
  if !l.contains t.1 then after else if t.2 < ringWeight s t.1 then t.1 :: after else after ++ [t.1]
/-- An entry starts: its ring's turn goes on, its records are reserved, and blocking clears where nothing waits (R432, R440, R441). [DEDUCED, log 95] -/
def startEntry (s : State) (n records : Nat) : State :=
  let x := sqOf s n
  let t := ringTurn s x.typ
  let turn := (n, if n = t.1 ∧ t.2 < ringWeight s n then t.2 + 1 else 1)
  let s := { s with turns := mapSet (fun _ => (0, 0)) s.turns x.typ turn }
  let s := inc (setHeld s n { x with fetched := x.fetched.drop 1, waiting := false, inflight := x.inflight + 1 }) (sqPage n) 0x124
  let s := if records = 0 then s else setCqRing s x.cq { cqRing s x.cq with reserved := (cqRing s x.cq).reserved + records }
  unblock s x.cq
/-- Whether an entry of ring `n` that needs `k` records may start: nothing starts on rings of its completion ring while an entry of
another waits for room (R440, R441). -/
def mayStart (s : State) (n k : Nat) : Bool :=
  let x := sqOf s n
  !(feeders s x.cq).any (fun m => m != n && (sqOf s m).waiting) && roomFor s x.cq k
/-- The reads of `k` slots from the next one on (R430, R447). -/
def askSlots (s : State) (n k : Nat) : State :=
  let x := sqOf s n
  let pos := (sqConsOf s n).toNat % x.size
  let first := min k (x.size - pos)
  let s := emit s (.hostRead (x.base + 16 * pos) (16 * first))
  if first < k then emit s (.hostRead x.base (16 * (k - first))) else s
/-- Slots have been read: cons passes them, in the RCB as well (R431). -/
def passSlots (s : State) (n k : Nat) (x : SqRing) : State :=
  let cons := sqConsOf s n + BitVec.ofNat 32 k
  emit (wr (setHeld s n x) (sqPage n) 0x11C cons) (.hostWrite (x.rcb + 0x40) (leBytes 4 cons.toNat))
/-- An entry is fetched. [DEDUCED, log 95] -/
def fetchEntry (s : State) (n : Nat) (f : Fetched) : State :=
  passSlots s n f.count { sqOf s n with fetched := (sqOf s n).fetched ++ [f] }
/-- At most 64 fetched slots of a ring are on chip (R431). -/
def slotsFit (s : State) (n k : Nat) : Bool := decide (heldSlots (sqOf s n) + k ≤ 64)

/-- CQ_DB, or the reread of cons every 10 µs: what the host has consumed (R427, R441). -/
def cqConsIn (s : State) (n : Nat) (r : HostRead Word) : State :=
  let x := cqRing s n
  if !hostLive s ∨ !x.on then s
  else match r with
  | .error => halt s 10 n true 0 []
  | .ok cons =>
    if x.size < (cqProd s n - cons).toNat then halt s 11 n true 0 []
    else drainCq (wr s (cqPage n) 0x124 cons) n x.held.length
/-- The moderation timer (R449). -/
def modTimer (s : State) (n : Nat) : State :=
  let x := cqRing s n
  match x.since with
  | none => s
  | some b => if b + usUnits (fld s (cqPage n) 0x118 31 16) ≤ now s then setCqRing s n { x with due := true } else s
/-- The messages of due completion rings (R449): only while the vector is armed. -/
def signalRing (s : State) (n : Nat) : State :=
  let x := cqRing s n
  if x.due ∧ x.irq ∧ armed s x.vector ∧ hostLive s ∧ serving s intcPage then
    setCqRing (sendVector s x.vector) n { x with due := false, count := 0, since := none }
  else s
def signalRings (s : State) : State := forEach s (s.cqs.map (·.1)) signalRing

/-! ### Enabling, doorbells and fetching (R429, R430) -/

/-- SQ_CFG.enable has gone from 0 to 1: the ring is sampled and its indices start at 0. -/
def sqEnable (s : State) (n : Nat) : State :=
  let p := sqPage n
  let pipe := fld s p 0x104 19 17
  let s := setSq s n { on := true, typ := fld s p 0x104 2 1, size := ringSize (fld s p 0x104 7 4), cq := fld s p 0x104 15 8
                       pipe := if 4 < pipe then 0 else pipe, base := rd64 s p 0x108, rcb := rd64 s p 0x110, noSnoop := bitAt s p 0x104 16
                       inflight := (sqOf s n).inflight }
  wr (wr (wr s p 0x11C 0) p 0x120 0) p 0x118 1
/-- enable has gone from 1 to 0: no further entry is started; entries fetched and not started, buffers posted and not filled among
them, are given up. [DEDUCED, log 94] -/
def sqDisable (s : State) (n : Nat) : State :=
  let x := sqOf s n
  let s := setHeld s n { x with on := false, posted := [], fetched := [], waiting := false, reading := false, again := false, readDue := false }
  let s := unblock s x.cq
  if x.inflight = 0 then setBit s (sqPage n) 0x118 0 false else s
def cqEnable (s : State) (n : Nat) : State :=
  let p := cqPage n
  let s := wr (wr s p 0x120 0) p 0x124 0
  setCqRing s n { on := true, size := ringSize (fld s p 0x104 7 4), vector := fld s p 0x104 17 9, irq := bitAt s p 0x104 18
                  base := rd64 s p 0x108, rcb := rd64 s p 0x110, reserved := (cqRing s n).reserved }
/-- enable of a completion ring has gone to 0: what it holds is discarded and counted (R429). -/
def cqDisable (s : State) (n : Nat) : State :=
  let x := cqRing s n
  let s := forEach s x.held (fun s _ => countReason s 8 0xC3)
  setBlocking (setCqRing s n { x with on := false, held := [], due := false, readDue := false }) n false
/-- SQ_DB (R430). -/
def sqDoor (s : State) (n : Nat) : State :=
  let x := sqOf s n
  if !x.on ∨ halted s then s
  else if x.reading then setSq s n { x with again := true }
  else toHost (setSq s n { x with reading := true, readDue := !pcieLive s }) (.hostRead x.rcb 4)
/-- The read of prod returns (R427, R430). -/
def prodIn (s : State) (n : Nat) (r : HostRead Word) : State :=
  let x := sqOf s n
  if !hostLive s ∨ !x.on ∨ !x.reading ∨ x.readDue then s
  else match r with
  | .error => halt s 10 n false (sqConsOf s n).toNat []
  | .ok prod =>
    if x.size < (prod - sqConsOf s n).toNat then halt s 2 n false (sqConsOf s n).toNat []
    else
      let s := wr s (sqPage n) 0x120 prod
      if x.again then emit (setSq s n { x with again := false }) (.hostRead x.rcb 4) else setSq s n { x with reading := false }
/-- Slots published and not yet fetched. -/
def slotsLeft (s : State) (n : Nat) : Nat := (rd s (sqPage n) 0x120 - sqConsOf s n).toNat
/-- A ring of a type can take its next entry. [DEDUCED, log 44] -/
def sqReady (s : State) (n typ : Nat) : Bool :=
  hostLive s && serving s (sqPage n) && !draining s (sqPage n) && (sqOf s n).on && (sqOf s n).typ == typ && decide (0 < slotsLeft s n)
/-- Bits [hi:lo] of a slot. -/
def sfld (v : BitVec 128) (hi lo : Nat) : Nat := bitsOf v.toNat hi lo

/-! ### Frames for the host port (R438) -/

/-- The ring that a frame's host code steers to. -/
def rxRing (s : State) (f : Frame) : Nat := efld (tget s rngPage 0 0 f.hostCode) 7 0
/-- Why RNG drops a frame at the head of a host-port queue, before it looks for a buffer; 0 for none. -/
def hostBar (s : State) (f : Frame) : Nat :=
  let x := sqOf s (rxRing s f)
  if !hostLive s then 0xC1 else if !ebit (tget s rngPage 0 0 f.hostCode) 8 ∨ !x.on ∨ x.typ ≠ 1 then 0xC3 else 0
/-- The ring of a frame has no buffer that it can start: none is posted, or its completion finds no room (R438, R441). -/
def noBuffer (s : State) (f : Frame) : Bool :=
  (sqOf s (rxRing s f)).posted.isEmpty || !mayStart s (rxRing s f) 2
/-- The base count from which the head of a host-port queue waits for a buffer. -/
def rxSince (s : State) (c : Nat) : Option Nat :=
  match mapGet (fun _ => none) s.rxWait c, (queueOf s (qIdx 112 c)).frames.head? with
  | some (n, b), some f => if f.seq = n then some b else none
  | _, _ => none

end Sys2Proof.Machine
end

