-- ==== Sys2Proof/Machine/CaptureOps.lean ====
section
/-! DEFINITION. The capture partitions: their state machine and the writing of capture records (R483 to R486). -/

namespace Sys2Proof.Machine

def capOff (n : Nat) : Nat := 0x100 + 0x40 * n
def capOf (s : State) (n : Nat) : CapPart := mapGet (fun _ => ({} : CapPart)) s.caps n
def setCap (s : State) (n : Nat) (c : CapPart) : State := { s with caps := mapSet (fun _ => ({} : CapPart)) s.caps n c }
/-- CAP_PTn_STAT.state: 0 OFF, 1 IDLE, 2 RECORDING, 3 TRIGGERED, 4 FROZEN. -/
def capState (s : State) (n : Nat) : Nat := fld s capPage (capOff n + 0x10) 2 0
def setCapState (s : State) (n st : Nat) : State := setFld s capPage (capOff n + 0x10) 2 0 st
def chanOf (s : State) (c : Nat) : Chan := mapGet (fun _ => ({} : Chan)) s.chans c
def setChan (s : State) (c : Nat) (x : Chan) : State := { s with chans := mapSet (fun _ => ({} : Chan)) s.chans c x }
/-- A copy channel holds an entry that names the partition (R484). -/
def capNamed (s : State) (n : Nat) : Bool :=
  (List.range 16).any (fun c => (chanOf s c).entries.any (fun e =>
    (e.srcSpace == 2 && e.src / 2 ^ 60 == n)))
/-- A request that is refused: CAP_PTn_STAT.refused and its cause, source 2. -/
def capRefuse (s : State) (n cause : Nat) : State :=
  raise (setFld (setBit s capPage (capOff n + 0x10) 5 true) capPage (capOff n + 0x10) 8 6 cause) capPage 2 0 n

/-- enable 0 to 1 (R484). -/
def capEnable (s : State) (n : Nat) : State :=
  let size := fld s capPage (capOff n + 4) 27 0
  if size < 16 then capRefuse s n 3
  else match grantPages s 5 6 none size [] with
    | (none, s) => capRefuse s n 2
    | (some pages, s) => setCapState (setCap s n { size := size, pages := pages }) n 1
/-- enable 1 to 0 (R484). -/
def capDisable (s : State) (n : Nat) : State :=
  if capState s n = 0 then s
  else
    let s := forEach s (capOf s n).pages (fun s p => opRelease s .pages p 5)
    setCapState (setCap s n {}) n 0

/-- Arm (R484): an empty ring, recording. -/
def capArm (s : State) (n : Nat) : State :=
  if capState s n = 1 ∨ capState s n = 4 then
    if capNamed s n then capRefuse s n 1
    else
      let o := capOff n
      let s := setBit (setCap s n { capOf s n with recs := [], post := 0 }) capPage (o + 0x10) 3 false
      let s := wr64 (wr64 s capPage (o + 0x18) 0) capPage (o + 0x20) 0
      setCapState s n 2
  else s
/-- Freeze (R484): writing stops, source 1. -/
def capFreeze (s : State) (n : Nat) : State :=
  if capState s n = 2 ∨ capState s n = 3 then setCapState (raise s capPage 1 0 n) n 4 else s
/-- Trigger (R484). With CAP_PTn_POST 0 the post part is complete at once. -/
def capTrigger (s : State) (n : Nat) : State :=
  let o := capOff n
  if capState s n = 2 then
    let s := wr64 (wr64 s capPage (o + 0x28) (now s % 2 ^ 64)) capPage (o + 0x30) (rd64 s capPage (o + 0x20))
    setCapState (setCap (raise s capPage 0 0 n) n { capOf s n with post := 0 }) n 3
  else if capState s n = 1 ∨ capState s n = 4 then setBit s capPage (o + 0x10) 4 true
  else s
/-- The post pages have been written (R484). [DEDUCED, log 118] -/
def capPost (s : State) (n : Nat) : State :=
  if capState s n = 3 ∧ fld s capPage (capOff n + 8) 27 0 * 4096 ≤ (capOf s n).post then capFreeze s n else s

/-- Oldest records go until `size` bytes fit (R483). -/
def capEvict (limit size : Nat) : List CapRec → List CapRec
  | [] => []
  | r :: rs => if ((r :: rs).map (fun x => x.bytes.length)).sum + size ≤ limit then r :: rs else capEvict limit size rs

/-- The header of a capture record (R483), its stamp converted into the partition's time base (R357). -/
def capHeader (s : State) (n : Nat) (i : CopyInfo) (stored : Nat) : List Byte × State :=
  let tb := fld s capPage (capOff n) 4 1
  let r := convertStamp s tb i.ts
  let t := r.1.toNat / 2 ^ 32
  (leBytes 32 (i.ts % 2 ^ 64 + (t / 10 ^ 9 % 2 ^ 64) * 2 ^ 64 + (t % 10 ^ 9) * 2 ^ 128 + b2n (tbValid s tb) * 2 ^ 158 +
    stored * 2 ^ 160 + i.origLen * 2 ^ 174 + i.session * 2 ^ 188 + i.dir * 2 ^ 192 + b2n i.trunc * 2 ^ 193 +
    b2n i.cut * 2 ^ 194 + b2n i.dropped * 2 ^ 195 + i.inPort * 2 ^ 196 + i.outPort * 2 ^ 204 + i.reason * 2 ^ 212 +
    i.tc * 2 ^ 220 + i.colour * 2 ^ 223), r.2)
/-- A DRAM word lies among the `len` bytes of a ring from offset `off`. -/
def inRing (pages : List Nat) (off len : Nat) (w : Nat × Nat) : Bool :=
  let ring := pages.length * 4096
  (numbered 0 pages).any (fun e => e.2 == w.1 && decide ((e.1 * 4096 + 8 * w.2 + ring - off) % ring < len))

/-- R485: of the pages that a record at `from` touches, those on the draining channel are replaced. A page for which no
replacement is granted stays. [DEDUCED, log 118] -/
def capMove (s : State) (from' len : Nat) (pages : List Nat) : State × List Nat :=
  let touched (k : Nat) : Bool := (List.range ((from' % 4096 + len + 4095) / 4096)).any (fun j => (from' / 4096 + j) % max pages.length 1 == k)
  (List.zip (List.range pages.length) pages).foldl (fun a e =>
    if touched e.1 && s.cust.draining == some (e.2 % 16) then
      match grant a.1 .pages 5 1 6 with
      | (some p, t) => (opRelease t .pages e.2 5, a.2 ++ [p])
      | (none, t) => (t, a.2 ++ [e.2])
    else (a.1, a.2 ++ [e.2])) (s, [])

/-- A copy that is not written is counted as lost (R483). -/
def capLost (s : State) (n : Nat) : State := raise (inc s capPage (capOff n + 0x38)) capPage 3 0 n

/-- Write one capture record (R483). A copy that finds the partition not recording is lost; so is the one that would
pass the end of the post pages, and it freezes the partition. [DEDUCED, log 118] -/
def capWrite (s : State) (n : Nat) (i : CopyInfo) (bytes : List Byte) : State :=
  let o := capOff n
  let len := 32 + (bytes.length + 7) / 8 * 8
  if !(capState s n = 2 ∨ capState s n = 3) ∨ !serving s capPage then capLost s n
  else if capState s n = 3 ∧ fld s capPage (o + 8) 27 0 * 4096 < (capOf s n).post + len then capLost (capFreeze s n) n
  else
    let m := capMove s (rd64 s capPage (o + 0x20)) len (capOf s n).pages
    let s := m.1
    let c := { capOf s n with pages := m.2 }
    let padded := bytes ++ List.replicate ((8 - bytes.length % 8) % 8) 0
    let h := capHeader m.1 n i bytes.length
    let rec' := h.1 ++ padded
    let s := mendWords h.2 (inRing c.pages (rd64 s capPage (o + 0x20)) len)
    let ring := c.size * 4096
    let next := rd64 s capPage (o + 0x20)
    let kept := capEvict ring rec'.length c.recs
    let s := if kept.length < c.recs.length then setBit s capPage (o + 0x10) 3 true else s
    let recs := kept ++ [{ off := next, bytes := rec' }]
    let s := setCap s n { c with recs := recs, post := c.post + rec'.length }
    let s := wr64 s capPage (o + 0x18) ((recs.map (fun r => r.off)).headD 0)
    let s := wr64 s capPage (o + 0x20) ((next + rec'.length) % ring)
    inc s capPage (o + 0x3C)

end Sys2Proof.Machine
end

