-- ==== Sys2Proof/Machine/MeterOps.lean ====
section
/-! DEFINITION. Meters (R254, R255), stream filters and stream gates (R257 to R259), and the states of banked tables (R153, R154,
R156, R253, R256). -/

namespace Sys2Proof.Machine

def pipeDflt (_ : Nat) : Pipe := {}
def pipeOf (s : State) (k : Nat) : Pipe := mapGet pipeDflt s.pipes k
def setPipe (s : State) (k : Nat) (p : Pipe) : State := { s with pipes := mapSet pipeDflt s.pipes k p }
/-- The region whose reason table a pipeline counts in. -/
def pipeRegion (k : Nat) : Nat := min k 4

/-! ### Banks -/

/-- R154: a bank's in-flight counter moves. -/
def Bank.add (b : Bank) (i : Nat) : Bank := if i = 0 then { b with inflight0 := b.inflight0 + 1 } else { b with inflight1 := b.inflight1 + 1 }
def Bank.sub (b : Bank) (i : Nat) : Bank := if i = 0 then { b with inflight0 := b.inflight0 - 1 } else { b with inflight1 := b.inflight1 - 1 }
/-- In-flight frames of the falsework bank. -/
def Bank.falsework (b : Bank) : Nat := if b.active = 0 then b.inflight1 else b.inflight0
/-- R153, R156: the swap itself. -/
def Bank.swap (b : Bank) : Bank :=
  let c := { b with active := 1 - b.active, epoch := (b.epoch + 1) % 65536, guard := false }
  { c with retiring := 0 < c.falsework }
/-- R154: retirement ends when the falsework bank's counter is 0. -/
def Bank.retire (b : Bank) : Bank := if b.falsework = 0 then { b with retiring := false } else b

/-! ### Meters -/

def mtrKey (k idx : Nat) : Nat := mtrPage k * 65536 + idx
def meterCount (k : Nat) : Nat := if k < 4 then 65536 else 4096
def counterCount (k : Nat) : Nat := if k < 4 then 262144 else 32768

/-- Units that a rate of `r` (kb/s, or packets per second) gives from base count `t0` to `t1` (R255): what it has
given up to the one less what it had given up to the other, so that no part of a unit is lost or given twice. -/
def meterFill (unit r t0 t1 : Nat) : Nat :=
  let per := if unit = 1 then r else r * 125
  t1 * per / 153600000000 - t0 * per / 153600000000

/-- One use of a meter: the new buckets and the colour (R255; RFC 2697, RFC 2698). `c` and `e` are the committed and
the excess or peak tokens after filling. -/
def meterColour (cfg : Nat) (pre len c e : Nat) : Nat × Nat × Nat :=
  let aware := bitOf cfg 2
  let b := if bitOf cfg 3 then 1 else len
  let pre := if aware then pre else 0
  if bitsOf cfg 1 0 = 1 then
    if pre = 0 ∧ b ≤ c then (0, c - b, e) else if pre ≤ 1 ∧ b ≤ e then (1, c, e - b) else (2, c, e)
  else
    if pre = 2 ∨ e < b then (2, c, e) else if pre = 1 ∨ c < b then (1, c, e - b) else (0, c - b, e - b)

/-- The mode of a meter (R254): an invalid entry, and one out of service, acts as 0. -/
def meterMode (s : State) (k bank idx : Nat) : Nat :=
  let pg := mtrPage k
  let cfg := (tget s pg 0 bank idx).toNat
  if bitOf cfg 127 && !(pipeOf s k).failed.contains (tabKey pg 0 bank idx) && bitsOf cfg 1 0 ≠ 3 then bitsOf cfg 1 0 else 0
/-- The buckets of a meter that runs, at this moment (R255, R256): full before the first use, else the tokens kept, cut back to the
sizes in force and filled since. -/
def meterTokens (s : State) (k bank idx : Nat) : Nat × Nat :=
  let cfg := (tget s (mtrPage k) 0 bank idx).toNat
  let cbs := bitsOf cfg 60 37
  let ebs := bitsOf cfg 116 93
  let last := mapGet (fun _ => 0) s.mtrLast (mtrKey k idx)
  if last = 0 then (cbs, ebs)
  else
    let st := tget s (mtrPage k) 1 0 idx
    let unit := b2n (bitOf cfg 3)
    let c0 := min (efld st 23 0) cbs
    let e0 := min (efld st 47 24) ebs
    let f1 := meterFill unit (bitsOf cfg 36 5) (last - 1) (now s)
    let f2 := meterFill unit (bitsOf cfg 92 61) (last - 1) (now s)
    let c := min (c0 + f1) cbs
    (c, min (if bitsOf cfg 1 0 = 1 then e0 + (c0 + f1 - c) else e0 + f2) ebs)
/-- The buckets of a meter hold these tokens now. -/
def putTokens (s : State) (k idx : Nat) (t : Nat × Nat) : State :=
  { tset s (mtrPage k) 1 0 idx (BitVec.ofNat 1920 (t.1 + t.2 * 2 ^ 24)) with mtrLast := mapSet (fun _ => 0) s.mtrLast (mtrKey k idx) (now s + 1) }
/-- The meters in use are brought up to now before their bank is swapped (R256). -/
def settleMeters (s : State) (k : Nat) : State :=
  let bank := (pipeOf s k).mtr.active
  forEach s ((s.mtrLast.map (·.1)).filter (fun key => key / 65536 == mtrPage k)) (fun s key =>
    let m := meterMode s k bank (key % 65536)
    if m = 1 ∨ m = 2 then putTokens s k (key % 65536) (meterTokens s k bank (key % 65536))
    else { s with mtrLast := mapSet (fun _ => 0) s.mtrLast key (now s + 1) })

/-- Meter `idx` of pipeline `k` acts on a frame (R255): the colour, and the state with its tokens and its set. -/
def meterUse (s : State) (k bank idx pre len : Nat) : Nat × Bool × State :=
  let pg := mtrPage k
  let cfg := (tget s pg 0 bank idx).toNat
  let mode := meterMode s k bank idx
  let r : Nat × State :=
    if mode = 1 ∨ mode = 2 then
      let t := meterTokens s k bank idx
      let x := meterColour cfg pre len t.1 t.2
      (x.1, putTokens s k idx x.2)
    else (pre, s)
  let s := addCounter (addCounter r.2 pg 5 idx (2 * r.1) 1) pg 5 idx (2 * r.1 + 1) len
  (r.1, bitOf cfg 4 && mode != 0, s)

/-- Stream filter `h` of pipeline `k` (R257): the drop reason, 0 for none, the class, the colour. `tsBc` is md.ts as a
full base count. -/
def streamFilter (s : State) (k bank h tsBc len tc colour : Nat) : Nat × Nat × Nat × State :=
  let pg := mtrPage k
  let e := tget s pg 2 0 h
  let stop (reason : Nat) (s : State) : Nat × Nat × Nat × State :=
    (reason, tc, colour, raise (inc s pg 0x10C) pg 1 reason)
  if !ebit e 63 || (pipeOf s k).failed.contains (tabKey pg 2 0 h) then (0, tc, colour, s)
  else if ebit e 15 then stop 0x88 s
  else if efld e 13 0 ≠ 0 ∧ efld e 13 0 < len then
    stop 0x85 (if ebit e 14 then raise (tset s pg 2 0 h (esetFld e 15 15 1)) pg 2 0x85 else s)
  else
    let g := efld e 24 17
    let gate : Option Nat :=
      if !ebit e 16 then some tc
      else match gateHeader (tget s pg 3 bank g) (fun i => efld (tget s pg 4 bank (g * 64 + i)) 36 5) with
        | none => some tc
        | some l =>
          let x := tget s pg 4 bank (g * 64 + gateIndex l.intervals 0 (gatePhase s l tsBc))
          if !ebit x 0 then none else if ebit x 4 then some (efld x 3 1) else some tc
    match gate with
    | none => stop 0x86 s
    | some tc =>
      if !ebit e 25 then (0, tc, colour, s)
      else
        let m := meterUse s k bank (efld e 41 26) colour len
        if m.1 = 2 then stop 0x87 m.2.2 else (0, tc, m.1, m.2.2)

end Sys2Proof.Machine
end

