-- ==== Sys2Proof/Machine/FdbOps.lean ====
section
/-! DEFINITION. The forwarding database: lookup, learning, propagation, flushing and the walker (R170 to R188, R330,
R331), and the longest-prefix-match stores (R190 to R193). -/

namespace Sys2Proof.Machine

/-! ### Entries and lookup -/

def fdbBuckets (k : Nat) : Nat := if k < 4 then 65536 else 8192
/-- The FDB key (R175). -/
def fdbKey (fid mac : Nat) : Nat := mac % 2 ^ 48 + fid % 4096 * 2 ^ 48
/-- fold16 and the bucket (R175). -/
def fdbBucket (k seed key : Nat) : Nat :=
  ((bitsOf key 15 0 ^^^ bitsOf key 31 16) ^^^ (bitsOf key 47 32 ^^^ bitsOf key 63 48) ^^^ seed) % fdbBuckets k
def fdbAt (s : State) (k idx : Nat) : Entry := tget s (fdbPage k) 0 0 idx
def fdbWrite (s : State) (k idx : Nat) (e : Entry) : State :=
  let was := ebit (fdbAt s k idx) 127
  let s := tset s (fdbPage k) 0 0 idx e
  let n := fld s (fdbPage k) 0x110 19 0
  setFld s (fdbPage k) 0x110 19 0 (n - b2n was + b2n (ebit e 127))
/-- Count one in an FDB event counter. -/
def fdbInc (s : State) (k o : Nat) : State := inc s (fdbPage k) o

/-- A way of a pipeline's FDB fails parity. -/
def fdbFails (s : State) (k idx : Nat) : Bool := (pipeOf s k).failed.contains (tabKey (fdbPage k) 0 0 idx)
/-- R177: a way that failed parity is reported: source 2, reason 0x43. -/
def fdbReport (s : State) (k idx : Nat) : State :=
  if fdbFails s k idx then
    raise (countReason s (pipeRegion k) 0x43) (fdbPage k) 2 0x43 (idx % 8 + idx / 8 % 8192 * 8)
  else s
/-- R177: a way that failed parity loses its valid bit. -/
def fdbClear (s : State) (k idx : Nat) : State :=
  if fdbFails s k idx then
    let p := pipeOf s k
    let s := setPipe s k { p with failed := p.failed.filter (· != tabKey (fdbPage k) 0 0 idx) }
    fdbWrite s k idx (esetFld (fdbAt s k idx) 127 127 0)
  else s
/-- A read that nothing else shares its cycle with: the walker's, or a scan's. -/
def fdbParity (s : State) (k idx : Nat) : State := fdbClear (fdbReport s k idx) k idx

/-- The ways of a bucket. -/
def ways (b : Nat) : List Nat := (List.range 8).map (fun w => b * 8 + w)
/-- The lowest way that holds the key; ways that fail parity take no part (R177). -/
def fdbFind (s : State) (k key : Nat) : Option Nat :=
  (ways (fdbBucket k (pipeOf s k).seed key)).find? (fun i =>
    let e := fdbAt s k i
    ebit e 127 && efld e 59 0 == key && !fdbFails s k i)
/-- A read of a bucket reports its ways of bad parity, serves what the lookup is for, and clears them in a later cycle,
ordered as a walker visit (R170, R177). -/
def fdbRead (s : State) (k key : Nat) (use : State → State) : State :=
  let ws := ways (fdbBucket k (pipeOf s k).seed key)
  forEach (use (forEach s ws (fun s i => fdbReport s k i))) ws (fun s i => fdbClear s k i)

/-- An entry (R176). -/
def fdbEntry (fid mac origin pipe dest ts : Nat) : Entry :=
  BitVec.ofNat 1920 (fdbKey fid mac + origin * 2 ^ 62 + pipe * 2 ^ 64 + dest * 2 ^ 70 + ts % 2 ^ 40 * 2 ^ 87 + 2 ^ 127)
/-- learn_ts of this moment (R176). -/
def learnNow (s : State) : Nat := tb0Ns s (now s) % 2 ^ 40

/-! ### Learn events -/

/-- R185, R188: queue a learn event, or lose it when the FIFO of 4,096 is full. -/
def queueEvent (s : State) (k kind port fid mac ts : Nat) : State :=
  if !ebit (tget s (fdbPage k) 2 0 fid) 1 then s
  else
    let p := pipeOf s k
    if 4096 ≤ p.events.length then
      raise (setBit (countReason s (pipeRegion k) 0x54) (fdbPage k) 0x128 31 true) (fdbPage k) 3 0x54
    else
      let ev : LearnEvent := { kind := BitVec.ofNat 2 kind, pipe := BitVec.ofNat 3 k, port := BitVec.ofNat 8 port
                               fid := BitVec.ofNat 12 fid, mac := BitVec.ofNat 48 mac, ts := BitVec.ofNat 40 ts }
      let s := setPipe s k { p with events := p.events ++ [ev] }
      let n := p.events.length + 1
      let s := setFld s (fdbPage k) 0x128 12 0 n
      setFld s (fdbPage k) 0x128 28 16 (max n (fld s (fdbPage k) 0x128 28 16))
/-- The event of an entry that is deleted or evicted, for an entry of origin 0. -/
def deleteEvent (s : State) (k : Nat) (e : Entry) : State :=
  if efld e 63 62 = 0 then queueEvent s k 2 (efld e 77 70) (efld e 59 48) (efld e 47 0) (efld e 126 87) else s

/-! ### Learning -/

/-- The stamp rule (R180): the competing learn takes the address. -/
def stampTakes (s : State) (k : Nat) (e : Entry) (ts pipe : Nat) : Bool :=
  if ebit e 67 then true
  else
    let d := signedOf 40 (ts + 2 ^ 40 - efld e 126 87)
    let hold := min (fld s (fdbPage k) 0x108 19 0) 1000000 * 1000
    if d = 0 then decide (pipe < efld e 66 64)
    else if d.natAbs < hold then decide (d < 0) else decide (0 < d)

/-- R330: on equal stamps between members, the learn of the member with the lower serial number keeps the address. -/
def pairTakes (s : State) (k : Nat) (e : Entry) (ts pipe : Nat) (learnLower : Bool) : Bool :=
  if !ebit e 67 ∧ ts % 2 ^ 40 = efld e 126 87 then learnLower else stampTakes s k e ts pipe
/-- This member is the primary of its pair (R336). -/
def isPrimary (s : State) : Bool := bitAt s spnPairPage 0x130 3

/-- A local learn once its bucket has been read. -/
def learnRead (k fid mac port : Nat) (s : State) : State :=
  let key := fdbKey fid mac
  let ts := learnNow s
  match fdbFind s k key with
  | some i =>
    let e := fdbAt s k i
    if efld e 69 68 = 0 ∧ efld e 77 70 = port then
      if ebit e 61 ∧ efld e 63 62 = 0 then fdbWrite s k i (esetFld e 61 61 0) else s
    else if ebit e 60 then raise (countReason s (pipeRegion k) 0x49) (fdbPage k) 5 0x49
    else if (if efld e 63 62 = 2 then pairTakes s k e ts k (isPrimary s) else stampTakes s k e ts k) then
      let s := fdbInc (fdbWrite s k i (fdbEntry fid mac 0 k port ts)) k 0x118
      queueEvent s k 1 port fid mac ts
    else raise (fdbInc (countReason s (pipeRegion k) 0x42) k 0x11C) (fdbPage k) 1 0x42
  | none =>
    let ws := ways (fdbBucket k (pipeOf s k).seed key)
    let put (s : State) (i : Nat) : State :=
      queueEvent (fdbInc (fdbWrite s k i (fdbEntry fid mac 0 k port ts)) k 0x114) k 0 port fid mac ts
    match ws.find? (fun i => !ebit (fdbAt s k i) 127) with
    | some i => put s i
    | none =>
      match (if bitAt s (fdbPage k) 0x100 1 then
          ws.find? (fun i => let e := fdbAt s k i; !fdbFails s k i && !ebit e 60 && ebit e 61 && efld e 63 62 == 0) else none) with
      | some i => put (fdbInc (deleteEvent s k (fdbAt s k i)) k 0x124) i
      | none => raise (fdbInc (countReason s (pipeRegion k) 0x41) k 0x120) (fdbPage k) 0 0x41

/-- A local learn of `mac` in `fid` on `port` (R178, R179, R331). -/
def learn (s : State) (k fid mac port : Nat) : State := fdbRead s k (fdbKey fid mac) (learnRead k fid mac port)

/-- R179: a destination hit refreshes while dst_refresh is 1. -/
def dstRefresh (s : State) (k i : Nat) : State :=
  let e := fdbAt s k i
  if bitAt s (fdbPage k) 0x100 3 ∧ ebit e 61 ∧ efld e 63 62 = 0 then fdbWrite s k i (esetFld e 61 61 0) else s

/-- A propagated event once its bucket has been read. -/
def applyRead (k : Nat) (ev : LearnEvent) (span : Bool) (s : State) : State :=
  let fid := ev.fid.toNat
  let mac := ev.mac.toNat
  let key := fdbKey fid mac
  let origin := if span then 2 else 1
  let dest := if span then 128 + ev.port.toNat % 128 else ev.port.toNat
  let new := fdbEntry fid mac origin ev.pipe.toNat dest ev.ts.toNat
  match fdbFind s k key with
  | some i =>
    let e := fdbAt s k i
    if ev.kind = 2 then
      if efld e 63 62 = origin ∧ efld e 66 64 = ev.pipe.toNat ∧ efld e 126 87 = ev.ts.toNat then
        fdbWrite s k i (esetFld e 127 127 0)
      else s
    else if ebit e 60 then raise (countReason s (pipeRegion k) 0x49) (fdbPage k) 5 0x49
    else if (if span && efld e 63 62 != 2 then pairTakes s k e ev.ts.toNat ev.pipe.toNat (!isPrimary s)
        else stampTakes s k e ev.ts.toNat ev.pipe.toNat) then fdbWrite s k i new
    else s
  | none =>
    if ev.kind = 2 then s
    else match (ways (fdbBucket k (pipeOf s k).seed key)).find? (fun i => !ebit (fdbAt s k i) 127) with
      | some i => fdbWrite s k i new
      | none => raise (fdbInc s k 0x120) (fdbPage k) 0
/-- A propagated event is applied to pipeline `k` (R186); from the span partner it has origin 2 and destination
128 + port (R330). -/
def applyEvent (s : State) (k : Nat) (ev : LearnEvent) (span : Bool) : State :=
  let fid := ev.fid.toNat
  if !ebit (tget s (fdbPage k) 2 0 fid) 0 then s
  else fdbRead s k (fdbKey fid ev.mac.toNat) (applyRead k ev span)

/-! ### Flush and walker -/

/-- The entries of a pipeline's FDB that the table lists: index and image. -/
def fdbListed (s : State) (k : Nat) : List (Nat × Entry) :=
  (s.tabs.filter (fun e => keyPage e.1 == fdbPage k && keySel e.1 == 0)).map (fun e => (keyIdx e.1, e.2))

/-- R184: the entry matches a flush value in the layout of FDB_FLUSH. [DEDUCED, log 63] -/
def flushHits (v : Nat) (e : Entry) : Bool :=
  ebit e 127 && (!bitOf v 20 || (efld e 69 68 == 0 && efld e 77 70 == bitsOf v 7 0)) && (!bitOf v 21 || efld e 59 48 == bitsOf v 19 8) &&
  (!bitOf v 23 || (efld e 63 62 == 1 && efld e 66 64 == bitsOf v 26 24)) && (!ebit e 60 || bitOf v 22)
/-- One flush (R184). [DEDUCED, log 62; DEDUCED, log 62] -/
def fdbFlushNow (s : State) (k v : Nat) : State :=
  forEach s ((fdbListed s k).filter (fun e => flushHits v e.2)) (fun s e =>
    deleteEvent (fdbWrite s k e.1 (esetFld e.2 127 127 0)) k e.2)
/-- R184: a flush waits its turn; FDB_FLUSH.go reads 1 and FDB_WALK.flush is set while any is queued. -/
def flushRequest (s : State) (k v : Nat) : State :=
  let p := pipeOf s k
  let s := setPipe s k { p with flushes := p.flushes ++ [{ value := v, since := now s }] }
  setBit (setBit s (fdbPage k) 0x10C 31 true) (fdbPage k) 0x12C 17 true
/-- R184: a port entering DOWN starts a flush by that port while flush_on_down is 1. -/
def flushOnDown (s : State) (port : Nat) : State :=
  let k := pipeOfPort port
  if bitAt s (fdbPage k) 0x100 2 then flushRequest s k (port + 2 ^ 20) else s
/-- R331: the origin-2 entries of every pipeline go. -/
def flushPartner (s : State) : State :=
  forEach s [0, 1, 2, 3, 4] (fun s k =>
    forEach s ((fdbListed s k).filter (fun e => ebit e.2 127 && efld e.2 63 62 == 2)) (fun s e =>
      fdbWrite s k e.1 (esetFld e.2 127 127 0)))

/-- The value of FDB_FLUSH that flushes what pipeline `k` propagated (R188). -/
def byPipe (k : Nat) : Nat := 2 ^ 23 + k * 2 ^ 24

/-- The walker's work on one entry (R181, R182). -/
def walkEntry (s : State) (k i : Nat) (ageing : Bool) : State :=
  let s := fdbParity s k i
  let e := fdbAt s k i
  if !ebit e 127 then s
  else
    let age := (learnNow s + 2 ^ 40 - efld e 126 87) % 2 ^ 40
    let e' := if 2000000000 ≤ age then esetFld e 67 67 1 else e
    if ageing ∧ !ebit e 60 ∧ efld e 63 62 = 0 then
      if ebit e 61 then deleteEvent (fdbWrite s k i (esetFld e' 127 127 0)) k e
      else fdbWrite s k i (esetFld e' 61 61 1)
    else if e' = e then s else fdbWrite s k i e'

/-! ### Longest-prefix match -/

/-- The destination with the bits below `len` cleared (R191), for addresses of `w` bits. -/
def prefixOf (w addr len : Nat) : Nat := addr / 2 ^ (w - len) * 2 ^ (w - len)
/-- The exclusive-or of the `n` 16-bit words of a number. -/
def xor16 : Nat → Nat → Nat
  | 0, _ => 0
  | n + 1, a => (a % 65536) ^^^ xor16 n (a / 65536)
/-- fold16 of a prefix (R191). -/
def lpmFold (v6 : Bool) (p len : Nat) : Nat := xor16 (if v6 then 8 else 2) p ^^^ len
/-- The descriptor of a length: base and size_log2 (R190). -/
def lpmDesc (s : State) (k : Nat) (v6 : Bool) (len : Nat) : Nat × Nat :=
  let e := tget s (lpmPage k) 2 0 (if v6 then 64 + len else len)
  (efld e 16 0, efld e 21 17)
/-- The two filter indices of a fold16 (R191). -/
def filterIdx (f : Nat) : Nat × Nat := (f % 16384, f * 0x9E37 % 65536 / 4)
/-- The valid entries of a store with their length and prefix: index, len, prefix. -/
def lpmListed (s : State) (k : Nat) (v6 : Bool) : List (Nat × Nat × Nat) :=
  (s.tabs.filter (fun e => keyPage e.1 == lpmPage k && keySel e.1 == b2n v6 && ebit e.2 (if v6 then 191 else 63))).map
    (fun e => if v6 then (keyIdx e.1, efld e.2 135 128, efld e.2 127 0) else (keyIdx e.1, efld e.2 37 32, efld e.2 31 0))
/-- R191: the length is a candidate: both of its counts are non-zero. -/
def lpmCandidate (s : State) (k : Nat) (v6 : Bool) (addr len : Nat) : Bool :=
  if (lpmDesc s k v6 len).2 = 0 then false
  else
    let f := filterIdx (lpmFold v6 (prefixOf (if v6 then 128 else 32) addr len) len)
    let stuck (i : Nat) : Bool := (mapGet (fun _ => 0) s.lpmStuck (((k * 2 + b2n v6) * 256 + len) * 16384 + i)) != 0
    let mine := ((lpmListed s k v6).filter (fun e => e.2.1 == len)).map (fun e => filterIdx (lpmFold v6 e.2.2 len))
    let has (i : Nat) : Bool := stuck i || mine.any (fun g => g.1 == i || g.2 == i)
    has f.1 && has f.2
/-- Candidate lengths below `below`, longest first (R192). -/
def lpmCandidates (s : State) (k : Nat) (v6 : Bool) (addr below : Nat) : List Nat :=
  ((List.range (if v6 then 129 else 33)).reverse.filter (fun l => 0 < l && l < below)).filter (lpmCandidate s k v6 addr)
/-- One probe (R192, R193): the next hop of the matching way, and the ways of the bucket that fail parity. -/
def lpmProbe (s : State) (k : Nat) (v6 : Bool) (addr len : Nat) : Option Nat × List Nat :=
  let d := lpmDesc s k v6 len
  let p := prefixOf (if v6 then 128 else 32) addr len
  let b := d.1 + lpmFold v6 p len % 2 ^ d.2
  let idx := (List.range 4).map (fun w => b * 4 + w)
  let bad (i : Nat) : Bool := (pipeOf s k).failed.contains (tabKey (lpmPage k) (b2n v6) 0 i)
  let hit := idx.find? (fun i =>
    let e := tget s (lpmPage k) (b2n v6) 0 i
    !bad i && (if v6 then ebit e 191 && efld e 135 128 == len && efld e 127 0 == p
      else ebit e 63 && efld e 37 32 == len && efld e 31 0 == p))
  (hit.map (fun i => let e := tget s (lpmPage k) (b2n v6) 0 i; if v6 then efld e 151 136 else efld e 53 38), idx.filter bad)

/-- What at most `n` probes give: a next hop, no candidate left, or the last length probed with more to come. -/
inductive LpmResult where
  | hit (nh : Nat)
  | none
  | more (last : Nat)
  deriving DecidableEq, Repr

def lpmProbes (s : State) (k : Nat) (v6 : Bool) (addr : Nat) : Nat → List Nat → Nat → LpmResult × State
  | _, [], _ => (.none, s)
  | 0, _, last => (.more last, s)
  | n + 1, l :: ls, _ =>
    let r := lpmProbe s k v6 addr l
    let s := forEach s r.2 (fun s i =>
      raise (countReason s (pipeRegion k) 0x53) (lpmPage k) 1 0x53 (i % 4 + i / 4 % 8192 * 8))
    match r.1 with
    | some nh => (.hit nh, s)
    | none => lpmProbes s k v6 addr n ls l

end Sys2Proof.Machine
end

