-- ==== Sys2Proof/Machine/SpanOps.lean ====
section
/-! DEFINITION. Span pairs: links, sequence spaces, acknowledgement, the active link and the end of a session (R305 to
R335). -/

namespace Sys2Proof.Machine

/-! ### Links and spaces -/

def linkOf (s : State) (l : Nat) : SpanLink := mapGet (fun _ => ({} : SpanLink)) s.span.links l
def setLink (s : State) (l : Nat) (x : SpanLink) : State :=
  { s with span := { s.span with links := mapSet (fun _ => ({} : SpanLink)) s.span.links l x } }
def spaceOf (s : State) (l c : Nat) : SpanSpace := mapGet (fun _ => ({} : SpanSpace)) (linkOf s l).spaces c
def setSpace (s : State) (l c : Nat) (x : SpanSpace) : State :=
  setLink s l { linkOf s l with spaces := mapSet (fun _ => ({} : SpanSpace)) (linkOf s l).spaces c x }
/-- SPN_LINK_STAT.state: 0 OFF, 1 HELLO, 2 AUTH, 3 UP, 4 LOST. -/
def spanLinkState (s : State) (l : Nat) : Nat := fld s (spnLinkPage l) 0x114 2 0
def joined (s : State) (l : Nat) : Bool := spanLinkState s l == 3
/-- The span link on a port, if any (R305). -/
def spanLinkOf (s : State) (port : Nat) : Option Nat := (List.range 8).find? (fun l => (linkOf s l).port == some port)
/-- A port configured as a span link. -/
def isSpanPort (s : State) (port : Nat) : Bool := (spanLinkOf s port).isSome
/-- SPN_PAIR_STAT.state: 0 IDLE, 1 JOINED, 2 SPLIT. -/
def pairState (s : State) : Nat := fld s spnPairPage 0x130 2 0
def setPairState (s : State) (n : Nat) : State := setFld s spnPairPage 0x130 2 0 n
def session (s : State) : Nat := (rd s spnPairPage 0x140).toNat
/-- Preference of a link, the lower link number first on equal preference (R311). -/
def linkRank (s : State) (l : Nat) : Nat := fld s spnPairPage 0x124 (4 * l + 3) (4 * l) * 8 + l
/-- The best of the joined links (R311). -/
def bestLink (s : State) : Option Nat :=
  ((List.range 8).filter (joined s)).foldl (fun (a : Option Nat) l =>
    match a with
    | none => some l
    | some b => if linkRank s l < linkRank s b then some l else some b) none
/-- The active link recorded in the link pages. -/
def activeLink (s : State) : Option Nat := (List.range 8).find? (fun l => bitAt s (spnLinkPage l) 0x114 3)
def setLinkState (s : State) (l n : Nat) : State :=
  let s := setFld s (spnLinkPage l) 0x114 2 0 n
  setFld s spnPairPage 0x130 15 8 (((List.range 8).filter (joined s)).map (fun k => 2 ^ k)).sum
/-- A span link's own region counts its reason codes (R305). -/
def linkRegion (l : Nat) : Nat := l / 2

/-- Device serial numbers decide the primary (R305 introduction): the lower serial. -/
def mySerial : Nat := Config.serial.toNat

/-! ### Limits of a sender -/

/-- Granules that the link's spaces hold (R323). -/
def heldGranules (s : State) (l : Nat) : Nat :=
  ((List.range 9).map (fun c => ((spaceOf s l c).sent.map (fun x =>
    if x.buf.isSome then (x.frame.map granulesOf).getD 0 else 0)).sum)).sum
/-- Granules held beyond rcv_cum (R318). -/
def oooGranules (s : State) (l : Nat) : Nat :=
  ((List.range 8).map (fun c => ((spaceOf s l c).ooo.map (fun x => granulesOf x.2.1)).sum)).sum
/-- R316: a new sequenced frame may be sent in a space. -/
def spanRoom (s : State) (l c : Nat) : Bool :=
  ((spaceOf s l c).nxt - (spaceOf s l c).una).toNat < 65536 && heldGranules s l < fld s (spnLinkPage l) 0x10C 19 0
/-- R326: custody queues of the port replay only once R324 has resent what was held, and nothing starts on a link that
is not joined, or while a handover waits. -/
def spanBlocked (s : State) (port c : Nat) (custody : Bool) : Bool :=
  match spanLinkOf s port with
  | none => false
  | some l => !joined s l || activeLink s != some l || s.span.handover.isSome || (linkOf s l).awaitCum || (custody && !spanRoom s l c)

/-! ### Sending -/

/-- RTO of a space (R317). -/
def rtoOf (s : State) (l c : Nat) : Nat :=
  let x := spaceOf s l c
  let lo := usTime (max 50 (fld s (spnLinkPage l) 0x108 15 0))
  let hi := msTime (fld s (spnLinkPage l) 0x108 31 16)
  let base := if x.sampled then min hi (max lo (x.srtt + 4 * x.rttvar)) else msTime 1
  min (max hi (msTime 1)) (base * 2 ^ x.backoff)

/-- The header of a frame sent on a link (R312). -/
def spanHdr (s : State) (l ftype : Nat) : SpanHeader :=
  { srcMac := BitVec.ofNat 48 s.span.mac, version := 1, ftype := BitVec.ofNat 4 ftype, rel := false, retx := false, tc := 0
    trunc := false, colour := 0, destKind := 0, link := BitVec.ofNat 3 l, src := 0, dest := 0, seq := 0, age := 0 }
/-- Age of a frame in ms when its transmission starts, saturating (R312). -/
def ageMs (s : State) (f : Frame) : Nat :=
  min ((tbAt s 0 (now s) - tbAt s 0 (restore s f.ts)).toNat / (2 ^ 32 * 10 ^ 6)) (2 ^ 32 - 1)
/-- The header of a DATA frame. -/
def dataHdr (s : State) (l : Nat) (f : Frame) (rel retx : Bool) (n : Word) : SpanHeader :=
  let d := f.partner.getD (0, 0)
  { spanHdr s l 0 with rel := rel, retx := retx, tc := BitVec.ofNat 3 f.tc, trunc := f.trunc, colour := BitVec.ofNat 2 f.colour
                       destKind := BitVec.ofNat 2 d.1, src := BitVec.ofNat 8 f.ingress, dest := BitVec.ofNat 16 d.2, seq := n
                       age := BitVec.ofNat 32 (ageMs s f) }

/-- The 28 bytes in front of what an encapsulated frame carries: addresses and span header (R312). -/
def encapHeader (s : State) (da : Nat) (h : SpanHeader) : List Byte :=
  beBytes 6 da ++ beBytes 6 h.srcMac.toNat ++ beBytes 2 (fld s spnPairPage 0x120 15 0) ++
  beBytes 1 (h.version.toNat * 16 + h.ftype.toNat) ++ beBytes 1 (b2n h.rel * 128 + b2n h.retx * 64 + h.tc.toNat * 8 + b2n h.trunc * 4 + h.colour.toNat) ++
  beBytes 1 (h.destKind.toNat * 64 + h.link.toNat * 8) ++ beBytes 1 h.src.toNat ++ beBytes 2 h.dest.toNat ++ beBytes 4 h.seq.toNat ++ beBytes 4 h.age.toNat
/-- SPN_PEER_MAC: the partner's span MAC. -/
def peerMac (s : State) (l : Nat) : Nat := rd64 s (spnLinkPage l) 0x118 % 2 ^ 48
/-- The type of a control frame (R312). -/
def ctrlType (kind : String) : Nat :=
  match kind with
  | "ACK" => 1 | "HELLO" => 2 | "AUTH_OFFER" | "AUTH_PROOF" => 3 | "LEARN" => 4 | "TIME" => 5 | _ => 6
/-- A control frame on a link. HELLO and AUTH frames go to SPN_HELLO_DA. LEARN and CTRL frames are sequenced (R312). -/
def ctrlFrame (s : State) (l : Nat) (kind : String) (fields : List Nat) (n : Word := 0) (retx : Bool := false) (src dest : Nat := 0) : Output :=
  let t := ctrlType kind
  let h := { spanHdr s l t with rel := t == 4 || t == 6, retx := retx, src := BitVec.ofNat 8 src, dest := BitVec.ofNat 16 dest, seq := n }
  .spanCtrl l kind fields (encapHeader s (if t = 2 ∨ t = 3 then rd64 s spnPairPage 0x118 % 2 ^ 48 else peerMac s l) h)

/-- Octets of a LEARN or CTRL frame with its FCS, 64 or more: 28 in front of the body of R330 or R392, or of one of no given length. [DESIGN CHOICE, log 155] -/
def ctrlLen (kind : String) (fields : List Nat) : Nat :=
  max 64 (32 + match kind with
    | "LEARN" => 16 * fields.length
    | "HANDOVER" | "RCV_CUM" | "BPDU" => Config.ctrlBody kind fields
    | _ => 22)
/-- A LEARN or CTRL frame joins space 8 (R315): false where the space is at its limits. -/
def sendCtrl (s : State) (l : Nat) (kind : String) (fields : List Nat) : Bool × State :=
  if !joined s l || !spanRoom s l 8 then (false, s)
  else
    let x := spaceOf s l 8
    let s := setSpace s l 8 { x with nxt := x.nxt + 1
                                     sent := x.sent ++ [{ seq := x.nxt, ctrl := some (kind, fields), sentBc := tb0Time s }] }
    let s := addCounter (addCounter s (spnLinkPage l) 1 8 0 1) (spnLinkPage l) 1 8 1 (ctrlLen kind fields)
    (true, emit s (ctrlFrame s l kind fields x.nxt))
/-- A control message to the partner on the active link, where there is one. -/
def tellPartner (s : State) (kind : String) (fields : List Nat) : State :=
  match activeLink s with
  | none => s
  | some l => (sendCtrl s l kind fields).2

/-- An ACK for a space (R319): rcv_cum and the lowest held ranges above it. -/
def sendAck (s : State) (l c : Nat) : State :=
  let x := spaceOf s l c
  let offs := (if c = 8 then x.oooLearn.map (fun e => (e.1 - x.rcvCum).toNat) else x.ooo.map (fun e => (e.1 - x.rcvCum).toNat)).mergeSort
  let blocks := offs.foldl (fun (a : List (Nat × Nat)) o =>
    match a with
    | (st, n) :: rest => if st + n = o then (st, n + 1) :: rest else (o, 1) :: a
    | [] => [(o, 1)]) []
  let sacks := (blocks.reverse.take 8).flatMap (fun b => [b.1, b.2])
  emit (setSpace s l c { x with sinceAck := 0 }) (ctrlFrame s l "ACK" ([c, x.rcvCum.toNat] ++ sacks) x.rcvCum false c (sacks.length / 2))

/-- Give up what a sender holds for a frame (R320, R323). -/
def releaseSent (s : State) (l : Nat) (x : SpanSent) : State :=
  let s := match x.buf with
    | none => s
    | some b => opDrop s .granules b (8 + linkRegion l)
  if x.own then s else forEach s x.pages (fun s p => opDrop s .pages p 4)
/-- The pages of the region's SPN requester that no held frame of the link touches any more go back (R324). -/
def freeOwn (s : State) (l : Nat) (gone : List SpanSent) : State :=
  let mine (x : List SpanSent) : List Nat := (x.filter (·.own)).flatMap (·.pages)
  let left := (List.range 9).flatMap (fun c => mine (spaceOf s l c).sent)
  let k := linkOf s l
  let s := if left.isEmpty then setLink s l { k with tail := none } else s
  let open' := if left.isEmpty then [] else k.tail.toList.map (·.1)
  forEach s ((mine gone).eraseDups.filter (fun p => !(left ++ open').contains p)) (fun s p => opRelease s .pages p (8 + linkRegion l))

/-- What a sender holds under a number, changed. -/
def setSent (s : State) (l c : Nat) (n : Word) (f : SpanSent → SpanSent) : State :=
  let x := spaceOf s l c
  setSpace s l c { x with sent := x.sent.map (fun g => if g.seq = n then f g else g) }
/-- A held frame goes out once more: on its link a retransmission where it has been sent there before (R320, R338). -/
def sentAgain (s : State) (l c : Nat) (e : SpanSent) : State :=
  let s := setSent s l c e.seq (fun g => { g with sends := g.sends + 1, due := false, sentBc := tb0Time s })
  if e.sends = 0 then
    let n := match e.frame, e.ctrl with | some f, _ => frameLen f + 28 | none, some (kind, fields) => ctrlLen kind fields | none, none => 0
    addCounter (addCounter s (spnLinkPage l) 1 c 0 1) (spnLinkPage l) 1 c 1 n
  else inc (countReason s (linkRegion l) 0xB5) (spnLinkPage l) 0x124
/-- R320: a frame is resent with retx 1. A DATA frame waits for its class's turn on the port, ahead of the space's new frames; a LEARN
or CTRL frame goes at once. -/
def resend (s : State) (l c : Nat) (n : Word) : State :=
  match (spaceOf s l c).sent.find? (fun e => e.seq == n) with
  | none => s
  | some e =>
    match e.frame, e.ctrl with
    | some _, _ => setSent s l c n (fun g => { g with due := true })
    | none, some (k, fs) => emit (sentAgain s l c e) (ctrlFrame s l k fs n (0 < e.sends))
    | none, none => s
/-- The held frame of class `c` that a span link's port sends next: its link is active, and no handover and no rejoin waits. -/
def dueOf (s : State) (port c : Nat) : Option (Nat × SpanSent) :=
  match spanLinkOf s port with
  | none => none
  | some l =>
    if !joined s l || activeLink s != some l || s.span.handover.isSome || (linkOf s l).awaitCum then none
    else ((spaceOf s l c).sent.find? (fun e => e.due && e.frame.isSome)).map (fun e => (l, e))

/-- One round-trip sample (R317). -/
def addSample (s : State) (l c r : Nat) : State :=
  let x := spaceOf s l c
  let x := if x.sampled then
      { x with rttvar := (3 * x.rttvar + (max x.srtt r - min x.srtt r)) / 4, srtt := (7 * x.srtt + r) / 8 }
    else { x with sampled := true, srtt := r, rttvar := r / 2 }
  let s := setSpace s l c x
  wr s (spnLinkPage l) 0x120 (BitVec.ofNat 32 (min (x.srtt / usTime 1) 65535 + min (x.rttvar / usTime 1) 65535 * 65536))

/-- a < b for sequence numbers (R315: compared modulo 2^32). -/
def seqLt (a b : Word) : Bool := a != b && (b - a).toNat < 2 ^ 31

/-- snd_una advances to `cum` (R320): the frames below it are released, and each that was sent once gives a sample
(R317). -/
def ackTo (s : State) (l c : Nat) (cum : Word) : State :=
  let x := spaceOf s l c
  if !seqLt x.una cum ∨ seqLt x.nxt cum then s
  else
    let gone := x.sent.filter (fun e => seqLt e.seq cum)
    let s := setSpace s l c { x with una := cum, sent := x.sent.filter (fun e => !seqLt e.seq cum), backoff := 0, expiries := 0 }
    let s := freeOwn (forEach s gone (fun s e => releaseSent s l e)) l gone
    forEach s (gone.filter (fun e => e.sends == 1)) (fun s e => addSample s l c (tb0Time s - e.sentBc))

/-! ### LOST and the end of a session -/

/-- R324: the frames held in granules are copied to records on pages of the region's SPN requester. -/
def copyHeld (s : State) (l : Nat) : State :=
  forEach s (List.range 8) (fun s c =>
    forEach s ((spaceOf s l c).sent.filter (fun e => e.buf.isSome)) (fun s e =>
      match e.frame with
      | none => s
      | some f =>
        match appendRecord s (8 + linkRegion l) 6 (linkOf s l).tail (recSize f) with
        | (none, s) => s
        | (some (pages, tail), s) =>
          let s := releaseSent s l { e with pages := [] }
          let s := setLink s l { linkOf s l with tail := tail }
          let x := spaceOf s l c
          setSpace s l c { x with sent := x.sent.map (fun g => if g.seq = e.seq then { g with buf := none, pages := pages, own := true } else g) }))

/-- The pair's timers when its last joined link goes (R329). -/
def splitCheck (s : State) : State :=
  if pairState s = 1 ∧ (bestLink s).isNone then
    let s := setPairState s 2
    raise { s with span := { s.span with splitSince := tb0Time s } } spnPairPage 1
  else s

/-- Record which link is active and start a handover when it changed between two links (R311, R325). -/
def updateActive (s : State) : State :=
  let old := activeLink s
  let new := bestLink s
  if old = new then s
  else
    let s := match old with | none => s | some o => setBit s (spnLinkPage o) 0x114 3 false
    match new with
    | none => { s with span := { s.span with handover := s.span.handover.orElse (fun _ => old) } }
    | some n =>
      let s := setBit (setFld s spnPairPage 0x130 6 4 n) (spnLinkPage n) 0x114 3 true
      let s := { s with span := { s.span with handover := s.span.handover.orElse (fun _ => old) } }
      match s.span.handover with
      | none => s
      | some o =>
        if o = n then { s with span := { s.span with handover := none } }
        else (sendCtrl s n "HANDOVER" [o]).2

/-- UP to LOST (R310, R324). The port's own state machine is told by the caller. -/
def spanLost (s : State) (l : Nat) : State :=
  if !joined s l then s
  else
    let s := raise (setLinkState s l 4) (spnLinkPage l) 1
    splitCheck (updateActive (copyHeld s l))

/-- A custody record made of a frame that a sender holds (R329): counted with 0xA5. -/
def heldRecord (q : Nat) (s : State) (f : Frame) : State :=
  let r := writeCustody s q f true none
  if r.1 then countReason r.2 6 0xA5 else r.2

/-- R329: the unacknowledged frames of a link become records ahead of the port's custody queues, as at port down (R279): what the queue
holds in SRAM or in DRAM becomes records behind them. -/
def heldToCustody (s : State) (l : Nat) : State :=
  match (linkOf s l).port with
  | none => s
  | some port =>
    forEach s (List.range 8) (fun s c =>
      let q := qIdx port c
      let held := (spaceOf s l c).sent
      if held.isEmpty then s
      else
        let s := if (cqOf s q).st < 2 ∧ cstReady s then handOver s q else s
        let old := cqOf s q
        let s := writeAhead s q (fun s => forEach s (held.filterMap (fun e => e.frame)) (heldRecord q)) old.records old.tail
        let new := cqOf s q
        let s := setCq s q { new with st := if 2 ≤ old.st then old.st else if new.records.isEmpty then 0 else if portQ s port = 2 then 2 else 3 }
        let s := setSpace s l c { spaceOf s l c with sent := [] }
        freeOwn (forEach s held (fun s e => releaseSent s l e)) l held)

/-- R329: what a receiver holds beyond rcv_cum is discarded. -/
def dropOoo (s : State) (l : Nat) : State :=
  forEach s (List.range 9) (fun s c =>
    let held := (spaceOf s l c).ooo
    let s := setSpace s l c { spaceOf s l c with ooo := [], oooLearn := [] }
    forEach s (held.filterMap (fun e => e.2.2)) (fun s b => opRelease s .granules b (bufOf s .granules b).owner))

/-- The session ends (R309, R329): held frames to custody, reordered frames discarded, origin-2 entries flushed, source
3, IDLE. [DEDUCED, log 78] -/
def endSession (s : State) : State :=
  if session s = 0 ∧ pairState s = 0 then s
  else
    let s := forEach s (List.range 8) (fun s l => dropOoo (heldToCustody s l) l)
    let s := forEach s (List.range 8) (fun s l => setLink s l { linkOf s l with spaces := [], closed := false, member := false, awaitCum := false, tail := none })
    let s := flushPartner s
    let s := { s with span := { s.span with learn := [], bulk := false, handover := none } }
    let s := wr (wr64 s spnPairPage 0x138 0) spnPairPage 0x140 0
    let s := setBit s spnPairPage 0x130 7 false
    setPairState (raise s spnPairPage 3) 0

end Sys2Proof.Machine
end

