-- ==== Sys2Proof/Machine/MirrorOps.lean ====
section
/-! DEFINITION. Mirror sessions and the copies they make (R477 to R481). -/

namespace Sys2Proof.Machine

/-- max_frame of a port (R78, R112, R116). -/
def maxFrame (s : State) (port : Nat) : Nat :=
  if port < 64 then clampN (fld s (macPage port) 0x104 13 0) 64 12288
  else if port < 104 then clampN (fld s (fpPage port) 0x104 13 0) 64 2048
  else if port ≤ 105 then clampN (fld s (fpPage port) 0x104 13 0) 64 9216
  else 12288

/-- R327: the span link port that frames for the partner are queued on. -/
def spanTarget (s : State) : Option Nat :=
  match activeLink s with
  | some l => (linkOf s l).port
  | none => ((List.range 8).find? (fun l => (linkOf s l).port.isSome)).bind (fun l => (linkOf s l).port)

/-- The 20-byte mirror header (R481). -/
def mirrorHeader (s : State) (i : CopyInfo) (mseq : Nat) : List Byte :=
  beBytes 2 (fld s mirPage 0x100 15 0) ++ beBytes 1 (16 + i.session) ++
  beBytes 1 (i.dir * 128 + b2n i.trunc * 64 + b2n i.cut * 32 + b2n i.dropped * 16 + i.tc * 2) ++ beBytes 1 i.inPort ++
  beBytes 1 i.outPort ++ beBytes 1 i.reason ++ beBytes 1 i.colour ++ beBytes 2 i.origLen ++ beBytes 2 (mseq % 65536) ++
  beBytes 8 i.ts

/-- A copy that is not made for want of granules, or of a partner: counted and source 0. -/
def mirrorRefuse (s : State) (n : Nat) : State := raise (addCounter s mirPage 2 n 1 1) mirPage 0

/-- Add a copy to those that wait for admission. -/
def addCopy (s : State) (c : Copy) : State := { s with admitting := s.admitting ++ [c] }

/-- Session `n` counts an eligible frame that region `region` has for it: true for every sample_n-th (R478). -/
def mirrorSample (s : State) (n : Nat) (f : Frame) (region : Nat) : Bool × State :=
  let e := tget s mirPage 0 0 n
  if n = 0 ∨ !ebit e 255 ∨ !ebit e 2 ∨ f.isMirror ∨ !serving s mirPage ∨ draining s mirPage then (false, s)
  else
    let every := max (efld e 62 47) 1
    let key := n * 16 + region
    let cnt := mapGet (fun _ => 0) s.mirCnt key + 1
    let s := { s with mirCnt := mapSet (fun _ => 0) s.mirCnt key (cnt % every) }
    if cnt % every ≠ 0 then (false, addCounter s mirPage 2 n 3 1) else (true, s)
/-- Session `n` makes and delivers its copy of a frame (R478, R480). [DESIGN CHOICE, log 154] -/
def mirrorMake (s : State) (n : Nat) (f : Frame) (i : CopyInfo) : State :=
  let e := tget s mirPage 0 0 n
  let kind := efld e 1 0
  let port := efld e 11 4
  let target := if kind = 0 then some port else if kind = 1 then some 112 else if kind = 2 then spanTarget s else some 0
  match target with
  | none => mirrorRefuse s n
  | some t =>
    if kind = 2 ∧ pairState s ≠ 1 then mirrorRefuse s n
    else
      let room := if kind = 0 ∨ kind = 2 then maxFrame s t - 4 - 32 - (if kind = 2 then 28 else 0) else f.bytes.length
      let want := if efld e 46 33 = 0 then f.bytes.length else min (efld e 46 33) f.bytes.length
      let len := min want room
      let i := { i with session := n, cut := len < f.bytes.length, origLen := f.bytes.length }
      let mseq := mapGet (fun _ => 0) s.mirSeq n
      let body := f.bytes.take len
      let tc := if kind = 0 ∨ kind = 2 then efld e 14 12 else f.tc
      let bytes := if kind = 0 ∨ kind = 2 then
          beBytes 6 (efld e 111 64) ++ beBytes 6 (efld e 159 112) ++ mirrorHeader s i mseq ++ body
        else body
      let copy : Frame := { f with bytes := bytes, tc := tc, isMirror := true, custody := false, hostCode := efld e 23 16, cause := 0
                                   cut := i.cut, egr := 0, mirror := 0, tsTag := none, complete := true
                                   partner := if kind = 2 then some (1, port) else none }
      match grant s .granules 7 (granulesOf copy) 5 with
      | (none, s) => mirrorRefuse (if kind = 3 then s else qDrop s (qIdx t tc) copy) n
      | (some b, s) =>
        let s := { s with mirSeq := mapSet (fun _ => 0) s.mirSeq n ((mseq + 1) % 65536) }
        let s := addCounter s mirPage 2 n 0 1
        let s := if kind = 3 then opRelease (capWrite s (efld e 27 24) i body) .granules b 7
          else addCopy s { frame := copy, port := t, buf := b }
        if ebit e 28 then capTrigger s (efld e 32 29) else s
/-- Session `n` copies a frame where its sampling says so (R478). -/
def mirrorCopy (s : State) (n : Nat) (f : Frame) (i : CopyInfo) (region : Nat) : State :=
  let r := mirrorSample s n f region
  if r.1 then mirrorMake r.2 n f i else r.2

end Sys2Proof.Machine
end

