-- ==== Sys2Proof/Machine/ParseOps.lean ====
section
/-! DEFINITION. The parser and the rule key (R134 to R148). -/

namespace Sys2Proof.Machine

/-- The parse record of R143 with the fields that the rule key takes. -/
structure Parsed where
  etype : Nat := 0
  outer : Option Nat := none
  inner : Option Nat := none
  sectag : Bool := false
  mplsDepth : Nat := 0
  /-- Top label stack entry, 32 bits. -/
  mplsTop : Nat := 0
  l3 : Nat := 0
  l3Off : Nat := 0
  l4Off : Nat := 0
  appOff : Nat := 0
  proto : Nat := 0
  frag : Bool := false
  l4Valid : Bool := false
  ptp : Bool := false
  ptpMsg : Nat := 0
  ptpDomain : Nat := 0
  appid : Nat := 0
  src : Nat := 0
  dst : Nat := 0
  l4Src : Nat := 0
  l4Dst : Nat := 0
  dscp : Nat := 0
  ecn : Nat := 0
  tcpFlags : Nat := 0
  ttl : Nat := 0
  cond : Nat := 0
  deriving DecidableEq, Repr

/-- What the parser is configured with (R134, R162, R336). -/
structure ParseCfg where
  mplsGuess : Bool
  ptpUdp : Bool
  sectagParse : Bool
  extraTpid : Option Nat
  spanEtype : Nat

def parseCfg (s : State) (k : Nat) : ParseCfg :=
  { mplsGuess := bitAt s (prsPage k) 0x100 0, ptpUdp := bitAt s (prsPage k) 0x100 1
    sectagParse := bitAt s (prsPage k) 0x100 2
    extraTpid := if bitAt s (prsPage k) 0x104 16 then some (fld s (prsPage k) 0x104 15 0) else none
    spanEtype := fld s spnPairPage 0x120 15 0 }

/-- R142: the first condition found is the one carried. -/
def Parsed.note (p : Parsed) (c : Nat) : Parsed := if p.cond = 0 then { p with cond := c } else p

/-- R135: why a header of `n` bytes at `o` is not parsed: `short` beyond the end of the frame, 0x29 beyond the
256-byte window, 0 where it is there. -/
def headerFault (bs : List Byte) (o n short : Nat) : Nat :=
  if bs.length < o + n then short else if 256 < o + n then 0x29 else 0

/-- PTP header at `o` (R134): 34 bytes, the common header of IEEE 1588. [PRESUMED, log 142] -/
def parsePtp (bs : List Byte) (o : Nat) (p : Parsed) : Parsed :=
  let e := headerFault bs o 34 0x31
  if e ≠ 0 then p.note e
  else { p with ptp := true, appOff := o, ptpMsg := beAt bs o 1 % 16, ptpDomain := beAt bs (o + 4) 1 }

/-- UDP, TCP, ICMP and ICMPv6 (R134, R135). -/
def parseL4 (c : ParseCfg) (bs : List Byte) (o : Nat) (p : Parsed) : Parsed :=
  let need := match p.proto with | 17 => 8 | 6 => 20 | 1 | 58 => 4 | _ => 0
  if need = 0 then p
  else
    let e := headerFault bs o need 0x28
    if e ≠ 0 then p.note e
    else
      let p := { p with l4Valid := true, l4Off := o, l4Src := beAt bs o 2
                        l4Dst := if p.proto = 17 ∨ p.proto = 6 then beAt bs (o + 2) 2 else 0
                        tcpFlags := if p.proto = 6 then beAt bs (o + 13) 1 else 0 }
      if p.proto = 17 ∧ c.ptpUdp ∧ (p.l4Dst = 319 ∨ p.l4Dst = 320) then parsePtp bs (o + 8) p else p

/-- The 16-bit ones' complement sum of a header, 0xFFFF when its checksum is right (R138). -/
def onesSum : List Byte → Nat
  | a :: b :: rest =>
    let x := a.toNat * 256 + b.toNat + onesSum rest
    if 0x10000 ≤ x then x - 0xFFFF else x
  | [a] => a.toNat * 256
  | [] => 0

/-- IPv4 (R138, R140). -/
def parseV4 (c : ParseCfg) (bs : List Byte) (o : Nat) (p : Parsed) : Parsed :=
  let e := headerFault bs o 20 0x24
  if e ≠ 0 then p.note e
  else
    let b0 := beAt bs o 1
    let ihl := b0 % 16 * 4
    let total := beAt bs (o + 2) 2
    if b0 / 16 ≠ 4 ∨ ihl < 20 ∨ total < ihl ∨ bs.length - o < total then p.note 0x24
    else if 256 < o + ihl then p.note 0x29
    else
      let p := if onesSum (slice bs o ihl) = 0xFFFF then p else p.note 0x25
      let tos := beAt bs (o + 1) 1
      let p := { p with l3 := 1, l3Off := o, ttl := beAt bs (o + 8) 1, proto := beAt bs (o + 9) 1
                        src := beAt bs (o + 12) 4, dst := beAt bs (o + 16) 4, dscp := tos / 4, ecn := tos % 4 }
      if beAt bs (o + 6) 2 % 0x4000 ≠ 0 then { p.note 0x2A with frag := true }
      else parseL4 c bs (o + ihl) p

/-- IPv6 extension headers, at most two (R139, R140). -/
def parseExt (c : ParseCfg) (bs : List Byte) : Nat → Nat → Nat → Parsed → Parsed
  | left, nh, o, p =>
    if nh = 0 ∨ nh = 43 ∨ nh = 44 ∨ nh = 51 ∨ nh = 60 then
      match left with
      | 0 => { p with proto := nh }.note 0x27
      | left + 1 =>
        let size := if nh = 44 then 8 else if nh = 51 then (beAt bs (o + 1) 1 + 2) * 4 else (beAt bs (o + 1) 1 + 1) * 8
        let e := headerFault bs o (if bs.length < o + 2 then 8 else size) 0x26
        if e ≠ 0 then { p with proto := nh }.note e
        else if nh = 44 then { p with proto := beAt bs o 1, frag := true }.note 0x2A
        else parseExt c bs left (beAt bs o 1) (o + size) p
    else parseL4 c bs o { p with proto := nh }
termination_by structural left => left

/-- IPv6 (R139). -/
def parseV6 (c : ParseCfg) (bs : List Byte) (o : Nat) (p : Parsed) : Parsed :=
  let e := headerFault bs o 40 0x26
  if e ≠ 0 then p.note e
  else
    let w := beAt bs o 4
    if w / 2 ^ 28 ≠ 6 ∨ bs.length - (o + 40) < beAt bs (o + 4) 2 then p.note 0x26
    else
      let cls := w / 2 ^ 20 % 256
      parseExt c bs 2 (beAt bs (o + 6) 1) (o + 40)
        { p with l3 := 2, l3Off := o, ttl := beAt bs (o + 7) 1, src := beAt bs (o + 8) 16, dst := beAt bs (o + 24) 16
                 dscp := cls / 4, ecn := cls % 4 }

/-- MPLS labels from `o` (R134, R137). -/
def parseMpls (c : ParseCfg) (bs : List Byte) : Nat → Nat → Parsed → Parsed
  | 0, _, p => p.note 0x23
  | left + 1, o, p =>
    let e := headerFault bs o 4 0x31
    if e ≠ 0 then p.note e
    else
      let l := beAt bs o 4
      let p := { p with mplsDepth := p.mplsDepth + 1, mplsTop := if p.mplsDepth = 0 then l else p.mplsTop }
      if l / 256 % 2 = 0 then parseMpls c bs left (o + 4) p
      else if !c.mplsGuess then p
      else match beAt bs (o + 4) 1 / 16 with
        | 4 => parseV4 c bs (o + 4) p
        | 6 => parseV6 c bs (o + 4) p
        | _ => p

/-- The payload that EtherType `et` announces at `o` (R134, R141). -/
def parsePayload (c : ParseCfg) (bs : List Byte) (et o : Nat) (p : Parsed) : Parsed :=
  let p := { p with etype := et }
  if et = 0x8847 ∨ et = 0x8848 then parseMpls c bs 4 o p
  else if et = 0x0800 then parseV4 c bs o p
  else if et = 0x86DD then parseV6 c bs o p
  else if et = 0x88F7 then parsePtp bs o p
  else if et = 0x88B8 ∨ et = 0x88BA then
    let e := headerFault bs o 8 0x31
    if e ≠ 0 then p.note e else { p with appOff := o, appid := beAt bs o 2 }
  else if et = c.spanEtype then
    let e := headerFault bs (o - 2) 16 0x31
    p.note (if e ≠ 0 then e else 0x2C)
  else p

/-- Tags and SecTAG from the EtherType at `o` on (R134 to R136). `n` bounds the headers that may follow. -/
def parseL2 (c : ParseCfg) (bs : List Byte) : Nat → Nat → Parsed → Parsed
  | 0, o, p => parsePayload c bs (beAt bs o 2) (o + 2) p
  | n + 1, o, p =>
    let et := beAt bs o 2
    if et = 0x8100 ∨ et = 0x88A8 ∨ c.extraTpid = some et then
      if p.inner.isSome then { p with etype := et }.note 0x22
      else
        let e := headerFault bs o 6 0x31
        if e ≠ 0 then { p with etype := et }.note e
        else
          let tci := beAt bs (o + 2) 2
          parseL2 c bs n (o + 4) (if p.outer.isNone then { p with outer := some tci } else { p with inner := some tci })
    else if et = 0x88E5 ∧ c.sectagParse ∧ !p.sectag then
      let tci := beAt bs (o + 2) 1
      let size := 8 + (if tci / 0x20 % 2 = 1 then 8 else 0)
      let e := headerFault bs o size 0x31
      if e ≠ 0 then { p with etype := et }.note e
      else if tci / 4 % 2 = 1 then { p with etype := et, sectag := true }.note 0x2B
      else parseL2 c bs n (o + size) { p with sectag := true }
    else parsePayload c bs et (o + 2) p

/-- The parse of a frame: two tags, one SecTAG and a third tag's refusal at most before the payload. -/
def parse (c : ParseCfg) (bs : List Byte) : Parsed := parseL2 c bs 4 12 {}

/-- R146: key type. -/
def Parsed.keyType (p : Parsed) : Nat := p.l3

/-- The rule key (R146, R147). -/
def ruleKey (p : Parsed) (bs : List Byte) (inPort pass portClass : Nat) (trunc : Bool) : Nat :=
  let dmac := beAt bs 0 6
  let smac := beAt bs 6 6
  let ot := p.outer.getD 0
  let it := p.inner.getD 0
  let common := p.keyType + inPort % 128 * 2 ^ 4 + pass * 2 ^ 11 + ot / 2 ^ 13 * 2 ^ 12 + ot / 2 ^ 12 % 2 * 2 ^ 15 +
    ot % 4096 * 2 ^ 16 + it % 4096 * 2 ^ 28 + b2n p.outer.isSome * 2 ^ 40 + b2n p.inner.isSome * 2 ^ 41 +
    b2n p.frag * 2 ^ 42 + b2n p.l4Valid * 2 ^ 43 + b2n p.ptp * 2 ^ 44 + b2n p.sectag * 2 ^ 45 +
    b2n (0 < p.mplsDepth) * 2 ^ 46 + b2n trunc * 2 ^ 47 + portClass * 2 ^ 48 + (if p.l3 = 0 then 0 else p.proto) * 2 ^ 56
  match p.keyType with
  | 1 => common + p.src * 2 ^ 64 + p.dst * 2 ^ 96 + p.l4Src * 2 ^ 128 + (if p.proto = 1 ∨ p.proto = 58 then 0 else p.l4Dst) * 2 ^ 144 +
      p.dscp * 2 ^ 160 + p.ecn * 2 ^ 166 + p.tcpFlags * 2 ^ 168 + p.ttl * 2 ^ 176 + dmac * 2 ^ 184 + smac * 2 ^ 232
  | 2 => common + p.src * 2 ^ 64 + p.dst * 2 ^ 192 + p.l4Src * 2 ^ 320 + (if p.proto = 1 ∨ p.proto = 58 then 0 else p.l4Dst) * 2 ^ 336 +
      p.dscp * 2 ^ 352 + p.ecn * 2 ^ 358 + p.tcpFlags * 2 ^ 360 + p.ttl * 2 ^ 368
  | _ => common + dmac * 2 ^ 64 + smac * 2 ^ 112 + p.etype * 2 ^ 160 + p.appid * 2 ^ 176 + p.ptpMsg * 2 ^ 192 +
      p.ptpDomain * 2 ^ 196 + p.mplsTop / 2 ^ 12 * 2 ^ 204 + p.mplsTop / 2 ^ 9 % 8 * 2 ^ 224

end Sys2Proof.Machine
end

