-- ==== Sys2Proof/Machine/PipelineOps.lean ====
section
/-! DEFINITION. One pass of a frame through a pipeline: parsing, classification, metering, VLAN checks, learning and the
forwarding decision, then the copies that go to admission (R142 to R158, R171 to R176, R192 to R195, R260, R327,
R328). -/

namespace Sys2Proof.Machine

/-- R501, R502: the pipeline that serves a region's ports, its partner while they are failed over. -/
def servingPipe (s : State) (k : Nat) : Nat := if k < 4 ∧ bitAt s (iplPage k) 0x100 3 then k ^^^ 1 else k
/-- A page of the pipeline that stands for its issue control. -/
def issuePage (k : Nat) : Nat := if k < 4 then iplPage k else prsPage k
def releaseIngress (s : State) (b : Nat) : State := opRelease s .granules b (bufOf s .granules b).owner
/-- The blocks that every pass goes through. -/
def passPages (k : Nat) : List Nat := [issuePage k, prsPage k, rulPage k, fdbPage k]
def pipeServing (s : State) (k : Nat) : Bool := (passPages k).all (serving s)
/-- A frame that reaches an isolated block of a pipeline is discarded (R160, R488). [DEDUCED, log 44] -/
def pipeShut (s : State) (k : Nat) (pf : PFrame) : State :=
  let s := countReason s (pipeRegion k) 0xE1
  releaseIngress (rxDrop (if k < 4 then inc s (iplPage k) 0x110 else s) (dropPort pf.frame)) pf.buf

/-- R18: ports that no destination may name; the recirculation ports are entered only by recirculation. [DEDUCED, log 58] -/
def reservedPort (p : Nat) : Bool := (106 ≤ p && p ≤ 111) || (114 ≤ p && p ≤ 127)

/-- A frame dropped in a pipeline: counted, and its granules released. -/
def pipeDrop (s : State) (k : Nat) (pf : PFrame) (reason : Nat) : State :=
  releaseIngress (rxDrop (countReason s (pipeRegion k) reason) (dropPort pf.frame)) pf.buf
/-- A frame that reaches a pipeline waits for a slot; one that drains refuses it (R45). [DEDUCED, log 44] -/
def pipeArrive (s : State) (k : Nat) (pf : PFrame) : State :=
  let k := servingPipe s k
  if !pipeServing s k then pipeShut s k pf
  else if (passPages k).any (draining s) then pipeDrop s k pf 0xE1
  else
    let p := pipeOf s k
    setPipe s k { p with arrivals := p.arrivals ++ [pf], waitFrom := if p.arrivals.isEmpty && p.recirc.isEmpty then now s else p.waitFrom }

/-! ### Classification -/

/-- The lowest valid rule of a bank that matches (R148, R157): index and action. -/
def ruleFind (s : State) (k bank key : Nat) : Option (Nat × Nat) :=
  let failed := (pipeOf s k).failed
  ((s.tabs.filter (fun e => keyPage e.1 == rulPage k && keySel e.1 == 0 && keyBank e.1 == bank)).find? (fun e =>
    ebit e.2 895 && !failed.contains e.1 && ((key ^^^ efld e.2 383 0) &&& efld e.2 767 384) == 0)).map
    (fun e => (keyIdx e.1, efld e.2 895 768))

/-- R145 step 1: class and colour by the trust setting. -/
def trustClass (s : State) (k bank : Nat) (f : Frame) (p : Parsed) : Nat × Nat :=
  if f.viaSpan.isSome then f.spanClass
  else
    let e := tget s (rulPage k) 1 bank f.ingress
    let trust := if efld e 25 24 = 3 then 0 else efld e 25 24
    let cls (pcp : Nat) : Nat := efld e (3 * pcp + 2) (3 * pcp)
    if trust = 2 then (cls (efld e 28 26), 0)
    else if trust = 1 ∧ p.l3 ≠ 0 then
      let d := tget s (rulPage k) 2 bank (efld e 31 30 * 64 + p.dscp)
      (efld d 2 0, if efld d 4 3 = 3 then 0 else efld d 4 3)
    else
      let t := p.outer.getD (efld e 28 26 * 2 ^ 13)
      (cls (t / 2 ^ 13), if ebit e 29 ∧ t / 2 ^ 12 % 2 = 1 then 1 else 0)

/-- R471: the rule counter named by an action. -/
def ruleCount (s : State) (k idx len : Nat) : State :=
  let blk := idx / 4096
  addCounter s (cntPage k) 0 idx 0 (if bitAt s (cntPage k) (0x100 + blk / 32 * 4) (blk % 32) then len else 1)

/-- R172: the VID of a frame in pipeline `k`. -/
def frameVid (s : State) (k : Nat) (f : Frame) (p : Parsed) : Nat :=
  match p.outer with
  | some t => if t % 4096 = 0 then efld (tget s (fdbPage k) 4 0 f.ingress) 11 0 else t % 4096
  | none => efld (tget s (fdbPage k) 4 0 f.ingress) 11 0
/-- R172: the check that a frame fails; 0 where it passes all three. -/
def vlanCheck (s : State) (k : Nat) (f : Frame) (p : Parsed) : Nat :=
  let acc := efld (tget s (fdbPage k) 4 0 f.ingress) 13 12
  let tagged := match p.outer with | some t => decide (t % 4096 ≠ 0) | none => false
  let v := tget s (fdbPage k) 1 0 (frameVid s k f p)
  if (acc = 1 ∧ !tagged) ∨ (acc = 2 ∧ tagged) then 0x45
  else if !ebit v 319 then 0x46
  else if f.ingress ≠ 112 ∧ f.ingress ≠ 113 ∧ !ebit v f.ingress then 0x45
  else 0

/-! ### The destination -/

/-- What a pass decides for a frame. -/
inductive Fate where
  | drop (reason : Nat)
  /-- To the host port with its host code and the reason of the trap (R438, R443). -/
  | host (code cause : Nat)
  | port (p : Nat)
  | group (g : Nat)
  /-- Another pass: why, and the LPM length reached. -/
  | again (stage arg : Nat)
  deriving DecidableEq, Repr

/-- R194: what a next hop does with a frame. The frame carries the entry to its egress pipeline. -/
def nextHop (s : State) (k : Nat) (f : Frame) (p : Parsed) (nh : Nat) : Fate × Frame :=
  let e := tget s (lpmPage k) 3 0 nh
  if !ebit e 127 then (.drop 0x4E, f)
  else if efld e 65 64 = 2 then (.host 0 0x51, f)
  else if efld e 65 64 = 3 then (.drop 0x50, f)
  else if efld e 65 64 = 0 ∧ reservedPort (efld e 73 66) then (.drop 0x56, f)
  else if !ebit e 82 ∧ p.ttl ≤ 1 then (.host 0 0x4D, f)
  else
    let f := { f with egr := 2, route := e.toNat, vid := some (efld e 59 48) }
    if efld e 65 64 = 0 then (.port (efld e 73 66), f) else (.group (efld e 81 66), f)

/-- The route lookup (R192, R193). -/
def route (s : State) (k : Nat) (pf : PFrame) (p : Parsed) (pass : Nat) : Fate × Frame × State :=
  let v6 := p.l3 == 2
  let below := if pass = 1 ∧ pf.stage = 2 then pf.arg else 200
  let r := lpmProbes s k v6 p.dst 3 (lpmCandidates s k v6 p.dst below) 0
  let s := r.2
  match r.1 with
  | .hit nh =>
    let n := nextHop s k pf.frame p nh
    (n.1, n.2, s)
  | .none =>
    let o := if v6 then 0x108 else 0x104
    if bitAt s (lpmPage k) o 31 then
      let n := nextHop s k pf.frame p (fld s (lpmPage k) o 15 0)
      (n.1, n.2, s)
    else (.drop 0x4A, pf.frame, raise (inc s (lpmPage k) 0x114) (lpmPage k) 2 0x4A)
  | .more last =>
    if pass = 0 then (.again 2 last, pf.frame, raise (inc (countReason s (pipeRegion k) 0x4B) (lpmPage k) 0x10C) (lpmPage k) 3 0x4B)
    else (.host 0 0x4C, pf.frame, raise (inc s (lpmPage k) 0x110) (lpmPage k) 0 0x4C)

/-- R173: the dmac matches a router MAC. -/
def routerMac (s : State) (k dmac : Nat) : Bool :=
  (List.range 16).any (fun i => let e := tget s (fdbPage k) 3 0 i; ebit e 63 && efld e 47 0 == dmac)

/-- Bridging by the FDB (R173, R176). `localOnly` restricts the result to local ports (R328). -/
def bridge (s : State) (k : Nat) (f : Frame) (vlan : Entry) (dmac : Nat) (localOnly : Bool) : Fate × Frame × State :=
  let f := { f with egr := 1 }
  let key := fdbKey (efld vlan 267 256) dmac
  let s := fdbRead s k key id
  let flood : Fate := .group (efld vlan 285 270)
  match fdbFind s k key with
  | some i =>
    let e := fdbAt s k i
    let s := dstRefresh s k i
    match efld e 69 68 with
    | 0 =>
      let d := efld e 77 70
      if localOnly ∧ 128 ≤ d then (.drop 0xBD, f, s)
      else if reservedPort d then (.drop 0x56, f, s)
      else if d = f.ingress then (.drop 0x55, f, s)
      else (.port d, f, s)
    | 1 => (.group (efld e 85 70), f, s)
    | 2 => (.drop 0x47, f, s)
    | _ => (.host 0 0x48, f, s)
  | none =>
    if dmac = 2 ^ 48 - 1 then (flood, f, s)
    else if dmac / 2 ^ 40 % 2 = 1 then (.group (efld vlan 301 286), f, s)
    else (flood, f, countReason s (pipeRegion k) 0x40)

/-- The destination decision of a frame's last pass (R173, R328). -/
def decideDest (s : State) (k : Nat) (pf : PFrame) (p : Parsed) (pass : Nat) (vlan : Entry) : Fate × Frame × State :=
  let f := pf.frame
  let dmac := beAt f.bytes 0 6
  match f.viaSpan, f.partner with
  | some _, some (1, d) =>
    let f' := { f with partner := none }
    if isSpanPort s d then (.drop 0xBA, f', s)
    else if d ≤ 105 ∨ d = 112 ∨ d = 113 then (.port d, { f' with egr := 1 }, s)
    else (.drop 0xBD, f', s)
  | some _, some (2, g) => (.group g, { f with partner := none, egr := 1 }, s)
  | via, _ =>
    let enabled := (p.l3 = 1 ∧ bitAt s (lpmPage k) 0x100 0) ∨ (p.l3 = 2 ∧ bitAt s (lpmPage k) 0x100 1)
    if via.isNone ∧ ebit vlan 269 ∧ enabled ∧ routerMac s k dmac then
      if serving s (lpmPage k) then route s k pf p pass
      else (.drop 0xE1, f, if k < 4 then inc s (iplPage k) 0x110 else s)
    else bridge s k f vlan dmac via.isSome

/-! ### Copies -/

/-- A frame for the partner goes to the span link port (R327). -/
def portFrame (s : State) (f : Frame) (p : Nat) : Option (Nat × Frame) :=
  if p < 128 then some (p, f)
  else if f.viaSpan.isSome then none
  else (spanTarget s).map (fun t => (t, { f with partner := some (1, p - 128) }))
/-- A list entry of REP fails parity. -/
def listBad (s : State) (i : Nat) : Bool := (pipeOf s 5).failed.contains (tabKey repPage 1 0 i)
/-- The copies of a group (R174, R195, R327, R328), or none where it is invalid. [DEDUCED, log 59; DEDUCED, log 60] -/
def groupCopies (s : State) (f : Frame) (g : Nat) : Option (List (Nat × Frame)) :=
  let e := tget s repPage 0 0 g
  if !ebit e 191 || (pipeOf s 5).failed.contains (tabKey repPage 0 0 g) then none
  else
    let bridged := f.egr = 1
    let keep (p : Nat) : Bool :=
      !(reservedPort p) && !(bridged && p == f.ingress) && !(f.viaSpan.isSome && isSpanPort s p)
    let fromMask := ((onesOf 128 (efld e 127 0)).filter keep).map (fun p => (p, f))
    let fromList := (List.range (efld e 155 148)).filterMap (fun i =>
      let x := tget s repPage 1 0 (efld e 147 130 + i)
      if ebit x 31 && !listBad s (efld e 147 130 + i) && keep (efld x 7 0) then
        portFrame s ({ f with vid := some (efld x 19 8), listVid := true, untag := ebit x 20 } : Frame) (efld x 7 0)
      else none)
    let toPartner := if ebit e 128 && f.viaSpan.isNone then (spanTarget s).toList.map (fun p => (p, ({ f with partner := some (2, g) } : Frame))) else []
    some (fromMask ++ fromList ++ toPartner)

/-- REP source 1 for a group whose list has an entry that fails parity: that entry makes no copy (R195, R199). -/
def groupParity (s : State) (g : Nat) : State :=
  let e := tget s repPage 0 0 g
  if (List.range (efld e 155 148)).any (fun i => listBad s (efld e 147 130 + i)) then raise s repPage 1 0 else s

/-- Copies that share the buffer `buf`, one reference each, go to admission as one job; `refused` copies are gone. [DEDUCED, log 124] -/
def queueCopies (s : State) (ingress buf refused : Nat) (copies : List (Nat × Frame)) : State :=
  let s := opAddref s .granules buf (bufOf s .granules buf).owner copies.length
  let id := s.nextId
  let s := { s with nextId := id + 1, jobs := s.jobs ++ [({ id := id, ingress := ingress, left := copies.length, refused := refused, buf := buf } : McJob)] }
  { s with admitting := s.admitting ++ copies.map (fun c => ({ frame := c.2, port := c.1, buf := buf, job := some id } : Copy)) }

/-- Several copies share one buffer, which passes to REP (R260): each holds a reference. Where REP's quota refuses it,
every copy is refused, and those of a custody class go to the custody store (R261). [DEDUCED, log 124] -/
def replicate (s : State) (ingress buf : Nat) (copies : List (Nat × Frame)) : State :=
  match copies with
  | [] => releaseIngress (rxDrop s ingress) buf
  | _ =>
    let x := bufOf s .granules buf
    let v := handoverVerdict s .granules x.owner 12 x.size
    let none' (s : State) : State := releaseIngress (rxDrop (inc (countReason s 5 0x8B) repPage 0x104) ingress) buf
    if !serving s repPage ∨ draining s repPage then none' (countReason s 5 0xE1)
    else if v = 0 then queueCopies (moveOwner s .granules buf 12) ingress buf 0 copies
    else
      let toStore := copies.filter (fun c => marked s (qIdx c.1 c.2.tc))
      let refused := copies.length - toStore.length
      let s := forEach (grantFailed s .granules v 5) (List.range (refused - 1)) (fun s _ => countReason s 5 v)
      let s := forEach s (copies.filter (fun c => !marked s (qIdx c.1 c.2.tc))) (fun s c => qDrop s (qIdx c.1 c.2.tc) c.2)
      if toStore.isEmpty then none' s else queueCopies s ingress buf refused toStore


/-- Hand a frame and its extra host copy to admission. -/
def deliver (s : State) (k : Nat) (pf : PFrame) (f : Frame) (fate : Fate) (copyHost : Option Nat) : State :=
  let hostOf (code cause : Nat) : Nat × Frame := (112, { f with egr := 0, hostCode := code, cause := cause, partner := none })
  let extra := copyHost.toList.map (fun c => hostOf c 0)
  let one (m : Option (Nat × Frame)) : State :=
    match m, extra with
    | some c, [] => addCopy s { frame := c.2, port := c.1, buf := pf.buf }
    | some c, x => replicate s (dropPort f) pf.buf (c :: x)
    | none, [x] => addCopy (countReason s (pipeRegion k) 0xBD) { frame := x.2, port := x.1, buf := pf.buf }
    | none, _ => pipeDrop s k pf 0xBD
  match fate with
  | .port p => one (portFrame s f p)
  | .host code cause =>
    let s := if cause = 0 then s else countReason s (pipeRegion k) cause
    match extra with
    | [] => addCopy s { frame := (hostOf code cause).2, port := 112, buf := pf.buf }
    | x => replicate s (dropPort f) pf.buf (hostOf code cause :: x)
  | .group g =>
    match groupCopies s f g with
    | some cs => replicate (groupParity s g) (dropPort f) pf.buf (cs ++ extra)
    | none =>
      let s := raise s repPage 0 0x52
      let s := if (pipeOf s 5).failed.contains (tabKey repPage 0 0 g) then raise s repPage 1 0x52 else s
      (match extra with
       | [x] => addCopy (countReason s 5 0x52) { frame := x.2, port := x.1, buf := pf.buf }
       | _ => releaseIngress (rxDrop (countReason s 5 0x52) (dropPort pf.frame)) pf.buf)
  | .drop r =>
    match extra with
    | [x] => addCopy (countReason s (pipeRegion k) r) { frame := x.2, port := x.1, buf := pf.buf }
    | _ => pipeDrop s k pf r
  | .again _ _ => s

/-- The ingress mirror copy, made when the last pass ends (R477). A frame that has not ended yet may still fail its
FCS, so its copy waits. -/
def ingressMirror (s : State) (k : Nat) (f : Frame) (dropped : Nat) : State :=
  let n := if f.mirror = 0 ∧ f.ingress ≤ 105 then efld (tget s mirPage 1 0 f.ingress) 3 0 else f.mirror
  let i : CopyInfo := { session := n, dir := 0, trunc := f.trunc, cut := false, dropped := dropped != 0, inPort := f.ingress
                        outPort := 0xFF, reason := dropped, tc := f.tc, colour := f.colour, origLen := f.bytes.length, ts := f.ts }
  if f.complete then mirrorCopy s n f i (pipeRegion k)
  else { s with mirHeld := s.mirHeld ++ [{ frame := f, info := i, region := pipeRegion k }] }

/-- The copy for the host of a frame that goes on to another pass (R149): granules of its own. -/
def copyAhead (s : State) (f : Frame) (copyHost : Option Nat) : State :=
  match copyHost with
  | none => s
  | some c => match grant s .granules 7 (granulesOf f) 5 with
    | (none, s) => s
    | (some b, s) => addCopy s { frame := { f with hostCode := c, egr := 0, partner := none }, port := 112, buf := b }
/-- The frame enters the recirculation FIFO of its pipeline (R155, R158), or is dropped with 0x2E. [DEDUCED, log 59] -/
def recirculate (s : State) (k : Nat) (pf : PFrame) : State :=
  let p := pipeOf s k
  if (if k < 4 then 512 else 256) ≤ p.recirc.length then pipeDrop (raise s (prsPage k) 2 0x2E) k pf 0x2E
  else
    let s := setPipe s k { p with recirc := p.recirc ++ [{ pf with since := now s }], rul := p.rul.add pf.bank, mtr := p.mtr.add pf.mtrBank }
    let n := p.recirc.length + 1
    let s := setFld s (prsPage k) 0x10C 9 0 n
    setFld s (prsPage k) 0x10C 25 16 (max n (fld s (prsPage k) 0x10C 25 16))

/-! ### A pass -/

/-- trap_code of the copy that an action makes for the host (R149). -/
def copyOf (act : Nat) : Option Nat := if bitOf act 127 ∧ bitOf act 19 then some (bitsOf act 27 20) else none
/-- After the rule lookup, meters and filters: VLAN checks, learning, the decision and the copies. `act` is the rule
action, 0 without a match. [DEDUCED, log 59] -/
def passForward (s : State) (k pass : Nat) (pf : PFrame) (p : Parsed) (act : Nat) : State :=
  let f := pf.frame
  let hit := bitOf act 127
  let verdict := if hit then bitsOf act 1 0 else 0
  let chk := vlanCheck s k f p
  let vid := frameVid s k f p
  let vlan := tget s (fdbPage k) 1 0 vid
  let smac := beAt f.bytes 6 6
  let s :=
    if pass = 0 ∧ chk = 0 ∧ verdict ≠ 1 ∧ verdict ≠ 3 ∧ f.viaSpan.isNone ∧ !(hit && bitOf act 76) ∧ ebit vlan 268 ∧
        bitAt s (fdbPage k) 0x100 0 ∧ bitAt s (fdbPage k) (0x130 + f.ingress / 32 * 4) (f.ingress % 32) then
      (if smac ≠ 0 ∧ smac / 2 ^ 40 % 2 = 0 then learn s k (efld vlan 267 256) smac f.ingress
       else countReason s (pipeRegion k) 0x44)
    else s
  let f := { f with vid := some vid }
  let pf := { pf with frame := f }
  let copyHost := copyOf act
  if hit ∧ bitOf act 75 ∧ pass = 1 then
    deliver (ingressMirror (raise s (prsPage k) 1 0x2D) k f 0x2D) k pf f (.drop 0x2D) copyHost
  else if verdict = 1 then deliver (ingressMirror s k f 0x20) k pf f (.drop 0x20) copyHost
  else if verdict = 3 then
    deliver (ingressMirror s k f 0) k pf f (.host (bitsOf act 27 20) 0x21) copyHost
  else if verdict = 0 ∧ chk ≠ 0 then
    deliver (ingressMirror (raise s (fdbPage k) 4 chk) k f chk) k pf f (.drop chk) copyHost
  else if hit ∧ bitOf act 75 then recirculate (copyAhead s f copyHost) k { pf with stage := 1, arg := 0 }
  else if verdict = 2 then
    let fate : Fate := if bitOf act 2 then .group (bitsOf act 18 3)
      else if reservedPort (bitsOf act 10 3) then .drop 0x30 else .port (bitsOf act 10 3)
    let f' := { f with egr := if bitOf act 2 then 1 else 0 }
    deliver (ingressMirror s k f (match fate with | .drop r => r | _ => 0)) k pf f' fate copyHost
  else
    let d := decideDest s k pf p pass vlan
    match d.1 with
    | .again stage arg => recirculate (copyAhead d.2.2 f copyHost) k { pf with frame := d.2.1, stage := stage, arg := arg }
    | fate => deliver (ingressMirror d.2.2 k f (match fate with | .drop r => r | _ => 0)) k pf d.2.1 fate copyHost

/-- A slot is issued (R160). -/
def useSlot (s : State) (k pass : Nat) : State :=
  let s := setPipe s k { pipeOf s k with waitFrom := now s, slotsUsed := (pipeOf s k).slotsUsed + 1 }
  if k < 4 then inc s (iplPage k) (if pass = 0 then 0x104 else 0x108) else s
/-- A pass (R142 to R158). -/
def runPass (s : State) (k pass : Nat) (pf : PFrame) : State :=
  let s := useSlot s k pass
  let p := parse (parseCfg s k) pf.frame.bytes
  let drops := p.cond ≠ 0 ∧ bitAt s (prsPage k) 0x108 (p.cond - 0x20)
  if drops then pipeDrop (raise s (prsPage k) 0 p.cond) k pf p.cond
  else
    let s := if p.cond = 0 then s else countReason s (pipeRegion k) p.cond
    let pipe := pipeOf s k
    let bank := if pass = 0 then pipe.rul.active else pf.bank
    let mbank := if pass = 0 then pipe.mtr.active else pf.mtrBank
    let x := if pass = 0 then stampFrame s pf.frame else (pf.frame, s)
    let s := x.2
    let f := if pass = 0 then { x.1 with epoch := pipe.rul.epoch, mtrEpoch := pipe.mtr.epoch } else { x.1 with pass := 1 }
    let cls := efld (tget s (rulPage k) 1 bank f.ingress) 39 32
    let key := ruleKey p f.bytes f.ingress pass cls f.trunc
    let t := trustClass s k bank f p
    let act := match ruleFind s k bank key with | none => 0 | some r => r.2
    let hit := bitOf act 127
    if hit ∧ (bitOf act 39 ∨ bitOf act 77) ∧ !serving s (mtrPage k) then pipeShut s k pf else
    let tc := if hit ∧ bitOf act 32 then bitsOf act 35 33 else t.1
    let col := if hit ∧ bitOf act 36 then (if bitsOf act 38 37 = 3 then 0 else bitsOf act 38 37) else t.2
    let len := frameLen f
    let range (s : State) : State := raise (countReason s (pipeRegion k) 0x30) (rulPage k) 6 0x30
    let s := if hit ∧ bitOf act 56 then
        (if bitsOf act 74 57 < counterCount k then ruleCount s k (bitsOf act 74 57) len else range s) else s
    let m : Nat × Bool × State :=
      if hit ∧ bitOf act 39 then
        (if bitsOf act 55 40 < meterCount k then meterUse s k mbank (bitsOf act 55 40) col len else (col, false, range s))
      else (col, false, s)
    let s := m.2.2
    let f : Frame := { f with tc := tc, colour := m.1, mirror := if hit ∧ bitsOf act 31 28 ≠ 0 then bitsOf act 31 28 else f.mirror }
    let pf := { pf with frame := f, bank := bank, mtrBank := mbank }
    let s := match (bufOf s .granules pf.buf).charge with
      | some (port, 8) => charge s pf.buf port (some tc) (bufOf s .granules pf.buf).size
      | _ => s
    if pass == 0 && decide (f.ingress < 64) && overLimit s f.ingress (some tc) then pipeDrop (ingressMirror s k f 0x66) k pf 0x66
    else if m.1 = 2 ∧ m.2.1 then
      deliver (ingressMirror (raise (inc s (mtrPage k) 0x108) (mtrPage k) 0 0x84) k f 0x84) k pf f (.drop 0x84) (copyOf act)
    else if hit ∧ bitOf act 77 then
      let r := streamFilter s k mbank (bitsOf act 89 78) (restore s f.ts) len tc m.1
      if r.1 ≠ 0 then deliver (ingressMirror r.2.2.2 k f r.1) k pf f (.drop r.1) (copyOf act)
      else passForward r.2.2.2 k pass { pf with frame := { f with tc := r.2.1, colour := r.2.2.1 } } p act
    else passForward s k pass pf p act

/-- Issue slots of a line pipeline that nothing used since they were last counted: each half that is ON issues one each cycle of 1.6 GHz,
which is 96 base units (R21, R160). -/
def idleSlots (s : State) (k : Nat) : Nat :=
  (now s - (pipeOf s k).idleFrom) / 96 * (b2n (domOn s (12 * k + 10)) + b2n (domOn s (12 * k + 11))) - (pipeOf s k).slotsUsed
/-- They enter IPL_IDLE. -/
def settleIdle (s : State) (k : Nat) : State :=
  if 4 ≤ k then s
  else setPipe (addSat s (iplPage k) 0x10C 31 0 (idleSlots s k)) k { pipeOf s k with idleFrom := now s, slotsUsed := 0 }
/-- PIPELINE_PASS: the oldest arrival makes its pass 0 (R142 to R151). -/
def pipelinePass (s : State) (k : Nat) : State :=
  let p := pipeOf s k
  match p.arrivals with
  | [] => s
  | pf :: rest =>
    let t := setPipe s k { p with arrivals := rest }
    if pipeServing s k then runPass t k 0 pf else pipeShut t k pf

/-- A frame leaves the recirculation FIFO: its banks' counters fall (R154). -/
def popRecirc (s : State) (k : Nat) (pf : PFrame) (rest : List PFrame) : State :=
  let p := pipeOf s k
  setFld (setPipe s k { p with recirc := rest, rul := p.rul.sub pf.bank, mtr := p.mtr.sub pf.mtrBank }) (prsPage k) 0x10C 9 0 rest.length

/-- RECIRC_ISSUE: the oldest frame of the FIFO makes its pass 1 (R154, R155, R158). -/
def recircIssue (s : State) (k : Nat) : State :=
  match (pipeOf s k).recirc with
  | [] => s
  | pf :: rest => if pipeServing s k then runPass (popRecirc s k pf rest) k 1 pf else pipeShut (popRecirc s k pf rest) k pf

/-- RECIRC_STALE: the oldest frame has waited 4 µs (R155). -/
def recircStale (s : State) (k : Nat) : State :=
  match (pipeOf s k).recirc with
  | [] => s
  | pf :: rest => pipeDrop (raise (popRecirc s k pf rest) (prsPage k) 3 0x2F) k pf 0x2F

end Sys2Proof.Machine
end

