-- ==== Sys2Proof/Machine/TimeOps.lean ====
section
/-! DEFINITION. Time bases: changes and their spacing (R345 to R350), slews (R347), the servo (R352 to R354),
conversion and capture (R357, R360, R370), the time I/O pins (R365, R366) and the SyncE outputs (R367). -/

namespace Sys2Proof.Machine

/-! ### Values -/

/-- Seconds, nanoseconds and fraction of a time in 2^-32 ns (R342). -/
def secOf (v : Int) : Nat := (v / (2 ^ 32 * 10 ^ 9 : Nat)).toNat % 2 ^ 64
def nsOf (v : Int) : Nat := (v / (2 ^ 32 : Nat) % (10 ^ 9 : Nat)).toNat
def fracOf (v : Int) : Nat := (v % (2 ^ 32 : Nat)).toNat
/-- The time of three fields. -/
def timeOf (sec ns frac : Nat) : Nat := (sec * 10 ^ 9 + ns) * 2 ^ 32 + frac

/-! ### Changes -/

/-- The mode of a time base: SERVO or not (R371). -/
def servoMode (s : State) (k : Nat) : Bool := fld s (tbPage k) 0x100 1 0 == 1
def servoState (s : State) (k : Nat) : Nat := fld s (tbPage k) 0x104 6 4
/-- Enter a servo state; LOCKED entered and left, and HOLDOVER, are raised (R353). -/
def setServo (s : State) (k st : Nat) : State :=
  let old := servoState s k
  let s := setFld s (tbPage k) 0x104 6 4 st
  let s := if old = 3 ∧ st ≠ 3 then raise s (tbPage k) 3 else s
  let s := if old ≠ 3 ∧ st = 3 then raise s (tbPage k) 2 else s
  if old ≠ 4 ∧ st = 4 then raise s (tbPage k) 4 else s

/-- The sum of R343 before clamping, in 2^-8 ppb. -/
def fSum (t : TimeBase) : Int := t.f + t.slew * 256
/-- The end of the slew in progress, fixed again from the present anchor (R347). -/
def slewEndAt (t : TimeBase) : Nat :=
  let d := ((rateWord (fSum t) : Int) - rateWord t.f).natAbs
  if d = 0 then 2 ^ 96 else t.ba + ceilDiv (ceilDiv (t.slewLeft.natAbs * 2 ^ 32) d) 256 * 256
/-- What the slew in progress adds to the time base in `d` base units, in 2^-32 ns. -/
def slewRun (t : TimeBase) (d : Int) : Int :=
  if t.slew = 0 then 0 else ((rateWord (fSum t) : Int) - rateWord t.f) * d / (2 ^ 32 : Nat)
/-- R345: re-anchor at `b`, with the remainder of the slew; a slew that has ended by then is gone. -/
def reanchor (t : TimeBase) (b : Nat) : TimeBase :=
  let past := decide (t.slewEnd ≤ b)
  { t with ta := (tbLinear t b).toNat, ba := b, slewLeft := t.slewLeft - slewRun t (((if past then t.slewEnd else b : Nat) : Int) - t.ba)
           slew := if past then 0 else t.slew, run := t.run + ranOn t t.runBc b, runBc := b }
/-- The rate word, and the slew's end, from the present f (R343, R347). -/
def refix (t : TimeBase) : TimeBase :=
  let t := { t with rate := rateWord (fSum t) }
  if t.slew = 0 then t else { t with slewEnd := slewEndAt t }

/-- TB_STAT.clamped and slewing, and SRV_FREQ, follow the f in force; the clamp raises source 5 (R343, R371). -/
def noteF (s : State) (k : Nat) (f : Int) (slewing : Bool) : State :=
  let was := bitAt s (tbPage k) 0x104 8
  let cl := decide (256000000 < f.natAbs)
  let s := setBit s (tbPage k) 0x104 8 cl
  let s := if cl ∧ !was then raise s (tbPage k) 5 else s
  let s := setBit s (tbPage k) 0x104 7 slewing
  wr s (tbPage k) 0x168 (BitVec.ofNat 32 (unsignedOf 32 (clampI f (-256000000) 256000000)))

/-- A change applies now (R345): re-anchored, changed by `g`, a new generation; TB_STAT.clamped follows (R343). -/
def applyChange (s : State) (k : Nat) (g : TimeBase → TimeBase) : State :=
  let t := tbOf s k
  let old := (t.lastChange.getD 0, t.ta, t.ba, t.rate, rateWord t.f, if t.slew = 0 then 0 else t.slewEnd)
  let t' := refix (g (reanchor t (now s)))
  let t' := { t' with lastChange := some (now s), gens := (old :: t.gens).take 7 }
  let s := noteF (setTb s k t') k (fSum t') (t'.slew != 0)
  setFld s (tbPage k) 0x104 31 24 (fld s (tbPage k) 0x104 31 24 + 1)

/-- R346: a set or step is refused while step_lock is 1 and the base has been stepped. -/
def stepLocked (s : State) (k : Nat) : Bool := bitAt s (tbPage k) 0x100 2 && bitAt s (tbPage k) 0x104 1
def stepRefused (s : State) (k : Nat) : State := raise (setBit s (tbPage k) 0x104 2 true) (tbPage k) 1
/-- After an accepted set or step: valid and stepped, source 0; CST keeps the instant TB0 became valid (R280, R344). [DEDUCED, log 83] -/
def markStepped (s : State) (k : Nat) : State :=
  let s := if k = 0 ∧ !tbValid s 0 then { s with cust := { s.cust with tb0ValidAt := tb0Ns s (now s) } } else s
  let s := setBit (setBit s (tbPage k) 0x104 0 true) (tbPage k) 0x104 1 true
  raise s (tbPage k) 0
/-- R349: a set or step by register or lift returns a servo to ACQUIRE; its integrator is kept, and with it the
frequency estimate it holds. -/
def servoAgain (s : State) (k : Nat) : State :=
  if servoMode s k ∧ servoState s k ≠ 0 then
    setServo (setTb s k { tbOf s k with haveTheta := (tbOf s k).haveTheta && (tbOf s k).haveEst, locks := 0 }) k 1
  else s

/-- One set, set now or step, judged on its own (R346). -/
def applySet (s : State) (k : Nat) (g : TimeBase → TimeBase) : Bool × State :=
  if stepLocked s k then (false, stepRefused s k)
  else (true, servoAgain (markStepped (applyChange s k g) k) k)

/-- The modulus of a time value (R342: 64-bit seconds). -/
abbrev timeMod : Int := (2 ^ 64 * 10 ^ 9 * 2 ^ 32 : Nat)
def addTime (ta : Nat) (d : Int) : Nat := (((ta : Int) + d) % timeMod).toNat

/-- The changes that are held, or made at once, in the order of R348; the flag says that a held step was accepted. -/
def applyHeld (s : State) (k : Nat) : Bool × State :=
  let h := tbOf s k
  let s := setTb s k { h with heldSet := none, heldSetNow := none, heldStep := none, heldRate := none, heldServo := none
                              heldSlew := none, heldLifts := [] }
  let s := match h.heldSet with
    | none => s
    | some (v, b) => (applySet s k (fun t => { t with ta := v, ba := b, slewLeft := t.slewLeft + slewRun t ((t.ba : Int) - b) })).2
  let s := match h.heldSetNow with
    | none => s
    | some v => (applySet s k (fun t => { t with ta := v })).2
  let r : Bool × State := match h.heldStep with
    | none => (true, s)
    | some d => applySet s k (fun t => { t with ta := addTime t.ta (d * (2 ^ 16 : Nat)) })
  let s := r.2
  let s := match h.heldRate with
    | none => s
    | some f => applyChange s k (fun t => { t with f := f })
  let s := match h.heldServo with
    | none => s
    | some f => applyChange s k (fun t => { t with f := f })
  let s := match h.heldSlew with
    | none => s
    | some (amt, rate) =>
      applyChange s k (fun t => { t with slew := if amt < 0 then -(rate : Int) else if amt = 0 then 0 else (rate : Int)
                                         slewLeft := amt * (2 ^ 32 : Nat) })
  (r.1, { s with stepped := s.stepped ++ h.heldLifts.map (fun i => (i, r.1)) })

/-- R348: changes take effect at least 500 µs apart; those of one CK_TIME cycle take effect together. [DESIGN CHOICE, log 5] -/
def mayChange (s : State) (k : Nat) : Bool :=
  match (tbOf s k).lastChange with
  | none => true
  | some b => now s == b || decide (usUnits 500 ≤ now s - b)
/-- A change is requested: `hold` records it among the held changes, which apply at once where R348 lets them. -/
def requestChange (s : State) (k : Nat) (hold : TimeBase → TimeBase) : State :=
  let s := setTb s k (hold (tbOf s k))
  if mayChange s k then (applyHeld s k).2 else s

/-- A set discards the steps held before it, those of lifts among them (R348). [DEDUCED, log 83] -/
def dropSteps (s : State) (k : Nat) : State :=
  let t := tbOf s k
  setTb { s with stepped := s.stepped ++ t.heldLifts.map (fun i => (i, false)) } k { t with heldStep := none, heldLifts := [] }
/-- TB_CMD.set (R346). -/
def reqSet (s : State) (k : Nat) : State :=
  let s := dropSteps s k
  let p := tbPage k
  let v := timeOf (rd64 s p 0x110) (fld s p 0x118 29 0) (rd s p 0x11C).toNat
  requestChange s k (fun t => { t with heldSet := some (v, restore s (rd64 s p 0x120)) })
def reqSetNow (s : State) (k : Nat) : State :=
  let s := dropSteps s k
  let p := tbPage k
  let v := timeOf (rd64 s p 0x110) (fld s p 0x118 29 0) (rd s p 0x11C).toNat
  requestChange s k (fun t => { t with heldSetNow := some v })
/-- A step of `d` in 2^-16 ns; steps accumulate (R348). -/
def reqStep (s : State) (k : Nat) (d : Int) : State :=
  requestChange s k (fun t => { t with heldStep := some (t.heldStep.getD 0 + d) })
/-- TB_FREQ: ignored in SERVO mode (R349). -/
def wrIgnored (s : State) (k : Nat) : State := setBit s (tbPage k) 0x104 3 true
def reqRate (s : State) (k : Nat) : State :=
  if servoMode s k then wrIgnored s k
  else requestChange s k (fun t => { t with heldRate := some (clampI (signedOf 32 (rd s (tbPage k) 0x138).toNat) (-256000000) 256000000) })
/-- TB_CMD.slew (R347, R349). -/
def reqSlew (s : State) (k : Nat) : State :=
  if servoMode s k then wrIgnored s k
  else requestChange s k (fun t => { t with heldSlew := some (signedOf 32 (rd s (tbPage k) 0x13C).toNat, max 1 (min 1000000 (fld s (tbPage k) 0x140 19 0))) })
/-- The slew in progress has reached its end (R347): no longer slewing. The parameters stand, with the instant of the
end, until the next change (R357). -/
def endSlew (s : State) (k : Nat) : State := if bitAt s (tbPage k) 0x104 7 then noteF s k (tbOf s k).f false else s
/-- TB_CMD.slew_abort (R347): the slew ends here, one that waits does not start; the remainder stays. [DEDUCED, log 117] -/
def abortSlew (s : State) (k : Nat) : State :=
  let t := tbOf s k
  let s := setTb s k { t with heldSlew := none, slewEnd := if t.slew = 0 then t.slewEnd else min t.slewEnd (max 1 (now s)) }
  endSlew s k
/-- TB_SLEW_LEFT at this moment, in ns (R347). -/
def slewLeftNs (s : State) (k : Nat) : Int := (reanchor (tbOf s k) (now s)).slewLeft.tdiv (2 ^ 32 : Nat)

/-! ### The servo -/

/-- CK_REF lost, or the root PLL in holdover (R24, R354). -/
def refLost (s : State) : Bool := fld s pwrPage 0x108 1 0 != 0

/-- The servo output is requested as a change (R345, R348). [DESIGN CHOICE, log 81; DEDUCED, log 82] -/
def servoOut (s : State) (k : Nat) (y : Int) : State :=
  requestChange s k (fun t => { t with heldServo := some y })

/-- SRV_INT shows the integrator, saturated to its 32 bits (R371). [DESIGN CHOICE, log 148] -/
def showInt (s : State) (k : Nat) : State :=
  wr s (tbPage k) 0x170 (BitVec.ofNat 32 (unsignedOf 32 (clampI (tbOf s k).integ (-(2 ^ 31 : Nat)) ((2 ^ 31 : Nat) - 1))))
/-- R354: CK_REF is lost, and no output that waits is applied; after the relock the next sample is handled as after HOLDOVER. -/
def freezeServos (s : State) : State :=
  forEach s ((List.range 16).filter (fun k => servoMode s k && servoState s k != 0)) (fun s k =>
    setTb s k { tbOf s k with heldServo := none, fromHold := true })
/-- One sample of θ, in 2^-16 ns (R352, R353). [DESIGN CHOICE, log 81] -/
def servoTake (s : State) (k : Nat) (th : Int) : State :=
  let p := tbPage k
  let t := tbOf s k
  let st := servoState s k
  if !servoMode s k ∨ st = 0 ∨ refLost s then s
  else
    let fresh' := t.fromHold || st == 4
    let last := if fresh' then none else t.lastSample
    let tau := match last with | none => 0 | some b => tb0Time s - b
    if last.isSome ∧ tau < 10000 * 2 ^ 32 then setBit s p 0x104 10 true
    else
      let ns := th.natAbs / 2 ^ 16
      let big (n : Nat) : Bool := decide (n * 2 ^ 16 ≤ th.natAbs)
      let acq := big (fld s p 0x154 31 16)
      let beyond := decide (fld s p 0x158 31 16 * 1000 * 2 ^ 16 < th.natAbs)
      let s := wr s p 0x16C (BitVec.ofNat 32 (unsignedOf 32 (if th < 0 then -(min ns (2 ^ 31) : Nat) else (min ns (2 ^ 31 - 1) : Nat))))
      let per (x : Int) : Int := if tau = 0 then 0 else x * (2 ^ 16 * 10 ^ 9 * 256 : Nat) / (tau : Int)
      let gain (g : Nat) : Int := per th * (g : Int) / (256 : Nat)
      let kp := gain (fld s p 0x150 7 0)
      let ki := gain (fld s p 0x150 15 8)
      let ka := gain (fld s p 0x150 23 16)
      let seen (t : TimeBase) : TimeBase := { t with lastSample := some (tb0Time s), thetaPrev := th, haveTheta := true, fromHold := false }
      let done (s : State) (i y : Int) (est : Bool) (st' : Nat) : State :=
        servoOut (setServo (showInt (setTb s k { seen (tbOf s k) with integ := i, haveEst := est }) k) k st') k y
      let track (s : State) (i : Int) : State :=
        let i := i + ki
        let near := decide (th.natAbs ≤ fld s p 0x154 15 0 * 2 ^ 16)
        let n := if near then (tbOf s k).locks + 1 else 0
        let s := setTb s k { tbOf s k with locks := n }
        done s i (-(kp + i)) true (if max 1 (fld s p 0x158 7 0) ≤ n then 3 else 2)
      if beyond ∧ !stepLocked s k then
        let s := reqStep s k (-th)
        setServo (setTb s k { seen (tbOf s k) with haveTheta := false, haveEst := false, locks := 0 }) k 1
      else if fresh' then done (setTb s k { tbOf s k with locks := 0 }) t.integ (-t.integ) t.haveEst (if acq then 1 else 2)
      else if st = 1 ∧ !t.haveEst ∧ (!t.haveTheta ∨ last.isNone) then done s t.integ (-t.integ) false 1
      else if st = 1 ∧ !t.haveEst then
        let i := per (th - t.thetaPrev)
        if acq then done s i (-(ka + i)) true 1 else track (setTb s k { tbOf s k with locks := 0 }) i
      else if acq then done (setTb s k { tbOf s k with locks := 0 }) t.integ (-(ka + t.integ)) true 1
      else track s t.integ

/-- No sample for the holdover interval (R353): y = -I. -/
def servoHold (s : State) (k : Nat) : State :=
  if servoMode s k ∧ 1 ≤ servoState s k ∧ servoState s k ≤ 3 ∧ !refLost s then
    servoOut (setServo (setTb s k { tbOf s k with locks := 0 }) k 4) k (-(tbOf s k).integ)
  else s

/-- TB_CFG.mode changes (R353): to SERVO the servo starts, to STEER f is TB_FREQ again. [DESIGN CHOICE, log 116] -/
def servoModeChange (s : State) (k : Nat) (was : Bool) : State :=
  if servoMode s k ∧ !was then
    setServo (showInt (setTb s k { tbOf s k with integ := 0, haveTheta := false, haveEst := false, locks := 0, lastSample := none, fromHold := refLost s }) k) k 1
  else if !servoMode s k ∧ was then reqRate (setServo (setTb s k { tbOf s k with heldServo := none }) k 0) k
  else s

/-! ### Capture, conversion and pins -/

/-- TBS_CAP.go (R370). -/
def timeCap (s : State) : State :=
  let b := now s
  let s := wr (wr64 s tbsPage 0x108 (b % 2 ^ 64)) tbsPage 0x110 (BitVec.ofNat 32 (b / 2 ^ 64))
  let s := forEach s (List.range 16) (fun s k =>
    let v := tbAt s k b
    let s := wr64 s (tbPage k) 0x180 (secOf v)
    wr (wr s (tbPage k) 0x188 (BitVec.ofNat 32 (nsOf v))) (tbPage k) 0x18C (BitVec.ofNat 32 (fracOf v)))
  setBit s tbsPage 0x100 1 true

/-- CONV_CMD.go (R360): the parameters in force now. -/
def timeConv (s : State) : State :=
  let k := fld s tbsPage 0x128 3 0
  let v := tbAt s k (restore s (rd64 s tbsPage 0x120))
  let s := wr64 s tbsPage 0x130 (secOf v)
  let s := wr s tbsPage 0x138 (BitVec.ofNat 32 (nsOf v + b2n (tbValid s k) * 2 ^ 31))
  let s := wr s tbsPage 0x13C (BitVec.ofNat 32 (fracOf v))
  setBit s tbsPage 0x128 9 true

def tioOff (n : Nat) : Nat := 0x100 + 0x40 * n
def tioList (s : State) (n : Nat) : List TioCap := mapGet (fun _ => []) s.tioFifo n
def setTio (s : State) (n : Nat) (l : List TioCap) : State :=
  setFld { s with tioFifo := mapSet (fun _ => []) s.tioFifo n l } tioPage (tioOff n + 0x1C) 4 0 l.length
/-- The servo samples of a rising edge on pin `n` (R352). -/
def tioServo (s : State) (n b : Nat) : State :=
  forEach s (List.range 16) (fun s k =>
    if servoMode s k ∧ fld s (tbPage k) 0x100 7 5 = n + 1 then
      let v := tbAt s k b % (2 ^ 32 * 10 ^ 9 : Nat)
      let v := if v ≤ (2 ^ 31 * 10 ^ 9 : Nat) then v else v - (2 ^ 32 * 10 ^ 9 : Nat)
      servoTake s k (v.tdiv (2 ^ 16 : Nat))
    else s)
/-- A captured edge, converted into the pin's time base (R366). -/
def tioCap (s : State) (n b : Nat) : TioCap :=
  let k := fld s tioPage (tioOff n) 7 4
  { bc := b, time := tbAt s k b, valid := tbValid s k }
/-- An edge on pin `n` (R365, R366); `rising` is the level change at the pin. -/
def tioEdge (s : State) (n : Nat) (rising : Bool) : State :=
  let o := tioOff n
  let mode := fld s tioPage o 2 0
  let up := rising != bitAt s tioPage o 8
  if !serving s tioPage ∨ mode = 0 ∨ 3 < mode ∨ (mode = 1 ∧ !up) ∨ (mode = 2 ∧ up) then s
  else
    let b := stampNow s
    let l := tioList s n
    if (mapGet (fun _ => none) s.tioLast n).any (fun x => decide (b - x < 3072)) then s
    else
      let s := { s with tioLast := mapSet (fun _ => none) s.tioLast n (some b) }
      let s := if up ∧ (mode = 1 ∨ mode = 3) then tioServo s n b else s
      if 16 ≤ l.length then raise (setBit s tioPage (o + 0x1C) 8 true) tioPage n
      else setTio s n (l ++ [tioCap s n b])
/-- The low-word read of TIO_CAP_BCn removes the oldest entry and presents it (R366). -/
def tioPop (s : State) (n : Nat) : State :=
  match tioList s n with
  | [] => s
  | e :: rest =>
    let o := tioOff n
    let s := setTio s n rest
    let s := wr64 (wr64 s tioPage (o + 0x20) (e.bc % 2 ^ 64)) tioPage (o + 0x28) (secOf e.time)
    wr s tioPage (o + 0x30) (BitVec.ofNat 32 (nsOf e.time + b2n e.valid * 2 ^ 31))
/-- R366: PER at least 100 ns and WID below PER, or the pin stays inactive and source 4 + n is raised. -/
def tioValid (s : State) (n : Nat) : Bool :=
  100 ≤ (rd s tioPage (tioOff n + 0x14)).toNat && (rd s tioPage (tioOff n + 0x18)).toNat < (rd s tioPage (tioOff n + 0x14)).toNat
/-- A leading edge with its width; invert turns the levels round (R365). -/
def tioLead (s : State) (n : Nat) : Output :=
  .tioPulse n (now s) (!bitAt s tioPage (tioOff n) 8) (rd s tioPage (tioOff n + 0x18)).toNat
/-- START of a periodic output, in 2^-32 ns. -/
def tioStart (s : State) (n : Nat) : Nat := timeOf (rd64 s tioPage (tioOff n + 8)) (fld s tioPage (tioOff n + 0x10) 29 0) 0
/-- A leading edge of a periodic output (R365, R366): none before START. [DESIGN CHOICE, log 149] -/
def tioEdgeOut (s : State) (n : Nat) : State :=
  if !serving s tioPage ∨ fld s tioPage (tioOff n) 2 0 ≠ 4 then s
  else if !tioValid s n then raise s tioPage (4 + n)
  else if tbAt s (fld s tioPage (tioOff n) 7 4) (now s) < (tioStart s n : Int) then s
  else emit s (tioLead s n)
/-- The pulse of a TIO-pulse lift (R365). [DESIGN CHOICE, log 149] -/
def tioPulse (s : State) (n : Nat) : State :=
  if !tioValid s n then raise s tioPage (4 + n) else emit s (tioLead s n)

/-- Lanes of a line port, as sampled when it was enabled (R71, R74). -/
def lanesOf (s : State) (port : Nat) : Nat := match bitsOf (eportOf s port).cfg 5 4 with | 0 => 1 | 1 => 2 | _ => 4
/-- R367: the outputs that take their clock from a lane of the port are squelched. -/
def synceDown (s : State) (port : Nat) : State :=
  if 64 ≤ port ∨ !serving s syePage then s
  else forEach s [0, 1] (fun s n =>
    let c := 0x100 + 4 * n
    let lane := fld s syePage c 5 0
    if bitAt s syePage c 8 ∧ bitAt s syePage c 12 ∧ port ≤ lane ∧ lane < port + lanesOf s port ∧ !bitAt s syePage 0x108 n then
      raise (setBit s syePage 0x108 n true) syePage n
    else s)
/-- The squelch ends once the port has been UP for 1 s (R367). -/
def synceUp (s : State) (n : Nat) : State :=
  let lane := fld s syePage (0x100 + 4 * n) 5 0
  let owner := (List.range (lane + 1)).reverse.find? (fun p => bitAt s (macPage p) 0x100 0 && decide (lane < p + lanesOf s p))
  match owner with
  | some p => if linkState s p = 2 then setBit s syePage 0x108 n false else s
  | none => s

end Sys2Proof.Machine
end

