-- ==== Sys2Proof/Machine/LinkOps.lean ====
section
/-! DEFINITION. The link state machine of line and field ports (R71 to R75, R90, R115) and what hangs on it: queues,
FDB flush, SyncE, span links. -/

namespace Sys2Proof.Machine

abbrev oCfg : Nat := 0x100
abbrev oLinkStat : Nat := 0x114

/-! ### Lanes of a quad (R80) -/

/-- Offset of SDQ_LANEl_`reg` for lane `lane` of all 64; `reg` is its offset at lane 0. -/
abbrev laneOff (reg lane : Nat) : Nat := reg + 0x20 * (lane % 4)
/-- A bit of SDQ_LANEl_STAT follows the lane; its fall is source `src` with the lane as detail. -/
def setLane (s : State) (lane bit src : Nat) (v : Bool) : State :=
  let p := sdqPage (lane / 4)
  let had := bitAt s p (laneOff 0x14C lane) bit
  let s := setBit s p (laneOff 0x14C lane) bit v
  if had && !v then raise s p src 0 (lane % 4) else s
/-- SDQ_LANEl_STAT.signal and CDR locked of a line port's lanes: set on every lane while the port has them, cleared on the
lane that lost them. -/
def setLanes (s : State) (port : Nat) (c : LinkCond) : State :=
  let n := lanesOf s port
  let lanes (v : Bool) : List Nat := if v then (List.range n).map (· + port) else [port + c.lane.toNat % n]
  let s := forEach s (lanes c.signal) (fun s l => setLane s l 0 1 c.signal)
  forEach s (lanes c.lock) (fun s l => setLane s l 1 2 c.lock)

/-- FEC as sampled (R71, R74): 0 none, 1 BASE-R, 2 and 3 Reed-Solomon. -/
def fecOf (s : State) (port : Nat) : Nat := bitsOf (eportOf s port).cfg 7 6
def fecDflt (_ : Nat) : FecWindow := {}
def fecWindow (s : State) (port : Nat) : FecWindow := mapGet fecDflt s.fecWin port
/-- Codewords enter the window of 10⁶: more than 97 bad ones make it high at once, and a window that ends with fewer ends that. [DESIGN CHOICE, log 133] -/
def fecStep (w : FecWindow) (n bad : Nat) : FecWindow :=
  if 10 ^ 6 ≤ w.seen + n then { high := decide (97 * (w.seen + n) < (w.bad + bad) * 10 ^ 6) }
  else { seen := w.seen + n, bad := w.bad + bad, high := w.high || decide (97 < w.bad + bad) }
/-- A FEC port's codewords are counted (R75, R77); an uncorrectable one is source 4 (R79). [DESIGN CHOICE, log 133] -/
def countFec (s : State) (port n corrected bad : Nat) : State :=
  if 64 ≤ port ∨ fecOf s port = 0 then s
  else
    let p := macPage port
    let s := wr64 (wr64 s p 0x120 ((rd64 s p 0x120 + corrected) % 2 ^ 64)) p 0x128 ((rd64 s p 0x128 + bad) % 2 ^ 64)
    let s := if fecOf s port < 2 then s else { s with fecWin := mapSet fecDflt s.fecWin port (fecStep (fecWindow s port) n bad) }
    if bad = 0 then s else raise s p 4
/-- Lane rate codes of SDQ_PLL_STAT for a speed and a lane count; 0 for a mode that does not exist (R71, R80). -/
def laneRate (speed lanes : Nat) : Nat :=
  match speed, lanes with
  | 6, 2 => 5 | 5, 1 => 5 | 4, 0 => 5 | 4, 1 => 4 | 3, 0 => 4 | 2, 0 => 3 | 1, 0 => 2 | 0, 0 => 1
  | _, _ => 0
/-- The lock bit of the PLL that carries a port's lane rate follows the PLL; its fall is source 0 (R80). -/
def setPllLock (s : State) (port : Nat) (c : LinkCond) : State :=
  let p := sdqPage (port / 4)
  let rate := laneRate (bitsOf (eportOf s port).cfg 3 1) (bitsOf (eportOf s port).cfg 5 4)
  match (if rate = 0 then none else [0, 1].find? (fun i => fld s p 0x100 (6 + 4 * i) (4 + 4 * i) == rate)) with
  | none => s
  | some i =>
    let had := bitAt s p 0x100 i
    let s := setBit s p 0x100 i (!c.pllLost)
    if had && c.pllLost then raise s p 0 0 ((port + c.lane.toNat) % 4) else s
/-- hi_ber: the PCS reports it, or the codewords of an RS-FEC port (R75). [DESIGN CHOICE, log 133] -/
def highBer (s : State) (port : Nat) (c : LinkCond) : Bool := c.hiBer || (fecWindow s port).high
/-- The observed conditions of a link as LINK_STAT (R78, R117), its lanes and its PLL (R80) show them. -/
def setCond (s : State) (port : Nat) (c : LinkCond) : State :=
  let p := portPage port
  let s := if port < 64 then setPllLock (setLanes s port c) port c else s
  let s := setBit (setBit s p oLinkStat 3 c.signal) p oLinkStat 4 c.lock
  if port < 64 then
    setBit (setBit (setBit (setBit s p oLinkStat 5 c.localFault) p oLinkStat 6 c.remoteFault) p oLinkStat 7 (highBer s port c)) p oLinkStat 9 c.partnerLpi
  else if port < 96 then setBit s p oLinkStat 10 c.partnerLpi
  else s
/-- PLCA is in use and its status active (R108). -/
def plcaLive (s : State) (port : Nat) : Bool := plcaOn s port && bitAt s (fpPage port) 0x12C 0
/-- A field port with PLCA: enabled, and its status active (R115). -/
def plcaGood (s : State) (port : Nat) : Bool := !plcaOn s port || bitAt s (fpPage port) 0x12C 0
/-- SGMII synchronisation and, where the port negotiates, a control word with full duplex (R111, R115). -/
def sgmiiGood (s : State) (port : Nat) : Bool := (eportOf s port).sgmiiFull || !bitOf (eportOf s port).cfg 1
/-- R90, R115: the link is good. -/
def linkGood (s : State) (port : Nat) : Bool :=
  let p := portPage port
  if port < 64 then
    bitAt s p oLinkStat 3 && bitAt s p oLinkStat 4 && !bitAt s p oLinkStat 5 && !bitAt s p oLinkStat 6 && !bitAt s p oLinkStat 7
  else if port < 96 then bitAt s p oLinkStat 3 && bitAt s p oLinkStat 4 && !bitAt s p oLinkStat 8
  else if port < 104 then bitAt s p oCfg 0 && plcaGood s port && !bitAt s p oLinkStat 8
  else bitAt s p oLinkStat 3 && bitAt s p oLinkStat 4 && sgmiiGood s port
def setLink' (s : State) (port n : Nat) : State := setFld s (portPage port) oLinkStat 2 0 n
/-- flaps: transitions out of UP, saturating (R78). -/
def countFlap (s : State) (port : Nat) : State := addSat s (portPage port) oLinkStat 31 16 1
/-- link_hold in ms, at most 1,000 (R78). -/
def linkHold (s : State) (port : Nat) : Nat := min (fld s (portPage port) 0x110 9 0) 1000
/-- LPI bits fall when the link leaves UP. -/
def clearLpi (s : State) (port : Nat) : State :=
  let s := if port < 64 then setFld s (macPage port) oLinkStat 10 9 0 else setFld s (fpPage port) oLinkStat 11 10 0
  setEport s port { eportOf s port with lpi := false }

/-- What leaving UP means outside the port: its span link is LOST, its SyncE output is squelched, its transmission is
cut (R263, R310, R367). -/
def leftUp (s : State) (port : Nat) : State :=
  let s := countFlap (abortTx (synceDown s port) port) port
  match spanLinkOf s port with
  | some l => spanLost s l
  | none => s

/-- UP and not good (R90): to HOLD with the queues paused, or to DOWN. -/
def linkNotGood (s : State) (port : Nat) : State :=
  if linkState s port ≠ 2 then s
  else
    let p := portPage port
    let s := raise (leftUp (clearLpi s port) port) p 1
    if 0 < linkHold s port then setLink' (portPause s port) port 3
    else flushOnDown (portDown (setLink' (raise s p 2) port 4) port) port

/-- HOLD expires (R90). -/
def linkHoldExpire (s : State) (port : Nat) : State :=
  if linkState s port = 3 then flushOnDown (portDown (setLink' (raise s (portPage port) 2) port 4) port) port else s

/-- A tap as read back: pre3, pre2, pre1, main, post1 (R80). [DESIGN CHOICE, log 45] -/
def tapList (w : Nat) : List Int :=
  [signedOf 6 (bitsOf w 5 0), signedOf 6 (bitsOf w 11 6), signedOf 6 (bitsOf w 17 12), (bitsOf w 23 18 : Nat), signedOf 6 (bitsOf w 29 24)]
/-- R80: taps whose magnitudes sum above 63 are scaled in proportion; the flag says so. [DESIGN CHOICE, log 45] -/
def scaleTaps (w : Nat) : Nat × Bool :=
  let t := tapList w
  let sum := (t.map Int.natAbs).sum
  if sum ≤ 63 then (w, false)
  else
    let sc (x : Int) : Nat := unsignedOf 6 (if x < 0 then -((x.natAbs * 63 / sum : Nat) : Int) else (x.natAbs * 63 / sum : Nat))
    match t.map sc with
    | [a, b, c, d, e] => (a + b * 2 ^ 6 + c * 2 ^ 12 + d * 2 ^ 18 + e * 2 ^ 24, true)
    | _ => (w, false)
/-- SDQ_LANEl_TXEQ takes effect: the register reads the taps applied, scaled where they must be (source 3). -/
def applyTaps (s : State) (lane v : Nat) : State :=
  let p := sdqPage (lane / 4)
  let s := wr s p (laneOff 0x144 lane) (BitVec.ofNat 32 (scaleTaps v).1)
  if (scaleTaps v).2 then raise s p 3 0 (lane % 4) else s
/-- A port whose Clause 73 link training runs: TRAINING, with an_en, in a mode above 1 GbE (R72, R80). -/
def linkTraining (s : State) (port : Nat) : Bool :=
  decide (port < 64) && linkState s port == 1 && bitAt s (macPage port) oCfg 8 && bitsOf (eportOf s port).cfg 3 1 != 0
/-- The coefficients that training has set on a port's lanes: open values. [DESIGN CHOICE, log 45] -/
def coefficients (s : State) (port : Nat) : State :=
  forEach s ((List.range (lanesOf s port)).map (· + port)) (fun s l =>
    let f := fresh s
    wr f.2 (sdqPage (l / 4)) (laneOff 0x144 l) (BitVec.ofNat 32 (f.1 % 2 ^ 30)))
/-- Link training starts on a port that enters TRAINING. [DESIGN CHOICE, log 45] -/
def trainStart (s : State) (port : Nat) : State := if linkTraining s port then coefficients s port else s
/-- Link training ends: the writes held meanwhile are applied; where there is none training's coefficients stay. [DESIGN CHOICE, log 45] -/
def trainEnd (s : State) (port : Nat) : State :=
  if linkTraining s port then
    let s := coefficients s port
    forEach s ((List.range (lanesOf s port)).map (· + port)) (fun s l =>
      match mapGet (fun _ => none) s.eqHeld l with
      | some v => applyTaps { s with eqHeld := mapSet (fun _ => none) s.eqHeld l none } l v.toNat
      | none => s)
  else s

/-- What a T1L port's training found (R104, R105): the level, the role and a reversed polarity that was corrected. -/
def linkTraits (s : State) (port : Nat) (level24 master polRev : Bool) : State :=
  if port < 64 ∨ 96 ≤ port then s
  else
    let p := fpPage port
    let cfg := (eportOf s port).cfg
    let lv := if bitsOf cfg 3 2 = 1 then false else if bitsOf cfg 3 2 = 2 then true else level24 && bitOf cfg 1
    let ms := if bitsOf cfg 5 4 = 2 then true else if bitsOf cfg 5 4 = 3 then false else master
    let rev := polRev && bitAt s p oCfg 6
    let s := setBit (setBit (setBit s p oLinkStat 5 lv) p oLinkStat 6 ms) p oLinkStat 7 rev
    if rev then raise s p 4 else s
/-- The link has been good for up_debounce (R90): TRAINING and DOWN to UP with a port return, HOLD to UP with a resume. A
span link's port whose link is LOST is not good until the link has joined again (R324), and a reversed pair without pol_auto
does not reach lock (R105). -/
def linkUp (s : State) (port : Nat) (level24 master polRev : Bool) : State :=
  let st := linkState s port
  let lost := match spanLinkOf s port with | some l => spanLinkState s l == 4 | none => false
  let reversed := 64 ≤ port && decide (port < 96) && polRev && !bitAt s (portPage port) oCfg 6
  if !linkGood s port || lost || reversed || !serving s (portPage port) then s
  else if st = 1 ∨ st = 4 then
    portReturn (setLink' (raise (linkTraits (trainEnd s port) port level24 master polRev) (portPage port) 0) port 2) port
  else if st = 3 then setLink' (linkTraits s port level24 master polRev) port 2
  else s

/-- A lane of a line port that an injected loss of signal holds dark (R495). -/
def darkLane (s : State) (port : Nat) : Option Nat :=
  if port < 64 then (List.range (lanesOf s port)).find? (fun l => s.inj.dark.any (fun d => d.1 == port + l && decide (now s < d.2))) else none
/-- LINK_FAULT: the conditions and the codewords that the PCS reports; hi_ber and a remote fault are raised (R75, R79, R90). -/
def linkConds (s : State) (port : Nat) (c : LinkCond) : State :=
  let c := match darkLane s port with | some l => { c with signal := false, lock := false, lane := BitVec.ofNat 2 l } | none => c
  let p := portPage port
  let hadBer := bitAt s p oLinkStat 7
  let hadRf := bitAt s p oLinkStat 6
  let s := setCond (countFec s port c.codewords c.corrected c.uncorrectable) port c
  let s := if port < 64 ∧ bitAt s p oLinkStat 7 ∧ !hadBer then raise s p 3 else s
  let s := if port < 64 ∧ c.remoteFault ∧ !hadRf then raise s p 5 else s
  if linkGood s port then s else linkNotGood s port

/-- A reset of the port's cell (R33): its link leaves UP, and returns when it is good again. -/
def linkReset (s : State) (port : Nat) : State :=
  if linkState s port = 0 then s
  else
    let s := linkNotGood s port
    if port < 64 then { setFld s (macPage port) oLinkStat 7 3 0 with fecWin := mapSet fecDflt s.fecWin port {} }
    else if 96 ≤ port ∧ port < 104 then setFld s (fpPage port) oLinkStat 3 3 0
    else setEport (setFld s (fpPage port) oLinkStat 4 3 0) port { eportOf s port with sgmiiFull := false }

/-! ### Enabling a line port (R71 to R73) -/

/-- The FEC choices of a mode (R71). -/
def fecAllowed (speed fec : Nat) : Bool :=
  match speed with
  | 0 => fec == 0
  | 1 => fec ≤ 1
  | 2 => fec ≤ 2
  | 3 | 4 | 5 | 6 => fec == 3
  | _ => false
def laneCount (lanes : Nat) : Nat := match lanes with | 0 => 1 | 1 => 2 | 2 => 4 | _ => 0
/-- The lanes that another enabled port uses. [DESIGN CHOICE, log 134] -/
def takenLanes (s : State) (port : Nat) : List Nat :=
  (List.range 64).flatMap (fun p =>
    if p ≠ port ∧ bitAt s (macPage p) oCfg 0 ∧ linkState s p ≠ 0 then (List.range (lanesOf s p)).map (· + p) else [])
/-- The lane rates that the other enabled ports of a quad use. [DESIGN CHOICE, log 134] -/
def quadRates (s : State) (quad port : Nat) : List Nat :=
  ((List.range 64).filterMap (fun p =>
    if p ≠ port ∧ p / 4 = quad ∧ bitAt s (macPage p) oCfg 0 ∧ linkState s p ≠ 0 then
      some (laneRate (bitsOf (eportOf s p).cfg 3 1) (bitsOf (eportOf s p).cfg 5 4)) else none)).eraseDups
/-- R73: why an enable is refused; 0 where it is not. The conditions are tested in the order 4, 1, 2, 3, 5. -/
def enableCause (s : State) (port : Nat) : Nat :=
  let p := macPage port
  let lanes := fld s p oCfg 5 4
  let n := laneCount lanes
  let rate := laneRate (fld s p oCfg 3 1) lanes
  if rate = 0 ∨ !fecAllowed (fld s p oCfg 3 1) (fld s p oCfg 7 6) then 4
  else if (List.range n).any (fun i => (takenLanes s port).contains (port + i)) then 1
  else if port % n ≠ 0 then 2
  else if 2 < (rate :: quadRates s (port / 4) port).eraseDups.length then 3
  else if (List.range n).any (fun i => !domOn s (12 * (port / 16) + (port + i) % 16 / 2)) then 5
  else 0
/-- SDQ_PLL_STAT follows the rates in use (R72, R80): a PLL keeps a rate that is still used, with its lock, and a new rate takes an idle
PLL, PLL0 first, which locks. [DESIGN CHOICE, log 45] -/
def setPlls (s : State) (quad : Nat) : State :=
  let p := sdqPage quad
  let rates := quadRates s quad 64
  let keep (r : Nat) : Nat := if rates.contains r then r else 0
  let a := keep (fld s p 0x100 6 4)
  let b := keep (fld s p 0x100 10 8)
  let new := rates.filter (fun r => r != a && r != b)
  let a' := if a = 0 then new.getD 0 0 else a
  let b' := if b ≠ 0 then b else if a = 0 then new.getD 1 0 else new.getD 0 0
  let lock (i kept now' : Nat) : Bool := if kept = 0 then now' != 0 else bitAt s p 0x100 i
  wr s p 0x100 (BitVec.ofNat 32 (b2n (lock 0 a a') + b2n (lock 1 b b') * 2 + a' * 16 + b' * 256))
/-- The configuration that enable samples (R74, R117). -/
def sampleCfg (s : State) (port : Nat) : State :=
  setEport s port { eportOf s port with cfg := (rd s (portPage port) oCfg).toNat }
/-- R107: a segment's PLCA settings are sampled when enable or plca_en goes from 0 to 1. [PRESUMED, log 114] -/
def samplePlca (s : State) (port : Nat) : State :=
  setEport s port { eportOf s port with plca := (rd s (fpPage port) 0x120).toNat + (rd s (fpPage port) 0x124).toNat * 2 ^ 32, burst := 0 }
/-- A coordinator begins a PLCA cycle with a BEACON; a node_count outside 1 to 8 acts as 8 (R107, R117). -/
def beaconOut (s : State) (port : Nat) : State :=
  let v := (eportOf s port).plca
  let n := bitsOf v 11 8
  if plcaOn s port ∧ bitsOf v 6 4 = 0 then emit s (.beacon port (if n = 0 ∨ 8 < n then 8 else n) (bitsOf v 23 16)) else s
/-- A T1S segment starts: settings sampled, CSMA/CD running until PLCA is active, a coordinator's first cycle begun (R107, R108,
R117). -/
def segmentStart (s : State) (port : Nat) : State :=
  if 96 ≤ port ∧ port < 104 then beaconOut (setBit (samplePlca s port) (fpPage port) oLinkStat 4 true) port else s
/-- enable 0 to 1 (R73, R90). A refused enable leaves the bit reading 1, and the port, being DISABLED, takes no lane and no rate from
another. [DESIGN CHOICE, log 134] -/
def lineEnable (s : State) (port : Nat) : State :=
  let c := enableCause s port
  if c = 0 then trainStart (setPlls (setLink' (sampleCfg s port) port 1) (port / 4)) port
  else setFld (raise (setBit s (macPage port) oLinkStat 8 true) (macPage port) 6) (macPage port) oLinkStat 15 12 c

/-- enable 1 to 0 (R90). -/
def linkDisable (s : State) (port : Nat) : State :=
  let s := if linkState s port = 2 then raise (leftUp (clearLpi s port) port) (portPage port) 1 else s
  let s := if port < 64 then { setFld s (macPage port) oLinkStat 7 3 0 with fecWin := mapSet fecDflt s.fecWin port {} }
    else setEport (setFld s (fpPage port) oLinkStat 4 3 0) port { eportOf s port with sgmiiFull := false }
  let s := if 96 ≤ port ∧ port < 104 then setFld s (fpPage port) 0x12C 1 0 0 else s
  let was := linkState s port
  let s := setLink' (trainEnd s port) port 0
  let s := if port < 64 then setPlls s (port / 4) else s
  if was = 2 ∨ was = 3 then portDown s port else s

/-! ### Field ports (R103, R115) -/

/-- The domain of a field port (R102). -/
def fpDomain (port : Nat) : Nat := if port < 96 then 48 + (port - 64) / 4 else if port < 104 then 56 + (port - 96) else 64
/-- enable 0 to 1 (R103): the port leaves DISABLED only while its domain, 65 and 66 are ON. -/
def fieldEnable (s : State) (port : Nat) : State :=
  if domOn s (fpDomain port) ∧ domOn s 65 ∧ domOn s 66 then segmentStart (setLink' (sampleCfg s port) port 1) port else s
/-- R115: a sense action takes a port from UP or HOLD straight to DOWN, with sources 1 and 2. -/
def senseDown (s : State) (port : Nat) : State :=
  let s := setBit s (fpPage port) oLinkStat 8 true
  let st := linkState s port
  if st = 2 ∨ st = 3 then
    let s := if st = 2 then leftUp (clearLpi s port) port else s
    flushOnDown (portDown (setLink' (raise (raise s (fpPage port) 1) (fpPage port) 2) port 4) port) port
  else s

/-! ### SerDes (R80) -/

/-- The port that a lane belongs to. -/
def portOfLane (s : State) (lane : Nat) : Option Nat :=
  (List.range 64).find? (fun p => bitAt s (macPage p) oCfg 0 && p ≤ lane && decide (lane < p + lanesOf s p))
/-- A write to a lane register of quad `quad` (R80). -/
def laneEffect (s : State) (quad off : Nat) (old new : Nat) : State :=
  let l := (off - 0x140) / 0x20
  let p := sdqPage quad
  if (off - 0x140) % 0x20 = 0 then
    let port := portOfLane s (4 * quad + l)
    if (old ^^^ new) % 16 = 0 then s
    else match port with
      | some q => linkNotGood (setBit s (macPage q) oLinkStat 4 false) q
      | none => s
  else if (off - 0x140) % 0x20 = 4 then
    if (portOfLane s (4 * quad + l)).any (linkTraining s) then
      let s := wr s p off (BitVec.ofNat 32 old)
      { s with eqHeld := mapSet (fun _ => none) s.eqHeld (4 * quad + l) (some (BitVec.ofNat 32 new)) }
    else applyTaps s (4 * quad + l) new
  else s

end Sys2Proof.Machine
end

