-- ==== Sys2Proof/Machine/FootTab.lean ====
section
/-! DEFINITION. Footway mode's forwarding: the port slots (R506), the footway table and the egress FIFOs (R507). -/

namespace Sys2Proof.Machine

/-- A port slot: port, enable, ptp. -/
def slotEntry (e : Entry) : Nat × Bool × Bool := (efld e 7 0, ebit e 8, ebit e 9)
/-- A slot of the configuration that a commit put into effect (R505). -/
def fwSlot (s : State) (i : Nat) : Nat × Bool × Bool := slotEntry (mapGet (fun _ => 0) s.fwTabs (tabKey fwPage 0 0 i))
/-- The ports that slots designate, by slot. -/
def slotPorts (slot : Nat → Nat × Bool × Bool) : List Nat :=
  (List.range 16).filterMap (fun i => let x := slot i; if x.2.1 then some x.1 else none)
/-- The designated ports, by slot. -/
def fwPorts (s : State) : List Nat := slotPorts (fwSlot s)

/-! ### Forwarding by the footway table (R507) -/

/-- The footway table serves a port. -/
def fwActive (s : State) (port : Nat) : Bool := decide (2 ≤ fwState s) && (fwPorts s).contains port
/-- Outer VID, and EtherType after up to two tags, of a frame. -/
def fwKey (bs : List Byte) : Nat × Nat :=
  let et (o : Nat) : Nat := beAt bs o 2
  let tag (e : Nat) : Bool := e == 0x8100 || e == 0x88A8 || e == 0x9100
  if !tag (et 12) then (0, et 12)
  else if !tag (et 16) then (beAt bs 14 2 % 4096, et 16)
  else (beAt bs 14 2 % 4096, et 20)
/-- An entry of the footway table matches. -/
def fwMatch (e : Entry) (port : Nat) (bs : List Byte) : Bool :=
  let k := fwKey bs
  ebit e 127 && (efld e 7 0 == 0xFF || efld e 7 0 == port) && (ebit e 20 || efld e 19 8 == k.1) &&
  (ebit e 37 || efld e 36 21 == k.2) && (ebit e 86 || efld e 85 38 == beAt bs 0 6)
def fwFind (s : State) (port : Nat) (bs : List Byte) : Option Entry :=
  ((s.fwTabs.filter (fun e => keySel e.1 == 1)).find? (fun e => fwMatch e.2 port bs)).map (·.2)
def fwDrop (s : State) (reason : Nat) : State := inc (countReason s 7 reason) fwPage 0x10C
def fifoBytes (s : State) (i : Nat) : Nat :=
  ((mapGet (fun _ => []) s.foot.high i ++ mapGet (fun _ => []) s.foot.low i).map frameLen).sum
/-- A copy enters the FIFO of slot `i`. [DESIGN CHOICE, log 101] -/
def fwPut (prio : Bool) (f : Frame) (s : State) (i : Nat) : State :=
  if 32768 < fifoBytes s i + frameLen f then fwDrop s 0xF1
  else if prio then { s with foot := { s.foot with high := mapSet (fun _ => []) s.foot.high i (mapGet (fun _ => []) s.foot.high i ++ [f]) } }
  else { s with foot := { s.foot with low := mapSet (fun _ => []) s.foot.low i (mapGet (fun _ => []) s.foot.low i ++ [f]) } }
/-- One more frame of `n` octets under the limit of R507, taken for each millisecond: 2,000 frames and 20 Mbit in all, to which those of
high priority have the first claim. [DESIGN CHOICE, log 101] -/
def fwTake (s : State) (prio : Bool) (n : Nat) : Bool × State :=
  let slot := now s / msUnits 1
  let f := if s.foot.slot = slot then s.foot else { s.foot with slot := slot, all := (0, 0), urgent := (0, 0) }
  let used := if prio then f.urgent else f.all
  let add (u : Nat × Nat) : Nat × Nat := (u.1 + 1, u.2 + n)
  if 2000 < used.1 + 1 ∨ 2500000 < used.2 + n then (false, { s with foot := f })
  else (true, { s with foot := { f with all := add f.all, urgent := if prio then add f.urgent else f.urgent } })
/-- A frame on a designated port meets the table. It is counted as forwarded where a copy enters a FIFO. [DESIGN CHOICE, log 101] -/
def fwForward (s : State) (f : Frame) : State :=
  if !fwActive s f.ingress then s
  else match fwFind s f.ingress f.bytes with
    | none => fwDrop s 0xF0
    | some e =>
      if ebit e 103 then s
      else
        let r := fwTake s (ebit e 104) (frameLen f)
        if !r.1 then fwDrop r.2 0xF2
        else
          let l := (onesOf 16 (efld e 102 87)).filter (fun i => (fwSlot s i).2.1 && (fwSlot s i).1 != f.ingress)
          forEach (if l.any (fun i => fifoBytes s i + frameLen f ≤ 32768) then inc r.2 fwPage 0x110 else r.2) l (fwPut (ebit e 104) f)

end Sys2Proof.Machine
end

