-- ==== Sys2Proof/Machine/PortOps.lean ====
section
/-! DEFINITION. Reception at line and field ports with MACsec (R81 to R84, R94 to R99, R112, R208, R314, R472, R575), flow
control (R84, R85), energy-efficient Ethernet (R87, R88), eye scans and lane adaptation (R80), modules (R91, R92), T1S
collisions and PLCA (R107 to R110), SGMII and MDIO (R111). -/

namespace Sys2Proof.Machine

/-- Counter `k` of a port's set (R472). -/
def portCount (s : State) (port k n : Nat) : State :=
  addCounter s (cntPage (pipeOfPort port)) 1 (if port < 64 then port % 16 else port - 64) k n
/-- The region that counts a port's reason codes. -/
def portRegion (port : Nat) : Nat := min (regionOfPort port) 4
/-- R112: the field code of a line MAC code. -/
def macReason (port code : Nat) : Nat :=
  if port < 64 then code
  else match code with | 0x01 => 0x10 | 0x02 => 0x11 | 0x03 => 0x12 | 0x04 => 0x13 | 0x05 => 0x14 | 0x06 => 0x17 | c => c
/-- The reasons that rx_errors counts (R472). -/
def rxErrorCode (code : Nat) : Bool := (decide (1 ≤ code) && decide (code ≤ 0x19)) && code != 0x0E
/-- A frame dropped at the MAC or in MSEC, counted in rx_errors under its reasons (R472). -/
def macDrop (s : State) (port code : Nat) : State :=
  let s := countReason s (portRegion port) code
  if rxErrorCode code then portCount s port 4 1 else s
def broadcastMac : Nat := 2 ^ 48 - 1
def isMulticast (mac : Nat) : Bool := mac / 2 ^ 40 % 2 == 1
/-- rx_frames, rx_bytes, rx_mcast and rx_bcast (R472). -/
def countRx (s : State) (port : Nat) (bs : List Byte) (len : Nat) : State :=
  let s := portCount (portCount s port 0 1) port 1 len
  let d := beAt bs 0 6
  if d = broadcastMac then portCount s port 3 1 else if isMulticast d then portCount s port 2 1 else s

/-! ### MACsec (R94 to R99) -/

/-- MACsec is enabled on a line port's slot (R100). -/
def msecOn (s : State) (port : Nat) : Bool := port < 64 && bitAt s (msecPage (port / 16)) 0x100 (port % 16)
def chanEntry (s : State) (r k : Nat) : Entry := tget s (msecPage r) 0 0 k
/-- Slot `sl` of channel `k`; the upper half of next_pn is 0 unless the channel has xpn (R96). -/
def saEntry (s : State) (r k sl : Nat) : Entry :=
  let a := tget s (msecPage r) 1 0 (2 * k + sl)
  if ebit (chanEntry s r k) 69 then a else esetFld a 319 288 0
/-- The valid channel of a slot and direction that satisfies `f` (R95); one whose conf_offset is invalid serves no frame. [DESIGN CHOICE, log 135] -/
def findChan (s : State) (port dir : Nat) (f : Entry → Bool) : Option Nat :=
  (List.range 128).find? (fun k =>
    let e := chanEntry s (port / 16) k
    ebit e 127 && efld e 67 64 == port % 16 && efld e 68 68 == dir && efld e 71 70 != 3 && f e)
/-- The initialisation vector of a frame (R94, R96): SCI and PN, or under XPN the ssci and the 64-bit PN with the salt. [PRESUMED, log 46] -/
def macsecIv (e a : Entry) (pn : Nat) : Nat :=
  if ebit e 69 then (efld a 351 320 * 2 ^ 64 + pn % 2 ^ 64) ^^^ efld a 447 352 else efld e 63 0 * 2 ^ 32 + pn % 2 ^ 32
/-- Bytes behind the SecTAG that stay clear: the confidentiality offset of an encrypted frame, all of them otherwise (R95). -/
def clearBytes (e : Entry) (enc : Bool) (len : Nat) : Nat :=
  if !enc then len else min len (match efld e 71 70 with | 1 => 30 | 2 => 50 | _ => 0)
/-- R100: the validate setting of a slot's frames without a matching channel; 3 acts as 2. -/
def rxDefault (s : State) (port : Nat) : Nat := min (fld s (msecPage (port / 16)) 0x104 (2 * (port % 16) + 1) (2 * (port % 16))) 2

/-- A SecTAG: its octets, SCI where it carries one. -/
structure SecTag where
  an : Nat
  c : Bool
  e : Bool
  es : Bool
  pn : Nat
  sci : Option Nat
  /-- Octets of secure data where they are fewer than 48, else 0. -/
  short : Nat
  size : Nat
/-- [PRESUMED, log 46] -/
def secTag (bs : List Byte) : Option SecTag :=
  if beAt bs 12 2 ≠ 0x88E5 then none
  else
    let t := beAt bs 14 1
    let sc := bitOf t 5
    some { an := t % 4, c := bitOf t 2, e := bitOf t 3, es := bitOf t 6, pn := beAt bs 16 4
           sci := if sc then some (beAt bs 20 8) else none, short := beAt bs 15 1 % 64, size := if sc then 16 else 8 }
/-- The 64-bit packet number nearest to `ref` whose low word is `pn` (GCM-AES-XPN-256). [PRESUMED, log 46] -/
def recoverPn (ref pn : Nat) : Nat :=
  let c := ref / 2 ^ 32 * 2 ^ 32 + pn
  if c + 2 ^ 31 < ref then c + 2 ^ 32 else if ref + 2 ^ 31 < c ∧ 2 ^ 32 ≤ c then c - 2 ^ 32 else c

/-- What MACsec makes of a received frame (R99). -/
structure MsecResult where
  /-- The frame that goes on; none where it is dropped. -/
  bytes : Option (List Byte)
  /-- Reason of the drop, or of the status; 0 for none. -/
  reason : Nat := 0
  held : Bool := false
  /-- Receive channel, SA slot and packet number of a verified frame. -/
  sa : Option (Nat × Nat × Nat) := none

/-- SecTAG and ICV removed (R99): the frame from its addresses and the bytes after the tag; a short length says how many
they are. [PRESUMED, log 46] -/
def stripTag (bs : List Byte) (t : SecTag) : List Byte :=
  let secured := bs.length - 12 - t.size - 16
  bs.take 12 ++ (bs.drop (12 + t.size)).take (if t.short = 0 then secured else min t.short secured)

/-- R99 on a frame of a port whose MACsec is enabled. [PRESUMED, log 46] -/
def msecReceive (s : State) (port : Nat) (bs : List Byte) (icvOk : Bool) : MsecResult :=
  let r := port / 16
  if beAt bs 12 2 = 0x888E then { bytes := some bs }
  else match secTag bs with
    | none => match rxDefault s port with
      | 0 => { bytes := some bs }
      | 1 => { bytes := some bs, reason := 0x0A }
      | _ => { bytes := none, reason := 0x0A }
    | some t =>
      let plain := stripTag bs t
      let want := t.sci.orElse (fun _ => if t.es then some (beAt bs 6 6 * 65536 + 1) else none)
      let ch := findChan s port 0 (fun e => match want with | some x => efld e 63 0 == x | none => true)
      let fate (v reason : Nat) : MsecResult :=
        if v = 0 then (if t.c then { bytes := none, reason := 0x0F } else { bytes := some plain })
        else if v = 1 ∧ !t.c then { bytes := some plain, reason := reason }
        else { bytes := none, reason := reason }
      match ch with
      | none => fate (rxDefault s port) 0x07
      | some k =>
        let e := chanEntry s r k
        let v := min (efld e 76 75) 2
        match [0, 1].find? (fun sl => let a := saEntry s r k sl; ebit a 511 && ebit a 450 && efld a 449 448 == t.an) with
        | none => fate v 0x0B
        | some sl =>
          let a := saEntry s r k sl
          let nx := efld a 319 256
          let pn := if ebit e 69 then recoverPn nx t.pn else t.pn
          if v ≠ 0 ∧ ebit e 77 ∧ pn < nx then { bytes := none, reason := 0x09 }
          else if v = 0 then fate 0 0
          else if !icvOk then { fate v 0x08 with held := v == 2 || t.c }
          else
            let data := plain.drop 12
            let n := clearBytes e t.e data.length
            let body := if t.e then
                data.take n ++ fitBytes (data.length - n) (Config.macsecOpen (efld a 255 0) (macsecIv e a pn) (bs.take (12 + t.size) ++ data.take n) (data.drop n))
              else data
            { bytes := some (plain.take 12 ++ body), held := v == 2 || t.c, sa := some (k, sl, pn) }

/-- A verified frame raises the lowest packet number accepted (R96): the replay window ends at the frame after it. [PRESUMED, log 46; DEDUCED, log 48] -/
def msecAccept (s : State) (port : Nat) (r : MsecResult) : State :=
  match r.sa with
  | none => s
  | some (k, sl, pn) =>
    let a := saEntry s (port / 16) k sl
    let low := pn + 1 - efld (chanEntry s (port / 16) k) 111 80
    if efld a 319 256 < low then tset s (msecPage (port / 16)) 1 0 (2 * k + sl) (esetFld a 319 256 low) else s

/-! ### Into the pipeline -/

/-- md.ts of a frame that arrives now (R89, R114, R340): the path beyond the balls is taken off. -/
def rxStamp (s : State) (port : Nat) : Nat :=
  let adj := signedOf 16 (fld s (portPage port) 0x118 15 0)
  (unsignedOf 64 ((now s : Int) - adj * 1536 / (100 : Nat))) / 16 * 16

/-- A frame takes its granules and waits for a slot (R208, R224). [DEDUCED, log 56] -/
def ingest (s : State) (f : Frame) (stage : PFrame → PFrame := id) : State :=
  let k := pipeOfPort f.ingress
  if overLimit s f.ingress none ∧ f.ingress < 64 then rxDrop (countReason s k 0x66) f.ingress
  else match grant s .granules k (granulesOf f) k with
    | (none, s) => rxDrop s f.ingress
    | (some b, s) =>
      pipeArrive (charge s b f.ingress none (granulesOf f)) k (stage { frame := f, buf := b })

/-- Frames of the field ports cross the die-to-die link (R12, R13, R119): while it replays or retrains they wait in its
buffers, up to the 64 KiB of FPL's FIFO. [DEDUCED, log 39; DEDUCED, log 56] -/
def crossing (s : State) (f : Frame) : State :=
  if s.d2d.st = .up then ingest s f
  else
    let held := (s.d2d.toCor.map (fun p => frameLen p.frame)).sum
    if 65536 < held + frameLen f then macDrop s f.ingress 0x19
    else { s with d2d := { s.d2d with toCor := s.d2d.toCor ++ [{ frame := f, buf := 0 }] } }

/-- The first `most` octets of a frame of bytes `bs` and its FCS (R81). -/
def cutAt (most : Nat) (bs : List Byte) : List Byte := (bs ++ fcsOf bs).take most
/-- Octets that the length test leaves out: SecTAG and ICV of a protected frame (R81). -/
def tagSize (s : State) (port : Nat) (bs : List Byte) : Option Nat :=
  if msecOn s port then (secTag bs).map (fun t => t.size + 16) else none
/-- A frame of `len` octets exceeds max_frame (R81). -/
def oversize (s : State) (port : Nat) (bs : List Byte) (len : Nat) : Bool := decide (maxFrame s port < len - (tagSize s port bs).getD 0)
/-- An oversize frame at a port that is UP is counted, with source 7 of a line port, 3 of a field port (R79, R81, R118). -/
def noteLong (s : State) (port : Nat) (bs : List Byte) (len : Nat) : State :=
  if oversize s port bs len ∧ linkState s port = 2 then portCount (raise s (portPage port) (if port < 64 then 7 else 3)) port 7 1 else s
/-- A frame that the MAC and MSEC pass (R81, R99), captured at `ts`: truncated above max_frame, then into the pipeline, or to the
footway table (R507). -/
def passOn (s : State) (port ts : Nat) (bs : List Byte) (held unverified complete : Bool) : State :=
  let most := maxFrame s port
  let long := decide (most < bs.length + 4)
  let f : Frame := { id := s.nextId, bytes := if long then cutAt most bs else bs, ingress := port, ts := ts, trunc := long
                     heldForIcv := held, unverified := unverified, complete := complete }
  let s := { s with nextId := s.nextId + 1 }
  if fwActive s port then fwForward s f else if port < 64 then ingest s f else crossing s f

/-! ### Flow control (R84, R85) -/

/-- The pause or PFC content of a MAC control frame. -/
def controlOf (bs : List Byte) : MacControl :=
  if beAt bs 14 2 = 1 then .pause (BitVec.ofNat 16 (beAt bs 16 2))
  else if beAt bs 14 2 = 0x0101 then
    .pfc (BitVec.ofNat 8 (beAt bs 16 2)) ((List.range 8).map (fun c => BitVec.ofNat 16 (beAt bs (18 + 2 * c) 2)))
  else .other
def isMacControl (bs : List Byte) : Bool := beAt bs 0 6 == 0x0180C2000001 && beAt bs 12 2 == 0x8808

/-- The classes that a received PFC frame stops and lets go. -/
def pfcClasses (quanta : List (BitVec 16)) (vector : Nat) (stop : Bool) : Nat :=
  ((List.range 8).map (fun c =>
    if vector.testBit c && ((quanta.getD c 0 != 0) == stop) then 2 ^ c else 0)).sum

/-- A received MAC control frame that passed the MAC's tests (R84, R112). -/
def macControl (s : State) (port : Nat) (mc : MacControl) : State :=
  let s := portCount s port 6 1
  let p := macPage port
  let s := creditTick s port
  let e := eportOf s port
  let drop (s : State) : State := macDrop s port (macReason port 0x06)
  if linkState s port ≠ 2 then macDrop s port (macReason port 0x05)
  else if 64 ≤ port then drop s
  else match mc with
    | .pause q =>
      if fcMode s port = 1 ∧ bitAt s p 0x108 2 then setEport s port { e with paused := if q = 0 then 0 else 0xFF } else drop s
    | .pfc v q =>
      if fcMode s port = 2 ∧ bitAt s p 0x108 2 then
        let mask := v.toNat &&& fld s p 0x108 15 8
        let on := pfcClasses q mask true
        let off := pfcClasses q mask false
        setEport s port { e with paused := (e.paused ||| on) &&& (0xFF - off) }
      else drop s
    | .other => drop s

/-- rx_frames, rx_bytes and rx_mcast of a MAC control frame (R472), which is 64 octets long. [PRESUMED, log 46] -/
def countControl (s : State) (port : Nat) : State := portCount (portCount (portCount s port 0 1) port 1 64) port 2 1
/-- A MAC control frame that arrives by itself. -/
def controlIn (s : State) (port : Nat) (mc : MacControl) : State :=
  if !pageOn s (portPage port) ∨ inReset s (portPage port) then s
  else if isolated s (portPage port) then macDrop s port 0xE1
  else macControl (countControl s port) port mc

/-- Received quanta run out: the classes may send again. -/
def pauseEnd (s : State) (port classes : Nat) : State :=
  let s := creditTick s port
  let e := eportOf s port
  setEport s port { e with paused := e.paused &&& (0xFF - classes) }

/-- The refresh interval has passed while XOFF holds (R85): pause or PFC is sent again. -/
def pauseAgain (s : State) (port : Nat) : State :=
  let on (c : Option Nat) : Bool := ebit (tget s bpmInPage 1 0 (inIdx port c)) 31
  let s := if on none then signalXoff s port none true else s
  forEach s (List.range 8) (fun s c => if on (some c) then signalXoff s port (some c) true else s)

/-! ### Reception (R82, R575) -/

/-- A span link's port removes the encapsulation; the caller says how (R141, R314). -/
abbrev SpanRx := State → Nat → Nat → List Byte → State
/-- The bytes carry the EtherType of the span encapsulation, at a port that serves a span link. -/
def isSpanFrame (s : State) (port : Nat) (bs : List Byte) : Bool := isSpanPort s port && beAt bs 12 2 == fld s spnPairPage 0x120 15 0

/-- The tests of R575 in their order: the reason of the drop, 0 for none. -/
def macVerdict (s : State) (port len : Nat) (fcsOk symErr : Bool) : Nat :=
  if len < 64 then 0x02
  else if symErr then 0x04
  else if !fcsOk then 0x01
  else if linkState s port ≠ 2 then 0x05
  else 0

/-- What R99 counts and remembers of a frame that it passes. [DEDUCED, log 48] -/
def msecPassed (s : State) (port : Nat) (r : MsecResult) : State :=
  msecAccept (if r.reason = 0 then s else countReason s (portRegion port) r.reason) port r
/-- A frame received whole, captured at `ts`, of `len` octets with its FCS. -/
def receiveWhole (rx : SpanRx) (s : State) (port ts : Nat) (bs : List Byte) (fcsOk symErr icvOk : Bool) : State :=
  let len := bs.length + 4
  if !pageOn s (portPage port) ∨ inReset s (portPage port) then s
  else if isolated s (portPage port) then macDrop s port 0xE1
  else
    let v := macVerdict s port len fcsOk symErr
    let s := if 64 ≤ len ∧ fcsOk ∧ !symErr then countRx s port bs len else s
    let s := noteLong (if symErr then countFec s port 1 0 1 else s) port bs len
    if v ≠ 0 then macDrop s port (macReason port v)
    else if isMacControl bs then macControl s port (controlOf bs)
    else if msecOn s port then
      if oversize s port bs len ∧ (tagSize s port bs).isSome then passOn s port ts bs false true true
      else
        let r := msecReceive s port bs icvOk
        match r.bytes with
        | none => macDrop s port r.reason
        | some b =>
          let s := msecPassed s port r
          if isSpanFrame s port b then rx s port ts b else passOn s port ts b r.held false true
    else if isSpanFrame s port bs then rx s port ts bs
    else passOn s port ts bs false false true

/-- What goes on of a frame whose end has not come: none where MACsec must see its ICV first or drops it (R99, R240). [DEDUCED, log 48] -/
def msecEarly (s : State) (port : Nat) (bs : List Byte) : Option (List Byte) :=
  if !msecOn s port then some bs
  else if oversize s port bs (bs.length + 4) ∧ (tagSize s port bs).isSome then none
  else
    let good := msecReceive s port bs true
    if good.held ∨ good.bytes ≠ (msecReceive s port bs false).bytes then none else good.bytes
/-- A frame that begins (R240): it goes on before its end, unless MACsec has to verify it first, or it enters at a
field port or belongs to a span link. A frame that waits keeps the stamp of its start (R89). [DEDUCED, log 48] -/
def receiveBegin (s : State) (port : Nat) (bs : List Byte) : State :=
  let begun (id : Nat) (s' : State) : State :=
    { s' with rxOpen := mapSet (fun _ => none) s'.rxOpen port (some { frame := { id := id, bytes := bs, ingress := port, ts := rxStamp s port }, buf := 0 }) }
  if 64 ≤ port ∨ linkState s port ≠ 2 ∨ isMacControl bs ∨ !serving s (macPage port) ∨ fwActive s port then begun 0 s
  else match msecEarly s port bs with
    | none => begun 0 s
    | some b =>
      if isSpanFrame s port b then begun 0 s
      else begun s.nextId (passOn (noteLong s port bs (bs.length + 4)) port (rxStamp s port) b false false false)

/-- A frame with the outcome of its end: `fix` says what that is. -/
def endFrame (id : Nat) (fix : Frame → Frame) (f : Frame) : Frame := if f.id = id then fix f else f
def endPFrame (id : Nat) (fix : Frame → Frame) (p : PFrame) : PFrame := { p with frame := endFrame id fix p.frame }
def endPipe (id : Nat) (fix : Frame → Frame) (p : Pipe) : Pipe :=
  { p with arrivals := p.arrivals.map (endPFrame id fix), recirc := p.recirc.map (endPFrame id fix) }
def endQFrame (id : Nat) (fix : Frame → Frame) (q : QFrame) : QFrame := { q with frame := endFrame id fix q.frame }
def endQueue (id : Nat) (fix : Frame → Frame) (q : Queue) : Queue := { q with frames := q.frames.map (endQFrame id fix) }
def endTx (id : Nat) (fix : Frame → Frame) (t : Tx) : Tx :=
  let qf := endQFrame id fix t.qf
  { t with qf := qf, stomp := t.stomp || ((qf.frame.id == id) && qf.frame.bad) }
def endEPort (id : Nat) (fix : Frame → Frame) (e : EPort) : EPort := { e with tx := e.tx.map (endTx id fix) }
def endCQueue (id : Nat) (fix : Frame → Frame) (c : CQueue) : CQueue :=
  { c with records := c.records.map (fun r => { r with frame := endFrame id fix r.frame }) }
/-- Every copy of frame `id` learns how it ended. -/
def endCopies (s : State) (id : Nat) (fix : Frame → Frame) : State :=
  { s with pipes := mapUpdate pipeDflt (fun _ => endPipe id fix) s.pipes
           admitting := s.admitting.map (fun c => { c with frame := endFrame id fix c.frame })
           queues := mapUpdate queueDflt (fun _ => endQueue id fix) s.queues
           cqueues := mapUpdate cqDflt (fun _ => endCQueue id fix) s.cqueues
           eports := mapUpdate eportDflt (fun _ => endEPort id fix) s.eports }
/-- A frame has ended, well or badly. -/
def ended (bad : Bool) (f : Frame) : Frame := { f with complete := true, bad := f.bad || bad }
/-- An oversize frame has ended: truncated, and where it is protected as received and unverified (R81, R99). -/
def endedLong (bad : Bool) (most : Nat) (raw : Option (List Byte)) (f : Frame) : Frame :=
  match raw with
  | some bs => { ended bad f with trunc := true, unverified := true, bytes := cutAt most bs }
  | none => if f.trunc then ended bad f else { ended bad f with trunc := true, bytes := cutAt most f.bytes }

/-- The mirror copies that waited for frame `id`: made where it ended well (R82, R477). -/
def endMirror (s : State) (id : Nat) (fix : Frame → Frame) : State :=
  let mine := s.mirHeld.filter (fun h => h.frame.id == id)
  let s := { s with mirHeld := s.mirHeld.filter (fun h => h.frame.id != id) }
  forEach s mine (fun s h =>
    let f := fix h.frame
    if f.bad then s else mirrorCopy s h.info.session f { h.info with trunc := f.trunc, origLen := f.bytes.length } h.region)

/-- The end of a frame that began: what its length, its FCS and its ICV say of it comes now. [DEDUCED, log 48; DEDUCED, log 57] -/
def receiveEnd (rx : SpanRx) (s : State) (port length : Nat) (fcsOk symErr icvOk : Bool) : State :=
  match mapGet (fun _ => none) s.rxOpen port with
  | none => s
  | some pf =>
    let s := { s with rxOpen := mapSet (fun _ => none) s.rxOpen port none }
    let bs := pf.frame.bytes
    if pf.frame.id = 0 then receiveWhole rx s port pf.frame.ts bs fcsOk symErr icvOk
    else
      let v := macVerdict s port length fcsOk symErr
      let long := oversize s port bs length
      let s := if 64 ≤ length ∧ fcsOk ∧ !symErr then countRx s port bs length else s
      let s := if symErr then countFec s port 1 0 1 else s
      let s := if oversize s port bs (bs.length + 4) then s else noteLong s port bs length
      let s := if v ≠ 0 then macDrop s port v
        else if msecOn s port ∧ !long then msecPassed s port (msecReceive s port bs icvOk)
        else s
      let raw := if (tagSize s port bs).isSome then some bs else none
      let fix := if long then endedLong (v != 0) (maxFrame s port) raw else ended (v != 0)
      endMirror (endCopies s pf.frame.id fix) pf.frame.id fix

/-! ### Energy-efficient Ethernet (R87, R88, R106) -/

/-- eee_en of a port; a SyncE source and every port kind without EEE ignore it. -/
def eeeOn (s : State) (port : Nat) : Bool :=
  if port < 64 then
    bitAt s (macPage port) 0x10C 0 && !s.ptpPorts.testBit port &&
    !([0, 1].any (fun n => bitAt s syePage (0x100 + 4 * n) 8 && fld s syePage (0x100 + 4 * n) 5 0 ≥ port &&
      decide (fld s syePage (0x100 + 4 * n) 5 0 < port + lanesOf s port)))
  else port < 96 && bitAt s (fpPage port) 0x108 0 && !s.ptpPorts.testBit port
/-- Deep sleep at 1, 10 and 25 GbE, fast wake above (R87). -/
def setLpi (s : State) (port : Nat) (on : Bool) : State :=
  setEport (setBit s (portPage port) oLinkStat (if port < 64 then 10 else 11) on) port
    { eportOf s port with lpi := on, deep := on && decide (port < 64) && decide (bitsOf (eportOf s port).cfg 3 1 ≤ 2) }
/-- lpi_idle has passed with no frame to send. -/
def lpiIn (s : State) (port : Nat) : State :=
  let idle := (List.range 8).all (fun c => (queueOf s (qIdx port c)).frames.isEmpty)
  if eeeOn s port ∧ linkState s port = 2 ∧ (eportOf s port).tx.isNone ∧ idle ∧ !(eportOf s port).lpi then
    setLpi (portCount s port 15 1) port true
  else s
def lpiOut (s : State) (port : Nat) : State := if (eportOf s port).lpi then setLpi s port false else s

/-! ### Eye scans and adaptation (R80) -/

/-- A start while a scan is busy is refused; the lane is that of the start. -/
def eyeStart (s : State) (quad : Nat) : State :=
  let p := sdqPage quad
  if bitAt s p 0x110 9 then setBit s p 0x110 11 true
  else setBit { s with eyeLane := mapSet (fun _ => 0) s.eyeLane quad (fld s p 0x110 1 0) } p 0x110 9 true
def eyeDone (s : State) (quad height width : Nat) : State :=
  let p := sdqPage quad
  if !bitAt s p 0x110 9 then s
  else
    let s := wr s p 0x114 (BitVec.ofNat 32 (height + width * 65536))
    raise (setBit (setBit s p 0x110 9 false) p 0x110 10 true) p 4 0 (mapGet (fun _ => 0) s.eyeLane quad)
/-- One full receive adaptation; with freeze the equaliser keeps its values. -/
def adaptNow (s : State) (quad lane snr : Nat) : State :=
  let p := sdqPage quad
  if bitAt s p (0x148 + 0x20 * lane) 1 then s
  else setFld (setBit s p (0x14C + 0x20 * lane) 2 true) p (0x14C + 0x20 * lane) 15 8 snr

/-! ### Modules (R91, R92) -/

def cageState (s : State) (c : Nat) : Nat := fld s (modPage c) 0x104 3 0
def setCage (s : State) (c n : Nat) : State := setFld s (modPage c) 0x104 3 0 n
/-- [DEDUCED, log 49] -/
def cageManual (s : State) (c : Nat) : Bool := bitAt s (modPage c) 0x100 0
/-- An output of a cage is driven: 0 ResetL, 1 LPMode, 2 ModSelL. -/
def cagePin (s : State) (c k : Nat) (level : Bool) : State :=
  let v := mapGet (fun _ => 0) s.cagePins c
  let v' := if v.testBit k = level then v else if level then v + 2 ^ k else v - 2 ^ k
  emit { s with cagePins := mapSet (fun _ => 0) s.cagePins c v' }
    (.i2c c (["ResetL", "LPMode", "ModSelL"].getD k "" ++ if level then " high" else " low"))
/-- MOD_CAGE_CTL is written: in manual mode the pins follow resetl, lpmode and modsell (R93). [DEDUCED, log 49] -/
def cageLevels (s : State) (c old now' : Nat) : State :=
  if !bitOf now' 0 then s
  else forEach s [0, 1, 2] (fun s k =>
    if bitOf old 0 && (bitOf old (k + 1) == bitOf now' (k + 1)) then s else cagePin s c k (bitOf now' (k + 1)))
def cageReset (s : State) (c : Nat) : State :=
  setCage (cagePin (cagePin { s with modRetry := s.modRetry.erase c } c 0 false) c 1 true) c 1
/-- A transaction without acknowledge, or SDA held low: nine SCL pulses and a STOP; after three in a row the cage is in FAULT (R92). -/
def busRecovery (s : State) (c : Nat) : State :=
  let n := mapGet (fun _ => 0) s.modNacks c + 1
  let s := emit { s with modNacks := mapSet (fun _ => 0) s.modNacks c n } (.i2c c "nine SCL pulses and STOP")
  if 3 ≤ n ∧ cageState s c ≠ 7 then setCage (raise s (modPage c) 2) c 7 else s
/-- A transaction of the MODULE service, with the module selected. It runs within one command. [DESIGN CHOICE, log 136] -/
def cageTalk (s : State) (c : Nat) (ack : Bool) (what : List String) : State :=
  let s := cagePin s c 2 false
  let s := if ack then { (what.foldl (fun s w => emit s (.i2c c w)) s) with modNacks := mapSet (fun _ => 0) s.modNacks c 0 } else busRecovery s c
  cagePin s c 2 true
/-- IntL of an unplugged or quiet module is high. [PRESUMED, log 157] -/
def modInsert (s : State) (c : Nat) : State :=
  let s := setBit (setBit s (modPage c) 0x104 8 false) (modPage c) 0x104 9 true
  if cageManual s c ∨ cageState s c ≠ 0 then s else cageReset s c
def modOutOfReset (s : State) (c : Nat) : State :=
  if cageManual s c ∨ cageState s c ≠ 1 then s else setCage (cagePin s c 0 true) c 2
/-- The identity copy, 48 entries of 8 bytes (R91, R93). -/
def modIdentity (s : State) (c : Nat) (id : List Byte) : State :=
  forEach s (List.range 48) (fun s i => tset s (modPage c) 0 0 i (BitVec.ofNat 1920 (leNat (slice id (8 * i) 8))))
/-- WAIT_READY to IDENTIFY with the identity read, and once the applications are judged on to DATAPATH or MISMATCH (R91). -/
def modIdentify (s : State) (c : Nat) (id : List Byte) (ok judged ack : Bool) : State :=
  if cageManual s c ∨ !(cageState s c = 2 ∨ cageState s c = 3) then s
  else if !ack then cageTalk s c false []
  else
    let s := if cageState s c = 3 then s else setCage (modIdentity (cageTalk s c true ["lower page, pages 00h and 01h read"]) c id) c 3
    if !judged then s
    else if ok then setCage (cagePin (cageTalk s c true ["staged data-path set written", "LowPwr cleared"]) c 1 false) c 4
    else setCage (raise s (modPage c) 1) c 6
def modTimeout (s : State) (c : Nat) : State :=
  if cageManual s c ∨ cageState s c ≠ 2 then s
  else if s.modRetry.contains c then setCage (raise s (modPage c) 2) c 7
  else emit { s with modRetry := c :: s.modRetry } (.i2c c "ResetL pulse")
def modActive (s : State) (c : Nat) : State := if cageManual s c ∨ cageState s c ≠ 4 then s else setCage s c 5
/-- IntL low (R91, R93): in READY the flag pages are read and cleared, which lets it rise. [DEDUCED, log 49] -/
def modIntL (s : State) (c : Nat) (ack : Bool) : State :=
  let s := setBit s (modPage c) 0x104 9 false
  if cageManual s c ∨ cageState s c ≠ 5 then s
  else if !ack then cageTalk s c false []
  else setBit (raise (cageTalk s c true ["flag pages read", "flags cleared"]) (modPage c) 3) (modPage c) 0x104 9 true
/-- The lanes of a removed module (R80, R91): squelched, and without a signal. -/
def cageDark (s : State) (c : Nat) : State :=
  forEach (emit s (.i2c c "lanes squelched")) [0, 1, 2, 3] (fun s l => setLane s (4 * c + l) 0 1 false)
/-- ModPrsL high (R91): removal, lanes squelched; the cage's ports lose their signal (R90). [DEDUCED, log 49] -/
def modOut (s : State) (c : Nat) : State :=
  let s := setBit (setBit (cageDark s c) (modPage c) 0x104 8 true) (modPage c) 0x104 9 true
  let s := forEach s [0, 1, 2, 3] (fun s l =>
    let port := 4 * c + l
    if linkState s port = 0 then s else linkNotGood (setBit s (macPage port) oLinkStat 3 false) port)
  if cageManual s c then s else setCage (raise s (modPage c) 0) c 0
/-- MOD_CAGE_CTL.retry: to RESET, with no action (R91). -/
def modAgain (s : State) (c : Nat) : State :=
  if cageManual s c ∨ !(cageState s c = 6 ∨ cageState s c = 7) then s else setCage { s with modRetry := s.modRetry.erase c } c 1
/-- The bus rate: 1 MHz where MOD_CAGE_CTL permits it and the module advertises it in its memory map (R91). [PRESUMED, log 157] -/
def busKhz (s : State) (c : Nat) : Nat :=
  if bitAt s (modPage c) 0x100 4 ∧ efld (tget s (modPage c) 0 0 0) 19 18 ≠ 0 then 1000 else 400
/-- MOD_XFER_DATA as bytes. -/
def xferData (s : State) (c n : Nat) : List Byte :=
  ((List.range 32).flatMap (fun i => leBytes 4 (rd s (modPage c) (0x110 + 4 * i)).toNat)).take n
/-- A raw transfer starts (R92, R93): the command is kept, and the bytes of a write go out. While one is busy none starts. [DESIGN CHOICE, log 136] -/
def xferStart (s : State) (c : Nat) : State :=
  if bitAt s (modPage c) 0x10C 0 then s
  else
    let cmd := (rd s (modPage c) 0x108).toNat
    let s := setBit { s with xferCmd := mapSet (fun _ => 0) s.xferCmd c cmd } (modPage c) 0x10C 0 true
    emit s (.i2cXfer c cmd (busKhz s c) (if bitOf cmd 31 then xferData s c (bitsOf cmd 30 24 + 1) else []))
def xferBytes (s : State) (c : Nat) (data : List Byte) : State :=
  forEach s (List.range 32) (fun s i =>
    if 4 * i < data.length then wr s (modPage c) (0x110 + 4 * i) (BitVec.ofNat 32 (leNat (slice data (4 * i) 4))) else s)
/-- It ends: the bytes of a read arrive, or the bus is recovered (R92). -/
def xferEnd (s : State) (c : Nat) (ack : Bool) (data : List Byte) : State :=
  let p := modPage c
  if !bitAt s p 0x10C 0 then s
  else
    let cmd := mapGet (fun _ => 0) s.xferCmd c
    let s := setBit (setBit s p 0x10C 0 false) p 0x10C 1 true
    if ack then
      let s := { s with modNacks := mapSet (fun _ => 0) s.modNacks c 0 }
      if bitOf cmd 31 then s else xferBytes s c (data.take (bitsOf cmd 30 24 + 1))
    else busRecovery (setBit s p 0x10C 2 true) c

/-! ### T1S segments (R107 to R110), SGMII and MDIO (R111) -/


def isT1s (port : Nat) : Bool := 96 ≤ port && port < 104

/-- The transmission in progress is dropped (R109). -/
def dropTx (s : State) (port reason : Nat) : State :=
  let e := eportOf s port
  match e.tx with
  | none => s
  | some t =>
    let s := mirrorAbort (gatFree (setColl (setEport s port { e with tx := none }) port {}) port) t.mirror
    releaseRecord (dropBuf (countReason (qDrop s t.queue t.qf.frame) 4 reason) t.queue t.qf) t.queue t.qf.pages
/-- A collision during a transmission (R109, R110): a late one loses its frame, but not while PLCA is active. Otherwise the MAC keeps the
frame and waits. [DESIGN CHOICE, log 54] -/
def collide (s : State) (port : Nat) (late : Bool) : State :=
  if !isT1s port ∨ (eportOf s port).tx.isNone ∨ (collOf s port).waiting then s
  else
    let p := fpPage port
    let s := setEport s port { eportOf s port with burst := 0 }
    if late && !plcaLive s port then dropTx (raise (addSat s p 0x128 31 16 1) p 6) port 0x16
    else
      let s := addSat s p 0x128 15 0 1
      let c := collOf s port
      if 16 ≤ c.attempts + 1 then dropTx (raise s p 5) port 0x15
      else
        let r := fresh s
        setColl r.2 port { attempts := c.attempts + 1, waiting := true
                           slots := if plcaLive s port then 0 else r.1 % 2 ^ min (c.attempts + 1) 10 }
def plcaUp (s : State) (port : Nat) : State :=
  if isT1s port ∧ bitAt s (fpPage port) oCfg 0 ∧ plcaOn s port then
    setFld s (fpPage port) 0x12C 1 0 3
  else s
/-- PLCA goes inactive: the link is not good (R115), and CSMA/CD takes over (R108, `csmaNow`). [DESIGN CHOICE, log 132] -/
def plcaDown (s : State) (port : Nat) : State :=
  if isT1s port then
    let s := setFld s (fpPage port) 0x12C 1 0 0
    if linkGood s port then s else linkNotGood s port
  else s
/-- The PHY's control word (R111): half duplex is not good. -/
def sgmii (s : State) (port speed : Nat) (full : Bool) : State :=
  if !(port = 104 ∨ port = 105) then s
  else
    let p := fpPage port
    let s := setEport s port { eportOf s port with sgmii := speed, sgmiiFull := full }
    if full then setBit (setBit s p oLinkStat 3 true) p oLinkStat 4 true
    else linkNotGood (raise (setBit (setBit s p oLinkStat 4 false) p oLinkStat 9 true) p 7) port
/-- MGT_MDIO_CMD.start; it reads 1 while busy. -/
def mdioStart (s : State) : State :=
  let p := fpPage 104
  emit s (.mdio ((rd s p 0x140).toNat % 2 ^ 14) (fld s p 0x144 15 0))
def mdioEnd (s : State) (data : Nat) : State :=
  let p := fpPage 104
  if !bitAt s p 0x140 31 then s
  else
    let s := setBit s p 0x140 31 false
    if 2 ≤ fld s p 0x140 12 11 then wr s p 0x144 (BitVec.ofNat 32 data) else s

end Sys2Proof.Machine
end

