-- ==== Sys2Proof/Machine/SenseOps.lean ====
section
/-! DEFINITION. Line sensing of the field ports: classification, actions, holds, calibration, clamp events and cable
diagnostics (R122 to R132). Voltages are in steps of 50 mV, as SNS_PAIR_STAT shows them. -/

namespace Sys2Proof.Machine

abbrev snsPage : Nat := 4 * 4096 + 0x50
abbrev pairPage : Nat := 4 * 4096 + 0x51
def pairCfg (k : Nat) : Nat := 0x100 + 4 * k
def pairStat (k : Nat) : Nat := 0x200 + 4 * k
def pairClamp (k : Nat) : Nat := 0x300 + 4 * k
/-- The field port of a sense pair: 32 T1L ports and 8 T1S segments (R102). -/
def pairPort (k : Nat) : Nat := if k < 32 then 64 + k else 96 + (k - 32)
def senseOf (s : State) (k : Nat) : Sense := mapGet (fun _ => ({} : Sense)) s.sense k
def setSense (s : State) (k : Nat) (x : Sense) : State := { s with sense := mapSet (fun _ => ({} : Sense)) s.sense k x }
/-- R129: SNS converts while CK_FPHY runs. [DEDUCED, log 55] -/
def snsRuns (s : State) : Bool := s.mode == .run && s.d2d.st != .down
/-- A conductor of the pair is inside a clamp event. -/
def inClamp (x : Sense) : Bool := x.clamped || x.clampedN
def pairClass (s : State) (k : Nat) : Nat := fld s pairPage (pairStat k) 2 0

/-- R122: the class that the readings give, without the calibration row. [DEDUCED, log 52] -/
def rawClass (s : State) (k : Nat) (vp vn : Int) (beyond : Bool) (echo : Echo) : Nat :=
  let podl := bitAt s pairPage (pairCfg k) 0
  let t (o hi lo unit : Nat) : Int := (fld s snsPage o hi lo * unit : Nat)
  let ov : Int := if podl then (min (fld s snsPage 0x10C 15 8) 63 * 20 : Nat) else (min (fld s snsPage 0x108 23 16) 63 * 20 : Nat)
  let supply := t 0x108 15 8 20
  let gnd := t 0x108 7 0 2
  let overv := beyond || decide (ov < vp.natAbs) || decide (ov < vn.natAbs)
  if podl then
    if overv then 6
    else if vp - vn ≤ -(t 0x10C 23 16 2) then 5
    else if vp ≤ gnd then 3
    else if ((vp - vn).natAbs : Int) < t 0x10C 7 0 2 then 2
    else if supply ≤ vn then 4
    else if echo = .open then 1 else 0
  else
    if overv then 6
    else if k < 32 ∧ bitAt s (fpPage (pairPort k)) oLinkStat 7 then 5
    else if supply ≤ vp ∨ supply ≤ vn then 4
    else if vp ≤ gnd ∨ vn ≤ gnd then 3
    else if echo = .short then 2
    else if echo = .open then 1 else 0

/-- The action of a class (R127, R130). -/
def senseAct (s : State) (c : Nat) : Nat := if c = 0 then 0 else fld s snsPage 0x104 (2 * c + 1) (2 * c)
/-- R127: a class is committed and its action applies. [DEDUCED, log 51] -/
def commitClass (s : State) (k c : Nat) : State :=
  let old := pairClass s k
  let s := setFld s pairPage (pairStat k) 2 0 c
  if c = old then s
  else
    let a := senseAct s c
    let s := if 0 < a ∨ (c = 0 ∧ 0 < senseAct s old) then raise s snsPage 0 0 (k + c * 64) else s
    let s := if a = 3 then setSense s k { senseOf s k with latched := true } else s
    if 2 ≤ a then senseDown (setBit s pairPage (pairStat k) 4 true) (pairPort k) else s
/-- The class of the rows other than the calibration's is settled: raw_class, and class while calibration holds. -/
def settleRaw (s : State) (k c : Nat) : State :=
  let s := setFld s pairPage (pairStat k) 7 5 c
  if (senseOf s k).calBad then s else commitClass s k c

/-- A pair is sampled (R130, R131). -/
def pairOn (s : State) (k : Nat) : Bool :=
  k < 40 && snsRuns s && bitAt s snsPage 0x100 0 && bitAt s pairPage (pairCfg k) 1
/-- R123: samples within 1 ms after a clamp event's end are discarded. -/
def afterClamp (s : State) (x : Sense) : Bool :=
  !inClamp x && (match x.clampEnd with | none => false | some b => decide (now s < b + msUnits 1))
/-- One sample of both conductors (R123). [DEDUCED, log 55] -/
def senseTake (s : State) (k vp vn : Nat) (beyond : Bool) : State :=
  let x := senseOf s k
  if !pairOn s k ∨ afterClamp s x then s
  else
    let s := setFld (setFld s pairPage (pairStat k) 19 8 vp) pairPage (pairStat k) 31 20 vn
    if bitAt s pairPage (pairStat k) 3 then s
    else
      let c := rawClass s k (signedOf 12 vp) (signedOf 12 vn) beyond x.echo
      let run := if x.run ≠ 0 ∧ x.cand = c then min (x.run + 1) 8 else 1
      let s := setSense s k { x with cand := c, run := run }
      if run = 8 then settleRaw s k c else s

/-- R123: the echo test starts by itself on an enabled T1L port that is not UP; an isolated PHY takes no test (R127). -/
def echoStart (s : State) (k : Nat) : State :=
  let port := pairPort k
  if 32 ≤ k ∨ !pairOn s k ∨ !bitAt s (fpPage port) oCfg 0 ∨ linkState s port = 2 ∨ (senseOf s k).latched then s
  else setSense s k { senseOf s k with testing := true }
/-- The last readings of a pair. -/
def pairVolt (s : State) (k : Nat) : Int × Int :=
  (signedOf 12 (fld s pairPage (pairStat k) 19 8), signedOf 12 (fld s pairPage (pairStat k) 31 20))
/-- The result of an echo test: OPEN and PAIR_SHORT follow from it at once, a DC class from the samples. [DEDUCED, log 51] -/
def echoResult (s : State) (k : Nat) (r : Echo) : State :=
  let s := setSense s k { senseOf s k with echo := r, testing := false }
  let v := pairVolt s k
  let c := rawClass s k v.1 v.2 false r
  if !bitAt s pairPage (pairStat k) 3 ∧ bitAt s pairPage (pairCfg k) 1 ∧ (c = 1 ∨ (c = 2 ∧ !bitAt s pairPage (pairCfg k) 0)) then settleRaw s k c else s
/-- [DEDUCED, log 51] -/
def echoEnd (s : State) (k : Nat) (r : Echo) : State := if (senseOf s k).testing && snsRuns s then echoResult s k r else s

/-- R124, R129: a clamp event of conductor P, or N, begins or ends. -/
def clampEdge (s : State) (k : Nat) (neg begins : Bool) : State :=
  let x := senseOf s k
  let was := if neg then x.clampedN else x.clamped
  let x' : Sense := if neg then { x with clampedN := begins } else { x with clamped := begins }
  if 40 ≤ k ∨ was = begins then s
  else if begins then
    let once := match x.clampAt with | none => false | some b => decide (now s < b + msUnits 1)
    let s := setSense s k { x' with clampAt := some (now s) }
    if !snsRuns s then setBit s pairPage (pairClamp k) 16 true
    else if once then s
    else raise (addSat s pairPage (pairClamp k) 15 0 1) snsPage 1 0 k
  else setSense s k { x' with clampEnd := some (now s) }

/-- R125: calibration of a pair starts and ends. -/
def calStart (s : State) (k : Nat) : State := if k < 40 ∧ snsRuns s then setBit s pairPage (pairStat k) 3 true else s
def calAll (s : State) : State := forEach s (List.range 40) calStart
/-- [DEDUCED, log 52] -/
def calEnd (s : State) (k : Nat) (ok : Bool) : State :=
  if !bitAt s pairPage (pairStat k) 3 ∨ !snsRuns s then s
  else
    let s := setBit s pairPage (pairStat k) 3 false
    let s := setSense s k { senseOf s k with calBad := !ok }
    if ok then commitClass s k (fld s pairPage (pairStat k) 7 5)
    else
      let s := raise s snsPage 2 0 k
      if bitAt s pairPage (pairCfg k) 1 then commitClass s k 7 else s

/-- R128: the hold of a pair goes; the T1L or T1S port may train again. -/
def endHold (s : State) (k : Nat) : State :=
  setBit (setBit (setSense s k { senseOf s k with latched := false }) pairPage (pairStat k) 4 false) (fpPage (pairPort k)) oLinkStat 8 false
/-- A hold of action 2 has seen NORMAL for return_time. -/
def holdReturn (s : State) (k : Nat) : State :=
  if k < 40 ∧ bitAt s pairPage (pairStat k) 4 ∧ !(senseOf s k).latched ∧ pairClass s k = 0 then endHold s k else s
/-- SNS_PAIR_CFG.release: ignored while the class is not NORMAL. It ends a hold of action 2 too, before return_time has passed. [DESIGN CHOICE, log 139] -/
def holdRelease (s : State) (k : Nat) : State :=
  if k < 40 ∧ bitAt s pairPage (pairStat k) 4 ∧ pairClass s k = 0 then endHold s k else s
/-- SNS_PAIR_CFG.sense_en written (R131): a pair that is not sampled reads NORMAL, its hold or latch standing; one sampled again is
SENSE_FAULT until its calibration passes (R125). [DESIGN CHOICE, log 139] -/
def pairCfgEffect (s : State) (k : Nat) : State :=
  if bitAt s pairPage (pairCfg k) 1 then (if (senseOf s k).calBad then commitClass s k 7 else s)
  else setFld (setFld (setSense s k { senseOf s k with cand := 0, run := 0 }) pairPage (pairStat k) 2 0 0) pairPage (pairStat k) 7 5 0

/-- A port goes from UP straight to DOWN for a forced diagnostic (R126). -/
def forceDown (s : State) (port : Nat) : State :=
  let s := raise (leftUp (clearLpi (setBit s (portPage port) oLinkStat 4 false) port) port) (portPage port) 1
  flushOnDown (portDown (setLink' (raise s (portPage port) 2) port 4) port) port
/-- SNS_DIAG_CMD.start (R126): the request is kept for its end. A pair that does not exist is refused. [DESIGN CHOICE, log 53] -/
def diagStart (s : State) : State :=
  let k := fld s snsPage 0x110 5 0
  let port := pairPort k
  if 40 ≤ k ∨ bitAt s snsPage 0x114 0 ∨ (senseOf s k).latched ∨ (linkState s port = 2 ∧ !bitAt s snsPage 0x110 9) then
    setBit s snsPage 0x114 2 true
  else
    let s := { s with diagCmd := (rd s snsPage 0x110).toNat }
    setBit (if linkState s port = 2 then forceDown s port else s) snsPage 0x114 0 true
/-- Distance in metres to the first reflection (R126). [DESIGN CHOICE, log 53] -/
def faultDist (samples vf : Nat) : Nat := samples * vf * 299792458 / (2 * 1024 * 75000000)
/-- The diagnostic ends. A distance beyond the field's 16 bits is a free value. [DESIGN CHOICE, log 53] -/
def diagEnd (s : State) (result samples : Nat) : State :=
  if !bitAt s snsPage 0x114 0 ∨ !snsRuns s then s
  else
    let k := bitsOf s.diagCmd 5 0
    let d := faultDist samples (bitsOf s.diagCmd 31 16)
    let r : Nat × State := if d < 65536 then (d, s) else fresh s
    let s := setFld (setFld (setBit (setBit r.2 snsPage 0x114 0 false) snsPage 0x114 1 true) snsPage 0x114 4 3 result) snsPage 0x114 31 16 r.1
    let s := wr s snsPage 0x118 (BitVec.ofNat 32 samples)
    let s := raise s snsPage 3 0 k
    echoResult s k (match result with | 1 => .open | 2 => .short | _ => .clear)

/-- R128, R129: as ports of FLD come out of reset or come ON, sense_hold is set again from SNS. [DEDUCED, log 52] -/
def senseRestore (s : State) : State :=
  forEach s (List.range 40) (fun s k =>
    if bitAt s pairPage (pairStat k) 4 ∧ pageOn s (fpPage (pairPort k)) then setBit s (fpPage (pairPort k)) oLinkStat 8 true else s)

end Sys2Proof.Machine
end

