-- ==== Sys2Proof/Machine/EgressOps.lean ====
section
/-! DEFINITION. Leaving the queues: egress editing (R161, R174, R194, R195), PTP correction (R363, R364), MACsec on
transmit (R95 to R98), the resequencer's readiness (R237 to R240), the scheduler (R241 to R247, R250 to R252), the start and
end of a transmission (R82, R83, R263, R477, R479), and the spill path (R215 to R219, R275). -/

namespace Sys2Proof.Machine

/-! ### Egress editing (R161) -/

/-- The egress pipeline of a port. -/
def egressPipe (port : Nat) : Nat := if port < 64 then port / 16 else 4
/-- Where an outer tag stands: behind the addresses, or behind a SecTAG that comes first. -/
def tagOff (bs : List Byte) : Nat :=
  if beAt bs 12 2 = 0x88E5 then 12 + 8 + (if bitOf (beAt bs 14 1) 5 then 8 else 0) else 12
def insertTag (bs : List Byte) (tpid tci : Nat) : List Byte :=
  bs.take (tagOff bs) ++ beBytes 2 tpid ++ beBytes 2 tci ++ bs.drop (tagOff bs)
def removeTag (bs : List Byte) : List Byte := bs.take (tagOff bs) ++ bs.drop (tagOff bs + 4)
/-- A frame that has become shorter than 64 octets with its FCS is filled up with zeros (IEEE 802.3). [PRESUMED, log 115] -/
def padFrame (bs : List Byte) : List Byte := bs ++ List.replicate (60 - bs.length) 0
def setVid (bs : List Byte) (vid : Nat) : List Byte :=
  let o := tagOff bs + 2
  splice bs o (beBytes 2 (beAt bs o 2 / 4096 * 4096 + vid % 4096))
/-- End-around carry of a ones' complement sum. -/
def fold1 (n : Nat) : Nat := let a := n / 65536 + n % 65536; a / 65536 + a % 65536
/-- TTL or hop limit one less, with the IPv4 checksum (R194). -/
def decTtl (p : Parsed) (bs : List Byte) : List Byte :=
  if p.l3 = 1 then
    let o := p.l3Off
    let old := beAt bs (o + 8) 2
    let new := old - 256
    let hc := beAt bs (o + 10) 2
    let hc' := 65535 - fold1 ((65535 - hc) + (65535 - old) + new)
    splice (splice bs (o + 8) (beBytes 2 new)) (o + 10) (beBytes 2 hc')
  else if p.l3 = 2 then splice bs (p.l3Off + 7) (beBytes 1 (beAt bs (p.l3Off + 7) 1 - 1))
  else bs
/-- What editing makes of a copy. -/
structure Edit where
  bytes : List Byte
  /-- The VLAN egress check fails (0x4F). -/
  fails : Bool := false
  rewrites : Nat := 0
  added : Nat := 0
  untags : Nat := 0
/-- TPID of inserted tags. -/
def egressTpid (s : State) (k : Nat) : Nat := if k < 4 then fld s (eplPage k) 0x100 15 0 else 0x8100
/-- Steps 1 to 3 of R161. Host and engine copies and mirror copies go as they are; a copy for the partner is rewritten
where it is routed and neither checked nor untagged. A frame the host directs to a port carries the VID of its outer
tag. [DEDUCED, log 60; PRESUMED, log 115] -/
def egressEdit (s : State) (port : Nat) (f : Frame) : Edit :=
  if port = 112 ∨ port = 113 ∨ f.isMirror then { bytes := f.bytes }
  else
    let k := egressPipe port
    let cfg := parseCfg s k
    let p := parse cfg f.bytes
    let vid := f.vid.getD (p.outer.getD 0 % 4096)
    let e1 : Edit :=
      if f.egr = 2 then
        let e := f.route
        let smac := efld (tget s (fdbPage k) 3 0 (bitsOf e 63 60)) 47 0
        let b := if bitOf e 82 then f.bytes else decTtl p f.bytes
        let b := splice (splice b 0 (beBytes 6 (bitsOf e 47 0))) 6 (beBytes 6 smac)
        if p.outer.isSome then { bytes := setVid b vid, rewrites := 1 }
        else { bytes := insertTag b (egressTpid s k) (f.tc * 2 ^ 13 + vid), rewrites := 1, added := 1 }
      else if f.listVid ∧ !f.untag then
        if p.outer.isSome then { bytes := setVid f.bytes vid }
        else { bytes := insertTag f.bytes (egressTpid s k) (f.tc * 2 ^ 13 + vid), added := 1 }
      else { bytes := f.bytes }
    if f.partner.isSome then e1
    else
      let v := tget s (fdbPage k) 1 0 vid
      if f.egr ≠ 0 ∧ !(ebit v 319 && ebit v port) then { e1 with fails := true }
      else if ((ebit v 319 && ebit v (128 + port)) || (f.listVid && f.untag)) && (p.outer.isSome || e1.added == 1) then
        { e1 with bytes := padFrame (removeTag e1.bytes), untags := 1 }
      else e1
/-- The EPL counters of a line region (R161). -/
def editCounts (s : State) (port : Nat) (e : Edit) : State :=
  if 64 ≤ port then s
  else
    let p := eplPage (port / 16)
    addSat (addSat (addSat s p 0x104 31 0 e.rewrites) p 0x108 31 0 e.added) p 0x10C 31 0 e.untags

/-! ### Lengths and rates -/

/-- The transmit channel of a line port (R94, R95). -/
def txChan (s : State) (port : Nat) : Option Nat := if msecOn s port then findChan s port 1 (fun _ => true) else none
/-- M of R250: 0, 24 or 32 bytes. EAPOL is never protected (R94). -/
def macsecBytes (s : State) (port : Nat) (bs : List Byte) : Nat :=
  match txChan s port with
  | none => 0
  | some k =>
    let e := chanEntry s (port / 16) k
    if !ebit e 72 ∨ beAt bs 12 2 = 0x888E then 0 else if ebit e 74 then 32 else 24
/-- A frame leaves a span link port encapsulated: for the partner, or directed there by the host (R327). [DEDUCED, log 72] -/
def encapsulates (s : State) (port : Nat) (f : Frame) : Bool :=
  isSpanPort s port && (f.partner.isSome || f.ingress == 112)
/-- Bytes from destination address to FCS after egress rewrite. -/
def lenAfter (s : State) (port : Nat) (f : Frame) : Nat :=
  (egressEdit s port f).bytes.length + 4 + (if encapsulates s port f then 28 else 0)
/-- The length that scheduling counts (R244). -/
def schedLen (s : State) (port : Nat) (f : Frame) : Nat :=
  ((lenAfter s port f : Int) + signedOf 8 (fld s (schPage port) 0x100 15 8) + (macsecBytes s port f.bytes : Int)).toNat
/-- The wire time of a head, in ns times the port rate in kb/s (R250); a frame in cut-through is judged on its ingress port's
max_frame (R240). -/
def headWire (s : State) (port : Nat) (f : Frame) : Nat :=
  ((if f.complete then lenAfter s port f else maxFrame s f.ingress) + 20 + macsecBytes s port f.bytes) * 8 * 1000000

/-! ### The resequencer (R237 to R239) -/

def headOf (s : State) (q : Nat) : Option QFrame :=
  let x := queueOf s q
  x.frames.find? (fun f => f.seq == x.nextSeq)
/-- SEQ_SKIP (R239). -/
def seqSkipNow (s : State) (q : Nat) : State :=
  let x := queueOf s q
  let headReady : Bool := match headOf s q with | none => false | some f => f.ready
  if headReady ∨ x.reported.contains x.nextSeq ∨ !(x.frames.any (fun f => f.ready)) then s
  else
    let y := { x with skipped := x.skipped ++ [x.nextSeq], nextSeq := x.nextSeq + 1 }
    raise (inc (countReason (setQueue s q (advance y.reported.length y)) 5 0x82) rsqPage 0x104) rsqPage 0 0x82 q
/-- The frame with number `n` of a queue, changed. -/
def setFrame (s : State) (q : Nat) (n : Word) (g : QFrame → QFrame) : State :=
  let x := queueOf s q
  setQueue s q { x with frames := x.frames.map (fun f => if f.seq = n then g f else f) }

/-! ### The scheduler (R241 to R247) -/

def hasDwrr (s : State) (port : Nat) : Bool := (List.range 8).any (fun c => schMode s port c == 1)
/-- Queues of mode DWRR below `rr`, wrapping from TC0 to the highest. -/
def nextDwrr (s : State) (port rr : Nat) : Nat :=
  ((List.range 8).map (fun i => (rr + 7 - i) % 8)).find? (fun c => schMode s port c == 1) |>.getD rr
/-- Tokens of the port shaper at this moment (R245), in units of 1/1,228,800 byte: one Mb/s makes one of them in a base unit. -/
def fillTokens (s : State) (port : Nat) : State :=
  let e := eportOf s port
  let rate := fld s (schPage port) 0x104 19 0
  if rate = 0 then s
  else
    let cap : Int := (fld s (schPage port) 0x108 23 0 * 1228800 : Nat)
    setEport s port { e with tokens := min cap (e.tokens + ((now s - e.tokensBc) * rate : Nat)), tokensBc := now s }
/-- A frame that starts is charged to the port shaper (R245). -/
def chargeTokens (s : State) (port len : Nat) : State :=
  if fld s (schPage port) 0x104 19 0 = 0 then s
  else setEport s port { eportOf s port with tokens := (eportOf s port).tokens - (len : Int) * 1228800 }
def shaperAllows (s : State) (port : Nat) : Bool := fld s (schPage port) 0x104 19 0 == 0 || decide (0 < (eportOf s port).tokens)

/-- The gate of class `c` is open and the frame fits (R251). -/
def gateFits (s : State) (port c : Nat) (f : Frame) : Bool :=
  if !gatesRun s port then true
  else match portGates s port with
    | none => true
    | some g =>
      (gatesNow s port).testBit c &&
      (match openFor (portSpans s port g) c (gatePhase s g (now s)) with
        | none => true
        | some left => decide (headWire s port f * 2 ^ 32 ≤ (left * 2 ^ 32 - gateTick s g (now s) % 2 ^ 32) * portKbps s port))
/-- R252: a head that can never fit is discarded. -/
def gateOversize (s : State) (port : Nat) : State :=
  if !gatesRun s port then s
  else match portGates s port with
    | none => s
    | some g => forEach s (List.range 8) (fun s c =>
        match headOf s (qIdx port c) with
        | none => s
        | some f =>
          if !f.ready ∨ !f.frame.complete then s
          else match longestOpen (portSpans s port g) c with
            | none => s
            | some most =>
              if headWire s port f.frame ≤ most * portKbps s port then s
              else raise (inc (discard s (qIdx port c) f 5 0x89) (gatPage port) 0x10C) (gatPage port) 2 0x89)

/-- A port can start a frame; a scheduler or a port cell that drains starts none. [DEDUCED, log 44; DESIGN CHOICE, log 132; DEDUCED, log 138] -/
def portFree (s : State) (port : Nat) : Bool :=
  let e := eportOf s port
  s.mode == .run && e.tx.isNone && !e.lpi && (portQ s port == 0 || csmaNow s port) && serving s (schPage port) && serving s (tmsPage port) &&
  !draining s (schPage port) && (105 < port || !draining s (portPage port)) && (port < 64 || 105 < port || s.d2d.st == .up)
/-- Room for the whole frame in the transmit FIFO of a field port: 4 KiB, or 16 KiB at a management port (R113). A frame that is longer
never crosses the die-to-die link. [DEDUCED, log 138] -/
def fifoRoom (s : State) (port : Nat) (f : Frame) : Bool :=
  port < 64 || 105 < port || decide (lenAfter s port f ≤ if port < 104 then 4096 else 16384)
/-- A host-port queue whose head waits for its ring to have a buffer (R438): the other queues of the port go on meanwhile. [DESIGN CHOICE, log 146] -/
def rxWaiting (s : State) (c : Nat) : Bool :=
  (rxSince s c).isSome && (headOf s (qIdx 112 c)).any (fun f => hostBar s f.frame == 0 && noBuffer s f.frame)
/-- What class `c` of a port would send next: a frame that its span sender resends, ahead of the queue (R320), or the queue's head. -/
def nextOf (s : State) (port c : Nat) : Option QFrame :=
  match dueOf s port c with
  | some (_, e) => e.frame.map (fun f => { frame := f, seq := e.seq, place := .sram, again := some e.seq, ready := true })
  | none => if spanBlocked s port c (marked s (qIdx port c)) ∨ (port = 112 ∧ rxWaiting s c) then none else headOf s (qIdx port c)
/-- The head of class `c` where the queue is eligible but for the port shaper (R241). -/
def eligible (s : State) (port c : Nat) : Option QFrame :=
  if (eportOf s port).paused.testBit c then none
  else match nextOf s port c with
    | none => none
    | some f => if f.ready && gateFits s port c f.frame && fifoRoom s port f.frame then some f else none
/-- Tier 3 (R243). -/
def dwrrGo (s : State) (port : Nat) : Nat → Nat → Option Nat × State
  | 0, rr => (none, setEport s port { eportOf s port with rr := rr })
  | fuel + 1, rr =>
    let q := qIdx port rr
    let x := queueOf s q
    let quantum := max 1 (fld s (schPage port) (0x140 + 16 * rr) 19 4)
    match (if schMode s port rr = 1 ∧ shaperAllows s port then eligible s port rr else none) with
    | none => dwrrGo (setQueue s q { x with turn := false }) port fuel (nextDwrr s port rr)
    | some f =>
      let deficit := if x.turn then x.deficit else x.deficit + quantum
      let len : Int := if bitAt s (schPage port) 0x100 0 then 1 else schedLen s port f.frame
      if len ≤ deficit then
        (some rr, setEport (setQueue s q { x with deficit := deficit - len, turn := true }) port { eportOf s port with rr := rr })
      else dwrrGo (setQueue s q { x with deficit := deficit, turn := false }) port fuel (nextDwrr s port rr)
/-- Tier 2: strict queues, and CBS queues whose credit is 0 or more, highest class first. -/
def tier2 (s : State) (port : Nat) : Option Nat :=
  [7, 6, 5, 4, 3, 2, 1, 0].find? (fun c =>
    shaperAllows s port && (eligible s port c).isSome &&
    (schMode s port c == 0 || (schMode s port c == 2 && decide (0 ≤ (queueOf s (qIdx port c)).credit))))
/-- Age of a head in 2^-32 ns of TB0 (R246, R357). -/
def headAge (s : State) (f : QFrame) : Int := tbAt s 0 (now s) - tbThen s 0 (restore s f.frame.ts)
/-- The oldest of the queues passed over (R246). -/
def passedOver (s : State) (port : Nat) (choice : Option Nat) : Option Nat :=
  let l := (List.range 8).filterMap (fun c =>
    let limit := fld s (schPage port) (0x140 + 16 * c) 31 20
    match (if limit = 0 ∨ choice = some c ∨ !shaperAllows s port then none else eligible s port c) with
    | none => none
    | some f => if ((limit * 100000 * 2 ^ 32 : Nat) : Int) < headAge s f then some (c, headAge s f) else none)
  (l.foldl (fun (a : Option (Nat × Int)) b => match a with | none => some b | some x => if x.2 < b.2 then some b else a) none).map (·.1)
/-- R242: the class selected, with its tier. -/
def pick (s : State) (port : Nat) : Option (Nat × Nat) × State :=
  let t0 := bitAt s (gatPage port) 0x100 0 && port ≤ 105 && (gatesNow s port).testBit 7
  if t0 && (eligible s port 7).isSome then (some (7, 0), s)
  else
    let s2 := tier2 s port
    let d : Option Nat × State := match s2 with
      | some _ => (none, s)
      | none => if hasDwrr s port then dwrrGo s port 8 (let r := (eportOf s port).rr; if schMode s port r = 1 then r else nextDwrr s port r) else (none, s)
    let choice := s2.orElse (fun _ => d.1)
    match (if (eportOf s port).promoAfter ≤ tb0Time s then passedOver s port choice else none) with
    | some c => (some (c, 1), s)
    | none => match s2 with
      | some c => (some (c, 2), s)
      | none => (d.1.map (fun c => (c, 3)), d.2)
/-- A promotion is counted (R246). -/
def promoted (s : State) (port c : Nat) : State :=
  let s := setEport s port { eportOf s port with promoAfter := tb0Time s + usTime (fld s (schPage port) 0x100 31 16) }
  raise (inc (countReason s 5 0x8C) (schPage port) 0x10C) (schPage port) 0 0x8C c

/-- R240: the conditions of cut-through but the scheduler's. [DEDUCED, log 72] -/
def mayCutThrough (s : State) (port c : Nat) (f : QFrame) : Bool :=
  let q := qIdx port c
  bitAt s (tmsPage port) 0x100 c && port < 64 && decide (f.frame.ingress < 64) && decide (portKbps s port ≤ portKbps s f.frame.ingress) &&
  f.frame.pass == 0 && !f.frame.heldForIcv && (queueOf s q).frames.length == 1 && !inSpill s q && portFree s port &&
  serving s (portPage port) && serving s (editPage port) && f.place == .sram && !encapsulates s port f.frame
/-- FRAME_READY (R237 to R240): enough of a frame is in SRAM. A frame whose end has not arrived becomes ready only for
cut-through; R238 makes a frame 4,096 or more ahead wait; a frame whose number was skipped is late. [DEDUCED, log 57] -/
def readyNow (s : State) (q : Nat) (n : Word) : State :=
  let x := queueOf s q
  match x.frames.find? (fun f => f.seq == n) with
  | none => s
  | some f =>
    if x.skipped.contains n then raise (inc (discard s q f 5 0x83) rsqPage 0x108) rsqPage 1 0x83 q
    else if 4096 ≤ (n - x.nextSeq).toNat ∨ f.place = .dram ∨ f.place = .staged then s
    else if f.frame.complete ∧ f.frame.bad then qDrop (discard s q f 5 0) q f.frame
    else if f.frame.complete then setFrame s q n (fun f => { f with ready := true })
    else if mayCutThrough s (qPort q) (qTc q) f then
      let s' := setFrame s q n (fun f => { f with ready := true, cutThrough := true })
      match (pick (fillTokens s' (qPort q)) (qPort q)).1 with
      | some (c, _) => if c = qTc q then s' else s
      | none => s
    else s

/-! ### PTP (R363, R364) -/

/-- The transmit stamp of a frame that starts now (R89, R114). -/
def txStamp (s : State) (port : Nat) : Nat :=
  if 105 < port then stampNow s
  else ((now s : Int) + signedOf 16 (fld s (portPage port) 0x118 31 16) * 1536 / (100 : Nat)).toNat / 16 * 16
/-- The time base of a port's stamps (R359). -/
def portTb (s : State) (port : Nat) : Nat := efld (tget s tdsPage 0 0 port) 3 0
/-- Ones' complement sum of bytes as 16-bit words. -/
def words (bs : List Byte) : Nat := onesSum bs % 65535
/-- UDP checksums after an insertion (R363): 0 over IPv4; over IPv6 the two bytes behind the message make up for it. [DESIGN CHOICE, log 61] -/
def fixUdp (p : Parsed) (old new : List Byte) : List Byte :=
  if p.l4Off = 0 ∨ p.proto ≠ 17 then new
  else if p.l3 = 1 then splice new (p.l4Off + 6) (beBytes 2 0)
  else
    let n := beAt old (p.appOff + 2) 2
    let a := words (slice old p.appOff n)
    let b := words (slice new p.appOff n)
    let w := (beAt old (p.appOff + n) 2 + (65535 + a - b) * (if n % 2 = 0 then 1 else 256)) % 65535
    splice new (p.appOff + n) (beBytes 2 w)
/-- PTP treatment on transmit: one-step insertion of a marked message, residence time of a transparent clock. The
turnaround time of a Pdelay_Resp is not given, nor is the UDP checksum after a residence correction: free values. [DESIGN CHOICE, log 61] -/
def ptpEdit (s : State) (port : Nat) (f : Frame) (bs : List Byte) : List Byte × State :=
  let p := parse (parseCfg s (f.parser.getD (egressPipe port))) bs
  if !p.ptp ∨ 3 < p.ptpMsg then (bs, s)
  else
    let stamp := txStamp s port
    let add (v : Nat) : List Byte := splice bs (p.appOff + 8) (beBytes 8 ((beAt bs (p.appOff + 8) 8 + v) % 2 ^ 64))
    if f.ptp = 1 then
      if p.l3 = 2 ∧ bs.length < p.appOff + beAt bs (p.appOff + 2) 2 + 2 then (bs, s)
      else if p.ptpMsg = 0 then
        let v := tbAt s (portTb s port) stamp
        (fixUdp p bs (splice bs (p.appOff + 34) (beBytes 6 (secOf v % 2 ^ 48) ++ beBytes 4 (nsOf v))), s)
      else if p.ptpMsg = 3 then
        let r := fresh s
        (fixUdp p bs (add (r.1 % 2 ^ 64)), r.2)
      else (bs, s)
    else if port ≤ 105 ∧ s.tcPorts.testBit port ∧ f.ingress ≤ 105 then
      let out := add ((stamp - restore s f.ts) * rateOf s (portTb s port) / 2 ^ 48 % 2 ^ 64)
      if p.l3 = 0 then (out, s)
      else
        let r := fresh s
        (splice out (p.l4Off + 6) (beBytes 2 (r.1 % 65536)), r.2)
    else (bs, s)

/-! ### MACsec on transmit (R95 to R98) -/

/-- The transmit SA of a channel. [DEDUCED, log 47] -/
def txSa (s : State) (port k : Nat) : Entry := saEntry s (port / 16) k (efld (chanEntry s (port / 16) k) 78 78)
/-- R98: the transmit SA sends no more. -/
def pnExhausted (xpn : Bool) (pn : Nat) : Bool := if xpn then pn == 2 ^ 64 - 1 else decide (2 ^ 32 - 1 ≤ pn)
/-- Why the transmit side drops a frame: 0x0C exhausted, 0x0B no SA in use; 0 for none. [DEDUCED, log 47] -/
def msecTxVerdict (s : State) (port : Nat) (bs : List Byte) : Nat :=
  if macsecBytes s port bs = 0 then 0
  else match txChan s port with
    | none => 0
    | some k =>
      let a := txSa s port k
      if !(ebit a 511 && ebit a 450) then 0x0B
      else if pnExhausted (ebit (chanEntry s (port / 16) k) 69) (efld a 319 256) then 0x0C else 0
/-- A protected frame: SecTAG, data and ICV (R94, R95); next_pn advances, with the sources of R98. [PRESUMED, log 46] -/
def msecProtect (s : State) (port : Nat) (bs : List Byte) : List Byte × State :=
  match (if macsecBytes s port bs = 0 then none else txChan s port) with
  | none => (bs, s)
  | some k =>
    let r := port / 16
    let e := chanEntry s r k
    let a := txSa s port k
    let pn := efld a 319 256
    let enc := ebit e 73
    let tci := (if ebit e 74 then 0x20 else 0) + (if enc then 0x0C else 0) + efld a 449 448
    let data := bs.drop 12
    let n := clearBytes e enc data.length
    let sl := if data.length < 48 then data.length else 0
    let tag := beBytes 2 0x88E5 ++ beBytes 1 tci ++ beBytes 1 sl ++ beBytes 4 (pn % 2 ^ 32) ++ (if ebit e 74 then beBytes 8 (efld e 63 0) else [])
    let clear := bs.take 12 ++ tag ++ data.take n
    let out := clear ++ fitBytes (data.length - n + 16) (Config.macsecSeal (efld a 255 0) (macsecIv e a pn) clear (data.drop n))
    let s := tset s (msecPage r) 1 0 (2 * k + efld e 78 78) (esetFld a 319 256 (pn + 1))
    let s := if pn + 1 = rd64 s (msecPage r) 0x108 then raise s (msecPage r) 0 0 k else s
    (out, if pnExhausted (ebit e 69) (pn + 1) then raise s (msecPage r) 1 0 k else s)

/-! ### Span encapsulation (R312, R315, R323) -/


/-- Send a frame on a span link: sequenced and held for its acknowledgement where its class is custody-marked. The flag
says that the sender holds it. -/
def spanStart (s : State) (l q : Nat) (qf : QFrame) : Bool × SpanHeader × State :=
  let f := qf.frame
  let c := qTc q
  if !marked s q then (false, dataHdr s l f false false 0, s)
  else
    let x := spaceOf s l c
    let h := dataHdr s l f true false x.nxt
    let fromPages := qf.place == .refill && !qf.pages.isEmpty
    let sent : SpanSent := { seq := x.nxt, frame := some f, buf := if fromPages then none else qf.buf, pages := if fromPages then qf.pages else [], sentBc := tb0Time s }
    let s := setSpace s l c { x with nxt := x.nxt + 1, sent := x.sent ++ [sent] }
    let s := addCounter (addCounter s (spnLinkPage l) 1 c 0 1) (spnLinkPage l) 1 c 1 (frameLen f + 28)
    let s := if fromPages then forEach s qf.pages (fun s p => opAddref s .pages p (bufOf s .pages p).owner 1)
      else match qf.buf with
        | some b => if qf.shared then s else opAddref s .granules b (tmsReq q) 1
        | none => s
    (!fromPages, h, s)

/-! ### Start and end of a transmission -/

/-- Why a selected frame is dropped in place of being sent: the reason with the region that counts it, none where it
goes out (R81, R99, R112, R161, R232, R313, R98, R488). [DEDUCED, log 72] -/
def sendVerdict (s : State) (port : Nat) (qf : QFrame) (e : Edit) : Option (Nat × Nat) :=
  let f := qf.frame
  let badBuf := match qf.buf with | none => false | some b => (bufOf s .granules b).bad
  if port ≤ 105 ∧ (!serving s (portPage port) ∨ !serving s (editPage port)) then some (portRegion port, 0xE1)
  else if badBuf then some (5, 0x6D)
  else if f.complete ∧ f.bad ∧ !qf.cutThrough then some (5, 0)
  else if !f.isMirror ∧ port ≠ 112 ∧ f.unverified then some (portRegion port, if port < 64 then 0x0D else 0x12)
  else if !f.isMirror ∧ port ≠ 112 ∧ f.trunc ∧ !qf.cutThrough then some (portRegion port, if 64 ≤ port ∧ port ≤ 105 then 0x12 else 0x03)
  else if e.fails then some (egressPipe port, 0x4F)
  else if encapsulates s port f ∧ maxFrame s port < lenAfter s port f then some (portRegion port, 0xB9)
  else
    let m := msecTxVerdict s port e.bytes
    if m ≠ 0 then some (portRegion port, m) else none
/-- What is wrong with a frame's granules is their state records alone, which have been reported (R232). -/
def recordsOnly (s : State) (f : QFrame) : Bool :=
  match f.buf with
  | none => false
  | some b => let l := (bufOf s .granules b).badGran; !l.isEmpty && l.all s.gran.parBad.contains
/-- The sources and counters of such a drop beside the reason. -/
def dropNotes (s : State) (port reason : Nat) : State :=
  match reason with
  | 0x6D => raise s bpmPage 9 0x6D
  | 0x4F => if port < 64 then raise (inc s (eplPage (port / 16)) 0x110) (eplPage (port / 16)) 0 0x4F else s
  | 0x0C => raise s (msecPage (port / 16)) 1 0x0C
  | _ => s
/-- The session that mirrors what a port sends, 0 for none (R482). -/
def txSession (s : State) (port : Nat) : Nat := if 105 < port then 0 else efld (tget s mirPage 1 0 port) 7 4
/-- What a mirror copy of a transmission says of it (R481). -/
def txCopyInfo (n port : Nat) (t : Tx) : CopyInfo :=
  let f := t.qf.frame
  { session := n, dir := 1, trunc := f.trunc, cut := false, dropped := false, inPort := f.ingress, outPort := port, reason := 0, tc := f.tc
    colour := f.colour, origLen := t.wire.length, ts := t.stamp % 2 ^ 64 }
/-- The mirror copy of a transmission is made (R477). -/
def egressCopy (s : State) (n port : Nat) (t : Tx) : State :=
  mirrorMake s n { t.qf.frame with bytes := t.wire } (txCopyInfo n port t)
/-- The start of a transmission: its mirror copy is made, or held in MIR until the transmission ends where `hold` says so (R477, R479). [DEDUCED, log 73] -/
def egressMirror (s : State) (port : Nat) (hold : Bool) : State :=
  match (eportOf s port).tx with
  | none => s
  | some t =>
    let r := mirrorSample s (txSession s port) t.qf.frame (portRegion port)
    if !r.1 then r.2
    else if hold then setEport r.2 port { eportOf r.2 port with tx := some { t with mirror := txSession s port } }
    else egressCopy r.2 (txSession s port) port t
/-- A two-step stamp enters its region's FIFO, or is lost (R364). [DEDUCED, log 74] -/
def pushStamp (s : State) (port stamp : Nat) (f : Frame) : State :=
  match f.tsTag with
  | none => s
  | some (ring, tag) =>
    let r := portRegion port
    let cap := if r < 4 then 64 else 16
    if cap ≤ (s.stamps.filter (fun t => portRegion t.port == r)).length then raise (inc s tdsPage 0x104) tdsPage 1 0 port
    else { s with stamps := s.stamps ++ [{ port := port, ring := ring, tag := tag, bc := stamp }] }

/-- A frame that the span sender holds starts again (R320, R324, R325). It stays held whatever becomes of this transmission; where the
egress side could not send it, it waits. -/
def startAgain (s : State) (port c : Nat) (f : QFrame) : State :=
  let e := egressEdit s port f.frame
  match dueOf s port c, sendVerdict s port f e with
  | some (l, x), none =>
    let len := schedLen s port f.frame
    let h := dataHdr s l f.frame true (decide (0 < x.sends)) x.seq
    let p := ptpEdit (sentAgain s l c x) port f.frame e.bytes
    let m := msecProtect p.2 port (encapHeader p.2 (peerMac p.2 l) h ++ p.1)
    let s := chargeTokens (pushStamp m.2 port (txStamp m.2 port) f.frame) port len
    let s := setEport s port { eportOf s port with
      tx := some { queue := qIdx port c, qf := f, startBc := now s, len := len, gateEpoch := (gatBank s port).epoch, held := true, hdr := some h
                   wire := m.1, stamp := txStamp s port } }
    egressMirror s port false
  | _, _ => s
/-- The head of class `c` starts (R237, R242), or is dropped. [DEDUCED, log 72] -/
def startTx (s : State) (port c : Nat) (f : QFrame) : State :=
  if f.again.isSome then startAgain s port c f
  else
  let q := qIdx port c
  let e := egressEdit s port f.frame
  match sendVerdict s port f e with
  | some (region, reason) =>
    let t := discard (if [0x4F, 0xB9, 0x0B, 0x0C].contains reason then editCounts s port e else s) q f region reason
    if reason = 0 then qDrop t q f.frame else if reason = 0x6D ∧ recordsOnly s f then t else dropNotes t port reason
  | none =>
    let len := schedLen s port f.frame
    let s := report (setFrames s q ((queueOf s q).frames.filter (fun g => g.seq != f.seq))) q f.seq
    let s := qCount (qCount s q 2 1) q 3 (frameLen f.frame)
    let s := editCounts s port e
    let p := ptpEdit s port f.frame e.bytes
    let sp : Bool × Option SpanHeader × List Byte × State := match (if encapsulates s port f.frame then spanLinkOf s port else none) with
      | none => (false, none, p.1, p.2)
      | some l =>
        let r := spanStart p.2 l q f
        (r.1, some r.2.1, encapHeader r.2.2 (peerMac r.2.2 l) r.2.1 ++ p.1, r.2.2)
    let m := msecProtect sp.2.2.2 port sp.2.2.1
    let s := if isT1s port then m.2 else pushStamp m.2 port (txStamp m.2 port) f.frame
    let s := chargeTokens s port len
    let s := setEport s port { eportOf s port with
      tx := some { queue := q, qf := f, startBc := now s, len := len, gateEpoch := (gatBank s port).epoch, held := sp.1, hdr := sp.2.1
                   wire := m.1, stamp := txStamp s port } }
    egressMirror s port (f.cutThrough || isT1s port)
/-- A T1S frame that collided starts again, from the MAC that kept it: stamped anew (R109, R110, R114). -/
def restartTx (s : State) (port : Nat) : State :=
  match (eportOf s port).tx with
  | none => s
  | some t =>
    let s := setColl s port { collOf s port with waiting := false, slots := 0 }
    let p := ptpEdit s port t.qf.frame (egressEdit s port t.qf.frame).bytes
    setEport p.2 port { eportOf p.2 port with tx := some { t with wire := p.1, startBc := now s, stamp := txStamp s port } }
/-- The back-off of a collided frame has run (R109). -/
def mayRetry (s : State) (port : Nat) : State := if (collOf s port).waiting ∧ !plcaLive s port then restartTx s port else s

/-- What a selection charges on a port whose frames leave at once, the host and the engine port (R245 to R247). -/
def chargeNow (s : State) (port c tier : Nat) (f : QFrame) : State :=
  let len := schedLen s port f.frame
  let s := chargeTokens (if tier = 1 then promoted s port c else s) port len
  if schMode s port c ≠ 2 then s
  else
    let x := queueOf s (qIdx port c)
    setQueue s (qIdx port c) { x with credit := x.credit + sendSlope s port c * (creditSpan s port len : Nat) }
/-- A selection of the host or the engine port: the class and its tier, the head, the state before the choice and after it. -/
def chooseNow (s : State) (port : Nat) : Option (Nat × Nat × QFrame) × State × State :=
  let s := fillTokens (creditTick s port) port
  if !portFree s port then (none, s, s)
  else
    let r := pick s port
    (r.1.bind (fun c => (headOf r.2 (qIdx port c.1)).map (fun f => (c.1, c.2, f))), s, r.2)

/-- One selection of a port (R242). -/
def selectNow (s : State) (port : Nat) : State :=
  let s := gateOversize (fillTokens (creditTick s port) port) port
  if !portFree s port then s
  else
    let r := pick s port
    match r.1 with
    | none => r.2
    | some (c, tier) =>
      match nextOf r.2 port c with
      | none => r.2
      | some f => startTx (if tier = 1 then promoted r.2 port c else r.2) port c f
/-- SCHEDULER_SELECT: a T1S port with active PLCA starts frames only in its transmit opportunity (R108). [PRESUMED, log 114] -/
def schedSelect (s : State) (port : Nat) : State :=
  if isT1s port ∧ plcaLive s port then
    let e := eportOf s port
    if 0 < e.burst ∧ now s ≤ e.burstUntil then selectNow (setEport s port { e with burst := e.burst - 1 }) port else s
  else selectNow s port
/-- A transmit opportunity opens: burst_count further frames may follow its first (R116). [PRESUMED, log 114] -/
def openTurn (s : State) (port : Nat) : State :=
  let e := eportOf s port
  setEport s port { e with burst := bitsOf e.plca 39 32, burstUntil := 0 }
/-- PLCA_TX_OPPORTUNITY: a coordinator's follows its BEACON; a frame that collided goes first, else one is selected (R107, R110). -/
def plcaSend (s : State) (port : Nat) : State :=
  if !(isT1s port ∧ plcaLive s port) then s
  else
    let s := beaconOut s port
    if (collOf s port).waiting then restartTx s port else selectNow (openTurn s port) port
/-- The burst timer of a segment runs from the end of a frame: burst_timer bit times of 100 ns (R116). [PRESUMED, log 114] -/
def burstTimer (s : State) (port : Nat) : State :=
  let e := eportOf s port
  if isT1s port ∧ 0 < e.burst then setEport s port { e with burstUntil := now s + bitsOf e.plca 47 40 * 15360 } else s

/-- Transmit counters of a port (R472). -/
def countTx (s : State) (port : Nat) (wire : List Byte) (stomped : Bool) : State :=
  if 105 < port then s
  else if stomped then portCount s port 12 1
  else
    let s := portCount (portCount s port 8 1) port 9 (wire.length + 4)
    let d := beAt wire 0 6
    if d = broadcastMac then portCount s port 11 1 else if isMulticast d then portCount s port 10 1 else s
/-- TRANSMIT_COMPLETE: the buffer's hold goes, the frame is counted; a cut-through frame whose end has not come ran dry
(R83), and one that failed or was truncated ends stomped (R81, R82). [DEDUCED, log 73] -/
def completeTx (s : State) (port : Nat) : State :=
  let s := creditTick s port
  let e := eportOf s port
  match (if (collOf s port).waiting then none else e.tx) with
  | none => s
  | some t =>
    let f := t.qf.frame
    let dry := t.qf.cutThrough && !f.complete
    let stomp := t.stomp || dry || (t.qf.cutThrough && f.trunc)
    let s := if dry then countReason s (portRegion port) 0x0E else s
    let s := burstTimer (setColl (setEport (creditEnd s port t) port { e with tx := none }) port {}) port
    let s := gatFree s port
    let s := if t.held ∧ t.qf.shared then s else dropBuf s t.queue t.qf
    let s := if t.qf.again.isSome then s else releaseRecord s t.queue t.qf.pages
    let s := if isT1s port then pushStamp s port t.stamp f else s
    let s := if stomp then mirrorAbort s t.mirror else if t.mirror = 0 then s else egressCopy s t.mirror port t
    emit (countTx s port t.wire stomp) (.tx port t.wire stomp)

/-! ### The spill path (R217 to R219, R275, R282, R283) -/

/-- A frame's record stands in DRAM: its granules go. -/
def toDram (s : State) (q : Nat) (f : QFrame) (pages : List Nat) (off : Nat) (tail : Option (Nat × Nat)) (image : List Byte) : State :=
  let s := dropBuf s q f
  let s := setFrame s q f.seq (fun g => { g with place := .dram, buf := none, shared := false, pages := pages, off := off, image := image, job := none })
  setQueue s q { queueOf s q with tail := tail }
/-- The staged frame of a slice that arrived first (R218). [DEDUCED, log 68; DEDUCED, log 122] -/
def firstStaged (s : State) (slice : Nat) : Option (Nat × QFrame) :=
  (s.queues.flatMap (fun e => if sliceOf (qPort e.1) = slice then (e.2.frames.filter (fun f => f.place == .staged)).map (fun f => (e.1, f)) else [])).foldl
    (fun (a : Option (Nat × QFrame)) b => match a with | none => some b | some x => if b.2.stagedAt < x.2.stagedAt then some b else a) none
    |>.filter (fun v => v.2.frame.complete)
/-- The queue leaves spill mode, or OVERFLOW, when nothing is staged or in DRAM (R215, R279). -/
def spillDone (s : State) (q : Nat) : State :=
  let x := queueOf s q
  if x.frames.any (fun f => f.place == .staged || f.place == .dram) then s
  else
    let s := setQueue s q { x with spill := false }
    if (cqOf s q).st = 1 then setCq s q { cqOf s q with st := 0 } else s
/-- A staged custody frame that the store turns away (R282, R283): a refused copy of its job (R261). -/
def stagedRefused (s : State) (q : Nat) (f : QFrame) (reason : Nat) : State := custodyCount (qDrop (discard s q f 6 0) q f.frame) q reason
/-- A staged frame of a custody queue becomes a record: of the queue itself in OVERFLOW, behind the custody queue in the
other states (R275, R279). The job it belongs to hears that it was admitted. [DEDUCED, log 68] -/
def writeStaged (s : State) (q : Nat) (f : QFrame) : State :=
  if !cstReady s then stagedRefused s q f 0xA0
  else if 2 ≤ (cqOf s q).st then
    let r := writeCustody s q f.frame false (some (f.cts, f.untimed)) f.seq
    let s := discard (jobDone r.2 f.job r.1) q { f with job := none } 6 0
    if r.1 then qCount s q 7 1 else s
  else match recordBar (qPort q) f.frame with
  | some (region, reason) => if reason = 0 then qDrop (discard s q f 6 0) q f.frame else discard s q f region reason
  | none =>
    let v := quotaVerdict s q (recSize f.frame) (queueOf s q).tail
    if v.1 ≠ 0 then stagedRefused v.2 q f v.1
    else
      let off := recOff (queueOf v.2 q).tail
      match appendRecord v.2 4 6 (queueOf v.2 q).tail (recSize f.frame) with
      | (none, s) => stagedRefused s q f 0xA4
      | (some (pages, tail), s) =>
        qCount (jobDone (toDram (tagPages s q pages f.cts) q f pages off tail (recImage f.frame f.cts f.seq f.untimed)) f.job true) q 7 1
/-- SPILL_WRITE: the slice writes its oldest staged frame. One for which no page is granted is discarded with 0x60, whatever made the
grant fail (R218). -/
def spillOne (s : State) (slice : Nat) : State :=
  match firstStaged s slice with
  | none => s
  | some (q, f) =>
    if marked s q then spillDone (writeStaged s q f) q
    else
      let off := recOff (queueOf s q).tail
      match appendRecord s (spillReq q) 5 (queueOf s q).tail (recSize f.frame) (some 0x60) with
      | (none, s) => spillDone (qDrop (discard s q f 5 0) q f.frame) q
      | (some (pages, tail), s) => toDram s q f pages off tail (recImage f.frame f.frame.ts f.seq false)

/-- The age limit of a custody queue in ns (R280, R300). -/
def ageLimit (s : State) (q : Nat) : Nat := clampN (efld (tget s cstPage 0 0 q) 23 2) 1 2592000 * 10 ^ 9
/-- A record is past its limit (R280, R281). -/
def expired (s : State) (q cts : Nat) (untimed : Bool) : Bool :=
  tbValid s 0 &&
    (let t := tb0Ns s (now s)
     let from' := if untimed then s.cust.tb0ValidAt else cts
     decide (ageLimit s q < t - from'))
/-- The refill window of a port in granules (R219). [DEDUCED, log 69] -/
def refillWindow (s : State) (port : Nat) : Nat := max 16 (16 * portKbps s port / 10000000)
/-- Granules of the window that are taken: read back and not yet on their way out; replayed frames, once in the SRAM queue, are new
arrivals there (R219, R284). [DEDUCED, log 69] -/
def refillGran (x : Queue) : Nat :=
  ((x.frames.filter (fun f => f.place == .refill && !(f.replayed && f.ready))).map (fun f => granulesOf f.frame)).sum
/-- A page that the record touches has been taken out of service with its channel (R293). -/
def unreadable (s : State) (pages : List Nat) : Bool := pages.any (fun p => (bufOf s .pages p).bad)
/-- Count 0x6B (R221, R230, R231). -/
def metaErr (s : State) : State := inc (countReason s 6 0x6B) ppmPage 0x138
/-- PPM reads the descriptors of the pages that a chain leads it to (R221). One that is uncorrectable is rewritten from its link copy;
where that is uncorrectable too, the chain ends and the answer is false. -/
def readChain (s : State) : List Nat → Bool × State
  | [] => (true, s)
  | p :: l =>
    if !wordBad s (descWord s p) then readChain s l
    else
      let s := raise (metaErr s) ppmPage 6 0x6B
      if wordBad s (linkWord s p) then (false, s) else readChain (mendWords s (fun d => d == descWord s p)) l
/-- Pages in which an uncorrectable word was read are marked bad (R220). -/
def markBad (s : State) (words : List (Nat × Nat)) : State :=
  forEach s ((words.map (·.1)).eraseDups) (fun s p => setBuf s .pages p { bufOf s .pages p with bad := true })
/-- The chain of a queue's spilled frames ends: they are discarded with 0x6B, and the pages not reached stay HELD (R221). -/
def chainLost (s : State) (q : Nat) : State :=
  let l := (queueOf s q).frames.filter (fun f => f.place == .dram)
  let x := queueOf s q
  let s := setQueue s q { x with tail := none, frames := x.frames.map (fun f => if f.place = .dram then { f with pages := [] } else f) }
  forEach s l (fun s f => metaErr (qDrop (discard s q { f with pages := [] } 6 0) q f.frame))
/-- SPILL_REFILL: the queue's next record is read back into SRAM. A record with an uncorrectable word is discarded; where it is the
header, so is every later record that begins in the page (R220). [DEDUCED, log 69] -/
def refillOne (s : State) (q : Nat) : State :=
  match (queueOf s q).frames.find? (fun f => f.place == .dram) with
  | none => s
  | some f =>
    let ch := readChain s f.pages
    let s := ch.2
    let x := queueOf s q
    let hit := badWords s f.pages f.off (recSize f.frame)
    let hdr := badWords s f.pages f.off 16
    if !ch.1 then spillDone (chainLost s q) q
    else if unreadable s f.pages ∨ !hit.isEmpty then
      let s := markBad s hit
      let lost := x.frames.filter (fun g => g.place == .dram && (g.seq == f.seq || hdr.any (fun d => g.pages.head? == some d.1)))
      if marked s q then spillDone (forEach s lost (fun s g => stagedRefused s q g 0xA6)) q
      else spillDone (raise (forEach s lost (fun s g => discard s q g 5 0x6C)) ppmPage 7 0x6C) q
    else if marked s q ∧ expired s q f.cts f.untimed then spillDone (stagedRefused s q f 0xA1) q
    else if refillGran x ≠ 0 ∧ refillWindow s (qPort q) < refillGran x + granulesOf f.frame then s
    else match grant s .granules (tmsReq q) (granulesOf f.frame) 5 with
      | (none, s) => s
      | (some b, s) =>
        let keep := isSpanPort s (qPort q) && marked s q
        let s := setFrame s q f.seq (fun g => { g with place := .refill, buf := some b, pages := if keep then g.pages else [] })
        let s := if marked s q then countEnq s q f.frame else s
        spillDone (if keep then s else releaseRecord s q f.pages) q

end Sys2Proof.Machine
end

