-- ==== Sys2Proof/Machine/SpanRxOps.lean ====
section
/-! DEFINITION. Span links at work: enabling, HELLO and authentication (R307 to R310), reception of DATA, LEARN and CTRL
frames (R314, R318), acknowledgement (R319, R320), timers (R317), handover and rejoin (R324, R325), learning across the
pair (R330 to R332), time across the pair (R333), split and rejoin (R329). -/

namespace Sys2Proof.Machine

/-! ### Enabling (R305, R307, R310) -/

/-- SPN_LOCAL_MAC is unusable (R307). -/
def badSpanMac (s : State) : Bool := s.span.mac == 0 || isMulticast s.span.mac
/-- An enabled link of an enabled pair leaves OFF for HELLO, or is refused. -/
def linkTry (s : State) (l : Nat) : State :=
  let p := spnLinkPage l
  if !bitAt s p 0x100 0 ∨ !s.span.on ∨ spanLinkState s l ≠ 0 then s
  else if badSpanMac s then raise s spnPairPage 2
  else if (linkOf s l).port.isNone then raise s p 5
  else setLinkState s l 1
/-- SPN_PAIR_CFG.enable 0 to 1: the identity is sampled. -/
def pairStart (s : State) : State :=
  let s := { s with span := { s.span with on := true, mac := rd64 s spnPairPage 0x110 % 2 ^ 48 } }
  forEach (if badSpanMac s then raise s spnPairPage 2 else s) (List.range 8) linkTry
/-- A link goes to OFF (R310, R324); its queues treat the port's link as not good. -/
def linkOff (s : State) (l : Nat) : State :=
  let was := joined s l
  let port := (linkOf s l).port
  let s := if was then updateActive (copyHeld (setLinkState s l 0) l) else setLinkState s l 0
  let s := if was then splitCheck s else s
  let s := setLink s l { linkOf s l with port := none, offered := false }
  match port with
  | some p => if was then linkNotGood s p else s
  | none => s
/-- SPN_PAIR_CFG.enable 1 to 0: the session ends and every link is OFF. -/
def pairStop (s : State) : State :=
  let s := endSession s
  let s := { s with span := { s.span with on := false } }
  forEach s (List.range 8) (fun s l => if spanLinkState s l = 0 then s else
    let p := (linkOf s l).port
    setLink (linkOff s l) l { linkOf (linkOff s l) l with port := p })
/-- SPN_LINK_CFG.enable 0 to 1: the port is sampled. -/
def linkOn (s : State) (l : Nat) : State :=
  let port := fld s (spnLinkPage l) 0x100 7 1
  let ok := port / 16 = linkRegion l
  linkTry (setLink s l { linkOf s l with port := if ok then some port else none }) l

/-! ### HELLO and authentication (R307 to R309) -/

/-- The port of a link is UP; while the link is LOST, which keeps its port from UP (R310), the port's own link must be good. [DEDUCED, log 78] -/
def spanPortUp (s : State) (l : Nat) : Bool :=
  match (linkOf s l).port with
  | none => false
  | some p => linkState s p == 2 || (linkState s p != 0 && spanLinkState s l != 3 && linkGood s p)
def helloOut (s : State) (l : Nat) : State :=
  if spanLinkState s l = 0 ∨ !spanPortUp s l ∨ !s.span.on then s
  else emit s (ctrlFrame s l "HELLO" [mySerial, s.span.mac, session s] (BitVec.ofNat 32 (session s)))
/-- Count 0xB8 (R309, R314). -/
def peerMismatch (s : State) (l : Nat) : State := countReason s (linkRegion l) 0xB8
def partnerSerial (s : State) : Nat := rd64 s spnPairPage 0x138
/-- A HELLO shows that the partner has another session, or none where it had one: it has restarted (R309). [DEDUCED, log 78] -/
def partnerRestarted (s : State) (l sess : Nat) : Bool :=
  session s != 0 && sess != session s && (sess != 0 || (linkOf s l).peerSession != 0)
/-- The exchange of R308 starts. [DEDUCED, log 78] -/
def startAuth (s : State) (l serial mac sess : Nat) : State :=
  let r := fresh s
  let s := setLink r.2 l { linkOf r.2 l with peer := serial, peerMac := mac, peerSession := sess, offered := false, lastHello := tb0Time s }
  emit (setLinkState s l 2) (ctrlFrame s l "AUTH_OFFER" [mySerial, r.1 % 2 ^ 256])
/-- A HELLO keeps a joined link alive; in HELLO or LOST it starts an exchange. On a link that is joined while the
session is over, the exchange starts anew. [DEDUCED, log 78] -/
def helloIn (s : State) (l serial mac sess : Nat) : State :=
  let x := linkOf s l
  let st := spanLinkState s l
  if st = 3 then
    if mac ≠ rd64 s (spnLinkPage l) 0x118 % 2 ^ 48 ∨ serial ≠ x.peer then peerMismatch s l
    else if partnerRestarted s l sess ∨ pairState s = 0 then startAuth (endSession (updateActive (setLinkState s l 1))) l serial mac sess
    else
      let s := setLink s l { x with lastHello := tb0Time s, peerSession := sess }
      if session s = 0 ∧ sess ≠ 0 then wr s spnPairPage 0x140 (BitVec.ofNat 32 sess) else s
  else if st ≠ 1 ∧ st ≠ 4 then s
  else if pairState s ≠ 0 ∧ partnerSerial s ≠ serial then peerMismatch s l
  else if tb0Time s < x.retryAt then s
  else startAuth (if partnerRestarted s l sess then endSession s else s) l serial mac sess
/-- R308 fails or times out: HELLO again, and no new exchange for 1 s. -/
def authFail (s : State) (l : Nat) : State :=
  let s := setLink s l { linkOf s l with offered := false, retryAt := tb0Time s + msTime 1000 }
  raise (countReason (setLinkState s l 1) (linkRegion l) 0xB7) spnPairPage 2 0xB7 l
/-- [DESIGN CHOICE, log 80] -/
def offerIn (s : State) (l serial : Nat) (chainOk ownerMatch : Bool) : State :=
  if spanLinkState s l ≠ 2 then s
  else
    let want := rd64 s spnPairPage 0x108
    let ok := chainOk && (want == 0 || want == serial) && serial == (linkOf s l).peer && (ownerMatch || !bitAt s spnPairPage 0x100 2)
    if ok then emit (setLink s l { linkOf s l with offered := true }) (ctrlFrame s l "AUTH_PROOF" [mySerial])
    else authFail s l

/-! ### Learning across the pair (R330 to R332) -/

/-- A learn event as the number that R185 gives it. -/
def eventWord (e : LearnEvent) : Nat :=
  e.kind.toNat + e.pipe.toNat * 4 + e.port.toNat * 2 ^ 8 + e.fid.toNat * 2 ^ 16 + e.mac.toNat * 2 ^ 28 + e.ts.toNat * 2 ^ 76
/-- The LEARN frame that is filling goes out, or is lost (R330, R332). -/
def learnFlush (s : State) : State :=
  if s.span.learn.isEmpty then s
  else
    let evs := s.span.learn
    let s := { s with span := { s.span with learn := [] } }
    let r : Bool × State := match activeLink s with
      | none => (false, s)
      | some l => sendCtrl s l "LEARN" (evs.map eventWord)
    if r.1 then r.2
    else
      let s := countReason r.2 0 0xBB
      raise { s with span := { s.span with bulk := true } } spnPairPage 5 0xBB
/-- learn_x of the active link. -/
def learnCrosses (s : State) : Bool := match activeLink s with | none => false | some l => bitAt s (spnLinkPage l) 0x100 8
/-- A learn event for the partner: frames carry up to 88. -/
def learnOut (s : State) (e : LearnEvent) : State :=
  if !learnCrosses s then s
  else
    let s := { s with span := { s.span with learn := s.span.learn ++ [e] } }
    if 88 ≤ s.span.learn.length then learnFlush s else s
/-- The learn event of an origin-0 entry. -/
def entryEvent (k : Nat) (e : Entry) : LearnEvent :=
  { kind := 0, pipe := BitVec.ofNat 3 k, port := BitVec.ofNat 8 (efld e 77 70), fid := BitVec.ofNat 12 (efld e 59 48)
    mac := BitVec.ofNat 48 (efld e 47 0), ts := BitVec.ofNat 40 (efld e 126 87) }
/-- The valid origin-0 entries of a pipeline. -/
def ownEntries (s : State) (k : Nat) : List Entry :=
  ((fdbListed s k).filter (fun e => ebit e.2 127 && efld e.2 63 62 == 0)).map (·.2)
/-- R332: every origin-0 entry of every pipeline as a learn event. -/
def bulkSync (s : State) : State :=
  if !learnCrosses s then s
  else
    let s := { s with span := { s.span with bulk := false } }
    learnFlush (forEach s [0, 1, 2, 3, 4] (fun s k => forEach s (ownEntries s k) (fun s e => learnOut s (entryEvent k e))))
/-- The bulk synchronisation is repeated once the space has room. -/
def bulkAgain (s : State) : State :=
  match activeLink s with
  | some l => if s.span.bulk && spanRoom s l 8 then bulkSync s else s
  | none => s

/-! ### Joining (R309, R324, R329) -/

/-- The own rcv_cum of every space. -/
def myCums (s : State) (l : Nat) : List Nat := (List.range 9).map (fun c => (spaceOf s l c).rcvCum.toNat)
/-- A new session: its identifier is drawn by the primary. [DESIGN CHOICE, log 80] -/
def newSession (s : State) (l : Nat) : State :=
  let x := linkOf s l
  let primary := decide (mySerial < x.peer)
  let s := { s with span := { s.span with handover := none } }
  let s := wr64 (setBit s spnPairPage 0x130 3 primary) spnPairPage 0x138 x.peer
  let r := fresh s
  if primary then wr r.2 spnPairPage 0x140 (BitVec.ofNat 32 (r.1 % (2 ^ 32 - 1) + 1))
  else wr s spnPairPage 0x140 (BitVec.ofNat 32 x.peerSession)
/-- R308 completes: the link is joined. -/
def joinLink (s : State) (l : Nat) : State :=
  let st := pairState s
  let s := if st = 0 then newSession s l else s
  let rejoin := st ≠ 0 ∧ (linkOf s l).member
  let s := wr64 s (spnLinkPage l) 0x118 (linkOf s l).peerMac
  let s := setLink s l { linkOf s l with offered := false, closed := false, member := true, awaitCum := decide rejoin, lastHello := tb0Time s }
  let s := raise (setLinkState s l 3) (spnLinkPage l) 0
  let s := if rejoin then (sendCtrl s l "RCV_CUM" (myCums s l)).2 else s
  let s := updateActive s
  if st = 1 then s
  else
    let s := raise (setPairState (setBit s spnPairPage 0x130 7 false) 1) spnPairPage 0
    if st = 0 then bulkSync s else s
/-- [DESIGN CHOICE, log 80] -/
def proofIn (s : State) (l : Nat) (ok : Bool) : State :=
  if spanLinkState s l ≠ 2 then s
  else if ok ∧ (linkOf s l).offered then joinLink s l else authFail s l
/-- AUTH_TIMEOUT: 1 s after the exchange began. -/
def authLate (s : State) (l : Nat) : State :=
  if spanLinkState s l = 2 ∧ (linkOf s l).lastHello + msTime 1000 ≤ tb0Time s then authFail s l else s
/-- The link is lost by its own timers (R310): the port's link is treated as not good. -/
def linkDead (s : State) (l : Nat) : State :=
  if !joined s l then s
  else
    let s := spanLost s l
    match (linkOf s l).port with
    | some p => linkNotGood s p
    | none => s
/-- HELLO_DEAD: no HELLO for dead × hello_ms (R310). -/
def helloDead (s : State) (l : Nat) : State :=
  let ms := max 1 (fld s spnPairPage 0x104 7 0) * max 1 (fld s spnPairPage 0x104 15 8)
  if (linkOf s l).lastHello + msTime ms ≤ tb0Time s then linkDead s l else s

/-! ### Reception (R314, R318, R319) -/

/-- md.ts of a DATA frame that arrived at `at'`: its TB0 value is the arrival less the age (R314). [DEDUCED, log 78] -/
def agedStamp (s : State) (at' age : Nat) : Nat := (at' - age * 10 ^ 6 * 2 ^ 64 / max 1 (rateOf s 0)) % 2 ^ 64
/-- The carried frame with its metadata. -/
def carried (s : State) (port at' : Nat) (h : SpanHeader) (bytes : List Byte) : Frame :=
  { id := s.nextId, bytes := bytes, ingress := port, ts := agedStamp s at' h.age.toNat, tc := h.tc.toNat, colour := h.colour.toNat
    trunc := h.trunc, viaSpan := some h.src.toNat, spanClass := (h.tc.toNat, h.colour.toNat), partner := if h.destKind = 0 then none else some (h.destKind.toNat, h.dest.toNat) }
/-- Granules for a received frame (R208, R224). -/
def spanGrant (s : State) (f : Frame) : Option Nat × State :=
  let k := pipeOfPort f.ingress
  if overLimit s f.ingress none then (none, rxDrop (countReason s k 0x66) f.ingress)
  else match grant s .granules k (granulesOf f) k with
    | (none, s) => (none, rxDrop s f.ingress)
    | (some b, s) => (some b, charge s b f.ingress none (granulesOf f))
/-- A released frame in the span set (R473). [DESIGN CHOICE, log 154] -/
def countReleased (s : State) (l c n : Nat) : State :=
  addCounter (addCounter s (spnLinkPage l) 1 c 2 1) (spnLinkPage l) 1 c 3 n
/-- Release to the pipeline (R318), counted in the span set. -/
def releaseIn (s : State) (l c : Nat) (f : Frame) (b : Nat) : State :=
  let s := if c < 9 then countReleased s l c (frameLen f + 28) else s
  pipeArrive s (pipeOfPort f.ingress) { frame := f, buf := b }
/-- Release of a LEARN frame (R318, R330): its events go to every accepting pipeline. -/
def releaseLearn (s : State) (l : Nat) (evs : List LearnEvent) : State :=
  forEach (countReleased s l 8 (ctrlLen "LEARN" (evs.map eventWord))) evs (fun s e => forEach s [0, 1, 2, 3, 4] (fun s k => applyEvent s k e true))
/-- One more frame of a space has arrived since the last ACK (R319). -/
def noteArrival (s : State) (l c : Nat) : State :=
  let x := spaceOf s l c
  let n := x.sinceAck + 1
  let s := setSpace s l c { x with sinceAck := n }
  if max 1 (fld s (spnLinkPage l) 0x104 7 0) ≤ n then sendAck s l c else s
/-- Held frames that follow without a gap (R318). -/
def releaseHeld (l c : Nat) : Nat → State → Bool × State
  | 0, s => (false, s)
  | fuel + 1, s =>
    let x := spaceOf s l c
    match x.ooo.find? (fun e => e.1 == x.rcvCum) with
    | some (n, f, b) =>
      let s := setSpace s l c { x with rcvCum := x.rcvCum + 1, ooo := x.ooo.filter (fun e => e.1 != n) }
      (true, (releaseHeld l c fuel (match b with | some b => releaseIn s l c f b | none => s)).2)
    | none => match x.oooLearn.find? (fun e => e.1 == x.rcvCum) with
      | none => (false, s)
      | some (n, evs) =>
        let s := setSpace s l c { x with rcvCum := x.rcvCum + 1, oooLearn := x.oooLearn.filter (fun e => e.1 != n) }
        (true, (releaseHeld l c fuel (releaseLearn s l evs)).2)
/-- The rows of R318 for number `n`; `room` holds the frame beyond rcv_cum, `take` releases it. -/
def sequenced (s : State) (l c : Nat) (n : Word) (gran : Nat) (hold take : State → Bool × State) : State :=
  let x := spaceOf s l c
  let p := spnLinkPage l
  let d := (n - x.rcvCum).toNat
  let heldNow (m : Word) : Bool := x.ooo.any (fun e => e.1 == m) || x.oooLearn.any (fun e => e.1 == m)
  if seqLt n x.rcvCum ∨ heldNow n then sendAck (inc (countReason s (linkRegion l) 0xB2) p 0x128) l c
  else if 65536 ≤ d then inc (countReason s (linkRegion l) 0xB4) p 0x12C
  else if 0 < d then
    if fld s p 0x100 31 16 * 16 < oooGranules s l + gran then raise (inc (countReason s (linkRegion l) 0xB3) p 0x12C) p 3 0xB3
    else match hold s with
      | (false, s) => s
      | (true, s) => if heldNow (n - 1) ∨ heldNow (n + 1) then noteArrival s l c else sendAck s l c
  else match take s with
    | (false, s) => s
    | (true, s) =>
      let s := setSpace s l c { spaceOf s l c with rcvCum := x.rcvCum + 1 }
      let r := releaseHeld l c 65536 s
      if r.1 then sendAck r.2 l c else noteArrival r.2 l c
/-- A DATA frame that arrived at `at'` (R312, R314, R318). -/
def dataIn (s : State) (l at' : Nat) (h : SpanHeader) (bytes : List Byte) : State :=
  let r := linkRegion l
  match (linkOf s l).port with
  | none => s
  | some port =>
    if !joined s l then countReason s r 0xB0
    else if h.srcMac.toNat ≠ rd64 s (spnLinkPage l) 0x118 % 2 ^ 48 then peerMismatch s l
    else if h.version ≠ 1 ∨ h.ftype ≠ 0 ∨ h.destKind = 3 then countReason s r 0xB1
    else if (linkOf s l).closed then inc (countReason s r 0xB2) (spnLinkPage l) 0x128
    else
      let f := carried s port at' h bytes
      let s := { s with nextId := s.nextId + 1 }
      if !h.rel then
        match spanGrant s f with
        | (none, s) => s
        | (some b, s) => releaseIn s l 9 f b
      else
        let c := h.tc.toNat
        let got (k : State → Nat → State) (s : State) : Bool × State :=
          match spanGrant s f with
          | (none, s) => (false, s)
          | (some b, s) => (true, k s b)
        sequenced s l c h.seq (granulesOf f)
          (got (fun s b => let x := spaceOf s l c; setSpace s l c { x with ooo := x.ooo ++ [(h.seq, f, some b)] }))
          (got (fun s b => releaseIn s l c f b))
/-- A received LEARN frame (R330): its events are applied to every accepting pipeline when it is released. -/
def learnIn (s : State) (l : Nat) (n : Word) (evs : List LearnEvent) : State :=
  if !joined s l then s
  else sequenced s l 8 n 0
    (fun s => let x := spaceOf s l 8; (true, setSpace s l 8 { x with oooLearn := x.oooLearn ++ [(n, evs)] }))
    (fun s => (true, releaseLearn s l evs))
/-- A CTRL frame of `n` octets that space 8 has released: it counts toward the next ACK. -/
def ctrlIn (s : State) (l n : Nat) : State :=
  if !joined s l then s
  else noteArrival (countReleased (setSpace s l 8 { spaceOf s l 8 with rcvCum := (spaceOf s l 8).rcvCum + 1 }) l 8 n) l 8

/-- The span header in the bytes of a frame (R312). -/
def parseHeader (bs : List Byte) : SpanHeader :=
  let b (o : Nat) : Nat := beAt bs (12 + o) 1
  { srcMac := BitVec.ofNat 48 (beAt bs 6 6), version := BitVec.ofNat 4 (b 2 / 16), ftype := BitVec.ofNat 4 (b 2), rel := bitOf (b 3) 7
    retx := bitOf (b 3) 6, tc := BitVec.ofNat 3 (b 3 / 8), trunc := bitOf (b 3) 2, colour := BitVec.ofNat 2 (b 3)
    destKind := BitVec.ofNat 2 (b 4 / 64), link := BitVec.ofNat 3 (b 4 / 8), src := BitVec.ofNat 8 (b 5)
    dest := BitVec.ofNat 16 (beAt bs 18 2), seq := BitVec.ofNat 32 (beAt bs 20 4), age := BitVec.ofNat 32 (beAt bs 24 4) }
/-- The SPN block of a receiving port removes the encapsulation (R141, R314). Control frames are consumed: what they
say comes as the command of their kind. [DEDUCED, log 78] -/
def spanRx (s : State) (port ts : Nat) (bs : List Byte) : State :=
  match spanLinkOf s port with
  | none => s
  | some l =>
    let h := parseHeader bs
    if bs.length < 28 ∨ beAt bs 12 2 ≠ fld s spnPairPage 0x120 15 0 ∨ h.version ≠ 1 ∨ 6 < h.ftype.toNat then countReason s (linkRegion l) 0xB1
    else if h.ftype = 0 then dataIn s l ts h (bs.drop 28)
    else if joined s l ∧ h.srcMac.toNat ≠ rd64 s (spnLinkPage l) 0x118 % 2 ^ 48 then peerMismatch s l
    else s

/-! ### Acknowledgement and timers (R317, R319, R320) -/

/-- ACK_TIMER: ack_us after the first frame that came since the last ACK (R319). -/
def ackLate (s : State) (l c : Nat) : State := if joined s l ∧ 0 < (spaceOf s l c).sinceAck then sendAck s l c else s
/-- An ACK (R320). -/
def ackIn (s : State) (l c : Nat) (cum : Word) (sacks : List (Nat × Nat)) : State :=
  if !joined s l then s
  else
    let s := ackTo s l c cum
    let top := (sacks.map (fun b => b.1 + b.2)).foldl max 0
    let inBlock (n : Word) : Bool := sacks.any (fun b => decide (b.1 ≤ (n - cum).toNat) && decide ((n - cum).toNat < b.1 + b.2))
    let missing := (spaceOf s l c).sent.filter (fun e => decide ((e.seq - cum).toNat < top) && !inBlock e.seq && e.sends == 1 && !e.due)
    bulkAgain (forEach s missing (fun s e => resend s l c e.seq))
/-- The timer of a space has run out: RTO after the last transmission of the frame snd_una (R317). -/
def rtoOver (s : State) (l c : Nat) : Bool :=
  ((spaceOf s l c).sent.find? (fun e => e.seq == (spaceOf s l c).una)).any (fun e => !e.due && decide (e.sentBc + rtoOf s l c ≤ tb0Time s))
/-- RTO_EXPIRE: the retransmission timer of a space (R317). -/
def rtoLate (s : State) (l c : Nat) : State :=
  let x := spaceOf s l c
  if x.una = x.nxt ∨ !joined s l ∨ !rtoOver s l c then s
  else
    let s := setSpace s l c { x with backoff := x.backoff + 1, expiries := x.expiries + 1 }
    let s := raise (inc s (spnLinkPage l) 0x130) (spnLinkPage l) 2
    let s := resend s l c x.una
    if max 1 (fld s (spnLinkPage l) 0x10C 27 24) ≤ x.expiries + 1 then linkDead s l else s

/-! ### Handover and rejoin (R324, R325) -/

/-- Step 3 of R325 for one space: what the partner has not released goes as new frames of the new link. -/
def moveSpace (s : State) (old new c : Nat) (cum : Word) : State :=
  let s := ackTo s old c cum
  let rest := (spaceOf s old c).sent
  let s := setSpace s old c { spaceOf s old c with sent := [], una := (spaceOf s old c).nxt }
  forEach s rest (fun s e =>
    let y := spaceOf s new c
    let s := setSpace s new c { y with nxt := y.nxt + 1, sent := y.sent ++ [{ e with seq := y.nxt, sends := 0, due := false, sentBc := tb0Time s }] }
    resend (countReason s (linkRegion new) 0xB6) new c y.nxt)
/-- The answer to a HANDOVER has come: steps 3 and 4 of R325. -/
def handoverDone (s : State) (old new : Nat) (cums : List Word) : State :=
  let s := forEach s (List.range 9) (fun s c => moveSpace s old new c (cums.getD c (spaceOf s old c).una))
  raise { s with span := { s.span with handover := none } } (spnLinkPage new) 4
/-- A HANDOVER of the partner names `old` (R325, step 2). -/
def handoverIn (s : State) (old new : Nat) : State :=
  let s := ctrlIn s new (ctrlLen "HANDOVER" [old])
  let n := (List.range 9).map (fun c => (spaceOf s old c).ooo.length + (spaceOf s old c).oooLearn.length)
  let s := dropOoo s old
  let s := addSat s (spnLinkPage old) 0x128 31 0 n.sum
  let s := addCounter s (linkRegion old * 4096) 0 0xB2 0 n.sum
  let s := setLink s old { linkOf s old with closed := true }
  let s := setLink s new { linkOf s new with closed := false }
  raise (sendCtrl s new "RCV_CUM" (old :: myCums s old)).2 (spnLinkPage new) 4
/-- The partner's rcv_cum of every space (R324, R325): in answer to a HANDOVER, or on rejoin. -/
def cumsIn (s : State) (l : Nat) (cums : List Word) : State :=
  if !joined s l then s
  else
    let s := ctrlIn s l (ctrlLen "RCV_CUM" (cums.map BitVec.toNat))
    match s.span.handover with
    | some old => if activeLink s = some l ∧ old ≠ l then handoverDone s old l cums else s
    | none =>
      let s := setLink s l { linkOf s l with awaitCum := false }
      forEach s (List.range 9) (fun s c =>
        let s := ackTo s l c (cums.getD c (spaceOf s l c).una)
        forEach s (spaceOf s l c).sent (fun s e => resend s l c e.seq))

/-! ### Time across the pair (R333) -/

/-- TB0 at the lane balls when a frame of a link leaves now, in 2^-32 ns (R89, R333). -/
def leaveTime (s : State) (l : Nat) : Nat := (tbAt s 0 (txStamp s ((linkOf s l).port.getD 0))).toNat % 2 ^ 96
/-- A TIME frame goes out on a joined link with this member's TB0 stamp. -/
def timeOut (s : State) (l : Nat) : State :=
  if joined s l ∧ !isPrimary s then emit s (ctrlFrame s l "TIME" [leaveTime s l]) else s
/-- A TIME frame (R333): the primary answers it; the secondary has the four stamps, TB0 values in 2^-32 ns, its own
sending, the primary's receipt and sending, and its own receipt. -/
def timeIn (s : State) (l t1 t2 t3 t4 : Nat) : State :=
  if !joined s l then s
  else if isPrimary s then emit s (ctrlFrame s l "TIME" [t1, t2, leaveTime s l])
  else
    let asym := signedOf 32 (rd s (spnLinkPage l) 0x110).toNat * (2 ^ 32 : Nat) / (10 : Nat)
    let off := (((t2 : Int) - t1) + ((t3 : Int) - t4)) / (2 : Nat) - asym
    if activeLink s ≠ some l then s
    else
      let ns := clampI (off / (2 ^ 32 : Nat)) (-(2 ^ 31 : Nat)) ((2 ^ 31 : Nat) - 1)
      let s := wr s spnPairPage 0x12C (BitVec.ofNat 32 (unsignedOf 32 ns))
      if !bitAt s spnPairPage 0x100 1 then s
      else forEach s (onesOf 16 (fld s spnPairPage 0x128 15 0)) (fun s k =>
        if fld s (tbPage k) 0x100 7 5 = 0 then servoTake s k (-off / (2 ^ 16 : Nat)) else s)

/-! ### Split (R329, R335) and BPDUs -/

/-- split_hold has passed: the secondary presents its own identity. -/
def splitHold (s : State) : State :=
  if pairState s = 2 ∧ s.span.splitSince + msTime (100 * fld s spnPairPage 0x100 15 8) ≤ tb0Time s ∧ !isPrimary s ∧ !bitAt s spnPairPage 0x130 7 then raise (setBit s spnPairPage 0x130 7 true) spnPairPage 4 else s
/-- session_keep has passed. -/
def sessionGone (s : State) : State :=
  if pairState s = 2 ∧ s.span.splitSince + msTime (1000 * fld s spnPairPage 0x104 31 16) ≤ tb0Time s then endSession s else s
/-- BPDUs and port states cross in CTRL frames (R335). [DEDUCED, log 50] -/
def bpdu (s : State) (outbound : Bool) (port : Nat) (body : List Byte) : State :=
  if outbound then tellPartner s "BPDU" (port :: body.map BitVec.toNat)
  else match activeLink s with
    | some l => ctrlIn s l (ctrlLen "BPDU" (port :: body.map BitVec.toNat))
    | none => s

/-! ### Learn events of the own pipelines (R185 to R188) -/

/-- The pipelines other than `k`. -/
def otherPipes (k : Nat) : List Nat := [0, 1, 2, 3, 4].filter (· != k)
/-- LEARN_EVENT_APPLY: the oldest event of a pipeline goes to the other pipelines and to the partner. -/
def eventApply (s : State) (k : Nat) : State :=
  let p := pipeOf s k
  match p.events with
  | [] => s
  | e :: rest =>
    let s := setFld (setPipe s k { p with events := rest }) (fdbPage k) 0x128 12 0 rest.length
    let s := forEach s (otherPipes k) (fun s j => applyEvent s j e false)
    learnOut s e
/-- A resynchronisation's first step (R188): the entries that the pipeline propagated are flushed in every other pipeline, behind any
flush in progress there; FDB_FLUSH keeps the value software wrote. [DESIGN CHOICE, log 143] -/
def startResync (s : State) (k : Nat) : State :=
  if (pipeOf s k).resyncing then s
  else
    let s := forEach s (otherPipes k) (fun s j => flushRequest s j (byPipe k))
    setPipe s k { pipeOf s k with resyncing := true }
/-- LEARN_RESYNC: the service finds FDB_EVQ.resync set. -/
def learnResync (s : State) (k : Nat) : State := if bitAt s (fdbPage k) 0x128 31 then startResync s k else s
/-- The flushes of the first step have ended. -/
def flushedOut (s : State) (k : Nat) : Bool :=
  (otherPipes k).all (fun j => !(pipeOf s j).flushes.any (fun f => f.value == byPipe k))
/-- Second step (R188): every entry that the pipeline learned is sent again, and resync is cleared. -/
def resendLearns (s : State) (k : Nat) : State :=
  if (pipeOf s k).resyncing && flushedOut s k then
    let s := forEach (setPipe s k { pipeOf s k with resyncing := false }) (ownEntries s k) (fun s e =>
      let ev := entryEvent k e
      if !ebit (tget s (fdbPage k) 2 0 ev.fid.toNat) 1 then s
      else learnOut (forEach s (otherPipes k) (fun s j => applyEvent s j ev false)) ev)
    setBit s (fdbPage k) 0x128 31 false
  else s
/-- A resynchronisation goes on once its flushes have ended. [DESIGN CHOICE, log 143] -/
def resyncSettle (s : State) : State := forEach s [0, 1, 2, 3, 4] resendLearns

end Sys2Proof.Machine
end

