-- ==== Sys2Proof/Machine/CustodyOps.lean ====
section
/-! DEFINITION. The custody store: custody_en (R274), settle time and replay (R279, R281, R284), expiry (R280), flush (R286),
journals (R289 to R291), the steps of R287 up to self-refresh, rebuild (R293, R294), drain and hot replacement (R295 to
R297). -/

namespace Sys2Proof.Machine

/-- The custody queues that the store knows of. -/
def custodyQueues (s : State) : List Nat := ((s.cqueues.map (·.1)) ++ (s.queues.map (·.1))).mergeSort.eraseDups.filter (· < 848)
/-- A queue holds nothing, in SRAM, staging, DRAM or custody (R274). -/
def queueEmpty (s : State) (q : Nat) : Bool :=
  let tx := match (eportOf s (qPort q)).tx with | none => false | some t => t.queue == q
  (queueOf s q).frames.isEmpty && (cqOf s q).records.isEmpty && !tx

/-! ### custody_en (R274) -/

/-- A write of the configuration entry: the bit it now holds, against the one in force. -/
def custodyEnWritten (s : State) (q : Nat) : State :=
  let c := cqOf s q
  let v := ebit (tget s cstPage 0 0 q) 0
  if v = c.en then setCq s q { c with pendingEn := none }
  else if queueEmpty s q then setCq s q { c with en := v, pendingEn := none, st := 0 }
  else setCq s q { c with pendingEn := some v }
/-- CUSTODY_EN_APPLY: the queue is next empty. -/
def custodyEnNow (s : State) (q : Nat) : State :=
  let c := cqOf s q
  match c.pendingEn with
  | none => s
  | some v => if queueEmpty s q then setCq s q { c with en := v, pendingEn := none, st := 0 } else s

/-! ### Settle and replay (R279, R281, R284) -/

/-- settle_ms has passed since the port's return, or since CST became ready. -/
def settleDone (s : State) (q : Nat) : State :=
  let c := cqOf s q
  if c.st ≠ 3 ∨ !cstReady s then s
  else if c.records.isEmpty ∧ (queueOf s q).frames.all (fun f => f.place != .staged) then setCq s q { c with st := 0 }
  else if !tbValid s 0 ∧ !bitAt s cstPage 0x100 1 then s
  else setCq s q { c with st := 4, bucket := 0, bucketBc := now s }
/-- The rate that the replay share is taken of, in kb/s (R284). -/
def replayKbps (s : State) (port : Nat) : Nat :=
  let r := fld s (schPage port) 0x104 19 0
  if r = 0 then portKbps s port else r * 1000
/-- The replay bucket at this moment, in bytes. -/
def fillBucket (s : State) (q : Nat) : CQueue :=
  let c := cqOf s q
  let rate := replayKbps s (qPort q) * clampN (efld (tget s cstPage 0 0 q) 30 24) 1 100
  let n := now s * rate / 122880000000 - c.bucketBc * rate / 122880000000
  { c with bucket := min (maxFrame s (qPort q) : Nat) (c.bucket + n), bucketBc := now s }
/-- Replay ends: the queue is EMPTY (R279, R303). -/
def replayDone (s : State) (q : Nat) : State :=
  if (cqOf s q).records.isEmpty ∧ (queueOf s q).frames.all (fun f => f.place != .staged) then
    raise (setCq s q { cqOf s q with st := 0, tail := none }) cstPage 4 0 q
  else s
/-- The chain of a custody queue ends at its head (R221): its records are discarded with 0x6B, and their pages stay HELD. -/
def recordsLost (s : State) (q : Nat) : State :=
  let l := (cqOf s q).records
  forEach (setCq s q { cqOf s q with records := [], tail := none }) l (fun s r => metaErr (qDrop s q r.frame))
/-- Records that a bad word of the head record costs: the record itself, and where the word lies in its header, every record that
begins in the word's page (R220). -/
def headLost (s : State) (q : Nat) (r : Record) : Nat :=
  let hdr := badWords s r.pages r.off 16
  ((cqOf s q).records.takeWhile (fun g => hdr.any (fun d => g.pages.head? == some d.1))).length
def dropAll (reason : Nat) : Nat → State → Nat → State
  | 0, s, _ => s
  | fuel + 1, s, q => dropAll reason fuel (dropHead s q reason) q
/-- REPLAY_ADMIT: the head record is read: unreadable or expired, it is discarded; else it is admitted as a new arrival
while the bucket is 0 or above. -/
def replayOne (s : State) (q : Nat) : State :=
  let c := fillBucket s q
  match c.records with
  | [] => if c.st = 4 then replayDone s q else s
  | r :: rest =>
    let ch := readChain s r.pages
    if c.st ≠ 4 ∨ !cstReady s ∨ now s < c.walkTill ∨ spanBlocked s (qPort q) (qTc q) true then s
    else
    let s := ch.2
    let hit := badWords s r.pages r.off (recSize r.frame)
    if !ch.1 then replayDone (recordsLost s q) q
    else if unreadable s r.pages ∨ !hit.isEmpty then replayDone (dropAll 0xA6 (max 1 (headLost s q r)) (markBad s hit) q) q
    else if expired s q r.cts r.untimed then replayDone (dropHead s q 0xA1) q
    else if c.bucket < 0 ∨ (refillGran (queueOf s q) ≠ 0 ∧ refillWindow s (qPort q) < refillGran (queueOf s q) + granulesOf r.frame) then setCq s q c
    else match grant (setCq s q c) .granules (tmsReq q) (granulesOf r.frame) 5 with
      | (none, s) => s
      | (some b, s) =>
        let len := schedLen s (qPort q) r.frame
        let s := setCq s q { cqOf s q with records := rest, bucket := c.bucket - len }
        let keep := isSpanPort s (qPort q)
        let copy : Copy := { frame := { r.frame with tc := qTc q, complete := true }, port := qPort q, buf := b, replay := true }
        let s := enqueue s copy .refill (r.cts, r.untimed)
        let n := (queueOf s q).seqCtr - 1
        let s := if keep then setFrame s q n (fun f => { f with pages := r.pages }) else releaseRecord s q r.pages
        replayDone s q

/-! ### Expiry and flush (R280, R286) -/

/-- The oldest record of a custody queue: its time on TB0 and its untimed bit. -/
def oldestRecord (s : State) (q : Nat) : Option (Nat × Bool) :=
  match (cqOf s q).records with
  | r :: _ => some (r.cts, r.untimed)
  | [] => ((queueOf s q).frames.find? (fun f => f.place == .dram)).map (fun f => (f.cts, f.untimed))
def expireHead : Nat → State → Nat → State
  | 0, s, _ => s
  | fuel + 1, s, q =>
    match oldestRecord s q with
    | none => s
    | some (t, u) => if expired s q t u then expireHead fuel (dropHead s q 0xA1) q else s
/-- EXPIRY_INSPECT: expired records go from the head. -/
def expireNow (s : State) (q : Nat) : State :=
  if !marked s q then s
  else
    let s := expireHead (cqRecords s q) s q
    let s := spillDone s q
    if (cqOf s q).st = 4 then replayDone s q else s
/-- CST_FLUSH.go: every record goes with 0xA9; arrivals that still wait are kept. -/
def flushCustody (s : State) (q : Nat) : State :=
  if !marked s q then s
  else
    let s := dropAll 0xA9 (cqRecords s q) s q
    let c := cqOf s q
    if c.st = 2 ∨ portQ s (qPort q) = 2 then setCq s q { c with st := 2 }
    else if (queueOf s q).frames.any (fun f => f.place == .staged) then s
    else setCq s q { c with st := 0 }

/-! ### Journals (R289 to R291) -/

/-- The records of a custody queue, those of a queue in OVERFLOW being its frames in DRAM. -/
def allRecords (s : State) (q : Nat) : List Record :=
  (((queueOf s q).frames.filter (fun f => f.place == .dram && marked s q)).map (fun f =>
    asRecord f)) ++ (cqOf s q).records
/-- What a custody-marked queue has in DRAM becomes records of its custody queue. -/
def dramToRecords (s : State) (q : Nat) : State :=
  let x := queueOf s q
  let l := x.frames.filter (fun f => f.place == .dram)
  if l.isEmpty then s
  else
    let s := setFrames s q (x.frames.filter (fun f => f.place != .dram))
    let s := setQueue s q { queueOf s q with tail := none }
    let c := cqOf s q
    let s := setCq s q { c with records := l.map asRecord ++ c.records, tail := if c.records.isEmpty then x.tail else c.tail }
    forEach s l (fun s f => report s q f.seq)
/-- Where the queue's last record ends: its open page, or the end of the record itself once that page has been closed. -/
def chainEnd (s : State) (q : Nat) : Nat × Nat :=
  let c := cqOf s q
  match (if c.records.isEmpty then (queueOf s q).tail.orElse (fun _ => c.tail) else c.tail) with
  | some t => t
  | none => match (allRecords s q).getLast? with
    | some r => (r.pages.getLastD 0, r.off + recSize r.frame)
    | none => (0, 0)
/-- The queue record of a custody queue (R290). Without a record its places read 0; an offset at the end of a page reads 0. [DESIGN CHOICE, log 77] -/
def journalQueue (s : State) (q : Nat) : JournalQueue :=
  let l := allRecords s q
  let first := l.head?
  let e := chainEnd s q
  let anchors := (cqOf s q).anchors
  { queue := q, st := (cqOf s q).st, head := (first.map (fun r => r.pages.headD 0)).getD 0, headOff := (first.map (fun r => r.off)).getD 0
    tail := e.1, tailOff := e.2 % 4096, frames := l.length, pages := (queuePages s q).length
    firstAnchor := anchors.headD 0x1FFFFF, lastAnchor := anchors.getLastD 0x1FFFFF }
/-- The bytes of a journal: header, serial numbers, queue records (R290). [DESIGN CHOICE, log 77] -/
def journalBytes (j : Journal) : List Byte :=
  leBytes 64 (0x43534A31 + (128 + 64 * j.queues.length) * 2 ^ 32 + j.generation % 2 ^ 64 * 2 ^ 64 + j.sec % 2 ^ 64 * 2 ^ 128 + j.ns % 2 ^ 30 * 2 ^ 192 +
    j.cause % 16 * 2 ^ 228 + j.queues.length * 2 ^ 232 + j.channels * 2 ^ 244 + j.lost % 2 ^ 32 * 2 ^ 260 + j.crc * 2 ^ 480) ++
  j.serials.flatMap (leBytes 4) ++
  j.queues.flatMap (fun r => leBytes 64 (r.queue + r.st * 2 ^ 10 + r.head * 2 ^ 16 + r.headOff * 2 ^ 46 + r.tail * 2 ^ 64 + r.tailOff * 2 ^ 94 +
    r.frames * 2 ^ 128 + r.pages * 2 ^ 192 + r.firstAnchor * 2 ^ 224 + r.lastAnchor * 2 ^ 245))
/-- The CRC-32 of a journal, its own field taken as 0. [DESIGN CHOICE, log 77] -/
def journalCrc (j : Journal) : Nat := crc32 (journalBytes { j with crc := 0 })
/-- The channel of a journal slot, and whether DRAM word `d` lies in its first `len` bytes (R277). -/
def slotChan (k : Nat) : Nat := if k < 2 then 0 else 8
def inSlot (s : State) (k len : Nat) (d : Nat × Nat) : Bool :=
  let r := rowsOf s (slotChan k)
  (List.range (ceilDiv len 8)).any (fun i => d == custWord s (slotChan k) (2 * r + 0x200000 + 65536 * (k % 2) + 8 * i))
/-- The valid journal of a slot: its channel serves, its words read, its CRC is right. -/
def slotJournal (s : State) (k : Nat) : Option Journal :=
  (mapGet (fun _ => none) s.cust.slots k).filter (fun j =>
    (channels s).contains (slotChan k) && (dimmOf s (slotChan k)).serial == j.serials.getD (slotChan k) 0 &&
    !s.dramBad.any (inSlot s k (journalBytes j).length) && journalCrc j == j.crc)
/-- The valid journal of highest generation, with its slot (R291, R293). -/
def newestJournal (s : State) : Option (Nat × Journal) :=
  ([0, 1, 2, 3].filterMap (fun k => (slotJournal s k).map (fun j => (k, j)))).foldl
    (fun (a : Option (Nat × Journal)) b => match a with | none => some b | some x => if x.2.generation < b.2.generation then some b else a) none
/-- One slot takes a journal. [DESIGN CHOICE, log 77] -/
def putJournal (j : Journal) (s : State) (k : Nat) : State :=
  mendWords { s with cust := { s.cust with slots := mapSet (fun _ => none) s.cust.slots k (some j) } } (inSlot s k (journalBytes j).length)
/-- The journal of this moment (R290). -/
def journalNow (s : State) (cause lost : Nat) : Journal :=
  let qs := (custodyQueues s).filter (fun q => (cqOf s q).st != 0)
  let t := tbAt s 0 (now s)
  let j : Journal := { generation := rd64 s jrnPage 0x110 + 1, cause := cause, lost := lost, sec := secOf t, ns := nsOf t
                       queues := qs.map (journalQueue s), channels := ((channels s).map (fun k => 2 ^ k)).sum
                       serials := (List.range 16).map (fun k => (dimmOf s k).serial), records := qs.map (fun q => (q, allRecords s q)) }
  { j with crc := journalCrc j }
/-- Write a journal to the slot that does not hold the newest valid one, on channels 0 and 8 as far as they serve (R289). [DESIGN CHOICE, log 77] -/
def writeJournal (s : State) (cause lost : Nat) : State :=
  let on := [0, 8].filter (fun k => (channels s).contains k)
  if on.isEmpty then raise s jrnPage 1
  else
    let j := journalNow s cause lost
    let slot := match newestJournal s with | none => 0 | some e => 1 - e.1 % 2
    let s := forEach s (on.map (fun k => k / 8 * 2 + slot)) (putJournal j)
    let s := setBit (wr64 s jrnPage 0x110 j.generation) jrnPage 0x108 6 (on.length == 2)
    if on.length = 2 then s else raise s jrnPage 1
/-- A checkpoint journal, once the store is ready (R291). -/
def checkpoint (s : State) : State := if bitAt s cstPage 0x104 0 then writeJournal s 0 0 else s
/-- JRN_CFG.period has passed; a period of 0 disables checkpoints (R291, R302). -/
def checkpointDue (s : State) : State := if fld s jrnPage 0x100 15 0 = 0 then s else checkpoint s

/-! ### Entering custody hold, up to self-refresh (R287, R289) -/

/-- Step 3: the custody-class frames of every port become records ahead of their queues; the frames that a span sender
holds go with them (R329). The number is that of the frames that were not written. -/
def flushToCustody (s : State) : Nat × State :=
  let s := forEach s (List.range 106) (fun s port => abortTx s port)
  let qs := (custodyQueues s).filter (marked s)
  let had := (qs.map (fun q => (queueOf s q).frames.length + (cqOf s q).records.length)).sum
  let s := forEach s qs custodyDown
  let have' := (qs.map (fun q => (cqOf s q).records.length)).sum
  let s := forEach s (List.range 8) heldToCustody
  (had - have', s)
/-- Step 5: every channel in self-refresh. -/
def selfRefresh (s : State) (on : Bool) : State :=
  forEach s (List.range 16) (fun s k => setDimm s k { dimmOf s k with selfRefresh := on })
/-- A drain in progress is aborted (R295). -/
def abortDrain (s : State) : State :=
  match s.cust.draining with
  | none => s
  | some k =>
    let s := { s with cust := { s.cust with draining := none }, page := { s.page with closed := s.page.closed.filter (· != k) } }
    setBit s cstPage 0x12C 16 false
/-- Steps 3 to 5 of R287: skipped but for self-refresh while CST is not ready. -/
def saveCustody (s : State) (cause : Nat) : State :=
  let s := abortDrain s
  if !bitAt s cstPage 0x104 0 then selfRefresh s true
  else
    let r := flushToCustody s
    selfRefresh (writeJournal r.2 cause r.1) true

/-! ### Rebuild (R293, R294) -/

/-- A page lies on a channel that has lost its pages: its DIMM is absent, or not the one of the journal (R293). -/
def channelLost (s : State) (j : Journal) (p : Nat) : Bool :=
  !(dimmOf s (p % 16)).present || (dimmOf s (p % 16)).serial != j.serials.getD (p % 16) 0
/-- A page is there and carries the tag of queue `q`, with the generation of its descriptor (R276, R291). [DEDUCED, log 76] -/
def tagged (s : State) (j : Journal) (q p : Nat) : Bool :=
  let b := bufOf s .pages p
  !channelLost s j p && !wordBad s (tagWord s p) && b.st == .held && b.tag == some (q + b.gen % 32 * 1024 + 2 ^ 15)
/-- An anchor's page still names the queue, with the generation it was anchored with. [DEDUCED, log 76] -/
def anchorHolds (s : State) (j : Journal) (q n : Nat) : Bool :=
  (anchorOf s n).any (fun a => tagged s j q a.page && (bufOf s .pages a.page).gen == a.gen) && !(List.range 4).any (fun i => wordBad s (anchorWord s n i))
/-- The records from the first one on that begins in page `p`. -/
def recordsFrom (p : Nat) (l : List Record) : List Record :=
  (l.dropWhile (fun r => !r.pages.contains p)).dropWhile (fun r => r.pages.contains p && r.pages.head? != some p)
/-- Where a queue's chain stands: what it holds, and after an unannounced stop also what was replayed since the checkpoint, from the
recorded head on, or from the oldest anchor that holds where the head's page has gone (R291). [DEDUCED, log 76] -/
def recovered (s : State) (j : Journal) (q : Nat) : List Record :=
  let c := (cqOf s q).records
  if j.cause ≠ 0 then c
  else
    let old := ((j.records.find? (fun e => e.1 == q)).map (·.2)).getD []
    let all := old.filter (fun r => !(c.any (fun x => x.frame.id == r.frame.id)) && r.pages.all (tagged s j q)) ++ c
    match j.queues.find? (fun r => r.queue == q) with
    | none => []
    | some r =>
      if r.frames = 0 ∨ tagged s j q r.head then all
      else match (cqOf s q).anchors.find? (anchorHolds s j q) with
        | none => []
        | some n => ((anchorOf s n).map (fun a => recordsFrom a.page all)).getD []
/-- CUSTODY walks a chain: it ends where a page is lost or does not carry the queue's tag (0xA7), and where a descriptor and its link
copy cannot be read (R221). [DEDUCED, log 76] -/
def walkChain (s : State) (j : Journal) (q : Nat) : List Record → List Record × State
  | [] => ([], s)
  | r :: rs =>
    if !r.pages.all (tagged s j q) then ([], forEach s (r :: rs) (fun s _ => custodyCount s q 0xA7))
    else
      let ch := readChain s r.pages
      if !ch.1 then ([], forEach ch.2 (r :: rs) (fun s _ => metaErr s))
      else
        let w := walkChain ch.2 j q rs
        (r :: w.1, w.2)
/-- Phase A: the newest valid journal is taken (R291, R302). [DEDUCED, log 76] -/
def rebuildA (s : State) : State :=
  match newestJournal s with
  | none => raise (setBit s jrnPage 0x108 0 false) jrnPage 0
  | some (k, j) =>
    let s := setFld (setBit s jrnPage 0x108 0 true) jrnPage 0x108 5 2 j.cause
    let s := setBit s jrnPage 0x108 1 (k % 2 == 1)
    wr (wr64 s jrnPage 0x110 j.generation) jrnPage 0x118 (BitVec.ofNat 32 j.lost)
/-- The frames that span senders hold on pages keep only pages of CST that are still there. [DESIGN CHOICE, log 147] -/
def keepSent (s : State) (there : Nat → Bool) : State :=
  let one (x : SpanSent) : SpanSent := if x.own || !x.pages.all there then { x with pages := [], own := false } else x
  forEach s (List.range 8) (fun s l =>
    let s := setLink s l { linkOf s l with tail := none }
    forEach s (List.range 9) (fun s c => setSpace s l c { spaceOf s l c with sent := (spaceOf s l c).sent.map one }))
/-- References that span senders hold to a page. [DESIGN CHOICE, log 147] -/
def sentRefs (s : State) (p : Nat) : Nat :=
  ((List.range 8).flatMap (fun l => (List.range 9).flatMap (fun c => (spaceOf s l c).sent.filter (fun x => x.pages.contains p)))).length
/-- The page pool is rebuilt with the pages of CST that `keep` names; every other page is free (R293, R577). [DESIGN CHOICE, log 147] -/
def rebuildPool (s : State) (keep : Nat → Bool) : State :=
  let l := s.page.bufs.filter (fun e => e.2.owner == 4 && e.2.st == .held && keep e.1)
  let s := keepSent s (fun p => l.any (fun e => e.1 == p))
  let bufs := l.map (fun e => (e.1, { e.2 with refs := sentRefs s e.1 }))
  let s := { s with page := { s.page with bufs := bufs, usage := if bufs.isEmpty then [] else [(4, bufs.length)] } }
  raise (setBit s ppmPage 0x100 0 true) ppmPage 8
/-- Phase B: a page is kept whose tag names a journalled queue. [DEDUCED, log 43; DEDUCED, log 76] -/
def rebuildB (s : State) : State :=
  match newestJournal s with
  | none => rebuildPool s (fun _ => false)
  | some (_, j) => rebuildPool s (fun p => j.queues.any (fun r => tagged s j r.queue p))
/-- One queue in phase C: a journalled one keeps what its chain reaches and is HELD; another holds nothing. -/
def rebuildQueue (s : State) (q : Nat) : State :=
  match (newestJournal s).filter (fun e => e.2.queues.any (fun r => r.queue == q)) with
  | none => setCq s q { cqOf s q with records := [], tail := none, st := 0, anchors := [], appended := 0 }
  | some (_, j) =>
    let all := recovered s j q
    let lost := (cqOf s q).records.filter (fun r => !all.any (fun x => x.frame.id == r.frame.id))
    let w := walkChain (forEach s lost (fun s _ => custodyCount s q 0xA7)) j q all
    let c := cqOf w.2 q
    pruneAnchors (setCq w.2 q { c with records := w.1, st := 2, tail := if w.1.length = all.length then c.tail else none }) q
/-- The queue is walked again after the loss of an engine block of CUSTODY, as in phase C; its replay waits until the walk ends, at most
4 s later (R417). The moment is a free value. [DESIGN CHOICE, log 151] -/
def rewalk (s : State) (q : Nat) : State :=
  let w := walkChain s (journalNow s 0 0) q (cqOf s q).records
  let r := fresh w.2
  let c := cqOf r.2 q
  pruneAnchors (setCq r.2 q { c with records := w.1, walkTill := now s + r.1 % (msUnits 4000 + 1)
                                     tail := if w.1.length = c.records.length then c.tail else none }) q
/-- Phase C (R293). -/
def rebuildC (s : State) : State := forEach s (custodyQueues s) rebuildQueue
/-- CST is ready: journalled queues whose port is UP settle (R294). -/
def cstNowReady (s : State) : State :=
  let s := setBit s cstPage 0x104 0 true
  let s := forEach s (custodyQueues s) (fun s q =>
    let c := cqOf s q
    if c.st = 2 ∧ portQ s (qPort q) ≠ 2 ∧ !c.lifted then setCq s q { c with st := 3 } else s)
  raise { s with pins := { s.pins with custodyHold := false } } cstPage 5
/-- REBUILD_PHASE_DONE: phases A to D in turn. -/
def rebuildNext (s : State) : State :=
  let setPhase (s : State) (n : Nat) : State := setFld s cstPage 0x104 6 4 n
  match fld s cstPage 0x104 6 4 with
  | 1 => setPhase (rebuildA s) 2
  | 2 => setPhase (rebuildB s) 3
  | 3 => setPhase (rebuildC s) 4
  | 4 => cstNowReady (setBit (setPhase s 0) cstPage 0x104 1 false)
  | _ => s
/-- A rebuild starts once the DIMMs are trained. Journalled queues are HELD meanwhile (R294). -/
def rebuildStart (s : State) : State :=
  let held : List Nat := match newestJournal s with | none => [] | some e => e.2.queues.map (·.queue)
  let s := forEach s (held ++ custodyQueues s) (fun s q => setCq s q { cqOf s q with st := if held.contains q then 2 else 0 })
  setFld (setBit s cstPage 0x104 1 true) cstPage 0x104 6 4 1

/-! ### Drain and hot replacement (R295 to R297) -/

/-- Pages in use on a channel. -/
def usedOn (s : State) (k : Nat) : List Nat :=
  (s.page.bufs.filter (fun e => e.1 % 16 == k && (e.2.st == .held || e.2.st == .released))).map (·.1)
/-- HELD pages on a channel: CST_DRAIN_LEFT. -/
def heldOn (s : State) (k : Nat) : Nat := (s.page.bufs.filter (fun e => e.1 % 16 == k && e.2.st == .held)).length
/-- Free pages of the other channels. -/
def freeElsewhere (s : State) (k : Nat) : Nat :=
  (((channels s).filter (· != k)).map (fun j => poolRows s j - (takenRows s j).length)).sum
/-- Why a drain is refused: 0 where it is not (R295). -/
def drainCause (s : State) (k : Nat) : Nat :=
  if s.cust.draining.isSome ∨ s.cust.readmitting.isSome then 1
  else if !(channels s).contains k then 2
  else if freeElsewhere s k < heldOn s k + sumMin s .pages then 3
  else if !bitAt s cstPage 0x104 0 then 4 else 0
def drainRefuse (s : State) (cause : Nat) : State :=
  raise (setFld (setBit s cstPage 0x12C 18 true) cstPage 0x12C 21 19 cause) cstPage 7
def drainStart (s : State) : State :=
  let k := fld s cstPage 0x12C 3 0
  let c := drainCause s k
  if c ≠ 0 then drainRefuse s c
  else
    let s := { s with cust := { s.cust with draining := some k }, page := { s.page with closed := k :: s.page.closed } }
    setBit s cstPage 0x12C 16 true
/-- The pages of a record with one replaced. -/
def swapPage (old new : Nat) (l : List Nat) : List Nat := l.map (fun p => if p = old then new else p)
/-- The page that a custody page's content has been copied to takes its place: its own tag, the predecessor's next and the anchor that
names it; what could not be read of the old page cannot be read of the new one (R295). -/
def takePlace (s : State) (q old new : Nat) : State :=
  let b := bufOf s .pages old
  let nb := bufOf s .pages new
  let s := setBuf s .pages new { nb with tag := some (q + nb.gen % 32 * 1024 + 2 ^ 15), next := b.next }
  let s := mendWords s (fun d => d == tagWord s new || d.1 == new)
  let copied : List (Nat × Nat) := (s.dramBad.filter (fun (d : Nat × Nat) => d.1 == old)).map (fun d => (new, d.2))
  let s : State := { s with dramBad := s.dramBad ++ copied }
  let s := match s.page.bufs.find? (fun (e : Nat × Buf) => e.2.owner == 4 && e.2.st == .held && e.2.next == old) with
    | none => s
    | some e => linkPage s e.1 new
  match (cqOf s q).anchors.find? (fun n => (anchorOf s n).any (fun a => a.page == old)) with
  | none => s
  | some n => match anchorOf s n with
    | none => s
    | some a => writeAnchor s n { a with page := new, gen := nb.gen }
/-- PAGE_MIGRATE (R295, R296): a custody page of the draining channel moves. A tail page goes last, and the queue's next
record then opens another page. -/
def migrate (s : State) (page : Nat) : State :=
  match s.cust.draining with
  | none => s
  | some k =>
    let b := bufOf s .pages page
    let isTail (q : Nat) : Bool := (cqOf s q).tail.any (fun t => t.1 == page) || (queueOf s q).tail.any (fun t => t.1 == page)
    let others := (usedOn s k).any (fun p => p != page && (bufOf s .pages p).owner == 4 && (bufOf s .pages p).st == .held)
    if page % 16 ≠ k ∨ b.st ≠ .held ∨ b.owner ≠ 4 ∨ ((custodyQueues s).any isTail ∧ others) then s
    else match grant s .pages 4 1 6 with
      | (none, s) => s
      | (some new, s) =>
        let s := takePlace s ((b.tag.getD 0) % 1024) page new
        let cut (t : Option (Nat × Nat)) : Option (Nat × Nat) := t.bind (fun x => if x.1 = page then none else some x)
        let s := { s with cqueues := mapUpdate cqDflt (fun _ c => { c with records := c.records.map (fun r => { r with pages := swapPage page new r.pages }), tail := cut c.tail }) s.cqueues
                          queues := mapUpdate queueDflt (fun _ x => { x with frames := x.frames.map (fun f => { f with pages := swapPage page new f.pages }), tail := cut x.tail }) s.queues }
        opRelease s .pages page 4
/-- DRAIN_DONE: no HELD page is left on the channel. -/
def drainEnd (s : State) : State :=
  match s.cust.draining with
  | none => s
  | some k =>
    if heldOn s k ≠ 0 then s
    else
      let s := setDimm { s with cust := { s.cust with draining := none } } k { dimmOf s k with inService := false }
      raise (setBit (setBit s cstPage 0x12C 16 false) cstPage 0x12C 17 true) cstPage 6
/-- Everything that a DIMM held is gone, its ECC and metadata stand anew (R297). -/
def blankChannel (s : State) (k : Nat) : State :=
  let s := { s with page := { s.page with bufs := s.page.bufs.filter (fun e => e.1 % 16 != k) }, dramBad := s.dramBad.filter (fun d => d.1 % 16 != k || stickyDram s d.1)
                    cust := { s.cust with slots := s.cust.slots.filter (fun e => slotChan e.1 != k), anchors := s.cust.anchors.filter (fun e => e.1 % 16 != k) } }
  { s with cqueues := mapUpdate cqDflt (fun _ c => { c with anchors := c.anchors.filter (· % 16 != k) }) s.cqueues }
/-- Readmit (R297): a DIMM whose capacity differs from the others is refused. -/
def readmitStart (s : State) (serial cap : Nat) : State :=
  let k := fld s cstPage 0x12C 3 0
  let other := ((channels s).filter (· != k)).head?
  if s.cust.draining.isSome ∨ s.cust.readmitting.isSome then drainRefuse s 1
  else if (channels s).contains k ∨ !domOn s (89 + k) then drainRefuse s 2
  else if other.any (fun j => (dimmOf s j).capacity != cap) then drainRefuse s 5
  else
    let s := setDimm (blankChannel { s with cust := { s.cust with readmitting := some k } } k) k { serial := serial, capacity := cap, inService := false }
    setBit s cstPage 0x12C 16 true
def readmitEnd (s : State) : State :=
  match s.cust.readmitting with
  | none => s
  | some k =>
    let s := setDimm { s with cust := { s.cust with readmitting := none }, page := { s.page with closed := s.page.closed.filter (· != k) } } k
      { dimmOf s k with inService := true }
    raise (setBit (setBit (checkpoint s) cstPage 0x12C 16 false) cstPage 0x12C 17 true) cstPage 6

end Sys2Proof.Machine
end

