-- ==== Sys2Proof/Machine/BasculeOps.lean ====
section
/-! DEFINITION. Bascule: the lift record and its checks (R375, R376), the launch count (R382), dispatch and guard (R380 to
R383), outcomes, lateness and repetition (R377, R385 to R387), cancellation (R389) and coordinated groups (R391 to R394).
What an action does at launch stands in LiftOps. -/

namespace Sys2Proof.Machine

/-! ### Records and status -/

def liftRec (s : State) (i : Nat) : Entry := tget s bscPage 0 0 i
def liftTb (e : Entry) : Nat := efld e 99 96
def liftAction (e : Entry) : Nat := efld e 104 100
def liftGroup (e : Entry) : Nat := efld e 119 112
def liftTarget (e : Entry) : Nat := efld e 143 128
def liftPeriod (e : Entry) : Nat := efld e 191 160
/-- The first instant of a record, in ns. -/
def liftInst (e : Entry) : Nat := efld e 63 0 * 10 ^ 9 + efld e 93 64
/-- Lift status (R397), kept as the entry of window select 1. -/
def liftStat (s : State) (i : Nat) : Entry := tget s bscPage 1 0 i
def setLiftStat (s : State) (i hi lo n : Nat) : State := tset s bscPage 1 0 i (esetFld (liftStat s i) hi lo n)
def liftState (s : State) (i : Nat) : Nat := efld (liftStat s i) 2 0
def liftX (s : State) (i : Nat) : LiftX := mapGet (fun _ => ({} : LiftX)) s.lifts i
def setLiftX (s : State) (i : Nat) (x : LiftX) : State := { s with lifts := mapSet (fun _ => ({} : LiftX)) s.lifts i x }
/-- The state of a lift changes; its status then shows the next launch while ARMED, otherwise the last (R397). -/
def setLiftState (s : State) (i n : Nat) : State :=
  let x := liftX s i
  setLiftStat (setLiftStat s i 2 0 n) i 127 64 ((if n = 1 then x.launch else x.last) % 2 ^ 64)
/-- The entries that have a status, lowest first. -/
def liftList (s : State) : List Nat := (s.tabs.filter (fun e => keyPage e.1 == bscPage && keySel e.1 == 1)).map (fun e => keyIdx e.1)
/-- ARMED, AGREEING or DISPATCHED. -/
def liftLive (s : State) (i : Nat) : Bool := liftState s i == 1 || liftState s i == 2 || liftState s i == 3
/-- The live lifts of a group. -/
def groupLifts (s : State) (g : Nat) : List Nat := (liftList s).filter (fun i => liftLive s i && liftGroup (liftRec s i) == g)

/-- R376, R378: the page is of the block type that the action names, and not privileged. -/
def liftPageOk (action page : Nat) : Bool :=
  match pageInfo page with
  | none => false
  | some i => !i.kind.privileged && match action, i.kind with
    | 0, _ | 1, _ => true
    | 2, .rul | 2, .fplRul | 3, .mtr | 3, .fplMtr | 7, .mtr | 7, .fplMtr | 4, .gat | 5, .msec | 8, .dma | 9, .cst | 10, .cst
    | 11, .tb | 12, .tio | 13, .tio => true
    | 6, k => k.snap
    | _, _ => false
/-- R376: the offset of a WRITE or WRITE64. -/
def liftOffOk (action page off : Nat) : Bool :=
  1 < action || ((off == 0x010 || (0x080 ≤ off && off ≤ 0xEFF)) && off % 4 == 0 &&
    (action == 0 || ((regRow page off).map (fun r => r.wide)).getD false))
/-- The fields that the lifts of a group share (R376). -/
def groupFields (e : Entry) : Nat × Nat × Nat × Nat × Nat × Nat := (efld e 93 0, liftTb e, efld e 105 105, efld e 106 106, liftPeriod e, efld e 207 192)
/-- R376: a record with valid 1 is refused with cause 4. -/
def liftBad (s : State) (i : Nat) (e : Entry) : Bool :=
  let g := liftGroup e
  decide (999999999 < efld e 93 64) || (liftPeriod e != 0 && decide (liftPeriod e < 10000)) ||
  !liftPageOk (liftAction e) (liftTarget e) || !liftOffOk (liftAction e) (liftTarget e) (efld e 155 144) ||
  (g != 0 && (groupLifts s g).any (fun j => j != i && groupFields (liftRec s j) != groupFields e)) ||
  (ebit e 106 && (g == 0 || !bitAt s spnPairPage 0x100 0 || !bitAt s spnPairPage 0x128 (liftTb e)))

/-! ### Launch count (R382) -/

/-- The base count at which a time base reads `ns` nanoseconds, with the parameters in force. -/
def launchOf (s : State) (k ns : Nat) : Nat :=
  let t := tbOf s k
  let v : Int := (ns : Int) * (2 ^ 32 : Nat)
  let up (ta : Int) (ba rate : Nat) : Int := (ba : Int) - (-((v - ta) * (2 ^ 32 : Nat))) / (max rate 1 : Nat)
  let b := up t.ta t.ba t.rate
  if t.slew = 0 ∨ b ≤ t.slewEnd then b.toNat else (up (lineAt t.ta t.ba t.rate t.slewEnd) t.slewEnd (rateWord t.f)).toNat
/-- The lift's launch count is computed (R382, R384): only while its time base is valid. -/
def aim (s : State) (i : Nat) : State :=
  let k := liftTb (liftRec s i)
  if !tbValid s k then s
  else
    let x := liftX s i
    let l := launchOf s k x.inst
    setLiftStat (setLiftX s i { x with launch := l }) i 127 64 (l % 2 ^ 64)

/-! ### Guard (R380) -/

/-- The pipeline of a rule-set or meter page. -/
def pipeOfPage (page : Nat) : Nat := min (page / 4096) 4
def setGuard (s : State) (action page : Nat) (on : Bool) : State :=
  match action with
  | 2 => let k := pipeOfPage page; setPipe s k { pipeOf s k with rul := { (pipeOf s k).rul with guard := on } }
  | 3 => let k := pipeOfPage page; setPipe s k { pipeOf s k with mtr := { (pipeOf s k).mtr with guard := on } }
  | 4 => let p := page % 4096 - 0x300; setGat s p { gatBank s p with guard := on }
  | _ => s
/-- A dispatched lift is taken back from its target, which clears its guard (R383, R389). -/
def recallLift (s : State) (i : Nat) : State :=
  let e := liftRec s i
  if liftState s i = 3 then setGuard s (liftAction e) (liftTarget e) false else s

/-! ### Outcomes (R377, R385, R387, R398) -/

/-- A completion enters the done FIFO where the record asks for it. [DEDUCED, log 87] -/
def pushDone (s : State) (i outcome late : Nat) : State :=
  let e := liftRec s i
  if !ebit e 107 then s
  else
    let s := if 256 ≤ s.bscFifo.length then raise (setBit s bscPage 0x118 16 true) bscPage 5
      else setFld { s with bscFifo := s.bscFifo ++ [(i, outcome, liftGroup e, late)] } bscPage 0x118 8 0 (s.bscFifo.length + 1)
    raise s bscPage 0
/-- An outcome is recorded: status, counters and sources. [DESIGN CHOICE, log 150] -/
def outcome (s : State) (i o late : Nat) : State :=
  let s := setLiftStat s i 7 4 o
  let s := if [1, 2, 4, 5, 8, 9].contains o then setLiftStat s i 23 8 (satAdd 16 (efld (liftStat s i) 23 8) 1) else s
  let s := if o ≤ 3 then setLiftStat s i 55 24 (min late (2 ^ 32 - 1)) else s
  let s := if o = 2 then raise (inc s bscPage 0x128) bscPage 1 else s
  let s := if o = 3 then raise (inc s bscPage 0x12C) bscPage 2 else s
  let s := if o = 4 ∨ o = 5 then raise s bscPage 3 else s
  let s := if 7 ≤ o ∧ o ≤ 10 then raise s bscPage 4 else s
  let s := if o = 11 then raise s bscPage 6 else s
  pushDone s i o late
/-- The lift ends: DONE with an outcome and no further occurrence. -/
def endLift (s : State) (i o : Nat) : State := outcome (setLiftState (recallLift s i) i 4) i o 0
/-- How many further occurrences of a series lie in the past at `t` ns, `left` of them remaining. -/
def passedOverCount (inst period t : Nat) (left : Option Nat) : Nat :=
  let n := if t < inst + period then 0 else (t - inst) / max period 1
  match left with
  | none => n
  | some l => min n l
/-- `n` occurrences are MISSED at once: the counter takes all of them. They record no lateness, since R385 treats only
the first of the occurrences passed over (R387). [DEDUCED, log 125] -/
def missMany (s : State) (i n : Nat) : State :=
  if n = 0 then s
  else
    let s := addSat s bscPage 0x12C 31 0 (n - 1)
    forEach s (List.range (min n 257)) (fun s j => if j = 0 then outcome s i 3 0 else pushDone s i 3 0)
/-- After an occurrence: the next one of a cyclic lift, or DONE (R387). -/
def nextOccurrence (s : State) (i : Nat) : State :=
  let e := liftRec s i
  let x := liftX s i
  let per := liftPeriod e
  if per = 0 ∨ x.left = some 0 then setLiftState s i 4
  else
    let t := ((tbAt s (liftTb e) (now s) - 1) / (2 ^ 32 : Nat)).toNat
    let n := passedOverCount x.inst per t x.left
    let s := missMany s i n
    if x.left = some n then setLiftState s i 4
    else
      let x := { x with inst := x.inst + (n + 1) * per, done := x.done + n + 1, left := x.left.map (fun l => l - n - 1), late := false, waiting := false, due := false }
      if x.stopAt.any (fun k => k ≤ x.done) then outcome (setLiftState s i 4) i 6 0
      else aim (setLiftState (setLiftX s i x) i 1) i
/-- An occurrence is over with an outcome. A coordinated half that was performed on time reports how its group stood (R393). [DEDUCED, log 87] -/
def occurred (s : State) (i o late : Nat) : State :=
  let x := liftX s i
  let g : CoordGroup := mapGet (fun _ => ({} : CoordGroup)) s.groups (liftGroup (liftRec s i))
  let o' := if o ≠ 1 then o else if x.solo then 8
    else if ebit (liftRec s i) 106 ∧ isPrimary s ∧ !g.confirmed then 9 else 1
  nextOccurrence (outcome s i o' late) i
/-- The base count of a launch is kept (R397). -/
def launched (s : State) (i : Nat) : State := setLiftX s i { liftX s i with last := now s }
/-- Lateness at this moment in ns, at TB0's rate (R385). [DEDUCED, log 84; DESIGN CHOICE, log 150] -/
def lateNs (s : State) (launch : Nat) : Nat := rateOf s 0 * (now s - launch) / 2 ^ 64

/-! ### Arming and dispatch -/

/-- A lift becomes ARMED and its launch count is computed. -/
def arm (s : State) (i : Nat) : State := aim (setLiftState s i 1) i
/-- LIFT_ARM: a record is committed; the cause of a refusal, 0 for none (R376). -/
def liftCommit (s : State) (i : Nat) (e : Entry) : Nat × State :=
  if liftLive s i then (2, s)
  else if !ebit e 383 then (0, setLiftX (tset (tset s bscPage 0 0 i e) bscPage 1 0 i 0) i {})
  else if liftBad s i e then (4, s)
  else
    let s := tset (tset s bscPage 0 0 i e) bscPage 1 0 i 0
    let per := liftPeriod e
    let rep := efld e 207 192
    let s := setLiftX s i { inst := liftInst e, left := if per ≠ 0 ∧ rep = 0 then none else some (if per = 0 then 0 else rep) }
    (0, if ebit e 106 then setLiftState s i 2 else arm s i)
/-- Lifts that a target block holds. -/
def slotsUsed (s : State) (page : Nat) : Nat :=
  ((liftList s).filter (fun j => liftState s j == 3 && blockKey (liftTarget (liftRec s j)) == blockKey page)).length
/-- Another lift goes first: an earlier launch count, or the same and a lower index (R382). -/
def dispatchedBefore (s : State) (i j : Nat) : Bool :=
  let a := (liftX s i).launch
  let b := (liftX s j).launch
  liftState s j == 1 && tbValid s (liftTb (liftRec s j)) && (b < a || (b == a && j < i)) &&
  slotsUsed s (liftTarget (liftRec s j)) < 16
def groupOf (s : State) (g : Nat) : CoordGroup := mapGet (fun _ => ({} : CoordGroup)) s.groups g
def setGroup (s : State) (g : Nat) (x : CoordGroup) : State := { s with groups := mapSet (fun _ => ({} : CoordGroup)) s.groups g x }
/-- Dispatch of a lift that waits for agreement would start now (R382, R393). -/
def dispatchDue (s : State) (i : Nat) : Bool :=
  tbValid s (liftTb (liftRec s i)) && decide (launchOf s (liftTb (liftRec s i)) (liftX s i).inst ≤ now s + usUnits 2)
def failSolo (s : State) : Bool := bitAt s bscPage 0x120 16
/-- The AGREEING lifts of a group are resolved without agreement (R393): `o` where they are not performed. -/
def resolveGroup (s : State) (g o : Nat) (mayGo : Bool) : State :=
  let s := forEach s ((groupLifts s g).filter (fun i => liftState s i == 2)) (fun s i =>
    if mayGo then arm (setLiftX s i { liftX s i with solo := true }) i else endLift s i o)
  setGroup s g { groupOf s g with announced := false, partner := none }
/-- LIFT_DISPATCH: 2 µs before the launch count the lift goes to its target, one lift in a cycle (R382, R384); a secondary
whose group has no COMMIT resolves it (R393); a late lift that is to be discarded is MISSED (R385). -/
def dispatch (s : State) (i : Nat) : State :=
  let e := liftRec s i
  let x := liftX s i
  if liftState s i = 2 then
    if !isPrimary s ∧ dispatchDue s i then resolveGroup s (liftGroup e) 10 (failSolo s) else s
  else if liftState s i ≠ 1 ∨ !bitAt s bscPage 0x100 0 ∨ !tbValid s (liftTb e) ∨ now s + usUnits 2 < x.launch ∨ s.mode != .run then s
  else
    let late := decide (x.launch < now s)
    if late ∧ ebit e 105 then occurred s i 3 (lateNs s x.launch)
    else if s.dispatchAt = some (now s) ∨ (liftList s).any (dispatchedBefore s i) ∨ 16 ≤ slotsUsed s (liftTarget e) then s
    else setLiftState (setLiftX { s with dispatchAt := some (now s) } i { x with late := late }) i 3
/-- SWAP_GUARD: 1 µs before the launch count of a dispatched swap lift its target enters guard (R156). -/
def guardOn (s : State) (i : Nat) : State :=
  let e := liftRec s i
  if liftState s i = 3 ∧ !(liftX s i).late ∧ (liftX s i).launch ≤ now s + usUnits 1 then setGuard s (liftAction e) (liftTarget e) true else s
/-- A change of its time base has moved a lift (R383). [DEDUCED, log 84] -/
def retime (s : State) (i : Nat) : State :=
  let x := liftX s i
  let l := launchOf s (liftTb (liftRec s i)) x.inst
  if !tbValid s (liftTb (liftRec s i)) ∨ l = x.launch ∨ x.waiting ∨ x.due then s
  else
    let s := setLiftX s i { x with launch := l, late := liftState s i == 3 && decide (l < now s) }
    if liftState s i = 1 then setLiftStat s i 127 64 (l % 2 ^ 64)
    else if liftState s i = 3 ∧ now s + usUnits 2 < l then setLiftState (recallLift s i) i 1 else s
/-- What the changes of this command mean for Bascule: held TIME_STEPs that applied or were refused (R386), and lifts whose
launch counts moved. [DEDUCED, log 83] -/
def bscSettle (s : State) : State :=
  let l := s.stepped
  let s := { s with stepped := [] }
  let s := forEach s l (fun s e => if liftState s e.1 = 3 then occurred (launched s e.1) e.1 (if e.2 then 2 else 4) (lateNs s (liftX s e.1).launch) else s)
  forEach s ((liftList s).filter (fun i => liftState s i == 1 || liftState s i == 3)) retime
/-- Lifts held by targets that enter reset go back to ARMED (R384). -/
def recallTargets (s : State) (hit : Nat → Bool) : State :=
  forEach s ((liftList s).filter (fun i => liftState s i == 3 && hit (liftTarget (liftRec s i)))) (fun s i => setLiftState (recallLift s i) i 1)
/-- A lift entry fails parity. -/
def liftParity (s : State) (i : Nat) : State := if liftState s i = 0 then s else endLift s i 11

/-! ### Cancellation (R389, R394) and coordination (R391 to R393) -/

/-- The agreement fields of a group's lifts. -/
def coordOf (s : State) (g : Nat) : Option CoordFields :=
  match ((groupLifts s g).filter (fun i => ebit (liftRec s i) 106)).head? with
  | none => none
  | some i =>
    let e := liftRec s i
    some { group := BitVec.ofNat 8 g, tb := BitVec.ofNat 4 (liftTb e), lateDiscard := ebit e 105, sec := BitVec.ofNat 64 (efld e 63 0)
           ns := BitVec.ofNat 32 (efld e 93 64), period := BitVec.ofNat 32 (liftPeriod e), repeats := BitVec.ofNat 16 (efld e 207 192) }
/-- The fields of a message body (R392): group, cause, tb, late_discard, seconds, nanoseconds, period, repeat. -/
def coordBody (f : CoordFields) (cause : Nat) : List Nat :=
  [f.group.toNat, cause, f.tb.toNat, b2n f.lateDiscard, f.sec.toNat, f.ns.toNat, f.period.toNat, f.repeats.toNat]
def groupBody (g cause first : Nat) : List Nat := [g, cause, 0, 0, 0, 0, first, 0]
/-- The commit deadline has come (R391). [DEDUCED, log 79] -/
def pastDeadline (s : State) (f : CoordFields) : Bool :=
  let ms := clampN (fld s bscPage 0x120 15 0) 1 1000
  decide (((f.sec.toNat * 10 ^ 9 + f.ns.toNat : Int) - (ms * 10 ^ 6 : Nat)) * (2 ^ 32 : Nat) ≤ tbAt s f.tb.toNat (now s))
/-- The primary, holding both ANNOUNCEs, commits or rejects (R392, R393). [DEDUCED, log 79] -/
def tryMatch (s : State) (g : Nat) : State :=
  let x := groupOf s g
  match coordOf s g, x.partner, activeLink s with
  | some mine, some his, some l =>
    if !isPrimary s ∨ !x.announced ∨ x.committed then s
    else if mine ≠ his then
      resolveGroup (sendCtrl s l "REJECT" (groupBody g 1 0)).2 g 7 false
    else if pastDeadline s mine then s
    else
      let r := sendCtrl s l "COMMIT" (groupBody g 0 0)
      if !r.1 then s
      else
        let s := setGroup r.2 g { x with committed := true, partner := none }
        forEach s ((groupLifts s g).filter (fun i => liftState s i == 2)) (fun s i => arm (setLiftStat s i 3 3 1) i)
  | _, _, _ => s
/-- BSC_ANNOUNCE.go (R391). [DEDUCED, log 79] -/
def announceGroup (s : State) (g : Nat) : State :=
  match coordOf s g with
  | none => s
  | some f =>
    let x := groupOf s g
    let s := setGroup s g { x with announced := true, committed := false, confirmed := false }
    tryMatch (tellPartner s "ANNOUNCE" (coordBody f 0)) g
/-- A CTRL frame of the agreement reaches this member on the active link. -/
def onCtrl (s : State) (f : State → State) : State :=
  match activeLink s with
  | none => s
  | some l => f (ctrlIn s l (ctrlLen "" []))
/-- ANNOUNCE received. -/
def announceIn (s : State) (f : CoordFields) : State :=
  onCtrl s (fun s =>
    let g := f.group.toNat
    if isPrimary s ∧ pastDeadline s f then resolveGroup (tellPartner s "REJECT" (groupBody g 2 0)) g 7 false
    else tryMatch (setGroup s g { groupOf s g with partner := some f }) g)
/-- COMMIT received by the secondary before dispatch starts. -/
def commitIn (s : State) (g : Nat) : State :=
  onCtrl s (fun s =>
    let l := (groupLifts s g).filter (fun i => liftState s i == 2)
    if isPrimary s ∨ l.isEmpty ∨ l.any (dispatchDue s) then s
    else
      let s := setGroup s g { groupOf s g with committed := true, confirmed := true, partner := none }
      let s := tellPartner s "COMMITTED" (groupBody g 0 0)
      forEach s l (fun s i => arm (setLiftStat s i 3 3 1) i))
/-- COMMITTED received by the primary. -/
def committedIn (s : State) (g : Nat) : State :=
  onCtrl s (fun s => if isPrimary s ∧ (groupOf s g).committed then setGroup s g { groupOf s g with confirmed := true } else s)
/-- REJECT received by the secondary. -/
def rejectIn (s : State) (g : Nat) : State := onCtrl s (fun s => if isPrimary s then s else resolveGroup s g 7 false)
/-- The commit deadline of a group passes uncommitted (R393). A secondary that holds a matching ANNOUNCE waits for dispatch; an
ANNOUNCE kept for a group that this member has not armed goes (R392). -/
def deadlinePassed (s : State) (g : Nat) : State :=
  let x := groupOf s g
  match coordOf s g with
  | none => if x.partner.any (pastDeadline s) then setGroup s g { x with partner := none } else s
  | some f =>
    if x.committed ∨ !pastDeadline s f ∨ (!isPrimary s ∧ x.partner = some f) then s else resolveGroup s g 7 (failSolo s)

def cancelEnd (s : State) (b : Nat) : State := setBit s bscPage 0x10C b true
/-- Take lifts away from their occurrence number `n` on. [DESIGN CHOICE, log 86] -/
def stopFrom (s : State) (l : List Nat) (n : Nat) : State :=
  forEach s l (fun s i =>
    let x := liftX s i
    if n ≤ x.done then endLift s i 6 else setLiftX s i { x with stopAt := some n })
/-- The first occurrence of a group whose commit deadline lies ahead; the partner's answer may take longer, by a free
number of occurrences (R394). [DESIGN CHOICE, log 86] -/
def firstAhead (s : State) (i : Nat) : Nat × State :=
  let e := liftRec s i
  let ms := clampN (fld s bscPage 0x120 15 0) 1 1000
  let t := (tbAt s (liftTb e) (now s) / (2 ^ 32 : Nat)).toNat + ms * 10 ^ 6
  let r := fresh s
  ((if t < liftInst e then 0 else (t - liftInst e) / max (liftPeriod e) 1 + 1) + r.1, r.2)
/-- BSC_CANCEL.go. [DESIGN CHOICE, log 86] -/
def cancelGo (s : State) : State :=
  let byGroup := bitAt s bscPage 0x108 20
  let i := fld s bscPage 0x108 11 0
  let g := if byGroup then fld s bscPage 0x108 19 12 else liftGroup (liftRec s i)
  let l := if byGroup then (if g = 0 then [] else groupLifts s g) else (if liftLive s i then [i] else [])
  match l with
  | [] => cancelEnd s 2
  | j :: _ =>
    let e := liftRec s j
    let x := groupOf s g
    if l.any (fun k => liftState s k == 3 && decide ((liftX s k).launch < now s + 256) && !(liftX s k).waiting) then cancelEnd s 1
    else if !ebit e 106 then cancelEnd (forEach s l (fun s k => endLift s k 6)) 0
    else if !x.committed then
      let s := setGroup (tellPartner s "CANCEL" (groupBody g 0 0)) g {}
      cancelEnd (forEach s l (fun s k => endLift s k 6)) 0
    else if !byGroup ∨ liftPeriod e = 0 ∨ pairState s ≠ 1 then cancelEnd s 2
    else
      let r := firstAhead s j
      cancelEnd (tellPartner r.2 "CANCEL" (groupBody g 0 r.1)) 0
/-- CANCEL received. -/
def cancelIn (s : State) (g first : Nat) : State :=
  onCtrl s (fun s =>
    let l := groupLifts s g
    let x := groupOf s g
    if !x.committed then
      tellPartner (setGroup (forEach s (l.filter (fun i => liftState s i == 2)) (fun s i => endLift s i 7)) g {}) "CANCELLED" (groupBody g 0 first)
    else if l.any (fun i => liftPeriod (liftRec s i) == 0) then s
    else tellPartner (stopFrom s l first) "CANCELLED" (groupBody g 0 first))
/-- CANCELLED received: a committed cyclic group ends from the occurrence it names. -/
def cancelledIn (s : State) (g first : Nat) : State :=
  onCtrl s (fun s => if (groupOf s g).committed then stopFrom s (groupLifts s g) first else s)

/-- A read of BSC_DONE: the oldest entry leaves, its lateness stays in BSC_DONE_LATE (R396). The value read comes first. -/
def popDone (s : State) : Nat × State :=
  match s.bscFifo with
  | [] => (0, s)
  | (i, o, g, late) :: rest =>
    (i + o * 2 ^ 12 + g * 2 ^ 16 + 2 ^ 31,
     setFld (wr { s with bscFifo := rest } bscPage 0x114 (BitVec.ofNat 32 (min late (2 ^ 32 - 1)))) bscPage 0x118 8 0 rest.length)
/-- BSC_STAT at this moment. -/
def bscStat (s : State) : Nat :=
  ((liftList s).filter (liftLive s)).length + ((liftList s).filter (fun i => liftState s i == 3)).length * 2 ^ 16

end Sys2Proof.Machine
end

