-- ==== Sys2Proof/Machine/HostOps.lean ====
section
/-! DEFINITION. What the host path does with entries: TX and RX entries (R434 to R437), frames for the host port (R438), notifications
and responses (R409, R441). -/

namespace Sys2Proof.Machine

/-! ### TX and RX entries (R433 to R437) -/

/-- Why a TX entry is malformed: its cause, 0 for none (R433, R434). [DEDUCED, log 93] -/
def txCause (s : State) (n : Nat) (h : BitVec 128) (gather : List (BitVec 128)) : Nat :=
  let count := sfld h 3 0 + 1
  let lens := gather.map (fun g => sfld g 77 64)
  if count < 2 ∨ slotsLeft s n < count then 1
  else if sfld h 31 19 ≠ 0 ∨ sfld h 63 46 ≠ 0 ∨ sfld h 127 96 ≠ 0 ∨ gather.any (fun g => sfld g 127 78 != 0) then 3
  else if lens.sum ≠ sfld h 45 32 ∨ sfld h 45 32 < 14 ∨ 12284 < sfld h 45 32 ∨ lens.any (fun l => l == 0 || decide (12284 < l)) then 4
  else if sfld h 6 5 = 3 ∨ (sfld h 4 4 = 1 ∧ 105 < sfld h 15 8) ∨ (sfld h 4 4 = 0 ∧ sfld h 6 5 ≠ 0) then 5
  else 0
/-- The data area of a TX completion (R443). [DEDUCED, log 75] -/
def txData (len : Nat) (stamp : Option (Nat × Bool × Nat × Nat × Nat)) : List Byte :=
  match stamp with
  | none => leBytes 16 len
  | some (tb, valid, bc, sec, ns) => leBytes 48 (len + tb * 2 ^ 16 + b2n valid * 2 ^ 20 + bc % 2 ^ 64 * 2 ^ 144 + sec % 2 ^ 64 * 2 ^ 208 + ns * 2 ^ 272)
/-- TX_ENTRY: the entry is fetched; a malformed one halts the host path. -/
def txIn (s : State) (n : Nat) (slots : HostRead (List (BitVec 128))) (data : HostRead (List Byte)) : State :=
  if !sqReady s n 0 then s
  else match slots with
  | .error => halt (askSlots s n 1) 10 n false (sqConsOf s n).toNat []
  | .ok l =>
    let h := l.headD 0
    let k := sfld h 3 0 + 1
    let cause := txCause s n h (l.drop 1)
    let idx := (sqConsOf s n).toNat
    if cause ≠ 0 then halt (askSlots s n k) cause n false idx l
    else if !slotsFit s n k then s
    else fetchEntry (askSlots s n k) n { index := idx, count := k, slots := l, data := data }
/-- A fetched TX entry starts: its buffers are read, and its frame goes to a pipeline or a queue (R435, R436). [DEDUCED, log 96] -/
def txStart (s : State) (n : Nat) (f : Fetched) : State :=
  let h := f.slots.headD 0
  let ts := sfld h 6 5
  let recs := recordsNeeded 0 f
  let tag := sfld h 95 64
  let s := forEach (startEntry s n recs) (f.slots.drop 1) (fun s g => emit s (.hostRead (sfld g 63 0) (sfld g 77 64) (sqOf s n).noSnoop))
  let fail (s : State) (st : Nat) : State := complete s n { typ := 0, status := st, index := f.index, tag := tag, records := recs, data := txData 0 none }
  match f.data with
  | .error => fail (raise (countReason s 8 0xC5) rngPage 3 0xC5) 0xC5
  | .ok bs =>
    let bytes := fitBytes (max 60 (sfld h 45 32)) (fitBytes (sfld h 45 32) bs)
    let x : Frame := { id := s.nextId, bytes := bytes, ingress := 112, ts := stampNow s % 2 ^ 64, tc := if sfld h 4 4 = 1 then sfld h 18 16 else 0
                       tsTag := if ts = 1 then some (n, tag) else none, ptp := if ts = 2 then 1 else 0
                       parser := if sfld h 4 4 = 1 then some (sqOf s n).pipe else none }
    let v := grantVerdict s .granules 5 (granulesOf x)
    match grant { s with nextId := s.nextId + 1 } .granules 5 (granulesOf x) 8 with
    | (none, s) => fail s v
    | (some b, s) =>
      let ok : Compl := { typ := 0, index := f.index, tag := tag, records := recs, data := txData bytes.length none }
      if sfld h 4 4 = 0 then complete (pipeArrive s (sqOf s n).pipe { frame := x, buf := b }) n ok
      else
        let s := addCopy s { frame := x, port := sfld h 15 8, buf := b }
        if ts ≠ 1 then complete s n ok
        else { s with txWait := s.txWait ++ [{ ring := n, tag := tag, index := f.index, len := bytes.length, sel := sfld h 7 7 = 1, since := now s }] }
/-- RX_ENTRY: a buffer is posted. At most 64 slots of a ring stand on chip (R431). -/
def rxIn (s : State) (n : Nat) (slots : HostRead (List (BitVec 128))) : State :=
  if !sqReady s n 1 then s
  else match slots with
  | .error => halt (askSlots s n 1) 10 n false (sqConsOf s n).toNat []
  | .ok l =>
    let h := l.headD 0
    let idx := sqConsOf s n
    let x := sqOf s n
    let cause := if sfld h 3 0 ≠ 0 then 1 else if sfld h 31 18 ≠ 0 then 3 else if sfld h 17 4 < 64 then 7 else 0
    if cause ≠ 0 then halt (askSlots s n 1) cause n false idx.toNat l
    else if !slotsFit s n 1 then s
    else passSlots (askSlots s n 1) n 1
      { x with posted := x.posted ++ [{ index := idx, tag := sfld h 63 32, len := sfld h 17 4, addr := sfld h 127 64 }] }

/-- The wait for a stamp ends: the entry of (ring, tag) completes. -/
def endWait (s : State) (ring tag : Nat) (c : TxWait → Compl) : State :=
  match takeFirst (fun w => w.ring == ring && w.tag == tag) s.txWait with
  | none => s
  | some (w, rest) => complete { s with txWait := rest } ring { c w with typ := 0, index := w.index, tag := tag, records := 2 }
/-- Stamps that reached their FIFO go to the host entries that asked for them (R364, R436). [DEDUCED, log 74; DEDUCED, log 75] -/
def hostStamps (s : State) : State :=
  forEach { s with stamps := [] } s.stamps (fun s t =>
    match s.txWait.find? (fun w => w.ring == t.ring && w.tag == t.tag) with
    | none => s
    | some w =>
      let e := tget s tdsPage 0 0 t.port
      let tb := if w.sel then efld e 7 4 else efld e 3 0
      let r := convertStamp s tb (t.bc % 2 ^ 64)
      endWait r.2 t.ring t.tag (fun w => { typ := 0, data := txData w.len (some (tb, tbValid s tb, t.bc, secOf r.1, nsOf r.1)) }))
/-- Stamped frames that were dropped complete with the drop's reason (R436). [DEDUCED, log 96] -/
def hostLost (s : State) : State :=
  let l := s.lostTx
  let why := s.lastReason
  let s := { s with lostTx := [], lastReason := 0 }
  forEach s l (fun s e => endWait s e.1 e.2 (fun _ => { typ := 0, status := why, data := txData 0 none }))
/-- TS_TIMEOUT: 10 ms after admission (R436). -/
def tsLate (s : State) (tag : Nat) : State :=
  match s.txWait.find? (fun w => w.tag == tag && decide (w.since + msUnits 10 ≤ now s)) with
  | none => s
  | some w =>
    let s := raise (inc (countReason s 8 0xC6) rngPage 0x110) rngPage 4 0xC6
    endWait s w.ring tag (fun w => { typ := 0, status := 0xC6, data := txData w.len none })

/-! ### Frames for the host port (R438) -/

/-- The head of a queue leaves it as sent. [DEDUCED, log 96] -/
def takeHead (s : State) (q : Nat) (f : QFrame) : State :=
  let s := report (setFrames s q ((queueOf s q).frames.filter (fun g => g.seq != f.seq))) q f.seq
  releaseRecord (dropBuf (qCount (qCount s q 2 1) q 3 (frameLen f.frame)) q f) q f.pages
/-- A frame no longer waits for completion room on a ring's behalf (R441). -/
def rxLeave (s : State) (n : Nat) : State :=
  if (sqOf s n).waiting ∧ (sqOf s n).typ = 1 then unblock (setSq s n { sqOf s n with waiting := false }) (sqOf s n).cq else s
def hostDrop (s : State) (q : Nat) (f : QFrame) (reason : Nat) : State :=
  let s := inc (discard s q f 8 reason) rngPage 0x10C
  let s := rxLeave { s with rxWait := mapSet (fun _ => none) s.rxWait (qTc q) none } (rxRing s f.frame)
  if reason = 0xC2 then raise s rngPage 2 0xC2 else s
/-- The data area of an RX completion (R443). [DEDUCED, log 96] -/
def rxData (s : State) (f : Frame) (written : Nat) : List Byte × State :=
  let p := parse (parseCfg s (pipeOfPort f.ingress)) f.bytes
  let r := if f.times.isEmpty then stampFrame s f else (f, s)
  let a := r.1.times.headD (0, false)
  let b := r.1.times[1]?
  let half (v : Int) (bit63 bit62 : Bool) : Nat := secOf v + (nsOf v + b2n bit62 * 2 ^ 30 + b2n bit63 * 2 ^ 31) * 2 ^ 64
  let w0 := written + f.bytes.length * 2 ^ 16 + b2n (written < f.bytes.length || f.cut) * 2 ^ 30 + b2n f.trunc * 2 ^ 31 +
    f.hostCode % 256 * 2 ^ 32 + f.ingress % 256 * 2 ^ 40 + f.cause % 256 * 2 ^ 48 + f.tc % 8 * 2 ^ 56 + f.colour % 4 * 2 ^ 59 + f.pass % 2 * 2 ^ 61
  let w1 := f.epoch % 65536 + f.mirror % 16 * 2 ^ 16 + (p.outer.getD 0) % 4096 * 2 ^ 20
  (leBytes 8 w0 ++ leBytes 8 w1 ++ leBytes 8 f.ts ++ leBytes 12 (half a.1 a.2 b.isSome) ++
    leBytes 12 (half ((b.map (·.1)).getD 0) ((b.map (·.2)).getD false) false), r.2)
/-- The frame takes the ring's first buffer: it is written, cut to the buffer's length, and completes. -/
def hostWriteOut (s : State) (q : Nat) (f : QFrame) (b : RxBuf) (rest : List RxBuf) : State :=
  let n := rxRing s f.frame
  let s := takeHead { s with rxWait := mapSet (fun _ => none) s.rxWait (qTc q) none } q f
  let w := min b.len f.frame.bytes.length
  let cut := decide (b.len < f.frame.bytes.length)
  let s := startEntry (setHeld s n { sqOf s n with posted := rest }) n 2
  let s := emit s (.hostWrite b.addr (f.frame.bytes.take w) (sqOf s n).noSnoop)
  let s := if cut then countReason s 8 0xC4 else s
  let d := rxData s f.frame w
  complete d.2 n { typ := 1, status := if cut then 0xC4 else 0, index := b.index.toNat, tag := b.tag, records := 2, data := d.1 }
/-- One selection of the host port (R242, R438): the head that is chosen goes to the RX ring that its host code steers to, or waits
for a buffer. `want` keeps the selection to one class: where another is chosen, nothing happens. [DESIGN CHOICE, log 146] -/
def hostSelect (s : State) (want : Option Nat) : State :=
  let r := chooseNow s 112
  match r.1 with
  | none => r.2.2
  | some (c, tier, f) =>
    if want.any (· != c) then s
    else
      let q := qIdx 112 c
      let go := chargeNow r.2.2 112 c tier f
      if hostBar s f.frame ≠ 0 then hostDrop go q f (hostBar s f.frame)
      else
        let wait (t : State) : State := { t with rxWait := mapSet (fun _ => none) t.rxWait c (some (f.seq, now s)) }
        match (sqOf s (rxRing s f.frame)).posted with
        | [] => wait r.2.1
        | b :: rest =>
          if mayStart s (rxRing s f.frame) 2 then hostWriteOut go q f b rest
          else wait (blockEntry r.2.1 (rxRing s f.frame) (sqOf s (rxRing s f.frame)).cq)
/-- HOST_FRAME_DELIVER. -/
def hostDeliver (s : State) (tc : Nat) : State := hostSelect s (some tc)
/-- RX_WAIT_EXPIRE. -/
def rxWaitOver (s : State) (tc : Nat) : State :=
  match headOf s (qIdx 112 tc), rxSince s tc with
  | some f, some b => if b + usUnits (fld s rngPage 0x100 15 0) ≤ now s then hostDrop s (qIdx 112 tc) f 0xC2 else s
  | _, _ => s

/-! ### Notifications and responses (R409, R441) -/

/-- Body slots of a message whose layout the spec does not give: a free value. -/
def freeSlots (s : State) : Nat × State := let r := fresh s; (r.1 % 16, r.2)
/-- A notification of a service: to the completion ring of its lowest-numbered bound ring. [DEDUCED, log 50] -/
def notify (s : State) (service opcode : Nat) (body : List Nat) : State :=
  let bound := (List.range 256).find? (fun n => let e := tget s svcPage 0 0 n; ebit e 8 && efld e 7 0 == service)
  let s := emit s (.notify service opcode body)
  match bound with
  | none => inc s embPage 0x10C
  | some n =>
    let cq := if (sqOf s n).on then (sqOf s n).cq else fld s (sqPage n) 0x104 15 8
    let r := freeSlots s
    let recs := 1 + ceilDiv r.1 2
    if halted s then inc r.2 embPage 0x10C
    else if bitAt s (cqPage cq) 0x11C 16 ∨ !roomFor s cq recs then raise (countReason r.2 8 0xC8) rngPage 5 0xC8
    else postCompl r.2 cq 0 { typ := 2, notify := true, records := recs, msg := [service, opcode] ++ body }
/-- A response to a request: once, on the completion ring of its submission ring (R409). The largest completion was
reserved for it. -/
def respond (s : State) (m : SvcRequest) (idx status : Nat) (body : List Nat) : State :=
  match m.ring with
  | none => if m.noResp then s else emit s (.response m.service.toNat m.opcode.toNat m.tag.toNat status none body)
  | some ring =>
    let n := ring.toNat
    if m.noResp then entryDone s n
    else
      let r := freeSlots s
      let s := emit r.2 (.response m.service.toNat m.opcode.toNat m.tag.toNat status (some n) body)
      let s := postCompl s (sqOf s n).cq 9 { typ := 2, sq := n, index := idx, records := 1 + ceilDiv r.1 2
                                             msg := [m.service.toNat, m.opcode.toNat, status, m.tag.toNat] ++ body }
      entryDone s n

end Sys2Proof.Machine
end

