-- ==== Sys2Proof/Machine/CopyOps.lean ====
section
/-! DEFINITION. The copy channels: entries and their checks (R439, R456, R457, R459, R461), transforms (R460), reads,
writes, commit and completion (R462, R464 to R467), and the scratch area (R458). -/

namespace Sys2Proof.Machine

/-! ### Transforms (R460, R461) -/

/-- A transform: op, element bytes w, elements N, gap g, header h. -/
structure Xform where
  op : Nat
  w : Nat
  n : Nat
  g : Nat
  h : Nat
  deriving DecidableEq, Repr
def xformOf (x : Nat) : Xform :=
  { op := bitsOf x 1 0, w := 2 ^ bitsOf x 3 2, n := bitsOf x 11 4 + 1, g := bitsOf x 15 12, h := bitsOf x 23 16 }
/-- F, the bytes of an interleaved frame. -/
def Xform.frame (x : Xform) : Nat := x.h + x.n * (x.w + x.g)
/-- K, the frames of an entry of `len` source bytes. -/
def Xform.frames (x : Xform) (len : Nat) : Nat := if x.op = 2 then len / x.frame else len / (x.n * x.w)
/-- The length rule. -/
def Xform.lenOk (x : Xform) (len : Nat) : Bool :=
  match x.op with
  | 0 => true
  | 1 => len % (x.n * x.w) == 0
  | 2 => len % x.frame == 0
  | _ => false
/-- The destination length. -/
def Xform.dstLen (x : Xform) (len : Nat) : Nat :=
  match x.op with
  | 1 => x.frames len * x.frame
  | 2 => x.frames len * (x.n * x.w)
  | _ => len
/-- The source byte that destination offset `o` takes; headers and gaps of an interleaved destination take none. -/
def Xform.srcOff (x : Xform) (len o : Nat) : Option Nat :=
  let p := x.frames len * x.w
  match x.op with
  | 1 =>
    let q := o % x.frame
    let b := (q - x.h) % (x.w + x.g)
    if q < x.h ∨ x.w ≤ b then none else some ((q - x.h) / (x.w + x.g) * p + o / x.frame * x.w + b)
  | 2 => some (o % p / x.w * x.frame + x.h + o / p * (x.w + x.g) + o % x.w)
  | _ => some o
/-- Frames of which every source byte is among the first `n` (R461). [DEDUCED, log 97] -/
def Xform.ready (x : Xform) (len n : Nat) : Nat :=
  if x.op = 1 then (n - (x.n - 1) * (x.frames len * x.w)) / x.w else n / x.frame
/-- The destination offsets of frame `r`, ascending within each plane or frame (R462). -/
def Xform.frameOffs (x : Xform) (len r : Nat) : List Nat :=
  if x.op = 1 then (List.range x.frame).map (· + r * x.frame)
  else (List.range x.n).flatMap (fun c => (List.range x.w).map (· + c * (x.frames len * x.w) + r * x.w))
/-- What is written once the source bytes `got` have been read, where `n` of them had been before. [DEDUCED, log 97] -/
def Xform.output (x : Xform) (len n : Nat) (got : List Byte) : List (Nat × Byte) :=
  let from' := x.ready len n
  ((List.range (x.ready len got.length - from')).flatMap (fun r => x.frameOffs len (from' + r))).map (fun o =>
    (o, match x.srcOff len o with | none => 0 | some i => got.getD i 0))

/-! ### Checks (R456, R457, R459, R461) -/

/-- A range lies in its space. -/
def rangeOk (s : State) (space addr len : Nat) : Bool :=
  match space with
  | 0 => decide (addr + len ≤ 2 ^ 64)
  | 1 => decide (addr < 2 ^ 42) && decide (addr % 4096 + len ≤ 4096)
  | 2 => decide (addr % 2 ^ 60 + len ≤ (capOf s (addr / 2 ^ 60)).size * 4096)
  | 3 => decide (addr + len ≤ s.scratch.length * 4096)
  | _ => false
/-- R457: a DRAM page that copies may read. -/
def pageReadable (s : State) (p : Nat) : Bool :=
  let b := bufOf s .pages p
  (b.st == .held || b.st == .released) && (b.owner == 4 || b.owner == 5)
/-- The status that an entry completes with before its first beat; 0 where it runs. -/
def copyVerdict (s : State) (e : ChanEntry) : Nat :=
  let x := xformOf e.xform
  let d := x.dstLen e.len
  if bitsOf e.xform 31 24 ≠ 0 ∨ x.op = 3 ∨ 3 < e.srcSpace ∨ 3 < e.dstSpace ∨ e.dstSpace = 1 ∨ e.dstSpace = 2 then 0xD9
  else if !x.lenOk e.len ∨ !rangeOk s e.srcSpace e.src e.len ∨ !rangeOk s e.dstSpace e.dst d then 0xD9
  else if e.srcSpace = 3 ∧ e.dstSpace = 3 ∧ e.src < e.dst + d ∧ e.dst < e.src + e.len then 0xD9
  else if e.srcSpace = 1 ∧ !pageReadable s (e.src / 4096) then 0xDA
  else if e.srcSpace = 2 ∧ capState s (e.src / 2 ^ 60) ≠ 4 then 0xDC
  else 0

/-! ### Entries, beats and completion (R462 to R467) -/

/-- COPY_ENTRY (R439): the entry is fetched. -/
def copyIn (s : State) (n : Nat) (slots : HostRead (List (BitVec 128))) : State :=
  if !sqReady s n 3 then s
  else match slots with
  | .error => halt (askSlots s n 1) 10 n false (sqConsOf s n).toNat []
  | .ok l =>
    let a := l.headD 0
    let idx := (sqConsOf s n).toNat
    let cause := if sfld a 3 0 ≠ 1 ∨ sfld a 95 64 = 0 then 9 else if slotsLeft s n < 2 then 1 else if sfld a 31 15 ≠ 0 then 3 else 0
    if cause ≠ 0 then halt (askSlots s n 2) cause n false idx l
    else if !slotsFit s n 2 then s
    else fetchEntry (askSlots s n 2) n { index := idx, count := 2, slots := l }
/-- The channel of a fetched COPY entry is full: the ring yields its turn (R462). -/
def chanFull (s : State) (f : Fetched) : Bool := decide (64 ≤ (chanOf s (sfld (f.slots.headD 0) 7 4)).entries.length)
/-- A fetched COPY entry starts: its channel holds it. -/
def copyTake (s : State) (n : Nat) (f : Fetched) : State :=
  let a := f.slots.headD 0
  let b := (f.slots.drop 1).headD 0
  let e : ChanEntry := { ring := n, waitLift := sfld a 8 8 = 1, srcSpace := sfld a 11 9, dstSpace := sfld a 14 12, tag := sfld a 63 32
                         len := sfld a 95 64, xform := sfld a 127 96, src := sfld b 63 0, dst := sfld b 127 64, index := f.index }
  let s := startEntry s n 2
  setChan s (sfld a 7 4) { chanOf s (sfld a 7 4) with entries := (chanOf s (sfld a 7 4)).entries ++ [e] }

/-! ### Reads and their shares (R462, R463) -/

/-- DMA_CHc_CFG.rate in 100 Mb/s, 0 for no limit, and weight. -/
def chanRate (s : State) (c : Nat) : Nat := fld s dmaPage (0x140 + 16 * c) 31 16
def chanWeight (s : State) (c : Nat) : Nat := max 1 (fld s dmaPage (0x140 + 16 * c) 7 0)
/-- The bucket of a channel, filled at `rate` up to this moment: 64 KiB at most (R463). [DESIGN CHOICE, log 152] -/
def fillChan (s : State) (c rate : Nat) : Chan :=
  let x := chanOf s c
  { x with fill := if rate = 0 then 65536 * 12288 else min (65536 * 12288) (x.fill + ((now s - x.fillBc) * rate : Nat)), fillBc := now s }
/-- Bytes of an entry's next source read: up to 512, aligned to 512 (R462). [DESIGN CHOICE, log 98] -/
def readLen (e : ChanEntry) : Nat := min (512 - (e.src + e.asked) % 512) (e.len - e.asked)
/-- A read of a channel can be issued: its bucket is above 0, and its unit and the link take it. -/
def readReady (s : State) (c : Nat) : Bool :=
  !halted s && serving s dmaPage && (chanRate s c == 0 || decide (0 < (fillChan s c (chanRate s c)).fill)) &&
  ((chanOf s c).entries.head?).any (fun e => e.running && e.due && (e.srcSpace != 0 || pcieLive s))
/-- The read is issued; the bucket is charged with its source bytes. -/
def issueRead (s : State) (c : Nat) : State :=
  let x := fillChan s c (chanRate s c)
  match x.entries with
  | [] => s
  | e :: rest =>
    let k := readLen e
    let s := setChan s c { x with entries := { e with asked := e.asked + k, due := false } :: rest
                                  fill := if chanRate s c = 0 then x.fill else x.fill - (k * 12288 : Nat), used := x.used + k * 2 ^ 16 / chanWeight s c }
    if e.srcSpace = 0 then emit s (.hostRead (e.src + e.asked) k (sqOf s e.ring).noSnoop) else s
/-- Channels in the order of what they have asked for over their weights. [DESIGN CHOICE, log 152] -/
def byShare (s : State) (c : Nat) : List Nat → List Nat
  | [] => [c]
  | d :: l => if (chanOf s d).used ≤ (chanOf s c).used then d :: byShare s c l else c :: d :: l
/-- Every read that can be issued is, the channel furthest behind its share first (R463). [DESIGN CHOICE, log 152] -/
def issueReads (s : State) : State :=
  forEach s (((s.chans.map (·.1)).filter (readReady s)).foldl (fun l c => byShare s c l) []) issueRead
/-- The share that a channel which begins to work starts from: that of the busy channel furthest behind; it makes nothing up. [DESIGN CHOICE, log 152] -/
def shareFrom (s : State) (c : Nat) : Nat :=
  let l := (s.chans.filter (fun e => e.1 != c && e.2.entries.any (fun x => x.running))).map (fun e => e.2.used)
  max (chanOf s c).used (match l with | [] => 0 | a :: r => r.foldl min a)
/-- The head entry of a channel ends with a status (R467). [DEDUCED, log 97] -/
def copyDone (s : State) (c status : Nat) : State :=
  match (chanOf s c).entries with
  | [] => s
  | e :: rest =>
    let s := setChan s c { chanOf s c with entries := rest }
    let s := inc s dmaPage ((if status = 0 then 0x148 else 0x14C) + 16 * c)
    let s := if status = 0 then s else raise (countReason s 8 status) dmaPage 0 status c
    let d := e.got.length + e.written * 2 ^ 32 + e.dirtyLo % 2 ^ 64 * 2 ^ 64 + e.dirtyHi % 2 ^ 64 * 2 ^ 128 + c * 2 ^ 192 + now s % 2 ^ 64 * 2 ^ 256
    complete s e.ring { typ := 3, status := status, index := e.index, tag := e.tag, records := 2, data := leBytes 48 d }
/-- COPY_EXECUTE: the channel starts its next entry. One with wait_lift stops it (R464). -/
def copyStart (s : State) (c : Nat) : State :=
  match (chanOf s c).entries with
  | [] => s
  | e :: rest =>
    if e.running ∨ e.waitLift ∨ halted s ∨ !serving s dmaPage ∨ draining s dmaPage ∨ ((e.srcSpace = 0 ∨ e.dstSpace = 0) ∧ !pcieLive s) then s
    else
      let v := copyVerdict s e
      if v ≠ 0 then copyDone s c v
      else
        let g := if e.srcSpace = 1 then some (bufOf s .pages (e.src / 4096)).gen else none
        issueReads (setChan s c { chanOf s c with entries := { e with running := true, due := true, gen := g } :: rest, used := shareFrom s c })
/-- The byte at offset `o` of a capture partition (R483). -/
def capByte (s : State) (n o : Nat) (given : Byte) : Byte :=
  let part := capOf s n
  let size := part.size * 4096
  match part.recs.find? (fun r => decide ((o + size - r.off) % max size 1 < r.bytes.length)) with
  | some r => r.bytes.getD ((o + size - r.off) % max size 1) given
  | none => given
/-- Where page `p` stands in a list of pages. -/
def pageAt (p : Nat) (l : List Nat) : Option Nat := ((numbered 0 l).find? (fun e => e.2 == p)).map (·.1)
/-- The byte at offset `o` of a DRAM page of CST or CAP: of the record that stands there, or of the capture partition. -/
def pageByte (s : State) (p o : Nat) (given : Byte) : Byte :=
  let inRec (r : Record) : Option Byte := (pageAt p r.pages).bind (fun j => if r.off ≤ j * 4096 + o then r.image[j * 4096 + o - r.off]? else none)
  match ((custodyQueues s).flatMap (allRecords s)).findSome? inRec with
  | some b => b
  | none => match (List.range 16).findSome? (fun n => (pageAt p (capOf s n).pages).map (fun j => (n, j))) with
    | some (n, j) => capByte s n (j * 4096 + o) given
    | none => given
/-- The source byte at index `i`: scratch bytes written before, records and captures are the device's own; every other byte
comes with the response. [DESIGN CHOICE, log 98] -/
def srcByte (s : State) (e : ChanEntry) (i : Nat) (given : Byte) : Byte :=
  match e.srcSpace with
  | 1 => pageByte s (e.src / 4096) (e.src % 4096 + i) given
  | 2 => capByte s (e.src / 2 ^ 60) (e.src % 2 ^ 60 + i) given
  | 3 => let v := mapGet (fun _ => 0) s.scratchMem (e.src + i); if v = 0 then given else BitVec.ofNat 8 (v - 1)
  | _ => given
/-- The DRAM page and word that source byte `i` is read from. -/
def srcWord (s : State) (e : ChanEntry) (i : Nat) : Nat × Nat :=
  match e.srcSpace with
  | 1 => (e.src / 4096, (e.src % 4096 + i) / 8)
  | 2 => let o := e.src % 2 ^ 60 + i; ((capOf s (e.src / 2 ^ 60)).pages.getD (o / 4096) 0, o % 4096 / 8)
  | _ => let o := e.src + i; (s.scratch.getD (o / 4096) 0, o % 4096 / 8)
/-- The bytes of a beat: an uncorrectable word in DRAM fails it (R467). -/
def beatData (s : State) (e : ChanEntry) (data : HostRead (List Byte)) : HostRead (List Byte) :=
  match data with
  | .error => .error
  | .ok bs => if e.srcSpace ≠ 0 ∧ !s.dramBad.isEmpty ∧ (List.range bs.length).any (fun i => wordBad s (srcWord s e (e.got.length + i))) then .error else .ok bs
/-- Destination bytes are written: to host memory, or into the scratch area. -/
def writeByte (space : Nat) (noSnoop : Bool) (s : State) (x : Nat × Byte) : State :=
  if space = 3 then { s with scratchMem := mapSet (fun _ => 0) s.scratchMem x.1 (x.2.toNat + 1) } else emit s (.hostWrite x.1 [x.2] noSnoop)
/-- Bytes at destination offsets go out, and the entry's account of them. [DEDUCED, log 97] -/
def writeOut (s : State) (e : ChanEntry) (l : List (Nat × Byte)) : ChanEntry × State :=
  let s := forEach s (l.map (fun x => (e.dst + x.1, x.2))) (writeByte e.dstSpace (sqOf s e.ring).noSnoop)
  let e := l.foldl (fun e x =>
    let a := e.dst + x.1
    { e with written := e.written + 1, dirtyLo := if e.dirtyHi = 0 then a else min e.dirtyLo a, dirtyHi := max e.dirtyHi (a + 1) }) e
  (e, s)
/-- COPY_READ_RESPONSE: a beat of the read in progress (R461, R466). A halt lets the burst end, and nothing after it (R465). [DEDUCED, log 97; DESIGN CHOICE, log 98] -/
def copyBeat (s : State) (c : Nat) (data : HostRead (List Byte)) (last : Bool) : State :=
  match (chanOf s c).entries with
  | [] => s
  | e :: rest =>
    if !e.running ∨ e.asked ≤ e.got.length then s
    else match beatData s e data with
    | .error =>
      let ends := last && e.asked == e.len
      if halted s then s
      else if e.srcSpace = 0 then copyDone s c (if ends then 0xDE else 0xD8)
      else raise (copyDone s c (if ends then 0xDF else 0xDD)) dmaPage 3 0 c
    | .ok bs =>
      let x := xformOf e.xform
      let n := e.got.length
      let bs := (numbered n (bs.take (e.asked - n))).map (fun b => srcByte s e b.1 b.2)
      let r := writeOut s e (if x.op = 0 then numbered n bs else x.output e.len n (e.got ++ bs))
      let e := { r.1 with got := r.1.got ++ bs }
      let put (e : ChanEntry) (s : State) : State := setChan s c { chanOf s c with entries := e :: rest }
      if e.got.length < e.asked ∨ halted s then put e r.2
      else if e.asked < e.len then issueReads (put { e with due := true } r.2)
      else
        let s := put e r.2
        let b := bufOf s .pages (e.src / 4096)
        if e.srcSpace = 1 ∧ (!pageReadable s (e.src / 4096) ∨ e.gen ≠ some b.gen) then copyDone s c 0xDB
        else copyDone s c 0
/-- A DMA_START lift (R464): false where no entry waits. [DEDUCED, log 43] -/
def dmaRelease (s : State) (c : Nat) : Bool × State :=
  let l := (chanOf s c).entries
  if l.any (fun e => e.waitLift) then (true, setChan s c { chanOf s c with entries := l.map (fun e => { e with waitLift := false }) })
  else (false, raise s dmaPage 2 0 c)

/-! ### Scratch (R458) -/

def scratchNamed (s : State) : Bool :=
  (List.range 16).any (fun c => (chanOf s c).entries.any (fun e => e.srcSpace == 3 || e.dstSpace == 3))
def scratchRefuse (s : State) (cause : Nat) : State :=
  raise (setFld (setBit s dmaPage 0x108 2 true) dmaPage 0x108 5 3 cause) dmaPage 1 0 cause
/-- DMA_SCRATCH.go. -/
def scratchGo (s : State) : State :=
  let n := fld s dmaPage 0x104 27 0
  if s.scratchNew.isSome then scratchRefuse s 3
  else if scratchNamed s then scratchRefuse s 1
  else match grantPages s 6 8 none n [] with
  | (none, s) => scratchRefuse s 2
  | (some l, s) => setBit { s with scratchNew := some l } dmaPage 0x108 0 true
/-- SCRATCH_DONE. -/
def scratchEnd (s : State) : State :=
  match s.scratchNew with
  | none => s
  | some l =>
    let s := forEach s s.scratch (fun s p => opRelease s .pages p 6)
    let s := { s with scratch := l, scratchNew := none, scratchMem := [] }
    setBit (setBit (wr64 s dmaPage 0x110 l.length) dmaPage 0x108 0 false) dmaPage 0x108 1 true
/-- DMA_CHc_STAT at this moment. -/
def chanStat (s : State) (c : Nat) : Nat :=
  let l := (chanOf s c).entries
  b2n (l.any (fun e => e.running)) + b2n ((l.head?.map (fun e => e.waitLift)).getD false) * 2 + l.length * 256

end Sys2Proof.Machine
end

