-- ==== Sys2Proof/Machine/EngOps.lean ====
section
/-! DEFINITION. Measurement (R532, R533), engine blocks and the service map (R402 to R404), loading and migration (R410 to
R414), engine and block faults with their recovery (R416, R417), and frames for the engine port (R401). -/

namespace Sys2Proof.Machine

/-! ### Measurement (R521, R532) -/

/-- A measurement register. -/
def measure (s : State) (r : Nat) : Nat := efld (tget s secPage 2 0 r) 511 0
/-- The device key certifies a region (R520, R521), unless debug has locked it (R540). [DEDUCED, log 107] -/
def issueCert (s : State) (r : Nat) : State :=
  if s.boot.locked then s
  else
    let owner := if bitAt s fusePage 0x108 0 then leNat ((List.range 16).flatMap (fun i => leBytes 4 (rd s fusePage (0x140 + 4 * i)).toNat)) else 0
    let c : Cert := { measure := measure s r, owner := owner, generation := (s.boot.running.map (fun b => b.generation.toNat)).getD 0 }
    { s with certSerial := mapSet (fun _ => 0) s.certSerial r (mapGet (fun _ => 0) s.certSerial r + 1)
             boot := { s.boot with certs := mapSet (fun _ => ({} : Cert)) s.boot.certs r c } }
/-- Extension: M = SHA-512(M ‖ d), and an entry of the log. In service a region register brings a new key and certificate (R521). -/
def extend (s : State) (r ty target version digest : Nat) : State :=
  let m := Config.sha512 ((leBytes 64 (measure s r) ++ leBytes 64 digest).map (·.toNat))
  let s := tset s secPage 2 0 r (BitVec.ofNat 1920 (m % 2 ^ 512))
  let e := r % 16 + ty % 256 * 2 ^ 8 + target % 256 * 2 ^ 16 + version % 65536 * 2 ^ 24 + digest % 2 ^ 512 * 2 ^ 64 + now s % 2 ^ 64 * 2 ^ 576
  let s := if s.logLen < 512 then tset s secPage 3 0 s.logLen (BitVec.ofNat 1920 e) else s
  let s := { s with logLen := s.logLen + 1 }
  if r ≤ 9 ∧ s.boot.stage = 3 then issueCert s r else s

/-! ### Blocks and the map -/

def blkSvc (s : State) (b : Nat) : Nat := fld s (ebkPage b) 0x108 7 0
/-- EBK_SVC.state: 0 EMPTY, 1 LOADING, 2 LOADED, 3 RUNNING, 4 FROZEN, 5 HELD. -/
def blkState (s : State) (b : Nat) : Nat := fld s (ebkPage b) 0x108 19 16
def setBlkState (s : State) (b n : Nat) : State := setFld s (ebkPage b) 0x108 19 16 n
def imgOf (s : State) (b : Nat) : BlockImg := mapGet (fun _ => ({} : BlockImg)) s.blkImg b
def setImg (s : State) (b : Nat) (i : BlockImg) : State := { s with blkImg := mapSet (fun _ => ({} : BlockImg)) s.blkImg b i }
def mapAt (s : State) (b : Nat) : Nat := fld s svcPage (0x120 + b / 8 * 4) (4 * (b % 8) + 3) (4 * (b % 8))
def setMapAt (s : State) (b id : Nat) : State := setFld s svcPage (0x120 + b / 8 * 4) (4 * (b % 8) + 3) (4 * (b % 8)) id
def blkOn (s : State) (b : Nat) : Bool := domOn s (106 + b)
/-- Engines of a block that run. -/
def engines (s : State) (b : Nat) : Nat := popCount 16 (fld s (ebkPage b) 0x104 15 0)
/-- A fault of injection kind 7 on an engine. -/
def isStall (b e : Nat) (f : Nat × Nat × Nat × Nat × Nat × Bool) : Bool := f.1 == 7 && f.2.1 == ebkPage b && f.2.2.1 == e
/-- An engine has been made to stop reporting progress (R495): it handles no message until it is restarted. [DEDUCED, log 103] -/
def stalled (s : State) (b e : Nat) : Bool := s.inj.faults.any (isStall b e)
/-- The block has an engine that handles messages. [DEDUCED, log 103] -/
def handles (s : State) (b : Nat) : Bool := (List.range 16).any (fun e => bitAt s (ebkPage b) 0x104 e && !stalled s b e)
/-- An engine starts afresh: only a sticky stall stays. [DEDUCED, log 103] -/
def freshEngine (b : Nat) (s : State) (e : Nat) : State :=
  { s with inj := { s.inj with faults := s.inj.faults.filter (fun f => !isStall b e f || f.2.2.2.2.2) } }
/-- Blocks that run a service (a frozen one still owns its buckets). -/
def svcBlocks (s : State) (id : Nat) : List Nat :=
  (List.range 64).filter (fun b => mapAt s b == id && (blkState s b == 3 || blkState s b == 4))
/-- Default engine counts of R402. -/
def defaultEngines (id : Nat) : Nat :=
  match id with
  | 1 => 96 | 2 => 64 | 3 => 64 | 4 => 192 | 5 => 128 | 6 => 192 | 7 => 32 | 8 => 32 | 9 => 32 | 10 => 16 | 11 => 32 | 12 => 16 | _ => 0
/-- SVC_HEALTH, and source 4 for a service newly below its default count (R405). -/
def health (s : State) : State :=
  let low := (List.range 12).map (fun i => if ((svcBlocks s (i + 1)).map (engines s)).sum < defaultEngines (i + 1) then 2 ^ i else 0)
  let v := low.sum
  let old := (rd s svcPage 0x140).toNat
  let s := wr s svcPage 0x140 (BitVec.ofNat 32 v)
  if v &&& (v ^^^ old) = 0 then s else raise s svcPage 4
/-- The buckets of a service dealt over its blocks in block order (R404). -/
def deal (s : State) (id : Nat) : State :=
  let l := svcBlocks s id
  let t := if l.isEmpty then [] else (List.range 64).map (fun j => l.getD (j % l.length) 0)
  { s with buckets := mapSet (fun _ => []) s.buckets id t }
/-- A message is in the hands of an engine. -/
def HandMsg.at (h : HandMsg) (b e : Nat) : Bool := h.block == b && h.engine == e
/-- EBK_ENGe_STAT: OFF, IDLE or BUSY; HELD stays (R420). -/
def showEngine (s : State) (b e : Nat) : State :=
  let p := ebkPage b
  if fld s p (0x140 + 4 * e) 1 0 = 3 then s
  else setFld s p (0x140 + 4 * e) 1 0 (if !bitAt s p 0x104 e then 0 else if s.inHand.any (fun h => h.at b e) then 2 else 1)
/-- The engines of a block that may run do. -/
def runEngines (s : State) (b : Nat) : State :=
  let p := ebkPage b
  let run := if blkState s b = 3 then fld s p 0x100 15 0 &&& (65535 - fld s p 0x104 31 16) else 0
  forEach (setFld s p 0x104 15 0 run) (List.range 16) (fun s e => showEngine s b e)
/-- Messages taken and not finished go back to EMB, which redelivers each once: counted, with source 0 (R418). -/
def takeBack (s : State) (f : HandMsg → Bool) : State :=
  let l := s.inHand.filter f
  forEach { s with inHand := s.inHand.filter (fun h => !f h)
                   redeliv := s.redeliv ++ l.map (fun h => ({ h.msg with redelivered := true, busy := 0 }, h.index)) } l
    (fun s _ => raise (inc s embPage 0x104) embPage 0)
/-- The buckets of one block pass to another (R412, R417). -/
def passBuckets (s : State) (id a d : Nat) : State :=
  { s with buckets := mapSet (fun _ => []) s.buckets id ((mapGet (fun _ => []) s.buckets id).map (fun b => if b = a then d else b)) }
/-- A block takes up service `id`. -/
def runBlock (s : State) (b id : Nat) : State :=
  let i := imgOf s b
  let s := wr s (ebkPage b) 0x108 (BitVec.ofNat 32 (id + i.version % 256 * 256 + 3 * 2 ^ 16))
  runEngines (setMapAt (forEach s (List.range 16) (freshEngine b)) b id) b
/-- Its image stands loaded, unassigned. -/
def unassign (s : State) (b : Nat) : State := runEngines (setBlkState (setMapAt s b 0) b 2) b

/-! ### Operations of SVC (R410 to R414) -/

def opRefuse (s : State) (cause src : Nat) : State :=
  raise (setFld (setBit s svcPage 0x114 2 true) svcPage 0x114 7 4 cause) svcPage src 0 cause
/-- A refusal whose cause the spec does not name: a free value. [DESIGN CHOICE, log 88] -/
def opRefuseFree (s : State) : State :=
  let r := fresh s
  setFld (setBit r.2 svcPage 0x114 2 true) svcPage 0x114 7 4 (r.1 % 16)
def opDone (s : State) (src : Nat) : State := raise (setBit (setBit s svcPage 0x114 0 false) svcPage 0x114 1 true) svcPage src
/-- An entry of the image store (R542). -/
def storeEntry (s : State) (slot : Nat) : Entry := tget s secPage 1 0 slot
def storeImg (s : State) (slot : Nat) : BlockImg :=
  let e := storeEntry s slot
  { service := efld e 7 0, version := efld e 23 8, stateVer := efld e 31 24, stateMin := efld e 39 32, slot := slot }
def storeOk (s : State) (slot : Nat) : Bool := ebit (storeEntry s slot) 40
/-- The stored image of a service, the lowest slot first. -/
def storeFor (s : State) (id : Nat) : Option Nat := (List.range 32).find? (fun k => storeOk s k && (storeImg s k).service == id)
/-- SVC copies an image into a block's shared memory; it is measured (R533). -/
def loadImage (s : State) (b slot : Nat) : State :=
  let i := storeImg s slot
  let s := setImg s b i
  let s := wr s (ebkPage b) 0x108 (BitVec.ofNat 32 (i.service + i.version % 256 * 256 + 2 * 2 ^ 16))
  extend s 7 2 i.service i.version (mapGet (fun _ => 0) s.storeDigest slot)
/-- R403: block 0 takes FOOTWAY only, and no other block takes it. -/
def pairForbidden (b id : Nat) : Bool := (b == 0) != (id == 0x0A)
/-- SVC_LOAD.go: the cause of a refusal, 0 for none. -/
def loadCause (s : State) (b slot : Nat) : Nat :=
  if s.svcOp.isSome then 1
  else if blkState s b = 3 ∨ blkState s b = 4 then 2
  else if storeOk s slot ∧ pairForbidden b (storeImg s slot).service then 3
  else if !storeOk s slot then 4
  else if !blkOn s b then 6 else 0
def loadGo (s : State) : State :=
  let b := fld s svcPage 0x104 5 0
  let slot := fld s svcPage 0x104 12 8
  let c := loadCause s b slot
  if c ≠ 0 then opRefuse s c 1
  else setBit (setBlkState { s with svcOp := some (.load b slot) } b 1) svcPage 0x114 0 true
/-- SERVICE_LOAD_DONE. -/
def loadEnd (s : State) (digestOk : Bool) : State :=
  match s.svcOp with
  | some (.load b slot) =>
    let s := { s with svcOp := none }
    if !digestOk then opRefuse (setBit (wr s (ebkPage b) 0x108 0) svcPage 0x114 0 false) 5 1
    else opDone (loadImage s b slot) 0
  | _ => s
/-- SVC_START.go: at start-up, where the service has no running block. [DESIGN CHOICE, log 88] -/
def startGo (s : State) : State :=
  let b := fld s svcPage 0x110 5 0
  let id := (imgOf s b).service
  if blkState s b ≠ 2 ∨ !(svcBlocks s id).isEmpty ∨ !blkOn s b then opRefuseFree s
  else health (deal (setBit (runBlock s b id) svcPage 0x114 1 true) id)
/-- SVC_RELEASE.go (R411). [DESIGN CHOICE, log 88] -/
def releaseGo (s : State) : State :=
  let b := fld s svcPage 0x10C 5 0
  let id := mapAt s b
  if s.svcOp.isSome then opRefuse s 1 3
  else if b = 0 ∨ (svcBlocks s id = [b]) then opRefuse s 7 3
  else if blkState s b ≠ 3 then opRefuseFree s
  else opDone (takeBack (health (deal (unassign s b) id)) (fun h => h.block == b)) 2
/-- SVC_MIGRATE.go (R412, R414). -/
def migrateCause (s : State) (a d : Nat) : Nat :=
  if s.svcOp.isSome then 1
  else if blkState s d = 3 ∨ blkState s d = 4 then 2
  else if pairForbidden d (mapAt s a) then 3
  else if !blkOn s d then 6
  else if blkState s d ≠ 2 ∨ blkState s a ≠ 3 ∨ (imgOf s d).service ≠ mapAt s a ∨ (imgOf s a).stateVer < (imgOf s d).stateMin then 8 else 0
def migrateGo (s : State) : State :=
  let a := fld s svcPage 0x108 5 0
  let d := fld s svcPage 0x108 13 8
  let c := migrateCause s a d
  if c ≠ 0 then opRefuse s c 3
  else setBit (setBlkState { s with svcOp := some (.migrate a d) } a 4) svcPage 0x114 0 true
/-- MIGRATION_DONE, but for the held messages: the map names d, the buckets pass (R412, R413). -/
def migrateEnd (s : State) (us : Nat) : State :=
  match s.svcOp with
  | some (.migrate a d) =>
    let id := mapAt s a
    let heldA := blkState s a == 5
    let s := runBlock (setMapAt { s with svcOp := none } a 0) d id
    let s := if heldA then s else unassign s a
    opDone (takeBack (health (setFld (passBuckets s id a d) svcPage 0x114 31 16 (min us 100))) (fun h => h.block == a)) 2
  | _ => s
/-- A load or migration is abandoned (R414): the source resumes. -/
def abandon (s : State) (cause : Nat) : State :=
  match s.svcOp with
  | some (.migrate a _) =>
    let s := setBit { s with svcOp := none } svcPage 0x114 0 false
    opRefuse (if blkState s a = 4 then setBlkState s a 3 else s) cause 3
  | some (.load b _) => setBit (wr { s with svcOp := none } (ebkPage b) 0x108 0) svcPage 0x114 0 false
  | none => s

/-- The operation in progress has block `b` as its target and is abandoned (R414). -/
def abandonFor (s : State) (b : Nat) : State :=
  match s.svcOp with
  | some (.migrate _ d) => if d = b then abandon s 9 else s
  | some (.load d _) => if d = b then abandon s 9 else s
  | none => s

/-! ### Faults (R416, R417) -/

/-- A service rebuilds what a block has lost (R417): `lost` are the block's buckets, `alone` says that no other block runs the service.
Configuration lasts in the service's other blocks. Queued inspections are answered by the caller. [DESIGN CHOICE, log 151] -/
def recoverService (s : State) (id : Nat) (lost : List Nat) (alone : Bool) : State :=
  match id with
  | 1 => forEach s [0, 1, 2, 3, 4] startResync
  | 2 => forEach s (List.range 8) (fun s l => if spanLinkState s l = 2 then setLinkState s l 1 else s)
  | 3 => forEach s (List.range 16) servoHold
  | 4 => forEach s ((custodyQueues s).filter (fun q => lost.contains (q % 64))) rewalk
  | 5 | 6 | 7 | 8 | 9 | 12 =>
    if alone then { s with svcObjs := s.svcObjs.filter (fun o => o.1 != id), svcCfg := mapSet (fun _ => []) s.svcCfg id [] } else s
  | _ => s
/-- INSPECT loses its queue: each request is answered with REFUSED. -/
def inspectLost (s : State) : State :=
  let l := s.insp.filter (fun i => i.phase == 0)
  forEach { s with insp := s.insp.filter (fun i => i.phase != 0) } l (fun s i => notify s 0x0B 0x80 [i.id, 5])
/-- A whole block is held: a spare takes over, or the service's other blocks do (R417). A block that is loading or
loaded is held as well, and what was to come to it is abandoned (R414). -/
def holdBlock (s : State) (b : Nat) : State :=
  let id := mapAt s b
  if blkState s b = 0 ∨ blkState s b = 5 then s
  else if blkState s b = 1 ∨ blkState s b = 2 then
    raise (setBlkState (abandonFor s b) b 5) (ebkPage b) 1 0 0 0xFFFF
  else
    let s := setFld (setBlkState s b 5) (ebkPage b) 0x104 15 0 0
    let s := takeBack (raise s (ebkPage b) 1 0 0 0xFFFF) (fun h => h.block == b)
    let mid := match s.svcOp with | some (.migrate a _) => a == b | _ => false
    if mid then health s
    else
      let lost := (List.range 64).filter (fun j => (mapGet (fun _ => []) s.buckets id)[j]? == some b)
      let s := setMapAt s b 0
      let alone := (svcBlocks s id).isEmpty
      let spare := (List.range 64).find? (fun d => mapAt s d == 0 && d != b && blkOn s d && (blkState s d == 0 || blkState s d == 2) && !held s (ebkPage d))
      let s := match (if bitAt s svcPage 0x100 0 && id != 0x0A then storeFor s id else none), spare with
        | some slot, some d => raise (passBuckets (runBlock (loadImage s d slot) d id) id b d) svcPage 5 0 d
        | _, _ => deal s id
      let s := recoverService (health s) id lost alone
      if id = 0x0B then inspectLost s else s
/-- BLOCK_HELD: an uncorrectable error in shared memory. -/
def sharedError (s : State) (b : Nat) : State := holdBlock (addSat s (ebkPage b) 0x114 31 16 1) b
/-- An engine is held as a cell (R416): cause 1 watchdog, 2 local ECC, 3 instruction fault. -/
def holdEngine (s : State) (b e cause : Nat) : State :=
  let p := ebkPage b
  if !bitAt s p 0x104 e then s
  else
    let s := setBit (setBit s p 0x104 e false) p 0x104 (16 + e) true
    let s := wr s p (0x140 + 4 * e) (BitVec.ofNat 32 (3 + cause * 16))
    let s := if cause = 2 then addSat s p 0x114 31 16 1 else s
    let s := takeBack (health (raise s p 0 0 e e)) (fun h => h.at b e)
    if fld s p 0x104 15 0 = 0 then holdBlock s b else s
/-- EBK_RESTART (R416). -/
def restartEngines (s : State) (b mask : Nat) : State :=
  let p := ebkPage b
  let back := mask &&& fld s p 0x104 31 16
  let s := setFld s p 0x104 31 16 (fld s p 0x104 31 16 - back)
  let s := forEach s (onesOf 16 back) (fun s e => freshEngine b (wr s p (0x140 + 4 * e) 0) e)
  health (runEngines s b)
/-- Every assigned block whose image is in the store starts its service (R419, R530 step 8). -/
def startServices (s : State) : State :=
  let s := forEach s (List.range 64) (fun s b =>
    let id := mapAt s b
    match storeFor s id with
    | some slot => if id ≠ 0 ∧ blkOn s b ∧ blkState s b ≠ 3 then runBlock (loadImage s b slot) b id else s
    | none => s)
  health (forEach s (List.range 13) deal)
/-- Region reset of ENG, or warm reset: every engine stops, the map is R402's again (R419). -/
def stopEngines (s : State) : State :=
  { abandon s 9 with buckets := [], embHold := [], inHand := [], redeliv := [] }

/-- The receive wake time that the EEE TLV of an LLDP data unit asks of its receiver (R87): OUI 00-12-0F, subtype 5. `fuel` bounds the
TLVs. [PRESUMED, log 141] -/
def eeeTw : Nat → List Byte → Option Nat
  | 0, _ => none
  | fuel + 1, bs =>
    let h := beAt bs 0 2
    if bs.length < 2 ∨ h / 512 = 0 then none
    else if h / 512 = 127 ∧ 8 ≤ h % 512 ∧ beAt bs 2 4 = 0x00120F05 then some (beAt bs 8 2)
    else eeeTw fuel (bs.drop (2 + h % 512))
/-- The L2CP service sets tw_sys_tx from a received LLDP frame (R87, R106). [PRESUMED, log 141] -/
def lldpIn (s : State) (f : Frame) : State :=
  match (if f.hostCode = 8 ∧ beAt f.bytes 12 2 = 0x88CC then eeeTw f.bytes.length (f.bytes.drop 14) else none) with
  | none => s
  | some tw =>
    if f.ingress < 64 then setFld s (macPage f.ingress) 0x10C 15 4 (min tw 4095)
    else if f.ingress < 96 then setFld s (fpPage f.ingress) 0x108 15 4 (min tw 4095)
    else s
/-- One selection of the engine port: the frame chosen goes to the service that its trap_code names (R242, R401). -/
def engineSelect (s : State) : State :=
  let r := chooseNow s 113
  match r.1 with
  | none => r.2.2
  | some (c, tier, f) =>
    let t := takeHead (chargeNow r.2.2 113 c tier f) (qIdx 113 c) f
    if f.frame.hostCode = 0 ∨ (svcBlocks s f.frame.hostCode).isEmpty then inc t embPage 0x108 else lldpIn t f.frame

end Sys2Proof.Machine
end

