-- ==== Sys2Proof/Machine/ResetOps.lean ====
section
/-! DEFINITION. Work in flight and its discard (R45, R574), failover (R501, R502), the reset scopes (R32 to R36, R129, R153,
R197, R235, R309, R390, R419, R450, R577), power domains (R28 to R31, R573), the die-to-die link (R13, R14), custody hold
(R287, R292, R556) and the loss of supplies (R288, R291). -/

namespace Sys2Proof.Machine

abbrev d2dPage : Nat := 4 * 4096 + 0x70
/-- Ports that have egress queues (R20). -/
def queuePorts : List Nat := (List.range 106) ++ [112, 113, 114, 115, 116, 117, 118]
/-- Count under a reason; 0 counts nothing. -/
def tally (s : State) (r code : Nat) : State := if code = 0 then s else countReason s r code

/-! ### Work in flight -/

/-- The frame in transmission on a port goes, counted in `region`: the port's own where its MAC goes (R574). -/
def killTx (s : State) (reason region port : Nat) : State :=
  match (eportOf s port).tx with
  | none => s
  | some t =>
    let s := gatFree (setColl (setEport s port { eportOf s port with tx := none }) port {}) port
    if t.qf.again.isSome then s
    else if t.held ∨ t.hdr.any (·.rel) then releaseRecord (if t.qf.shared then s else dropBuf s t.queue t.qf) t.queue t.qf.pages
    else releaseRecord (dropBuf (tally (qDrop s t.queue t.qf.frame) region reason) t.queue t.qf) t.queue t.qf.pages
/-- A cut-through frame in transmission whose rest will not come: it runs dry (R83). -/
def starve (id : Nat) (e : EPort) : EPort :=
  { e with tx := e.tx.map (fun t =>
      if t.qf.frame.id = id then { t with qf := { t.qf with frame := { t.qf.frame with complete := false } } } else t) }
/-- The frame that a port is receiving goes, and with it the mirror copies that wait for its end. -/
def killRx (s : State) (reason port : Nat) : State :=
  match mapGet (fun _ => none) s.rxOpen port with
  | none => s
  | some pf =>
    let s := endCopies (tally { s with rxOpen := mapSet (fun _ => none) s.rxOpen port none } (portRegion port) reason) pf.frame.id (ended true)
    let s := endMirror s pf.frame.id (ended true)
    { s with eports := mapUpdate eportDflt (fun _ => starve pf.frame.id) s.eports }
/-- Every frame in a pipeline goes, and the counters of its banks with it (R154). -/
def emptyPipe (s : State) (reason k : Nat) : State :=
  let p := pipeOf s k
  let l := p.arrivals ++ p.recirc
  let s := setPipe s k { p with arrivals := [], recirc := [], rul := p.recirc.foldl (fun b pf => b.sub pf.bank) p.rul
                                mtr := p.recirc.foldl (fun b pf => b.sub pf.mtrBank) p.mtr }
  let s := setFld s (prsPage k) 0x10C 9 0 0
  forEach s l (fun s pf => releaseIngress (rxDrop (tally s (pipeRegion k) reason) (dropPort pf.frame)) pf.buf)
/-- Every frame in the queues of a port goes (R574). -/
def emptyQueues (s : State) (reason port : Nat) : State :=
  forEach s (List.range 8) (fun s c =>
    forEach s (queueOf s (qIdx port c)).frames (fun s f => discard s (qIdx port c) f 5 reason))
/-- The copies on their way to admission go. -/
def emptyAdmit (s : State) (reason : Nat) : State :=
  forEach { s with admitting := [] } s.admitting (fun s c => refuse (tally s 5 reason) c)
/-- Frames in the buffers of the die-to-die link go (R14). -/
def emptyD2d (s : State) (reason : Nat) : State :=
  forEach { s with d2d := { s.d2d with toCor := [] } } s.d2d.toCor (fun s pf =>
    let s := tally s 4 reason
    let port := dropPort pf.frame
    if !rxErrorCode reason then rxDrop s port else if port ≤ 105 then portCount s port 4 1 else s)
/-- The frames of a recirculation FIFO go; those that wait for pass 0 stay with IPL. -/
def emptyRecirc (s : State) (reason k : Nat) : State :=
  let a := (pipeOf s k).arrivals
  let s := emptyPipe (setPipe s k { pipeOf s k with arrivals := [] }) reason k
  setPipe s k { pipeOf s k with arrivals := a }
/-- The frames that meet a condition leave every queue. -/
def emptyWhere (s : State) (reason : Nat) (which : Queue → QFrame → Bool) : State :=
  forEach s s.queues (fun s e => forEach s ((queueOf s e.1).frames.filter (which (queueOf s e.1))) (fun s f => discard s e.1 f 5 reason))
/-- The frames with a granule in bank group `g` go. -/
def emptyGroup (s : State) (reason g : Nat) : State :=
  emptyWhere s reason (fun _ f => f.buf.any (fun b => (bufOf s .granules b).chain.any (fun a => a / 32768 == g)))
/-- Every frame in granules goes: those being received and sent, in pipelines, on their way to admission, in SRAM. -/
def emptyGranules (s : State) (reason : Nat) : State :=
  let s := forEach s (List.range 106) (fun s p => killRx s reason p)
  let s := emptyWhere (forEach s queuePorts (fun s p => killTx s reason 5 p)) reason (fun _ f => f.buf.isSome)
  emptyAdmit (forEach s [0, 1, 2, 3, 4] (fun s k => emptyPipe s reason k)) reason
/-- The mirror copies that wait for the end of their frame go. -/
def emptyMirror (s : State) (reason : Nat) : State :=
  forEach { s with mirHeld := [] } s.mirHeld (fun s _ => tally s 5 reason)
/-- The frames for the host that wait for a posted buffer go. -/
def emptyWaiting (s : State) (reason : Nat) : State :=
  forEach { s with rxWait := [] } ((List.range 8).filter (fun c => (rxSince s c).isSome)) (fun s c => match (queueOf s (qIdx 112 c)).frames.head? with
    | some f => discard s (qIdx 112 c) f 8 reason
    | none => s)
/-- Every frame that a scope holds is discarded (R45, R574). [DEDUCED, log 44; DEDUCED, log 130] -/
def discardWork (s : State) (reason : Nat) (hit : Nat → Bool) : State :=
  let s := forEach s ((List.range 106).filter (fun p => hit (portPage p))) (fun s p => killTx (killRx s reason p) reason (portRegion p) p)
  let s := forEach s ((List.range 5).filter (fun k => hit (issuePage k))) (fun s k =>
    let n := (pipeOf s k).arrivals.length + (pipeOf s k).recirc.length
    emptyPipe (if k < 4 then addSat s (iplPage k) 0x110 31 0 n else s) reason k)
  let s := forEach s ((List.range 5).filter (fun k => hit (prsPage k))) (fun s k => emptyRecirc s reason k)
  let s := forEach s (queuePorts.filter (fun p => hit (schPage p))) (fun s p => killTx s reason 5 p)
  let s := forEach s (queuePorts.filter (fun p => hit (tmsPage p))) (fun s p => emptyQueues (killTx s reason 5 p) reason p)
  let s := if hit repPage then emptyAdmit s reason else s
  let s := if hit rsqPage then emptyWhere s reason (fun x f => x.reported.contains f.seq) else s
  let s := if hit mirPage then emptyMirror s reason else s
  let s := if hit rngPage then emptyWaiting s reason else s
  let s := if hit bpmPage then emptyGranules s reason
    else forEach s ((List.range 16).filter (fun g => hit (5 * 4096 + 1 + g))) (fun s g => emptyGroup s reason g)
  if hit d2dPage then emptyD2d s reason else s

/-- PG_STAT.idle: no work in flight on a page's unit (R45). -/
def idlePage (s : State) (p : Nat) : Bool :=
  let noTx (n : Nat) : Bool := (eportOf s n).tx.isNone
  let quiet (k : Nat) : Bool := (pipeOf s k).arrivals.isEmpty && (pipeOf s k).recirc.isEmpty
  let queues (n : Nat) : Bool := (List.range 8).all (fun c => (queueOf s (qIdx n c)).frames.isEmpty)
  let window : Bool := (mapGet (fun _ => none) s.tblCmd p).isNone
  window && match pageInfo p with
  | none => true
  | some i => match i.kind with
    | .mac => let n := i.region * 16 + i.index; noTx n && (mapGet (fun _ => none) s.rxOpen n).isNone
    | .t1l | .t1s | .mgt => noTx i.sub && (mapGet (fun _ => none) s.rxOpen i.sub).isNone
    | .prs | .ipl | .epl | .rul | .fdb | .lpm | .mtr | .cnt => quiet i.region
    | .fplRul | .fplFdb | .fplLpm | .fplMtr | .fplCnt => quiet 4
    | .tms => queues i.sub && noTx i.sub
    | .sch | .gat => noTx i.sub
    | .rep => s.admitting.isEmpty && s.jobs.isEmpty
    | .buf => (usedGranules s.gran i.inst).isEmpty
    | .bpm | .bpmIn => s.gran.bufs.all (fun e => e.2.st == .free || e.2.st == .fenced)
    | .rsq => s.queues.all (fun e => e.2.frames.isEmpty)
    | .cst | .jrn => s.cust.draining.isNone && s.cust.readmitting.isNone && s.cqueues.all (fun e => e.2.st != 4)
    | .cap => (List.range 16).all (fun n => capState s n != 2 && capState s n != 3)
    | .ppm => s.scratchNew.isNone
    | .ebk => !(blkState s i.sub == 1 || blkState s i.sub == 3 || blkState s i.sub == 4)
    | .svc => s.svcOp.isNone
    | .emb => s.embHold.isEmpty && s.redeliv.isEmpty
    | .rng => s.sqs.all (fun e => e.2.inflight == 0 && e.2.fetched.isEmpty) && s.cqs.all (fun e => e.2.held.isEmpty)
    | .sq => (sqOf s i.sub).inflight == 0 && (sqOf s i.sub).fetched.isEmpty
    | .cq => (cqRing s i.sub).held.isEmpty
    | .dma => s.chans.all (fun e => e.2.entries.isEmpty)
    | .spnLink => !joined s i.sub
    | .spnPair => (List.range 8).all (fun l => !joined s l)
    | .d2d => s.d2d.toCor.isEmpty
    | .sns | .snsPair => s.sense.all (fun e => !e.2.testing)
    | .insp => s.insp.isEmpty
    | .sec => s.boot.cmd.isNone
    | _ => true
/-- PG_STAT.drained. -/
def drainedPage (s : State) (p : Nat) : Bool := draining s p && idlePage s p

/-! ### Failover (R501, R502) -/

def foMode (s : State) (r : Nat) : Nat := fld s inspPage 0x110 (2 * r + 1) (2 * r)
def failedOver (s : State) (r : Nat) : Bool := bitAt s inspPage 0x114 r
/-- Region r's ports feed its partner, or go back to their own pipeline. -/
def setFailed (s : State) (r : Nat) (on : Bool) : State :=
  let s := setBit (setBit (setBit s inspPage 0x114 r on) (iplPage r) 0x100 3 on) (iplPage (r ^^^ 1)) 0x100 2 on
  raise (raise (raise s (iplPage r) 1) (iplPage (r ^^^ 1)) 1) inspPage 2 0 r
/-- Span links of a region that has failed over go to LOST until failback. -/
def spanFailed (s : State) (r : Nat) : State :=
  forEach s [2 * r, 2 * r + 1] (fun s l => if joined s l then
    (match (linkOf s l).port with | some p => linkNotGood (spanLost s l) p | none => spanLost s l) else s)
/-- Planned failover: frames already in the pipeline complete there. A region whose partner has failed over cannot. -/
def failover (s : State) (r : Nat) : State :=
  if failedOver s r ∨ failedOver s (r ^^^ 1) then s else spanFailed (setFailed s r true) r
/-- Automatic failover: frames in flight are discarded with 0xE2. -/
def autoFailover (s : State) (r : Nat) : State :=
  if failedOver s r ∨ failedOver s (r ^^^ 1) ∨ foMode s r ≠ 1 then s
  else
    let p := pipeOf s r
    let n := p.arrivals.length + p.recirc.length
    failover (emptyPipe (addSat s (iplPage r) 0x110 31 0 n) 0xE2 r) r
/-- [DEDUCED, log 99] -/
def failback (s : State) (r : Nat) : State := if failedOver s r then setFailed s r false else s
/-- The pipeline pages of a line region. -/
def pipePages (r : Nat) : List Nat := (List.range 8).map (fun i => r * 4096 + 0x40 + i)
/-- R501: regions with a pipeline block held, or that are held or in a region reset, fail over in mode auto, while INSP is itself not in
reset. [DEDUCED, log 99] -/
def autoFailovers (s : State) : State :=
  if inReset s inspPage then s else forEach s ((List.range 4).filter (fun r => (pipePages r).any (held s) || s.resets.contains (.region (BitVec.ofNat 4 r)))) autoFailover

/-! ### What a reset keeps (R32, R42, R47) -/

/-- The bits of a register that a block, region or warm reset keeps. ERR_CAPT outlasts a block or region reset alone (R47); the
steering of failed-over ports stands until failback (R502). [DEDUCED, log 42] -/
def keepMask (warm : Bool) (p o : Nat) : Nat :=
  if 0x38 ≤ o ∧ o ≤ 0x44 then (if warm then 0 else all32)
  else
    let rws := match regRow p o with | none => 0 | some r => r.rws
    match pageInfo p with
    | none => 0
    | some i => match i.kind with
      | .ipl => if o = 0x100 then 0xC else rws
      | .tb => if 0x100 ≤ o then all32 else 0
      | .insp => if 0x100 ≤ o ∧ o ≠ 0x120 then all32 else 0
      | .fw => if o = 0x100 ∨ o = 0x108 then all32 else rws
      | .therm => if o = 0x10C then 4 else rws
      | .boot => if o = 0x104 then all32 else rws
      | .fuse => if 0x100 ≤ o then all32 else 0
      | _ => rws
/-- Tables kept through a block, region or warm reset: the reason tables, the lift tables and the footway tables. -/
def keepTable (key : Nat) : Bool :=
  match pageInfo (keyPage key) with
  | none => false
  | some i => match i.kind with
    | .header | .bsc | .fw => true
    | _ => false
/-- Registers, tables and window state of the pages hit. A cell reset clears INT_CAUSE and the window lock alone (R65, R574). -/
def wipeRegs (s : State) (cell : Bool) (hit : Nat → Bool) (warm : Bool := false) : State :=
  let f (k : Nat) (v : Word) : Word :=
    let m := BitVec.ofNat 32 (keepMask warm (k / 4096) (k % 4096))
    if !hit (k / 4096) then v
    else if cell then (if k % 4096 = 0x020 ∨ k % 4096 = 0xF0C then 0 else v)
    else (v &&& m) ||| (regReset k &&& ~~~ m)
  let s := { s with regs := mapUpdate regReset f s.regs }
  if cell then s
  else
    let go (k : Nat) : Bool := hit (keyPage k) && !keepTable k
    { s with tabs := s.tabs.filter (fun e => !go e.1), snaps := s.snaps.filter (fun e => !go e.1)
             tblCmd := s.tblCmd.filter (fun e => !hit e.1), parBad := s.parBad.filter (fun k => !hit (k / 4096))
             tabBad := s.tabBad.filter (fun k => !hit (keyPage k)) }
/-- A hold's scope lies inside a reset's. -/
def holdCovered (r : ResetScope) (k : Nat) : Bool :=
  if k < 2 ^ 30 then covers r k
  else
    let b := k - 2 ^ 30
    let rg := b / 2 ^ 20
    let bt := b / 256 % 4096
    match r with
    | .cell _ => false
    | .block g t i => rg == g.toNat && bt == t.toNat && b % 256 == i.toNat
    | .region g => rg == g.toNat && !(rg == 4 && bt == 3) && !(rg == 8 && decide (4 ≤ bt) && decide (bt ≤ 8))
    | .warm => !(rg == 9 && (bt == 1 || bt == 2 || bt == 4)) && !(rg == 4 && bt == 3) && !(rg == 8 && bt == 8)
    | .cold => true
def dropHolds (s : State) (r : ResetScope) : State := { s with holds := s.holds.filter (fun k => !holdCovered r k.1) }
/-- Shadows of the region of a region reset, or all of them (R51). They are keyed requester * 16 + region. -/
def dropShadows (s : State) (r : ResetScope) : State :=
  let gone (k : Nat) : Bool := match r with | .region g => k % 16 == g.toNat | .warm | .cold => true | _ => false
  { s with rdShadow := s.rdShadow.filter (fun e => !gone e.1), wrShadow := s.wrShadow.filter (fun e => !gone e.1) }

/-! ### Hidden state of the units (R153, R197, R235, R390, R450, R577) -/

/-- A pipeline's banks, walker, events and failed entries. -/
def resetPipe (s : State) (hit : Nat → Bool) (k : Nat) : State :=
  let p := pipeOf s k
  let p := if hit (rulPage k) then { p with rul := {} } else p
  let p := if hit (mtrPage k) then { p with mtr := {} } else p
  let p := if hit (fdbPage k) then
      { p with bucket := 0, ageing := false, passStart := now s, flushes := [], resyncing := false, events := [], seed := fld s (fdbPage k) 0x100 31 16 } else p
  let p := if k < 4 ∧ hit (iplPage k) then { p with waitFrom := now s, idleFrom := now s, slotsUsed := 0 } else p
  let s := setPipe s k { p with failed := p.failed.filter (fun e => !hit (keyPage e)) }
  let s := if hit (mtrPage k) then { s with mtrLast := s.mtrLast.filter (fun e => e.1 / 65536 != mtrPage k) } else s
  if hit (lpmPage k) then { s with lpmStuck := s.lpmStuck.filter (fun e => e.1 / 8388608 != k) } else s
/-- A port whose page is reset with its configuration: DISABLED (R90). -/
def resetPort (s : State) (p : Nat) : State :=
  let s := linkDisable s p
  setEport (setColl { s with fecWin := mapSet fecDflt s.fecWin p {} } p {}) p
    { eportOf s p with cfg := 0, sgmii := 0, sgmiiFull := false, paused := 0, lpi := false, deep := false }
/-- The queue state of a TMS page: numbers start at 0 again, in the resequencer too (R235). -/
def resetQueues (s : State) (port : Nat) : State :=
  let s := forEach s (List.range 8) (fun s c => { s with queues := mapErase s.queues (qIdx port c) })
  setEport s port { eportOf s port with xoff := 0, xoffPort := false }
/-- The scheduler state of a SCH page. -/
def resetSched (s : State) (port : Nat) : State :=
  let s := forEach s (List.range 8) (fun s c =>
    setQueue s (qIdx port c) { queueOf s (qIdx port c) with deficit := 0, turn := false, credit := 0, creditBc := now s })
  setEport s port { eportOf s port with rr := 7, tokens := 0, tokensBc := now s, promoAfter := 0 }
/-- The resequencer starts at the frames that are left. -/
def resetRsq (s : State) : State :=
  { s with queues := mapUpdate queueDflt (fun _ x => { x with reported := [], skipped := [], nextSeq := ((x.frames.head?).map (·.seq)).getD x.seqCtr }) s.queues }
/-- The buffer pool starts empty, once what it held has been discarded. -/
def resetBpm (s : State) : State := { s with gran := {}, jobs := [] }
/-- R577: frames in DRAM that custody does not own go; captures are OFF; the scratch area is released; copy entries that use
them end with 0xDA; the page pool is not ready. -/
def resetPpm (s : State) (reason : Nat) : State :=
  let s := forEach s s.queues (fun s e => if marked s e.1 then s else
    spillDone (forEach s ((queueOf s e.1).frames.filter (fun f => f.place == .dram || f.place == .staged)) (fun s f => discard s e.1 f 5 reason)) e.1)
  let s := forEach s (List.range 16) (fun s c =>
    let bad (e : ChanEntry) : Bool := e.srcSpace == 1 || e.srcSpace == 3 || e.dstSpace == 3
    let l := (chanOf s c).entries
    let s := setChan s c { chanOf s c with entries := l.filter (fun e => !bad e) }
    forEach s (l.filter bad) (fun s e =>
      let keep := (chanOf s c).entries
      let s := copyDone (setChan s c { chanOf s c with entries := [e] }) c 0xDA
      setChan s c { chanOf s c with entries := keep }))
  let s := forEach s (List.range 16) (fun s n => setBit (capDisable s n) capPage (capOff n) 0 false)
  let s := forEach s s.scratch (fun s p => opRelease s .pages p 6)
  let s := { s with scratch := [], scratchNew := none, scratchMem := [] }
  setBit (wr64 s dmaPage 0x110 0) ppmPage 0x100 0 false
/-- The rings and everything the host path holds (R450). [DEDUCED, log 43] -/
def resetRings (s : State) : State := { s with sqs := [], cqs := [], txWait := [], rxWait := [], lostTx := [], turns := [] }
/-- The copy channels and the scratch area. [DEDUCED, log 43] -/
def resetDma (s : State) : State :=
  let s := forEach s s.scratch (fun s p => opRelease s .pages p 6)
  { s with chans := [], scratch := [], scratchNew := none, scratchMem := [] }
/-- Inspection and injection: requests are lost, injection locks (R494). -/
def resetInsp (s : State) : State := { s with insp := [], inj := {}, therm := { s.therm with forced := none } }
/-- The custody queues keep their records; each configuration is the table's again, in force once the queue is empty. [DEDUCED, log 43] -/
def resetCst (s : State) : State :=
  let f (q : Nat) (c : CQueue) : CQueue :=
    if c.records.isEmpty then { en := (cqDflt q).en }
    else { c with en := true, pendingEn := if (cqDflt q).en then none else some false, bucket := 0, bucketBc := 0, lifted := false }
  { s with cqueues := mapUpdate cqDflt f s.cqueues, cust := { s.cust with draining := none, readmitting := none } }
/-- An EBK block is held and restarts (R419). -/
def resetEbk (s : State) (b : Nat) : State :=
  let id := mapAt s b
  let s := setImg (holdBlock s b) b {}
  match storeFor s id with
  | some slot => if id = 0 ∨ !blkOn s b then s else health (deal (runBlock (loadImage s b slot) b id) id)
  | none => s

/-- Everything hidden that belongs to the pages hit; frames that are lost count under `reason`. -/
def wipeHidden (s : State) (reason : Nat) (hit : Nat → Bool) : State :=
  let s := forEach s ((List.range 106).filter (fun p => hit (portPage p))) resetPort
  let s := forEach s [0, 1, 2, 3, 4] (fun s k => resetPipe s hit k)
  let s := forEach s (queuePorts.filter (fun p => hit (tmsPage p))) resetQueues
  let s := forEach s (queuePorts.filter (fun p => hit (schPage p))) resetSched
  let s := { s with gates := s.gates.filter (fun e => !hit (gatPage e.1)) }
  let s := if hit rsqPage then resetRsq s else s
  let s := if hit bpmPage then resetBpm s else s
  let s := if hit repPage then setPipe { s with jobs := [] } 5 {} else s
  let s := if hit mirPage then { s with mirCnt := [], mirSeq := [] } else s
  let s := if hit ppmPage then resetPpm s reason else s
  let s := if hit cstPage then resetCst (forEach s ((custodyQueues s).filter (marked s)) dramToRecords) else s
  let s := if hit capPage then forEach s (List.range 16) capDisable else s
  let s := if hit rngPage then resetRings s else s
  let s := if hit dmaPage then resetDma s else s
  let s := if hit inspPage then resetInsp s else s
  let s := if hit svcPage then stopEngines s else forEach s ((List.range 64).filter (fun b => hit (ebkPage b))) abandonFor
  let s := if hit embPage then { s with embHold := [], redeliv := [] } else s
  let s := if hit tioPage then { s with tioFifo := [], tioLast := [] } else s
  let s := if hit tdsPage then { s with replicas := [] } else s
  let s := forEach s ((List.range 16).filter (fun c => hit (modPage c))) (fun s c =>
    { s with modRetry := s.modRetry.erase c, modNacks := s.modNacks.filter (fun e => e.1 != c)
             xferCmd := s.xferCmd.filter (fun e => e.1 != c), cagePins := s.cagePins.filter (fun e => e.1 != c) })
  if hit d2dPage then { s with d2d := {} } else s

/-- The span blocks: LN0's reset ends the session (R309); a reset of another region's takes its links OFF. -/
def resetSpan (s : State) (hit : Nat → Bool) : State :=
  if hit spnPairPage then
    let s := pairStop s
    { s with span := {} }
  else forEach s ((List.range 8).filter (fun l => hit (spnLinkPage l))) linkOff

/-- A cell restarts; its configuration stands (R33). [DEDUCED, log 119] -/
def resetCell (s : State) (p : Nat) : State :=
  match pageInfo p with
  | none => s
  | some i => match i.kind with
    | .mac => linkReset s (i.region * 16 + i.index)
    | .t1l | .t1s | .mgt => linkReset s i.sub
    | .mod => if cageState s (i.region * 4 + i.index) = 0 then s else cageReset s (i.region * 4 + i.index)
    | .sch => resetSched s i.sub
    | .spnLink => match (if joined s i.sub then (linkOf s i.sub).port else none) with
      | some q => linkNotGood (spanLost s i.sub) q
      | none => s
    | .sq => if (sqOf s i.sub).on then sqEnable (setSq (sqDisable s i.sub) i.sub {}) i.sub else s
    | .cq => if (cqRing s i.sub).on then cqEnable (cqDisable s i.sub) i.sub else s
    | _ => s

/-! ### Starting a reset -/

/-- The page set of a scope. -/
def hitBy (r : ResetScope) (p : Nat) : Bool :=
  match r with | .block g t i => covers (.block g t i) p | _ => covers r p
/-- The narrower and wider scopes (R35). -/
def scopeInside (a b : ResetScope) : Bool :=
  match a, b with
  | .cold, .cold => true
  | _, .cold => true
  | .warm, .warm => true
  | .cell p, r => covers r p.toNat
  | .block g t _, .warm => !(g == 9 && (t == 1 || t == 2 || t == 4)) && !(g == 4 && t == 3) && !(g == 8 && t == 8)
  | .region g, .warm => g != 9
  | .block g t _, .region h => g == h && !(g == 4 && t == 3) && !(g == 8 && decide (4 ≤ t) && decide (t ≤ 8))
  | .block g t i, .block h u j => g == h && t == u && i == j
  | .region g, .region h => g == h
  | _, _ => false
/-- R35: a scope inside a wider reset in progress is absorbed; a wider one takes over from the narrower. -/
def absorbed (s : State) (r : ResetScope) : Bool := s.resets.any (fun w => scopeInside r w)
def addReset (s : State) (r : ResetScope) : State :=
  { s with resets := r :: s.resets.filter (fun w => !scopeInside w r) }
/-- The block of line sensing is reset by a cold chip reset alone (R129). -/
def senseScope (r : ResetScope) : Bool := match r with | .block g t _ => g == 4 && t == 3 | _ => false
/-- A cell, block or region reset (R32, R574). A region reset of CUS, and a block reset of PPM, put the channels in
self-refresh; the region reset journals custody first. A cell's causes are cleared before its restart,
so the link that leaves UP raises its sources. [DEDUCED, log 41; DEDUCED, log 119] -/
def resetScope (s : State) (r : ResetScope) : State :=
  if absorbed s r ∨ senseScope r then s
  else
    let s := match r with
      | .region g => if g.toNat < 4 then autoFailover s g.toNat else s
      | _ => s
    let hit := hitBy r
    let s := if r = .region 6 then saveCustody s 3 else if hit ppmPage then selfRefresh s true else s
    let cell := match r with | .cell _ => true | _ => false
    let s := discardWork (recallTargets s hit) 0xE1 hit
    let s := if cell then s else wipeHidden (resetSpan s hit) 0xE1 hit
    let s := match r with
      | .block g t i => if g = 7 ∧ t = 1 then resetEbk s i.toNat else s
      | _ => s
    let s := wipeRegs s cell hit
    let s := match r with
      | .cell p => resetCell s p.toNat
      | _ => s
    addReset (dropShadows (dropHolds s r) r) r
/-- The scope that PG_CTL.soft_reset of a page names (R33). [DEDUCED, log 36] -/
def softScope (p : Nat) : ResetScope :=
  match pageInfo p with
  | none => .cell (BitVec.ofNat 16 p)
  | some i =>
    if i.kind.cellPage then .cell (BitVec.ofNat 16 p)
    else if i.btype = 0 then .region (BitVec.ofNat 4 i.region)
    else .block (BitVec.ofNat 4 i.region) (BitVec.ofNat 8 i.btype) (BitVec.ofNat 8 i.inst)

/-! ### Chip resets (R32, R289, R530) -/

/-- R537: a reset or a loss of power during STAGE leaves the slot that is not booted invalid. -/
def stageCut (s : State) : State :=
  match s.boot.cmd with
  | some c =>
    if c.code ≠ 2 then s
    else if bitAt s bootPage 0x100 3 then { s with boot := { s.boot with slotA := none } }
    else { s with boot := { s.boot with slotB := none } }
  | none => s
/-- The frames in the footway FIFOs go; the engines that forward them count them (R507). -/
def emptyFoot (s : State) (reason : Nat) : State :=
  let n := ((s.foot.high ++ s.foot.low).map (fun e => e.2.length)).sum
  forEach { s with foot := {} } (List.range n) (fun s _ => tally s 7 reason)
/-- A warm chip reset: steps 3 to 5 of R287 first; everything but TIM core and the always-on domains. -/
def warmReset (s : State) : State :=
  if absorbed s .warm then s
  else
    let s := saveCustody (stageCut s) 3
    let hit := covers .warm
    let s := emptyFoot (discardWork (recallTargets s hit) 0xE1 hit) 0xE1
    let s := wipeHidden (resetSpan s hit) 0xE1 hit
    let s := setFld (wipeRegs s false hit true) fwPage 0x108 2 0 0
    let s := { s with blkImg := [], storeDigest := [], svcServed := [], logLen := 0
                      boot := { s.boot with stage := 0, kept := true, dram := 0, running := none, hostBundle := none, scopes := [], nonce := none, cmd := none, asked := [] } }
    addReset (dropShadows (dropHolds s .warm) .warm) .warm

/-- Registers that no power-down and no reset loses: fuses, BOOT_SEL and BOOT_CFG, the hold cause (R37, R522, R545). [DEDUCED, log 42] -/
def lasting (k : Nat) : Bool :=
  k / 4096 == fusePage || k == bootPage * 4096 + 0x104 || k == bootPage * 4096 + 0x108 || k == pwrPage * 4096 + 0x10C
/-- The contents of the DIMMs: custody pages, their tags and records (R287, R556). -/
def dimmPages (s : State) : PoolSt := { bufs := s.page.bufs.filter (fun e => e.2.owner == 4) }
/-- The contents of the DIMMs are lost (R288, R291). -/
def loseDimms (s : State) : State :=
  { s with cqueues := mapUpdate cqDflt (fun _ c => { c with records := [], tail := none, st := 0, anchors := [], appended := 0 }) s.cqueues
           page := {}, dramBad := [], cust := { s.cust with slots := [], anchors := [] } }
/-- A cold chip reset: everything but the fuses, and the DIMM contents when custody hold was entered first. [DEDUCED, log 42] -/
def coldReset (s : State) (kept : Bool) : State :=
  let s := if kept then resetCst (stageCut s) else loseDimms (stageCut s)
  { State.reset with
    regs := s.regs.filter (fun e => lasting e.1 && !(s.boot.aonLost && e.1 / 4096 == bootPage) && !(s.aonFailed && e.1 / 4096 == pwrPage))
    pending := s.pending, freeCtr := s.freeCtr, out := s.out, resp := s.resp, nextId := s.nextId
    pins := { s.pins with custodyHold := s.pins.custodyHold && kept }
    dimms := s.dimms, cqueues := if kept then s.cqueues else [], page := if kept then dimmPages s else {}
    cust := { slots := s.cust.slots, anchors := s.cust.anchors }, dramBad := s.dramBad
    therm := { aonDeck := s.therm.aonDeck, aonAbut := s.therm.aonAbut }
    boot := { slotA := s.boot.slotA, slotB := s.boot.slotB, aonLost := s.boot.aonLost, kept := kept }
    resets := [.cold] }

/-! ### Power (R27 to R31, R573) -/

/-- The pages that a power domain's state makes unreachable or loses. -/
def inDomain (d p : Nat) : Bool := (pageInfo p).isSome && pageDom p == d
/-- The scope of a hold lies on pages that are all hit: its own page, or those of its block. -/
def holdHit (hit : Nat → Bool) (k : Nat) : Bool :=
  if k < 2 ^ 30 then hit k
  else
    let b := k - 2 ^ 30
    let l := ((List.range 1024).map (· + b / 2 ^ 20 * 4096)).filter (fun p => (pageInfo p).isSome && blockKey p == b)
    !l.isEmpty && l.all hit
/-- The time I/O and SyncE outputs in use are held low (R368). [DESIGN CHOICE, log 149] -/
def lowOutputs (s : State) : State :=
  let s := forEach s ((List.range 4).filter (fun n => decide (4 ≤ fld s tioPage (tioOff n) 2 0))) (fun s n => emit s (.pin ("TIO" ++ toString n) false))
  forEach s ((List.range 2).filter (fun n => bitAt s syePage (0x100 + 4 * n) 8)) (fun s n => emit s (.pin ("SYNCE" ++ toString n) false))
/-- What stands on pages whose domain loses its supply is lost (R27), the HOLD of its cells and blocks too (R573). The ports that a
pipeline has taken over stay with their partner (R502). -/
def goOff (s : State) (reason : Nat) (hit : Nat → Bool) : State :=
  let s := discardWork (recallTargets s hit) reason hit
  let s := wipeHidden (resetSpan s hit) reason hit
  let s := if hit tioPage then lowOutputs s else s
  let stays (k : Nat) : Bool := lasting k || (decide (k % 4096 = 0x100) && (List.range 4).any (fun r => k / 4096 == iplPage r))
  let s := { s with regs := s.regs.filter (fun e => !hit (e.1 / 4096) || stays e.1), tabs := s.tabs.filter (fun e => !hit (keyPage e.1))
                    snaps := s.snaps.filter (fun e => !hit (keyPage e.1)), tblCmd := s.tblCmd.filter (fun e => !hit e.1)
                    parBad := s.parBad.filter (fun k => !hit (k / 4096)), holds := s.holds.filter (fun k => !holdHit hit k.1) }
  let s := if hit bscPage then { s with lifts := [], groups := [], bscFifo := [], dispatchAt := none } else s
  if hit tbsPage then { s with tbs := [] } else s
/-- The pages of a domain whose drains R30 asks for. [DEDUCED, log 34] -/
def domPages (d : Nat) : List Nat :=
  let range (a n : Nat) : List Nat := (List.range n).map (· + a)
  if d < 48 then
    let r := d / 12 * 4096
    let k := d % 12
    if k < 8 then [r + 1 + k / 2]
    else if k = 8 then range (r + 0x10) 8 ++ [r + 0x20, r + 0x30, r + 0x31]
    else if k = 9 then range (r + 0x18) 8 ++ [r + 0x20, r + 0x32, r + 0x33]
    else range (r + 0x40) 8 ++ (if r = 0 then range 0x50 3 else range (r + 0x51) 2)
  else if d < 56 then range (4 * 4096 + 1 + 4 * (d - 48)) 4
  else if d < 64 then [4 * 4096 + 0x30 + (d - 56)]
  else if d = 64 then range (4 * 4096 + 0x40) 2
  else if d = 65 then range (4 * 4096 + 0x60) 5
  else if d = 66 then [d2dPage]
  else if d < 83 then [5 * 4096 + 1 + (d - 67)]
  else if d < 87 then (queuePorts.filter (fun n => sliceOf n == d - 83)).flatMap (fun n => [tmsPage n, schPage n] ++ if n ≤ 105 then [gatPage n] else [])
  else if d = 87 then [repPage, mirPage]
  else if d = 88 then [rsqPage, bpmPage]
  else if d < 105 then []
  else if d = 105 then [ppmPage, cstPage, jrnPage, capPage]
  else if d = 106 then [ebkPage 0, svcPage, embPage]
  else if d < 170 then [ebkPage (d - 106)]
  else if d = 170 then [pciPage]
  else if d = 171 then [rngPage, dmaPage]
  else if d = 172 then [secPage, bootPage, fusePage]
  else if d = 173 then [intcPage, inspPage]
  else if d = 174 then [tbsPage, tdsPage, bscPage]
  else [tioPage, syePage]
/-- A lane-pair domain that carries an enabled port is not drained (R74). [DEDUCED, log 34] -/
def lanesUsed (s : State) (d : Nat) : Bool :=
  let a := d / 12 * 16 + d % 12 * 2
  (List.range 64).any (fun p => bitAt s (macPage p) 0x100 0 && decide (p < a + 2) && decide (a < p + lanesOf s p))
/-- R30: every page of the domain shows drained; a memory channel is drained under R295; R403. [DEDUCED, log 34] -/
def domDrained (s : State) (d : Nat) : Bool :=
  if d < 48 ∧ d % 12 < 8 then (domPages d).all (drainedPage s) && !lanesUsed s d
  else if 89 ≤ d ∧ d ≤ 104 then !(channels s).contains (d - 89)
  else (domPages d).all (drainedPage s)
/-- The domains that a domain depends on (R31). -/
def domNeeds (d : Nat) : List Nat :=
  (if d < 48 ∨ (67 ≤ d ∧ d ≤ 169) then [174] else []) ++
  (if d < 48 ∧ d % 12 = 11 then [d - 1] else []) ++ (if 107 ≤ d ∧ d ≤ 169 then [106] else []) ++
  (if 48 ≤ d ∧ d ≤ 65 then [66] else []) ++ (if 89 ≤ d ∧ d ≤ 104 then [105] else [])
/-- The domain is ON, or on its way there (R31). -/
def towardOn (s : State) (d : Nat) : Bool := domOn s d || (domOf s d).going == some .on
/-- The domain is ON and not on its way down. -/
def staysOn (s : State) (d : Nat) : Bool := 176 ≤ d || (domOn s d && (domOf s d).going.isNone)
/-- Lowering the domain would break a dependency of one that is ON or on its way there. -/
def neededBy (s : State) (d : Nat) : Bool := (List.range 176).any (fun e => (domNeeds e).contains d && towardOn s e)
def raises (a b : PwrState) : Bool := (a == .off || a == .retain) && (b == .gated || b == .on)
/-- Domains in transition toward ON, and those that wait for an in-rush slot (R29, R37). -/
def rising (s : State) : Nat := (s.doms.filter (fun e => match e.2.going with | some t => raises e.2.st t | none => false)).length
def waitingDoms (s : State) : List Nat :=
  (s.doms.filter (fun e => e.2.going.isNone && (match e.2.pending with | some t => raises e.2.st t | none => false))).map (·.1)
/-- R30, R31: the refusal is recorded in PG_STAT of the page. [DEDUCED, log 35] -/
def pwrRefuse (s : State) (page : Nat) : State := setBit s page 0x014 5 true
/-- The request of a domain in no transition is carried out under R573. -/
def carryPower (s : State) (page d : Nat) (t : PwrState) : State :=
  let x := domOf s d
  let s := setDom s d { x with pending := none }
  let x := { x with pending := none }
  if t = x.st ∨ (x.st = .off ∧ t = .retain) then s
  else if x.st = .on then
    if domDrained s d ∧ !neededBy s d then setDom s d { x with going := some t } else pwrRefuse s page
  else if t = .on ∨ raises x.st t then
    if !(domNeeds d).all (staysOn s) then pwrRefuse s page
    else if raises x.st t ∧ (8 ≤ rising s ∨ (waitingDoms s).any (· < d)) then setDom s d { x with pending := some t, reqPage := page }
    else setDom s d { x with going := some t }
  else setDom s d { x with going := some t }
/-- POWER_REQUEST (R28): a domain in transition keeps the latest request. [DEDUCED, log 35] -/
def powerReq (s : State) (page d : Nat) (t : PwrState) : State :=
  if 176 ≤ d then s
  else match (domOf s d).going with
    | some _ => setDom s d { domOf s d with pending := some t, reqPage := page }
    | none => carryPower s page d t
/-- POWER_TRANSITION_START: a waiting request is taken up. -/
def powerGo (s : State) (d : Nat) : State :=
  let x := domOf s d
  match x.going, x.pending with
  | none, some t => carryPower s x.reqPage d t
  | _, _ => s
/-- Field ports whose enable waits for a domain leave DISABLED when it comes ON, without a new write of enable (R103). [DESIGN CHOICE, log 140] -/
def fieldRetry (s : State) : State :=
  forEach s ((List.range 42).map (· + 64)) (fun s p =>
    if bitAt s (fpPage p) 0x100 0 ∧ linkState s p = 0 ∧ pageOn s (fpPage p) then fieldEnable s p else s)
/-- A T1L group, T1S or management domain that is lowered: its ports are DISABLED (R103). -/
def fieldLower (s : State) (d : Nat) : State :=
  forEach s (((List.range 42).map (· + 64)).filter (fun p => fpDomain p == d)) (fun s p => if linkState s p = 0 then s else linkDisable s p)
/-- POWER_TRANSITION_DONE (R27). -/
def powerDone (s : State) (d : Nat) : State :=
  let x := domOf s d
  match x.going with
  | none => s
  | some t =>
    let s := if x.st = .on then fieldLower s d else s
    let s := if d < 48 ∧ 10 ≤ d % 12 then settleIdle s (d / 12) else s
    let s := if t = .off then goOff s 0xE1 (inDomain d)
      else if t = .retain then discardWork s 0xE1 (inDomain d)
      else if x.st = .off then goOff s 0 (inDomain d)
      else s
    let s := setDom s d { domOf s d with st := t, going := none }
    if t = .on then fieldRetry (senseRestore s) else s
/-- A domain is put in a state at once (start-up, footway, custody hold: R30, R573). [DEDUCED, log 9] -/
def presetDom (st : PwrState) (s : State) (d : Nat) : State := setDom s d { st := st }

/-! ### Custody hold (R287, R292, R556) -/

/-- Step 6 of R287: domains 0 to 175 OFF, and custody hold with its cause. -/
def enterHold (s : State) (cause : Nat) : State :=
  let dimm := dimmPages s
  let cq := s.cqueues
  let j := s.cust
  let s := goOff (stageCut s) 0 (fun p => decide (pageDom p < 176))
  let s := forEach s (List.range 176) (presetDom .off)
  let s := { s with mode := .custodyHold, pins := { s.pins with custodyHold := true }, page := dimm, cqueues := cq
                    cust := { slots := j.slots, anchors := j.anchors }, resets := [], svcOp := none, foot := {}, blkImg := []
                    boot := { slotA := s.boot.slotA, slotB := s.boot.slotB, aonLost := s.boot.aonLost, kept := true } }
  wr s pwrPage 0x10C (BitVec.ofNat 32 cause)
/-- Steps 2 to 6 of R287, with the journal's cause and the hold cause. A load or migration is abandoned (R414). -/
def powerFail (s : State) (journal hold : Nat) : State :=
  let s := if s.svcOp.isSome then abandon s 9 else s
  let s := forEach s (List.range 106) (killRx · 0)
  enterHold (saveCustody { s with pins := { s.pins with custodyHold := true } } journal) hold
/-- PFW_N has been low for 20 µs. In footway mode and on the way in or out of it the footway journal stands (R510). -/
def pfwAccept (s : State) : State :=
  if s.mode ≠ .run then { s with pins := { s.pins with pfwN := false } }
  else
    let s := { s with pins := { s.pins with pfwN := false } }
    if fwState s ≠ 0 then enterHold s 1 else powerFail s 1 1
/-- The exits of R292 that end by themselves, once their condition has held for 100 ms. PFW_N has then risen. -/
def holdCause (s : State) : Nat := fld s pwrPage 0x10C 2 0
/-- [DEDUCED, log 42] -/
def aonCool (s : State) : Bool := decide (s.therm.aonDeck < 100) && decide (s.therm.aonAbut < 100)
/-- [DEDUCED, log 111] -/
def aonWarm (s : State) : Bool := decide (-45 ≤ s.therm.aonDeck) && decide (-45 ≤ s.therm.aonAbut)
/-- A start from custody hold or from reset: R563 may hold it back. -/
def coldStart (s : State) (byPin : Bool) : State :=
  let kept := s.mode == .custodyHold || (s.mode == .inReset && s.boot.kept)
  if !aonWarm s ∨ (holdCause s = 4 ∧ !aonCool s) then { s with mode := .inReset, boot := { s.boot with kept := kept } }
  else coldReset (setBit s pwrPage 0x10C 8 (byPin && s.mode == .custodyHold)) kept
def holdExit (s : State) : State :=
  let c := holdCause s
  if s.mode ≠ .custodyHold ∨ !s.pins.resetN ∨ !(c = 1 ∨ c = 2 ∨ c = 4 ∨ c = 5) ∨ (c = 4 ∧ !aonCool s) then s
  else coldStart { s with pins := { s.pins with pfwN := true } } false
def resetRise (s : State) : State :=
  if s.pins.resetN then s
  else
    let s := { s with pins := { s.pins with resetN := true } }
    if s.mode = .run then s else coldStart s true
/-- R556: no journal is written; what stands in DRAM is kept, the frames that are not there are lost. -/
def resetFall (s : State) : State :=
  if !s.pins.resetN then s
  else
    let s := { s with pins := { s.pins with resetN := false } }
    if s.mode ≠ .run then s
    else
      let s := forEach (abortDrain s) (custodyQueues s) (fun s q =>
        if marked s q ∧ bitAt s cstPage 0x104 0 then dramToRecords s q else s)
      enterHold (selfRefresh s true) 6
/-- Supplies fail (R288, R291, R557): before hold is reached everything goes with its rails; in hold the DIMM contents go. -/
def supplyFail (s : State) (beforeHold : Bool) : State :=
  let s := { loseDimms s with pins := { s.pins with custodyHold := false } }
  if s.mode = .custodyHold ∧ !beforeHold then { s with boot := { s.boot with kept := false, aonLost := true }, aonFailed := true }
  else
    let t := coldReset { s with boot := { s.boot with aonLost := true } } false
    { wr t pwrPage 0x10C 0 with mode := .inReset, resets := [], doms := (List.range 176).map (fun d => (d, { st := .off })), pins := { t.pins with resetN := false } }

/-! ### The die-to-die link (R13, R14) -/

/-- Traffic resumes: the frames held toward COR go on. -/
def d2dResume (s : State) : State :=
  let l := s.d2d.toCor
  forEach { s with d2d := { s.d2d with st := .up, repCor := false, repFld := false, fails := 0, failsFld := 0, toCor := [] } } l
    (fun s p => ingest s p.frame)
/-- A flit is accepted in order by the receiver of its direction, whose replay ends with it. -/
def flitGood (d : D2d) (dir : D2dDir) : D2d :=
  match dir with
  | .toCor => { d with expToCor := d.expToCor + 1, repCor := false, fails := 0 }
  | .toFld => { d with expToFld := d.expToFld + 1, repFld := false, failsFld := 0 }
/-- A mismatch or a gap: the receiver asks for a replay, or its replay has failed. -/
def flitBad (d : D2d) (dir : D2dDir) : D2d :=
  match dir with
  | .toCor => if d.repCor then { d with fails := d.fails + 1 } else { d with st := .replay, repCor := true, fails := 0 }
  | .toFld => if d.repFld then { d with failsFld := d.failsFld + 1 } else { d with st := .replay, repFld := true, failsFld := 0 }
/-- FLIT_RECEIVE: each end of the link follows its own direction. [DEDUCED, log 39] -/
def flit (s : State) (dir : D2dDir) (seq : BitVec 16) (crcOk : Bool) : State :=
  if s.d2d.st = .retrain ∨ s.d2d.st = .down then s
  else if crcOk ∧ seq = (match dir with | .toCor => s.d2d.expToCor | .toFld => s.d2d.expToFld) then
    let d := flitGood s.d2d dir
    if d.st = .replay ∧ !d.repCor ∧ !d.repFld then d2dResume { s with d2d := d } else { s with d2d := d }
  else { s with d2d := flitBad s.d2d dir }
/-- Eight replays in a row have failed at one of the receivers. -/
def retrain (s : State) : State :=
  if s.d2d.st = .replay ∧ (8 ≤ s.d2d.fails ∨ 8 ≤ s.d2d.failsFld) then { s with d2d := { s.d2d with st := .retrain } } else s
/-- [DEDUCED, log 39] -/
def retrainDone (s : State) : State := if s.d2d.st = .retrain then d2dResume s else s
/-- The ports toward a link that is down are down to their queues (R14). -/
def fieldPortsDown (s : State) : State :=
  forEach s ((List.range 42).map (· + 64)) (fun s p => if linkState s p = 2 ∨ linkState s p = 3 then portDown (abortTx s p) p else s)
/-- An escalation is counted, marked and offered to the capture (R491, R492). [DEDUCED, log 38] -/
def chipNote (s : State) (region unit src code : Nat) : State :=
  let s := setBit (inc s inspPage 0x120) inspPage 0x124 region true
  if bitAt s inspPage 0x104 0 then s
  else wr64 (wr s inspPage 0x104 (BitVec.ofNat 32 (1 + region * 2 + unit * 2 ^ 5 + src * 2 ^ 12 + code * 2 ^ 17))) inspPage 0x108 (now s % 2 ^ 64)
/-- R14: the link down reaches chip level; FLD is isolated as a region; the frames in the link's buffers are discarded. [DEDUCED, log 38] -/
def d2dDown (s : State) : State :=
  if s.d2d.st ≠ .retrain then s
  else
    let s := chipNote s 4 (match pageInfo d2dPage with | some i => summaryBit i | none => 0) 0 (fld s inspPage 0x100 9 8)
    let s := fieldPortsDown (emptyD2d s 0x18)
    addHold { s with d2d := { s.d2d with st := .down } } (scopeKey (4 * 4096), 0)
/-- The link returns: a region reset restores FLD. -/
def d2dReturn (s : State) : State :=
  if s.d2d.st ≠ .down then s else resetScope { s with d2d := {} } (.region 4)

/-! ### The end of a reset -/

/-- RESET_COMPLETE: what its scope does as it returns to service (R129, R419, R577). [DEDUCED, log 41] -/
def resetEnd (s : State) (r : ResetScope) : State :=
  if !s.resets.contains r then s
  else
    let s := senseRestore { s with resets := s.resets.erase r }
    match r with
    | .region g =>
      if g = 6 then rebuildStart (selfRefresh s false)
      else if g = 7 then startServices s
      else s
    | .block g t _ =>
      if g = 6 ∧ t = 2 then rebuildPool (selfRefresh s false) (fun _ => true)
      else if g = 6 ∧ t = 3 then rebuildStart s
      else s
    | _ => s

end Sys2Proof.Machine
end

