-- ==== Sys2Proof/Machine/FootOps.lean ====
section
/-! DEFINITION. Footway mode (R503 to R512), escalation and the chip action (R488 to R493), thermal limits (R561 to R563),
the reference clock (R24), bank-group fences (R225), injection (R494 to R496) and inspection (R497 to R500). -/

namespace Sys2Proof.Machine

/-! ### Footway configuration (R503, R505, R506) -/

/-- Footway entry is permitted (R504). -/
def fwPermitted (s : State) : Bool := s.pins.footwayEn && bitAt s fwPage 0x100 8
/-- The domains that a designated port keeps. -/
def portDoms (s : State) (p : Nat) : List Nat :=
  if p < 64 then
    ((List.range (lanesOf s p)).map (fun i => 12 * (p / 16) + (p + i) % 16 / 2)) ++ [12 * (p / 16) + 8 + p % 16 / 8]
  else if p ≤ 105 then [65, 66, fpDomain p]
  else []
/-- The kept set among the switched domains. -/
def domsKept (s : State) (ports : List Nat) : List Nat := ([174, 175, 170, 172, 173, 106] ++ ports.flatMap (portDoms s)).eraseDups
/-- The kept set of the configuration in effect. -/
def keptDoms (s : State) : List Nat := domsKept s (fwPorts s)
/-- The ports that the slots name as they are written, which a commit takes. -/
def writtenPorts (s : State) : List Nat := slotPorts (fun i => slotEntry (tget s fwPage 0 0 i))
/-- The estimate of R505 for the slots as written, in 0.1 W. [DEDUCED, log 102] -/
def fwPower (s : State) : Nat :=
  let l := domsKept s (writtenPorts s)
  let n (f : Nat → Bool) : Nat := (l.filter f).length
  let lanes := n (fun d => decide (d < 48) && decide (d % 12 < 8))
  let macs := n (fun d => decide (d < 48) && (d % 12 == 8 || d % 12 == 9))
  let t1l := n (fun d => decide (48 ≤ d) && decide (d < 56))
  let t1s := n (fun d => decide (56 ≤ d) && decide (d < 64))
  (2000 + 480 * lanes + 320 * macs + (if l.contains 66 then 240 else 0) + 80 * t1l + 30 * t1s + (if l.contains 64 then 120 else 0)) / 20
def fwRefuse (s : State) (cause : Nat) : State := raise (setFld (setBit s fwPage 0x108 8 true) fwPage 0x108 11 9 cause) fwPage 1 0 cause
/-- Why a commit is refused (R505); `booting` leaves out the test of port enables. [DEDUCED, log 102] -/
def commitCause (s : State) (booting : Bool) : Nat :=
  let l := writtenPorts s
  let line := l.filter (· < 64)
  if 8 < line.length ∨ line.any (fun p => 2 < lanesOf s p) then 3
  else if l.any (fun p => decide (105 < p) || (!booting && !bitAt s (portPage p) 0x100 0)) then 4
  else if 450 < fwPower s then 5 else 0
/-- FW_CTL.commit: it takes effect in NORMAL only, and then the slots and the table as written are in effect. -/
def fwCommit (s : State) (booting : Bool) : State :=
  if fwState s ≠ 0 then s
  else
    let s := setFld s fwPage 0x108 31 16 (fwPower s)
    let c := commitCause s booting
    if c = 0 then { setBit s fwPage 0x100 8 true with fwTabs := s.tabs.filter (fun e => keyPage e.1 == fwPage) } else fwRefuse s c

/-! ### Entry and exit (R509 to R512) -/

def setFw (s : State) (n : Nat) : State := setFld s fwPage 0x108 2 0 n
/-- R509: the custody store is saved, the domains outside the kept set go OFF, and the footway table forwards. Out of EXITING (R510) it
has forwarded all along. [DEDUCED, log 100] -/
def fwEnter (s : State) (cause : Nat) : State :=
  let kept := keptDoms s
  let again := fwState s == 3
  let foot := if again then s.foot else {}
  let s := if s.svcOp.isSome then abandon s 9 else s
  let s := setFld (setFw s 1) fwPage 0x108 6 4 cause
  let s := forEach s ((List.range 106).filter (fun p => !(again && (fwPorts s).contains p))) (fun s p => killRx s 0xF3 p)
  let s := saveCustody { s with pins := { s.pins with custodyHold := true } } 5
  let dimm := dimmPages s
  let cq := s.cqueues
  let cust := s.cust
  let s := goOff s 0xF3 (fun p => decide (pageDom p < 176) && !kept.contains (pageDom p))
  let s := forEach s ((List.range 176).filter (fun d => !kept.contains d)) (presetDom .off)
  let s := { s with page := dimm, cqueues := cq, cust := cust, foot := foot, boot := { s.boot with dram := 0 } }
  raise (setFw s 2) fwPage 0 0 cause
/-- The outcome of a footway trigger (R504, R510). [DEDUCED, log 100] -/
def fwTrigger (s : State) (cause : Nat) : State :=
  if fwState s = 2 ∨ fwState s = 1 then s else fwEnter s cause
/-- FW_CTL.enter. -/
def fwRequest (s : State) : State := if !fwPermitted s then fwRefuse s 1 else fwTrigger s 3
/-- R511: the trigger persists. -/
def fwPersists (s : State) : Bool :=
  decide (1100 ≤ s.therm.reported) ||
  (fld s fwPage 0x108 6 4 == 1 && (List.range 10).any (fun r => s.holds.contains (scopeKey (r * 4096), 0)))
/-- An accepted exit raises the other domains as a warm chip reset leaves them; engines restart and channels retrain. -/
def fwExit (s : State) : State :=
  if fwState s ≠ 2 then s
  else if fwPersists s then fwRefuse s 6
  else
    let s := forEach s ((List.range 176).filter (fun d => (domOf s d).st != .on)) (presetDom .on)
    let s := startServices (setFw s 3)
    { s with boot := { s.boot with dram := 1, kept := true } }
/-- R511: the exit that FW_CFG.auto_exit asks for after cause 2. -/
def fwAutoExit (s : State) : State :=
  if fld s fwPage 0x108 6 4 = 2 ∧ bitAt s fwPage 0x100 0 ∧ s.therm.reported < 1050 then fwExit s else s
/-- The pipeline and the TM slice of a designated port are ON (R512). -/
def fwReady (s : State) (p : Nat) : Bool :=
  (if p < 64 then domOn s (12 * (p / 16) + 10) else domOn s 65) && domOn s (83 + sliceOf p)
/-- A footway frame leaves its port (R507): unchanged but for the PTP corrections of R363 and R364, and protected where the
port's MACsec protects. Drops on transmit are those of R81, R98 and R99. [DESIGN CHOICE, log 101] -/
def fwTx (s : State) (port : Nat) (f : Frame) : State :=
  let m := msecTxVerdict s port f.bytes
  if f.unverified then countReason s (portRegion port) (if port < 64 then 0x0D else 0x12)
  else if f.trunc then countReason s (portRegion port) (if port < 64 then 0x03 else 0x12)
  else if m ≠ 0 then dropNotes (countReason s (portRegion port) m) port m
  else
    let p := ptpEdit s port f f.bytes
    let w := msecProtect p.2 port p.1
    emit w.2 (.tx port w.1 false)
/-- The frames of a slot's FIFO leave, high priority first. -/
def fwFlush (s : State) (i : Nat) : State :=
  let l := mapGet (fun _ => []) s.foot.high i ++ mapGet (fun _ => []) s.foot.low i
  forEach s l (fun s f => fwTx s (fwSlot s i).1 f)
/-- FW_CTL.handover (R512). [DEDUCED, log 100] -/
def fwHandover (s : State) : State :=
  if fwState s ≠ 3 then s
  else if !(fwPorts s).all (fwReady s) then fwRefuse s 7
  else
    let s := forEach s (List.range 16) fwFlush
    raise (setFw { s with foot := {} } 0) fwPage 2

/-- A designated port sends the head of its slot's FIFO, high priority first. -/
def fwSend (s : State) (port : Nat) : State :=
  match (List.range 16).find? (fun i => (fwSlot s i).2.1 && (fwSlot s i).1 == port) with
  | none => s
  | some i =>
    match mapGet (fun _ => []) s.foot.high i, mapGet (fun _ => []) s.foot.low i with
    | f :: l, _ => fwTx { s with foot := { s.foot with high := mapSet (fun _ => []) s.foot.high i l } } port f
    | [], f :: l => fwTx { s with foot := { s.foot with low := mapSet (fun _ => []) s.foot.low i l } } port f
    | [], [] => s

/-- A frame that the MAC and MSEC of a designated port have passed. [DEDUCED, log 100; DESIGN CHOICE, log 101] -/
def fwFrame (s : State) (port : Nat) (bs : List Byte) : State :=
  fwForward s { id := 0, bytes := bs, ingress := port, ts := rxStamp s port }

/-! ### Escalation (R489 to R492, R531) -/

/-- The chip action (R491, R504, R510, R531) for a unit in power domain `d`. -/
def chipAction (s : State) (d : Nat) : State :=
  let kept := decide (176 ≤ d) || (keptDoms s).contains d
  if fwState s = 2 then (if kept then enterHold s 5 else s)
  else if s.boot.stage < 3 then warmReset s
  else if fwPermitted s ∧ !kept then fwTrigger s 1
  else warmReset s
/-- Chip level acts on an escalation by INSP_CHIP_MAP. -/
def chipLevel (s : State) (region unit src d : Nat) : State :=
  let code := fld s inspPage 0x100 (2 * region + 1) (2 * region)
  let s := chipNote s region unit src code
  if s.boot.stage < 3 ∧ code = 3 then warmReset s
  else match code with
    | 1 => raise s inspPage 0 0 region
    | 2 => resetScope s (.region (BitVec.ofNat 4 region))
    | 3 => chipAction s d
    | _ => s
/-- An escalation on its way to chip level: FLD's crosses the die-to-die link, and waits while that carries nothing (R12). -/
def toChip (s : State) (region unit src d : Nat) : State :=
  if region = 4 ∧ s.d2d.st ≠ .up then { s with d2d := { s.d2d with signals := s.d2d.signals ++ [(unit, src, d)] } }
  else chipLevel s region unit src d
/-- One escalation: the region's map, or chip level for a region header page (R489). -/
def escalate (s : State) (p src : Nat) : State :=
  match pageInfo p with
  | none => s
  | some i =>
    let h := i.region * 4096
    let u := summaryBit i
    if i.btype = 0 then toChip s i.region 0 src i.domain
    else
      let code := fld s h (0x210 + u / 16 * 4) (2 * (u % 16) + 1) (2 * (u % 16))
      let s := inc s h 0x228
      match code with
      | 1 => raise s h 0 0 u
      | 2 => addHold (raise (raise s h 0 0 u) h 1 0 u) (scopeKey h, 0)
      | 3 => toChip (raise s h 0 0 u) i.region u src i.domain
      | _ => s
/-- R12: escalations of FLD that waited for the die-to-die link reach chip level. -/
def d2dSignals (s : State) : State :=
  if s.d2d.st = .up ∧ s.d2d.signals ≠ [] then
    forEach { s with d2d := { s.d2d with signals := [] } } s.d2d.signals (fun s x => chipLevel s 4 x.1 x.2.1 x.2.2)
  else s
/-- The escalations of a command, and those that they bring. -/
def escalateAll : Nat → State → State
  | 0, s => { s with escal := [] }
  | fuel + 1, s =>
    match s.escal with
    | [] => s
    | (p, src) :: rest => escalateAll fuel (escalate { s with escal := rest } p src)

/-- CHIP_WATCHDOG (R493). [DESIGN CHOICE, log 5] -/
def watchdog (s : State) : State :=
  let period := fld s inspPage 0x118 15 0
  if period = 0 ∨ now s < s.wdogAt + msUnits period then s else warmReset s
def kick (s : State) : State := { s with wdogAt := now s }

/-! ### The reference clock (R24, R37, R354) -/

def ckLost (s : State) : State :=
  if bitAt s pwrPage 0x108 0 then s
  else
    let s := freezeServos (setBit (setBit s pwrPage 0x108 0 true) pwrPage 0x108 1 true)
    chipNote (raise s pwrPage 0) 8 (match pageInfo pwrPage with | some i => summaryBit i | none => 0) 0 (fld s inspPage 0x100 17 16)
def ckRelock (s : State) : State :=
  if !bitAt s pwrPage 0x108 1 then s
  else raise (setBit (setBit (setBit s pwrPage 0x108 0 false) pwrPage 0x108 1 false) pwrPage 0x108 2 true) pwrPage 1
/-- 100 ms without CK_REF: custody hold with hold cause 2. -/
def ckGone (s : State) : State :=
  if !bitAt s pwrPage 0x108 1 ∨ s.mode ≠ .run then s
  else
    let s := setBit s pwrPage 0x108 3 true
    if fwState s ≠ 0 then enterHold s 2 else powerFail s 2 2

/-! ### Temperature (R561 to R563) -/

/-- A sensor's reading in 0.1 °C where it is valid. -/
def sensorOk (r : BitVec 16 × Bool) : Option Int :=
  let v := signedOf 16 r.1.toNat
  if r.2 ∧ -600 ≤ v ∧ v ≤ 1500 then some v else none
/-- The highest of the valid readings with its sensor; a die without one reads 110 °C. [DEDUCED, log 111] -/
def hottest (l : List (BitVec 16 × Bool)) : Int × Nat :=
  let v := (numbered 0 l).filterMap (fun e => (sensorOk e.2).map (fun t => (t, e.1)))
  let die (f : Nat → Bool) (first : Nat) : List (Int × Nat) := if v.any (fun e => f e.2) then [] else [(1100, first)]
  let all := v ++ die (· < 28) 0 ++ die (28 ≤ ·) 28
  all.foldl (fun a e => if a.1 < e.1 then e else a) (-32768, 0)
def throttled (s : State) : Bool := bitAt s thermPage 0x10C 0
/-- What follows from a new reported temperature: the warning, and the trip (R563). -/
def report120 (s : State) : State :=
  if s.therm.reported < 1200 ∨ s.mode ≠ .run then s
  else
    let s := setBit s thermPage 0x10C 2 true
    if fwState s ≠ 0 then enterHold s 4 else powerFail s 6 4
def reportTemp (s : State) (t : Int) (sensor : Nat) : State :=
  let warn := signedOf 16 (fld s thermPage 0x108 15 0)
  let was := s.therm.reported
  let s := { s with therm := { s.therm with reported := t } }
  let s := setFld (setFld s thermPage 0x100 15 0 (unsignedOf 16 t)) thermPage 0x100 20 16 sensor
  let s := if signedOf 16 (fld s thermPage 0x104 15 0) < t then setFld s thermPage 0x104 15 0 (unsignedOf 16 t) else s
  let s := if warn ≤ t ∧ was < warn then raise s thermPage 0 else s
  report120 s
/-- THERMAL_SAMPLE. While HST control has no power only the always-on sensors are read; a start that waited may begin. -/
def thermSample (s : State) (l : List (BitVec 16 × Bool)) (deck abut : BitVec 8) : State :=
  let s := { s with therm := { s.therm with aonDeck := signedOf 8 deck.toNat, aonAbut := signedOf 8 abut.toNat } }
  if s.mode = .inReset ∧ s.pins.resetN then coldStart s true
  else if s.mode ≠ .run ∨ !domOn s 173 then s
  else
    let l := l.take 30
    let s := wr s thermPage 0x1C0 (BitVec.ofNat 32 (deck.toNat + abut.toNat * 256))
    let bad := ((numbered 0 l).map (fun e => if (sensorOk e.2).isNone then 2 ^ e.1 else 0)).sum
    let newly := bad &&& (bad ^^^ fld s thermPage 0x114 29 0)
    let s := forEach s (numbered 0 l) (fun s e =>
      wr s thermPage (0x140 + 4 * e.1) (BitVec.ofNat 32 (e.2.1.toNat + b2n (sensorOk e.2).isSome * 2 ^ 31)))
    let s := setFld s thermPage 0x114 29 0 bad
    let s := if newly = 0 then s else raise (setBit s thermPage 0x10C 1 true) thermPage 3
    let h := hottest l
    match s.therm.forced with
    | some (v, t) => if now s < t then reportTemp s v h.2 else reportTemp { s with therm := { s.therm with forced := none } } h.1 h.2
    | none => reportTemp s h.1 h.2
/-- THROTTLE_ENTER (R562): unassigned engine blocks without an image go OFF. -/
def throttleIn (s : State) : State :=
  if throttled s ∨ s.therm.reported < 1100 ∨ !domOn s 173 then s
  else
    let l := (List.range 64).filter (fun b => mapAt s b == 0 && blkState s b == 0 && blkOn s b && b != 0)
    let s := forEach s l (fun s b => presetDom .off (goOff s 0xE1 (inDomain (106 + b))) (106 + b))
    raise (inc (setBit s thermPage 0x10C 0 true) thermPage 0x110) thermPage 1
def throttleOut (s : State) : State :=
  if !throttled s ∨ 1050 ≤ s.therm.reported then s else raise (setBit s thermPage 0x10C 0 false) thermPage 2
/-- The thermal trigger of R504 as a chip detector: footway mode, or a chip-level ESCALATE. -/
def thermTrigger (s : State) : State :=
  let s := chipNote s 8 (match pageInfo thermPage with | some i => summaryBit i | none => 0) 0 (fld s inspPage 0x100 17 16)
  if fwPermitted s then fwTrigger s 2 else warmReset s
/-- THERMAL_FOOTWAY (R504): where entry is not permitted the trigger is an ESCALATE at chip level. [DEDUCED, log 111] -/
def thermFootway (s : State) : State :=
  if s.therm.reported < 1150 ∨ s.mode ≠ .run ∨ fwState s = 2 then s else thermTrigger s
/-- FOOTWAY_ENTER: a trigger with its cause, by R504 where entry is not permitted. Only causes 1 to 4 are triggers. -/
def fwEvent (s : State) (cause : Nat) : State :=
  if fwState s = 2 ∨ fwState s = 1 ∨ cause = 0 ∨ 4 < cause then s
  else if fwPermitted s then fwEnter s cause
  else match cause with
    | 1 => warmReset s
    | 2 => thermTrigger s
    | 3 => fwRefuse s 1
    | _ => s

/-! ### Bank-group fences (R225) -/

/-- A fence is refused while another group is being fenced, and where the minima would not fit. -/
def fenceGroup (s : State) (g : Nat) : Bool × State :=
  if s.gran.fencing.contains g ∨ s.gran.fencedGroups.contains g then (true, s)
  else if s.gran.fencing ≠ [] ∨ avail s .granules < 32768 + sumMin s .granules then (false, s)
  else (true, notePushout (pushout s) { s with gran := { s.gran with fencing := g :: s.gran.fencing } })
/-- BANK_FENCE_DONE: every granule of the group is fenced. -/
def fenceDone (s : State) (g : Nat) : State :=
  if s.gran.fencing.contains g ∧ (usedGranules s.gran g).isEmpty then
    raise { s with gran := { s.gran with fencing := s.gran.fencing.erase g, fencedGroups := g :: s.gran.fencedGroups } } bpmPage 11 0 g
  else s
/-- UNFENCE of a group returns its granules to FREE, those too that were fenced one by one (R225, R232). -/
def unfenceGroup (s : State) (g : Nat) : State :=
  let mine := (s.gran.bufs.filter (fun e => e.2.st == .fenced && e.1 / 32768 == g)).map (·.1)
  notePushout (pushout s) (forEach { s with gran := { s.gran with fencing := s.gran.fencing.erase g, fencedGroups := s.gran.fencedGroups.erase g } } mine
    (fun s a => opUnfence s .granules a 13))
/-- Granules cannot be read any more: the chains that hold them are marked, with those granules (R225, R232). -/
def markGranules (s : State) (which : Nat → Bool) : State :=
  let f (_ : Nat) (b : Buf) : Buf :=
    let l := b.chain.filter (fun a => which a && !b.badGran.contains a)
    if (b.st == .held || b.st == .released) && !l.isEmpty then { b with bad := true, badGran := b.badGran ++ l } else b
  { s with gran := { s.gran with bufs := mapUpdate bufDflt f s.gran.bufs } }
/-- A group that fails or is held: its granules in use are lost (0x6D), their frames discarded when next read. -/
def loseGroup (s : State) (g : Nat) : State :=
  let n := (usedGranules s.gran g).length
  let t := markGranules (forEach s (List.range n) (fun s _ => countReason s 5 0x6D)) (fun a => a / 32768 == g)
  notePushout (pushout s) { t with gran := { t.gran with fencing := t.gran.fencing.erase g, fencedGroups := g :: t.gran.fencedGroups.erase g } }
/-- Bank groups that HOLD has taken are fenced at once, and recovery is set (R222, R225). -/
def holdGroups (s : State) : State :=
  if s.holds.isEmpty then s
  else
    let l := (List.range 16).filter (fun g => s.holds.contains (scopeKey (5 * 4096 + 1 + g), 0) && !s.gran.fencedGroups.contains g)
    forEach s l (fun s g => setRecovery (loseGroup s g))
/-- The state record of a granule fails parity (R232): a granule in use is bad, a free one is fenced at once. -/
def recordLost (s : State) (a : Nat) : State :=
  let s := raise { s with gran := { s.gran with parBad := a :: s.gran.parBad.erase a } } bpmPage 8 0 (a % 65536)
  match (recordOf s .granules (bufHead s .granules a)).st with
  | .free => fenceGranule s a
  | _ => markGranules s (· == a)

/-! ### Injection (R494 to R496) -/

/-- What a page is. -/
def kindOf (p : Nat) : Option PageKind := (pageInfo p).map (fun i => i.kind)

def unlocked (s : State) : Bool := bitAt s unlockPage 0x10C 16
def deny (s : State) : State := inc s injPage 0x114
/-- INJ_NONCE drawn (R494): the one before is void. [DESIGN CHOICE, log 5] -/
def drawNonce (s : State) : State :=
  let r := fresh s
  let n := r.1 % 2 ^ 64
  let s := wr64 r.2 unlockPage 0x100 n
  { s with inj := { s.inj with nonce := some (n, now s), keyAt := none } }
/-- INJ_KEY. [DEDUCED, log 103] -/
def injKeyIn (s : State) (key : Nat) : State :=
  match s.inj.nonce with
  | none => s
  | some (n, t) =>
    if bitAt s fusePage 0x108 1 then s
    else if key = (n % 2 ^ 32) ^^^ 0x5A5A5A5A ∧ now s ≤ t + msUnits 10 then { s with inj := { s.inj with keyAt := some (now s) } }
    else { s with inj := { s.inj with keyAt := none } }
/-- INJ_UNLOCK.go. [DEDUCED, log 103] -/
def injGo (s : State) : State :=
  let m := fld s unlockPage 0x10C 5 0
  let ok : Bool := match s.inj.keyAt with | none => false | some t => decide (now s ≤ t + msUnits 10)
  if ok ∧ 1 ≤ m ∧ m ≤ 60 then
    setBit { s with inj := { s.inj with keyAt := none, until' := now s + m * 60000 * 153600000 } } unlockPage 0x10C 16 true
  else raise (deny s) inspPage 3
def injRelock (s : State) : State := setBit s unlockPage 0x10C 16 false
/-- [DESIGN CHOICE, log 5] -/
def injExpire (s : State) : State := if unlocked s ∧ s.inj.until' ≤ now s then injRelock s else s
/-- INJ_UNLOCK's minutes left, rounded up. -/
def minutesLeft (s : State) : Nat := if unlocked s then ceilDiv (s.inj.until' - now s) (60000 * 153600000) else 0

/-- Injected sources fire as if detected (R47). [DEDUCED, log 32] -/
def injectSources (s : State) (p : Nat) (v : Nat) : State :=
  forEach s (onesOf 32 v) (fun s b => raise { s with inj := { s.inj with srcs := (p, b) :: s.inj.srcs.erase (p, b) } } p b)

/-- The pipeline, or REP, whose list holds failed entries of a page. -/
def failHome (p : Nat) : Nat := if p = repPage then 5 else pipeOfPage p
/-- An entry fails parity (R157, R177, R193, R199, R259, R377). [DEDUCED, log 103] -/
def failEntry (s : State) (p sel bank idx : Nat) : State :=
  let key := tabKey p sel bank idx
  let k := failHome p
  let x := pipeOf s k
  let s := if p = bscPage then s else setPipe s k { x with failed := key :: x.failed.erase key }
  { s with tabBad := key :: s.tabBad.erase key }
/-- A failed entry is reported: its source, with the detail of its page. -/
def reportEntry (s : State) (key : Nat) : State :=
  let p := keyPage key
  let s := { s with tabBad := s.tabBad.erase key }
  match kindOf p with
  | some .rul | some .fplRul => raise s p 7 0 (keyIdx key % 8192 + keyBank key * 8192)
  | some .mtr | some .fplMtr => raise s p 5 0 (keySel key % 8 + keyIdx key % 8192 * 8)
  | some .fdb | some .fplFdb => fdbParity s (pipeOfPage p) (keyIdx key)
  | some .lpm | some .fplLpm => raise (countReason s (pipeRegion (pipeOfPage p)) 0x53) p 1 0x53 (keyIdx key % 4 + keyIdx key / 4 % 8192 * 8)
  | some .rep => raise s p 1 0x52
  | some .bsc => liftParity s (keyIdx key)
  | _ => s
/-- TABLE_PARITY_SCAN of a page. -/
def parityScan (s : State) (p : Nat) : State := forEach s (s.tabBad.filter (fun k => keyPage k == p)) reportEntry
/-- A rewritten entry is sound again (R157, R259), unless a sticky fault stands on it (R496). -/
def mendEntry (s : State) (p sel bank idx : Nat) : State :=
  let key := tabKey p sel bank idx
  let x := pipeOf s (failHome p)
  let s := { setPipe s (failHome p) { x with failed := x.failed.erase key } with tabBad := s.tabBad.erase key }
  if s.inj.faults.any (fun f => f.2.2.2.2.2 && (f.1 == 2 || f.1 == 3) && f.2.1 == p && f.2.2.1 == sel + bank * 16 && f.2.2.2.1 == idx) then failEntry s p sel bank idx
  else s

/-- The pages that carry an injection kind (R495). -/
def carries (kind p : Nat) : Bool :=
  match kindOf p with
  | none => false
  | some k =>
    let tables := [PageKind.rul, .fplRul, .fdb, .fplFdb, .lpm, .fplLpm, .mtr, .fplMtr, .rep, .bsc].contains k
    match kind with
    | 1 | 2 => tables || [PageKind.buf, .ebk, .tms, .rsq, .msec, .gat, .cst, .svc].contains k
    | 3 => tables || k == .bpm
    | 4 => k == .d2d
    | 5 | 6 => k == .ppm
    | 7 => k == .ebk
    | 8 => k == .sdq
    | 9 => k == .therm
    | _ => false
/-- A double-bit error, or a failed record: what stands on the word is lost (R232, R416, R417). [DEDUCED, log 103] -/
def loseWord (s : State) (p cell idx : Nat) : State :=
  match pageInfo p with
  | none => s
  | some i => match i.kind with
    | .buf => addSat (markGranules s (· == i.inst * 32768 + idx / 32)) p 0x100 31 16 1
    | .bpm => recordLost s idx
    | .ebk => if cell < 16 then holdEngine s i.sub cell 2 else sharedError s i.sub
    | .rul | .fplRul | .fdb | .fplFdb | .lpm | .fplLpm | .mtr | .fplMtr | .rep | .bsc => failEntry s p (cell % 16) (cell / 16 % 2) idx
    | _ => s
/-- A corrected single-bit error is counted where the page counts them. [DEDUCED, log 103] -/
def correctWord (s : State) (p : Nat) : State :=
  match kindOf p with
  | some .buf => addSat s p 0x100 15 0 1
  | some .ebk => raise (addSat s p 0x114 15 0 1) p 3
  | _ => s
/-- A lane has no signal for `us` µs, and the port that uses it loses its own. What returns it then is LINK_FAULT. [DEDUCED, log 103] -/
def laneLost (s : State) (quad lane us : Nat) : State :=
  let n := 4 * quad + lane
  let s := { s with inj := { s.inj with dark := (n, now s + usUnits us) :: s.inj.dark.filter (fun d => d.1 != n && decide (now s < d.2)) } }
  match portOfLane s n with
  | none => setLane (setLane s n 0 1 false) n 1 2 false
  | some p => linkConds s p { signal := false, lock := false, localFault := bitAt s (macPage p) oLinkStat 5
                              remoteFault := bitAt s (macPage p) oLinkStat 6, hiBer := bitAt s (macPage p) oLinkStat 7, lane := BitVec.ofNat 2 (n - p) }
/-- The fault of one kind lands (R495). [DEDUCED, log 103; DESIGN CHOICE, log 158] -/
def landFault (s : State) (kind p cell idx bit count : Nat) : State :=
  match kind with
  | 1 => correctWord s p
  | 2 | 3 => loseWord s p cell idx
  | 4 => let d : D2dDir := if bit / 2 ^ 10 = 0 then .toCor else .toFld; flit s d 0 false
  | 6 => let r := fresh s; { r.2 with dramBad := (idx, r.1 % 512) :: r.2.dramBad.erase (idx, r.1 % 512) }
  | 8 => laneLost s (p / 4096 * 4 + (p % 4096 - 1)) (cell % 4) count
  | 9 =>
    let v := signedOf 16 count
    reportTemp { s with therm := { s.therm with forced := some (v, now s + msUnits 100) } } v (fld s thermPage 0x100 20 16)
  | _ => s
/-- [DEDUCED, log 103] -/
def injRefuse (s : State) (cause : Nat) : State := setFld (setBit s injPage 0x110 2 true) injPage 0x110 5 3 cause
/-- INJ_CTL.go: the fault that the injection page describes. [DEDUCED, log 103] -/
def inject (s : State) : State :=
  let kind := fld s injPage 0x100 3 0
  let sticky := bitAt s injPage 0x100 4
  let p := fld s injPage 0x104 15 0
  let cell := fld s injPage 0x104 31 16
  let idx := fld s injPage 0x108 29 0
  let dir := fld s injPage 0x108 31 30
  let bit := fld s injPage 0x10C 9 0
  if !unlocked s then injRefuse (deny s) 1
  else if !carries kind p then injRefuse s 2
  else if !pageOn s p then injRefuse s 3
  else
    let same (f : Nat × Nat × Nat × Nat × Nat × Bool) : Bool := f.1 == kind && f.2.1 == p && f.2.2.1 == cell && f.2.2.2.1 == idx
    let old := s.inj.faults.filter (fun f => !same f && (sticky || f.1 == 7 || !f.2.2.2.2.2))
    let keep := sticky || kind == 7
    let s := { s with inj := { s.inj with faults := if keep then (kind, p, cell, idx, bit, sticky) :: old else old } }
    let s := landFault s kind p cell idx (bit + (if dir = 0 then 0 else 2 ^ 10)) (fld s injPage 0x10C 31 16)
    setBit s injPage 0x110 1 true
/-- PATROL_SCRUB of a page (R399): the faults that stand in its memories are corrected, or reported. -/
def scrub (s : State) (p : Nat) : State :=
  let mine := s.inj.faults.filter (fun f => f.2.1 == p && (f.1 == 1 || f.1 == 2))
  let s := forEach s mine (fun s f => if f.1 = 1 then correctWord s p else loseWord s p f.2.2.1 f.2.2.2.1)
  { s with inj := { s.inj with faults := s.inj.faults.filter (fun f => f.2.2.2.2.2 || !(f.2.1 == p && (f.1 == 1 || f.1 == 2))) } }

end Sys2Proof.Machine
end

