-- ==== Sys2Proof/Machine/SecOps.lean ====
section
/-! DEFINITION. Bundles and start-up (R523 to R533), the SEC commands (R534, R537 to R544) and signatures for engines
(R535). -/

namespace Sys2Proof.Machine

/-! ### Bundles (R526 to R528) -/

def ownerSet (s : State) : Bool := bitAt s fusePage 0x108 0
/-- The value of anti-rollback counter `c`. -/
def counterOf (s : State) (c : Nat) : Nat := fld s fusePage (0x180 + c / 4 * 4) (8 * (c % 4) + 6) (8 * (c % 4))
/-- The manifest verifies under R526. -/
def sigOk (s : State) (b : Bundle) : Bool :=
  (match b.signerSlot with | none => false | some k => b.sigAskineOk && !bitAt s fusePage 0x108 (4 + k.toNat)) &&
  (b.sigOwnerOk || !ownerSet s)
def compsOf (b : Bundle) (t : Nat) : List Component := b.components.filter (fun c => c.ctype.toNat == t)
/-- Every entry has a valid type, and the entries that R528 asks for stand exactly once. [DESIGN CHOICE, log 108] -/
def bundleShape (b : Bundle) : Bool :=
  decide (1 ≤ b.components.length) && decide (b.components.length ≤ 64) &&
  b.components.all (fun c => decide (1 ≤ c.ctype.toNat) && decide (c.ctype.toNat ≤ 5) && decide (c.svn.toNat ≤ 64)) &&
  [1, 3, 4].all (fun t => (compsOf b t).length == 1) &&
  ((compsOf b 2).filter (fun c => c.target.toNat == 0x0A)).length == 1
/-- The status a bundle earns under R528: 0 for a valid one. -/
def bundleCause (s : State) (b : Bundle) : Nat :=
  if !sigOk s b then 3
  else if b.components.any (fun c => !c.digestOk) then 4
  else if !bundleShape b then 2
  else if b.components.any (fun c => decide (c.svn.toNat < counterOf s c.counter.toNat)) then 5
  else 0
def bundleValid (s : State) (b : Bundle) : Bool := bundleCause s b == 0
def slotOf (s : State) (i : Nat) : Option Bundle := if i = 0 then s.boot.slotA else s.boot.slotB
def slotValid (s : State) (i : Nat) : Bool := match slotOf s i with | some b => bundleValid s b | none => false
/-- The first component of a type. -/
def compOf (b : Bundle) (t : Nat) : Option Component := (compsOf b t).head?

/-- A component's digest enters a measurement register. -/
def extendBy (s : State) (r : Nat) (c : Component) : State :=
  extend s r c.ctype.toNat c.target.toNat c.version.toNat c.digest.toNat
/-- The store slot that holds an image with this digest. -/
def storedAs (s : State) (digest : Nat) : Option Nat :=
  (List.range 32).find? (fun k => storeOk s k && mapGet (fun _ => 0) s.storeDigest k == digest)
def freeStore (s : State) : Option Nat := (List.range 32).find? (fun k => !storeOk s k)
/-- A service image goes into a free slot of the store, unless a stored image has its digest; it is measured (R533, R537). -/
def storePut (s : State) (c : Component) : State :=
  match storedAs s c.digest.toNat, freeStore s with
  | none, some k =>
    let e := c.target.toNat + c.version.toNat * 2 ^ 8 + c.stateVer.toNat * 2 ^ 24 + c.stateMin.toNat * 2 ^ 32 + 2 ^ 40 +
      c.digest.toNat % 2 ^ 215 * 2 ^ 41
    let s := tset s secPage 1 0 k (BitVec.ofNat 1920 e)
    extendBy { s with storeDigest := mapSet (fun _ => 0) s.storeDigest k c.digest.toNat } 7 c
  | _, _ => s

/-! ### Start-up (R523 to R525, R530) -/

def bootStat (s : State) (hi lo n : Nat) : State := setFld s bootPage 0x100 hi lo n
/-- What ROM reads at the start of every start: straps, custody flag and hold cause (R545). -/
def readStraps (s : State) : State :=
  let src := s.pins.bootSrc.toNat
  wr s bootPage 0x100 (BitVec.ofNat 32 (src + b2n s.pins.footwayEn * 4 + b2n s.pins.custodyHold * 64 + b2n (src == 3) * 128 +
    (if s.pins.custodyHold then holdCause s else 0) * 2 ^ 12))
/-- The choice of R525 among the flash slots: the slot, and whether it is the fallback. The preferred slot is taken past
its trials where the other one is not valid. [DEDUCED, log 106] -/
def chooseSlot (s : State) (trials : Nat) : Option (Nat × Bool) :=
  let p := fld s bootPage 0x104 0 0
  let o := 1 - p
  let gen (i : Nat) : Nat := match slotOf s i with | some b => b.generation.toNat | none => 0
  if !slotValid s p then (if slotValid s o then some (o, !s.boot.aonLost) else none)
  else if !slotValid s o then some (p, false)
  else if s.boot.aonLost then (if gen p < gen o then some (o, false) else some (p, false))
  else if max 1 (fld s bootPage 0x108 3 0) < trials then some (o, true)
  else some (p, false)
/-- ROM measures the manifest, the fuses and SPX firmware, and jumps to it. -/
def romRuns (s : State) (b : Bundle) : State :=
  let s := extend s 10 0 0 0 b.manifestDigest.toNat
  let fuses := (leBytes 4 (rd s fusePage 0x108).toNat ++ (List.range 16).flatMap (fun i => leBytes 4 (rd s fusePage (0x140 + 4 * i)).toNat)).map (·.toNat)
  let s := extend s 11 0 0 0 (Config.sha512 fuses % 2 ^ 512)
  let s := match compOf b 1 with | some c => extendBy s 8 c | none => s
  { s with boot := { s.boot with stage := 1, running := some b, aonLost := false } }
/-- Stage 0 ends: a bundle is chosen, or SPX stays in ROM (R524). The trial is counted once in a start from flash (R525): a
later pass of the same start finds BOOT_STAT.fail set. [DEDUCED, log 106] -/
def bootRom (s : State) (flashOk : Bool := true) : State :=
  let src := s.pins.bootSrc.toNat
  let again := fld s bootPage 0x100 11 8 != 0
  let s := readStraps s
  let trials := if src = 1 ∨ again then fld s bootPage 0x104 7 4 else satAdd 4 (fld s bootPage 0x104 7 4) 1
  let s := setFld s bootPage 0x104 7 4 trials
  let none' := if src ≠ 1 ∧ !flashOk then 3 else 1
  match (if src = 1 ∨ !flashOk then none else chooseSlot s trials) with
  | some (i, fb) =>
    let s := bootStat (bootStat s 3 3 i) 4 4 (b2n fb)
    let s := if fb then raise s secPage 1 else s
    (match slotOf s i with | some b => romRuns s b | none => s)
  | none =>
    if src = 0 then bootStat s 11 8 none'
    else match s.boot.hostBundle with
      | none => if src = 1 then s else bootStat s 11 8 none'
      | some b => if bundleValid s b then romRuns (bootStat s 5 5 1) b else bootStat s 11 8 1
/-- The footway configuration component is written and committed while no configuration is valid (R527). -/
def bootFootway (s : State) (b : Bundle) : State :=
  if (compsOf b 5).isEmpty ∨ bitAt s fwPage 0x100 8 then s
  else
    let s := setFld s fwPage 0x100 7 0 b.fwCfg.toNat
    let s := forEach s (numbered 0 (b.fwSlots.take 16)) (fun s e => tset s fwPage 0 0 e.1 (BitVec.ofNat 1920 e.2.toNat))
    let s := forEach s (numbered 0 (b.fwTable.take 256)) (fun s e => tset s fwPage 1 0 e.1 (BitVec.ofNat 1920 e.2.toNat))
    fwCommit s true
/-- The line regions with a designated port. -/
def fwRegions (s : State) : List Nat := [0, 1, 2, 3].filter (fun r => (fwPorts s).any (fun p => decide (p < 64) && p / 16 == r))
def serdesInto (s : State) (b : Bundle) (l : List Nat) : State :=
  match compOf b 3 with
  | none => s
  | some c => forEach s l (fun s r => extendBy s r c)
/-- Stage 1 ends: FOOTWAY runs on block 0, the kept domains are ON; footway mode is passed through with cause 4 (R530 steps
5 to 7), and the remaining domains are raised. [DEDUCED, log 107] -/
def bootFirst (s : State) (b : Bundle) : State :=
  let s := forEach s [174, 175, 170, 172, 173, 106] (presetDom .on)
  let s := bootFootway s b
  let s := forEach s (keptDoms s) (presetDom .on)
  let s := serdesInto s b (fwRegions s)
  let s := forEach s ((compsOf b 2).filter (fun c => c.target.toNat == 0x0A)) storePut
  let s := match storeFor s 0x0A with
    | some k => health (deal (runBlock (loadImage s 0 k) 0 0x0A) 0x0A)
    | none => s
  let s := if fwPermitted s then raise (setFw (setFld s fwPage 0x108 6 4 4) 3) fwPage 0 0 4 else s
  let s := forEach s ((List.range 176).filter (fun d => (domOf s d).st != .on)) (presetDom .on)
  { s with boot := { s.boot with stage := 2 } }
/-- Stage 2 ends: the images are in the store, the service map is loaded, DIMM training begins (R530 step 8); every region has its
certificate (R519). [DEDUCED, log 107] -/
def bootSecond (s : State) (b : Bundle) : State :=
  let done := fwRegions s
  let s := serdesInto s b ([0, 1, 2, 3].filter (fun r => !done.contains r))
  let s := match compOf b 4 with | some c => extendBy s 6 c | none => s
  let s := forEach (startServices (forEach s (compsOf b 2) storePut)) (List.range 10) issueCert
  { s with boot := { s.boot with stage := 3, dram := 1 } }
/-- BOOT_STAGE_DONE. [DEDUCED, log 107] -/
def bootStep (s : State) (flashOk : Bool := true) : State :=
  if s.mode ≠ .run ∨ !domOn s 172 then s
  else match s.boot.stage, s.boot.running with
    | 0, _ => bootRom s flashOk
    | 1, some b => bootFirst s b
    | 2, some b => bootSecond s b
    | _, _ => s
/-- BOOT_HOST_GO: ROM reads the host bundle; another stage has no use for it. [DESIGN CHOICE, log 37] -/
def hostGo (s : State) (b : HostRead Bundle) : State :=
  if s.boot.stage ≠ 0 ∨ s.pins.bootSrc = 0 then s
  else
    let s := toHost s (.hostRead (rd64 s bootPage 0x110) (rd s bootPage 0x118).toNat)
    match b with
    | .error => bootStat s 11 8 2
    | .ok b => { s with boot := { s.boot with hostBundle := some b } }
/-- The running bundle's component of a type is the staged one's. [DEDUCED, log 109] -/
def takeComp (s : State) (c : Component) : State :=
  match s.boot.running with
  | none => s
  | some b =>
    { s with boot := { s.boot with running := some { b with components := c :: b.components.filter (fun d => d.ctype != c.ctype) } } }
/-- Channels in `mask` take the DDR PHY firmware applied to them at their training, each measured (R538). [DEDUCED, log 109] -/
def takePhy (s : State) (mask : Nat) : State :=
  let m := s.boot.phyMask &&& mask
  match s.boot.phyNew with
  | none => s
  | some c =>
    if m = 0 then s
    else
      let s := takeComp { s with boot := { s.boot with phyMask := s.boot.phyMask - m } } c
      forEach s (onesOf 16 m) (fun s _ => extendBy s 6 c)
/-- DIMM_TRAINING_DONE: initialisation begins, or the rebuild where contents were kept (R530 steps 9 and 10). -/
def trained (s : State) : State :=
  if s.boot.dram ≠ 1 then s
  else
    let s := takePhy (selfRefresh s false) 0xFFFF
    if s.boot.kept then rebuildStart { s with boot := { s.boot with dram := 0 } }
    else { s with boot := { s.boot with dram := 2 } }
/-- DRAM_INIT_DONE (R530 step 10a). -/
def dramReady (s : State) : State :=
  if s.boot.dram ≠ 2 then s
  else cstNowReady (rebuildB { s with boot := { s.boot with dram := 0 } })

/-! ### The data buffer -/

/-- Bytes go into the data buffer from entry 0. -/
def putBytes : List Byte → Nat → Nat → State → State
  | [], _, _, s => s
  | _, _, 0, s => s
  | bs, i, fuel + 1, s =>
    let c := bs.take 64
    putBytes (bs.drop 64) (i + 1) fuel (tset s secPage 0 0 i (esetFld (tget s secPage 0 0 i) (8 * c.length - 1) 0 (leNat c)))
def putBuffer (s : State) (bs : List Byte) : State :=
  wr (putBytes bs 0 64 s) secPage 0x120 (BitVec.ofNat 32 bs.length)
/-- `n` bytes of the data buffer. -/
def bufferBytes (s : State) (n : Nat) : List Byte :=
  ((List.range (ceilDiv n 64)).flatMap (fun i => leBytes 64 (tget s secPage 0 0 i).toNat)).take n

/-! ### The commands (R543) -/

/-- The slot that is not booted, and its bundle where that is valid. -/
def otherSlot (s : State) : Nat := 1 - fld s bootPage 0x100 3 3
def staged (s : State) : Option Bundle := (slotOf s (otherSlot s)).filter (bundleValid s)
/-- A status that the spec does not name: a free value. [DESIGN CHOICE, log 108] -/
def freeStatus (s : State) : Nat × State := let r := fresh s; (r.1 % 256, r.2)

/-- The log as one string of octets. -/
def logBytes (s : State) : List Nat :=
  (List.range (min s.logLen 512)).flatMap (fun i => (leBytes 80 (tget s secPage 3 0 i).toNat).map (·.toNat))
/-- A signature by the device key (R519): its private key is the first 32 bytes of SHA-512 over "OX6440-DEV" and the seed. -/
def deviceSign (digest : Nat) : Nat :=
  Config.ed25519 (Config.sha512 ([0x4F, 0x58, 0x36, 0x34, 0x34, 0x30, 0x2D, 0x44, 0x45, 0x56] ++ Config.seed) % 2 ^ 256) digest
/-- A signature by the key of region `r`, derived from the seed and the region's measurement register as it stands (R519, R521). [DESIGN CHOICE, log 80] -/
def regionSign (s : State) (r digest : Nat) : Nat :=
  Config.ed25519 (Config.sha512 (Config.seed ++ [r] ++ (leBytes 64 (measure s r)).map (·.toNat)) % 2 ^ 256) digest
/-- QUOTE (R534). [DESIGN CHOICE, log 108] -/
def quoteBody (s : State) : List Byte :=
  let t := tbAt s 0 (now s)
  leBytes 4 0x4F585131 ++ leBytes 4 1248 ++ leBytes 8 Config.serial.toNat ++ bufferBytes s 64 ++
  (List.range 16).flatMap (fun r => leBytes 64 (measure s r)) ++ leBytes 4 s.logLen ++ leBytes 8 (secOf t) ++
  leBytes 4 (nsOf t % 2 ^ 30 + b2n (tbValid s 0) * 2 ^ 31) ++ leBytes 64 (Config.sha512 (logBytes s) % 2 ^ 512)
def doQuote (s : State) : Nat × State :=
  if s.boot.locked then (0x0A, s)
  else
    let b := quoteBody s
    let d := Config.sha512 (b.map (·.toNat)) % 2 ^ 512
    (0, putBuffer s (b ++ leBytes 64 (deviceSign d)))
/-- The slot that is not booted, written. -/
def setOther (s : State) (b : Option Bundle) : State :=
  { s with boot := if otherSlot s = 0 then { s.boot with slotA := b } else { s.boot with slotB := b } }
/-- STAGE (R537): a bundle longer than a slot is out of range. A flash error leaves the slot without a manifest. [DESIGN CHOICE, log 108] -/
def doStage (s : State) (b : HostRead Bundle) (flashOk : Bool := true) : Nat × State :=
  if 2 ^ 26 < (rd s secPage 0x110).toNat then (2, s)
  else
  let s := toHost s (.hostRead (rd64 s secPage 0x108) (rd s secPage 0x110).toNat)
  match b with
  | .error => (7, s)
  | .ok b =>
    let c := bundleCause s b
    let new := ((compsOf b 2).filter (fun c => (storedAs s c.digest.toNat).isNone)).length
    let free := ((List.range 32).filter (fun k => !storeOk s k)).length
    if c ≠ 0 then (c, s)
    else if free < new then (6, s)
    else if !flashOk then (8, setOther s none)
    else (0, forEach (setOther s (some b)) (compsOf b 2) storePut)
/-- [DESIGN CHOICE, log 108] -/
def doSelect (s : State) : Nat × State :=
  let i := (rd s secPage 0x108).toNat
  if 1 < i ∨ !slotValid s i then (2, s) else (0, setFld s bootPage 0x104 0 0 i)
/-- The components that run: those of the running bundle, and the images that blocks run (R529). [DEDUCED, log 109] -/
def runningComps (s : State) : List Component :=
  let known := [s.boot.running, s.boot.slotA, s.boot.slotB, s.boot.hostBundle].filterMap id
  let base := match s.boot.running with | some b => b.components.filter (fun c => c.ctype.toNat != 2) | none => []
  let runs (c : Component) : Bool := (List.range 64).any (fun b =>
    (blkState s b == 3 || blkState s b == 4) && mapGet (fun _ => 0) s.storeDigest (imgOf s b).slot == c.digest.toNat)
  base ++ known.flatMap (fun b => (compsOf b 2).filter runs)
/-- A counter goes up to `v`; source 3 when it does. [DEDUCED, log 109] -/
def advanceCounter (s : State) (c v : Nat) : State :=
  if v ≤ counterOf s c then s
  else raise (setFld s fusePage (0x180 + c / 4 * 4) (8 * (c % 4) + 6) (8 * (c % 4)) v) secPage 3 0 c
def doBootOk (s : State) : Nat × State :=
  (0, setFld (forEach s (runningComps s) (fun s c => advanceCounter s c.counter.toNat c.svn.toNat)) bootPage 0x104 7 4 0)
def doSpxUpdate (s : State) : Nat × State :=
  match (staged s).bind (compOf · 1) with
  | none => freeStatus s
  | some c => (0, extendBy (takeComp s c) 8 c)
/-- [DEDUCED, log 102] -/
def doFwApply (s : State) : Nat × State :=
  let t := (rd s secPage 0x108).toNat
  let mask := (rd s secPage 0x10C).toNat
  if (t ≠ 3 ∧ t ≠ 4) ∨ 0xFFFF < mask then (2, s)
  else match (staged s).bind (compOf · t) with
    | none => freeStatus s
    | some c =>
      if mask = 0 then (0, s)
      else if t = 4 then (0, { s with boot := { s.boot with phyMask := s.boot.phyMask ||| mask, phyNew := some c } })
      else (0, forEach (takeComp s c) ([0, 1, 2, 3].filter (fun r => bitsOf mask (4 * r + 3) (4 * r) != 0)) (fun s r => extendBy s r c))
/-- CERT_READ: the device certificate, or the one a region has (R519, R520); one that has none yet is no argument. [DESIGN CHOICE, log 108] -/
def doCertRead (s : State) : Nat × State :=
  let i := (rd s secPage 0x108).toNat
  if 10 < i then (2, s)
  else if i = 0 then (0, putBuffer s (Config.deviceCert.take 4096))
  else
    let c := mapGet (fun _ => ({} : Cert)) s.boot.certs (i - 1)
    let n := mapGet (fun _ => 0) s.certSerial (i - 1)
    if n = 0 then (2, s) else (0, putBuffer s ((Config.regionCert (i - 1) n c.measure c.owner c.generation).take 4096))
def doFuseOwner (s : State) : Nat × State :=
  if rd s secPage 0x108 ≠ 0x4F574E52 then (2, s)
  else if ownerSet s then (9, s)
  else
    let d := Config.sha512 ((bufferBytes s 32).map (·.toNat)) % 2 ^ 512
    let s := forEach s (List.range 16) (fun s i => wr s fusePage (0x140 + 4 * i) (BitVec.ofNat 32 (d / 2 ^ (32 * i))))
    (0, setBit s fusePage 0x108 0 true)
/-- The nonce is the one drawn last, within 10 s. -/
def nonceFits (s : State) (drawn : Option (Nat × Nat)) (n : Nat) : Bool :=
  match drawn with
  | none => false
  | some (v, t) => v == n && decide (now s ≤ t + msUnits 10000)
/-- DEBUG (R539, R540). -/
def doDebug (s : State) (askine owner : Bool) : Nat × State :=
  let b := bufferBytes s 192
  let n := leNat (slice b 12 8)
  let scope := leNat (slice b 20 4)
  let minutes := leNat (slice b 24 2)
  let byInj := nonceFits s s.inj.nonce n
  if leNat (slice b 0 4) ≠ 0x4F584454 ∨ leNat (slice b 4 8) ≠ Config.serial.toNat ∨ minutes = 0 ∨ 1440 < minutes ∨ scope = 0 ∨ 8 ≤ scope then (2, s)
  else if !(nonceFits s s.boot.nonce n || (byInj && scope == 2)) then (0x0C, s)
  else if !(if ownerSet s then owner && (askine || !scope.testBit 2) else askine) then (3, s)
  else
    let s := extend s 12 0 0 0 (Config.sha512 (b.map (·.toNat)) % 2 ^ 512)
    let till := now s + minutes * 60000 * 153600000
    let s := { s with boot := { s.boot with scopes := (scope, till) :: s.boot.scopes, locked := s.boot.locked || scope.testBit 2 } }
    let s := if byInj && scope.testBit 1 && bitAt s fusePage 0x108 1 then { s with inj := { s.inj with keyAt := some (now s) } } else s
    (0, raise s secPage 2 0 scope)
def doNonce (s : State) : Nat × State :=
  let r := fresh s
  let n := r.1 % 2 ^ 64
  let s := putBuffer r.2 (leBytes 8 n)
  (0, { s with boot := { s.boot with nonce := some (n, now s) } })
/-- What a command comes to. -/
def runSec (s : State) (c : SecCmd) : Nat × State :=
  if c.busError then (0x0B, s)
  else match c.code with
    | 1 => doQuote s
    | 2 => doStage s c.bundle c.flashOk
    | 3 => doSelect s
    | 4 => doBootOk s
    | 5 => doSpxUpdate s
    | 6 => doFwApply s
    | 7 => doCertRead s
    | 8 => doFuseOwner s
    | 9 => doDebug s c.sigAskineOk c.sigOwnerOk
    | 10 => doNonce s
    | _ => (1, s)
/-- SEC_CMD.go (R542). -/
def secGo (s : State) (code : Nat) : State :=
  if s.boot.cmd.isSome then setFld s secPage 0x104 15 8 0x0C
  else setBit { s with boot := { s.boot with cmd := some { code := code } } } secPage 0x104 0 true

/-- What the outside found for the command that has just been given: the bundle it names, the signatures of the token. -/
def secWith (s : State) (code : Nat) (g : SecCmd → SecCmd) : State :=
  match s.boot.cmd with
  | some c => if c.code = code then { s with boot := { s.boot with cmd := some (g c) } } else s
  | none => s

/-! ### Signatures for engines (R535) -/

/-- A block that runs SPAN. -/
def runsSpan (s : State) (b : Nat) : Bool := blkSvc s b == 2 && blkState s b == 3
/-- SPX serves a request of service 0xF0: status 0 OK, 5 REFUSED, 0x0A with the keys locked (R540); a signature as one number. -/
def spxServe (s : State) (q : SpxReq) : State :=
  let answer (status : Nat) (l : List Nat) : State := emit s (.response 0xF0 q.op q.block status none l)
  if q.op ≠ 0x10 then answer 0 q.args
  else
    let r := q.args.getD 0 0
    let links := (List.range 8).any (fun l => linkRegion l == r && bitAt s (spnLinkPage l) 0x100 0)
    if s.boot.locked then answer 0x0A [] else if !links then answer 5 [] else answer 0 [regionSign s r (q.args.getD 1 0)]
/-- A request reaches SPX (R535): refused to a block that does not run SPAN; it waits while SPX restarts on new firmware (R538), and
where 64 wait it is answered BUSY. Otherwise it is served at once. [DESIGN CHOICE, log 108] -/
def spxAsk (s : State) (q : SpxReq) : State :=
  if !runsSpan s q.block then emit s (.response 0xF0 q.op q.block 5 none [])
  else if !s.boot.cmd.any (fun c => c.code == 5) then spxServe s q
  else if 64 ≤ s.boot.asked.length then emit s (.response 0xF0 q.op q.block 4 none [])
  else { s with boot := { s.boot with asked := s.boot.asked ++ [q] } }
/-- SEC_COMMAND_DONE; the requests that waited are served in their order. -/
def secDone (s : State) : State :=
  match s.boot.cmd with
  | none => s
  | some c =>
    let r := runSec { s with boot := { s.boot with cmd := none } } c
    let s := raise (wr r.2 secPage 0x104 (BitVec.ofNat 32 (2 + r.1 * 256))) secPage 0
    forEach { s with boot := { s.boot with asked := [] } } s.boot.asked spxServe

end Sys2Proof.Machine
end

