-- ==== Sys2Proof/Machine/InspOps.lean ====
section
/-! DEFINITION. Live inspection (R497 to R500): requests, preparations, windows, runs and results. -/

namespace Sys2Proof.Machine

/-- The action is defined for the target (R499, R578). -/
def inspTargetOk (action page cell : Nat) : Bool :=
  match pageInfo page with
  | none => false
  | some i => match action, i.kind with
    | 1, k => k != .header
    | 2, .sdq | 3, .sdq | 6, .sdq => decide (cell < 4)
    | 4, .snsPair | 5, .snsPair => decide (cell < 40)
    | 8, .ppm => decide (cell < 16)
    | 7, .buf | 9, .rul | 9, .fplRul | 9, .mtr | 9, .fplMtr | 9, .gat | 10, .ebk | 11, .ipl | 12, .t1l | 12, .t1s | 13, .tms => cell == 0
    | _, _ => false
/-- The unit within its region that a page's target names: bank group, block, port. -/
def inspUnit (page : Nat) : Nat := match pageInfo page with | none => 0 | some i => i.sub
/-- The quad of an SDQ page. -/
def inspQuad (page : Nat) : Nat := page / 4096 * 4 + inspUnit page % 4
/-- The ports that an action takes down. -/
def inspPorts (s : State) (i : Inspection) : List Nat :=
  match i.action with
  | 5 => [pairPort i.cell]
  | 6 => match portOfLane s (4 * inspQuad i.page + i.cell) with | some p => [p] | none => []
  | 12 => [inspUnit i.page]
  | 13 => (List.range 106).filter (fun n => sliceOf n == sliceOf (inspUnit i.page))
  | _ => []
/-- A port that an inspection keeps down. -/
def portTested (s : State) (port : Nat) : Bool := s.insp.any (fun i => i.phase == 1 && (inspPorts s i).contains port)
/-- A banked table whose falsework bank is under test refuses writes with cause 3 (R499). -/
def bankTested (s : State) (page : Nat) : Bool := s.insp.any (fun i => i.phase == 1 && i.action == 9 && i.page == page)
/-- The kinds of R498: online-safe, lossless preparation, disruptive. -/
def inspOnline (s : State) (i : Inspection) : Bool :=
  decide (1 ≤ i.action) && decide (i.action ≤ 4) || (i.action == 5 && linkState s (pairPort i.cell) != 2)
def inspLossless (i : Inspection) : Bool := decide (7 ≤ i.action) && decide (i.action ≤ 11)
/-- How many actions of a code may run at a time (R500). -/
def inspLimit (action : Nat) : Nat := if action = 7 ∨ action = 8 ∨ action = 13 then 1 else if action = 10 then 4 else 2 ^ 16
def mayRun (s : State) (i : Inspection) : Bool :=
  decide ((s.insp.filter (fun j => j.phase == 1 && j.action == i.action)).length < inspLimit i.action)
def bankOfPage (s : State) (page : Nat) : Bank :=
  match kindOf page with
  | some .rul | some .fplRul => (pipeOf s (pipeOfPage page)).rul
  | some .mtr | some .fplMtr => (pipeOf s (pipeOfPage page)).mtr
  | _ => gatBank s (page % 4096 - 0x300)

/-- A preparation begins (R499): 0 it runs or is not needed, 1 it must wait for another, 4 it is refused. -/
def prepStart (s : State) (i : Inspection) : Nat × State :=
  match i.action with
  | 7 =>
    let g := inspUnit i.page
    if s.gran.fencing.any (· != g) then (1, s)
    else
      let r := fenceGroup s g
      if r.1 then (0, r.2) else (4, s)
  | 8 =>
    match drainCause s i.cell with
    | 0 => (0, drainStart (setFld s cstPage 0x12C 3 0 i.cell))
    | 1 | 4 => (1, s)
    | _ => (4, s)
  | 10 =>
    let b := inspUnit i.page
    let id := mapAt s b
    if id = 0 then (0, s)
    else if s.svcOp.isSome then (1, s)
    else if b = 0 ∨ blkState s b ≠ 3 then (4, s)
    else
      let spare := (List.range 64).find? (fun d => mapAt s d == 0 && d != b && d != 0 && blkOn s d && (blkState s d == 0 || blkState s d == 2) && !held s (ebkPage d))
      match spare, storeFor s id with
      | some d, some slot =>
        let s := loadImage s d slot
        (0, setBit (setBlkState { s with svcOp := some (.migrate b d) } b 4) svcPage 0x114 0 true)
      | _, _ => (4, s)
  | 11 =>
    let r := i.page / 4096
    if failedOver s (r ^^^ 1) then (4, s) else (0, failover s r)
  | _ => (0, s)
/-- The target is drained. -/
def prepReady (s : State) (i : Inspection) : Bool :=
  match i.action with
  | 7 => s.gran.fencedGroups.contains (inspUnit i.page)
  | 8 => !(channels s).contains i.cell
  | 9 => !(bankOfPage s i.page).retiring
  | 10 => mapAt s (inspUnit i.page) == 0 && s.svcOp.isNone
  | 11 => let p := pipeOf s (i.page / 4096); failedOver s (i.page / 4096) && p.arrivals.isEmpty && p.recirc.isEmpty
  | _ => true
/-- A custody queue whose chain reaches a page of a channel that is gone ends at the page before it (R293). -/
def chainCut (s : State) (q k : Nat) : State :=
  let l := (cqOf s q).records
  let kept := l.takeWhile (fun r => r.pages.all (· % 16 != k))
  if kept.length = l.length then s
  else
    let s := setCq s q { cqOf s q with records := kept, tail := none }
    let gone := l.drop kept.length
    let s := releaseRecord s q (gone.flatMap (·.pages))
    forEach s gone (fun s r => custodyCount (qDrop s q r.frame) q 0xA7)
/-- The target goes out of service at once, by force or in its window: frames it holds are discarded with 0xE0. -/
def outOfService (s : State) (i : Inspection) : State :=
  match i.action with
  | 7 => loseGroup s (inspUnit i.page)
  | 8 =>
    let f (p : Nat) (b : Buf) : Buf := if p % 16 = i.cell ∧ b.st ≠ .free then { b with bad := true } else b
    let s := setDimm { s with page := { s.page with bufs := mapUpdate bufDflt f s.page.bufs } } i.cell { dimmOf s i.cell with inService := false }
    forEach s (custodyQueues s) (fun s q => chainCut s q i.cell)
  | 9 =>
    match kindOf i.page with
    | some .rul | some .fplRul => let k := pipeOfPage i.page; setPipe s k { pipeOf s k with rul := { (pipeOf s k).rul with retiring := false } }
    | some .mtr | some .fplMtr => let k := pipeOfPage i.page; setPipe s k { pipeOf s k with mtr := { (pipeOf s k).mtr with retiring := false } }
    | _ => let p := i.page % 4096 - 0x300; setGat s p { gatBank s p with retiring := false }
  | 10 => holdBlock s (inspUnit i.page)
  | 11 => failover (emptyPipe s 0xE0 (i.page / 4096)) (i.page / 4096)
  | 13 => forEach s (inspPorts s i) (fun s p => (fun s => if linkState s p = 2 then forceDown s p else s) (emptyQueues (killTx (killRx s 0xE0 p) 0xE0 5 p) 0xE0 p))
  | _ => forEach s (inspPorts s i) (fun s p => if linkState s p = 2 then forceDown (killTx (killRx s 0xE0 p) 0xE0 (portRegion p) p) p else s)
/-- The target returns to service after PASS, or when its action is given up (R498). -/
def backInService (s : State) (i : Inspection) : State :=
  match i.action with
  | 7 => unfenceGroup s (inspUnit i.page)
  | 8 =>
    if s.cust.draining = some i.cell then abortDrain s
    else if (channels s).contains i.cell then s
    else readmitEnd { s with cust := { s.cust with readmitting := some i.cell } }
  | 10 => let b := inspUnit i.page; if blkState s b = 5 then setBlkState s b (if (imgOf s b).service = 0 then 0 else 2) else s
  | 11 => failback s (i.page / 4096)
  | _ => s

/-! ### Running (R499, R500) -/

def hasTest (page : Nat) : Bool := match kindOf page with | some k => k.test | none => false
/-- The live test controls show an action that begins. -/
def testBegin (s : State) (i : Inspection) : State :=
  if !hasTest i.page then s
  else
    let s := wr s i.page 0x050 (BitVec.ofNat 32 (i.action % 32 + 32 + i.cell % 65536 * 256))
    wr (wr (wr s i.page 0x054 (BitVec.ofNat 32 i.param)) i.page 0x058 0) i.page 0x05C 0
/-- They show how it ended. -/
def testEnd (s : State) (i : Inspection) (errors first : Nat) (ran : Bool) : State :=
  if !hasTest i.page then s
  else
    let s := setFld (setFld s i.page 0x050 7 0 0) i.page 0x050 7 6 (if !ran then 0 else if errors = 0 then 1 else 2)
    wr (wr s i.page 0x058 (BitVec.ofNat 32 errors)) i.page 0x05C (BitVec.ofNat 32 first)
def setInsp (s : State) (i : Inspection) : State := { s with insp := s.insp.map (fun j => if j.id = i.id then i else j) }
def dropInsp (s : State) (id : Nat) : State := { s with insp := s.insp.filter (fun j => j.id != id) }
/-- The action runs on its target. [DEDUCED, log 104] -/
def inspRun (s : State) (i : Inspection) : State :=
  let s := testBegin (setInsp s { i with phase := 1 }) i
  match i.action with
  | 1 => scrub s i.page
  | 3 => eyeStart (setFld s i.page 0x110 1 0 i.cell) (inspQuad i.page)
  | 4 => calStart s i.cell
  | 5 => diagStart (setFld (setBit s snsPage 0x110 9 false) snsPage 0x110 5 0 i.cell)
  | _ => s
/-- RESULT (R497). -/
def inspResult (s : State) (id code first : Nat) : State :=
  notify s 0x0B 0x80 ([id % 256, id / 256 % 256, code, 0, 0, 0, 0, 0] ++ (leBytes 8 first).map (·.toNat))

/-! ### Requests and cancellation (R497, R498) -/

/-- A free lift entry among 4,064 to 4,095. -/
def inspLift (s : State) : Option Nat :=
  ((List.range 32).map (· + 4064)).find? (fun i => !liftLive s i && !(s.insp.any (fun j => j.lift == some i)))
/-- The MARK lift of a window, late_discard 1. -/
def markRecord (tb sec ns : Nat) : Entry :=
  BitVec.ofNat 1920 (sec % 2 ^ 64 + ns * 2 ^ 64 + tb * 2 ^ 96 + 13 * 2 ^ 100 + 2 ^ 105 + tioPage * 2 ^ 128 + 2 ^ 383)
/-- Two requests name one target. -/
def sameTarget (i j : Inspection) : Bool := j.page == i.page && j.cell == i.cell
/-- The target is under inspection already, or is being prepared for it. -/
def underInsp (s : State) (i : Inspection) : Bool := s.insp.any (fun j => sameTarget i j && (j.phase == 1 || j.lift.isNone))
/-- How long it is until a window opens, in ns of its own time base. [DEDUCED, log 104] -/
def untilOpen (s : State) (i : Inspection) : Int := (i.inst : Int) - tbAt s i.tb (now s) / (2 ^ 32 : Nat)
/-- The window overlaps one that waits for the same target (R498). [DEDUCED, log 104] -/
def windowClash (s : State) (i : Inspection) : Bool :=
  s.insp.any (fun j => sameTarget i j && j.lift.isSome &&
    decide (untilOpen s j < untilOpen s i + (i.len * 1000 : Nat)) && decide (untilOpen s i < untilOpen s j + (j.len * 1000 : Nat)))
/-- A request: its result code (R497). `i` enters the list where it is accepted. [DEDUCED, log 104] -/
def inspAccept (s : State) (i : Inspection) (sec ns : Nat) : Nat × State :=
  let add (s : State) (i : Inspection) : State := { s with insp := s.insp ++ [i] }
  if !inspTargetOk i.action i.page i.cell ∨ !pageOn s i.page ∨ 999999999 < ns then (5, s)
  else if underInsp s i then (4, s)
  else if 256 ≤ (s.insp.filter (fun j => j.phase == 0)).length then (4, s)
  else if inspOnline s i then (3, inspRun (add s i) i)
  else if i.windowed then
    if (tbAt s i.tb (now s) / (2 ^ 32 : Nat)).toNat ≥ i.inst then (7, s)
    else if windowClash s i ∨ 32 ≤ (s.insp.filter (fun j => j.phase == 0 && j.windowed)).length then (4, s)
    else match inspLift s with
      | none => (4, s)
      | some l =>
        let r := liftCommit s l (markRecord i.tb sec ns)
        if r.1 ≠ 0 then (4, s) else (2, add r.2 { i with lift := some l })
  else if i.force then
    if mayRun s i then (3, inspRun (outOfService (add s i) i) i) else (2, add s i)
  else if !inspLossless i then (4, s)
  else
    let r := prepStart s i
    if r.1 = 4 then (4, s) else (2, add r.2 { i with prep := r.1 == 0 })
/-- The body of a REQUEST. -/
def inspBody (id : Nat) (b : List Byte) : Inspection :=
  let n (o len : Nat) : Nat := leNat (slice b o len)
  { id := id, action := n 0 1, page := n 2 2, cell := n 4 2, force := (n 1 1).testBit 0, windowed := (n 1 1).testBit 1, tb := n 1 1 / 16
    inst := n 8 8 * 10 ^ 9 + n 16 4, len := n 20 4, deadline := n 24 4, param := n 28 4 }
def inspRequest (s : State) (b : List Byte) : List Nat × State :=
  let id := s.nextId % 65536
  let r := inspAccept { s with nextId := s.nextId + 1 } (inspBody id b) (leNat (slice b 8 8)) (leNat (slice b 16 4))
  ([id % 256, id / 256, r.1], r.2)
/-- A request leaves: its window's lift is cancelled, its target returns. -/
def inspLeave (s : State) (i : Inspection) : State :=
  let s := match i.lift with | some l => if liftLive s l then endLift s l 6 else s | none => s
  let s := if i.phase = 1 then testEnd s i 0 0 false else s
  dropInsp (if i.phase = 1 ∨ i.prep then backInService s i else s) i.id
/-- CANCEL: the result code, or none for an identifier that names no request. -/
def inspCancel (s : State) (id : Nat) : Option Nat × State :=
  match s.insp.find? (fun i => i.id == id) with
  | none => (none, s)
  | some i =>
    let code := if i.phase = 1 then 6 else 8
    (some code, inspResult (inspLeave s i) id code 0)

/-! ### Events -/

/-- INSPECT_PREPARED: a preparation is complete, or a window opens, and the action runs. [DEDUCED, log 104] -/
def inspPrepared (s : State) (id : Nat) : State :=
  match s.insp.find? (fun i => i.id == id && i.phase == 0) with
  | none => s
  | some i =>
    match i.lift with
    | some l =>
      if liftState s l ≠ 4 then s
      else if efld (liftStat s l) 7 4 ≠ 1 then inspResult (dropInsp s id) id 7 0
      else if !mayRun s i then s
      else inspRun (outOfService s i) i
    | none =>
      if !mayRun s i then s
      else if i.force then inspRun (outOfService s i) i
      else if !i.prep then
        let r := prepStart s i
        if r.1 = 4 then inspResult (dropInsp s id) id 4 0 else setInsp r.2 { i with prep := r.1 == 0 }
      else if prepReady s i then inspRun s i else s
/-- INSPECT_TEST_DONE: PASS returns the target, FAIL leaves it out and raises INSP source 1. -/
def inspDone (s : State) (id errors first : Nat) : State :=
  match s.insp.find? (fun i => i.id == id && i.phase == 1) with
  | none => s
  | some i =>
    let s := dropInsp (testEnd s i errors first true) id
    if errors = 0 then inspResult (backInService s i) id 0 0
    else inspResult (raise (if i.action = 7 ∨ i.action = 8 then setRecovery s else s) inspPage 1 0 i.cell) id 1 first
/-- INSPECT_DEADLINE: the window's length has passed, or the deadline has. [DEDUCED, log 104] -/
def inspLapse (s : State) (id : Nat) : State :=
  match s.insp.find? (fun i => i.id == id) with
  | none => s
  | some i =>
    if (i.phase = 1 ∧ i.windowed) ∨ i.deadline ≠ 0 then inspResult (inspLeave s i) id 6 0 else s

/-! ### Writes of the live test controls (R500) -/

/-- The requester that INSPECT or SPX is. [DEDUCED, log 105] -/
def mayTest (s : State) (r : Requester) : Bool :=
  match r with
  | .host => unlocked s
  | .spx => true
  | .engine k => (blkSvc s k.toNat == 0x0B && blkState s k.toNat == 3) || unlocked s
/-- A requester that runs actions itself writes the controls as plain registers. -/
def runsActions (s : State) (r : Requester) : Bool :=
  match r with
  | .host => false
  | .spx => true
  | .engine k => blkSvc s k.toNat == 0x0B && blkState s k.toNat == 3
/-- A write of a word of TEST_CTL0 to TEST_CTL3: `o` its offset. A changed action starts or stops its test at once. [DEDUCED, log 105] -/
def testWrite (s : State) (r : Requester) (page o : Nat) (v : Word) : State :=
  if rd s page o = v then s
  else if !mayTest s r then deny s
  else if o ≠ 0x050 ∨ runsActions s r then wr s page o v
  else
    let act := bitsOf v.toNat 4 0
    let cell := bitsOf v.toNat 23 8
    let old := fld s page o 4 0
    let s := wr s page o v
    if act = old then s
    else
      let s := forEach s (s.insp.filter (fun i => i.phase == 1 && i.page == page)) inspLeave
      if act = 0 ∨ !inspTargetOk act page cell then setFld (wr s page o v) page o 5 5 0
      else
        let i : Inspection := { id := s.nextId % 65536, action := act, page := page, cell := cell, force := true, param := (rd s page 0x054).toNat }
        inspRun (outOfService { s with nextId := s.nextId + 1, insp := s.insp ++ [i] } i) i

end Sys2Proof.Machine
end

