-- ==== Sys2Proof/Machine/ViewOps.lean ====
section
/-! DEFINITION. What a read shows of state that no stored register holds: the word of a register, or the image of a table
entry, computed from the machine at the moment of the read. -/

namespace Sys2Proof.Machine

/-! ### Common header (R43 to R47, R154, R156) -/

/-- The power state codes of R27. -/
def pwrCode (x : PwrState) : Nat := match x with | .off => 0 | .retain => 1 | .gated => 2 | .on => 3
/-- [5:4] state and [6] busy of a power domain, beside the stored request. [DEDUCED, log 9; DEDUCED, log 33] -/
def pwrView (s : State) (d stored : Nat) : Nat :=
  let x := domOf s d
  bitsOf stored 3 0 + (if 176 ≤ d then 3 else pwrCode x.st) * 16 + b2n (decide (d < 176) && x.going.isSome) * 64
/-- PG_STAT (R45). [DEDUCED, log 9; DEDUCED, log 33] -/
def statView (s : State) (p : Nat) : Nat :=
  let d := pageDom p
  b2n (idlePage s p) + b2n (drainedPage s p) * 2 + b2n (isolated s p) * 4 + b2n (held s p) * 8 + b2n (bitAt s p 0x048 1) * 16 +
  b2n (bitAt s p 0x014 5) * 32 + b2n (inReset s p) * 64 + (if 176 ≤ d then 3 else pwrCode (domOf s d).st) * 256
/-- The banked state of a page, where it has any. -/
def pageBank (s : State) (p : Nat) : Option Bank :=
  match kindOf p with
  | some .rul | some .fplRul | some .mtr | some .fplMtr | some .gat => some (bankOfPage s p)
  | _ => none
/-- PG_EPOCH (R45, R154). -/
def epochView (s : State) (p : Nat) : Nat :=
  match pageBank s p with
  | none => 0
  | some b => b.epoch % 65536 + b.active % 2 * 65536 + b2n (b.retiring || bankTested s p) * 131072
/-- In-flight counter of the falsework bank (R163, R270). -/
def inflightView (b : Bank) : Nat := min (if b.active = 0 then b.inflight1 else b.inflight0) 65535

/-! ### Units -/

/-- 96 summary bits of a region as a number (R68). -/
def regionSummary (s : State) (r : Nat) : Nat := (((summaries s).filter (fun b => b / 128 == r)).eraseDups.map (fun b => 2 ^ (b % 128))).sum
/-- A number's low or high word at a 64-bit register that begins at `lo`. -/
def half (o lo v : Nat) : Nat := if o = lo then v % 2 ^ 32 else v / 2 ^ 32 % 2 ^ 32
/-- F clipped to a field (R206). -/
def natOf (i : Int) : Nat := i.toNat
/-- Classes of a port with a frame in their queue, and classes that divert to custody (R267). -/
def classMask (f : Nat → Bool) : Nat := ((List.range 8).map (fun c => if f c then 2 ^ c else 0)).sum
/-- [DEDUCED, log 13] -/
def tmStat (s : State) (port : Nat) : Nat :=
  portQ s port + classMask (fun c => !(queueOf s (qIdx port c)).frames.isEmpty) * 256 +
  classMask (fun c => marked s (qIdx port c) && (cqOf s (qIdx port c)).st != 0) * 65536
/-- GAT_STAT (R269). -/
def gatStat (s : State) (port : Nat) : Nat :=
  match portGates s port with
  | none => 0xFF
  | some g => if gatesRun s port then gatesNow s port + gateIndex g.intervals 0 (gatePhase s g (now s)) % 256 * 256 + 65536 else 0xFF
/-- The valid entries of an LPM store (R199). -/
def lpmCount (s : State) (k : Nat) (v6 : Bool) : Nat := (lpmListed s k v6).length
/-- Groups as a bit mask (R227). -/
def groupMask (l : List Nat) : Nat := (l.eraseDups.map (fun g => 2 ^ g)).sum
/-- Reported events of a swap register: its guard bit is the bank's (R156). -/
def swapView (stored : Nat) (b : Bank) : Nat :=
  bitsOf stored 1 1 * 2 + b2n b.guard * 4 + bitsOf stored 3 3 * 8
/-- The part of a busy trigger that reads 1 (R184, R421, R468, R542). -/
def busyBit (stored : Nat) (busy : Bool) : Nat := stored % 2 ^ 31 + b2n busy * 2 ^ 31

/-- The block registers of a page, at offset `o`, from the stored word `w`. -/
def blockView (s : State) (p : Nat) (i : PageInfo) (o w : Nat) : Nat :=
  match i.kind with
  | .header =>
    let d := regionDomains i.region
    if 0x100 ≤ o ∧ o < 0x200 ∧ (o - 0x100) / 4 < d.2 then pwrView s (d.1 + (o - 0x100) / 4) w
    else if 0x200 ≤ o ∧ o < 0x20C then regionSummary s i.region / 2 ^ (8 * (o - 0x200)) % 2 ^ 32
    else w
  | .pwr =>
    if o = 0x110 then rising s % 16 + min (waitingDoms s).length 255 * 256
    else if 0x120 ≤ o ∧ o ≤ 0x134 then
      ((List.range 32).map (fun b => let d := 8 * (o - 0x120) + b; if d < 178 ∧ domOn s d then 2 ^ b else 0)).sum
    else w
  | .intc => if o = 0x100 then ((List.range 10).map (fun r => if (heardSums s).any (fun b => b / 128 == r) then 2 ^ r else 0)).sum else w
  | .insp =>
    if o = 0x11C then min (s.insp.filter (fun j => j.phase == 0)).length 511 + min (s.insp.filter (fun j => j.phase == 1)).length 511 * 65536
    else w
  | .injUnlock => if o = 0x10C then w % 2 ^ 24 + minutesLeft s % 64 * 2 ^ 24 else w
  | .sec => if o = 0x100 then busyBit w s.boot.cmd.isSome else w
  | .fuse => if o = 0x100 ∨ o = 0x104 then half o 0x100 Config.serial.toNat else w
  | .bpm =>
    if o = 0x100 then (w &&& 0xB) + b2n (fenceActive s) * 4 + b2n (pushout s) * 16
    else if o = 0x104 then natOf (freeShared s .granules)
    else if o = 0x108 then avail s .granules
    else if o = 0x118 then groupMask s.gran.fencedGroups + groupMask s.gran.fencing * 65536
    else if 0x1C0 ≤ o ∧ o < 0x200 then usageOf s .granules ((o - 0x1C0) / 4) else w
  | .ppm =>
    if o = 0x100 then w % 2 + (if ppmReady s then groupMask (channels s) * 65536 else 0)
    else if o = 0x108 ∨ o = 0x10C then half o 0x108 (if ppmReady s then natOf (freeShared s .pages) else 0)
    else if o = 0x110 ∨ o = 0x114 then half o 0x110 (if ppmReady s then avail s .pages else 0)
    else if o = 0x118 ∨ o = 0x11C then half o 0x118 (if ppmReady s then usable s else 0)
    else if 0x180 ≤ o ∧ o < 0x200 then half (o % 8) 0 (usageOf s .pages ((o - 0x180) / 8)) else w
  | .tms => if o = 0x104 then tmStat s i.sub else w
  | .sch => if 0x140 ≤ o ∧ o < 0x1C0 ∧ o % 16 = 12 then unsignedOf 32 ((queueOf s (qIdx i.sub ((o - 0x140) / 16))).credit / 1228800000) else w
  | .gat => if o = 0x104 then swapView w (gatBank s i.sub) else if o = 0x108 then gatStat s i.sub else w
  | .rul =>
    let b := (pipeOf s i.region).rul
    if o = 0x120 then swapView w b else if o = 0x124 then inflightView b else w
  | .fplRul =>
    let b := (pipeOf s 4).rul
    if o = 0x120 then swapView w b else if o = 0x124 then inflightView b
    else if o = 0x10C then w / 1024 * 1024 + min (pipeOf s 4).recirc.length 1023 else w
  | .prs => if o = 0x10C then w / 1024 * 1024 + min (pipeOf s i.region).recirc.length 1023 else w
  | .mtr | .fplMtr =>
    let b := (pipeOf s (pipeOfPage p)).mtr
    if o = 0x100 then swapView w b else if o = 0x104 then inflightView b else w
  | .ipl =>
    if o = 0x100 then b2n (domOn s (12 * i.region + 10)) + b2n (domOn s (12 * i.region + 11)) * 2 + (w &&& 0xC)
    else w
  | .fdb | .fplFdb =>
    let x := pipeOf s (pipeOfPage p)
    if o = 0x10C then busyBit w !x.flushes.isEmpty
    else if o = 0x128 then w / 8192 * 8192 + min x.events.length 8191
    else if o = 0x12C then x.bucket % 65536 + b2n x.ageing * 65536 + b2n (!x.flushes.isEmpty) * 131072 else w
  | .lpm | .fplLpm =>
    if o = 0x118 then lpmCount s (pipeOfPage p) false else if o = 0x11C then lpmCount s (pipeOfPage p) true else w
  | .cst =>
    if o = 0x104 then (w - bitsOf w 2 2 * 4) + b2n (!tbValid s 0) * 4
    else if o = 0x108 ∨ o = 0x10C then half o 0x108 (usageOf s .pages 4)
    else if o = 0x110 ∨ o = 0x114 then half o 0x110 ((s.cqueues.map (fun e => e.2.records.length)).sum +
      (s.queues.map (fun e => if marked s e.1 then (e.2.frames.filter (fun f => f.place == .dram)).length else 0)).sum)
    else if o = 0x130 ∨ o = 0x134 then half o 0x130 (match s.cust.draining with | some k => heldOn s k | none => 0)
    else w
  | .tbs => if o = 0x114 then ((List.range 16).map (fun k => b2n (tbValid s k) * 2 ^ k)).sum else w
  | .tb => if o = 0x144 then unsignedOf 32 (slewLeftNs s i.sub) else w
  | .bsc => if o = 0x104 then bscStat s else w
  | .svc => if o = 0x104 then busyBit w (match s.svcOp with | some (.load _ _) => true | _ => false) else w
  | .emb => if o = 0x100 then min s.embHold.length 2047 else w
  | .dma =>
    if o = 0x104 then busyBit w s.scratchNew.isSome
    else if 0x140 ≤ o ∧ o < 0x240 ∧ o % 16 = 4 then chanStat s ((o - 0x140) / 16) else w
  | .pci => if o = 0x100 then s.pcie.speed + s.pcie.width * 16 + b2n s.pcie.bme * 65536 + b2n s.pcie.d3hot * 131072 else w
  | _ => w

/-- Reads whose value the spec leaves to the moment: a share of the last millisecond. [DESIGN CHOICE, log 29] -/
def freeBits (p o : Nat) : Option (Nat × Nat) :=
  match kindOf p, o with
  | some .ipl, 0x100 => some (8, 8)
  | some .ebk, 0x11C => some (0, 8)
  | _, _ => none

/-- The word that a read of the register at offset `o` of page `p` finds. [DESIGN CHOICE, log 30] -/
def view (s : State) (p o : Nat) : Word :=
  let w := (rd s p o).toNat
  match pageInfo p with
  | none => 0
  | some i => BitVec.ofNat 32 (
    if o = 0x00C then pwrView s i.domain w
    else if o = 0x010 then w - bitsOf w 3 3 * 8 + b2n (inReset s p) * 8
    else if o = 0x014 then statView s p
    else if o = 0x018 then epochView s p
    else if o < 0x100 then w
    else blockView s p i o w)
/-- `view`, with the bits that are free values drawn anew, and the unused slots of IPL_IDLE counted up to now. [DESIGN CHOICE, log 29] -/
def look (s : State) (p o : Nat) : Word × State :=
  let s := if kindOf p = some .ipl ∧ o = 0x10C then settleIdle s (pipeOfPage p) else s
  match freeBits p o with
  | none => (view s p o, s)
  | some (lo, n) =>
    let r := fresh s
    (BitVec.ofNat 32 (withBits (view s p o).toNat (lo + n - 1) lo r.1), r.2)

/-! ### Table entries -/

/-- The image of a granule or page record (R204). -/
def bufRecord (b : Buf) : Nat :=
  (match b.st with | .free => 0 | .held => 1 | .released => 2 | .fenced => 3) + b.owner % 16 * 4 + b.refs % 512 * 64 + b2n b.bad * 2 ^ 15
/-- The next field of a page record, all ones at the end of a list. -/
def pageNext (b : Buf) : Nat := b.next % 2 ^ 30
/-- The descriptor of a page of a channel; metadata pages read FENCED with owner 15 (R203, R204). -/
def pageRecord (s : State) (idx : Nat) : Nat :=
  if poolRows s (idx % 16) ≤ idx / 16 then 3 + 15 * 4
  else
    let b := bufOf s .pages idx
    bufRecord b + pageNext b * 2 ^ 16 + b.gen % 256 * 2 ^ 46
/-- Token state of a meter at this moment (R254, R255): full until its first use. -/
def meterState (s : State) (k idx : Nat) : Nat :=
  let pg := mtrPage k
  let cfg := (tget s pg 0 (pipeOf s k).mtr.active idx).toNat
  let cbs := bitsOf cfg 60 37
  let ebs := bitsOf cfg 116 93
  let last := mapGet (fun _ => 0) s.mtrLast (mtrKey k idx)
  let st := tget s pg 1 0 idx
  if last = 0 then cbs + ebs * 2 ^ 24
  else
    let unit := b2n (bitOf cfg 3)
    let c0 := efld st 23 0 + meterFill unit (bitsOf cfg 36 5) (last - 1) (now s)
    let c := min c0 cbs
    let e0 := efld st 47 24 + (if bitsOf cfg 1 0 = 1 then c0 - c else meterFill unit (bitsOf cfg 92 61) (last - 1) (now s))
    c + min e0 ebs * 2 ^ 24
/-- State of a queue (R228). -/
def queueRecord (s : State) (q : Nat) : Nat :=
  qGran s q + (queuePages s q).eraseDups.length % 2 ^ 28 * 2 ^ 20 + b2n (inSpill s q) * 2 ^ 48
/-- State of a custody queue (R301): its pages and records, those of OVERFLOW included (R279). -/
def custodyRecord (s : State) (q : Nat) : Nat :=
  let c := cqOf s q
  c.st % 8 + b2n c.pendingEn.isSome * 8 + (if marked s q then (queuePages s q).length % 2 ^ 30 * 16 else 0) +
  cqRecords s q % 2 ^ 64 * 2 ^ 64
/-- A sequence space of a span link (R337). -/
def spaceRecord (s : State) (l c : Nat) : Nat :=
  let x := spaceOf s l c
  x.una.toNat + x.nxt.toNat * 2 ^ 32 + x.rcvCum.toNat * 2 ^ 64 +
  (((x.sent.filterMap (fun e => e.frame)).map granulesOf).sum % 2 ^ 20) * 2 ^ 96
/-- What a window read finds in an entry: `bank` 1 of a counter table is its snapshot (R476). -/
def entryView (s : State) (p sel bank idx : Nat) : Entry :=
  match pageInfo p with
  | none => 0
  | some i =>
    let e := tget s p sel bank idx
    match i.kind, sel with
    | .msec, 1 => esetFld (saEntry s i.region (idx / 2) (idx % 2)) 255 0 0
    | .mtr, 1 => BitVec.ofNat 1920 (meterState s i.region idx)
    | .fplMtr, 1 => BitVec.ofNat 1920 (meterState s 4 idx)
    | .bpm, 1 => BitVec.ofNat 1920 (queueRecord s idx)
    | .spnLink, 0 => BitVec.ofNat 1920 (spaceRecord s i.sub idx)
    | .ppm, 0 => BitVec.ofNat 1920 (pageRecord s idx)
    | .ppm, 1 => BitVec.ofNat 1920 (let b := bufOf s .pages idx; pageNext b + b2n (b.st != .free) * 2 ^ 31)
    | .cst, 2 => BitVec.ofNat 1920 (custodyRecord s idx)
    | k, _ =>
      if k.snap ∧ bank = 1 ∧ ((tabDesc k sel).map (fun d => d.counter)).getD false then mapGet (fun _ => 0) s.snaps (tabKey p sel 0 idx)
      else e

end Sys2Proof.Machine
end

