-- ==== Sys2Proof/Machine/TabOps.lean ====
section
/-! DEFINITION. The indirect windows (R63 to R65): what a command is refused for, its effect on the table when it completes,
and counter snapshots (R475, R476). -/

namespace Sys2Proof.Machine

/-! ### The command and its refusals (R64) -/

/-- Index, select and bank that TBL_ADDR names; the PPM page's index has its upper bits in PPM_WIN_HI (R230). -/
def tblIndex (s : State) (p a : Nat) : Nat := a % 2 ^ 24 + (if kindOf p = some .ppm then fld s ppmPage 0x104 5 0 * 2 ^ 24 else 0)
def tblSel (a : Nat) : Nat := a / 2 ^ 24 % 16
def tblBank (a : Nat) : Nat := a / 2 ^ 28 % 2
def descOf (p sel : Nat) : Option TabDesc := (kindOf p).bind (fun k => tabDesc k sel)
/-- The bank of a page's counter tables selects the snapshot (R476). -/
def isSnap (p bank : Nat) (d : TabDesc) : Bool := d.counter && bank == 1 && ((kindOf p).map PageKind.snap).getD false
/-- The bank that a command acts in: 0 for a table without banks. -/
def bankUsed (p bank : Nat) (d : TabDesc) : Nat := if d.banked || isSnap p bank d then bank else 0
/-- The index lies in the table. -/
def indexOk (s : State) (p idx : Nat) (d : TabDesc) : Bool :=
  if kindOf p = some .ppm then decide (idx / 16 < rowsOf s (idx % 16)) else decide (idx < d.n)
/-- The list header is out of range (R248, R258); `most` is the greatest length. -/
def headerBad (e : Entry) (most : Nat) : Bool := decide (efld e 127 96 < 1000) || efld e 136 128 == 0 || decide (most < efld e 136 128)
/-- The image is one that the owning chapter refuses (R190, R248, R258, R482). -/
def imageBad (p sel idx : Nat) (e : Entry) : Bool :=
  match kindOf p, sel with
  | some .gat, 1 => headerBad e 256
  | some .gat, 0 => decide (efld e 39 8 < 32)
  | some .mtr, 3 | some .fplMtr, 3 => headerBad e 64
  | some .mtr, 4 | some .fplMtr, 4 => decide (efld e 36 5 < 32)
  | some .lpm, 2 | some .fplLpm, 2 =>
    let line := kindOf p == some .lpm
    let v6 := decide (64 ≤ idx)
    let buckets := if line then (if v6 then 49152 else 98304) else if v6 then 2048 else 4096
    idx == 0 || (decide (32 < idx) && decide (idx < 65)) || decide (192 < idx) || decide (16 < efld e 21 17) ||
      decide (buckets < efld e 16 0 + 2 ^ efld e 21 17)
  | some .mir, 0 => idx == 0
  | _, _ => false
/-- An entry in use that a write may not touch: cause 2 (R64, R97, R157, R376, R506). -/
def entryActive (s : State) (p sel bank idx : Nat) (d : TabDesc) : Bool :=
  match kindOf p with
  | some .msec =>
    let c := tget s p 0 0 (idx / 2)
    sel == 1 && ebit c 127 && ebit c 68 && efld c 78 78 == idx % 2
  | some .bsc => sel == 0 && liftLive s idx
  | some .fw => fwState s != 0
  | some .rul | some .fplRul =>
    d.banked && bank == (bankOfPage s p).active && !(pipeOf s (pipeOfPage p)).failed.contains (tabKey p sel bank idx)
  | _ => d.banked && (pageBank s p).any (fun b => b.active == bank)
/-- The falsework bank refuses writes: it retires, is in guard or under test (R64, R156, R499). -/
def entryBusy (s : State) (p bank : Nat) (d : TabDesc) : Bool :=
  d.banked && (pageBank s p).any (fun b => b.active != bank && (b.retiring || b.guard || bankTested s p))
/-- Why a command is refused; 0 where it is taken. An invalidate is refused for causes 1 to 3 or for its index alone. [DEDUCED, log 24; DEDUCED, log 25] -/
def tblCause (s : State) (p op a : Nat) (e : Entry) : Nat :=
  match descOf p (tblSel a) with
  | none => if bitAt s p 0xF08 0 then 1 else 4
  | some d =>
    let sel := tblSel a
    let idx := tblIndex s p a
    let bank := bankUsed p (tblBank a) d
    let snap := isSnap p bank d
    if bitAt s p 0xF08 0 ∨ (op = 1 ∧ snap ∧ bitAt s p 0x064 0) then 1
    else if op = 0 ∨ 3 < op ∨ !indexOk s p idx d then 4
    else if op = 1 then 0
    else if entryActive s p sel bank idx d then 2
    else if entryBusy s p bank d then 3
    else if op = 2 ∧ (d.ro || snap || imageBad p sel idx e || (kindOf p == some .bsc && sel == 0 && ebit e 383 && liftBad s idx e)) then 4
    else 0
/-- A refusal: TBL_STAT and source 30. -/
def tblRefuse (s : State) (p cause : Nat) : State := raise (setFld (setBit s p 0xF08 2 true) p 0xF08 5 3 cause) p 30 0 cause

/-- TBL_DATA as an entry image. -/
def tblData (s : State) (p : Nat) : Entry :=
  BitVec.ofNat 1920 (((List.range 60).map (fun i => (rd s p (0xF10 + 4 * i)).toNat * 2 ^ (32 * i))).sum)
/-- A write to TBL_CMD: TBL_ADDR and TBL_DATA are latched, and an entry of several table words loses its valid bit first. -/
def tblGo (s : State) (p op : Nat) : State :=
  let a := (rd s p 0xF00).toNat
  let e := tblData s p
  let c := tblCause s p op a e
  if c ≠ 0 then tblRefuse s p c
  else
    let s := setBit { s with tblCmd := mapSet (fun _ => none) s.tblCmd p (some { op := op, addr := a, data := e }) } p 0xF08 0 true
    match descOf p (tblSel a) with
    | some { valid := some v, n := _, width := _, banked := _, ro := _, single := _, counter := _ } =>
      let sel := tblSel a
      let bank := if (descOf p sel).any (fun d => d.banked) then tblBank a else 0
      if op = 1 ∨ (descOf p sel).any (fun d => d.ro || isSnap p (tblBank a) d) then s else tset s p sel bank (tblIndex s p a) (esetFld (tget s p sel bank (tblIndex s p a)) v v 0)
    | _ => s

/-! ### Completion -/

/-- The counts of an LPM length that reach 15 stay there (R191). -/
def lpmNote (s : State) (k : Nat) (v6 : Bool) (len pre : Nat) : State :=
  let mine := ((lpmListed s k v6).filter (fun e => e.2.1 == len)).map (fun e => filterIdx (lpmFold v6 e.2.2 len))
  let f := filterIdx (lpmFold v6 pre len)
  forEach s [f.1, f.2] (fun s i =>
    let n := (mine.map (fun g => b2n (g.1 == i) + b2n (g.2 == i))).sum
    if n < 15 then s else { s with lpmStuck := mapSet (fun _ => 0) s.lpmStuck (((k * 2 + b2n v6) * 256 + len) * 16384 + i) 1 })
/-- An LPM entry: bits below its length are stored as 0 (R190). [DEDUCED, log 27] -/
def lpmImage (v6 : Bool) (e : Entry) : Entry :=
  if v6 then esetFld e 127 0 (prefixOf 128 (efld e 127 0) (min 128 (efld e 135 128)))
  else esetFld e 31 0 (prefixOf 32 (efld e 31 0) (min 32 (efld e 37 32)))
/-- R185: a window write that takes a learned entry away, or puts another key or origin in its place, is its delete. -/
def fdbReplaced (s : State) (k idx : Nat) (e : Entry) : State :=
  let old := fdbAt s k idx
  if ebit old 127 && !(ebit e 127 && efld e 59 0 == efld old 59 0 && efld e 63 62 == efld old 63 62) then deleteEvent s k old else s
/-- An entry is written, with what its table does besides; false where the owner refuses it after all. -/
def entryPut (s : State) (p sel bank idx : Nat) (e : Entry) : Bool × State :=
  match kindOf p, sel with
  | some .bsc, 0 => let r := liftCommit s idx e; (r.1 == 0, r.2)
  | some .fdb, 0 | some .fplFdb, 0 => (true, mendEntry (fdbWrite (fdbReplaced s (pipeOfPage p) idx e) (pipeOfPage p) idx e) p sel bank idx)
  | some .lpm, 0 | some .fplLpm, 0 =>
    let e := lpmImage false e
    let s := mendEntry (tset s p sel bank idx e) p sel bank idx
    (true, if ebit e 63 then lpmNote s (pipeOfPage p) false (efld e 37 32) (efld e 31 0) else s)
  | some .lpm, 1 | some .fplLpm, 1 =>
    let e := lpmImage true e
    let s := mendEntry (tset s p sel bank idx e) p sel bank idx
    (true, if ebit e 191 then lpmNote s (pipeOfPage p) true (efld e 135 128) (efld e 127 0) else s)
  | some .cst, 0 => (true, custodyEnWritten (tset (if (cqOf s idx).st = 4 then setCq s idx (fillBucket s idx) else s) p sel bank idx e) idx)
  | some .rul, _ | some .fplRul, _ | some .mtr, _ | some .fplMtr, _ | some .fdb, _ | some .fplFdb, _ | some .lpm, _
  | some .fplLpm, _ | some .rep, _ => (true, mendEntry (tset s p sel bank idx e) p sel bank idx)
  | _, _ => (true, tset s p sel bank idx e)
/-- An entry's image goes to TBL_DATA. [DEDUCED, log 26] -/
def tblShow (s : State) (p width : Nat) (e : Entry) : State :=
  forEach s (List.range (ceilDiv width 32)) (fun s i => wr s p (0xF10 + 4 * i) (BitVec.ofNat 32 (e.toNat / 2 ^ (32 * i))))
/-- The window command of a page runs (R64); a read of a failed entry reports it (R157). [DEDUCED, log 25] -/
def tblRun (s : State) (p : Nat) (c : TblCmd) : State :=
  match descOf p (tblSel c.addr) with
  | none => s
  | some d =>
    let sel := tblSel c.addr
    let idx := tblIndex s p c.addr
    let bank := bankUsed p (tblBank c.addr) d
    if c.op = 1 then
      let s := if s.tabBad.contains (tabKey p sel bank idx) then reportEntry s (tabKey p sel bank idx) else s
      tblShow s p d.width (entryView s p sel bank idx)
    else if d.ro || isSnap p (tblBank c.addr) d then s
    else
      let r := entryPut s p sel bank idx (if c.op = 3 then 0 else BitVec.ofNat 1920 (c.data.toNat % 2 ^ d.width))
      if r.1 then r.2 else tblRefuse r.2 p 2
/-- TBL_CMD_DONE. -/
def tblDone (s : State) (p : Nat) : State :=
  match mapGet (fun _ => none) s.tblCmd p with
  | none => s
  | some c =>
    let s := { s with tblCmd := mapSet (fun _ => none) s.tblCmd p none }
    tblRun (setBit (setBit s p 0xF08 0 false) p 0xF08 1 true) p c

/-! ### Snapshots (R475, R476) -/

/-- A key of a live counter entry of page `p`. -/
def counterKey (p key : Nat) : Bool := keyPage key == p && (descOf p (keySel key)).any (fun d => d.counter)
/-- The page's counters are captured, and cleared where `clear` says so; false while a snapshot is busy (R47). [DEDUCED, log 28] -/
def snapGo (s : State) (p : Nat) (clear : Bool) : Bool × State :=
  if bitAt s p 0x064 0 then (false, setBit s p 0x064 2 true)
  else
    let l := s.tabs.filter (fun e => counterKey p e.1)
    let s := { s with snaps := s.snaps.filter (fun e => keyPage e.1 != p) }
    let s := forEach s l (fun s e => { s with snaps := mapSet (fun _ => 0) s.snaps e.1 e.2 })
    let s := if clear then { s with tabs := s.tabs.filter (fun e => !counterKey p e.1) } else s
    (true, setBit (wr64 s p 0xEF8 (now s % 2 ^ 64)) p 0x064 0 true)
/-- SNAPSHOT_DONE. [DEDUCED, log 28] -/
def snapEnd (s : State) (p : Nat) : State :=
  if bitAt s p 0x064 0 then setBit (setBit s p 0x064 0 false) p 0x064 1 true else s

/-! ### Swaps of banked tables (R156, R253, R256) -/

/-- The swap register's offset, and the sources of a swap made and a swap refused. -/
def swapReg (p : Nat) : Nat × Nat × Nat :=
  match kindOf p with
  | some .rul | some .fplRul => (0x120, 4, 5)
  | some .gat => (0x104, 0, 1)
  | _ => (0x100, 3, 4)
/-- The bank of a banked page is replaced. -/
def putBank (s : State) (p : Nat) (b : Bank) : State :=
  match kindOf p with
  | some .rul | some .fplRul => let k := pipeOfPage p; setPipe s k { pipeOf s k with rul := b }
  | some .gat => setGat s (p % 4096 - 0x300) b
  | _ => let k := pipeOfPage p; setPipe s k { pipeOf s k with mtr := b }
/-- Octets that a frame puts on the wire up to its last bit, preamble first; one whose end has not come is judged on its ingress
port's max_frame. [DESIGN CHOICE, log 156] -/
def wireOctets (s : State) (port : Nat) (t : Tx) : Nat :=
  8 + if t.qf.frame.complete then t.wire.length + 4 else maxFrame s t.qf.frame.ingress + macsecBytes s port t.qf.frame.bytes
/-- A frame that began under the old gate list runs into a closed gate (R253). [DESIGN CHOICE, log 156] -/
def gateOverrun (s : State) (p : Nat) : State :=
  if kindOf p ≠ some .gat then s
  else
    let port := p % 4096 - 0x300
    match (eportOf s port).tx, portGates s port with
    | some t, some g =>
      let c := qTc t.queue
      let r := portKbps s port
      let lasts := wireOctets s port t * 8 * 1000000 * 1536 * 2 ^ 32
      let closes (n : Nat) : Bool :=
        decide ((n * 2 ^ 32 - gateTick s g (now s) % 2 ^ 32) * r * 1536 + (now s - t.startBc) * 10 * r * 2 ^ 32 < lasts)
      let open' := (gatesNow s port).testBit c
      if gatesRun s port ∧ (!open' ∨ (openFor (portSpans s port g) c (gatePhase s g (now s))).any closes) then
        raise (inc (countReason s 5 0x8D) p 0x110) p 3 0x8D
      else s
    | _, _ => s
/-- The swap itself: a window command in progress finishes first. -/
def swapMade (s : State) (p : Nat) : State :=
  let s := tblDone s p
  let s := match kindOf p with
    | some .gat => creditTick s (p % 4096 - 0x300)
    | some .mtr | some .fplMtr => settleMeters s (pipeOfPage p)
    | _ => s
  let r := swapReg p
  let b := (bankOfPage s p).swap
  let s := putBank s p (if kindOf p = some .gat then { b with retiring := (eportOf s (p % 4096 - 0x300)).tx.isSome } else b)
  raise (setBit (gateOverrun s p) p r.1 3 true) p r.2.1
/-- A swap is refused. -/
def swapRefused (s : State) (p : Nat) : State :=
  let r := swapReg p
  raise (setBit s p r.1 1 true) p r.2.2
/-- RUL_SWAP.go, MTR_SWAP.go or GAT_SWAP.go: refused while the falsework bank retires or is in guard. [DEDUCED, log 64] -/
def swapGo (s : State) (p : Nat) : State :=
  let b := bankOfPage s p
  if b.retiring ∨ b.guard then swapRefused s p else swapMade s p

end Sys2Proof.Machine
end

