-- ==== Sys2Proof/Machine/AccOps.lean ====
section
/-! DEFINITION. The rules every register access obeys (R40, R42, R49 to R62, R65): who reaches what, what an access is
refused for and what is logged, the shadows of 64-bit registers, configuration parity, and what a read or a write does to the
word itself. -/

namespace Sys2Proof.Machine

/-! ### Requesters and the access log (R41, R53, R54) -/

/-- Requester ID (R41). -/
def regId (r : Requester) : Nat := match r with | .host => 0 | .spx => 1 | .engine k => 0x40 + k.toNat
/-- The requester can issue accesses now: its own unit runs. [DESIGN CHOICE, log 21] -/
def reach (s : State) (r : Requester) : Bool :=
  s.mode == .run && (match r with
    | .host => s.pcie.linkUp && !s.pcie.d3hot && domOn s 170
    | .spx => domOn s 172
    | .engine k => blkOn s k.toNat)
/-- The address of a word of a page. -/
def wordAddr (p o : Nat) : Nat := p * 4096 + o
/-- An access event (R54). While HST.INTC's domain is not ON nothing is logged or counted; ACC_CNT saturates. [DESIGN CHOICE, log 127] -/
def logAcc (s : State) (kind id addr : Nat) : State :=
  if !domOn s 173 then s
  else
    let s := inc s intcPage 0x10C
    if bitAt s intcPage 0x104 0 then setBit s intcPage 0x104 4 true
    else wr (setFld (setFld s intcPage 0x104 3 0 (1 + 2 * kind)) intcPage 0x104 15 8 id) intcPage 0x108 (BitVec.ofNat 32 addr)
/-- A shadow miss (R51, R54). -/
def logMiss (s : State) (id addr : Nat) : State :=
  if !domOn s 173 then s
  else if bitAt s intcPage 0x110 0 then setBit s intcPage 0x110 1 true
  else wr (setFld (setBit s intcPage 0x110 0 true) intcPage 0x110 15 8 id) intcPage 0x114 (BitVec.ofNat 32 addr)

/-- The size that counts under R40: a request with a byte enable clear is of no accepted size. -/
def enabled (size : Nat) (enables : Bool) : Nat := if enables then size else 0
/-- A page of a privileged block (R61). -/
def privPage (p : Nat) : Bool := ((kindOf p).map PageKind.privileged).getD false
/-- The page answers: its domain is ON, and HST answers no engine while it is reset. -/
def answers (s : State) (r : Requester) (p : Nat) : Bool :=
  pageOn s p && !(p / 4096 == 8 && s.resets.contains (.region 8) && (match r with | .engine _ => true | _ => false))
/-- The kind of event that an access of `size` bytes to BAR0 offset `a` ends in; 0 where it goes through (R54). Where several kinds
apply, the first of 5, 3, 1, 4 is logged. [DESIGN CHOICE, log 128] -/
def accKind (s : State) (r : Requester) (a size : Nat) : Nat :=
  let p := a / 4096
  let engine : Bool := match r with | .engine _ => true | _ => false
  if ¬(size = 4 ∨ size = 8) ∨ a % size ≠ 0 then 5
  else if (pageInfo p).isNone then 3
  else if !answers s r p then 1
  else if privPage p ∧ (engine ∨ (regRow p (a % 4096)).isNone ∨ (size = 8 ∧ (regRow p (a % 4096 + 4)).isNone)) then 4
  else 0
/-- An engine of a block abandons the message it handles, the block's oldest; it completes with status 0x05 (R400). [DESIGN CHOICE, log 151] -/
def abandonHand (s : State) (b : Nat) : State :=
  match takeFirst (fun h => h.block == b) s.inHand with
  | none => s
  | some (h, rest) => showEngine (respond { s with inHand := rest } h.msg h.index 5 []) b h.engine
/-- A bus error (R61): the host's write is answered by ERR_NONFATAL, its read by Completer Abort. [DESIGN CHOICE, log 22] -/
def busError (s : State) (r : Requester) (write : Bool) : State :=
  match r with
  | .host => if write then errNonfatal { s with resp := .done } else { s with resp := .completerAbort }
  | .engine k =>
    let p := ebkPage k.toNat
    abandonHand (raise (inc { s with resp := .busError } p 0x118) p 2) k.toNat
  | .spx => { s with resp := .busError, boot := { s.boot with cmd := s.boot.cmd.map (fun c => { c with busError := true }) } }
/-- An access that does not go through: what its requester gets, and the log. [DEDUCED, log 20] -/
def refuseAcc (s : State) (r : Requester) (kind a : Nat) (write : Bool) (size : Nat := 4) : State :=
  let s := logAcc s kind (regId r) a
  if kind = 4 then busError s r write
  else if write then { s with resp := .done }
  else if kind = 5 ∨ kind = 7 then { s with resp := .completerAbort }
  else { s with resp := .value (BitVec.ofNat 64 (2 ^ (8 * size) - 1)) }

/-! ### Configuration parity (R58, R59) -/

/-- A word holds RW or RWS fields. -/
def hasConfig (p o : Nat) : Bool := match regRow p o with | none => false | some r => r.rw + r.rws != 0
/-- A word is checked. [DESIGN CHOICE, log 129] -/
def parCheck (s : State) (p o : Nat) : State :=
  if hasConfig p o && s.parBad.contains (p * 1024 + o / 4) then
    let s := if bitAt s p 0x048 1 then setBit s p 0x048 2 true else setFld (setBit s p 0x048 1 true) p 0x048 13 4 (o / 4)
    raise s p 31
  else s
/-- The background scan of a page, in word order. [DESIGN CHOICE, log 129] -/
def parScan (s : State) (p : Nat) : State :=
  if pageOn s p && bitAt s p 0x048 0 then
    forEach s (s.parBad.filter (fun k => k / 1024 == p)) (fun s k => parCheck s p (k % 1024 * 4))
  else s
/-- A number put into a rising list. -/
def putRising (k : Nat) : List Nat → List Nat
  | [] => [k]
  | j :: l => if k ≤ j then k :: j :: l else j :: putRising k l
/-- CFG_PAR_INJ: the stored parity of a word is inverted. -/
def parInject (s : State) (p w : Nat) : State :=
  let k := p * 1024 + w
  if !hasConfig p (4 * w) then s
  else { s with parBad := if s.parBad.contains k then s.parBad.erase k else putRising k s.parBad }

/-! ### Reading a word -/

/-- The shadow of a requester for a region. -/
def shadowKey (id p : Nat) : Nat := id * 16 + p / 4096
def rdShadowOf (s : State) (id p : Nat) : Option (Nat × Word) := mapGet (fun _ => none) s.rdShadow (shadowKey id p)
def setRdShadow (s : State) (id p : Nat) (x : Option (Nat × Word)) : State :=
  { s with rdShadow := mapSet (fun _ => none) s.rdShadow (shadowKey id p) x }
def wrShadowOf (s : State) (id p : Nat) : Option (Nat × Word) := mapGet (fun _ => none) s.wrShadow (shadowKey id p)
def setWrShadow (s : State) (id p : Nat) (x : Option (Nat × Word)) : State :=
  { s with wrShadow := mapSet (fun _ => none) s.wrShadow (shadowKey id p) x }
/-- The low word of a 64-bit register, and a high word. -/
def isLow (p o : Nat) : Bool := match regRow p o with | none => false | some r => r.wide
def isHigh (p o : Nat) : Bool := decide (4 ≤ o) && isLow p (o - 4)
/-- TBL_LOCK is read (R65). -/
def lockTake (s : State) (id p : Nat) : Word × State :=
  if rd s p 0xF0C = 0 then (0, wr s p 0xF0C (BitVec.ofNat 32 (0x100 + id))) else (rd s p 0xF0C, s)
/-- What a read removes or draws before its value is taken: a nonce, a captured edge. -/
def readPop (s : State) (p o : Nat) : State :=
  match kindOf p with
  | some .injUnlock => if o = 0x100 then drawNonce s else s
  | some .tio => if 0x100 ≤ o ∧ o < 0x200 ∧ o % 0x40 = 0x20 then tioPop s ((o - 0x100) / 0x40) else s
  | _ => s
/-- The word found, after what the read itself does; a done entry leaves its FIFO (R396). -/
def take (s : State) (id p o : Nat) : Word × State :=
  if kindOf p = some .bsc ∧ o = 0x110 then let r := popDone s; (BitVec.ofNat 32 r.1, r.2)
  else if o = 0xF0C ∧ (regRow p o).isSome then lockTake s id p
  else look s p o
/-- RC bits under `mask` are cleared. -/
def clearRC (s : State) (p o mask : Nat) : State :=
  match regRow p o with
  | none => s
  | some r => if r.rc &&& mask = 0 then s else wr s p o (BitVec.ofNat 32 ((rd s p o).toNat &&& (all32 ^^^ (r.rc &&& mask))))
/-- A read of one word by a requester; the RC bits under `mask` are cleared. -/
def readWord (s : State) (id p o : Nat) (mask : Nat := all32) : Word × State :=
  let s := readPop (parCheck s p o) p o
  if isHigh p o then
    match rdShadowOf s id p with
    | some (a, v) => if a = wordAddr p (o - 4) then (v, s) else let r := look s p o; (r.1, logMiss r.2 id (wordAddr p o))
    | none => let r := look s p o; (r.1, logMiss r.2 id (wordAddr p o))
  else
    let r := take s id p o
    let s := clearRC r.2 p o mask
    if isLow p o then (r.1, setRdShadow s id p (some (wordAddr p o, view s p (o + 4)))) else (r.1, s)
/-- A read of `size` bytes: an 8-byte read of a 64-bit register is a single capture. [DEDUCED, log 19] -/
def readWords (s : State) (id p o size : Nat) : DWord × State :=
  let r := readWord s id p o
  if size = 8 then
    let h := readWord r.2 id p (o + 4)
    (BitVec.ofNat 64 (r.1.toNat + h.1.toNat * 2 ^ 32), h.2)
  else (r.1.setWidth 64, r.2)
/-- A register read. [DEDUCED, log 20; DESIGN CHOICE, log 21] -/
def busRead (s : State) (r : Requester) (a size : Nat) : State :=
  if !reach s r then { s with resp := .none }
  else
    let k := accKind s r a size
    if k ≠ 0 then refuseAcc s r k a false size
    else
      let x := readWords s (regId r) (a / 4096) (a % 4096) size
      { x.2 with resp := .value x.1 }

/-! ### Storing a word (R42) -/

/-- The word with the written bits under `mask` stored by their access codes. Triggers leave nothing behind, but for the arm
bits of the vectors. [DEDUCED, log 16; DEDUCED, log 17] -/
def storedWord (r : RegRow) (old v mask : Nat) (arms : Bool) : Nat :=
  let m := (r.rw ||| r.rws) &&& mask
  ((((old &&& (all32 ^^^ m)) ||| (v &&& m)) &&& (all32 ^^^ (v &&& mask &&& r.w1c))) ||| (if arms then v &&& mask &&& r.w1s else 0))
/-- Store a word; parity is computed anew where configuration fields are written. [DEDUCED, log 16; DEDUCED, log 17] -/
def storeWord (s : State) (p o v mask : Nat) : State :=
  match regRow p o with
  | none => s
  | some r =>
    let s := if (r.rw ||| r.rws) &&& mask = 0 then s else { s with parBad := s.parBad.erase (p * 1024 + o / 4) }
    wr s p o (BitVec.ofNat 32 (storedWord r (rd s p o).toNat v mask (decide (kindOf p = some .intc) && decide (0x140 ≤ o) && decide (o < 0x180))))

end Sys2Proof.Machine
end

