-- ==== Sys2Proof/Machine/EffectOps.lean ====
section
/-! DEFINITION. What a write brings about beside the bits it stores (R50): the triggers, enables and edges of every page. `s0`
is the machine before the write, `s` after the word is stored, `old` the stored word before, `w` the bits written as 1 that the
write could reach, `now'` the stored word after. -/

namespace Sys2Proof.Machine

/-! ### The common header (R45, R47, R58, R67) -/

/-- The header of a page that is no region header shows its domain's request. -/
def pwrOf (v : Nat) : PwrState := match v % 4 with | 0 => .off | 1 => .retain | 2 => .gated | _ => .on
/-- R67: HOLD ends where no unmasked cause of severity HOLD is left. -/
def holdEnds (s : State) (p : Nat) : State :=
  let c := (rd s p 0x020).toNat
  let m := (rd s p 0x024).toNat
  if (onesOf 32 c).any (fun b => !m.testBit b && sevOf s p b == 2) then s
  else { s with holds := s.holds.filter (fun k => k.1 != scopeKey p) }
/-- Sources injected with their INT_INJ_MODE bit set come back after every clear (R47). [DEDUCED, log 32] -/
def stickyAgain (s : State) (p cleared : Nat) : State :=
  forEach s (onesOf 32 cleared) (fun s b => if s.inj.srcs.contains (p, b) && bitAt s p 0x034 b then raise s p b else s)
/-- PG_CTL (R45). [DEDUCED, log 36] -/
def ctlEffect (s : State) (p old w now' : Nat) : State :=
  let hit (q : Nat) : Bool := if ((pageInfo p).map (fun i => i.kind.cellPage)).getD false then q == p else (siblings p).contains q
  let s := if bitOf old 0 ∧ !bitOf now' 0 then discardWork s 0xE1 hit else s
  let s := if bitOf w 4 then holdEnds s p else s
  if bitOf w 3 then resetScope s (softScope p) else s
/-- The registers of the common header. -/
def headEffect (s : State) (r : Requester) (p o old w now' : Nat) : State :=
  match o with
  | 0x00C => powerReq s p (pageDom p) (pwrOf now')
  | 0x010 => ctlEffect s p old w now'
  | 0x020 => stickyAgain s p (old &&& w)
  | 0x030 => if unlocked s then injectSources s p w else deny s
  | 0x034 => { s with inj := { s.inj with srcs := s.inj.srcs.filter (fun x => !(x.1 == p && bitOf old x.2 && !bitOf now' x.2)) } }
  | 0x038 => if bitOf w 0 then setFld s p 0x044 15 0 0 else s
  | 0x04C => if !unlocked s then deny s else if bitOf w 31 then parInject s p (w % 1024) else s
  | 0x050 | 0x054 | 0x058 | 0x05C => testWrite s r p o (BitVec.ofNat 32 w)
  | 0x060 => if bitOf w 0 then (snapGo s p (bitAt s p 0x060 1)).2 else s
  | _ => s

/-! ### Line and field regions -/

/-- MAC_PORT_CFG and FP_PORT_CFG: enable (R71, R74, R103). -/
def portEffect (s : State) (port old now' : Nat) : State :=
  if !bitOf old 0 ∧ bitOf now' 0 then (if port < 64 then lineEnable s port else fieldEnable s port)
  else if bitOf old 0 ∧ !bitOf now' 0 then linkDisable s port
  else s
/-- FP_PLCA_CFG: sampled where plca_en goes from 0 to 1; PLCA can make a link good or not good (R107, R115). -/
def plcaEffect (s : State) (port old now' : Nat) : State :=
  let s := if !bitOf old 0 ∧ bitOf now' 0 then samplePlca s port else s
  if linkState s port = 2 ∧ !linkGood s port then linkNotGood s port else s
/-- eee_en cleared takes the port out of LPI at once (R50, R78, R87). -/
def eeeEffect (s : State) (port old now' : Nat) : State := if bitOf old 0 ∧ !bitOf now' 0 then lpiOut s port else s
/-- MGT_MDIO_CMD: while a transaction is busy a write changes nothing and starts none. [DESIGN CHOICE, log 137] -/
def mdioEffect (s : State) (old w : Nat) : State :=
  if bitOf old 31 then wr s (fpPage 104) 0x140 (BitVec.ofNat 32 old)
  else if bitOf w 31 then mdioStart (setBit s (fpPage 104) 0x140 31 true) else s
/-- The SDQ pages (R80). -/
def sdqEffect (s : State) (p quad o old w now' : Nat) : State :=
  if o = 0x110 then (if bitOf w 8 then eyeStart s quad else s)
  else if 0x140 ≤ o ∧ o < 0x1C0 then
    if o % 0x20 = 8 then
      let l := (o - 0x140) / 0x20
      if bitOf w 0 ∧ !bitAt s p o 1 then let f := fresh s; adaptNow f.2 quad l (f.1 % 256) else s
    else if o % 0x20 = 0 ∨ o % 0x20 = 4 then laneEffect s quad o old now'
    else s
  else s
/-- The sense pages (R124 to R131). -/
def snsEffect (s : State) (o w : Nat) : State :=
  if o = 0x100 ∧ bitOf w 1 then calAll s
  else if o = 0x110 ∧ bitOf w 8 then diagStart s
  else s
def snsPairEffect (s : State) (o w : Nat) : State :=
  if 0x100 ≤ o ∧ o < 0x1A0 then
    let k := (o - 0x100) / 4
    let s := pairCfgEffect s k
    if bitOf w 8 then holdRelease s k else s
  else s
/-- FDB_FLUSH and FDB_AGE_CFG (R181, R184). -/
def fdbEffect (s : State) (k o old w now' : Nat) : State :=
  if o = 0x10C then (if bitOf w 31 ∧ (pipeOf s k).flushes.isEmpty then flushRequest s k (now' % 2 ^ 27) else s)
  else if o = 0x104 then (if old % 2 ^ 20 = 0 ∧ now' % 2 ^ 20 ≠ 0 then setPipe s k { pipeOf s k with passStart := now s } else s)
  else s
/-- The span pages (R309, R310, R336, R337). -/
def spnPairEffect (s : State) (o old now' : Nat) : State :=
  if o = 0x124 then updateActive s
  else if o ≠ 0x100 then s
  else if !bitOf old 0 ∧ bitOf now' 0 then pairStart s
  else if bitOf old 0 ∧ !bitOf now' 0 then pairStop s
  else s
def spnLinkEffect (s : State) (l o old now' : Nat) : State :=
  if o ≠ 0x100 then s
  else if !bitOf old 0 ∧ bitOf now' 0 then linkOn s l
  else if bitOf old 0 ∧ !bitOf now' 0 then linkOff s l
  else s

/-! ### COR and CUS -/

/-- A quota write that would make the minima exceed what is there is refused (R209). -/
def quotaEffect (s : State) (q : Pool) (p o old : Nat) : State :=
  if (avail s q : Int) < (sumMin s q : Int) then raise (wr s p o (BitVec.ofNat 32 old)) p 12 else s
/-- Tokens, credits and replay buckets fill under the old settings up to a write of a shaper register (R245, R247, R284). -/
def schSettle (s : State) (port o old now' : Nat) : State :=
  if o = 0x104 ∨ o = 0x108 ∨ (0x140 ≤ o ∧ o < 0x1C0) then
    let s := fillTokens (creditTick (wr s (schPage port) o (BitVec.ofNat 32 old)) port) port
    let s := forEach s ((List.range 8).filter (fun c => (cqOf s (qIdx port c)).st == 4)) (fun s c => setCq s (qIdx port c) (fillBucket s (qIdx port c)))
    let s := if o < 0x140 then setEport s port { eportOf s port with tokensBc := now s }
      else let q := qIdx port ((o - 0x140) / 16); setQueue s q { queueOf s q with creditBc := now s }
    wr s (schPage port) o (BitVec.ofNat 32 now')
  else s
/-- A queue that leaves DWRR loses its deficit (R243). -/
def schEffect (s : State) (port o old now' : Nat) : State :=
  let s := schSettle s port o old now'
  if 0x140 ≤ o ∧ o < 0x1C0 ∧ o % 16 = 0 ∧ old % 4 = 1 ∧ now' % 4 ≠ 1 then
    let q := qIdx port ((o - 0x140) / 16)
    setQueue s q { queueOf s q with deficit := 0, turn := false }
  else s
/-- CST_FLUSH, CST_DRAIN and CST_HOLD_CTL (R286, R287, R295 to R297). -/
def cstEffect (s : State) (o w now' : Nat) : State :=
  if o = 0x128 then (if bitOf w 31 then flushCustody s (now' % 1024) else s)
  else if o = 0x12C then
    let s := if bitOf w 9 then abortDrain s else s
    let s := if bitOf w 8 then drainStart s else s
    if bitOf w 10 then
      let a := fresh s
      let b := fresh a.2
      readmitStart b.2 a.1 b.1
    else s
  else if o = 0x138 then
    let s := if bitOf w 1 then { s with pins := { s.pins with custodyHold := false } } else s
    if bitOf w 0 then powerFail s 4 3 else s
  else s
/-- A capture partition (R484, R486). -/
def capEffect (s : State) (o old w now' : Nat) : State :=
  if o < 0x100 ∨ 0x500 ≤ o then s
  else
    let n := (o - 0x100) / 0x40
    if o % 0x40 = 0 then
      if !bitOf old 0 ∧ bitOf now' 0 then capEnable s n
      else if bitOf old 0 ∧ !bitOf now' 0 then (if capNamed s n then capRefuse (setBit s capPage o 0 true) n 1 else capDisable s n)
      else s
    else if o % 0x40 = 0xC then
      let s := if bitOf w 0 then capArm s n else s
      let s := if bitOf w 1 then capTrigger s n else s
      if bitOf w 2 then capFreeze s n else s
    else s

/-! ### ENG and HST -/

/-- EBK_CFG and EBK_RESTART (R399, R418). -/
def ebkEffect (s : State) (b o w : Nat) : State :=
  if o = 0x100 then health (runEngines s b)
  else if o = 0x110 then restartEngines s b (w % 2 ^ 16)
  else s
/-- SVC_LOAD, SVC_MIGRATE, SVC_RELEASE and SVC_START (R410 to R414). -/
def svcEffect (s : State) (o w : Nat) : State :=
  if !bitOf w 31 then s
  else if o = 0x104 then loadGo s
  else if o = 0x108 then migrateGo s
  else if o = 0x10C then releaseGo s
  else if o = 0x110 then startGo s
  else s
/-- A submission ring page (R429, R430). -/
def sqEffect (s : State) (n o old now' : Nat) : State :=
  if o = 0x100 then sqDoor s n
  else if o = 0x104 then
    if !bitOf old 0 ∧ bitOf now' 0 then sqEnable s n
    else if bitOf old 0 ∧ !bitOf now' 0 then sqDisable s n
    else s
  else s
/-- CQ_DB: the consumer index is read from the RCB (R430). -/
def cqDoor (s : State) (n : Nat) : State :=
  let x := cqRing s n
  if !x.on ∨ halted s then s else toHost (if pcieLive s then s else setCqRing s n { x with readDue := true }) (.hostRead x.rcb 4)
def cqEffect (s : State) (n o old now' : Nat) : State :=
  if o = 0x100 then cqDoor s n
  else if o = 0x104 then
    if !bitOf old 0 ∧ bitOf now' 0 then cqEnable s n
    else if bitOf old 0 ∧ !bitOf now' 0 then cqDisable s n
    else s
  else s
/-- INSP_FAILOVER: a region's mode 2 fails it over by plan, mode 0 brings it back (R501). -/
def failEffect (s : State) (old now' : Nat) : State :=
  forEach s (List.range 4) (fun s r =>
    let a := bitsOf old (2 * r + 1) (2 * r)
    let b := bitsOf now' (2 * r + 1) (2 * r)
    if a = b then s else if b = 2 then failover s r else if b = 0 then failback s r else s)
def inspEffect (s : State) (o old w now' : Nat) : State :=
  if o = 0x110 then failEffect s old now'
  else if o = 0x118 then (if bitOf w 31 ∨ old % 65536 ≠ now' % 65536 then kick s else s)
  else s
/-- The unlock page, which the host alone may use (R494). -/
def unlockEffect (s : State) (r : Requester) (o w : Nat) : State :=
  if r ≠ .host then s
  else if o = 0x108 then injKeyIn s w
  else if o = 0x10C then
    let s := if bitOf w 9 then injRelock s else s
    if bitOf w 8 then injGo s else s
  else s
/-- FW_CTL (R506 to R509). -/
def fwEffect (s : State) (o w : Nat) : State :=
  if o ≠ 0x104 then s
  else
    let s := if bitOf w 0 then fwCommit s false else s
    let s := if bitOf w 1 then fwRequest s else s
    let s := if bitOf w 2 then fwExit s else s
    if bitOf w 3 then fwHandover s else s
/-- PWR_WARM (R37). -/
def warmEffect (s : State) (w : Nat) : State :=
  if w = 0x57525354 then warmReset s else raise (inc s pwrPage 0x104) pwrPage 2
/-- SEC_CMD: while a command runs the code stays (R542). -/
def secEffect (s : State) (old w now' : Nat) : State :=
  if !bitOf w 31 then s
  else if s.boot.cmd.isSome then secGo (wr s secPage 0x100 (BitVec.ofNat 32 old)) (now' % 256)
  else secGo s (now' % 256)

/-! ### TIM -/

/-- TB_CFG, TB_FREQ and TB_CMD (R345 to R349, R353). -/
def tbEffect (s : State) (k o old w now' : Nat) : State :=
  if o = 0x100 then servoModeChange s k (decide (old % 4 = 1))
  else if o = 0x138 then reqRate (if servoMode s k then wr s (tbPage k) 0x138 (BitVec.ofNat 32 old) else s) k
  else if o = 0x128 then
    let s := if bitOf w 0 then reqSet s k else s
    let s := if bitOf w 1 then reqSetNow s k else s
    let s := if bitOf w 2 then reqStep s k (signedOf 64 (rd64 s (tbPage k) 0x130)) else s
    let s := if bitOf w 3 then reqSlew s k else s
    if bitOf w 4 then abortSlew s k else s
  else s
/-- TIO_CFG: a pin in level mode follows its level field (R365). -/
def tioEffect (s : State) (o now' : Nat) : State :=
  if 0x100 ≤ o ∧ o < 0x200 ∧ o % 0x40 = 0 ∧ now' % 8 = 6 then
    emit s (.pin ("TIO" ++ toString ((o - 0x100) / 0x40)) (xor (bitOf now' 9) (bitOf now' 8)))
  else s
/-- BSC_CFG, BSC_CANCEL and BSC_ANNOUNCE (R378, R387, R392). -/
def bscEffect (s : State) (o old w now' : Nat) : State :=
  if o = 0x100 then
    if !bitOf old 0 ∧ bitOf now' 0 then forEach s ((liftList s).filter (fun i => liftState s i == 1)) aim else s
  else if o = 0x108 then (if bitOf w 31 then cancelGo s else s)
  else if o = 0x124 then (if bitOf w 31 then announceGroup s (now' % 256) else s)
  else s

/-- TBL_LOCK is written (R65): the holder gives it back with 0, bit 31 takes it from whoever holds it. [DEDUCED, log 23] -/
def lockEffect (s : State) (r : Requester) (p v : Nat) : State :=
  if bitOf v 31 then logAcc (wr s p 0xF0C 0) 6 (regId r) (wordAddr p 0xF0C)
  else if v = 0 ∧ rd s p 0xF0C = BitVec.ofNat 32 (0x100 + regId r) then wr s p 0xF0C 0
  else s

/-- The effects of a write to a block register. -/
def blockEffect (s0 s : State) (r : Requester) (p : Nat) (i : PageInfo) (o old w now' : Nat) : State :=
  match i.kind with
  | .header =>
    let d := regionDomains i.region
    let k := (o - 0x100) / 4
    if 0x100 ≤ o ∧ o < 0x200 ∧ k < d.2 then powerReq s p (d.1 + k) (pwrOf now') else s
  | .pwr => if o = 0x100 then warmEffect s w else s
  | .insp => inspEffect s o old w now'
  | .inj => if o = 0x100 ∧ bitOf w 31 then inject s else s
  | .injUnlock => unlockEffect s r o w
  | .fw => fwEffect s o w
  | .sec => if o = 0x100 then secEffect s old w now' else s
  | .mac =>
    if o = 0x100 then portEffect s (i.region * 16 + i.sub) old now'
    else if o = 0x10C then eeeEffect s (i.region * 16 + i.sub) old now' else s
  | .t1l => if o = 0x100 then portEffect s i.sub old now' else if o = 0x108 then eeeEffect s i.sub old now' else s
  | .mgt =>
    if o = 0x100 then portEffect s i.sub old now'
    else if o = 0x140 then mdioEffect s old w else s
  | .t1s => if o = 0x100 then portEffect s i.sub old now' else if o = 0x120 then plcaEffect s i.sub old now' else s
  | .sdq => sdqEffect s p (i.region * 4 + i.sub) o old w now'
  | .mod =>
    let c := i.region * 4 + i.sub
    if o = 0x100 then (let s := cageLevels s c old now'; if bitOf w 8 then modAgain s c else s) else if o = 0x108 then xferStart s c else s
  | .sns => snsEffect s o w
  | .snsPair => snsPairEffect s o w
  | .spnPair => spnPairEffect s o old now'
  | .spnLink => spnLinkEffect s i.sub o old now'
  | .rul | .fplRul => if o = 0x120 ∧ bitOf w 0 then swapGo s p else s
  | .mtr | .fplMtr => if o = 0x100 ∧ bitOf w 0 then swapGo s p else s
  | .gat =>
    if o = 0x104 ∧ bitOf w 0 then swapGo s p
    else if o = 0x100 then wr (creditTick (wr s p o (BitVec.ofNat 32 old)) (p % 4096 - 0x300)) p o (BitVec.ofNat 32 now')
    else s
  | .fdb | .fplFdb => fdbEffect s (pipeOfPage p) o old w now'
  | .bpm =>
    if o = 0x100 then notePushout (pushout s0) s
    else if 0x140 ≤ o ∧ o < 0x1C0 ∧ o % 8 = 0 then quotaEffect s .granules p o old else s
  | .ppm => if 0x140 ≤ o ∧ o < 0x180 then quotaEffect s .pages p o old else s
  | .sch => schEffect s i.sub o old now'
  | .cst => cstEffect s o w now'
  | .jrn => if o = 0x104 ∧ bitOf w 0 then checkpoint s else s
  | .cap => capEffect s o old w now'
  | .ebk => ebkEffect s i.sub o w
  | .svc => svcEffect s o w
  | .dma =>
    if o = 0x104 ∧ bitOf w 31 then scratchGo s
    else if 0x140 ≤ o ∧ o < 0x240 ∧ o % 16 = 0 then setChan s ((o - 0x140) / 16) (fillChan s ((o - 0x140) / 16) (bitsOf old 31 16))
    else s
  | .sq => sqEffect s i.sub o old now'
  | .cq => cqEffect s i.sub o old now'
  | .tbs => if o = 0x100 then (if bitOf w 0 then timeCap s else s) else if o = 0x128 ∧ bitOf w 8 then timeConv s else s
  | .tb => tbEffect s i.sub o old w now'
  | .tio => tioEffect s o now'
  | .bsc => bscEffect s o old w now'
  | _ => s
/-- What a write of the word at `o` brings about. [DESIGN CHOICE, log 37] -/
def effect (s0 s : State) (r : Requester) (p o old w : Nat) : State :=
  let now' := (rd s p o).toNat
  if o < 0x100 then headEffect s r p o old w now'
  else if o = 0xF04 then tblGo s p (w % 8)
  else match pageInfo p with
    | none => s
    | some i => blockEffect s0 s r p i o old w now'

end Sys2Proof.Machine
end

