-- ==== Sys2Proof/Machine/RegOps.lean ====
section
/-! DEFINITION. Register writes of a requester (R40, R50, R52, R65), the bit aliases of BAR2 (R55, R56), and the writes that
lifts make (R381). -/

namespace Sys2Proof.Machine

/-- One word is written: stored, then acted on. -/
def putWord (s : State) (r : Requester) (p o v mask : Nat) : State :=
  match regRow p o with
  | none => s
  | some row =>
    let old := (rd s p o).toNat
    let w := if 0x050 ≤ o ∧ o < 0x060 then (old &&& (all32 ^^^ mask)) ||| (v &&& mask)
      else v &&& mask &&& (row.rw ||| row.rws ||| row.w1c ||| row.w1s ||| row.wo)
    effect s (storeWord s p o v mask) r p o old w
/-- A write to the window by a requester that does not hold its lock is dropped (R65). -/
def lockedOut (s : State) (r : Requester) (p o : Nat) : Bool :=
  let l := (rd s p 0xF0C).toNat
  decide (0xF00 ≤ o) && o != 0xF08 && o != 0xF0C && (regRow p o).isSome && l != 0 && l != 0x100 + regId r
/-- SRV_SAMPLE is committed (R352, R371): a sample of the time base's servo, where it is the source. -/
def sampleIn (s : State) (k lo hi : Nat) : State :=
  if fld s (tbPage k) 0x100 7 5 = 0 then servoTake s k (signedOf 64 (lo + hi * 2 ^ 32)) else s
/-- Both words of a 64-bit register are committed at once (R52). -/
def commitPair (s : State) (r : Requester) (p o lo hi : Nat) : State :=
  match kindOf p, o with
  | some .tb, 0x160 => sampleIn s (p % 4096 - 0x10) lo hi
  | _, _ => putWord (putWord s r p o lo all32) r p (o + 4) hi all32
/-- The word of a 64-bit register is one that a requester can write. -/
def writable (p o : Nat) : Bool :=
  match regRow p o with
  | none => false
  | some r => r.rw + r.rws + r.wo != 0
/-- A 4-byte write to a page that answers. -/
def writeWord (s : State) (r : Requester) (p o v : Nat) : State :=
  if lockedOut s r p o then raise (logAcc s 6 (regId r) (wordAddr p o)) p 30
  else if o = 0xF0C ∧ (regRow p o).isSome then lockEffect s r p v
  else if isLow p o ∧ writable p o then setWrShadow s (regId r) p (some (o + p * 4096, BitVec.ofNat 32 v))
  else if isHigh p o ∧ (writable p o ∨ writable p (o - 4)) then
    match wrShadowOf s (regId r) p with
    | some (a, l) =>
      if a = wordAddr p (o - 4) then commitPair (setWrShadow s (regId r) p none) r p (o - 4) l.toNat v
      else commitPair (logMiss s (regId r) (wordAddr p o)) r p (o - 4) (rd s p (o - 4)).toNat v
    | none => commitPair (logMiss s (regId r) (wordAddr p o)) r p (o - 4) (rd s p (o - 4)).toNat v
  else putWord s r p o v all32
/-- A write that goes through: 8 bytes to a 64-bit register commit both words in one cycle. -/
def writeWords (s : State) (r : Requester) (p o size : Nat) (v : DWord) : State :=
  let lo := v.toNat % 2 ^ 32
  let hi := v.toNat / 2 ^ 32
  if size ≠ 8 then writeWord s r p o lo
  else if isLow p o ∧ writable p o then commitPair s r p o lo hi
  else writeWord (writeWord s r p o lo) r p (o + 4) hi
/-- A register write. [DESIGN CHOICE, log 21] -/
def busWrite (s : State) (r : Requester) (a size : Nat) (v : DWord) : State :=
  if !reach s r then { s with resp := .none }
  else
    let k := accKind s r a size
    if k ≠ 0 then refuseAcc s r k a true
    else { writeWords s r (a / 4096) (a % 4096) size v with resp := .done }
/-- A 4-byte write to the register at offset `o` of page `p`, as the commands that are one such write make it. -/
def regWrite (s : State) (r : Requester) (p o v : Nat) : State := busWrite s r (p * 4096 + o) 4 (BitVec.ofNat 64 (v % 2 ^ 32))
/-! ### BAR2 (R55, R56) -/

/-- Page, word offset and bit of a BAR2 offset. -/
def aliasPage (a : Nat) : Nat := a / 2 ^ 13
def aliasOff (a : Nat) : Nat := a / 2 ^ 7 % 64 * 4
def aliasBit (a : Nat) : Nat := a / 4 % 32
/-- The kind of event an alias access ends in; 0 where it goes through. Where several apply, the first of 5, 3, 7, 1 is logged. [DESIGN CHOICE, log 128] -/
def aliasKind (s : State) (r : Requester) (a size : Nat) : Nat :=
  let p := aliasPage a
  if size ≠ 4 ∨ a % 4 ≠ 0 then 5
  else if (pageInfo p).isNone then 3
  else if privPage p then 7
  else if !answers s r p then 1
  else 0
/-- One bit of a word, written by its access code: no write shadow holds it back. RO, RSV and WO bits ignore alias writes. [DEDUCED, log 18] -/
def aliasPut (s : State) (r : Requester) (p o b v : Nat) : State :=
  match regRow p o with
  | none => s
  | some row => if bitOf (row.rw ||| row.rws ||| row.w1c ||| row.w1s) b then putWord s r p o (v % 2 * 2 ^ b) (2 ^ b) else s
/-- [DEDUCED, log 18] -/
def aliasWr (s : State) (r : Requester) (a size v : Nat) : State :=
  if !reach s r then { s with resp := .none }
  else
    let k := aliasKind s r a size
    if k ≠ 0 then refuseAcc s r k (wordAddr (aliasPage a) (aliasOff a)) true
    else { aliasPut s r (aliasPage a) (aliasOff a) (aliasBit a) v with resp := .done }
def aliasRd (s : State) (r : Requester) (a size : Nat) : State :=
  if !reach s r then { s with resp := .none }
  else
    let k := aliasKind s r a size
    let p := aliasPage a
    let o := aliasOff a
    if k ≠ 0 then refuseAcc s r k (wordAddr p o) false
    else
      let x := readWord s (regId r) p o (2 ^ aliasBit a)
      { x.2 with resp := .value (BitVec.ofNat 64 (b2n (bitOf x.1.toNat (aliasBit a)))) }

/-! ### Accesses that are aborted (R53) -/

/-- An access that has not completed after 4 µs. -/
def abortAcc (s : State) (r : Requester) (a : Nat) (write : Bool) : State :=
  if !reach s r ∨ accKind s r a 4 ≠ 0 then s else refuseAcc s r 2 a write

/-! ### Writes of lifts (R381) -/

/-- A lift writes a word under its mask: no requester, no lock, no shadow. [DEDUCED, log 19; DEDUCED, log 105] -/
def liftWrite (s : State) (p o v mask : Nat) : State := putWord s .host p o v mask

end Sys2Proof.Machine
end

