-- ==== Sys2Proof/Machine/LiftOps.lean ====
section
/-! DEFINITION. The launch of a lift: its action at its target (R378 to R381), and the outcome (R377, R384 to R386). -/

namespace Sys2Proof.Machine

/-- CUSTODY_HOLD and CUSTODY_RELEASE (R381). -/
def liftHold (s : State) (q : Nat) : Bool × State :=
  if !marked s q then (false, s)
  else
    let s := custodyDown s q
    (true, setCq s q { cqOf s q with lifted := true })
def liftFree (s : State) (q : Nat) : Bool × State :=
  let x := cqOf s q
  if !x.lifted then (false, s)
  else
    let x := { x with lifted := false }
    if portQ s (qPort q) = 2 ∨ x.st ≠ 2 then (true, setCq s q x)
    else if cstReady s then (true, setCq s q { x with st := 3 })
    else (true, setCq s q (if x.records.isEmpty then { x with st := 0 } else x))
/-- A swap lift (R380). [DEDUCED, log 64] -/
def liftSwap (s : State) (p : Nat) : Bool × State :=
  if (bankOfPage s p).retiring then (false, swapRefused s p) else (true, swapMade s p)
/-- METER_RESET: the buckets of a range of meters are full. -/
def fillMeters (s : State) (k first last : Nat) : State :=
  let base := mtrKey k 0
  { s with mtrLast := s.mtrLast.filter (fun e => !(decide (base + first ≤ e.1) && decide (e.1 ≤ base + last))) }
/-- TIME_STEP: performed, refused, or held back with the time base (R348, R386). -/
def liftStep (s : State) (i k : Nat) (d : Int) : Option Bool × State :=
  if stepLocked s k then (some false, stepRefused s k)
  else if mayChange s k then
    let due := (liftList s).filter (fun j => j != i && liftState s j == 3 && decide ((liftX s j).launch ≤ now s))
    (some true, reqStep (forEach s due (fun s j => setLiftX s j { liftX s j with due := true })) k d)
  else
    let t := tbOf s k
    let s := setTb s k { t with heldStep := some (t.heldStep.getD 0 + d), heldLifts := t.heldLifts ++ [i] }
    (none, setLiftX s i { liftX s i with waiting := true })
/-- WRITE64: both words in one cycle, whatever the mask. -/
def liftWrite64 (s : State) (p o v : Nat) : State := commitPair s .host p o (v % 2 ^ 32) (v / 2 ^ 32)
/-- The action of a lift: whether its target performed it, or nothing where it is held back. -/
def perform (s : State) (i : Nat) : Option Bool × State :=
  let e := liftRec s i
  let p := liftTarget e
  let v := efld e 319 256
  match liftAction e with
  | 0 => (some true, liftWrite s p (efld e 155 144) (v % 2 ^ 32) (efld e 255 224))
  | 1 => (some true, liftWrite64 s p (efld e 155 144) v)
  | 2 | 3 | 4 => let r := liftSwap s p; (some r.1, r.2)
  | 5 => let c := v % 128; (some true, tset s p 0 0 c (esetFld (tget s p 0 0 c) 78 78 (v / 128)))
  | 6 => let r := snapGo s p (bitOf v 0); (some r.1, r.2)
  | 7 => (some true, fillMeters s (pipeOfPage p) (v % 65536) (v / 65536 % 65536))
  | 8 => let r := dmaRelease s (v % 16); (some r.1, r.2)
  | 9 => let r := liftHold s (v % 1024); (some r.1, r.2)
  | 10 => let r := liftFree s (v % 1024); (some r.1, r.2)
  | 11 => liftStep s i (p % 4096 - 0x10) (signedOf 64 v)
  | 12 => if fld s tioPage (tioOff (v % 4)) 2 0 = 5 then (some true, tioPulse s (v % 4)) else (some false, s)
  | _ => (some true, s)
/-- The target is absent: its domain is not ON, or a reset covers it (R384). [DEDUCED, log 85] -/
def noTarget (s : State) (p : Nat) : Bool := !pageOn s p || inReset s p
/-- LIFT_LAUNCH: the target's replica of the base count has reached the launch count. [DEDUCED, log 84; DEDUCED, log 125] -/
def launch (s : State) (i : Nat) : State :=
  let e := liftRec s i
  let x := liftX s i
  if liftState s i ≠ 3 ∨ x.waiting ∨ now s < x.launch ∨ s.mode != .run then s
  else
    let late := lateNs s x.launch
    if noTarget s (liftTarget e) then occurred (recallLift (launched s i) i) i 5 0
    else if x.late ∧ ebit e 105 then occurred (recallLift s i) i 3 late
    else
      let r := perform s i
      match r.1 with
      | none => r.2
      | some true => if x.late then occurred (launched r.2 i) i 2 late else occurred (launched r.2 i) i 1 0
      | some false => occurred (recallLift (launched r.2 i) i) i 4 0

end Sys2Proof.Machine
end

