-- ==== Sys2Proof/Machine/SvcOps.lean ====
section
/-! DEFINITION. Service messages (R404 to R409, R412): how EMB delivers a request to a service, what each service answers, and the
notifications that services send of themselves. Bodies whose layout the spec does not give are free values. -/

namespace Sys2Proof.Machine

/-- A notification, from a service that runs. [DEDUCED, log 50] -/
def tell (s : State) (service opcode : Nat) (body : List Nat) : State :=
  if (svcBlocks s service).isEmpty then s else notify s service opcode body
/-- An answer whose body the spec does not lay out. [DESIGN CHOICE, log 89] -/
def freeBody (s : State) : Nat × List Nat × State := let r := fresh s; (0, [r.1], r.2)
/-- A service keeps an object under a key; an earlier one of the same key goes. [DESIGN CHOICE, log 89] -/
def storeObj (s : State) (id key : Nat) (b : List Byte) : State :=
  { s with svcObjs := (id, key, b) :: s.svcObjs.filter (fun o => !(o.1 == id && o.2.1 == key)) }
def dropObj (s : State) (id key : Nat) : State := { s with svcObjs := s.svcObjs.filter (fun o => !(o.1 == id && o.2.1 == key)) }
def served (s : State) (id : Nat) : Nat := mapGet (fun _ => 0) s.svcServed id
def cfgOf (s : State) (id : Nat) : List Byte := mapGet (fun _ => []) s.svcCfg id

/-! ### What a service answers: status, body and state (R407, R408) -/

/-- PING: the version of the service's image and its running engines. -/
def svcPing (s : State) (id : Nat) : Nat × List Nat × State :=
  let l := svcBlocks s id
  (0, [(imgOf s (l.headD 0)).version, (l.map (engines s)).sum], s)
def svcStats (s : State) (id : Nat) : Nat × List Nat × State := let r := fresh s; (0, [served s id, r.1], r.2)
def svcGet (s : State) (id : Nat) : Nat × List Nat × State :=
  if (cfgOf s id).isEmpty then freeBody s else (0, (cfgOf s id).map (·.toNat), s)
def svcSet (s : State) (id : Nat) (b : List Byte) : Nat × List Nat × State :=
  (0, [], { s with svcCfg := mapSet (fun _ => []) s.svcCfg id b })
/-- RESYNC(pipeline) (R188). -/
def svcResync (s : State) (b : List Byte) : Nat × List Nat × State :=
  match b with
  | k :: _ => if 4 < k.toNat then (2, [], s) else (0, [], startResync s k.toNat)
  | [] => (2, [], s)
/-- PARTNER_SYNC repeats R332. -/
def svcPartner (s : State) : Nat × List Nat × State := (0, [], bulkAgain { s with span := { s.span with bulk := true } })
/-- AUTH_RETRY: the wait of R308 before a new exchange is over. -/
def svcAuth (s : State) : Nat × List Nat × State :=
  (0, [], forEach s (List.range 8) (fun s l => setLink s l { linkOf s l with retryAt := 0 }))
/-- INSTANCE_SET: which ports then carry event messages and which act as transparent clocks follows from the instance. -/
def svcInstance (s : State) (key : Nat) (b : List Byte) : Nat × List Nat × State :=
  let a := fresh (storeObj s 3 key b)
  let c := fresh a.2
  (0, [], { c.2 with tcPorts := a.1, ptpPorts := c.1 })
/-- QUEUE_INFO: records, pages and oldest age in ns. [DESIGN CHOICE, log 92] -/
def svcQueue (s : State) (b : List Byte) : Nat × List Nat × State :=
  let q := leNat (b.take 2)
  if b.length < 2 ∨ 1024 ≤ q ∨ !isQueuePort (qPort q) then (2, [], s)
  else
    let age := match oldestRecord s q with | none => 0 | some r => tb0Ns s (now s) - r.1
    (0, [(cqOf s q).records.length, ((cqOf s q).records.flatMap (fun r => r.pages)).eraseDups.length, age], s)
/-- A request that configures an object of a service, and one that answers from it. -/
def svcStore (s : State) (id key : Nat) (b : List Byte) : Nat × List Nat × State := (0, [], storeObj s id key b)
def svcMeasure (s : State) (key : Nat) (b : List Byte) : Nat × List Nat × State := freeBody (storeObj s 5 key b)
def svcUnsub (s : State) (key : Nat) : Nat × List Nat × State := (0, [], dropObj s 6 key)
/-- INSPECT: REQUEST and CANCEL (R497). -/
def svcInspect (s : State) (b : List Byte) : Nat × List Nat × State :=
  if b.length ≠ 32 then (2, [], s) else let r := inspRequest s b; (0, r.1, r.2)
/-- [DESIGN CHOICE, log 92] -/
def svcInspCancel (s : State) (b : List Byte) : Nat × List Nat × State :=
  let id := leNat (b.take 2)
  let r := inspCancel s id
  match r.1 with
  | none => (2, [], r.2)
  | some code => (0, [id % 256, id / 256, code], r.2)
/-- The requests of R407 that a service defines. [DESIGN CHOICE, log 89; DESIGN CHOICE, log 91] -/
def svcRun (s : State) (id op key : Nat) (b : List Byte) : Nat × List Nat × State :=
  match id, op with
  | _, 0x00 => svcPing s id
  | _, 0x01 => svcStats s id
  | _, 0x02 => svcGet s id
  | _, 0x03 => svcSet s id b
  | 1, 0x10 => svcResync s b
  | 1, 0x11 => svcPartner s
  | 2, 0x10 => freeBody s
  | 2, 0x11 => svcAuth s
  | 3, 0x10 => svcInstance s key b
  | 3, 0x11 => freeBody s
  | 4, 0x10 => svcQueue s b
  | 4, 0x11 => freeBody s
  | 5, 0x10 => svcStore s 5 key b
  | 5, 0x11 => svcMeasure s key b
  | 6, 0x10 => svcStore s 6 key b
  | 6, 0x11 => svcUnsub s key
  | 7, 0x10 => svcStore s 7 key b
  | 7, 0x11 => freeBody s
  | 8, 0x10 => svcStore s 8 key b
  | 8, 0x11 | 8, 0x12 => freeBody s
  | 9, 0x10 => svcStore s 9 key b
  | 9, 0x11 => freeBody s
  | 10, 0x10 => freeBody s
  | 11, 0x10 => svcInspect s b
  | 11, 0x11 => svcInspCancel s b
  | 12, 0x10 => freeBody s
  | 12, 0x11 => svcStore s 12 key b
  | _, _ => (1, [], s)

/-! ### Delivery by EMB (R404, R409, R412) -/

/-- The block that a key's bucket names. -/
def blockFor (s : State) (id key : Nat) : Nat :=
  let l := svcBlocks s id
  ((mapGet (fun _ => []) s.buckets id)[key % 64]?).getD (l.headD 0)
/-- The binding of a ring names another service, or none (R409). [DESIGN CHOICE, log 91] -/
def bindingBad (s : State) (m : SvcRequest) : Bool :=
  match m.ring with
  | none => false
  | some n => let e := tget s svcPage 0 0 n.toNat; !ebit e 8 || efld e 7 0 != m.service.toNat
/-- EMB dispatches nothing to a block that a migration empties (R412, R414). -/
def frozen (s : State) (b : Nat) : Bool := blkState s b == 4 || (match s.svcOp with | some (.migrate a _) => a == b | _ => false)
/-- EMB can take the message now: engines of its block run, or the hold queue has room. -/
def embTakes (s : State) (m : SvcRequest) : Bool :=
  let id := m.service.toNat
  serving s embPage &&
    ((svcBlocks s id).isEmpty || (let b := blockFor s id m.key.toNat
      if frozen s b then decide (s.embHold.length < 1024) else engines s b != 0))
/-- The engine of a block that a key names: (key / 64) mod n of those that run (R404). [DESIGN CHOICE, log 90] -/
def engineFor (s : State) (b key : Nat) : Nat :=
  let l := (List.range 16).filter (fun e => bitAt s (ebkPage b) 0x104 e)
  l.getD (key / 64 % max l.length 1) 0
/-- An engine handles a message whole and answers it. [DESIGN CHOICE, log 90] -/
def handleMsg (s : State) (m : SvcRequest) (idx : Nat) : State :=
  let id := m.service.toNat
  let s := { s with svcServed := mapSet (fun _ => 0) s.svcServed id (served s id + 1) }
  if 240 < m.body.length then respond s m idx 2 []
  else
    let r := svcRun s id m.opcode.toNat m.key.toNat m.body
    respond r.2.2 m idx r.1 r.2.1
/-- Requests of a ring that engines of a service hold (R408). -/
def ringHeld (s : State) (m : SvcRequest) : Nat :=
  if m.ring.isNone then 0 else (s.inHand.filter (fun h => h.msg.service == m.service && h.msg.ring == m.ring)).length
/-- A message that EMB has taken: answered, or held for a frozen block. [DESIGN CHOICE, log 90] -/
def embDeliver (s : State) (m : SvcRequest) (idx : Nat) : State :=
  let id := m.service.toNat
  if bindingBad s m then respond s m idx 2 []
  else if id = 0xF0 then respond s m idx 5 []
  else if (svcBlocks s id).isEmpty then respond (raise (inc s embPage 0x108) embPage 1) m idx 3 []
  else
    let b := blockFor s id m.key.toNat
    let e := engineFor s b m.key.toNat
    if frozen s b then { s with embHold := s.embHold ++ [(m, idx)] }
    else if 1024 ≤ ringHeld s m then respond s m idx 4 []
    else if m.busy ≠ 0 ∨ stalled s b e ∨ s.inHand.any (fun h => h.at b e) then
      showEngine { s with inHand := s.inHand ++ [{ block := b, engine := e, msg := m, index := idx }] } b e
    else handleMsg s m idx
/-- Engines go on with what they hold, each in the order it took it (R404, R412). [DESIGN CHOICE, log 90] -/
def workHands (s : State) : State :=
  forEach { s with inHand := [] } s.inHand (fun s h =>
    if h.msg.busy ≠ 0 ∨ stalled s h.block h.engine ∨ s.inHand.any (fun g => g.at h.block h.engine) then
      { s with inHand := s.inHand ++ [{ h with msg := { h.msg with busy := h.msg.busy - 1 } }] }
    else showEngine (handleMsg s h.msg h.index) h.block h.engine)

/-! ### Starting fetched entries (R432, R440, R441) -/

/-- Its target can take the next entry of a ring: EMB a message, a channel a copy. -/
def targetTakes (s : State) (typ : Nat) (f : Fetched) : Bool :=
  match typ with
  | 2 => f.msg.any (embTakes s)
  | 3 => !chanFull s f
  | _ => true
/-- What the next entry of a ring would do now: start, find no room, or wait (none). -/
def entryMove (s : State) (n : Nat) : Option Bool :=
  let x := sqOf s n
  match x.fetched with
  | [] => none
  | f :: _ =>
    if !hostLive s ∨ !serving s (sqPage n) ∨ !targetTakes s x.typ f then none
    else if mayStart s n (recordsNeeded x.typ f) then some true
    else if x.waiting ∨ (feeders s x.cq).any (fun m => (sqOf s m).waiting) then none
    else some false
/-- The entry starts, by its ring's type. -/
def startFront (s : State) (n : Nat) : State :=
  let x := sqOf s n
  match x.fetched with
  | [] => s
  | f :: _ => match x.typ with
    | 0 => txStart s n f
    | 2 => match f.msg with
      | none => s
      | some m => embDeliver (startEntry s n (recordsNeeded 2 f)) m f.index
    | _ => copyTake s n f
/-- The ring that moves next: types in rising order, the rings of a type in turn (R432). [DESIGN CHOICE, log 153] -/
def nextRing (s : State) : Option Nat := [0, 2, 3].findSome? (fun t => (ringOrder s t).find? (fun n => (entryMove s n).isSome))
def moveRings : Nat → State → State
  | 0, s => s
  | fuel + 1, s => match nextRing s with
    | none => s
    | some n => moveRings fuel (if entryMove s n = some true then startFront s n else blockEntry s n (sqOf s n).cq)
/-- Fetched entries start as far as they can; blocking clears where every entry that waited can. -/
def ringsGo (s : State) : State :=
  let s := moveRings ((s.sqs.map (fun e => e.2.fetched.length + 1)).sum) s
  forEach s ((s.cqs.map (·.1)).filter (fun c => bitAt s (cqPage c) 0x11C 16)) unblock
/-- A request reaches EMB, from inside or as the next entry of a ring. [DESIGN CHOICE, log 90] -/
def message (s : State) (m : SvcRequest) : State :=
  if !embTakes s m then s
  else match m.ring with
    | none => embDeliver s m 0
    | some r =>
      let n := r.toNat
      let slots := 1 + ceilDiv m.body.length 16
      if !sqReady s n 2 ∨ slotsLeft s n < slots ∨ 16 < slots ∨ !slotsFit s n slots then s
      else ringsGo (fetchEntry (askSlots s n slots) n { index := (sqConsOf s n).toNat, count := slots, msg := some m })
/-- The request of a row that names its opcode. -/
def request (s : State) (m : SvcRequest) (op : Nat) : State := message s { m with opcode := BitVec.ofNat 8 op }
/-- The request of a row that names its service as well. -/
def requestTo (s : State) (m : SvcRequest) (id op : Nat) : State :=
  message s { m with service := BitVec.ofNat 8 id, opcode := BitVec.ofNat 8 op }
/-- The message that the slots of an SVC entry spell (R406). -/
def slotMsg (n : Nat) (l : List (BitVec 128)) : SvcRequest :=
  let h := l.headD 0
  { service := BitVec.ofNat 8 (sfld h 7 0), opcode := BitVec.ofNat 8 (sfld h 15 8), noResp := sfld h 18 18 = 1
    tag := BitVec.ofNat 16 (sfld h 47 32), key := BitVec.ofNat 32 (sfld h 95 64), ring := some (BitVec.ofNat 8 n)
    body := fitBytes (sfld h 103 96) ((l.drop 1).flatMap (fun x => leBytes 16 x.toNat)) }
/-- SVC_ENTRY: the next entry of an SVC ring (R406, R433). [DEDUCED, log 93] -/
def svcIn (s : State) (n : Nat) (slots : HostRead (List (BitVec 128))) : State :=
  if !sqReady s n 2 then s
  else match slots with
  | .error => halt (askSlots s n 1) 10 n false (sqConsOf s n).toNat []
  | .ok l =>
    let h := l.headD 0
    let k := sfld h 23 20 + 1
    let cause := if slotsLeft s n < k then 1 else if sfld h 19 19 ≠ 0 ∨ sfld h 63 48 ≠ 0 ∨ sfld h 127 104 ≠ 0 then 3
      else if 16 * (k - 1) < sfld h 103 96 then 8 else 0
    let idx := (sqConsOf s n).toNat
    let m := slotMsg n (l.take k)
    if cause ≠ 0 then halt (askSlots s n k) cause n false idx l
    else if !embTakes s m ∨ !slotsFit s n k then s
    else fetchEntry (askSlots s n k) n { index := idx, count := k, slots := l, msg := some m }
/-- The messages held for a freeze go on in order, once it has ended (R412, R414). -/
def embRelease (s : State) : State := forEach { s with embHold := [] } s.embHold (fun s e => embDeliver s e.1 e.2)
/-- Messages that were taken back go to the engines that now own their keys (R418). -/
def embAgain (s : State) : State := forEach { s with redeliv := [] } s.redeliv (fun s e => embDeliver s e.1 e.2)
/-- What EMB and the engines do of themselves: they go on, redeliver, and give out what a freeze that was abandoned held back. -/
def embSettle (s : State) : State :=
  let s := embAgain (if s.inHand.isEmpty then s else workHands s)
  if s.embHold.isEmpty ∨ s.svcOp.isSome then s else embRelease s
/-- MIGRATION_DONE: what the source had not finished is redelivered to the target, and then the held messages go to it (R412, R418). -/
def migrated (s : State) (us : Nat) : State :=
  match s.svcOp with
  | some (.migrate _ _) => embRelease (embAgain (migrateEnd s us))
  | _ => s

/-! ### Timers and events of services -/

/-- The CCM interval of a MEP: a continuity check is sent, and a loss is reported (R405). [DEDUCED, log 50] -/
def ccmTimer (s : State) (mep : Nat) (missed : Bool) : State :=
  if (svcBlocks s 5).isEmpty ∨ !(s.svcObjs.any (fun o => o.1 == 5 && o.2.1 == mep)) then s
  else
    let s := emit s (.serviceFrame 5 mep)
    if missed then tell s 5 0x80 [mep] else s
/-- The period of a subscription: what it collected is sent. [DEDUCED, log 50] -/
def telemTimer (s : State) (sub : Nat) : State :=
  if (svcBlocks s 6).isEmpty ∨ !(s.svcObjs.any (fun o => o.1 == 6 && o.2.1 == sub)) then s
  else let r := fresh s; tell r.2 6 0x80 [sub, r.1]
/-- A pair event, where the state shown by SPN_PAIR_STAT has moved. [DEDUCED, log 50] -/
def pairNote (before : Nat) (s : State) : State :=
  let w := (rd s spnPairPage 0x130).toNat
  if w % 256 = before % 256 then s else tell s 2 0x80 [w]
/-- Two-step stamps of host-sent messages that wait for delivery. [DEDUCED, log 50; DEDUCED, log 74] -/
def stampNotes (s : State) : State :=
  forEach s (s.stamps.filter (fun t => s.txWait.any (fun w => w.ring == t.ring && w.tag == t.tag))) (fun s t => tell s 3 0x80 [t.port, t.ring, t.tag, t.bc])

end Sys2Proof.Machine
end

