-- ==== Sys2Proof/Machine/SettleOps.lean ====
section
/-! DEFINITION. The end of a command: what its changes bring about at once. Bascule follows its time bases (R383, R386),
EMB gives out what a freeze held (R414), host stamps and losses complete (R436), escalations climb (R489 to R492), failed
pipelines fail over (R501), isolated engine blocks lose their window locks (R400), and due messages are sent (R70, R449). -/

namespace Sys2Proof.Machine

/-- The engine block that holds a window lock, from the stored TBL_LOCK (R65). -/
def lockBlock (v : Nat) : Option Nat := if 0x140 ≤ v ∧ v < 0x180 then some (v - 0x140) else none
/-- Locks that isolated engine blocks hold are released (R65, R400). -/
def releaseLocks (s : State) : State :=
  let l := (s.regs.filter (fun e => e.1 % 4096 == 0xF0C &&
    (match lockBlock e.2.toNat with | some k => isolated s (ebkPage k) | none => false))).map (fun e => e.1 / 4096)
  forEach s l (fun s p => wr s p 0xF0C 0)
/-- R501: automatic failover matters only once something is held or in reset. [DEDUCED, log 99] -/
def failoverAll (s : State) : State := if s.holds.isEmpty && s.resets.isEmpty then s else autoFailovers s
/-- Frames of a line pipeline have waited for 1 µs with no slot issued: IPL source 0, again after each further µs (R160). -/
def slotStalls (s : State) : State :=
  forEach s (((s.pipes.filter (fun e => decide (e.1 < 4) && !(e.2.arrivals.isEmpty && e.2.recirc.isEmpty) && decide (e.2.waitFrom + usUnits 1 ≤ now s))).map (·.1)))
    (fun s k => raise (setPipe s k { pipeOf s k with waitFrom := now s }) (iplPage k) 0)
/-- Entries on chip start and reads of copies are issued as soon as they can be (R440, R463). -/
def ringsSettle (s : State) : State :=
  let s := if s.sqs.all (fun e => e.2.fetched.isEmpty && !e.2.waiting) then s else ringsGo s
  if s.chans.all (fun e => e.2.entries.all (fun x => !x.due)) then s else issueReads s
/-- Everything that a command brings about besides its own effect. [DESIGN CHOICE, log 8] -/
def finish (s : State) : State :=
  signal (signalRings (releaseLocks (holdGroups (failoverAll (escalateAll 64 (d2dSignals (slotStalls (resyncSettle (hostLost (hostStamps (embSettle (ringsSettle (bscSettle s)))))))))))))
/-- The state a command leaves: `t` is what its own effect made of `s`; then everything that follows at once. The queue of waiting
commands is no part of any command's effect. [DESIGN CHOICE, log 8] -/
def closed (s t : State) : State := { finish t with pending := s.pending }
/-- A command completes. [DESIGN CHOICE, log 8] -/
def done (s t : State) : Host.Outcome State Fault Refusal := .next (closed s t)

end Sys2Proof.Machine
end

