-- ==== Sys2Proof/Machine/EventOps.lean ====
section
/-! DEFINITION. Operations that one row alone needs: the FDB walker's visit, alignment markers, the PCIe events, frames at
designated ports in footway mode, parts of the register commands. -/

namespace Sys2Proof.Machine

/-! ### The walker (R181, R182, R184) -/

/-- FDB_AGE_CFG.age_time in base units. -/
def ageUnits (s : State) (k : Nat) : Nat := min 1000000 (fld s (fdbPage k) 0x104 19 0) * 153600000000
/-- A pass starts: it is an ageing pass where age_time has passed since the last one. -/
def passBegin (s : State) (k : Nat) : State :=
  let x := pipeOf s k
  let age := decide (0 < ageUnits s k) && decide (x.passStart + ageUnits s k ≤ now s)
  setPipe s k { x with ageing := age, passStart := if age then now s else x.passStart }
/-- An entry that the flush in progress matches goes. -/
def flushEntry (s : State) (k i : Nat) : State :=
  match (pipeOf s k).flushes with
  | f :: _ => if ebit (fdbAt s k i) 127 && flushHits f.value (fdbAt s k i) then deleteEvent (fdbWrite s k i (esetFld (fdbAt s k i) 127 127 0)) k (fdbAt s k i) else s
  | [] => s
/-- WALKER_VISIT: the next bucket. [DEDUCED, log 62] -/
def walkBucket (s : State) (k : Nat) : State :=
  if !serving s (fdbPage k) then s
  else
    let b := (pipeOf s k).bucket
    let s := if b = 0 then passBegin s k else s
    let age := (pipeOf s k).ageing
    let s := forEach s (ways b) (fun s i => flushEntry (walkEntry s k i age) k i)
    setPipe s k { pipeOf s k with bucket := (b + 1) % fdbBuckets k }
/-- FDB_FLUSH_DONE: the flush at the front has visited every bucket. [DEDUCED, log 62; DEDUCED, log 62] -/
def flushOver (s : State) (k : Nat) : State :=
  match (pipeOf s k).flushes with
  | [] => s
  | f :: rest =>
    let s := fdbFlushNow s k f.value
    raise (setPipe s k { pipeOf s k with flushes := rest }) (fdbPage k) 6

/-! ### Alignment markers (R356) -/

/-- A replica at a marker: mismatched ones are counted and reloaded, reloaded ones report until they match twice in a row. -/
def markReplica (bad : List Nat) (s : State) (p : Nat) : State :=
  let put (n : Nat) (s : State) : State := { s with replicas := mapSet (fun _ => 0) s.replicas p n }
  if bad.contains p then put 1 (raise (inc s tdsPage 0x100) tdsPage 0 0 p)
  else if mapGet (fun _ => 0) s.replicas p = 1 then put 2 (raise s tdsPage 0 0 p)
  else put 0 s
def marker (s : State) (bad : List Nat) : State :=
  if !serving s tdsPage then s
  else forEach s (bad ++ ((s.replicas.map (·.1)).filter (fun p => !bad.contains p))) (markReplica bad)

/-! ### PCIe (R25, R34, R424, R450) -/

def hostReset (s : State) : State := if s.mode = .run then resetScope s (.region 8) else s
/-- PERST_N: low resets the HST region with the link and the configuration space; at its rise the link trains. [DESIGN CHOICE, log 30; DESIGN CHOICE, log 40] -/
def perst (s : State) (low : Bool) (speed width : Nat) : State :=
  let s := { s with pins := { s.pins with perstN := !low }, pcie := { linkUp := !low, speed := speed, width := width } }
  if low then hostReset s else s
/-- CK_PCIE is lost: the link goes. [DESIGN CHOICE, log 40] -/
def pcieClockLost (s : State) : State := { s with pcie := { s.pcie with linkUp := false } }
/-- A hot reset or link down: link, configuration space and HST region. [DESIGN CHOICE, log 40] -/
def linkLost (s : State) : State := hostReset { s with pcie := { linkUp := s.pins.perstN, speed := s.pcie.speed, width := s.pcie.width } }
/-- Ring indices whose reads waited for PCIe are read (R424, R430). -/
def hostResume (s : State) : State :=
  if !pcieLive s then s
  else
    let s := forEach s ((s.sqs.filter (fun e => e.2.readDue)).map (·.1)) (fun s n =>
      emit (setSq s n { sqOf s n with readDue := false }) (.hostRead (sqOf s n).rcb 4))
    forEach s ((s.cqs.filter (fun e => e.2.readDue)).map (·.1)) (fun s n =>
      emit (setCqRing s n { cqRing s n with readDue := false }) (.hostRead (cqRing s n).rcb 4))
/-- Bus Master Enable and the power state, as the host sets them in configuration space. [PRESUMED, log 131] -/
def configPower (s : State) (bme d3hot : Bool) : State :=
  if s.pcie.linkUp && domOn s 170 then
    let s := { s with pcie := { s.pcie with bme := bme, d3hot := d3hot } }
    hostResume (forEach s (s.cqs.map (·.1)) (fun s n => drainCq s n (cqRing s n).held.length))
  else s
def flr (s : State) : State := if s.pcie.linkUp && domOn s 170 then hostReset s else s

/-! ### Configuration space and the MSI-X table (R3, R423, R424) -/

/-- The identity of the function (R3, R423): vendor and device, and class code and Revision ID, which is the stepping. -/
abbrev pciId : Nat := 0x64401FE4
/-- [PRESUMED, log 131] -/
abbrev pciClass : Nat := 0x02000010
/-- A word of configuration space: the identity, Bus Master Enable in bit 2 of the command word, and free values where the spec says
nothing. [PRESUMED, log 131] -/
def configWord (s : State) (a : Nat) : Nat × State :=
  let f := fresh s
  match a / 4 with
  | 0 => (pciId, s)
  | 1 => (withBits f.1 2 2 (b2n s.pcie.bme), f.2)
  | 2 => (pciClass, s)
  | _ => f
/-- A word of BAR4: the table's address and data words, its mask bits, and the pending bits. [PRESUMED, log 31] -/
def msixWord (s : State) (a : Nat) : Nat :=
  if a < 0x2000 then (if a % 16 = 12 then b2n (s.pcie.mask.testBit (a / 16)) else (mapGet (fun _ => 0#32) s.pcie.msix (a / 4 * 4)).toNat)
  else if 0x8000 ≤ a ∧ a < 0x8040 then s.pcie.pend / 2 ^ (8 * (a - 0x8000)) % 2 ^ 32
  else 0
/-- A word of the MSI-X table is written: a vector's mask bit, or a word of its message. [PRESUMED, log 31] -/
def msixPut (s : State) (a v : Nat) : State :=
  if 0x2000 ≤ a then s
  else if a % 16 = 12 then { s with pcie := { s.pcie with mask := withBits s.pcie.mask (a / 16) (a / 16) v } }
  else { s with pcie := { s.pcie with msix := mapSet (fun _ => 0#32) s.pcie.msix (a / 4 * 4) (BitVec.ofNat 32 v) } }
/-- The host reaches a space that is no register page; configuration space in D3hot too. -/
def spaceReach (s : State) (r : Requester) (sp : Aperture) : Bool :=
  decide (r = .host) && s.mode == .run && s.pcie.linkUp && domOn s 170 && (sp == .config || sp == .serialNumber || !s.pcie.d3hot)
/-- Its access goes through: it is aligned and whole (R40). [DEDUCED, log 20] -/
def spaceOpen (a size : Nat) : Bool := (size == 4 || size == 8) && a % size == 0
/-- A read in the space named. -/
def spaceRead (s : State) (r : Requester) (sp : Aperture) (a size : Nat) : State :=
  if sp = .bar0 then busRead s r a size
  else if !spaceReach s r sp then { s with resp := .none }
  else if !spaceOpen a size then refuseAcc s .host 5 a false
  else
    let word (s : State) (a : Nat) : Nat × State := match sp with
      | .config => configWord s a
      | .serialNumber => (Config.serial.toNat / 2 ^ (8 * a) % 2 ^ 32, s)
      | _ => (msixWord s a, s)
    let x := word s a
    if size = 8 then let y := word x.2 (a + 4); { y.2 with resp := .value (BitVec.ofNat 64 (x.1 % 2 ^ 32 + y.1 % 2 ^ 32 * 2 ^ 32)) }
    else { x.2 with resp := .value (BitVec.ofNat 64 (x.1 % 2 ^ 32)) }
/-- A write in the space named: the MSI-X table takes it, and so does Bus Master Enable; the identity and the serial number are read
only, and what else configuration space holds the spec does not give. -/
def spaceWrite (s : State) (r : Requester) (sp : Aperture) (a size : Nat) (v : DWord) : State :=
  if sp = .bar0 then busWrite s r a size v
  else if !spaceReach s r sp then { s with resp := .none }
  else if !spaceOpen a size then refuseAcc s .host 5 a true
  else
    let put (s : State) (a v : Nat) : State := match sp with
      | .bar4 => msixPut s a v
      | .config => if a = 4 then configPower s (bitOf v 2) s.pcie.d3hot else s
      | _ => s
    let s := put s a (v.toNat % 2 ^ 32)
    { (if size = 8 then put s (a + 4) (v.toNat / 2 ^ 32) else s) with resp := .done }

/-! ### Frames at a port (R507, R575) -/

/-- A port that drains refuses a frame that arrives, MAC control frames apart (R45). [DEDUCED, log 44] -/
def rxRefused (s : State) (port : Nat) (bs : List Byte) : Bool :=
  draining s (portPage port) && pageOn s (portPage port) && !inReset s (portPage port) && !isMacControl bs
/-- What a port delivers to its MAC. -/
def frameIn (s : State) (port : Nat) (rx : RxEvent) : State :=
  if 105 < port then s
  else match rx with
    | .whole bs fcs sym icv => if rxRefused s port bs then macDrop s port 0xE1 else receiveWhole spanRx s port (rxStamp s port) bs fcs sym icv
    | .begins bs =>
      if rxRefused s port bs then macDrop { s with rxOpen := mapSet (fun _ => none) s.rxOpen port none } port 0xE1
      else receiveBegin s port bs
    | .ends len fcs sym icv => receiveEnd spanRx s port len fcs sym icv
/-- SCHEDULER_SELECT: footway FIFOs, the host port and the engine port have their own service. -/
def selectAt (s : State) (port : Nat) : State :=
  if fwActive s port then fwSend s port
  else if port = 112 then hostSelect s none
  else if port = 113 then engineSelect s
  else schedSelect s port
/-- A bank's counter has reached zero. -/
def retire (s : State) (b : BankTarget) : State :=
  match b with
  | .rules k => setPipe s k.toNat { pipeOf s k.toNat with rul := (pipeOf s k.toNat).rul.retire }
  | .meters k => setPipe s k.toNat { pipeOf s k.toNat with mtr := (pipeOf s k.toNat).mtr.retire }
  | .gates port => if (eportOf s port.toNat).tx.isNone then gatFree s port.toNat else s
/-- QUEUE_ADMISSION: the oldest copy that stands before its queue. -/
def admitNext (s : State) : State :=
  match s.admitting with
  | [] => s
  | c :: rest => admitCopy { s with admitting := rest } c
/-- COLLISION; the eighth in a row under PLCA is a node event (R110, R405). -/
def collision (s : State) (port : Nat) (late : Bool) : State :=
  let plca := plcaLive s port
  let s := collide s port late
  if plca && (collOf s port).attempts == 8 then tell s 7 0x80 [port] else s
/-- MODULE_REMOVE, with the MODULE service's notification. -/
def moduleGone (s : State) (c : Nat) : State :=
  if cageState s c = 0 then modOut s c else tell (modOut s c) 12 0x80 [c, 0]

/-! ### Time bases and lifts -/

/-- TB_CHANGE_RELEASE: what R348 held back applies. [DESIGN CHOICE, log 5] -/
def changeRelease (s : State) (k : Nat) : State :=
  let t := tbOf s k
  let any := t.heldSet.isSome || t.heldSetNow.isSome || t.heldStep.isSome || t.heldRate.isSome || t.heldServo.isSome || t.heldSlew.isSome
  if any && mayChange s k then (applyHeld s k).2 else s
/-- SLEW_END: the remainder has reached zero. -/
def slewOver (s : State) (k : Nat) : State := if (tbOf s k).slewEnd ≤ now s then endSlew s k else s
/-- LIFT_LAUNCH; a change of a transmit SA is told by MKA. -/
def launchNoted (s : State) (i : Nat) : State :=
  let e := liftRec s i
  let old := tget s (liftTarget e) 0 0 (efld e 319 256 % 128)
  let s := launch s i
  if liftAction e = 5 ∧ tget s (liftTarget e) 0 0 (efld e 319 256 % 128) ≠ old then
    tell s 9 0x80 [liftTarget e, efld e 319 256 % 128, efld e 319 256 / 128 % 2] else s

/-! ### Parts of the commands that are register accesses -/

/-- A 4-byte access of a requester to a register goes through. -/
def opened (s : State) (r : Requester) (p o : Nat) : Bool := reach s r && accKind s r (p * 4096 + o) 4 == 0
/-- The RW and RWS bits of a register as it stands, with the bits under `mask` replaced: what software writes back. -/
def rewritten (s : State) (p o mask v : Nat) : Nat :=
  match regRow p o with
  | none => v &&& mask
  | some r => ((rd s p o).toNat &&& (r.rw ||| r.rws) &&& (all32 ^^^ mask)) ||| (v &&& mask)
/-- A register written back with some bits replaced; triggers outside `mask` are written 0. -/
def regUpdate (s : State) (r : Requester) (p o mask v : Nat) : State := regWrite s r p o (rewritten s p o mask v)
/-- TBL_CMD is written. -/
def tblCommand (s : State) (r : Requester) (p op : Nat) : State := regWrite s r p 0xF04 op
/-- A requester loads TBL_ADDR and the words of an entry and gives op 2; the command completes. -/
def tblCommit (s : State) (r : Requester) (p a words : Nat) (e : Entry) : State :=
  let idle := (mapGet (fun _ => none) s.tblCmd p).isNone
  let s := regWrite s r p 0xF00 a
  let s := forEach s (List.range words) (fun s i => regWrite s r p (0xF10 + 4 * i) (e.toNat / 2 ^ (32 * i) % 2 ^ 32))
  let s := tblCommand s r p 2
  if idle && (mapGet (fun _ => none) s.tblCmd p).isSome then tblDone s p else s
/-- Readmission of a channel with the DIMM that stands in it: its serial number and capacity. -/
def readmit (s : State) (r : Requester) (k serial cap : Nat) : State :=
  let ok := opened s r cstPage 0x12C
  let s := regUpdate s r cstPage 0x12C 0xF k
  if ok then readmitStart s serial cap else s
/-- The end of a readmission; the channel was trained with the PHY firmware that stands ready for it (R538). -/
def readmitOver (s : State) : State :=
  match s.cust.readmitting with
  | none => s
  | some k => takePhy (readmitEnd s) (2 ^ k)
/-- adapt_now with the SNR that the lane comes to. -/
def adaptWith (s : State) (r : Requester) (quad lane snr : Nat) : State :=
  let p := sdqPage quad
  let o := 0x148 + 0x20 * lane
  let ok := opened s r p o && !bitAt s p o 1
  let s := regUpdate s r p o 1 1
  if ok then setFld s p (0x14C + 0x20 * lane) 15 8 snr else s
/-- INJ_CTL is written with a kind and go, sticky as it stands. -/
def injectKind (s : State) (r : Requester) (kind : Nat) : State := regUpdate s r injPage 0x100 0x8000000F (kind + 2 ^ 31)
/-- SEC_CMD is written with a code and go; `g` is what the command is given besides. -/
def secCommand (s : State) (r : Requester) (code : Nat) (g : SecCmd → SecCmd) : State :=
  let idle := s.boot.cmd.isNone
  let s := regWrite s r secPage 0x100 (code + 2 ^ 31)
  if idle then secWith s code g else s
/-- CQ_DB is written, and the read of cons it starts returns. -/
def cqRing' (s : State) (r : Requester) (n : Nat) (cons : HostRead Word) : State :=
  let ok := opened s r (cqPage n) 0x100
  let s := regWrite s r (cqPage n) 0x100 0
  if ok then cqConsIn s n cons else s
/-- BOOT_HOST_GO with the bundle that the host has placed. [DESIGN CHOICE, log 37] -/
def bootHost (s : State) (r : Requester) (b : HostRead Bundle) : State :=
  let ok := opened s r bootPage 0x11C
  let s := regWrite s r bootPage 0x11C 1
  if ok then hostGo s b else s
/-- A quota register: granule quotas are whole registers, page quotas share one. -/
def quotaPut (s : State) (r : Requester) (q : Pool) (i : Nat) (isMax : Bool) (v : Nat) : State :=
  match q with
  | .granules => regWrite s r bpmPage (0x140 + 8 * i + (if isMax then 4 else 0)) v
  | .pages => if isMax then regUpdate s r ppmPage (0x140 + 4 * i) 0x07FF0000 (v % 2048 * 65536) else regUpdate s r ppmPage (0x140 + 4 * i) 0x7FF (v % 2048)
/-- HANDOVER of a span link: the partner names the old link, or answers the own HANDOVER. -/
def handoverAt (s : State) (old new : Nat) (fromPartner : Bool) (cums : List Word) : State :=
  if !joined s new then s
  else if fromPartner then handoverIn s old new
  else if s.span.handover = some old then handoverDone s old new cums
  else s
/-- BPDU_RELAY; a topology change that crosses is told by L2CP. -/
def bpduRelayed (s : State) (outbound : Bool) (port : Nat) (body : List Byte) : State :=
  let tc := body.getD 3 0 == 0x80 || (body.getD 4 0).toNat % 2 == 1
  let s := bpdu s outbound port body
  if tc then tell s 8 0x80 [port] else s

end Sys2Proof.Machine
end

