-- ==== Sys2Proof/Machine/Operands.lean ====
section
/-! DEFINITION. The operands of the commands: which numbers name a port, a pipeline, a queue, a pair or a sequence space, and
the words that some commands write. A command whose operand names nothing changes nothing. -/

namespace Sys2Proof.Machine

/-- `t` where the operands name something, `s` where they do not. [DESIGN CHOICE, log 4] -/
def onlyIf (ok : Bool) (s t : State) : State := if ok then t else s
/-- A line, field or management port (R18). [DESIGN CHOICE, log 4] -/
def macPort (p : Nat) : Bool := decide (p ≤ 105)
/-- A field or management port (R102). [DESIGN CHOICE, log 4] -/
def fieldPort (p : Nat) : Bool := decide (64 ≤ p) && decide (p ≤ 105)
/-- A management port (R111). -/
def mgtPort (p : Nat) : Bool := p == 104 || p == 105
/-- A pipeline: LN0 to LN3, or the field pipeline as 4. [DESIGN CHOICE, log 4] -/
def pipeNo (k : Nat) : Bool := decide (k ≤ 4)
/-- A queue of a queue-bearing port (R234). [DESIGN CHOICE, log 4] -/
def queueNo (q : Nat) : Bool := isQueuePort (qPort q)
/-- A sense pair (R122). [DESIGN CHOICE, log 4] -/
def sensePair (k : Nat) : Bool := decide (k < 40)
/-- A sequence space of a span link (R314). [DESIGN CHOICE, log 4] -/
def spaceNo (c : Nat) : Bool := decide (c ≤ 8)
/-- MGT_MDIO_CMD with its op and start (R116). -/
def mdioWord (cmd op : Nat) : Nat := withBits (cmd % 2 ^ 14) 12 11 op + 2 ^ 31
/-- SPN_PAIR_STAT (R336). -/
def spanStat (s : State) : Nat := (rd s spnPairPage 0x130).toNat

end Sys2Proof.Machine
end

