-- ==== Sys2Proof/Machine/Bascule.lean ====
section
/-! DEFINITION. The meanings of the commands of lifts (chapter 12). -/

namespace Sys2Proof.Machine

/-- LIFT_ARM (R377). A lift record committed with valid 1 arms the lift or starts agreement, or is refused. -/
def execLiftArm (req : Requester) (index : BitVec 12) (record : BitVec 384) (s : State) : Host.Outcome State Fault Refusal :=
  done s (tblCommit s req bscPage index.toNat 12 (record.setWidth 1920))
/-- LIFT_DISPATCH (R382). 2 us before its launch count, the lift is dispatched to its target. -/
def execLiftDispatch (index : BitVec 12) (s : State) : Host.Outcome State Fault Refusal :=
  done s (dispatch s index.toNat)
/-- LIFT_LAUNCH (R382). The target's replica reaches the launch count and performs the action. -/
def execLiftLaunch (index : BitVec 12) (s : State) : Host.Outcome State Fault Refusal :=
  done s (launchNoted s index.toNat)
/-- LIFT_CANCEL (R389). BSC_CANCEL cancels a lift or group, or reports too_late or refused. -/
def execLiftCancel (req : Requester) (value : Word) (s : State) : Host.Outcome State Fault Refusal :=
  done s (regWrite s req bscPage 0x108 (value.toNat ||| 2 ^ 31))
/-- LIFT_ANNOUNCE (R391). BSC_ANNOUNCE announces a coordinated group to the partner. -/
def execLiftAnnounce (req : Requester) (value : Word) (s : State) : Host.Outcome State Fault Refusal :=
  done s (regWrite s req bscPage 0x124 (value.toNat ||| 2 ^ 31))
/-- ANNOUNCE (R392). A received ANNOUNCE is matched, kept, or rejected by the primary. -/
def execAnnounce (fields : CoordFields) (s : State) : Host.Outcome State Fault Refusal :=
  done s (announceIn s fields)
/-- COMMIT (R393). The secondary receives COMMIT, becomes committed and answers COMMITTED. -/
def execCommit (group : BitVec 8) (s : State) : Host.Outcome State Fault Refusal :=
  done s (commitIn s group.toNat)
/-- COMMITTED (R393). The primary receives COMMITTED and its lifts become ARMED. -/
def execCommitted (group : BitVec 8) (s : State) : Host.Outcome State Fault Refusal :=
  done s (committedIn s group.toNat)
/-- REJECT (R393). A received REJECT makes the group ABANDONED. -/
def execReject (group : BitVec 8) (_cause : BitVec 8) (s : State) : Host.Outcome State Fault Refusal :=
  done s (rejectIn s group.toNat)
/-- CANCEL (R394). A received CANCEL cancels the partner's half and is answered CANCELLED. -/
def execCancel (group : BitVec 8) (firstOccurrence : Word) (s : State) : Host.Outcome State Fault Refusal :=
  done s (cancelIn s group.toNat firstOccurrence.toNat)
/-- CANCELLED (R394). A received CANCELLED completes the cancellation of a coordinated group. -/
def execCancelled (group : BitVec 8) (firstOccurrence : Word) (s : State) : Host.Outcome State Fault Refusal :=
  done s (cancelledIn s group.toNat firstOccurrence.toNat)
/-- COMMIT_DEADLINE (R393). A member not committed at the commit deadline resolves the group by fail_solo. -/
def execCommitDeadline (group : BitVec 8) (s : State) : Host.Outcome State Fault Refusal :=
  done s (deadlinePassed s group.toNat)
/-- BSC_DONE_POP (R396). A read of BSC_DONE removes the oldest completion from the done FIFO. -/
def execBscDonePop (req : Requester) (s : State) : Host.Outcome State Fault Refusal :=
  done s (busRead s req (wordAddr bscPage 0x110) 4)

end Sys2Proof.Machine
end

