-- ==== Sys2Proof/Machine/Captures.lean ====
section
/-! DEFINITION. The meanings of the commands of capture partitions (chapter 16). -/

namespace Sys2Proof.Machine

/-- CAPTURE_ENABLE (R484). CAP_PTn_CFG.enable grants or releases a capture partition's pages. -/
def execCaptureEnable (req : Requester) (part : BitVec 4) (on : Bool) (s : State) : Host.Outcome State Fault Refusal :=
  done s (regUpdate s req capPage (capOff part.toNat) 0x1 (b2n on))
/-- CAPTURE_ARM (R484). arm empties the ring and starts RECORDING. -/
def execCaptureArm (req : Requester) (part : BitVec 4) (s : State) : Host.Outcome State Fault Refusal :=
  done s (regWrite s req capPage (capOff part.toNat + 0x0C) 0x1)
/-- CAPTURE_TRIGGER (R484). trigger records the trigger point and moves the partition to TRIGGERED. -/
def execCaptureTrigger (req : Requester) (part : BitVec 4) (s : State) : Host.Outcome State Fault Refusal :=
  done s (regWrite s req capPage (capOff part.toNat + 0x0C) 0x2)
/-- CAPTURE_FREEZE (R484). freeze stops writing records. -/
def execCaptureFreeze (req : Requester) (part : BitVec 4) (s : State) : Host.Outcome State Fault Refusal :=
  done s (regWrite s req capPage (capOff part.toNat + 0x0C) 0x4)
/-- CAPTURE_POST_DONE (R484). The post pages have been written since the trigger, so the partition freezes. -/
def execCapturePostDone (part : BitVec 4) (s : State) : Host.Outcome State Fault Refusal :=
  done s (capPost s part.toNat)

end Sys2Proof.Machine
end

