-- ==== Sys2Proof/Machine/Copies.lean ====
section
/-! DEFINITION. The meanings of the commands of copy channels (chapter 15). -/

namespace Sys2Proof.Machine

/-- COPY_EXECUTE (R462). A copy channel starts its next entry after the previous one. -/
def execCopyExecute (channel : BitVec 4) (s : State) : Host.Outcome State Fault Refusal :=
  done s (copyStart s channel.toNat)
/-- COPY_READ_RESPONSE (R466). A source read response arrives; data is written, or an error ends the entry. -/
def execCopyReadResponse (channel : BitVec 4) (data : HostRead (List Byte)) (last : Bool) (s : State) : Host.Outcome State Fault Refusal :=
  done s (copyBeat s channel.toNat data last)
/-- SCRATCH_RESIZE (R458). DMA_SCRATCH.go replaces the scratch area, or is refused. -/
def execScratchResize (req : Requester) (value : Word) (s : State) : Host.Outcome State Fault Refusal :=
  done s (regWrite s req dmaPage 0x104 (value.toNat ||| 2 ^ 31))
/-- SCRATCH_DONE (R458). The scratch change completes. -/
def execScratchDone (s : State) : Host.Outcome State Fault Refusal :=
  done s (scratchEnd s)

end Sys2Proof.Machine
end

