-- ==== Sys2Proof/Machine/Custody.lean ====
section
/-! DEFINITION. The meanings of the commands of the custody store (chapter 09). -/

namespace Sys2Proof.Machine

/-- CUSTODY_EN_APPLY (R274). A pending custody_en change takes effect when the queue is next empty. -/
def execCustodyEnApply (queue : BitVec 10) (s : State) : Host.Outcome State Fault Refusal :=
  done s (onlyIf (queueNo queue.toNat) s (custodyEnNow s queue.toNat))
/-- SETTLE_EXPIRE (R284). The settle time ends and replay of the custody queue starts. -/
def execSettleExpire (queue : BitVec 10) (s : State) : Host.Outcome State Fault Refusal :=
  done s (onlyIf (queueNo queue.toNat) s (settleDone s queue.toNat))
/-- REPLAY_ADMIT (R284). A custody record is admitted to the SRAM queue as a new arrival when the replay bucket allows. -/
def execReplayAdmit (queue : BitVec 10) (s : State) : Host.Outcome State Fault Refusal :=
  done s (onlyIf (queueNo queue.toNat) s (replayOne s queue.toNat))
/-- EXPIRY_INSPECT (R280). Once every expiry lag, CUSTODY discards expired records from the head of a queue. -/
def execExpiryInspect (queue : BitVec 10) (s : State) : Host.Outcome State Fault Refusal :=
  done s (onlyIf (queueNo queue.toNat) s (expireNow s queue.toNat))
/-- CUSTODY_FLUSH (R286). CST_FLUSH.go discards every record of a custody queue. -/
def execCustodyFlush (req : Requester) (value : Word) (s : State) : Host.Outcome State Fault Refusal :=
  done s (regWrite s req cstPage 0x128 (value.toNat ||| 2 ^ 31))
/-- PFW_N_ACCEPT (R287). PFW_N low for 20 us is accepted and the power-fail sequence runs to custody hold. -/
def execPfwNAccept (s : State) : Host.Outcome State Fault Refusal :=
  done s (pfwAccept s)
/-- CUSTODY_HOLD_ENTER (R289). CST_HOLD_CTL.enter journals custody and enters custody hold with hold cause 3. -/
def execCustodyHoldEnter (req : Requester) (s : State) : Host.Outcome State Fault Refusal :=
  done s (regWrite s req cstPage 0x138 1)
/-- CUSTODY_HOLD_ABANDON (R292). CST_HOLD_CTL.abandon drives CUSTODY_HOLD low without stopping the rebuild. -/
def execCustodyHoldAbandon (req : Requester) (s : State) : Host.Outcome State Fault Refusal :=
  done s (regWrite s req cstPage 0x138 2)
/-- CHECKPOINT_JOURNAL (R291). Every JRN_CFG.period ms a checkpoint journal is written. -/
def execCheckpointJournal (s : State) : Host.Outcome State Fault Refusal :=
  done s (checkpointDue s)
/-- JOURNAL_NOW (R291). JRN_CTL.now writes a checkpoint journal at once. -/
def execJournalNow (req : Requester) (s : State) : Host.Outcome State Fault Refusal :=
  done s (regWrite s req jrnPage 0x104 1)
/-- HOLD_EXIT_TIMER (R292). The exit condition of the hold cause has held for 100 ms, so a cold chip reset starts. -/
def execHoldExitTimer (s : State) : Host.Outcome State Fault Refusal :=
  done s (holdExit s)
/-- REBUILD_PHASE_DONE (R293). A rebuild phase completes and the next begins; at the end CST becomes ready. -/
def execRebuildPhaseDone (s : State) : Host.Outcome State Fault Refusal :=
  done s (rebuildNext s)
/-- CHANNEL_DRAIN (R295). CST_DRAIN.go starts migrating a channel's custody pages, or is refused. -/
def execChannelDrain (req : Requester) (channel : BitVec 4) (s : State) : Host.Outcome State Fault Refusal :=
  done s (regUpdate s req cstPage 0x12C 0x10F (channel.toNat + 0x100))
/-- PAGE_MIGRATE (R296). One custody page is copied to another channel and relinked. -/
def execPageMigrate (page : Nat) (s : State) : Host.Outcome State Fault Refusal :=
  done s (migrate s page)
/-- DRAIN_DONE (R295). The channel holds no HELD page, so done is set. -/
def execDrainDone (s : State) : Host.Outcome State Fault Refusal :=
  done s (drainEnd s)
/-- DRAIN_ABORT (R295). CST_DRAIN.abort stops the drain between pages and resumes grants on the channel. -/
def execDrainAbort (req : Requester) (s : State) : Host.Outcome State Fault Refusal :=
  done s (regUpdate s req cstPage 0x12C 0x200 0x200)
/-- CHANNEL_READMIT (R297). CST_DRAIN.readmit checks, trains and initialises a replaced DIMM and returns its pages to the pool. -/
def execChannelReadmit (req : Requester) (channel : BitVec 4) (serial : Word) (capacityTib16 : Nat) (s : State) : Host.Outcome State Fault Refusal :=
  done s (readmit s req channel.toNat serial.toNat capacityTib16)
/-- READMIT_DONE (R297). Readmission completes and a checkpoint journal is written to both mirrors. -/
def execReadmitDone (s : State) : Host.Outcome State Fault Refusal :=
  done s (readmitOver s)

end Sys2Proof.Machine
end

