-- ==== Sys2Proof/Machine/Electrical.lean ====
section
/-! DEFINITION. The meanings of the commands of reset pins, supplies and temperature (chapter 19). -/

namespace Sys2Proof.Machine

/-- RESET_N_RISE (R558). The rise of RESET_N gives power-good and starts the cold start or custody-hold exit. -/
def execResetNRise (s : State) : Host.Outcome State Fault Refusal :=
  done s (resetRise s)
/-- RESET_N_FALL (R556). A fall of RESET_N enters custody hold with cause 6 without a flush journal. -/
def execResetNFall (s : State) : Host.Outcome State Fault Refusal :=
  done s (resetFall s)
/-- THERMAL_SAMPLE (R561). Every 100 us the sensors are read and the junction reported. -/
def execThermalSample (readings : List (BitVec 16 × Bool)) (aonDeck aonAbut : BitVec 8) (s : State) : Host.Outcome State Fault Refusal :=
  done s (thermSample s readings aonDeck aonAbut)
/-- THROTTLE_ENTER (R562). The junction at or above 110 C for 1 ms begins throttling. -/
def execThrottleEnter (s : State) : Host.Outcome State Fault Refusal :=
  done s (throttleIn s)
/-- THROTTLE_EXIT (R562). The junction below 105 C for 1 s ends throttling. -/
def execThrottleExit (s : State) : Host.Outcome State Fault Refusal :=
  done s (throttleOut s)
/-- SUPPLY_LOSS (R291). Rails are lost without PFW_N, before custody hold, or on the DIMM or always-on rails during custody hold, and custody contents and journals are lost. -/
def execSupplyLoss (beforeHold : Bool) (s : State) : Host.Outcome State Fault Refusal :=
  done s (supplyFail s beforeHold)

end Sys2Proof.Machine
end

