-- ==== Sys2Proof/Machine/Engines.lean ====
section
/-! DEFINITION. The meanings of the commands of engines and services (chapter 13). -/

namespace Sys2Proof.Machine

/-- SERVICE_LOAD (R410). SVC_LOAD copies and verifies an image into an engine block, or is refused. -/
def execServiceLoad (req : Requester) (value : Word) (s : State) : Host.Outcome State Fault Refusal :=
  done s (regWrite s req svcPage 0x104 (value.toNat ||| 2 ^ 31))
/-- SERVICE_LOAD_DONE (R410). The block enters LOADED. -/
def execServiceLoadDone (digestOk : Bool) (s : State) : Host.Outcome State Fault Refusal :=
  done s (loadEnd s digestOk)
/-- SERVICE_START (R410). SVC_START starts a LOADED block for a service that has no running block. -/
def execServiceStart (req : Requester) (value : Word) (s : State) : Host.Outcome State Fault Refusal :=
  done s (regWrite s req svcPage 0x110 (value.toNat ||| 2 ^ 31))
/-- SERVICE_MIGRATE (R412). SVC_MIGRATE freezes a source block and moves its state and buckets to a target block. -/
def execServiceMigrate (req : Requester) (value : Word) (s : State) : Host.Outcome State Fault Refusal :=
  done s (regWrite s req svcPage 0x108 (value.toNat ||| 2 ^ 31))
/-- MIGRATION_DONE (R412). The freeze ends, the map names the target and held messages are released. -/
def execMigrationDone (freezeUs : BitVec 16) (s : State) : Host.Outcome State Fault Refusal :=
  done s (migrated s freezeUs.toNat)
/-- SERVICE_RELEASE (R411). SVC_RELEASE stops a block's service and deals its buckets to the other blocks. -/
def execServiceRelease (req : Requester) (value : Word) (s : State) : Host.Outcome State Fault Refusal :=
  done s (regWrite s req svcPage 0x10C (value.toNat ||| 2 ^ 31))
/-- SERVICE_MESSAGE (R404). EMB delivers a service message by its key to one engine. -/
def execServiceMessage (msg : SvcRequest) (s : State) : Host.Outcome State Fault Refusal :=
  done s (message s msg)
/-- ENGINE_WATCHDOG (R416). An engine that misses its watchdog period is held. -/
def execEngineWatchdog (block : BitVec 6) (engine : BitVec 4) (s : State) : Host.Outcome State Fault Refusal :=
  done s (holdEngine s block.toNat engine.toNat 1)
/-- ENGINE_FAULT (R416). A local ECC error or instruction fault holds the engine. -/
def execEngineFault (block : BitVec 6) (engine : BitVec 4) (instruction : Bool) (s : State) : Host.Outcome State Fault Refusal :=
  done s (holdEngine s block.toNat engine.toNat (if instruction then 3 else 2))
/-- ENGINE_RESTART (R416). EBK_RESTART returns a held engine to service. -/
def execEngineRestart (req : Requester) (block : BitVec 6) (engines : BitVec 16) (s : State) : Host.Outcome State Fault Refusal :=
  done s (regWrite s req (ebkPage block.toNat) 0x110 engines.toNat)
/-- BLOCK_HELD (R417). A shared-memory error or loss of every engine holds the block, with spare takeover and recovery. -/
def execBlockHeld (block : BitVec 6) (s : State) : Host.Outcome State Fault Refusal :=
  done s (sharedError s block.toNat)
/-- PING (R407). A common request that returns the image version and the running engines. -/
def execPing (msg : SvcRequest) (s : State) : Host.Outcome State Fault Refusal :=
  done s (request s msg 0x00)
/-- STATS (R407). A common request that returns the service counters. -/
def execStats (msg : SvcRequest) (s : State) : Host.Outcome State Fault Refusal :=
  done s (request s msg 0x01)
/-- CONFIG_GET (R407). A common request that reads the service configuration. -/
def execConfigGet (msg : SvcRequest) (s : State) : Host.Outcome State Fault Refusal :=
  done s (request s msg 0x02)
/-- CONFIG_SET (R407). A common request that sets the service configuration. -/
def execConfigSet (msg : SvcRequest) (s : State) : Host.Outcome State Fault Refusal :=
  done s (request s msg 0x03)
/-- RESYNC (R407). A LEARN request to resynchronise one pipeline. -/
def execResync (msg : SvcRequest) (s : State) : Host.Outcome State Fault Refusal :=
  done s (requestTo s msg 1 0x10)
/-- PARTNER_SYNC (R407). A LEARN request that repeats the bulk synchronisation with the partner. -/
def execPartnerSync (msg : SvcRequest) (s : State) : Host.Outcome State Fault Refusal :=
  done s (requestTo s msg 1 0x11)
/-- LINK_INFO (R407). A SPAN request for link information. -/
def execLinkInfo (msg : SvcRequest) (s : State) : Host.Outcome State Fault Refusal :=
  done s (requestTo s msg 2 0x10)
/-- AUTH_RETRY (R407). A SPAN request to retry authentication. -/
def execAuthRetry (msg : SvcRequest) (s : State) : Host.Outcome State Fault Refusal :=
  done s (requestTo s msg 2 0x11)
/-- INSTANCE_SET (R407). A TIME request that configures a PTP instance. -/
def execInstanceSet (msg : SvcRequest) (s : State) : Host.Outcome State Fault Refusal :=
  done s (requestTo s msg 3 0x10)
/-- DATASET_GET (R407). A TIME request that reads PTP datasets. -/
def execDatasetGet (msg : SvcRequest) (s : State) : Host.Outcome State Fault Refusal :=
  done s (requestTo s msg 3 0x11)
/-- QUEUE_INFO (R407). A CUSTODY request for the records, pages and oldest age of a queue. -/
def execQueueInfo (msg : SvcRequest) (s : State) : Host.Outcome State Fault Refusal :=
  done s (requestTo s msg 4 0x10)
/-- INDEX_CHECK (R407). A CUSTODY request to check the custody index. -/
def execIndexCheck (msg : SvcRequest) (s : State) : Host.Outcome State Fault Refusal :=
  done s (requestTo s msg 4 0x11)
/-- MEP_SET (R407). An OAM request that configures a maintenance end point. -/
def execMepSet (msg : SvcRequest) (s : State) : Host.Outcome State Fault Refusal :=
  done s (requestTo s msg 5 0x10)
/-- MEASURE_START (R407). An OAM request that starts a loss or delay measurement. -/
def execMeasureStart (msg : SvcRequest) (s : State) : Host.Outcome State Fault Refusal :=
  done s (requestTo s msg 5 0x11)
/-- OAM_CCM_TIMER (R405). The CCM interval of a MEP passes; continuity is sent and checked. -/
def execOamCcmTimer (mep : BitVec 12) (missed : Bool) (s : State) : Host.Outcome State Fault Refusal :=
  done s (ccmTimer s mep.toNat missed)
/-- SUBSCRIBE (R407). A TELEM request that adds a subscription. -/
def execSubscribe (msg : SvcRequest) (s : State) : Host.Outcome State Fault Refusal :=
  done s (requestTo s msg 6 0x10)
/-- UNSUBSCRIBE (R407). A TELEM request that removes a subscription. -/
def execUnsubscribe (msg : SvcRequest) (s : State) : Host.Outcome State Fault Refusal :=
  done s (requestTo s msg 6 0x11)
/-- TELEM_PERIOD (R405). A subscription period passes and its counter sets are collected. -/
def execTelemPeriod (subscription : BitVec 16) (s : State) : Host.Outcome State Fault Refusal :=
  done s (telemTimer s subscription.toNat)
/-- DIAG_SCHEDULE (R407). A FIELD request that schedules cable diagnostics. -/
def execDiagSchedule (msg : SvcRequest) (s : State) : Host.Outcome State Fault Refusal :=
  done s (requestTo s msg 7 0x10)
/-- SEGMENT_NODES (R407). A FIELD request for the nodes of a T1S segment. -/
def execSegmentNodes (msg : SvcRequest) (s : State) : Host.Outcome State Fault Refusal :=
  done s (requestTo s msg 7 0x11)
/-- BRIDGE_SET (R407). An L2CP request that configures the bridge. -/
def execBridgeSet (msg : SvcRequest) (s : State) : Host.Outcome State Fault Refusal :=
  done s (requestTo s msg 8 0x10)
/-- PORT_STATE_GET (R407). An L2CP request for the port states. -/
def execPortStateGet (msg : SvcRequest) (s : State) : Host.Outcome State Fault Refusal :=
  done s (requestTo s msg 8 0x11)
/-- NEIGHBOURS_GET (R407). An L2CP request for the LLDP neighbours. -/
def execNeighboursGet (msg : SvcRequest) (s : State) : Host.Outcome State Fault Refusal :=
  done s (requestTo s msg 8 0x12)
/-- CA_SET (R407). An MKA request that configures a connectivity association. -/
def execCaSet (msg : SvcRequest) (s : State) : Host.Outcome State Fault Refusal :=
  done s (requestTo s msg 9 0x10)
/-- CA_STATUS (R407). An MKA request for CA status. -/
def execCaStatus (msg : SvcRequest) (s : State) : Host.Outcome State Fault Refusal :=
  done s (requestTo s msg 9 0x11)
/-- FOOTWAY_STATUS (R407). A FOOTWAY request for status. -/
def execFootwayStatus (msg : SvcRequest) (s : State) : Host.Outcome State Fault Refusal :=
  done s (requestTo s msg 10 0x10)
/-- INSPECT_REQUEST (R497). An INSPECT request is started, queued, windowed, forced or refused by the kind of its action. -/
def execInspectRequest (msg : SvcRequest) (s : State) : Host.Outcome State Fault Refusal :=
  done s (requestTo s msg 11 0x10)
/-- INSPECT_CANCEL (R497). An INSPECT request that cancels a queued or running action. -/
def execInspectCancel (msg : SvcRequest) (s : State) : Host.Outcome State Fault Refusal :=
  done s (requestTo s msg 11 0x11)
/-- CAGE_INFO (R407). A MODULE request for cage information. -/
def execCageInfo (msg : SvcRequest) (s : State) : Host.Outcome State Fault Refusal :=
  done s (requestTo s msg 12 0x10)
/-- APP_SET (R407). A MODULE request that sets the module application. -/
def execAppSet (msg : SvcRequest) (s : State) : Host.Outcome State Fault Refusal :=
  done s (requestTo s msg 12 0x11)

end Sys2Proof.Machine
end

