-- ==== Sys2Proof/Machine/Faults.lean ====
section
/-! DEFINITION. The meanings of the commands of faults, injection and inspection (chapter 17). -/

namespace Sys2Proof.Machine

/-- CHIP_WATCHDOG (R493). No kick within the period journals custody and makes a warm chip reset. -/
def execChipWatchdog (s : State) : Host.Outcome State Fault Refusal :=
  done s (watchdog s)
/-- WATCHDOG_KICK (R493). INSP_WDOG.kick restarts the chip watchdog period. -/
def execWatchdogKick (req : Requester) (s : State) : Host.Outcome State Fault Refusal :=
  done s (regUpdate s req inspPage 0x118 0x80000000 0x80000000)
/-- INJ_NONCE_READ (R494). A read of the low word of INJ_NONCE draws a fresh nonce. -/
def execInjNonceRead (req : Requester) (s : State) : Host.Outcome State Fault Refusal :=
  done s (busRead s req (wordAddr unlockPage 0x100) 4)
/-- INJ_KEY (R494). A write of INJ_KEY presents the unlock key. -/
def execInjKey (req : Requester) (key : Word) (s : State) : Host.Outcome State Fault Refusal :=
  done s (regWrite s req unlockPage 0x108 key.toNat)
/-- INJ_UNLOCK (R494). INJ_UNLOCK.go unlocks injection for the given minutes, or is refused. -/
def execInjUnlock (req : Requester) (minutes : BitVec 6) (s : State) : Host.Outcome State Fault Refusal :=
  done s (regWrite s req unlockPage 0x10C (minutes.toNat + 0x100))
/-- INJ_LOCK (R494). INJ_UNLOCK.lock locks injection. -/
def execInjLock (req : Requester) (s : State) : Host.Outcome State Fault Refusal :=
  done s (regUpdate s req unlockPage 0x10C 0x200 0x200)
/-- INJ_UNLOCK_EXPIRE (R494). The unlock minutes expire and injection locks. -/
def execInjUnlockExpire (s : State) : Host.Outcome State Fault Refusal :=
  done s (injExpire s)
/-- INJECT_SINGLE_BIT (R495). Injection kind 1: a corrected single-bit memory error. -/
def execInjectSingleBit (req : Requester) (s : State) : Host.Outcome State Fault Refusal :=
  done s (injectKind s req 1)
/-- INJECT_DOUBLE_BIT (R495). Injection kind 2: a double-bit memory error. -/
def execInjectDoubleBit (req : Requester) (s : State) : Host.Outcome State Fault Refusal :=
  done s (injectKind s req 2)
/-- INJECT_PARITY (R495). Injection kind 3: a parity error on an entry or record. -/
def execInjectParity (req : Requester) (s : State) : Host.Outcome State Fault Refusal :=
  done s (injectKind s req 3)
/-- INJECT_FLIT_CRC (R495). Injection kind 4: a CRC error on a die-to-die flit. -/
def execInjectFlitCrc (req : Requester) (s : State) : Host.Outcome State Fault Refusal :=
  done s (injectKind s req 4)
/-- INJECT_DRAM_SINGLE (R495). Injection kind 5: a single-bit DRAM error. -/
def execInjectDramSingle (req : Requester) (s : State) : Host.Outcome State Fault Refusal :=
  done s (injectKind s req 5)
/-- INJECT_DRAM_UNCORR (R495). Injection kind 6: an uncorrectable DRAM error. -/
def execInjectDramUncorr (req : Requester) (s : State) : Host.Outcome State Fault Refusal :=
  done s (injectKind s req 6)
/-- INJECT_ENGINE_STALL (R495). Injection kind 7: an engine stops reporting progress. -/
def execInjectEngineStall (req : Requester) (s : State) : Host.Outcome State Fault Refusal :=
  done s (injectKind s req 7)
/-- INJECT_LOSS_OF_SIGNAL (R495). Injection kind 8: loss of signal on a lane for count us. -/
def execInjectLossOfSignal (req : Requester) (s : State) : Host.Outcome State Fault Refusal :=
  done s (injectKind s req 8)
/-- INJECT_THERMAL (R495). Injection kind 9: the junction reading is forced for 100 ms. -/
def execInjectThermal (req : Requester) (s : State) : Host.Outcome State Fault Refusal :=
  done s (injectKind s req 9)
/-- TEST_CTL_WRITE (R500). A write that changes TEST_CTL action starts or stops a test, only while injection is unlocked. -/
def execTestCtlWrite (req : Requester) (page : Page) (ctl0 ctl1 : Word) (s : State) : Host.Outcome State Fault Refusal :=
  done s (regWrite (regWrite s req page.toNat 0x054 ctl1.toNat) req page.toNat 0x050 ctl0.toNat)
/-- INSPECT_PREPARED (R498). A preparation completes or a window opens, and the queued action runs. -/
def execInspectPrepared (id : BitVec 16) (s : State) : Host.Outcome State Fault Refusal :=
  done s (inspPrepared s id.toNat)
/-- INSPECT_TEST_DONE (R498). An action ends with PASS, returning the target, or FAIL. -/
def execInspectTestDone (id : BitVec 16) (errors : Word) (firstAddr : Word) (s : State) : Host.Outcome State Fault Refusal :=
  done s (inspDone s id.toNat errors.toNat firstAddr.toNat)
/-- INSPECT_DEADLINE (R497). The window length or deadline is reached and the action is aborted. -/
def execInspectDeadline (id : BitVec 16) (s : State) : Host.Outcome State Fault Refusal :=
  done s (inspLapse s id.toNat)
/-- FAILOVER_SET (R501). INSP_FAILOVER sets a region's failover mode: a planned failover or a failback. -/
def execFailoverSet (req : Requester) (value : BitVec 8) (s : State) : Host.Outcome State Fault Refusal :=
  done s (regWrite s req inspPage 0x110 value.toNat)
/-- PATROL_SCRUB (R399). Patrol scrub visits each memory word once per second and corrects or reports errors. -/
def execPatrolScrub (page : Page) (s : State) : Host.Outcome State Fault Refusal :=
  done s (scrub s page.toNat)

end Sys2Proof.Machine
end

