-- ==== Sys2Proof/Machine/FieldPorts.lean ====
section
/-! DEFINITION. The meanings of the commands of field ports and line sensing (chapter 04). -/

namespace Sys2Proof.Machine

/-- FIELD_PORT_ENABLE (R103). A field port leaves DISABLED when it is enabled and its domains are ON. -/
def execFieldPortEnable (req : Requester) (port : Port) (cfg : Word) (s : State) : Host.Outcome State Fault Refusal :=
  done s (onlyIf (fieldPort port.toNat) s (regWrite s req (fpPage port.toNat) 0x100 (cfg.toNat ||| 1)))
/-- COLLISION (R109). A T1S collision starts a back-off, drops the frame after 16 attempts, or drops it at once on a late collision. -/
def execCollision (port : Port) (late : Bool) (s : State) : Host.Outcome State Fault Refusal :=
  done s (Sys2Proof.Machine.collision s port.toNat late)
/-- BACKOFF_EXPIRE (R109). The random back-off ends and the frame is retried. -/
def execBackoffExpire (port : Port) (s : State) : Host.Outcome State Fault Refusal :=
  done s (onlyIf (isT1s port.toNat) s (mayRetry s port.toNat))
/-- PLCA_ACTIVE (R108). PLCA status becomes active, so later frames wait for the OX6440's own transmit opportunity. -/
def execPlcaActive (port : Port) (s : State) : Host.Outcome State Fault Refusal :=
  done s (onlyIf (isT1s port.toNat) s (plcaUp s port.toNat))
/-- PLCA_TX_OPPORTUNITY (R107). The OX6440's PLCA transmit opportunity arrives and a waiting frame is sent. -/
def execPlcaTxOpportunity (port : Port) (s : State) : Host.Outcome State Fault Refusal :=
  done s (onlyIf (isT1s port.toNat) s (plcaSend s port.toNat))
/-- SGMII_CONTROL_WORD (R111). A received SGMII control word sets the management port's speed; half duplex makes the link not good. -/
def execSgmiiControlWord (port : Port) (speed : BitVec 2) (fullDuplex : Bool) (s : State) : Host.Outcome State Fault Refusal :=
  done s (onlyIf (mgtPort port.toNat) s (sgmii s port.toNat speed.toNat fullDuplex))
/-- MDIO_ADDRESS (R116). MDIO op 0 sends a Clause 45 address cycle. -/
def execMdioAddress (req : Requester) (cmd : Word) (s : State) : Host.Outcome State Fault Refusal :=
  done s (regWrite s req (fpPage 104) 0x140 (mdioWord cmd.toNat 0))
/-- MDIO_WRITE (R116). MDIO op 1 writes a PHY register. -/
def execMdioWrite (req : Requester) (cmd : Word) (s : State) : Host.Outcome State Fault Refusal :=
  done s (regWrite s req (fpPage 104) 0x140 (mdioWord cmd.toNat 1))
/-- MDIO_READ (R116). MDIO op 2 reads a PHY register. -/
def execMdioRead (req : Requester) (cmd : Word) (s : State) : Host.Outcome State Fault Refusal :=
  done s (regWrite s req (fpPage 104) 0x140 (mdioWord cmd.toNat 2))
/-- MDIO_READ_INCREMENT (R116). MDIO op 3 reads and post-increments the Clause 45 address. -/
def execMdioReadIncrement (req : Requester) (cmd : Word) (s : State) : Host.Outcome State Fault Refusal :=
  done s (regWrite s req (fpPage 104) 0x140 (mdioWord cmd.toNat 3))
/-- MDIO_DONE (R116). The MDIO transaction ends and start clears. -/
def execMdioDone (data : BitVec 16) (s : State) : Host.Outcome State Fault Refusal :=
  done s (mdioEnd s data.toNat)
/-- SENSE_SAMPLE (R123). Each 1 ms SNS samples a conductor, and commits a new class after 8 consecutive agreeing samples. -/
def execSenseSample (pair : BitVec 6) (vp vn : BitVec 12) (overRange : Bool) (s : State) : Host.Outcome State Fault Refusal :=
  done s (onlyIf (sensePair pair.toNat) s (senseTake s pair.toNat vp.toNat vn.toNat overRange))
/-- ECHO_TEST_START (R123). An automatic echo test runs on a T1L port 4 ms after its link leaves UP, then every 40 ms while it is not UP. -/
def execEchoTestStart (pair : BitVec 6) (s : State) : Host.Outcome State Fault Refusal :=
  done s (onlyIf (sensePair pair.toNat) s (echoStart s pair.toNat))
/-- ECHO_TEST_DONE (R123). The echo test ends and reports open or short toward classification. -/
def execEchoTestDone (pair : BitVec 6) (result : Echo) (s : State) : Host.Outcome State Fault Refusal :=
  done s (onlyIf (sensePair pair.toNat) s (echoEnd s pair.toNat result))
/-- CLAMP_EVENT (R124). A sense input beyond +-1.3 V for 50 ns counts a clamp event. -/
def execClampEvent (pair : BitVec 6) (begins : Bool) (s : State) (neg : Bool := false) :
    Host.Outcome State Fault Refusal :=
  done s (onlyIf (sensePair pair.toNat) s (clampEdge s pair.toNat neg begins))
/-- SENSE_CALIBRATE (R125). Periodic or cal_all calibration of a pair measures offset and gain, holding its class. -/
def execSenseCalibrate (pair : BitVec 6) (s : State) : Host.Outcome State Fault Refusal :=
  done s (onlyIf (sensePair pair.toNat) s (calStart s pair.toNat))
/-- SENSE_CAL_ALL (R125). SNS_CTL.cal_all requests calibration of every pair. -/
def execSenseCalAll (req : Requester) (s : State) : Host.Outcome State Fault Refusal :=
  done s (regUpdate s req snsPage 0x100 0x2 0x2)
/-- SENSE_CAL_DONE (R125). Calibration of a pair ends; out of range makes it SENSE_FAULT, and a pass clears a prior SENSE_FAULT. -/
def execSenseCalDone (pair : BitVec 6) (inRange : Bool) (s : State) : Host.Outcome State Fault Refusal :=
  done s (onlyIf (sensePair pair.toNat) s (calEnd s pair.toNat inRange))
/-- CABLE_DIAG_START (R126). SNS_DIAG_CMD start runs an averaged echo test on a pair, or is refused. -/
def execCableDiagStart (req : Requester) (cmd : Word) (s : State) : Host.Outcome State Fault Refusal :=
  done s (regWrite s req snsPage 0x110 (cmd.toNat ||| 0x100))
/-- CABLE_DIAG_DONE (R126). The cable diagnostic reports its result, delay and fault distance. -/
def execCableDiagDone (result : BitVec 2) (samples : BitVec 16) (s : State) : Host.Outcome State Fault Refusal :=
  done s (diagEnd s result.toNat samples.toNat)
/-- SENSE_HOLD_RETURN (R128). A pair NORMAL for return_time releases an action-2 hold. -/
def execSenseHoldReturn (pair : BitVec 6) (s : State) : Host.Outcome State Fault Refusal :=
  done s (onlyIf (sensePair pair.toNat) s (holdReturn s pair.toNat))
/-- SENSE_RELEASE (R128). SNS_PAIR_CFG.release while the class is NORMAL releases a latched hold. -/
def execSenseRelease (req : Requester) (pair : BitVec 6) (s : State) : Host.Outcome State Fault Refusal :=
  done s (onlyIf (sensePair pair.toNat) s (regUpdate s req pairPage (pairCfg pair.toNat) 0x100 0x100))
/-- PLCA_INACTIVE (R108). PLCA status becomes inactive, so the segment sends under CSMA/CD and the T1S link stops being good. -/
def execPlcaInactive (port : Port) (s : State) : Host.Outcome State Fault Refusal :=
  done s (onlyIf (isT1s port.toNat) s (plcaDown s port.toNat))

end Sys2Proof.Machine
end

