-- ==== Sys2Proof/Machine/Footways.lean ====
section
/-! DEFINITION. The meanings of the commands of footway mode (chapter 17). -/

namespace Sys2Proof.Machine

/-- FOOTWAY_COMMIT (R505). FW_CTL.commit validates and takes the footway configuration. -/
def execFootwayCommit (req : Requester) (s : State) : Host.Outcome State Fault Refusal :=
  done s (regWrite s req fwPage 0x104 0x1)
/-- FOOTWAY_ENTER (R509). A footway trigger runs entry to footway mode. -/
def execFootwayEnter (cause : BitVec 3) (s : State) : Host.Outcome State Fault Refusal :=
  done s (fwEvent s cause.toNat)
/-- THERMAL_FOOTWAY (R504). The junction at or above 115 C for 1 ms triggers footway. -/
def execThermalFootway (s : State) : Host.Outcome State Fault Refusal :=
  done s (thermFootway s)
/-- FOOTWAY_FRAME (R507). A frame on a designated port is forwarded by the footway table. -/
def execFootwayFrame (port : Port) (bytes : List Byte) (s : State) : Host.Outcome State Fault Refusal :=
  done s (fwFrame s port.toNat bytes)
/-- FOOTWAY_EXIT (R511). FW_CTL.exit resets the non-kept domains and rebuilds custody. -/
def execFootwayExit (req : Requester) (s : State) : Host.Outcome State Fault Refusal :=
  done s (regWrite s req fwPage 0x104 0x4)
/-- FOOTWAY_AUTO_EXIT (R511). The junction below 105 C for 10 s requests exit automatically. -/
def execFootwayAutoExit (s : State) : Host.Outcome State Fault Refusal :=
  done s (fwAutoExit s)
/-- FOOTWAY_HANDOVER (R512). FW_CTL.handover moves designated ports back to normal forwarding. -/
def execFootwayHandover (req : Requester) (s : State) : Host.Outcome State Fault Refusal :=
  done s (regWrite s req fwPage 0x104 0x8)

end Sys2Proof.Machine
end

