-- ==== Sys2Proof/Machine/Forwarding.lean ====
section
/-! DEFINITION. The meanings of the commands of the FDB and learning (chapter 06). -/

namespace Sys2Proof.Machine

/-- WALKER_VISIT (R181). The FDB walker visits a bucket, checking parity, setting settled and ageing or flushing entries. -/
def execWalkerVisit (pipe : BitVec 3) (s : State) : Host.Outcome State Fault Refusal :=
  done s (onlyIf (pipeNo pipe.toNat) s (walkBucket s pipe.toNat))
/-- FDB_FLUSH (R184). FDB_FLUSH.go starts a flush of matching entries over one walker pass. -/
def execFdbFlush (req : Requester) (pipe : BitVec 3) (value : Word) (s : State) : Host.Outcome State Fault Refusal :=
  done s (onlyIf (pipeNo pipe.toNat) s (regWrite s req (fdbPage pipe.toNat) 0x10C (value.toNat ||| 2 ^ 31)))
/-- FDB_FLUSH_DONE (R184). The flush pass completes and FDB source 6 is raised. -/
def execFdbFlushDone (pipe : BitVec 3) (s : State) : Host.Outcome State Fault Refusal :=
  done s (onlyIf (pipeNo pipe.toNat) s (flushOver s pipe.toNat))
/-- LEARN_EVENT_APPLY (R186). The LEARN service applies a learn, move or delete event to the other accepting pipelines. -/
def execLearnEventApply (pipe : BitVec 3) (s : State) : Host.Outcome State Fault Refusal :=
  done s (onlyIf (pipeNo pipe.toNat) s (eventApply s pipe.toNat))
/-- LEARN_RESYNC (R188). After an event FIFO overflow, LEARN flushes the propagated entries and re-sends the pipeline's learns. -/
def execLearnResync (pipe : BitVec 3) (s : State) : Host.Outcome State Fault Refusal :=
  done s (onlyIf (pipeNo pipe.toNat) s (Sys2Proof.Machine.learnResync s pipe.toNat))

end Sys2Proof.Machine
end

