-- ==== Sys2Proof/Machine/HostRings.lean ====
section
/-! DEFINITION. The meanings of the commands of the host interface (chapter 14). -/

namespace Sys2Proof.Machine

/-- SQ_DOORBELL (R430). A submission doorbell makes the device read prod from the RCB. -/
def execSqDoorbell (req : Requester) (n : BitVec 8) (s : State) : Host.Outcome State Fault Refusal :=
  done s (regWrite s req (sqPage n.toNat) 0x100 0)
/-- RCB_PROD_READ (R430). The prod read returns, is checked, and slots are fetched up to it. -/
def execRcbProdRead (n : BitVec 8) (prod : HostRead Word) (s : State) : Host.Outcome State Fault Refusal :=
  done s (prodIn s n.toNat prod)
/-- TX_ENTRY (R435). A TX entry injects a frame into a pipeline or directly to a queue. -/
def execTxEntry (n : BitVec 8) (slots : HostRead (List (BitVec 128))) (data : HostRead (List Byte)) (s : State) : Host.Outcome State Fault Refusal :=
  done s (ringsGo (txIn s n.toNat slots data))
/-- RX_ENTRY (R437). An RX entry posts a receive buffer. -/
def execRxEntry (n : BitVec 8) (slots : HostRead (List (BitVec 128))) (s : State) : Host.Outcome State Fault Refusal :=
  done s (rxIn s n.toNat slots)
/-- SVC_ENTRY (R439). An SVC entry submits a service message. -/
def execSvcEntry (n : BitVec 8) (slots : HostRead (List (BitVec 128))) (s : State) : Host.Outcome State Fault Refusal :=
  done s (ringsGo (svcIn s n.toNat slots))
/-- COPY_ENTRY (R439). A COPY entry queues work on a copy channel. -/
def execCopyEntry (n : BitVec 8) (slots : HostRead (List (BitVec 128))) (s : State) : Host.Outcome State Fault Refusal :=
  done s (ringsGo (copyIn s n.toNat slots))
/-- HOST_FRAME_DELIVER (R438). A frame for the host port is steered to an RX ring and written to a buffer. -/
def execHostFrameDeliver (tc : BitVec 3) (s : State) : Host.Outcome State Fault Refusal :=
  done s (hostDeliver s tc.toNat)
/-- RX_WAIT_EXPIRE (R438). A frame with no posted buffer for rx_wait is dropped with 0xC2. -/
def execRxWaitExpire (tc : BitVec 3) (s : State) : Host.Outcome State Fault Refusal :=
  done s (rxWaitOver s tc.toNat)
/-- TS_TIMEOUT (R436). A two-step stamp not delivered within 10 ms completes the entry with 0xC6. -/
def execTsTimeout (tag : Word) (s : State) : Host.Outcome State Fault Refusal :=
  done s (tsLate s tag.toNat)
/-- CQ_DOORBELL (R441). A completion doorbell rereads cons and writes held records. -/
def execCqDoorbell (req : Requester) (n : BitVec 8) (cons : HostRead Word) (s : State) : Host.Outcome State Fault Refusal :=
  done s (cqRing' s req n.toNat cons)
/-- CQ_REREAD (R441). Every 10 us while records are held, the completion cons is reread. -/
def execCqReread (n : BitVec 8) (cons : HostRead Word) (s : State) : Host.Outcome State Fault Refusal :=
  done s (cqConsIn s n.toNat cons)
/-- CQ_MOD_TIMER (R449). The moderation timer makes the completion vector due. -/
def execCqModTimer (n : BitVec 8) (s : State) : Host.Outcome State Fault Refusal :=
  done s (modTimer s n.toNat)
/-- RING_ENABLE (R429). A ring's enable going to 1 samples its configuration and zeroes its indices. -/
def execRingEnable (req : Requester) (completion : Bool) (n : BitVec 8) (s : State) : Host.Outcome State Fault Refusal :=
  done s (regUpdate s req (if completion then cqPage n.toNat else sqPage n.toNat) 0x104 0x1 0x1)
/-- RING_DISABLE (R429). A ring's enable going to 0 stops fetching after the entry in progress. -/
def execRingDisable (req : Requester) (completion : Bool) (n : BitVec 8) (s : State) : Host.Outcome State Fault Refusal :=
  done s (regUpdate s req (if completion then cqPage n.toNat else sqPage n.toNat) 0x104 0x1 0x0)
/-- FUNCTION_LEVEL_RESET (R450). FLR resets the HST region and ends a halt. -/
def execFunctionLevelReset (s : State) : Host.Outcome State Fault Refusal :=
  done s (flr s)
/-- BUS_MASTER_DISABLE (R424). Bus Master Enable clear or D3hot stops every PCIe request while ring state is kept. -/
def execBusMasterDisable (bme d3hot : Bool) (s : State) : Host.Outcome State Fault Refusal :=
  done s (configPower s bme d3hot)
/-- PCIE_LINK_DOWN (R450). A PCIe hot reset or link down resets the PCIe link and configuration space. -/
def execPcieLinkDown (s : State) : Host.Outcome State Fault Refusal :=
  done s (linkLost s)

end Sys2Proof.Machine
end

