-- ==== Sys2Proof/Machine/LinePorts.lean ====
section
/-! DEFINITION. The meanings of the commands of line ports and modules (chapter 03). -/

namespace Sys2Proof.Machine

/-- PORT_ENABLE (R73). MAC_PORT_CFG.enable going from 0 to 1 checks the slot and starts the PCS, or refuses with cfg_err. -/
def execPortEnable (req : Requester) (port : BitVec 6) (cfg : Word) (s : State) : Host.Outcome State Fault Refusal :=
  done s (regWrite s req (macPage port.toNat) 0x100 (cfg.toNat ||| 1))
/-- PORT_DISABLE (R90). enable going from 1 to 0 stops the PCS and takes the port down to its queues. -/
def execPortDisable (req : Requester) (port : BitVec 6) (s : State) : Host.Outcome State Fault Refusal :=
  done s (regUpdate s req (macPage port.toNat) 0x100 0x1 0)
/-- LINK_UP (R90). The link has been good for up_debounce, so the port enters UP and its queues resume or return. -/
def execLinkUp (port : Port) (level24 master polRev : Bool) (s : State) : Host.Outcome State Fault Refusal :=
  done s (onlyIf (macPort port.toNat) s (Sys2Proof.Machine.linkUp s port.toNat level24 master polRev))
/-- LINK_FAULT (R90). The link stops being good, so the port goes to HOLD or straight to DOWN. -/
def execLinkFault (port : Port) (cond : LinkCond) (s : State) : Host.Outcome State Fault Refusal :=
  done s (onlyIf (macPort port.toNat) s (linkConds s port.toNat cond))
/-- LINK_HOLD_EXPIRE (R90). The link-hold timer expires in HOLD, so the port goes DOWN. -/
def execLinkHoldExpire (port : Port) (s : State) : Host.Outcome State Fault Refusal :=
  done s (onlyIf (macPort port.toNat) s (Sys2Proof.Machine.linkHoldExpire s port.toNat))
/-- FRAME_RECEIVE (R575). A frame received at a MAC is checked for runt, PCS error, FCS, port state and MAC control, then passes MACsec and enters the pipeline. -/
def execFrameReceive (port : Port) (rx : RxEvent) (s : State) : Host.Outcome State Fault Refusal :=
  done s (frameIn s port.toNat rx)
/-- MAC_CONTROL_RECEIVE (R84). A received pause or PFC frame stops the affected egress queues for its quanta, or is discarded when it is not honoured. -/
def execMacControlReceive (port : Port) (mc : MacControl) (s : State) : Host.Outcome State Fault Refusal :=
  done s (onlyIf (macPort port.toNat) s (controlIn s port.toNat mc))
/-- PAUSE_EXPIRE (R84). The received pause quanta run out and the stopped classes may start frames again. -/
def execPauseExpire (port : Port) (classes : BitVec 8) (s : State) : Host.Outcome State Fault Refusal :=
  done s (onlyIf (macPort port.toNat) s (pauseEnd s port.toNat classes.toNat))
/-- PAUSE_REFRESH (R85). While XOFF holds, the MAC resends pause or PFC every refresh interval. -/
def execPauseRefresh (port : Port) (s : State) : Host.Outcome State Fault Refusal :=
  done s (onlyIf (macPort port.toNat) s (pauseAgain s port.toNat))
/-- LPI_ENTER (R87). After lpi_idle with nothing to send, the port enters LPI. -/
def execLpiEnter (port : Port) (s : State) : Host.Outcome State Fault Refusal :=
  done s (onlyIf (macPort port.toNat) s (lpiIn s port.toNat))
/-- LPI_WAKE (R88). The port leaves LPI tw_sys_tx before the next TC7 window opens, or when a frame arrives. -/
def execLpiWake (port : Port) (s : State) : Host.Outcome State Fault Refusal :=
  done s (onlyIf (macPort port.toNat) s (lpiOut s port.toNat))
/-- EYE_SCAN_START (R80). SDQ_EYE_CMD start begins an eye scan on one lane of the quad, or is refused while a scan is busy. -/
def execEyeScanStart (req : Requester) (quad : BitVec 4) (lane : BitVec 2) (s : State) : Host.Outcome State Fault Refusal :=
  done s (regWrite s req (sdqPage quad.toNat) 0x110 (lane.toNat + 0x100))
/-- EYE_SCAN_DONE (R80). The eye scan completes within 200 ms, reports its result and raises source 4. -/
def execEyeScanDone (quad : BitVec 4) (height width : BitVec 16) (s : State) : Host.Outcome State Fault Refusal :=
  done s (eyeDone s quad.toNat height.toNat width.toNat)
/-- LANE_ADAPT_NOW (R80). adapt_now runs one full receive adaptation on a lane. -/
def execLaneAdaptNow (req : Requester) (quad : BitVec 4) (lane : BitVec 2) (snr : BitVec 8) (s : State) : Host.Outcome State Fault Refusal :=
  done s (adaptWith s req quad.toNat lane.toNat snr.toNat)
/-- MODULE_INSERT (R91). ModPrsL has been low for 10 ms, so the cage drives ResetL low and LPMode high and enters RESET. -/
def execModuleInsert (cage : BitVec 4) (s : State) : Host.Outcome State Fault Refusal :=
  done s (modInsert s cage.toNat)
/-- MODULE_RESET_RELEASE (R91). After 10 us in RESET, ResetL is raised and the cage enters WAIT_READY. -/
def execModuleResetRelease (cage : BitVec 4) (s : State) : Host.Outcome State Fault Refusal :=
  done s (modOutOfReset s cage.toNat)
/-- MODULE_IDENTIFY (R91). The module reads ModuleLowPwr, so its identity is read and an advertised application is matched against the port mode. -/
def execModuleIdentify (cage : BitVec 4) (identity : List Byte) (appMatches : Bool) (s : State) (judged : Bool := true) (ack : Bool := true) :
    Host.Outcome State Fault Refusal :=
  done s (modIdentify s cage.toNat identity appMatches judged ack)
/-- MODULE_READY_TIMEOUT (R91). The advertised state-change time passes in WAIT_READY; ResetL is pulsed once, and a second timeout gives FAULT. -/
def execModuleReadyTimeout (cage : BitVec 4) (s : State) : Host.Outcome State Fault Refusal :=
  done s (modTimeout s cage.toNat)
/-- MODULE_DATAPATH_ACTIVE (R91). Every host lane reports DataPathActivated and the cage enters READY. -/
def execModuleDatapathActive (cage : BitVec 4) (s : State) : Host.Outcome State Fault Refusal :=
  done s (modActive s cage.toNat)
/-- MODULE_INTERRUPT (R91). IntL goes low in READY, so the flag pages are read and cleared and source 3 is raised. -/
def execModuleInterrupt (cage : BitVec 4) (s : State) (ack : Bool := true) :
    Host.Outcome State Fault Refusal :=
  done s (modIntL s cage.toNat ack)
/-- MODULE_REMOVE (R91). ModPrsL goes high, so the lanes are squelched and the cage returns to EMPTY. -/
def execModuleRemove (cage : BitVec 4) (s : State) : Host.Outcome State Fault Refusal :=
  done s (moduleGone s cage.toNat)
/-- MODULE_RETRY (R91). MOD_CAGE_CTL.retry moves a cage from MISMATCH or FAULT to RESET. -/
def execModuleRetry (req : Requester) (cage : BitVec 4) (s : State) : Host.Outcome State Fault Refusal :=
  done s (regUpdate s req (modPage cage.toNat) 0x100 0x100 0x100)
/-- MOD_XFER (R92). A raw module transfer waits for the MODULE service's transaction to end and then runs alone. -/
def execModXfer (req : Requester) (cage : BitVec 4) (cmd : Word) (s : State) : Host.Outcome State Fault Refusal :=
  done s (regWrite s req (modPage cage.toNat) 0x108 cmd.toNat)
/-- MOD_XFER_DONE (R93). The raw module transfer completes with done or nack. -/
def execModXferDone (cage : BitVec 4) (ack : Bool) (data : List Byte) (s : State) : Host.Outcome State Fault Refusal :=
  done s (xferEnd s cage.toNat ack data)

end Sys2Proof.Machine
end

