-- ==== Sys2Proof/Machine/Pipeline.lean ====
section
/-! DEFINITION. The meanings of the commands of the pipeline and its rule sets (chapter 05). -/

namespace Sys2Proof.Machine

/-- PIPELINE_PASS (R143). A frame takes a pipeline slot and is parsed, classified, metered, learned and forwarded on one pass. -/
def execPipelinePass (pipe : BitVec 3) (s : State) : Host.Outcome State Fault Refusal :=
  done s (onlyIf (pipeNo pipe.toNat) s (Sys2Proof.Machine.pipelinePass s pipe.toNat))
/-- RECIRC_ISSUE (R155). A frame waiting in the recirculation FIFO is issued for pass 1. -/
def execRecircIssue (pipe : BitVec 3) (s : State) : Host.Outcome State Fault Refusal :=
  done s (onlyIf (pipeNo pipe.toNat) s (Sys2Proof.Machine.recircIssue s pipe.toNat))
/-- RECIRC_STALE (R155). A frame that has waited 4 us in the recirculation FIFO is dropped with 0x2F. -/
def execRecircStale (pipe : BitVec 3) (s : State) : Host.Outcome State Fault Refusal :=
  done s (onlyIf (pipeNo pipe.toNat) s (Sys2Proof.Machine.recircStale s pipe.toNat))
/-- RUL_SWAP_GO (R156). RUL_SWAP.go swaps the rule-set bank and advances the epoch, or is refused. -/
def execRulSwapGo (req : Requester) (pipe : BitVec 3) (s : State) : Host.Outcome State Fault Refusal :=
  done s (onlyIf (pipeNo pipe.toNat) s (regUpdate s req (rulPage pipe.toNat) 0x120 0x1 0x1))
/-- SWAP_GUARD (R156). 1 us before an armed swap lift the target bank enters guard and falsework writes are refused. -/
def execSwapGuard (lift : BitVec 12) (s : State) : Host.Outcome State Fault Refusal :=
  done s (guardOn s lift.toNat)
/-- BANK_RETIRED (R154). The in-flight counter of a retiring bank reaches zero and falsework_busy clears. -/
def execBankRetired (bank : BankTarget) (s : State) : Host.Outcome State Fault Refusal :=
  done s (retire s bank)
/-- TABLE_PARITY_SCAN (R157). Every 1 ms the table entries are checked for parity; a failed entry stops matching. -/
def execTableParityScan (page : Page) (s : State) : Host.Outcome State Fault Refusal :=
  done s (parityScan s page.toNat)

end Sys2Proof.Machine
end

