-- ==== Sys2Proof/Machine/Pools.lean ====
section
/-! DEFINITION. The meanings of the commands of buffer pools, admission and spill (chapter 07). -/

namespace Sys2Proof.Machine

/-- GRANT (R206). A requester is granted a granule or page from its reserve or the shared part, or fails with POOL_EMPTY or QUOTA_FULL. -/
def execGrant (pool : Pool) (by_ : BitVec 4) (size : Nat) (s : State) (rivals : List (BitVec 4 × Nat) := []) :
    Host.Outcome State Fault Refusal :=
  done s (grantCycle s pool ((by_.toNat, max size 1) :: rivals.map (fun r => (r.1.toNat, max r.2 1))) (poolRegion pool))
/-- HANDOVER (R576). The owner passes a buffer to a new requester within its quota. -/
def execHandover (pool : Pool) (buf : Nat) (by_ dst : BitVec 4) (s : State) : Host.Outcome State Fault Refusal :=
  done s (opHandover s pool (bufHead s pool buf) by_.toNat dst.toNat)
/-- ADDREF (R210). The owner adds references to a held buffer. -/
def execAddref (pool : Pool) (buf : Nat) (by_ : BitVec 4) (k : Nat) (s : State) : Host.Outcome State Fault Refusal :=
  done s (opAddref s pool (bufHead s pool buf) by_.toNat k)
/-- DROP (R210). A reference holder drops a reference, freeing a released buffer at zero. -/
def execDrop (pool : Pool) (buf : Nat) (by_ : BitVec 4) (s : State) : Host.Outcome State Fault Refusal :=
  done s (opDrop s pool (bufHead s pool buf) by_.toNat)
/-- RELEASE (R210). The owner frees a buffer, to FREE or RELEASED depending on its references. -/
def execRelease (pool : Pool) (buf : Nat) (by_ : BitVec 4) (s : State) : Host.Outcome State Fault Refusal :=
  done s (opRelease s pool (bufHead s pool buf) by_.toNat)
/-- FENCE (R210). INSP fences a free buffer out of the pool. -/
def execFence (pool : Pool) (buf : Nat) (by_ : BitVec 4) (s : State) : Host.Outcome State Fault Refusal :=
  done s (opFence s pool (bufHead s pool buf) by_.toNat)
/-- UNFENCE (R210). INSP returns a fenced buffer to FREE. -/
def execUnfence (pool : Pool) (buf : Nat) (by_ : BitVec 4) (s : State) : Host.Outcome State Fault Refusal :=
  done s (opUnfence s pool (bufHead s pool buf) by_.toNat)
/-- QUEUE_ADMISSION (R214). A frame arriving at its egress queue is admitted to SRAM, put into spill, diverted to custody, or dropped, and receives md.seq. -/
def execQueueAdmission (s : State) : Host.Outcome State Fault Refusal :=
  done s (admitNext s)
/-- QUOTA_WRITE (R209). A quota register write applies from the next request, or is refused when the minima would exceed the pool. -/
def execQuotaWrite (req : Requester) (pool : Pool) (i : BitVec 4) (isMax : Bool) (value : Word) (s : State) : Host.Outcome State Fault Refusal :=
  done s (quotaPut s req pool i.toNat isMax value.toNat)
/-- SPILL_WRITE (R218). A staged frame is written as a record into the spill chain within the bandwidth share, or discarded when no page is granted. -/
def execSpillWrite (slice : BitVec 2) (s : State) : Host.Outcome State Fault Refusal :=
  done s (spillOne s slice.toNat)
/-- SPILL_REFILL (R219). A spilled queue reads its pages back into its refill window and releases emptied pages. -/
def execSpillRefill (queue : BitVec 10) (s : State) : Host.Outcome State Fault Refusal :=
  done s (onlyIf (queueNo queue.toNat) s (refillOne s queue.toNat))
/-- BANK_FENCE_REQUEST (R225). A bank-group fence stops grants from the group, or is refused. -/
def execBankFenceRequest (group : BitVec 4) (s : State) : Host.Outcome State Fault Refusal :=
  done s ((fenceGroup s group.toNat).2)
/-- BANK_FENCE_DONE (R225). All granules of the group are fenced and source 11 is raised. -/
def execBankFenceDone (group : BitVec 4) (s : State) : Host.Outcome State Fault Refusal :=
  done s (fenceDone s group.toNat)

end Sys2Proof.Machine
end

