-- ==== Sys2Proof/Machine/Queues.lean ====
section
/-! DEFINITION. The meanings of the commands of queues, scheduling and gates (chapter 08). -/

namespace Sys2Proof.Machine

/-- FRAME_READY (R237). A frame becomes ready for scheduling; cut-through is decided at this moment. -/
def execFrameReady (queue : BitVec 10) (seq : Word) (s : State) : Host.Outcome State Fault Refusal :=
  done s (onlyIf (queueNo queue.toNat) s (readyNow s queue.toNat seq))
/-- SEQ_SKIP (R239). A missing sequence number is skipped after skip_us. -/
def execSeqSkip (queue : BitVec 10) (s : State) : Host.Outcome State Fault Refusal :=
  done s (onlyIf (queueNo queue.toNat) s (seqSkipNow s queue.toNat))
/-- SCHEDULER_SELECT (R242). When the port can start a frame, SCH selects a queue by tier, shaper, gate fit and DWRR and starts its head. -/
def execSchedulerSelect (port : Port) (s : State) : Host.Outcome State Fault Refusal :=
  done s (onlyIf (isQueuePort port.toNat) s (selectAt s port.toNat))
/-- TRANSMIT_COMPLETE (R242). A frame's transmission ends; its reference is dropped and its transmit stamp is taken. -/
def execTransmitComplete (port : Port) (s : State) : Host.Outcome State Fault Refusal :=
  done s (onlyIf (isQueuePort port.toNat) s (stampNotes (completeTx s port.toNat)))
/-- GATE_ENTRY_CHANGE (R249). The gate-list phase reaches the next entry and the gate states change. -/
def execGateEntryChange (port : Port) (s : State) : Host.Outcome State Fault Refusal :=
  done s (onlyIf (macPort port.toNat) s (gateOversize s port.toNat))
/-- GAT_SWAP_GO (R253). GAT_SWAP.go swaps the gate-list bank at once. -/
def execGatSwapGo (req : Requester) (port : Port) (s : State) : Host.Outcome State Fault Refusal :=
  done s (onlyIf (macPort port.toNat) s (regUpdate s req (gatPage port.toNat) 0x104 0x1 0x1))
/-- MTR_SWAP_GO (R256). MTR_SWAP.go swaps the meter bank. -/
def execMtrSwapGo (req : Requester) (pipe : BitVec 3) (s : State) : Host.Outcome State Fault Refusal :=
  done s (onlyIf (pipeNo pipe.toNat) s (regUpdate s req (mtrPage pipe.toNat) 0x100 0x1 0x1))

end Sys2Proof.Machine
end

