-- ==== Sys2Proof/Machine/Registers.lean ====
section
/-! DEFINITION. The meanings of the commands of register access (chapter 02). -/

namespace Sys2Proof.Machine

/-- REGISTER_WRITE (R50). A write to a register that has no row of its own takes effect at once under the access rules. -/
def execRegisterWrite (req : Requester) (addr : BitVec 28) (size : Nat) (data : DWord) (s : State) (enables : Bool := true) (space : Aperture := .bar0) :
    Host.Outcome State Fault Refusal :=
  done s (spaceWrite s req space addr.toNat (enabled size enables) data)
/-- LOW_WORD_READ (R51). A read of the low word of a 64-bit register captures the high word in the requester's shadow. -/
def execLowWordRead (req : Requester) (addr : BitVec 28) (size : Nat) (s : State) (enables : Bool := true) (space : Aperture := .bar0) :
    Host.Outcome State Fault Refusal :=
  done s (spaceRead s req space addr.toNat (enabled size enables))
/-- HIGH_WORD_READ (R51). A read of the high word returns the shadow, or returns the live value and sets SHADOW_MISS. -/
def execHighWordRead (req : Requester) (addr : BitVec 28) (size : Nat) (s : State) (enables : Bool := true) :
    Host.Outcome State Fault Refusal :=
  done s (busRead s req addr.toNat (enabled size enables))
/-- LOW_WORD_WRITE (R52). A write to the low word of a 64-bit register is held in the requester's write shadow. -/
def execLowWordWrite (req : Requester) (addr : BitVec 28) (data : Word) (s : State) (enables : Bool := true) :
    Host.Outcome State Fault Refusal :=
  done s (busWrite s req addr.toNat (enabled 4 enables) (data.setWidth 64))
/-- HIGH_WORD_WRITE (R52). A write to the high word commits both words of the 64-bit register, or commits with the live low word and sets SHADOW_MISS. -/
def execHighWordWrite (req : Requester) (addr : BitVec 28) (data : Word) (s : State) (enables : Bool := true) :
    Host.Outcome State Fault Refusal :=
  done s (busWrite s req addr.toNat (enabled 4 enables) (data.setWidth 64))
/-- ACCESS_TIMEOUT (R53). A cross-domain access that has not completed after 4 us is aborted and logged with kind 2. -/
def execAccessTimeout (req : Requester) (addr : BitVec 28) (write : Bool) (s : State) : Host.Outcome State Fault Refusal :=
  done s (abortAcc s req addr.toNat write)
/-- ALIAS_WRITE (R56). A BAR2 alias write changes one bit according to its access code. -/
def execAliasWrite (req : Requester) (addr : BitVec 29) (size : Nat) (data : Word) (s : State) (enables : Bool := true) :
    Host.Outcome State Fault Refusal :=
  done s (aliasWr s req addr.toNat (enabled size enables) data.toNat)
/-- ALIAS_READ (R56). A BAR2 alias read returns one bit and clears it when the bit is RC. -/
def execAliasRead (req : Requester) (addr : BitVec 29) (size : Nat) (s : State) (enables : Bool := true) :
    Host.Outcome State Fault Refusal :=
  done s (aliasRd s req addr.toNat (enabled size enables))
/-- CFG_PARITY_SCAN (R58). Every 1 ms CK_REG scans the configuration parity of each page and reports mismatches. -/
def execCfgParityScan (page : Page) (s : State) : Host.Outcome State Fault Refusal :=
  done s (parScan s page.toNat)
/-- CFG_PAR_INJ (R47). A write of CFG_PAR_INJ with arm inverts the stored parity of a word while injection is unlocked. -/
def execCfgParInj (req : Requester) (page : Page) (word : BitVec 10) (arm : Bool) (s : State) : Host.Outcome State Fault Refusal :=
  done s (regWrite s req page.toNat 0x04C (word.toNat + b2n arm * 2 ^ 31))
/-- INT_INJ (R47). A write of INT_INJ raises the chosen interrupt sources as if detected, while injection is unlocked. -/
def execIntInj (req : Requester) (page : Page) (sources : Word) (s : State) : Host.Outcome State Fault Refusal :=
  done s (regWrite s req page.toNat 0x030 sources.toNat)
/-- INTC_ARM (R70). A write of INTC_ARM re-arms vectors, and sends a message at once when a mapped summary bit is still set. -/
def execIntcArm (req : Requester) (word : BitVec 4) (vectors : Word) (s : State) : Host.Outcome State Fault Refusal :=
  done s (regWrite s req intcPage (0x140 + 4 * word.toNat) vectors.toNat)
/-- TBL_READ (R64). TBL_CMD op 1 reads an entry through the indirect window. -/
def execTblRead (req : Requester) (page : Page) (s : State) : Host.Outcome State Fault Refusal :=
  done s (tblCommand s req page.toNat 1)
/-- TBL_WRITE (R64). TBL_CMD op 2 writes an entry by clearing valid, writing the body, then writing valid; it is refused when busy, the bank is active or the falsework bank is busy. -/
def execTblWrite (req : Requester) (page : Page) (s : State) : Host.Outcome State Fault Refusal :=
  done s (tblCommand s req page.toNat 2)
/-- TBL_INVALIDATE (R64). TBL_CMD op 3 writes the entry as all zeros. -/
def execTblInvalidate (req : Requester) (page : Page) (s : State) : Host.Outcome State Fault Refusal :=
  done s (tblCommand s req page.toNat 3)
/-- TBL_CMD_DONE (R64). A window command completes within 64 table-access cycles and sets done. -/
def execTblCmdDone (page : Page) (s : State) : Host.Outcome State Fault Refusal :=
  done s (tblDone s page.toNat)
/-- TBL_LOCK_ACQUIRE (R65). A read of TBL_LOCK that finds the lock free makes the reader the holder. -/
def execTblLockAcquire (req : Requester) (page : Page) (s : State) : Host.Outcome State Fault Refusal :=
  done s (busRead s req (wordAddr page.toNat 0xF0C) 4)
/-- TBL_LOCK_RELEASE (R65). The holder writes 0 to TBL_LOCK to release the window lock. -/
def execTblLockRelease (req : Requester) (page : Page) (s : State) : Host.Outcome State Fault Refusal :=
  done s (regWrite s req page.toNat 0xF0C 0)
/-- TBL_LOCK_FORCE_RELEASE (R65). A write of bit 31 of TBL_LOCK releases the lock whoever holds it, and is logged. -/
def execTblLockForceRelease (req : Requester) (page : Page) (s : State) : Host.Outcome State Fault Refusal :=
  done s (regWrite s req page.toNat 0xF0C (2 ^ 31))
/-- SNAP_REQUEST (R475). SNAP_CTL.snap captures every counter of the page in one cycle, clearing them when clear is set. -/
def execSnapRequest (req : Requester) (page : Page) (clear : Bool) (s : State) : Host.Outcome State Fault Refusal :=
  done s (regWrite s req page.toNat 0x060 (1 + b2n clear * 2))
/-- SNAPSHOT_DONE (R476). The copy into the snapshot bank completes, busy clears and done is set. -/
def execSnapshotDone (page : Page) (s : State) : Host.Outcome State Fault Refusal :=
  done s (snapEnd s page.toNat)
/-- RC_REGISTER_READ (R42). A BAR0 read of an RC field returns its value and clears it. -/
def execRcRegisterRead (req : Requester) (addr : BitVec 28) (size : Nat) (s : State) (enables : Bool := true) :
    Host.Outcome State Fault Refusal :=
  done s (busRead s req addr.toNat (enabled size enables))

end Sys2Proof.Machine
end

