-- ==== Sys2Proof/Machine/Security.lean ====
section
/-! DEFINITION. The meanings of the commands of identity and boot (chapter 18). -/

namespace Sys2Proof.Machine

/-- SIGN (R535). An SPX request that signs a digest with a region key. -/
def execSign (block : BitVec 6) (region : BitVec 4) (digest : BitVec 512) (s : State) : Host.Outcome State Fault Refusal :=
  done s (spxAsk s { block := block.toNat, op := 0x10, args := [region.toNat, digest.toNat] })
/-- VERIFY_PEER (R535). An SPX request that verifies a partner's AUTH_OFFER. -/
def execVerifyPeer (block : BitVec 6) (_offset _length : Nat) (serial : DWord) (chainOk ownerMatch : Bool) (s : State) : Host.Outcome State Fault Refusal :=
  done s (spxAsk s { block := block.toNat, op := 0x11, args := [serial.toNat, b2n chainOk, b2n ownerMatch] })
/-- QUOTE (R534). The SEC command that returns a signed quote. -/
def execQuote (req : Requester) (s : State) : Host.Outcome State Fault Refusal :=
  done s (secCommand s req 1 id)
/-- STAGE (R537). The SEC command that writes a bundle to the inactive slot. -/
def execStage (req : Requester) (bundle : HostRead Bundle) (s : State) (flashOk : Bool := true) :
    Host.Outcome State Fault Refusal :=
  done s (secCommand s req 2 (fun c => { c with bundle := bundle, flashOk := flashOk }))
/-- SELECT (R543). The SEC command that makes a slot preferred. -/
def execSelect (req : Requester) (s : State) : Host.Outcome State Fault Refusal :=
  done s (secCommand s req 3 id)
/-- BOOT_OK (R529). The SEC command that advances anti-rollback counters and clears the trial count. -/
def execBootOk (req : Requester) (s : State) : Host.Outcome State Fault Refusal :=
  done s (secCommand s req 4 id)
/-- SPX_UPDATE (R538). The SEC command that restarts SPX on staged firmware. -/
def execSpxUpdate (req : Requester) (s : State) : Host.Outcome State Fault Refusal :=
  done s (secCommand s req 5 id)
/-- FW_APPLY (R538). The SEC command that applies SerDes or DDR PHY firmware. -/
def execFwApply (req : Requester) (s : State) : Host.Outcome State Fault Refusal :=
  done s (secCommand s req 6 id)
/-- CERT_READ (R543). The SEC command that returns a certificate. -/
def execCertRead (req : Requester) (s : State) : Host.Outcome State Fault Refusal :=
  done s (secCommand s req 7 id)
/-- FUSE_OWNER (R543). The SEC command that fuses the owner digest. -/
def execFuseOwner (req : Requester) (s : State) : Host.Outcome State Fault Refusal :=
  done s (secCommand s req 8 id)
/-- DEBUG (R539). The SEC command that applies a debug token. -/
def execDebug (req : Requester) (sigAskineOk sigOwnerOk : Bool) (s : State) : Host.Outcome State Fault Refusal :=
  done s (secCommand s req 9 (fun c => { c with sigAskineOk := sigAskineOk, sigOwnerOk := sigOwnerOk }))
/-- DEBUG_NONCE (R543). The SEC command that draws a debug nonce. -/
def execDebugNonce (req : Requester) (s : State) : Host.Outcome State Fault Refusal :=
  done s (secCommand s req 10 id)
/-- SEC_COMMAND_DONE (R542). A SEC command completes with its status. -/
def execSecCommandDone (s : State) : Host.Outcome State Fault Refusal :=
  done s (secDone s)
/-- BOOT_HOST_GO (R524). BOOT_HOST_GO makes ROM read a host bundle. -/
def execBootHostGo (req : Requester) (bundle : HostRead Bundle) (s : State) : Host.Outcome State Fault Refusal :=
  done s (bootHost s req bundle)
/-- BOOT_STAGE_DONE (R523). A boot stage finishes verifying and measuring its components and starts the next stage or the loaded firmware and images. -/
def execBootStageDone (s : State) (flashOk : Bool := true) :
    Host.Outcome State Fault Refusal :=
  done s (bootStep s flashOk)
/-- DIMM_TRAINING_DONE (R530). DIMM training completes, starting DRAM initialisation or rebuild phase A. -/
def execDimmTrainingDone (s : State) : Host.Outcome State Fault Refusal :=
  done s (trained s)
/-- DRAM_INIT_DONE (R530). DRAM and metadata initialisation completes with no custody held, setting PPM_STAT.ready and CST_STAT.ready. -/
def execDramInitDone (s : State) : Host.Outcome State Fault Refusal :=
  done s (dramReady s)

end Sys2Proof.Machine
end

