-- ==== Sys2Proof/Machine/Spans.lean ====
section
/-! DEFINITION. The meanings of the commands of span pairs (chapter 10). -/

namespace Sys2Proof.Machine

/-- SPAN_PAIR_ENABLE (R307). SPN_PAIR_CFG.enable starts or ends the member's participation in a span pair. -/
def execSpanPairEnable (req : Requester) (on : Bool) (s : State) : Host.Outcome State Fault Refusal :=
  done s (regUpdate s req spnPairPage 0x100 0x1 (b2n on))
/-- SPAN_LINK_ENABLE (R310). SPN_LINK_CFG.enable starts HELLOs on a span link, or takes the link to OFF. -/
def execSpanLinkEnable (req : Requester) (link : BitVec 3) (cfg : Word) (s : State) : Host.Outcome State Fault Refusal :=
  done s (regWrite s req (spnLinkPage link.toNat) 0x100 cfg.toNat)
/-- HELLO_SEND (R307). Every hello_ms, an enabled link sends a HELLO. -/
def execHelloSend (link : BitVec 3) (s : State) : Host.Outcome State Fault Refusal :=
  done s (helloOut s link.toNat)
/-- HELLO_RECEIVE (R310). A received HELLO starts authentication. -/
def execHelloReceive (link : BitVec 3) (serial : DWord) (mac : MacAddr) (session : Word) (s : State) : Host.Outcome State Fault Refusal :=
  done s (pairNote (spanStat s) (helloIn s link.toNat serial.toNat mac.toNat session.toNat))
/-- AUTH_OFFER (R308). A received AUTH_OFFER is verified by the security processor. -/
def execAuthOffer (link : BitVec 3) (serial : DWord) (chainOk ownerMatch : Bool) (s : State) : Host.Outcome State Fault Refusal :=
  done s (offerIn s link.toNat serial.toNat chainOk ownerMatch)
/-- AUTH_PROOF (R308). A received AUTH_PROOF is verified; success joins the session. -/
def execAuthProof (link : BitVec 3) (proofOk : Bool) (s : State) : Host.Outcome State Fault Refusal :=
  done s (pairNote (spanStat s) (proofIn s link.toNat proofOk))
/-- AUTH_TIMEOUT (R308). Authentication incomplete after 1 s returns the link to HELLO. -/
def execAuthTimeout (link : BitVec 3) (s : State) : Host.Outcome State Fault Refusal :=
  done s (authLate s link.toNat)
/-- HELLO_DEAD (R310). No HELLO for dead x hello_ms takes the link to LOST. -/
def execHelloDead (link : BitVec 3) (s : State) : Host.Outcome State Fault Refusal :=
  done s (pairNote (spanStat s) (helloDead s link.toNat))
/-- SPAN_DATA_RECEIVE (R318). A sequenced DATA frame is released, held or discarded, and acknowledged. -/
def execSpanDataReceive (link : BitVec 3) (hdr : SpanHeader) (bytes : List Byte) (s : State) : Host.Outcome State Fault Refusal :=
  done s (dataIn s link.toNat (now s) hdr bytes)
/-- ACK_TIMER (R319). ack_us after the first unacknowledged frame, an ACK is sent. -/
def execAckTimer (link : BitVec 3) (space : BitVec 4) (s : State) : Host.Outcome State Fault Refusal :=
  done s (onlyIf (spaceNo space.toNat) s (ackLate s link.toNat space.toNat))
/-- SPAN_ACK_RECEIVE (R320). An ACK advances snd_una and triggers SACK-based resends. -/
def execSpanAckReceive (link : BitVec 3) (space : BitVec 4) (cum : Word) (sacks : List (BitVec 16 × BitVec 16)) (s : State) : Host.Outcome State Fault Refusal :=
  done s (onlyIf (spaceNo space.toNat) s (ackIn s link.toNat space.toNat cum (sacks.map (fun b => (b.1.toNat, b.2.toNat)))))
/-- RTO_EXPIRE (R317). The retransmission timer of a space expires and the oldest frame is resent. -/
def execRtoExpire (link : BitVec 3) (space : BitVec 4) (s : State) : Host.Outcome State Fault Refusal :=
  done s (onlyIf (spaceNo space.toNat) s (rtoLate s link.toNat space.toNat))
/-- SPAN_HANDOVER (R325). A HANDOVER CTRL moves the traffic of the old active link to the new one. -/
def execSpanHandover (oldLink newLink : BitVec 3) (fromPartner : Bool) (rcvCum : List Word) (s : State) : Host.Outcome State Fault Refusal :=
  done s (handoverAt s oldLink.toNat newLink.toNat fromPartner rcvCum)
/-- SPAN_LEARN_RECEIVE (R330). A LEARN frame's events are applied as origin-2 entries. -/
def execSpanLearnReceive (link : BitVec 3) (seq : Word) (events : List LearnEvent) (s : State) : Host.Outcome State Fault Refusal :=
  done s (learnIn s link.toNat seq events)
/-- LEARN_FRAME_FLUSH (R330). A LEARN frame is sent 100 us after its first event. -/
def execLearnFrameFlush (s : State) : Host.Outcome State Fault Refusal :=
  done s (learnFlush s)
/-- SPAN_TIME_EXCHANGE (R333). Every time_ms, the secondary measures its offset and feeds the servo. -/
def execSpanTimeExchange (link : BitVec 3) (s : State) : Host.Outcome State Fault Refusal :=
  done s (timeOut s link.toNat)
/-- BPDU_RELAY (R335). BPDUs and port states cross between the members in CTRL frames. -/
def execBpduRelay (outbound : Bool) (port : Port) (body : List Byte) (s : State) : Host.Outcome State Fault Refusal :=
  done s (bpduRelayed s outbound port.toNat body)
/-- SPLIT_HOLD_EXPIRE (R329). After split_hold the secondary presents its own bridge identity. -/
def execSplitHoldExpire (s : State) : Host.Outcome State Fault Refusal :=
  done s (pairNote (spanStat s) (splitHold s))
/-- SESSION_KEEP_EXPIRE (R329). The split outlasts session_keep and the session ends. -/
def execSessionKeepExpire (s : State) : Host.Outcome State Fault Refusal :=
  done s (pairNote (spanStat s) (sessionGone s))
/-- SPAN_RCV_CUM_ANNOUNCE (R324). A received CTRL frame giving the partner's rcv_cum per space, on rejoin or in answer to HANDOVER, releases the frames below it and resends the rest in order. -/
def execSpanRcvCumAnnounce (link : BitVec 3) (rcvCum : List Word) (s : State) : Host.Outcome State Fault Refusal :=
  done s (cumsIn s link.toNat rcvCum)
/-- SPAN_TIME_RECEIVE (R333). A TIME frame received on a joined link is answered with stamps by the primary, or completes the offset computation on the secondary. -/
def execSpanTimeReceive (link : BitVec 3) (t1 t2 t3 t4 : BitVec 96) (s : State) : Host.Outcome State Fault Refusal :=
  done s (timeIn s link.toNat t1.toNat t2.toNat t3.toNat t4.toNat)

end Sys2Proof.Machine
end

