-- ==== Sys2Proof/Machine/Structure.lean ====
section
/-! DEFINITION. The meanings of the commands of structure, clocks, power and reset (chapter 01). -/

namespace Sys2Proof.Machine

/-- FLIT_RECEIVE (R13). A die-to-die flit arrives and is checked for CRC and sequence; a mismatch or gap starts a go-back-N replay. -/
def execFlitReceive (dir : D2dDir) (seq : BitVec 16) (crcOk _endsFrame : Bool) (s : State) : Host.Outcome State Fault Refusal :=
  done s (flit s dir seq crcOk)
/-- D2D_RETRAIN (R13). After 8 consecutive failed replays the die-to-die link is retrained while frames are held in the link buffers. -/
def execD2dRetrain (s : State) : Host.Outcome State Fault Refusal :=
  done s (retrain s)
/-- D2D_RETRAIN_DONE (R13). Retraining of the die-to-die link completes and held traffic resumes. -/
def execD2dRetrainDone (s : State) : Host.Outcome State Fault Refusal :=
  done s (retrainDone s)
/-- D2D_LINK_DOWN (R14). Retraining has not succeeded within 1 ms, so the link is declared down, FLD is isolated and held frames are discarded. -/
def execD2dLinkDown (s : State) : Host.Outcome State Fault Refusal :=
  done s (d2dDown s)
/-- D2D_LINK_RETURN (R14). The die-to-die link returns and FLD is restored by a region reset. -/
def execD2dLinkReturn (s : State) : Host.Outcome State Fault Refusal :=
  done s (d2dReturn s)
/-- CK_REF_LOST (R24). No CK_REF edge for 2 us, or CK_REF off frequency for 100 us: the root PLL enters holdover and the loss is escalated. -/
def execCkRefLost (s : State) : Host.Outcome State Fault Refusal :=
  done s (ckLost s)
/-- CK_REF_RELOCK (R24). CK_REF has been stable for 1 ms within holdover and the root PLL relocks without a phase step. -/
def execCkRefRelock (s : State) : Host.Outcome State Fault Refusal :=
  done s (ckRelock s)
/-- HOLDOVER_EXPIRE (R24). CK_REF is still absent after 100 ms, so custody is journalled and custody hold is entered with hold cause 2. -/
def execHoldoverExpire (s : State) : Host.Outcome State Fault Refusal :=
  done s (ckGone s)
/-- CK_PCIE_LOSS (R25). Loss of CK_PCIE affects only HST.PCI and the functions that depend on the host. -/
def execCkPcieLoss (s : State) : Host.Outcome State Fault Refusal :=
  done s (pcieClockLost s)
/-- POWER_REQUEST (R573). A write of PG_PWR or RGN_DOM_PWR requests a power state; the request is refused, made pending, or carried out under the domain state machine. -/
def execPowerRequest (req : Requester) (page : Page) (entry : Option (BitVec 6)) (target : PwrState) (s : State) : Host.Outcome State Fault Refusal :=
  done s (regUpdate s req page.toNat (match entry with | none => 0x00C | some k => 0x100 + 4 * k.toNat) 0x3 (pwrCode target))
/-- POWER_TRANSITION_START (R29). A waiting or pending domain transition starts once an in-rush slot is free or the transition in progress has completed. -/
def execPowerTransitionStart (dom : BitVec 8) (s : State) : Host.Outcome State Fault Refusal :=
  done s (onlyIf (dom.toNat < 176) s (powerGo s dom.toNat))
/-- POWER_TRANSITION_DONE (R27). A domain reaches its requested power state after the transition time. -/
def execPowerTransitionDone (dom : BitVec 8) (s : State) : Host.Outcome State Fault Refusal :=
  done s (onlyIf (dom.toNat < 176) s (powerDone s dom.toNat))
/-- PG_ENABLE (R45). A write of PG_CTL.enable starts or stops the datapath of the block or cell; frames held when it stops are discarded. -/
def execPgEnable (req : Requester) (page : Page) (on : Bool) (s : State) : Host.Outcome State Fault Refusal :=
  done s (regUpdate s req page.toNat 0x010 0x1 (b2n on))
/-- PG_DRAIN (R45). A write of PG_CTL.drain makes the block or cell refuse new work while work in flight completes, or resume. -/
def execPgDrain (req : Requester) (page : Page) (on : Bool) (s : State) : Host.Outcome State Fault Refusal :=
  done s (regUpdate s req page.toNat 0x010 0x2 (b2n on * 2))
/-- PG_ISOLATE (R45). A write of PG_CTL.isolate cuts the block or cell off from its neighbours; arriving work is discarded. -/
def execPgIsolate (req : Requester) (page : Page) (on : Bool) (s : State) : Host.Outcome State Fault Refusal :=
  done s (regUpdate s req page.toNat 0x010 0x4 (b2n on * 4))
/-- SOFT_RESET (R33). PG_CTL.soft_reset resets the cell, the block or the region named by the page. -/
def execSoftReset (req : Requester) (page : Page) (s : State) : Host.Outcome State Fault Refusal :=
  done s (regUpdate s req page.toNat 0x010 0x8 0x8)
/-- RESET_COMPLETE (R32). A reset in progress completes and its scope returns to service. -/
def execResetComplete (scope : ResetScope) (s : State) : Host.Outcome State Fault Refusal :=
  done s (resetEnd s scope)
/-- HOLD_RELEASE (R67). PG_CTL.hold_release ends HOLD when no unmasked HOLD source remains set. -/
def execHoldRelease (req : Requester) (page : Page) (s : State) : Host.Outcome State Fault Refusal :=
  done s (regUpdate s req page.toNat 0x010 0x10 0x10)
/-- PERST_N (R34). PCIe PERST_N from the host resets only the HST region. -/
def execPerstN (low : Bool) (s : State) (speed : BitVec 4 := 5) (width : BitVec 6 := 8) :
    Host.Outcome State Fault Refusal :=
  done s (perst s low speed.toNat width.toNat)
/-- PWR_WARM (R37). A write of PWR_WARM with the key requests a warm chip reset; any other value is counted in PWR_BADCMD. -/
def execPwrWarm (req : Requester) (value : Word) (s : State) : Host.Outcome State Fault Refusal :=
  done s (regWrite s req pwrPage 0x100 value.toNat)

end Sys2Proof.Machine
end

