-- ==== Sys2Proof/Machine/Time.lean ====
section
/-! DEFINITION. The meanings of the commands of time bases and pins (chapter 11). -/

namespace Sys2Proof.Machine

/-- TB_SET (R346). TB_CMD.set sets the time base at a given base count, unless step_lock refuses it. -/
def execTbSet (req : Requester) (k : BitVec 4) (s : State) : Host.Outcome State Fault Refusal :=
  done s (regWrite s req (tbPage k.toNat) 0x128 0x1)
/-- TB_SET_NOW (R345). TB_CMD.set_now sets the time base at the present base count. -/
def execTbSetNow (req : Requester) (k : BitVec 4) (s : State) : Host.Outcome State Fault Refusal :=
  done s (regWrite s req (tbPage k.toNat) 0x128 0x2)
/-- TB_STEP (R346). TB_CMD.step steps the time base by TB_STEP, unless step_lock refuses it. -/
def execTbStep (req : Requester) (k : BitVec 4) (s : State) : Host.Outcome State Fault Refusal :=
  done s (regWrite s req (tbPage k.toNat) 0x128 0x4)
/-- TB_SLEW (R347). TB_CMD.slew starts a slew of TB_SLEW_AMT at TB_SLEW_RATE. -/
def execTbSlew (req : Requester) (k : BitVec 4) (s : State) : Host.Outcome State Fault Refusal :=
  done s (regWrite s req (tbPage k.toNat) 0x128 0x8)
/-- TB_SLEW_ABORT (R347). TB_CMD.slew_abort ends the slew and keeps its remainder. -/
def execTbSlewAbort (req : Requester) (k : BitVec 4) (s : State) : Host.Outcome State Fault Refusal :=
  done s (regWrite s req (tbPage k.toNat) 0x128 0x10)
/-- TB_FREQ_WRITE (R345). A write of TB_FREQ changes the rate of the time base. -/
def execTbFreqWrite (req : Requester) (k : BitVec 4) (value : Word) (s : State) : Host.Outcome State Fault Refusal :=
  done s (regWrite s req (tbPage k.toNat) 0x138 value.toNat)
/-- TB_CHANGE_RELEASE (R348). A held change of a time base applies once 500 us have passed since the previous change. -/
def execTbChangeRelease (k : BitVec 4) (s : State) : Host.Outcome State Fault Refusal :=
  done s (changeRelease s k.toNat)
/-- SLEW_END (R347). The slew remainder reaches zero and the slew term ends. -/
def execSlewEnd (k : BitVec 4) (s : State) : Host.Outcome State Fault Refusal :=
  done s (slewOver s k.toNat)
/-- SERVO_SAMPLE (R353). An offset sample drives the servo state machine and its output. -/
def execServoSample (req : Requester) (k : BitVec 4) (theta : DWord) (s : State) : Host.Outcome State Fault Refusal :=
  done s (busWrite s req (wordAddr (tbPage k.toNat) 0x160) 8 theta)
/-- SERVO_HOLDOVER (R353). No sample for the holdover interval puts the servo into HOLDOVER. -/
def execServoHoldover (k : BitVec 4) (s : State) : Host.Outcome State Fault Refusal :=
  done s (servoHold s k.toNat)
/-- ALIGNMENT_MARKER (R356). Every 65,536 CK_TIME cycles, block replicas are checked against the base count and reloaded. -/
def execAlignmentMarker (mismatched : List Page) (s : State) : Host.Outcome State Fault Refusal :=
  done s (marker s (mismatched.map (·.toNat)))
/-- CONVERT (R360). CONV_CMD.go converts a base count into a time base. -/
def execConvert (req : Requester) (tb : BitVec 4) (s : State) : Host.Outcome State Fault Refusal :=
  done s (regUpdate s req tbsPage 0x128 0x10F (tb.toNat + 0x100))
/-- TIME_CAPTURE (R370). TBS_CAP.go captures the base count and all sixteen time bases in one cycle. -/
def execTimeCapture (req : Requester) (s : State) : Host.Outcome State Fault Refusal :=
  done s (regWrite s req tbsPage 0x100 0x1)
/-- TIO_CAPTURE (R366). An input edge on a TIO pin is stamped into its FIFO. -/
def execTioCapture (pin : BitVec 2) (rising : Bool) (s : State) : Host.Outcome State Fault Refusal :=
  done s (tioEdge s pin.toNat rising)
/-- TIO_CAP_POP (R366). A read of the low word of TIO_CAP_BC removes the oldest capture. -/
def execTioCapPop (req : Requester) (pin : BitVec 2) (s : State) : Host.Outcome State Fault Refusal :=
  done s (busRead s req (wordAddr tioPage (tioOff pin.toNat + 0x20)) 4)
/-- TIO_OUTPUT_EDGE (R366). A periodic output edge is placed at its instant. -/
def execTioOutputEdge (pin : BitVec 2) (s : State) : Host.Outcome State Fault Refusal :=
  done s (tioEdgeOut s pin.toNat)
/-- SYNCE_RELEASE (R367). After 1 s with the port UP, the squelch is released. -/
def execSynceRelease (output : BitVec 1) (s : State) : Host.Outcome State Fault Refusal :=
  done s (synceUp s output.toNat)

end Sys2Proof.Machine
end

