-- ==== Sys2Proof/Machine/Dispatch.lean ====
section
/-! DEFINITION. The dispatch: one arm for each command, each a direct call of its meaning. -/

namespace Sys2Proof.Machine

/-- What a command does to everything but the queue of waiting commands. -/
def exec (i : Instr) (s : State) : Host.Outcome State Fault Refusal :=
  match i with
  | .flitReceive dir seq crcOk endsFrame => Sys2Proof.Machine.execFlitReceive dir seq crcOk endsFrame s
  | .d2dRetrain => Sys2Proof.Machine.execD2dRetrain s
  | .d2dRetrainDone => Sys2Proof.Machine.execD2dRetrainDone s
  | .d2dLinkDown => Sys2Proof.Machine.execD2dLinkDown s
  | .d2dLinkReturn => Sys2Proof.Machine.execD2dLinkReturn s
  | .ckRefLost => Sys2Proof.Machine.execCkRefLost s
  | .ckRefRelock => Sys2Proof.Machine.execCkRefRelock s
  | .holdoverExpire => Sys2Proof.Machine.execHoldoverExpire s
  | .ckPcieLoss => Sys2Proof.Machine.execCkPcieLoss s
  | .powerRequest req page entry target => Sys2Proof.Machine.execPowerRequest req page entry target s
  | .powerTransitionStart dom => Sys2Proof.Machine.execPowerTransitionStart dom s
  | .powerTransitionDone dom => Sys2Proof.Machine.execPowerTransitionDone dom s
  | .pgEnable req page on => Sys2Proof.Machine.execPgEnable req page on s
  | .pgDrain req page on => Sys2Proof.Machine.execPgDrain req page on s
  | .pgIsolate req page on => Sys2Proof.Machine.execPgIsolate req page on s
  | .softReset req page => Sys2Proof.Machine.execSoftReset req page s
  | .resetComplete scope => Sys2Proof.Machine.execResetComplete scope s
  | .holdRelease req page => Sys2Proof.Machine.execHoldRelease req page s
  | .perstN low speed width => Sys2Proof.Machine.execPerstN low s speed width
  | .pwrWarm req value => Sys2Proof.Machine.execPwrWarm req value s
  | .registerWrite req addr size data enables space => Sys2Proof.Machine.execRegisterWrite req addr size data s enables space
  | .lowWordRead req addr size enables space => Sys2Proof.Machine.execLowWordRead req addr size s enables space
  | .highWordRead req addr size enables => Sys2Proof.Machine.execHighWordRead req addr size s enables
  | .lowWordWrite req addr data enables => Sys2Proof.Machine.execLowWordWrite req addr data s enables
  | .highWordWrite req addr data enables => Sys2Proof.Machine.execHighWordWrite req addr data s enables
  | .accessTimeout req addr write => Sys2Proof.Machine.execAccessTimeout req addr write s
  | .aliasWrite req addr size data enables => Sys2Proof.Machine.execAliasWrite req addr size data s enables
  | .aliasRead req addr size enables => Sys2Proof.Machine.execAliasRead req addr size s enables
  | .cfgParityScan page => Sys2Proof.Machine.execCfgParityScan page s
  | .cfgParInj req page word arm => Sys2Proof.Machine.execCfgParInj req page word arm s
  | .intInj req page sources => Sys2Proof.Machine.execIntInj req page sources s
  | .intcArm req word vectors => Sys2Proof.Machine.execIntcArm req word vectors s
  | .tblRead req page => Sys2Proof.Machine.execTblRead req page s
  | .tblWrite req page => Sys2Proof.Machine.execTblWrite req page s
  | .tblInvalidate req page => Sys2Proof.Machine.execTblInvalidate req page s
  | .tblCmdDone page => Sys2Proof.Machine.execTblCmdDone page s
  | .tblLockAcquire req page => Sys2Proof.Machine.execTblLockAcquire req page s
  | .tblLockRelease req page => Sys2Proof.Machine.execTblLockRelease req page s
  | .tblLockForceRelease req page => Sys2Proof.Machine.execTblLockForceRelease req page s
  | .snapRequest req page clear => Sys2Proof.Machine.execSnapRequest req page clear s
  | .snapshotDone page => Sys2Proof.Machine.execSnapshotDone page s
  | .portEnable req port cfg => Sys2Proof.Machine.execPortEnable req port cfg s
  | .portDisable req port => Sys2Proof.Machine.execPortDisable req port s
  | .linkUp port level24 master polRev => Sys2Proof.Machine.execLinkUp port level24 master polRev s
  | .linkFault port cond => Sys2Proof.Machine.execLinkFault port cond s
  | .linkHoldExpire port => Sys2Proof.Machine.execLinkHoldExpire port s
  | .frameReceive port rx => Sys2Proof.Machine.execFrameReceive port rx s
  | .macControlReceive port mc => Sys2Proof.Machine.execMacControlReceive port mc s
  | .pauseExpire port classes => Sys2Proof.Machine.execPauseExpire port classes s
  | .pauseRefresh port => Sys2Proof.Machine.execPauseRefresh port s
  | .lpiEnter port => Sys2Proof.Machine.execLpiEnter port s
  | .lpiWake port => Sys2Proof.Machine.execLpiWake port s
  | .eyeScanStart req quad lane => Sys2Proof.Machine.execEyeScanStart req quad lane s
  | .eyeScanDone quad height width => Sys2Proof.Machine.execEyeScanDone quad height width s
  | .laneAdaptNow req quad lane snr => Sys2Proof.Machine.execLaneAdaptNow req quad lane snr s
  | .moduleInsert cage => Sys2Proof.Machine.execModuleInsert cage s
  | .moduleResetRelease cage => Sys2Proof.Machine.execModuleResetRelease cage s
  | .moduleIdentify cage identity appMatches judged ack => Sys2Proof.Machine.execModuleIdentify cage identity appMatches s judged ack
  | .moduleReadyTimeout cage => Sys2Proof.Machine.execModuleReadyTimeout cage s
  | .moduleDatapathActive cage => Sys2Proof.Machine.execModuleDatapathActive cage s
  | .moduleInterrupt cage ack => Sys2Proof.Machine.execModuleInterrupt cage s ack
  | .moduleRemove cage => Sys2Proof.Machine.execModuleRemove cage s
  | .moduleRetry req cage => Sys2Proof.Machine.execModuleRetry req cage s
  | .modXfer req cage cmd => Sys2Proof.Machine.execModXfer req cage cmd s
  | .modXferDone cage ack data => Sys2Proof.Machine.execModXferDone cage ack data s
  | .fieldPortEnable req port cfg => Sys2Proof.Machine.execFieldPortEnable req port cfg s
  | .collision port late => Sys2Proof.Machine.execCollision port late s
  | .backoffExpire port => Sys2Proof.Machine.execBackoffExpire port s
  | .plcaActive port => Sys2Proof.Machine.execPlcaActive port s
  | .plcaTxOpportunity port => Sys2Proof.Machine.execPlcaTxOpportunity port s
  | .sgmiiControlWord port speed fullDuplex => Sys2Proof.Machine.execSgmiiControlWord port speed fullDuplex s
  | .mdioAddress req cmd => Sys2Proof.Machine.execMdioAddress req cmd s
  | .mdioWrite req cmd => Sys2Proof.Machine.execMdioWrite req cmd s
  | .mdioRead req cmd => Sys2Proof.Machine.execMdioRead req cmd s
  | .mdioReadIncrement req cmd => Sys2Proof.Machine.execMdioReadIncrement req cmd s
  | .mdioDone data => Sys2Proof.Machine.execMdioDone data s
  | .senseSample pair vp vn overRange => Sys2Proof.Machine.execSenseSample pair vp vn overRange s
  | .echoTestStart pair => Sys2Proof.Machine.execEchoTestStart pair s
  | .echoTestDone pair result => Sys2Proof.Machine.execEchoTestDone pair result s
  | .clampEvent pair begins neg => Sys2Proof.Machine.execClampEvent pair begins s neg
  | .senseCalibrate pair => Sys2Proof.Machine.execSenseCalibrate pair s
  | .senseCalAll req => Sys2Proof.Machine.execSenseCalAll req s
  | .senseCalDone pair inRange => Sys2Proof.Machine.execSenseCalDone pair inRange s
  | .cableDiagStart req cmd => Sys2Proof.Machine.execCableDiagStart req cmd s
  | .cableDiagDone result samples => Sys2Proof.Machine.execCableDiagDone result samples s
  | .senseHoldReturn pair => Sys2Proof.Machine.execSenseHoldReturn pair s
  | .senseRelease req pair => Sys2Proof.Machine.execSenseRelease req pair s
  | .pipelinePass pipe => Sys2Proof.Machine.execPipelinePass pipe s
  | .recircIssue pipe => Sys2Proof.Machine.execRecircIssue pipe s
  | .recircStale pipe => Sys2Proof.Machine.execRecircStale pipe s
  | .rulSwapGo req pipe => Sys2Proof.Machine.execRulSwapGo req pipe s
  | .swapGuard lift => Sys2Proof.Machine.execSwapGuard lift s
  | .bankRetired bank => Sys2Proof.Machine.execBankRetired bank s
  | .tableParityScan page => Sys2Proof.Machine.execTableParityScan page s
  | .walkerVisit pipe => Sys2Proof.Machine.execWalkerVisit pipe s
  | .fdbFlush req pipe value => Sys2Proof.Machine.execFdbFlush req pipe value s
  | .fdbFlushDone pipe => Sys2Proof.Machine.execFdbFlushDone pipe s
  | .learnEventApply pipe => Sys2Proof.Machine.execLearnEventApply pipe s
  | .learnResync pipe => Sys2Proof.Machine.execLearnResync pipe s
  | .grant pool by_ size rivals => Sys2Proof.Machine.execGrant pool by_ size s rivals
  | .handover pool buf by_ dst => Sys2Proof.Machine.execHandover pool buf by_ dst s
  | .addref pool buf by_ k => Sys2Proof.Machine.execAddref pool buf by_ k s
  | .drop pool buf by_ => Sys2Proof.Machine.execDrop pool buf by_ s
  | .release pool buf by_ => Sys2Proof.Machine.execRelease pool buf by_ s
  | .fence pool buf by_ => Sys2Proof.Machine.execFence pool buf by_ s
  | .unfence pool buf by_ => Sys2Proof.Machine.execUnfence pool buf by_ s
  | .queueAdmission => Sys2Proof.Machine.execQueueAdmission s
  | .quotaWrite req pool n isMax value => Sys2Proof.Machine.execQuotaWrite req pool n isMax value s
  | .spillWrite slice => Sys2Proof.Machine.execSpillWrite slice s
  | .spillRefill queue => Sys2Proof.Machine.execSpillRefill queue s
  | .bankFenceRequest group => Sys2Proof.Machine.execBankFenceRequest group s
  | .bankFenceDone group => Sys2Proof.Machine.execBankFenceDone group s
  | .frameReady queue seq => Sys2Proof.Machine.execFrameReady queue seq s
  | .seqSkip queue => Sys2Proof.Machine.execSeqSkip queue s
  | .schedulerSelect port => Sys2Proof.Machine.execSchedulerSelect port s
  | .transmitComplete port => Sys2Proof.Machine.execTransmitComplete port s
  | .gateEntryChange port => Sys2Proof.Machine.execGateEntryChange port s
  | .gatSwapGo req port => Sys2Proof.Machine.execGatSwapGo req port s
  | .mtrSwapGo req pipe => Sys2Proof.Machine.execMtrSwapGo req pipe s
  | .custodyEnApply queue => Sys2Proof.Machine.execCustodyEnApply queue s
  | .settleExpire queue => Sys2Proof.Machine.execSettleExpire queue s
  | .replayAdmit queue => Sys2Proof.Machine.execReplayAdmit queue s
  | .expiryInspect queue => Sys2Proof.Machine.execExpiryInspect queue s
  | .custodyFlush req value => Sys2Proof.Machine.execCustodyFlush req value s
  | .pfwNAccept => Sys2Proof.Machine.execPfwNAccept s
  | .custodyHoldEnter req => Sys2Proof.Machine.execCustodyHoldEnter req s
  | .custodyHoldAbandon req => Sys2Proof.Machine.execCustodyHoldAbandon req s
  | .checkpointJournal => Sys2Proof.Machine.execCheckpointJournal s
  | .journalNow req => Sys2Proof.Machine.execJournalNow req s
  | .holdExitTimer => Sys2Proof.Machine.execHoldExitTimer s
  | .rebuildPhaseDone => Sys2Proof.Machine.execRebuildPhaseDone s
  | .channelDrain req channel => Sys2Proof.Machine.execChannelDrain req channel s
  | .pageMigrate page => Sys2Proof.Machine.execPageMigrate page s
  | .drainDone => Sys2Proof.Machine.execDrainDone s
  | .drainAbort req => Sys2Proof.Machine.execDrainAbort req s
  | .channelReadmit req channel serial capacityTib16 => Sys2Proof.Machine.execChannelReadmit req channel serial capacityTib16 s
  | .readmitDone => Sys2Proof.Machine.execReadmitDone s
  | .spanPairEnable req on => Sys2Proof.Machine.execSpanPairEnable req on s
  | .spanLinkEnable req link cfg => Sys2Proof.Machine.execSpanLinkEnable req link cfg s
  | .helloSend link => Sys2Proof.Machine.execHelloSend link s
  | .helloReceive link serial mac session => Sys2Proof.Machine.execHelloReceive link serial mac session s
  | .authOffer link serial chainOk ownerMatch => Sys2Proof.Machine.execAuthOffer link serial chainOk ownerMatch s
  | .authProof link proofOk => Sys2Proof.Machine.execAuthProof link proofOk s
  | .authTimeout link => Sys2Proof.Machine.execAuthTimeout link s
  | .helloDead link => Sys2Proof.Machine.execHelloDead link s
  | .spanDataReceive link hdr bytes => Sys2Proof.Machine.execSpanDataReceive link hdr bytes s
  | .ackTimer link space => Sys2Proof.Machine.execAckTimer link space s
  | .spanAckReceive link space cum sacks => Sys2Proof.Machine.execSpanAckReceive link space cum sacks s
  | .rtoExpire link space => Sys2Proof.Machine.execRtoExpire link space s
  | .spanHandover oldLink newLink fromPartner rcvCum => Sys2Proof.Machine.execSpanHandover oldLink newLink fromPartner rcvCum s
  | .spanLearnReceive link seq events => Sys2Proof.Machine.execSpanLearnReceive link seq events s
  | .learnFrameFlush => Sys2Proof.Machine.execLearnFrameFlush s
  | .spanTimeExchange link => Sys2Proof.Machine.execSpanTimeExchange link s
  | .bpduRelay outbound port body => Sys2Proof.Machine.execBpduRelay outbound port body s
  | .splitHoldExpire => Sys2Proof.Machine.execSplitHoldExpire s
  | .sessionKeepExpire => Sys2Proof.Machine.execSessionKeepExpire s
  | .tbSet req k => Sys2Proof.Machine.execTbSet req k s
  | .tbSetNow req k => Sys2Proof.Machine.execTbSetNow req k s
  | .tbStep req k => Sys2Proof.Machine.execTbStep req k s
  | .tbSlew req k => Sys2Proof.Machine.execTbSlew req k s
  | .tbSlewAbort req k => Sys2Proof.Machine.execTbSlewAbort req k s
  | .tbFreqWrite req k value => Sys2Proof.Machine.execTbFreqWrite req k value s
  | .tbChangeRelease k => Sys2Proof.Machine.execTbChangeRelease k s
  | .slewEnd k => Sys2Proof.Machine.execSlewEnd k s
  | .servoSample req k theta => Sys2Proof.Machine.execServoSample req k theta s
  | .servoHoldover k => Sys2Proof.Machine.execServoHoldover k s
  | .alignmentMarker mismatched => Sys2Proof.Machine.execAlignmentMarker mismatched s
  | .convert req tb => Sys2Proof.Machine.execConvert req tb s
  | .timeCapture req => Sys2Proof.Machine.execTimeCapture req s
  | .tioCapture pin rising => Sys2Proof.Machine.execTioCapture pin rising s
  | .tioCapPop req pin => Sys2Proof.Machine.execTioCapPop req pin s
  | .tioOutputEdge pin => Sys2Proof.Machine.execTioOutputEdge pin s
  | .synceRelease output => Sys2Proof.Machine.execSynceRelease output s
  | .liftArm req index record => Sys2Proof.Machine.execLiftArm req index record s
  | .liftDispatch index => Sys2Proof.Machine.execLiftDispatch index s
  | .liftLaunch index => Sys2Proof.Machine.execLiftLaunch index s
  | .liftCancel req value => Sys2Proof.Machine.execLiftCancel req value s
  | .liftAnnounce req value => Sys2Proof.Machine.execLiftAnnounce req value s
  | .announce fields => Sys2Proof.Machine.execAnnounce fields s
  | .commit group => Sys2Proof.Machine.execCommit group s
  | .committed group => Sys2Proof.Machine.execCommitted group s
  | .reject group cause => Sys2Proof.Machine.execReject group cause s
  | .cancel group firstOccurrence => Sys2Proof.Machine.execCancel group firstOccurrence s
  | .cancelled group firstOccurrence => Sys2Proof.Machine.execCancelled group firstOccurrence s
  | .commitDeadline group => Sys2Proof.Machine.execCommitDeadline group s
  | .bscDonePop req => Sys2Proof.Machine.execBscDonePop req s
  | .serviceLoad req value => Sys2Proof.Machine.execServiceLoad req value s
  | .serviceLoadDone digestOk => Sys2Proof.Machine.execServiceLoadDone digestOk s
  | .serviceStart req value => Sys2Proof.Machine.execServiceStart req value s
  | .serviceMigrate req value => Sys2Proof.Machine.execServiceMigrate req value s
  | .migrationDone freezeUs => Sys2Proof.Machine.execMigrationDone freezeUs s
  | .serviceRelease req value => Sys2Proof.Machine.execServiceRelease req value s
  | .serviceMessage msg => Sys2Proof.Machine.execServiceMessage msg s
  | .engineWatchdog block engine => Sys2Proof.Machine.execEngineWatchdog block engine s
  | .engineFault block engine instruction => Sys2Proof.Machine.execEngineFault block engine instruction s
  | .engineRestart req block engines => Sys2Proof.Machine.execEngineRestart req block engines s
  | .blockHeld block => Sys2Proof.Machine.execBlockHeld block s
  | .ping msg => Sys2Proof.Machine.execPing msg s
  | .stats msg => Sys2Proof.Machine.execStats msg s
  | .configGet msg => Sys2Proof.Machine.execConfigGet msg s
  | .configSet msg => Sys2Proof.Machine.execConfigSet msg s
  | .resync msg => Sys2Proof.Machine.execResync msg s
  | .partnerSync msg => Sys2Proof.Machine.execPartnerSync msg s
  | .linkInfo msg => Sys2Proof.Machine.execLinkInfo msg s
  | .authRetry msg => Sys2Proof.Machine.execAuthRetry msg s
  | .instanceSet msg => Sys2Proof.Machine.execInstanceSet msg s
  | .datasetGet msg => Sys2Proof.Machine.execDatasetGet msg s
  | .queueInfo msg => Sys2Proof.Machine.execQueueInfo msg s
  | .indexCheck msg => Sys2Proof.Machine.execIndexCheck msg s
  | .mepSet msg => Sys2Proof.Machine.execMepSet msg s
  | .measureStart msg => Sys2Proof.Machine.execMeasureStart msg s
  | .oamCcmTimer mep missed => Sys2Proof.Machine.execOamCcmTimer mep missed s
  | .subscribe msg => Sys2Proof.Machine.execSubscribe msg s
  | .unsubscribe msg => Sys2Proof.Machine.execUnsubscribe msg s
  | .telemPeriod subscription => Sys2Proof.Machine.execTelemPeriod subscription s
  | .diagSchedule msg => Sys2Proof.Machine.execDiagSchedule msg s
  | .segmentNodes msg => Sys2Proof.Machine.execSegmentNodes msg s
  | .bridgeSet msg => Sys2Proof.Machine.execBridgeSet msg s
  | .portStateGet msg => Sys2Proof.Machine.execPortStateGet msg s
  | .neighboursGet msg => Sys2Proof.Machine.execNeighboursGet msg s
  | .caSet msg => Sys2Proof.Machine.execCaSet msg s
  | .caStatus msg => Sys2Proof.Machine.execCaStatus msg s
  | .footwayStatus msg => Sys2Proof.Machine.execFootwayStatus msg s
  | .inspectRequest msg => Sys2Proof.Machine.execInspectRequest msg s
  | .inspectCancel msg => Sys2Proof.Machine.execInspectCancel msg s
  | .cageInfo msg => Sys2Proof.Machine.execCageInfo msg s
  | .appSet msg => Sys2Proof.Machine.execAppSet msg s
  | .sign block region digest => Sys2Proof.Machine.execSign block region digest s
  | .verifyPeer block offset length serial chainOk ownerMatch => Sys2Proof.Machine.execVerifyPeer block offset length serial chainOk ownerMatch s
  | .sqDoorbell req n => Sys2Proof.Machine.execSqDoorbell req n s
  | .rcbProdRead n prod => Sys2Proof.Machine.execRcbProdRead n prod s
  | .txEntry n slots data => Sys2Proof.Machine.execTxEntry n slots data s
  | .rxEntry n slots => Sys2Proof.Machine.execRxEntry n slots s
  | .svcEntry n slots => Sys2Proof.Machine.execSvcEntry n slots s
  | .copyEntry n slots => Sys2Proof.Machine.execCopyEntry n slots s
  | .hostFrameDeliver tc => Sys2Proof.Machine.execHostFrameDeliver tc s
  | .rxWaitExpire tc => Sys2Proof.Machine.execRxWaitExpire tc s
  | .tsTimeout tag => Sys2Proof.Machine.execTsTimeout tag s
  | .cqDoorbell req n cons => Sys2Proof.Machine.execCqDoorbell req n cons s
  | .cqReread n cons => Sys2Proof.Machine.execCqReread n cons s
  | .cqModTimer n => Sys2Proof.Machine.execCqModTimer n s
  | .ringEnable req completion n => Sys2Proof.Machine.execRingEnable req completion n s
  | .ringDisable req completion n => Sys2Proof.Machine.execRingDisable req completion n s
  | .functionLevelReset => Sys2Proof.Machine.execFunctionLevelReset s
  | .busMasterDisable bme d3hot => Sys2Proof.Machine.execBusMasterDisable bme d3hot s
  | .copyExecute channel => Sys2Proof.Machine.execCopyExecute channel s
  | .copyReadResponse channel data last => Sys2Proof.Machine.execCopyReadResponse channel data last s
  | .scratchResize req value => Sys2Proof.Machine.execScratchResize req value s
  | .scratchDone => Sys2Proof.Machine.execScratchDone s
  | .captureEnable req part on => Sys2Proof.Machine.execCaptureEnable req part on s
  | .captureArm req part => Sys2Proof.Machine.execCaptureArm req part s
  | .captureTrigger req part => Sys2Proof.Machine.execCaptureTrigger req part s
  | .captureFreeze req part => Sys2Proof.Machine.execCaptureFreeze req part s
  | .capturePostDone part => Sys2Proof.Machine.execCapturePostDone part s
  | .chipWatchdog => Sys2Proof.Machine.execChipWatchdog s
  | .watchdogKick req => Sys2Proof.Machine.execWatchdogKick req s
  | .injNonceRead req => Sys2Proof.Machine.execInjNonceRead req s
  | .injKey req key => Sys2Proof.Machine.execInjKey req key s
  | .injUnlock req minutes => Sys2Proof.Machine.execInjUnlock req minutes s
  | .injLock req => Sys2Proof.Machine.execInjLock req s
  | .injUnlockExpire => Sys2Proof.Machine.execInjUnlockExpire s
  | .injectSingleBit req => Sys2Proof.Machine.execInjectSingleBit req s
  | .injectDoubleBit req => Sys2Proof.Machine.execInjectDoubleBit req s
  | .injectParity req => Sys2Proof.Machine.execInjectParity req s
  | .injectFlitCrc req => Sys2Proof.Machine.execInjectFlitCrc req s
  | .injectDramSingle req => Sys2Proof.Machine.execInjectDramSingle req s
  | .injectDramUncorr req => Sys2Proof.Machine.execInjectDramUncorr req s
  | .injectEngineStall req => Sys2Proof.Machine.execInjectEngineStall req s
  | .injectLossOfSignal req => Sys2Proof.Machine.execInjectLossOfSignal req s
  | .injectThermal req => Sys2Proof.Machine.execInjectThermal req s
  | .testCtlWrite req page ctl0 ctl1 => Sys2Proof.Machine.execTestCtlWrite req page ctl0 ctl1 s
  | .inspectPrepared id => Sys2Proof.Machine.execInspectPrepared id s
  | .inspectTestDone id errors firstAddr => Sys2Proof.Machine.execInspectTestDone id errors firstAddr s
  | .inspectDeadline id => Sys2Proof.Machine.execInspectDeadline id s
  | .failoverSet req value => Sys2Proof.Machine.execFailoverSet req value s
  | .footwayCommit req => Sys2Proof.Machine.execFootwayCommit req s
  | .footwayEnter cause => Sys2Proof.Machine.execFootwayEnter cause s
  | .thermalFootway => Sys2Proof.Machine.execThermalFootway s
  | .footwayFrame port bytes => Sys2Proof.Machine.execFootwayFrame port bytes s
  | .footwayExit req => Sys2Proof.Machine.execFootwayExit req s
  | .footwayAutoExit => Sys2Proof.Machine.execFootwayAutoExit s
  | .footwayHandover req => Sys2Proof.Machine.execFootwayHandover req s
  | .quote req => Sys2Proof.Machine.execQuote req s
  | .stage req bundle flashOk => Sys2Proof.Machine.execStage req bundle s flashOk
  | .select req => Sys2Proof.Machine.execSelect req s
  | .bootOk req => Sys2Proof.Machine.execBootOk req s
  | .spxUpdate req => Sys2Proof.Machine.execSpxUpdate req s
  | .fwApply req => Sys2Proof.Machine.execFwApply req s
  | .certRead req => Sys2Proof.Machine.execCertRead req s
  | .fuseOwner req => Sys2Proof.Machine.execFuseOwner req s
  | .debug req sigAskineOk sigOwnerOk => Sys2Proof.Machine.execDebug req sigAskineOk sigOwnerOk s
  | .debugNonce req => Sys2Proof.Machine.execDebugNonce req s
  | .secCommandDone => Sys2Proof.Machine.execSecCommandDone s
  | .bootHostGo req bundle => Sys2Proof.Machine.execBootHostGo req bundle s
  | .resetNRise => Sys2Proof.Machine.execResetNRise s
  | .resetNFall => Sys2Proof.Machine.execResetNFall s
  | .thermalSample readings aonDeck aonAbut => Sys2Proof.Machine.execThermalSample readings aonDeck aonAbut s
  | .throttleEnter => Sys2Proof.Machine.execThrottleEnter s
  | .throttleExit => Sys2Proof.Machine.execThrottleExit s
  | .rcRegisterRead req addr size enables => Sys2Proof.Machine.execRcRegisterRead req addr size s enables
  | .plcaInactive port => Sys2Proof.Machine.execPlcaInactive port s
  | .spanRcvCumAnnounce link rcvCum => Sys2Proof.Machine.execSpanRcvCumAnnounce link rcvCum s
  | .spanTimeReceive link t1 t2 t3 t4 => Sys2Proof.Machine.execSpanTimeReceive link t1 t2 t3 t4 s
  | .patrolScrub page => Sys2Proof.Machine.execPatrolScrub page s
  | .pcieLinkDown => Sys2Proof.Machine.execPcieLinkDown s
  | .supplyLoss beforeHold => Sys2Proof.Machine.execSupplyLoss beforeHold s
  | .bootStageDone flashOk => Sys2Proof.Machine.execBootStageDone s flashOk
  | .dimmTrainingDone => Sys2Proof.Machine.execDimmTrainingDone s
  | .dramInitDone => Sys2Proof.Machine.execDramInitDone s

end Sys2Proof.Machine
end

