-- ==== Sys2Proof/Machine/Step.lean ====
section
/-! DEFINITION. The step: the command at the front of the queue, or one cycle of CK_TIME where none waits. -/

namespace Sys2Proof.Machine

/-- DESIGN CHOICE (log 1). With no command waiting one CK_TIME cycle passes: the base count advances by 256 while TIM core is
powered (R339). Nothing else happens of itself; every event in time is a command of its own. [DESIGN CHOICE, log 1] -/
def idle (s : State) : State := if domOn s 174 then { s with baseCount := s.baseCount + 256 } else s
/-- One step. -/
def step (s : State) : Host.Outcome State Fault Refusal :=
  match s.pending with
  | [] => .next (idle s)
  | c :: rest => exec c { s with pending := rest }
/-- `s` with the command that a word spells put at the front of its queue; `s` itself, for no word spells one. [DESIGN CHOICE, log 2] -/
def State.withFetchWord (s : State) (nbits w : Nat) : State :=
  match decodeTableWord nbits w with
  | none => s
  | some c => { s with pending := c :: s.pending }

end Sys2Proof.Machine
end

