-- ==== Sys2Proof/Safety.lean ====
section
/-! DEFINITION. What the claims speak of: the state a command leaves, the invariants that every command re-establishes, and the
words for what a command does not touch. -/

namespace Sys2Proof.Machine

/-! ### Interrupt messages (R69, R70) -/

/-- R70: no message is owed. While the device may write to the host and HST.INTC serves, no summary bit that is set and enabled
is mapped to an armed vector. -/
def MsiSettled (s : State) : Prop :=
  pcieLive s = true → serving s intcPage = true → ∀ b ∈ heardSums s,
    ebit (tget s intcPage 0 0 b) 15 = true → armed s (efld (tget s intcPage 0 0 b) 8 0) = false

/-! ### Window locks (R65, R400) -/

/-- R65, R400: no window lock is held by an engine block that is isolated. -/
def LocksLive (s : State) : Prop :=
  ∀ p k, lockBlock (rd s p 0xF0C).toNat = some k → isolated s (ebkPage k) = false

/-! ### What settles after a command -/

/-- Nothing stands over for the end of a command: no change of a time base for Bascule to take up, no lift armed or dispatched, no
stamp and no loss to deliver, no escalation, no HOLD, no reset, no completion ring, no lock of an isolated block, no service message
held or in hand, no ring entry fetched, no copy read that is due, no frame before a pipeline, no resynchronisation. -/
def Quiet (s : State) : Prop :=
  s.stepped = [] ∧ s.stamps = [] ∧ s.lostTx = [] ∧ s.escal = [] ∧ s.holds = [] ∧ s.resets = [] ∧ s.cqs = [] ∧
  s.lastReason = 0 ∧ s.d2d.signals = [] ∧ s.embHold = [] ∧ s.inHand = [] ∧ s.redeliv = [] ∧
  s.sqs.all (fun e => e.2.fetched.isEmpty && !e.2.waiting) = true ∧ s.chans.all (fun e => e.2.entries.all (fun x => !x.due)) = true ∧
  s.pipes.all (fun e => e.2.arrivals.isEmpty && e.2.recirc.isEmpty && !e.2.resyncing) = true ∧
  (liftList s).all (fun i => liftState s i != 1 && liftState s i != 3) = true ∧
  s.regs.all (fun e => !(e.1 % 4096 == 0xF0C && (match lockBlock e.2.toNat with | some k => isolated s (ebkPage k) | none => false))) = true
/-- `t` is `s` but for HST.INTC's arm registers, the pending bits of its masked vectors, and the messages that went out. -/
def OnlySignalled (s t : State) : Prop :=
  ∃ r p o, t = { s with regs := r, pcie := { s.pcie with pend := p }, out := o ++ s.out } ∧
    ∀ q w, q * 4096 + w < intcPage * 4096 + 0x140 ∨ intcPage * 4096 + 0x180 ≤ q * 4096 + w → rd t q w = rd s q w

/-! ### Register writes -/

/-- A requester's write of `v` to the register at offset `o` of page `p`, as stored by the access codes of R42. -/
abbrev written (s : State) (p o v : Nat) : State := storeWord s p o v all32
/-- A word whose read answers what stands there and does nothing but clear RC bits: no 64-bit register, no free value, nothing drawn,
popped or taken by the read. -/
def readsPlain (p o : Nat) : Bool :=
  decide (o < 0xF00) && (freeBits p o).isNone && !isLow p o && !isHigh p o && decide (kindOf p ≠ some .injUnlock) &&
  decide (kindOf p ≠ some .tio) && decide (kindOf p ≠ some .bsc) &&
  decide (kindOf p ≠ some .ipl ∨ o ≠ 0x10C)
/-- The register reads as before everywhere but at offset `o` of page `p`. -/
def RegsBut (s t : State) (p o : Nat) : Prop := ∀ q w, w < 4096 → (q, w) ≠ (p, o) → o < 4096 → rd t q w = rd s q w

/-! ### Service messages (R404, R407) -/

/-- EMB takes an internal request for service `id`, and the engine that its key names is free to answer it at once. -/
def answerable (s : State) (m : SvcRequest) (id : Nat) : Bool :=
  let b := blockFor s id m.key.toNat
  let e := engineFor s b m.key.toNat
  m.ring.isNone && serving s embPage && !(svcBlocks s id).isEmpty && !frozen s b && engines s b != 0 && m.busy == 0 && !stalled s b e &&
  !s.inHand.any (fun h => h.at b e) && decide (m.body.length ≤ 240) && id != 0xF0
/-- The service's count of requests has gone up by one. -/
abbrev countedFor (s : State) (id : Nat) : State := { s with svcServed := mapSet (fun _ => 0) s.svcServed id (served s id + 1) }
/-- The request as its command names it: service and opcode. -/
abbrev asked (m : SvcRequest) (id op : Nat) : SvcRequest := { m with service := BitVec.ofNat 8 id, opcode := BitVec.ofNat 8 op }

end Sys2Proof.Machine
end

