-- ==== Sys2Proof/Certificates/Slice0/Obligations.lean ====
section
/-! DEFINITION. The statements: what the commands do, and what holds after every one of them. A completion is stated as
`exec c s = .next (closed s u)`: `u` is what the command's own effect makes of `s` and `closed` adds what settles after every
command alike (`QuietCommandsOnlySignal`). -/

open Sys2Proof Sys2Proof.Machine

/-! ### The queue of commands -/

/-- The block's form: one step takes the command at the front of the queue and runs it with the queue's rest. -/
def Obligations.StepRunsTheFrontCommand : Prop :=
  ∀ (c : Instr) (rest : List Instr) (s : State), s.pending = c :: rest → step s = exec c { s with pending := rest }

/-- The model's choice (log 1): with no command waiting one CK_TIME cycle passes, and nothing else happens. The base count
advances by 256 (R339) while TIM core is ON. -/
def Obligations.IdleStepAdvancesBaseCount : Prop :=
  ∀ s : State, s.pending = [] →
    ∃ t, step s = .next t ∧ t = { s with baseCount := t.baseCount } ∧
      t.baseCount = (if domOn s 174 then s.baseCount + 256 else s.baseCount)

/-- Every command completes from every state, and the queue it leaves is the queue it found. -/
def Obligations.CommandsNeverStop : Prop :=
  ∀ (c : Instr) (s : State), ∃ t, exec c s = .next t ∧ t.pending = s.pending

/-- Commands are served first in, first out: `n` steps serve the first `n` commands, none stops the machine, none is lost, and the
next step runs the next command. -/
def Obligations.CommandsServedInOrder : Prop :=
  ∀ (s : State) (n : Nat), n ≤ s.pending.length →
    ∃ t, Host.Core.run Sys2Proof.core n s = .next t ∧ t.pending = s.pending.drop n ∧
      ∀ c rest, s.pending.drop n = c :: rest → step t = exec c { t with pending := rest }

/-! ### What follows every command -/

/-- R70: after every step no interrupt message is owed. -/
def Obligations.NoMessageIsOwed : Prop :=
  ∀ s t : State, MsiSettled s → step s = .next t → MsiSettled t

/-- R65, R400: after every step no isolated engine block holds a window lock. -/
def Obligations.IsolatedBlocksHoldNoLock : Prop :=
  ∀ s t : State, LocksLive s → step s = .next t → LocksLive t

/-- At reset no interrupt message is owed, no window lock is held at all, and nothing stands over. -/
def Obligations.InvariantsHoldAtReset : Prop :=
  MsiSettled State.reset ∧ LocksLive State.reset ∧ (∀ p, rd State.reset p 0xF0C = 0) ∧ Quiet State.reset

/-- Where nothing stands over, a command settles by its interrupt messages alone: registers other than HST.INTC's arm registers, and
everything else but the vectors pending and the messages sent, stay as its own effect left them. Rests on the model's choices in log 8. -/
def Obligations.QuietCommandsOnlySignal : Prop :=
  ∀ s u : State, Quiet u → closed s u = { signal u with pending := s.pending } ∧ OnlySignalled u (signal u)

/-! ### Structure, clocks and power (chapter 01) -/

/-- R13, R14: each receiver of the die-to-die link accepts a flit in order, which ends its replay; a flit with a bad CRC or out of
order makes it replay, or is a failed replay; once neither replays, the frames held toward COR go on. Eight failed replays in a row at
one receiver lead to a retraining; its end resumes the traffic; without success the link is down, FLD is held, and the link's return
resets FLD. Rests on the model's choices in log 38, 39. -/
def Obligations.DieToDieLink : Prop :=
  (∀ (s : State) (seq : BitVec 16) (e : Bool), s.d2d.st = .up ∨ (s.d2d.st = .replay ∧ s.d2d.repFld = true) → seq = s.d2d.expToCor →
    exec (.flitReceive .toCor seq true e) s = .next (closed s { s with d2d := { s.d2d with expToCor := seq + 1, repCor := false, fails := 0 } })) ∧
  (∀ (s : State) (seq : BitVec 16) (e : Bool), s.d2d.st = .up ∨ (s.d2d.st = .replay ∧ s.d2d.repCor = true) → seq = s.d2d.expToFld →
    exec (.flitReceive .toFld seq true e) s = .next (closed s { s with d2d := { s.d2d with expToFld := seq + 1, repFld := false, failsFld := 0 } })) ∧
  (∀ (s : State) (seq : BitVec 16) (e : Bool), s.d2d.st = .replay → s.d2d.repFld = false → seq = s.d2d.expToCor →
    exec (.flitReceive .toCor seq true e) s = .next (closed s (forEach { s with d2d := { s.d2d with st := .up, expToCor := seq + 1, repCor := false, repFld := false, fails := 0, failsFld := 0, toCor := [] } }
      s.d2d.toCor (fun s p => ingest s p.frame)))) ∧
  (∀ (s : State) (seq : BitVec 16) (ok e : Bool), s.d2d.st = .up ∨ s.d2d.st = .replay → s.d2d.repCor = false → ok = false ∨ seq ≠ s.d2d.expToCor →
    exec (.flitReceive .toCor seq ok e) s = .next (closed s { s with d2d := { s.d2d with st := .replay, repCor := true, fails := 0 } })) ∧
  (∀ (s : State) (seq : BitVec 16) (ok e : Bool), s.d2d.st = .up ∨ s.d2d.st = .replay → s.d2d.repFld = false → ok = false ∨ seq ≠ s.d2d.expToFld →
    exec (.flitReceive .toFld seq ok e) s = .next (closed s { s with d2d := { s.d2d with st := .replay, repFld := true, failsFld := 0 } })) ∧
  (∀ (s : State) (seq : BitVec 16) (ok e : Bool), s.d2d.st = .replay → s.d2d.repCor = true → ok = false ∨ seq ≠ s.d2d.expToCor →
    exec (.flitReceive .toCor seq ok e) s = .next (closed s { s with d2d := { s.d2d with fails := s.d2d.fails + 1 } })) ∧
  (∀ (s : State) (seq : BitVec 16) (ok e : Bool), s.d2d.st = .replay → s.d2d.repFld = true → ok = false ∨ seq ≠ s.d2d.expToFld →
    exec (.flitReceive .toFld seq ok e) s = .next (closed s { s with d2d := { s.d2d with failsFld := s.d2d.failsFld + 1 } })) ∧
  (∀ s : State, s.d2d.st = .replay → 8 ≤ s.d2d.fails ∨ 8 ≤ s.d2d.failsFld →
    exec .d2dRetrain s = .next (closed s { s with d2d := { s.d2d with st := .retrain } })) ∧
  (∀ s : State, s.d2d.st = .retrain →
    exec .d2dRetrainDone s = .next (closed s (forEach { s with d2d := { s.d2d with st := .up, repCor := false, repFld := false, fails := 0, failsFld := 0, toCor := [] } }
      s.d2d.toCor (fun s p => ingest s p.frame)))) ∧
  (∀ s : State, s.d2d.st = .retrain → exec .d2dLinkDown s = .next (closed s (d2dDown s)) ∧
    (d2dDown s).d2d.st = .down ∧ (d2dDown s).holds.contains (scopeKey (4 * 4096), 0) = true) ∧
  (∀ s : State, s.d2d.st = .down →
    exec .d2dLinkReturn s = .next (closed s (resetScope { s with d2d := {} } (.region 4))))

/-- R24: the loss of CK_REF raises source 0 of HST.PWR and shows holdover; its return raises source 1 and shows the relock; the
expiry of holdover leaves the chip in custody hold with hold cause 2 and the CUSTODY_HOLD pin driven. -/
def Obligations.ReferenceClock : Prop :=
  (∀ s : State, bitAt s pwrPage 0x108 0 = false → exec .ckRefLost s = .next (closed s (ckLost s)) ∧
    fld (ckLost s) pwrPage 0x108 1 0 = 3 ∧ bitAt (ckLost s) pwrPage 0x020 0 = true ∧ bitAt (ckLost s) inspPage 0x124 8 = true) ∧
  (∀ s : State, bitAt s pwrPage 0x108 1 = true → exec .ckRefRelock s = .next (closed s (ckRelock s)) ∧
    fld (ckRelock s) pwrPage 0x108 2 0 = 4 ∧ bitAt (ckRelock s) pwrPage 0x020 1 = true) ∧
  (∀ s : State, bitAt s pwrPage 0x108 1 = true → s.mode = .run → exec .holdoverExpire s = .next (closed s (ckGone s)) ∧
    (ckGone s).mode = .custodyHold ∧ rd (ckGone s) pwrPage 0x10C = 2 ∧ (ckGone s).pins.custodyHold = true)

/-- R25, R34, R424, R450: the loss of CK_PCIE takes the PCIe link alone; PERST_N low, a hot reset and FLR reset the HST region;
PERST_N high lets the link train; the host sets Bus Master Enable and D3hot, and where no completion is held and no ring index waits
to be read nothing else changes. Rests on the model's choices in log 40. -/
def Obligations.PcieLinkAndHostReset : Prop :=
  (∀ s : State, exec .ckPcieLoss s = .next (closed s { s with pcie := { s.pcie with linkUp := false } })) ∧
  (∀ (s : State) (speed : BitVec 4) (width : BitVec 6), exec (.perstN false speed width) s = .next (closed s
    { s with pins := { s.pins with perstN := true }, pcie := { linkUp := true, speed := speed.toNat, width := width.toNat } })) ∧
  (∀ (s : State) (speed : BitVec 4) (width : BitVec 6), s.mode = .run →
    exec (.perstN true speed width) s = .next (closed s (resetScope
      { s with pins := { s.pins with perstN := false }, pcie := { linkUp := false, speed := speed.toNat, width := width.toNat } } (.region 8)))) ∧
  (∀ s : State, s.mode = .run →
    exec .pcieLinkDown s = .next (closed s (resetScope
      { s with pcie := { linkUp := s.pins.perstN, speed := s.pcie.speed, width := s.pcie.width } } (.region 8)))) ∧
  (∀ s : State, s.mode = .run → s.pcie.linkUp = true → domOn s 170 = true →
    exec .functionLevelReset s = .next (closed s (resetScope s (.region 8)))) ∧
  (∀ (s : State) (bme d3hot : Bool), s.pcie.linkUp = true → domOn s 170 = true →
    (∀ e ∈ s.cqs, (cqRing s e.1).held = [] ∧ e.2.readDue = false) → (∀ e ∈ s.sqs, e.2.readDue = false) →
    exec (.busMasterDisable bme d3hot) s = .next (closed s { s with pcie := { s.pcie with bme := bme, d3hot := d3hot } }))

/-- R27 to R31, R573: a write of PG_PWR or RGN_DOM_PWR is a request for its domain. A domain in transition keeps it; one that is ON,
drained and needed by none goes to the state asked for; one that is not drained or is needed refuses, which PG_STAT of the page
shows. A request that waits for ON starts in a GATED domain once those it depends on stay ON. A transition's end puts the domain in
its new state: from RETAIN to GATED, from GATED to ON, where field ports may leave DISABLED, and from ON to GATED, where the domain's
field ports go to DISABLED. Rests on the model's choices in log 33, 34, 35, 140. -/
def Obligations.PowerTransitions : Prop :=
  (∀ (s : State) (r : Requester) (p : Page) (t : PwrState), opened s r p.toNat 0x00C = true →
    exec (.powerRequest r p none t) s =
      .next (closed s { powerReq (written s p.toNat 0x00C (pwrCode t)) p.toNat (pageDom p.toNat) t with resp := .done })) ∧
  (∀ (s : State) (r : Requester) (g : Nat) (k : BitVec 6) (t : PwrState), g < 10 → k.toNat < (regionDomains g).2 →
    opened s r (g * 4096) (0x100 + 4 * k.toNat) = true →
    exec (.powerRequest r (BitVec.ofNat 16 (g * 4096)) (some k) t) s =
      .next (closed s { powerReq (written s (g * 4096) (0x100 + 4 * k.toNat) (pwrCode t)) (g * 4096) ((regionDomains g).1 + k.toNat) t with resp := .done })) ∧
  (∀ (s : State) (p d : Nat) (t : PwrState), d < 176 → (domOf s d).going = none → (domOf s d).st ≠ t → (domOf s d).st = .on →
    domDrained (setDom s d { domOf s d with pending := none }) d = true → neededBy (setDom s d { domOf s d with pending := none }) d = false →
    domOf (powerReq s p d t) d = { domOf s d with pending := none, going := some t } ∧ rd (powerReq s p d t) = rd s) ∧
  (∀ (s : State) (p d : Nat) (t : PwrState), d < 176 → (domOf s d).going = none → (domOf s d).st ≠ t → (domOf s d).st = .on →
    domDrained (setDom s d { domOf s d with pending := none }) d = false ∨ neededBy (setDom s d { domOf s d with pending := none }) d = true →
    powerReq s p d t = setBit (setDom s d { domOf s d with pending := none }) p 0x014 5 true) ∧
  (∀ (s : State) (p d : Nat) (t u : PwrState), d < 176 → (domOf s d).going = some u →
    powerReq s p d t = setDom s d { domOf s d with pending := some t, reqPage := p }) ∧
  (∀ (s : State) (d : BitVec 8), d.toNat < 176 → (domOf s d.toNat).going = none → (domOf s d.toNat).pending = some .on →
    (domOf s d.toNat).st = .gated → (domNeeds d.toNat).all (staysOn s) = true →
    exec (.powerTransitionStart d) s = .next (closed s (powerGo s d.toNat)) ∧ powerGo s d.toNat = { s with doms := (powerGo s d.toNat).doms } ∧
    domOf (powerGo s d.toNat) d.toNat = { domOf s d.toNat with pending := none, going := some .on }) ∧
  (∀ (s : State) (d : BitVec 8), d.toNat < 176 → (d.toNat < 48 → d.toNat % 12 < 10) → (domOf s d.toNat).going = some .gated → (domOf s d.toNat).st = .retain →
    exec (.powerTransitionDone d) s = .next (closed s (setDom s d.toNat { domOf s d.toNat with st := .gated, going := none }))) ∧
  (∀ (s : State) (d : BitVec 8), d.toNat < 176 → (d.toNat < 48 → d.toNat % 12 < 10) → (domOf s d.toNat).going = some .on → (domOf s d.toNat).st = .gated →
    exec (.powerTransitionDone d) s = .next (closed s (fieldRetry (senseRestore (setDom s d.toNat { domOf s d.toNat with st := .on, going := none }))))) ∧
  (∀ (s : State) (d : BitVec 8), d.toNat < 176 → (d.toNat < 48 → d.toNat % 12 < 10) → (domOf s d.toNat).going = some .gated → (domOf s d.toNat).st = .on →
    exec (.powerTransitionDone d) s = .next (closed s (setDom (fieldLower s d.toNat) d.toNat { domOf (fieldLower s d.toNat) d.toNat with st := .gated, going := none })))

/-- R33, R37, R45, R67, R574: PG_CTL of a page. Its enable, drain and isolate bits are stored; a datapath that stops loses its
frames; soft_reset starts a reset of the page's scope; hold_release ends HOLD where no unmasked cause of severity HOLD is left. The
key in PWR_WARM starts a warm chip reset; any other value is counted and raises source 2. A reset that completes is over, and a
cell's changes nothing else but that a port whose pair is still held shows its hold. Rests on the model's choices in log 36, 41, 43, 119, 130. -/
def Obligations.PageControl : Prop :=
  (∀ (s : State) (r : Requester) (p : Page), opened s r p.toNat 0x010 = true → bitAt s p.toNat 0x010 0 = true →
    exec (.pgEnable r p false) s = .next (closed s { discardWork (written s p.toNat 0x010 (bitsOf (rd s p.toNat 0x010).toNat 2 1 * 2)) 0xE1
      (fun q => if ((pageInfo p.toNat).map (fun i => i.kind.cellPage)).getD false then q == p.toNat else (siblings p.toNat).contains q) with resp := .done })) ∧
  (∀ (s : State) (r : Requester) (p : Page), opened s r p.toNat 0x010 = true →
    exec (.pgEnable r p true) s = .next (closed s { written s p.toNat 0x010 (bitsOf (rd s p.toNat 0x010).toNat 2 1 * 2 + 1) with resp := .done })) ∧
  (∀ (s : State) (r : Requester) (p : Page) (on : Bool), opened s r p.toNat 0x010 = true →
    exec (.pgDrain r p on) s = .next (closed s { written s p.toNat 0x010 (withBits (bitsOf (rd s p.toNat 0x010).toNat 2 0) 1 1 (b2n on)) with resp := .done })) ∧
  (∀ (s : State) (r : Requester) (p : Page) (on : Bool), opened s r p.toNat 0x010 = true →
    exec (.pgIsolate r p on) s = .next (closed s { written s p.toNat 0x010 (withBits (bitsOf (rd s p.toNat 0x010).toNat 2 0) 2 2 (b2n on)) with resp := .done })) ∧
  (∀ (s : State) (r : Requester) (p : Page), opened s r p.toNat 0x010 = true →
    exec (.softReset r p) s = .next (closed s { resetScope (written s p.toNat 0x010 (bitsOf (rd s p.toNat 0x010).toNat 2 0 + 8)) (softScope p.toNat) with resp := .done })) ∧
  (∀ (s : State) (r : Requester) (p : Page), opened s r p.toNat 0x010 = true →
    exec (.holdRelease r p) s = .next (closed s { holdEnds (written s p.toNat 0x010 (bitsOf (rd s p.toNat 0x010).toNat 2 0 + 16)) p.toNat with resp := .done })) ∧
  (∀ (s : State) (p : Nat), (∀ b < 32, bitAt s p 0x020 b = true → bitAt s p 0x024 b = true ∨ sevOf s p b ≠ 2) →
    holdEnds s p = { s with holds := s.holds.filter (fun k => k.1 != scopeKey p) }) ∧
  (∀ (s : State) (r : Requester) (v : Word), opened s r pwrPage 0x100 = true → v = 0x57525354#32 →
    exec (.pwrWarm r v) s = .next (closed s { warmReset (written s pwrPage 0x100 0x57525354) with resp := .done })) ∧
  (∀ (s : State) (r : Requester) (v : Word), opened s r pwrPage 0x100 = true → v ≠ 0x57525354#32 →
    exec (.pwrWarm r v) s = .next (closed s { raise (inc (written s pwrPage 0x100 v.toNat) pwrPage 0x104) pwrPage 2 with resp := .done })) ∧
  (∀ (s : State) (c : ResetScope), s.resets.contains c = true →
    exec (.resetComplete c) s = .next (closed s (resetEnd s c)) ∧ ∀ q, c = .cell q → resetEnd s c = senseRestore { s with resets := s.resets.erase c })

/-- R35: a reset inside a wider one in progress is absorbed: it changes nothing. Any other starts at once and takes over from the
narrower ones, that of line sensing apart, which only a cold chip reset makes (R129). Rests on the model's choices in log 41. -/
def Obligations.InnerResetAbsorbed : Prop :=
  (∀ (s : State) (a b : ResetScope), b ∈ s.resets → scopeInside a b = true → resetScope s a = s) ∧
  (∀ (s : State) (a : ResetScope), senseScope a = true → resetScope s a = s) ∧
  (∀ (s : State) (a : ResetScope), senseScope a = false → (∀ b ∈ s.resets, scopeInside a b = false) →
    a ∈ (resetScope s a).resets ∧ ∀ b ∈ (resetScope s a).resets, b = a ∨ scopeInside b a = false)

/-! ### Register access (chapter 02) -/

/-- R42, the write column: an RW or RWS bit takes the written value, a W1C bit written 1 is cleared, an arm bit of HST.INTC written 1
is set (R70); every other bit, and every other register, keeps its value. Rests on the model's choices in log 16, 17. -/
def Obligations.WritesStoreByAccessCode : Prop :=
  ∀ (s : State) (p o v b : Nat) (row : RegRow), regRow p o = some row → b < 32 →
    bitAt (written s p o v) p o b =
      (if (row.rw ||| row.rws).testBit b then v.testBit b
       else if row.w1c.testBit b then bitAt s p o b && !v.testBit b
       else if row.w1s.testBit b && (decide (kindOf p = some .intc) && decide (0x140 ≤ o) && decide (o < 0x180)) then
         bitAt s p o b || v.testBit b
       else bitAt s p o b) ∧
    ∀ q w, q * 4096 + w ≠ p * 4096 + o → rd (written s p o v) q w = rd s q w

/-- R40, R50 to R52, R423: a 4-byte write to a word of no 64-bit register takes effect at once, and a severity, mask or parity
control word stores it and does no more. The low word of a 64-bit register is held in the requester's shadow; its high word commits both,
or, with no low word held for it, commits beside the live low word and is logged as a miss; 8 bytes commit both. A host's write to the
MSI-X table sets a vector's mask bit. -/
def Obligations.RegisterWrites : Prop :=
  (∀ (s : State) (r : Requester) (a : BitVec 28) (data : DWord) (p o : Nat) (row : RegRow), a.toNat = p * 4096 + o → 0x060 ≤ o → o < 0xF00 →
    opened s r p o = true → regRow p o = some row → isLow p o = false → isHigh p o = false →
    exec (.registerWrite r a 4 data) s = .next (closed s { effect s (written s p o (data.toNat % 2 ^ 32)) r p o (rd s p o).toNat
      (data.toNat % 2 ^ 32 &&& all32 &&& (row.rw ||| row.rws ||| row.w1c ||| row.w1s ||| row.wo)) with resp := .done })) ∧
  (∀ (s : State) (r : Requester) (a : BitVec 28) (data : DWord) (p o : Nat), a.toNat = p * 4096 + o →
    o = 0x024 ∨ o = 0x028 ∨ o = 0x02C ∨ o = 0x048 → opened s r p o = true →
    exec (.registerWrite r a 4 data) s = .next (closed s { written s p o (data.toNat % 2 ^ 32) with resp := .done })) ∧
  (∀ (s : State) (r : Requester) (a : BitVec 28) (data : Word) (p o : Nat), a.toNat = p * 4096 + o → o < 0xF00 → opened s r p o = true →
    isLow p o = true → writable p o = true →
    exec (.lowWordWrite r a data) s = .next (closed s { setWrShadow s (regId r) p (some (o + p * 4096, data)) with resp := .done })) ∧
  (∀ (s : State) (r : Requester) (a : BitVec 28) (data low : Word) (p o : Nat), a.toNat = p * 4096 + (o + 4) → o + 4 < 0xF00 →
    opened s r p (o + 4) = true → isLow p o = true → isLow p (o + 4) = false → writable p o = true → kindOf p ≠ some .tb →
    wrShadowOf s (regId r) p = some (p * 4096 + o, low) →
    exec (.highWordWrite r a data) s = .next (closed s
      { putWord (putWord (setWrShadow s (regId r) p none) r p o low.toNat all32) r p (o + 4) data.toNat all32 with resp := .done })) ∧
  (∀ (s : State) (r : Requester) (a : BitVec 28) (data : Word) (p o : Nat), a.toNat = p * 4096 + (o + 4) → o + 4 < 0xF00 →
    opened s r p (o + 4) = true → isLow p o = true → isLow p (o + 4) = false → writable p o = true → kindOf p ≠ some .tb →
    wrShadowOf s (regId r) p = none →
    exec (.highWordWrite r a data) s = .next (closed s { putWord (putWord (logMiss s (regId r) (p * 4096 + (o + 4))) r p o
      (rd s p o).toNat all32) r p (o + 4) data.toNat all32 with resp := .done })) ∧
  (∀ (s : State) (r : Requester) (a : BitVec 28) (data : DWord) (p o : Nat), a.toNat = p * 4096 + o → reach s r = true →
    accKind s r a.toNat 8 = 0 → isLow p o = true → writable p o = true → kindOf p ≠ some .tb → o < 4096 →
    exec (.registerWrite r a 8 data) s = .next (closed s
      { putWord (putWord s r p o (data.toNat % 2 ^ 32) all32) r p (o + 4) (data.toNat / 2 ^ 32) all32 with resp := .done })) ∧
  (∀ (s : State) (a : BitVec 28) (data : DWord), spaceReach s .host .bar4 = true → a.toNat < 0x2000 → a.toNat % 16 = 12 →
    exec (.registerWrite .host a 4 data true .bar4) s = .next (closed s { s with
      pcie := { s.pcie with mask := withBits s.pcie.mask (a.toNat / 16) (a.toNat / 16) (data.toNat % 2 ^ 32) }, resp := .done }))

/-- R3, R42, R51, R423: a read answers the register's value and clears its RC bits. The low word of a 64-bit register captures the
high word for the same requester, which its next read of the high word returns; with nothing captured the live value is returned and
logged as a miss. Configuration space begins with the vendor and device ID, and the MSI-X table shows a vector's mask bit. Rests on the model's choices in log 19, 29. -/
def Obligations.RegisterReads : Prop :=
  (∀ (s : State) (r : Requester) (a : BitVec 28) (p o : Nat), a.toNat = p * 4096 + o → opened s r p o = true → readsPlain p o = true →
    s.parBad.contains (p * 1024 + o / 4) = false →
    exec (.rcRegisterRead r a 4) s = .next (closed s { clearRC s p o all32 with resp := .value ((view s p o).setWidth 64) })) ∧
  (∀ (s : State) (p o b : Nat) (row : RegRow), regRow p o = some row → b < 32 →
    bitAt (clearRC s p o all32) p o b = (bitAt s p o b && !row.rc.testBit b)) ∧
  (∀ (s : State) (r : Requester) (a : BitVec 28) (p o : Nat), a.toNat = p * 4096 + o → o < 0xEF8 → opened s r p o = true → isLow p o = true →
    isHigh p o = false → kindOf p ≠ some .injUnlock → kindOf p ≠ some .tio → s.parBad.contains (p * 1024 + o / 4) = false →
    exec (.lowWordRead r a 4) s = .next (closed s { setRdShadow (clearRC s p o all32) (regId r) p
      (some (p * 4096 + o, view (clearRC s p o all32) p (o + 4))) with resp := .value ((view s p o).setWidth 64) })) ∧
  (∀ (s : State) (r : Requester) (a : BitVec 28) (p o : Nat) (v : Word), a.toNat = p * 4096 + (o + 4) → o + 4 < 0xEF8 →
    opened s r p (o + 4) = true → isLow p o = true → kindOf p ≠ some .injUnlock → kindOf p ≠ some .tio →
    s.parBad.contains (p * 1024 + (o + 4) / 4) = false → rdShadowOf s (regId r) p = some (p * 4096 + o, v) →
    exec (.highWordRead r a 4) s = .next (closed s { s with resp := .value (v.setWidth 64) })) ∧
  (∀ (s : State) (r : Requester) (a : BitVec 28) (p o : Nat), a.toNat = p * 4096 + (o + 4) → o + 4 < 0xEF8 →
    opened s r p (o + 4) = true → isLow p o = true → freeBits p (o + 4) = none → kindOf p ≠ some .injUnlock → kindOf p ≠ some .tio →
    s.parBad.contains (p * 1024 + (o + 4) / 4) = false → rdShadowOf s (regId r) p = none →
    exec (.highWordRead r a 4) s = .next (closed s { logMiss s (regId r) (p * 4096 + (o + 4)) with resp := .value ((view s p (o + 4)).setWidth 64) })) ∧
  (∀ (s : State) (a : BitVec 28), spaceReach s .host .config = true → a.toNat = 0 →
    exec (.lowWordRead .host a 4 true .config) s = .next (closed s { s with resp := .value 0x64401FE4#64 })) ∧
  (∀ (s : State) (a : BitVec 28), spaceReach s .host .bar4 = true → a.toNat < 0x2000 → a.toNat % 16 = 12 →
    exec (.lowWordRead .host a 4 true .bar4) s = .next (closed s { s with resp := .value (BitVec.ofNat 64 (b2n (s.pcie.mask.testBit (a.toNat / 16)))) }))

/-- R40, R41, R46, R53, R54, R61: an access that does not go through. An access of a size other than 4 and 8 bytes, not aligned to its
size or with a byte enable clear is of kind 5, one to a page that does not exist 3, and one to a page whose domain is not ON 1. A
read of kind 1 or 3 answers all ones and one of kind 5 completes with Completer Abort; a write of these kinds is dropped. A bus error
(kind 4) answers the host's read with Completer Abort and its write with ERR_NONFATAL, and SPX and an engine with a bus error. An alias
access to a privileged page is of kind 7: a read completes with Completer Abort, a write is dropped. An access that has not
completed after 4 µs is of kind 2: a read answers all ones. Each is logged: the first with its kind, requester and address, a later one
as more to come. Rests on the model's choices in log 20, 127, 128. -/
def Obligations.RefusedAccessesAreLogged : Prop :=
  (∀ (s : State) (r : Requester) (a size : Nat), size = 4 ∨ size = 8 → a % size = 0 → (pageInfo (a / 4096)).isNone = true → accKind s r a size = 3) ∧
  (∀ (s : State) (r : Requester) (a size : Nat), size = 4 ∨ size = 8 → a % size = 0 → (pageInfo (a / 4096)).isNone = false →
    domOn s (pageDom (a / 4096)) = false → accKind s r a size = 1) ∧
  (∀ (s : State) (r : Requester) (a : BitVec 28) (size k : Nat), reach s r = true → size = 4 ∨ size = 8 → accKind s r a.toNat size = k →
    k = 1 ∨ k = 3 →
    exec (.lowWordRead r a size) s = .next (closed s { logAcc s k (regId r) a.toNat with
      resp := .value (BitVec.ofNat 64 (2 ^ (8 * size) - 1)) })) ∧
  (∀ (s : State) (r : Requester) (a : BitVec 28) (size k : Nat) (v : DWord), reach s r = true → accKind s r a.toNat size = k → k = 1 ∨ k = 3 ∨ k = 5 →
    exec (.registerWrite r a size v) s = .next (closed s { logAcc s k (regId r) a.toNat with resp := .done })) ∧
  (∀ (s : State) (r : Requester) (a : BitVec 28) (size : Nat), reach s r = true → ¬(size = 4 ∨ size = 8) ∨ a.toNat % size ≠ 0 →
    exec (.lowWordRead r a size) s = .next (closed s { logAcc s 5 (regId r) a.toNat with resp := .completerAbort })) ∧
  (∀ (s : State) (r : Requester) (a : BitVec 28) (size : Nat) (v : DWord), reach s r = true →
    exec (.lowWordRead r a size false) s = .next (closed s { logAcc s 5 (regId r) a.toNat with resp := .completerAbort }) ∧
    exec (.registerWrite r a size v false) s = .next (closed s { logAcc s 5 (regId r) a.toNat with resp := .done })) ∧
  (∀ (s : State) (a : BitVec 28) (v : DWord), reach s .host = true → accKind s .host a.toNat 4 = 4 →
    exec (.lowWordRead .host a 4) s = .next (closed s { logAcc s 4 0 a.toNat with resp := .completerAbort }) ∧
    exec (.registerWrite .host a 4 v) s = .next (closed s (errNonfatal { logAcc s 4 0 a.toNat with resp := .done }))) ∧
  (∀ (s : State) (a : BitVec 28) (v : DWord) (t : State), reach s .spx = true → accKind s .spx a.toNat 4 = 4 →
    t = { logAcc s 4 1 a.toNat with resp := .busError, boot := { s.boot with cmd := s.boot.cmd.map (fun c => { c with busError := true }) } } →
    exec (.lowWordRead .spx a 4) s = .next (closed s t) ∧ exec (.registerWrite .spx a 4 v) s = .next (closed s t)) ∧
  (∀ (s : State) (k : BitVec 6) (a : BitVec 28) (v : DWord) (t : State), reach s (.engine k) = true → accKind s (.engine k) a.toNat 4 = 4 →
    t = abandonHand (raise (inc { logAcc s 4 (0x40 + k.toNat) a.toNat with resp := .busError } (ebkPage k.toNat) 0x118) (ebkPage k.toNat) 2) k.toNat →
    exec (.lowWordRead (.engine k) a 4) s = .next (closed s t) ∧ exec (.registerWrite (.engine k) a 4 v) s = .next (closed s t)) ∧
  (∀ (s : State) (r : Requester) (a : BitVec 29) (v : Word), reach s r = true → a.toNat % 4 = 0 → (pageInfo (aliasPage a.toNat)).isNone = false →
    privPage (aliasPage a.toNat) = true →
    exec (.aliasRead r a 4) s = .next (closed s { logAcc s 7 (regId r) (aliasPage a.toNat * 4096 + aliasOff a.toNat) with resp := .completerAbort }) ∧
    exec (.aliasWrite r a 4 v) s = .next (closed s { logAcc s 7 (regId r) (aliasPage a.toNat * 4096 + aliasOff a.toNat) with resp := .done })) ∧
  (∀ (s : State) (r : Requester) (a : BitVec 28) (write : Bool), reach s r = true → accKind s r a.toNat 4 = 0 →
    exec (.accessTimeout r a write) s = .next (closed s { logAcc s 2 (regId r) a.toNat with
      resp := if write then .done else .value 0xFFFFFFFF#64 })) ∧
  (∀ (s : State) (kind id addr : Nat), domOn s 173 = true → bitAt s intcPage 0x104 0 = false → kind < 8 → id < 256 → addr < 2 ^ 32 →
    bitAt (logAcc s kind id addr) intcPage 0x104 0 = true ∧ fld (logAcc s kind id addr) intcPage 0x104 3 1 = kind ∧
    fld (logAcc s kind id addr) intcPage 0x104 15 8 = id ∧ rd (logAcc s kind id addr) intcPage 0x108 = BitVec.ofNat 32 addr) ∧
  (∀ (s : State) (kind id addr : Nat), domOn s 173 = true → bitAt s intcPage 0x104 0 = true →
    bitAt (logAcc s kind id addr) intcPage 0x104 4 = true ∧ rd (logAcc s kind id addr) intcPage 0x108 = rd s intcPage 0x108)

/-- R51, R55, R56: a BAR2 access reads or writes one bit of a register by its access code, and clears an RC bit that it reads; a bit of
a low word captures the high word, and a bit of a high word is read from what was captured. Rests on the model's choices in log 18, 128. -/
def Obligations.AliasAccesses : Prop :=
  (∀ (s : State) (r : Requester) (a : BitVec 29) (data : Word) (row : RegRow), reach s r = true → aliasKind s r a.toNat 4 = 0 →
    regRow (aliasPage a.toNat) (aliasOff a.toNat) = some row →
    (row.rw ||| row.rws ||| row.w1c ||| row.w1s).testBit (aliasBit a.toNat) = true →
    exec (.aliasWrite r a 4 data) s = .next (closed s { putWord s r (aliasPage a.toNat) (aliasOff a.toNat)
      (data.toNat % 2 * 2 ^ aliasBit a.toNat) (2 ^ aliasBit a.toNat) with resp := .done })) ∧
  (∀ (s : State) (r : Requester) (a : BitVec 29) (data : Word) (row : RegRow), reach s r = true → aliasKind s r a.toNat 4 = 0 →
    regRow (aliasPage a.toNat) (aliasOff a.toNat) = some row →
    (row.rw ||| row.rws ||| row.w1c ||| row.w1s).testBit (aliasBit a.toNat) = false →
    exec (.aliasWrite r a 4 data) s = .next (closed s { s with resp := .done })) ∧
  (∀ (s : State) (r : Requester) (a : BitVec 29), reach s r = true → aliasKind s r a.toNat 4 = 0 → readsPlain (aliasPage a.toNat) (aliasOff a.toNat) = true →
    s.parBad.contains (aliasPage a.toNat * 1024 + aliasOff a.toNat / 4) = false →
    exec (.aliasRead r a 4) s = .next (closed s { clearRC s (aliasPage a.toNat) (aliasOff a.toNat) (2 ^ aliasBit a.toNat) with
      resp := .value (BitVec.ofNat 64 (b2n ((view s (aliasPage a.toNat) (aliasOff a.toNat)).toNat.testBit (aliasBit a.toNat)))) })) ∧
  (∀ (s : State) (r : Requester) (a : BitVec 29) (p o : Nat) (t : State), p = aliasPage a.toNat → o = aliasOff a.toNat → reach s r = true →
    aliasKind s r a.toNat 4 = 0 → isLow p o = true → isHigh p o = false → kindOf p ≠ some .tio → s.parBad.contains (p * 1024 + o / 4) = false →
    t = clearRC s p o (2 ^ aliasBit a.toNat) →
    exec (.aliasRead r a 4) s = .next (closed s { setRdShadow t (regId r) p (some (p * 4096 + o, view t p (o + 4))) with
      resp := .value (BitVec.ofNat 64 (b2n ((view s p o).toNat.testBit (aliasBit a.toNat)))) })) ∧
  (∀ (s : State) (r : Requester) (a : BitVec 29) (p o : Nat) (v : Word), p = aliasPage a.toNat → o = aliasOff a.toNat → reach s r = true →
    aliasKind s r a.toNat 4 = 0 → isHigh p o = true → kindOf p ≠ some .tio → s.parBad.contains (p * 1024 + o / 4) = false →
    rdShadowOf s (regId r) p = some (p * 4096 + (o - 4), v) →
    exec (.aliasRead r a 4) s = .next (closed s { s with resp := .value (BitVec.ofNat 64 (b2n (v.toNat.testBit (aliasBit a.toNat)))) })) ∧
  (∀ (s : State) (p o b v : Nat) (row : RegRow), regRow p o = some row → (row.rw ||| row.rws).testBit b = true → b < 32 →
    ∀ c, c < 32 → bitAt (storeWord s p o (v % 2 * 2 ^ b) (2 ^ b)) p o c = (if c = b then decide (v % 2 = 1) else bitAt s p o c))

/-- R47, R58, R59, R66, R70: a scan checks the words of the page with wrong parity, in word order; the first shows in CFG_PAR, and
source 31 is raised. While injection is unlocked CFG_PAR_INJ inverts a word's stored parity, and INT_INJ raises the sources named; while it
is locked both are denied. A source that fires sets its cause bit and no other; the first to be captured leaves itself and its severity in
ERR_CAPT0; no register but the cause word and the four capture words changes; severity HOLD puts the scope in HOLD, ESCALATE
leaves it to the level above, the others do neither. Writing INTC_ARM arms the vectors named and disarms none. Rests on the model's choices in log 17, 32, 129. -/
def Obligations.SourcesParityAndArming : Prop :=
  (∀ (s : State) (p : Page), pageOn s p.toNat = true → bitAt s p.toNat 0x048 0 = true →
    exec (.cfgParityScan p) s = .next (closed s (forEach s (s.parBad.filter (fun k => k / 1024 == p.toNat))
      (fun s k => parCheck s p.toNat (k % 1024 * 4))))) ∧
  (∀ (k : Nat) (l : List Nat), l.Pairwise (· < ·) → k ∉ l →
    (putRising k l).Pairwise (· < ·) ∧ ∀ j, j ∈ putRising k l ↔ j = k ∨ j ∈ l) ∧
  (∀ (s : State) (p o : Nat), hasConfig p o = true → s.parBad.contains (p * 1024 + o / 4) = true → bitAt s p 0x048 1 = false → o < 4096 →
    bitAt (parCheck s p o) p 0x020 31 = true ∧ bitAt (parCheck s p o) p 0x048 1 = true ∧ fld (parCheck s p o) p 0x048 13 4 = o / 4) ∧
  (∀ (s : State) (r : Requester) (p : Page) (w : BitVec 10), opened s r p.toNat 0x04C = true → unlocked s = true →
    hasConfig p.toNat (4 * w.toNat) = true →
    exec (.cfgParInj r p w true) s = .next (closed s { parInject (written s p.toNat 0x04C (w.toNat + 2 ^ 31)) p.toNat w.toNat with resp := .done }) ∧
    (s.parBad.contains (p.toNat * 1024 + w.toNat) = false →
      parInject s p.toNat w.toNat = { s with parBad := putRising (p.toNat * 1024 + w.toNat) s.parBad }) ∧
    (s.parBad.contains (p.toNat * 1024 + w.toNat) = true →
      parInject s p.toNat w.toNat = { s with parBad := s.parBad.erase (p.toNat * 1024 + w.toNat) })) ∧
  (∀ (s : State) (r : Requester) (p : Page) (w : BitVec 10) (arm : Bool), opened s r p.toNat 0x04C = true →
    unlocked (written s p.toNat 0x04C (w.toNat + b2n arm * 2 ^ 31)) = false →
    exec (.cfgParInj r p w arm) s = .next (closed s { deny (written s p.toNat 0x04C (w.toNat + b2n arm * 2 ^ 31)) with resp := .done })) ∧
  (∀ (s : State) (r : Requester) (p : Page) (v : Word), opened s r p.toNat 0x030 = true → unlocked (written s p.toNat 0x030 v.toNat) = true →
    exec (.intInj r p v) s = .next (closed s { injectSources (written s p.toNat 0x030 v.toNat) p.toNat v.toNat with resp := .done })) ∧
  (∀ (s : State) (p v b : Nat), b < 32 → v.testBit b = true → bitAt (injectSources s p v) p 0x020 b = true) ∧
  (∀ (s : State) (r : Requester) (p : Page) (v : Word), opened s r p.toNat 0x030 = true → unlocked (written s p.toNat 0x030 v.toNat) = false →
    exec (.intInj r p v) s = .next (closed s { deny (written s p.toNat 0x030 v.toNat) with resp := .done })) ∧
  (∀ (s : State) (p src reason detail cell : Nat), src < 32 →
    (∀ b, bitAt (raise s p src reason detail cell) p 0x020 b = (decide (b = src) || bitAt s p 0x020 b)) ∧
    (∀ q w, q * 4096 + w ≠ p * 4096 + 0x020 → q * 4096 + w < p * 4096 + 0x038 ∨ p * 4096 + 0x044 < q * 4096 + w →
      rd (raise s p src reason detail cell) q w = rd s q w) ∧
    (bitAt s p 0x038 0 = false → bitAt (raise s p src reason detail cell) p 0x038 0 = true ∧
      fld (raise s p src reason detail cell) p 0x038 5 1 = src ∧ fld (raise s p src reason detail cell) p 0x038 7 6 = sevOf s p src) ∧
    (sevOf s p src = 2 → cellSource p src = false → (raise s p src reason detail cell).holds.contains (scopeKey p, 0) = true) ∧
    (sevOf s p src = 3 → (raise s p src reason detail cell).escal = s.escal ++ [(p, src)]) ∧
    (sevOf s p src < 2 → (raise s p src reason detail cell).holds = s.holds ∧ (raise s p src reason detail cell).escal = s.escal)) ∧
  (∀ (s : State) (r : Requester) (w : BitVec 4) (v : Word), opened s r intcPage (0x140 + 4 * w.toNat) = true →
    exec (.intcArm r w v) s = .next (closed s { written s intcPage (0x140 + 4 * w.toNat) v.toNat with resp := .done }) ∧
    (∀ n < 512, armed (written s intcPage (0x140 + 4 * w.toNat) v.toNat) n =
      (armed s n || (decide (n / 32 = w.toNat) && v.toNat.testBit (n % 32)))))

/-- R64: a window command latches the address and the entry and is busy until it completes. A write of an entry of several table words
clears its valid bit first; what is refused reports its cause; the completion of a read puts the entry in TBL_DATA. Rests on the model's choices in log 24, 25, 26. -/
def Obligations.WindowCommands : Prop :=
  (∀ (s : State) (r : Requester) (p : Page), opened s r p.toNat 0xF04 = true → lockedOut s r p.toNat 0xF04 = false →
    exec (.tblRead r p) s = .next (closed s { tblGo (written s p.toNat 0xF04 1) p.toNat 1 with resp := .done }) ∧
    exec (.tblWrite r p) s = .next (closed s { tblGo (written s p.toNat 0xF04 2) p.toNat 2 with resp := .done }) ∧
    exec (.tblInvalidate r p) s = .next (closed s { tblGo (written s p.toNat 0xF04 3) p.toNat 3 with resp := .done })) ∧
  (∀ (s : State) (p : Nat), tblCause s p 1 (rd s p 0xF00).toNat (tblData s p) = 0 →
    tblGo s p 1 = setBit { s with
      tblCmd := mapSet (fun _ => none) s.tblCmd p (some { op := 1, addr := (rd s p 0xF00).toNat, data := tblData s p }) } p 0xF08 0 true) ∧
  (∀ (s : State) (p op v a : Nat) (d : TabDesc), a = (rd s p 0xF00).toNat → op = 2 ∨ op = 3 → tblCause s p op a (tblData s p) = 0 →
    descOf p (tblSel a) = some d → d.valid = some v →
    tblGo s p op = tset (setBit { s with tblCmd := mapSet (fun _ => none) s.tblCmd p (some { op := op, addr := a, data := tblData s p }) }
      p 0xF08 0 true) p (tblSel a) (if d.banked then tblBank a else 0) (tblIndex s p a)
      (esetFld (tget s p (tblSel a) (if d.banked then tblBank a else 0) (tblIndex s p a)) v v 0)) ∧
  (∀ (s : State) (p op c : Nat), tblCause s p op (rd s p 0xF00).toNat (tblData s p) = c → c ≠ 0 → c < 8 →
    tblGo s p op = raise (setFld (setBit s p 0xF08 2 true) p 0xF08 5 3 c) p 30 0 c) ∧
  (∀ (s : State) (p : Page) (c : TblCmd), mapGet (fun _ => none) s.tblCmd p.toNat = some c →
    exec (.tblCmdDone p) s = .next (closed s (tblRun (setBit (setBit { s with tblCmd := mapSet (fun _ => none) s.tblCmd p.toNat none }
      p.toNat 0xF08 0 false) p.toNat 0xF08 1 true) p.toNat c))) ∧
  (∀ (s : State) (p : Nat) (c : TblCmd) (d : TabDesc), c.op = 1 → descOf p (tblSel c.addr) = some d →
    s.tabBad.contains (tabKey p (tblSel c.addr) (bankUsed p (tblBank c.addr) d) (tblIndex s p c.addr)) = false →
    tblRun s p c = tblShow s p d.width (entryView s p (tblSel c.addr) (bankUsed p (tblBank c.addr) d) (tblIndex s p c.addr))) ∧
  (∀ (s : State) (c : TblCmd) (d : TabDesc), descOf intcPage 0 = some d → c.op = 2 → tblSel c.addr = 0 →
    tblRun s intcPage c = tset s intcPage 0 0 (tblIndex s intcPage c.addr) (BitVec.ofNat 1920 (c.data.toNat % 2 ^ d.width)))

/-- R65, R47, R475, R476: the window lock goes to the reader that finds it free, and back to nobody when its holder writes 0 or anyone
writes bit 31, which is logged; a write to the window by a requester that does not hold the lock is dropped and logged. A snapshot
captures the page's counters at once, and clears them where asked; one asked for while one is being copied is not taken; the copy's
end clears busy and sets done. Rests on the model's choices in log 23, 28. -/
def Obligations.WindowLockAndSnapshots : Prop :=
  (∀ (s : State) (r : Requester) (p : Page), opened s r p.toNat 0xF0C = true → ((kindOf p.toNat).map PageKind.window) = some true →
    rd s p.toNat 0xF0C = 0 →
    exec (.tblLockAcquire r p) s = .next (closed s { wr s p.toNat 0xF0C (BitVec.ofNat 32 (0x100 + regId r)) with resp := .value 0 })) ∧
  (∀ (s : State) (r : Requester) (p : Page), opened s r p.toNat 0xF0C = true → ((kindOf p.toNat).map PageKind.window) = some true →
    rd s p.toNat 0xF0C = BitVec.ofNat 32 (0x100 + regId r) →
    exec (.tblLockRelease r p) s = .next (closed s { wr s p.toNat 0xF0C 0 with resp := .done })) ∧
  (∀ (s : State) (r : Requester) (p : Page), opened s r p.toNat 0xF0C = true → ((kindOf p.toNat).map PageKind.window) = some true →
    exec (.tblLockForceRelease r p) s = .next (closed s { logAcc (wr s p.toNat 0xF0C 0) 6 (regId r) (p.toNat * 4096 + 0xF0C) with resp := .done })) ∧
  (∀ (s : State) (r : Requester) (p o v : Nat), opened s r p o = true → lockedOut s r p o = true → o < 4096 →
    regWrite s r p o v = { raise (logAcc s 6 (regId r) (p * 4096 + o)) p 30 with resp := .done }) ∧
  (∀ (s : State) (r : Requester) (p : Page) (clear : Bool), opened s r p.toNat 0x060 = true → ((kindOf p.toNat).map PageKind.snap) = some true →
    exec (.snapRequest r p clear) s = .next (closed s { (snapGo (written s p.toNat 0x060 (1 + b2n clear * 2)) p.toNat clear).2 with resp := .done })) ∧
  (∀ (s : State) (p sel idx : Nat) (clear : Bool), bitAt s p 0x064 0 = false → mapWf tabReset s.tabs = true →
    counterKey p (tabKey p sel 0 idx) = true → tabReset (tabKey p sel 0 idx) = 0 →
    (snapGo s p clear).1 = true ∧ mapGet (fun _ => (0 : Entry)) (snapGo s p clear).2.snaps (tabKey p sel 0 idx) = tget s p sel 0 idx ∧
    tget (snapGo s p clear).2 p sel 0 idx = (if clear then 0 else tget s p sel 0 idx)) ∧
  (∀ (s : State) (p : Nat) (clear : Bool), bitAt s p 0x064 0 = true → snapGo s p clear = (false, setBit s p 0x064 2 true)) ∧
  (∀ (s : State) (p : Page), bitAt s p.toNat 0x064 0 = true →
    exec (.snapshotDone p) s = .next (closed s (setBit (setBit s p.toNat 0x064 0 false) p.toNat 0x064 1 true)))

/-! ### Line ports (chapter 03) -/

/-- R73 to R75, R90, R104, R105: the link states of a port. enable checks the slot's configuration and starts TRAINING, or shows why not;
enable 0 stops the PCS. A link that is good comes UP from TRAINING and DOWN with a port return, and from HOLD as it was (a span link's
port whose link is not LOST; a polarity that is not reversed, or corrected). What the PCS reports is shown and its codewords are
counted; high BER and a remote fault that are new raise sources 3 and 5; an UP link that is then not good goes to HOLD with its queues
paused, or to DOWN where link_hold is 0, and a link that is not UP stays where it is; HOLD expires to DOWN. Rests on the model's choices in log 5, 45, 133, 134. -/
def Obligations.PortLinkStates : Prop :=
  (∀ (s : State) (r : Requester) (k : BitVec 6) (cfg : Word), opened s r (macPage k.toNat) 0x100 = true →
    bitAt s (macPage k.toNat) 0x100 0 = false → enableCause (written s (macPage k.toNat) 0x100 (cfg.toNat ||| 1)) k.toNat = 0 →
    exec (.portEnable r k cfg) s = .next (closed s { trainStart (setPlls (setLink' (sampleCfg (written s (macPage k.toNat) 0x100 (cfg.toNat ||| 1))
      k.toNat) k.toNat 1) (k.toNat / 4)) k.toNat with resp := .done })) ∧
  (∀ (s : State) (r : Requester) (k : BitVec 6) (cfg : Word) (c : Nat), opened s r (macPage k.toNat) 0x100 = true →
    bitAt s (macPage k.toNat) 0x100 0 = false → enableCause (written s (macPage k.toNat) 0x100 (cfg.toNat ||| 1)) k.toNat = c → c ≠ 0 →
    exec (.portEnable r k cfg) s = .next (closed s { setFld (raise (setBit (written s (macPage k.toNat) 0x100 (cfg.toNat ||| 1))
      (macPage k.toNat) 0x114 8 true) (macPage k.toNat) 6) (macPage k.toNat) 0x114 15 12 c with resp := .done })) ∧
  (∀ (s : State) (r : Requester) (k : BitVec 6), opened s r (macPage k.toNat) 0x100 = true → bitAt s (macPage k.toNat) 0x100 0 = true →
    exec (.portDisable r k) s = .next (closed s { linkDisable (written s (macPage k.toNat) 0x100 (rewritten s (macPage k.toNat) 0x100 1 0))
      k.toNat with resp := .done })) ∧
  (∀ (s : State) (port : Port) (l m rev : Bool), port.toNat ≤ 105 → rev = false ∨ bitAt s (portPage port.toNat) 0x100 6 = true ∨ port.toNat < 64 ∨ 96 ≤ port.toNat →
    linkGood s port.toNat = true → serving s (portPage port.toNat) = true →
    (∀ l, spanLinkOf s port.toNat = some l → spanLinkState s l ≠ 4) → linkState s port.toNat = 1 ∨ linkState s port.toNat = 4 →
    exec (.linkUp port l m rev) s = .next (closed s (portReturn (setLink' (raise (linkTraits (trainEnd s port.toNat) port.toNat l m rev) (portPage port.toNat) 0)
      port.toNat 2) port.toNat))) ∧
  (∀ (s : State) (port : Port) (l m rev : Bool), port.toNat ≤ 105 → rev = false ∨ bitAt s (portPage port.toNat) 0x100 6 = true ∨ port.toNat < 64 ∨ 96 ≤ port.toNat →
    linkGood s port.toNat = true → serving s (portPage port.toNat) = true →
    (∀ l, spanLinkOf s port.toNat = some l → spanLinkState s l ≠ 4) → linkState s port.toNat = 3 →
    exec (.linkUp port l m rev) s = .next (closed s (setLink' (linkTraits s port.toNat l m rev) port.toNat 2))) ∧
  (∀ (s u : State) (port : Port) (c : LinkCond), port.toNat ≤ 105 → darkLane s port.toNat = none →
    u = setCond (countFec s port.toNat c.codewords c.corrected c.uncorrectable) port.toNat c →
    64 ≤ port.toNat ∨ ((bitAt u (macPage port.toNat) 0x114 7 = false ∨ bitAt s (macPage port.toNat) 0x114 7 = true) ∧
      (c.remoteFault = false ∨ bitAt s (macPage port.toNat) 0x114 6 = true)) →
    exec (.linkFault port c) s = .next (closed s (if linkGood u port.toNat then u else linkNotGood u port.toNat))) ∧
  (∀ (s u : State) (port : Port) (c : LinkCond), port.toNat < 64 → darkLane s port.toNat = none →
    u = setCond (countFec s port.toNat c.codewords c.corrected c.uncorrectable) port.toNat c → bitAt u (macPage port.toNat) 0x114 7 = true →
    bitAt s (macPage port.toNat) 0x114 7 = false → c.remoteFault = false ∨ bitAt s (macPage port.toNat) 0x114 6 = true →
    exec (.linkFault port c) s = .next (closed s (linkNotGood (raise u (macPage port.toNat) 3) port.toNat))) ∧
  (∀ (s u : State) (port : Port) (c : LinkCond), port.toNat < 64 → darkLane s port.toNat = none →
    u = setCond (countFec s port.toNat c.codewords c.corrected c.uncorrectable) port.toNat c →
    bitAt u (macPage port.toNat) 0x114 7 = false ∨ bitAt s (macPage port.toNat) 0x114 7 = true →
    c.remoteFault = true → bitAt s (macPage port.toNat) 0x114 6 = false →
    exec (.linkFault port c) s = .next (closed s (linkNotGood (raise u (macPage port.toNat) 5) port.toNat))) ∧
  (∀ (s : State) (port : Nat), linkState s port = 2 → 0 < linkHold (raise (leftUp (clearLpi s port) port) (portPage port) 1) port →
    linkNotGood s port = setLink' (portPause (raise (leftUp (clearLpi s port) port) (portPage port) 1) port) port 3) ∧
  (∀ (s : State) (port : Nat), linkState s port = 2 → linkHold (raise (leftUp (clearLpi s port) port) (portPage port) 1) port = 0 →
    linkNotGood s port = flushOnDown (portDown (setLink' (raise (raise (leftUp (clearLpi s port) port) (portPage port) 1) (portPage port) 2) port 4) port) port) ∧
  (∀ (s : State) (port : Nat), linkState s port ≠ 2 → linkNotGood s port = s) ∧
  (∀ (s : State) (port : Port), port.toNat ≤ 105 → linkState s port.toNat = 3 →
    exec (.linkHoldExpire port) s = .next (closed s (flushOnDown (portDown (setLink' (raise s (portPage port.toNat) 2) port.toNat 4)
      port.toNat) port.toNat)))

/-- R575 (and R82, R89, R99, R112, R240): the tests at the MAC in their order. The first that fails drops the frame under its reason and
no later test is made; a frame that passes them all goes on to MACsec, or past it where the slot has none. A frame of a line port without
MACsec goes on when it begins, stamped then, and its end makes the tests; what waited for its end is judged whole. -/
def Obligations.MacTestsInOrder : Prop :=
  (∀ (s s0 s1 : State) (port : Port) (bs : List Byte) (fcsOk symErr icvOk : Bool), port.toNat ≤ 105 → fwActive s port.toNat = false →
    draining s (portPage port.toNat) = false → pageOn s (portPage port.toNat) = true → inReset s (portPage port.toNat) = false → isolated s (portPage port.toNat) = false →
    s0 = (if 64 ≤ bs.length + 4 ∧ fcsOk ∧ !symErr then countRx s port.toNat bs (bs.length + 4) else s) →
    s1 = noteLong (if symErr then countFec s0 port.toNat 1 0 1 else s0) port.toNat bs (bs.length + 4) →
    (bs.length + 4 < 64 → exec (.frameReceive port (.whole bs fcsOk symErr icvOk)) s = .next (closed s (macDrop s1 port.toNat (macReason port.toNat 0x02)))) ∧
    (64 ≤ bs.length + 4 → symErr = true →
      exec (.frameReceive port (.whole bs fcsOk symErr icvOk)) s = .next (closed s (macDrop s1 port.toNat (macReason port.toNat 0x04)))) ∧
    (64 ≤ bs.length + 4 → symErr = false → fcsOk = false →
      exec (.frameReceive port (.whole bs fcsOk symErr icvOk)) s = .next (closed s (macDrop s1 port.toNat (macReason port.toNat 0x01)))) ∧
    (64 ≤ bs.length + 4 → symErr = false → fcsOk = true → linkState s port.toNat ≠ 2 →
      exec (.frameReceive port (.whole bs fcsOk symErr icvOk)) s = .next (closed s (macDrop s1 port.toNat (macReason port.toNat 0x05)))) ∧
    (64 ≤ bs.length + 4 → symErr = false → fcsOk = true → linkState s port.toNat = 2 → isMacControl bs = true →
      64 ≤ port.toNat ∨ bitAt s (macPage port.toNat) 0x108 2 = false ∨
        (match controlOf bs with | .pause _ => fcMode s port.toNat != 1 | .pfc _ _ => fcMode s port.toNat != 2 | .other => true) = true →
      exec (.frameReceive port (.whole bs fcsOk symErr icvOk)) s =
        .next (closed s (macDrop (creditTick (portCount s1 port.toNat 6 1) port.toNat) port.toNat (macReason port.toNat 0x06)))) ∧
    (64 ≤ bs.length + 4 → symErr = false → fcsOk = true → linkState s port.toNat = 2 → isMacControl bs = false → msecOn s1 port.toNat = true →
      oversize s1 port.toNat bs (bs.length + 4) = false ∨ tagSize s1 port.toNat bs = none → isSpanPort s1 port.toNat = false →
      (∀ x, (msecReceive s1 port.toNat bs icvOk).bytes = none → x = (msecReceive s1 port.toNat bs icvOk).reason →
        exec (.frameReceive port (.whole bs fcsOk symErr icvOk)) s = .next (closed s (macDrop s1 port.toNat x))) ∧
      (∀ b, (msecReceive s1 port.toNat bs icvOk).bytes = some b → isSpanPort (msecPassed s1 port.toNat (msecReceive s1 port.toNat bs icvOk)) port.toNat = false →
        exec (.frameReceive port (.whole bs fcsOk symErr icvOk)) s = .next (closed s (passOn (msecPassed s1 port.toNat (msecReceive s1 port.toNat bs icvOk))
          port.toNat (rxStamp s port.toNat) b (msecReceive s1 port.toNat bs icvOk).held false true)))) ∧
    (64 ≤ bs.length + 4 → symErr = false → fcsOk = true → linkState s port.toNat = 2 → isMacControl bs = false → msecOn s1 port.toNat = false →
      isSpanPort s1 port.toNat = false →
      exec (.frameReceive port (.whole bs fcsOk symErr icvOk)) s = .next (closed s (passOn s1 port.toNat (rxStamp s port.toNat) bs false false true)))) ∧
  (∀ (s u : State) (port : Port) (bs : List Byte), port.toNat < 64 → fwActive s port.toNat = false → draining s (macPage port.toNat) = false →
    serving s (macPage port.toNat) = true → linkState s port.toNat = 2 → isMacControl bs = false → msecOn s port.toNat = false → isSpanPort s port.toNat = false →
    u = passOn (noteLong s port.toNat bs (bs.length + 4)) port.toNat (rxStamp s port.toNat) bs false false false →
    exec (.frameReceive port (.begins bs)) s = .next (closed s { u with
      rxOpen := mapSet (fun _ => none) u.rxOpen port.toNat (some { frame := { id := s.nextId, bytes := bs, ingress := port.toNat, ts := rxStamp s port.toNat }, buf := 0 }) })) ∧
  (∀ (s u u0 : State) (port : Port) (pf : PFrame) (len v : Nat) (fcsOk icvOk : Bool), port.toNat ≤ 105 →
    mapGet (fun _ => none) s.rxOpen port.toNat = some pf → pf.frame.id ≠ 0 → u = { s with rxOpen := mapSet (fun _ => none) s.rxOpen port.toNat none } →
    oversize u port.toNat pf.frame.bytes len = false → v = macVerdict u port.toNat len fcsOk false →
    u0 = (if 64 ≤ len ∧ fcsOk then countRx u port.toNat pf.frame.bytes len else u) → oversize u0 port.toNat pf.frame.bytes len = false →
    v ≠ 0 ∨ msecOn u0 port.toNat = false →
    exec (.frameReceive port (.ends len fcsOk false icvOk)) s = .next (closed s (endMirror (endCopies (if v = 0 then u0 else macDrop u0 port.toNat v)
      pf.frame.id (ended (v != 0))) pf.frame.id (ended (v != 0))))) ∧
  (∀ (s : State) (port : Port) (pf : PFrame) (len : Nat) (fcsOk symErr icvOk : Bool), port.toNat ≤ 105 →
    mapGet (fun _ => none) s.rxOpen port.toNat = some pf → pf.frame.id = 0 →
    exec (.frameReceive port (.ends len fcsOk symErr icvOk)) s = .next (closed s (receiveWhole spanRx
      { s with rxOpen := mapSet (fun _ => none) s.rxOpen port.toNat none } port.toNat pf.frame.ts pf.frame.bytes fcsOk symErr icvOk)))

/-- R84, R85, R87, R88: a pause that is honoured stops every class, PFC the classes of its vector and the port's mask, until the quanta
run out; a control frame at a field port, or with rx_en clear, is dropped; XOFF is told again at a refresh; low-power idle is entered
with nothing to send, deep at 1, 10 and 25 GbE, and left on wake. The classes' credits are brought up to now first. Rests on the model's choices in log 5, 46. -/
def Obligations.FlowControlAndIdle : Prop :=
  (∀ (s u : State) (port : Port) (q : BitVec 16), port.toNat < 64 → pageOn s (portPage port.toNat) = true →
    inReset s (portPage port.toNat) = false → isolated s (portPage port.toNat) = false → linkState s port.toNat = 2 →
    u = creditTick (portCount (countControl s port.toNat) port.toNat 6 1) port.toNat → fcMode s port.toNat = 1 →
    bitAt s (macPage port.toNat) 0x108 2 = true →
    exec (.macControlReceive port (.pause q)) s = .next (closed s (setEport u port.toNat
      { eportOf u port.toNat with paused := if q = 0 then 0 else 0xFF }))) ∧
  (∀ (s u : State) (port : Port) (v : BitVec 8) (q : List (BitVec 16)), port.toNat < 64 → pageOn s (portPage port.toNat) = true →
    inReset s (portPage port.toNat) = false → isolated s (portPage port.toNat) = false → linkState s port.toNat = 2 →
    u = creditTick (portCount (countControl s port.toNat) port.toNat 6 1) port.toNat →
    fcMode s port.toNat = 2 → bitAt s (macPage port.toNat) 0x108 2 = true →
    ∃ e, exec (.macControlReceive port (.pfc v q)) s = .next (closed s (setEport u port.toNat e)) ∧
      e = { eportOf u port.toNat with paused := e.paused } ∧
      ∀ c < 8, e.paused.testBit c = (if v.toNat.testBit c && bitAt s (macPage port.toNat) 0x108 (8 + c) then q.getD c 0 != 0
        else (eportOf u port.toNat).paused.testBit c)) ∧
  (∀ (s u : State) (port : Port) (mc : MacControl), port.toNat ≤ 105 → pageOn s (portPage port.toNat) = true →
    inReset s (portPage port.toNat) = false → isolated s (portPage port.toNat) = false → linkState s port.toNat = 2 →
    u = creditTick (portCount (countControl s port.toNat) port.toNat 6 1) port.toNat →
    64 ≤ port.toNat ∨ bitAt s (macPage port.toNat) 0x108 2 = false →
    exec (.macControlReceive port mc) s = .next (closed s (macDrop u port.toNat (macReason port.toNat 0x06)))) ∧
  (∀ (s u : State) (port : Port) (cs : BitVec 8), port.toNat ≤ 105 → u = creditTick s port.toNat →
    exec (.pauseExpire port cs) s = .next (closed s (setEport u port.toNat
      { eportOf u port.toNat with paused := (eportOf u port.toNat).paused &&& (0xFF - cs.toNat) }))) ∧
  (∀ (s : State) (port : Port), port.toNat < 64 → fcTx s port.toNat = true → fcMode s port.toNat = 1 →
    ebit (tget s bpmInPage 1 0 (512 + port.toNat)) 31 = true →
    exec (.pauseRefresh port) s = .next (closed s (addCounter (emit s (.pause port.toNat 0x100 (fld s (macPage port.toNat) 0x11C 15 0)))
      (cntPage (port.toNat / 16)) 1 (port.toNat % 16) 13 1))) ∧
  (∀ (s : State) (port : Port), port.toNat ≤ 105 → eeeOn s port.toNat = true → linkState s port.toNat = 2 → (eportOf s port.toNat).tx = none →
    (∀ c < 8, (queueOf s (qIdx port.toNat c)).frames = []) → (eportOf s port.toNat).lpi = false →
    exec (.lpiEnter port) s = .next (closed s (setLpi (portCount s port.toNat 15 1) port.toNat true)) ∧
    (eportOf (setLpi (portCount s port.toNat 15 1) port.toNat true) port.toNat).lpi = true ∧
    (eportOf (setLpi (portCount s port.toNat 15 1) port.toNat true) port.toNat).deep =
      (decide (port.toNat < 64) && decide (bitsOf (eportOf s port.toNat).cfg 3 1 ≤ 2))) ∧
  (∀ (s : State) (port : Port), port.toNat ≤ 105 → (eportOf s port.toNat).lpi = true →
    exec (.lpiWake port) s = .next (closed s (setLpi s port.toNat false)) ∧ (eportOf (setLpi s port.toNat false) port.toNat).lpi = false)

/-- R80: an eye scan starts on the lane named, is refused while one is busy, and ends with its result and source 4; one adaptation
runs. R91 to R93: a cage in the MODULE service's hands goes from insertion through RESET, WAIT_READY, IDENTIFY and DATAPATH to READY, or
to MISMATCH, or after a second timeout to FAULT; in READY an interrupt has its flags read and cleared; removal squelches its lanes and
makes it EMPTY; retry leaves MISMATCH and FAULT; a raw transfer runs alone, and its end brings a read's bytes. Rests on the model's choices in log 45, 49, 136, 157. -/
def Obligations.SerdesAndModules : Prop :=
  (∀ (s : State) (r : Requester) (q : BitVec 4) (l : BitVec 2), opened s r (sdqPage q.toNat) 0x110 = true → bitAt s (sdqPage q.toNat) 0x110 9 = false →
    exec (.eyeScanStart r q l) s = .next (closed s { setBit { written s (sdqPage q.toNat) 0x110 (l.toNat + 0x100) with
      eyeLane := mapSet (fun _ => 0) s.eyeLane q.toNat l.toNat } (sdqPage q.toNat) 0x110 9 true with resp := .done })) ∧
  (∀ (s : State) (r : Requester) (q : BitVec 4) (l : BitVec 2), opened s r (sdqPage q.toNat) 0x110 = true → bitAt s (sdqPage q.toNat) 0x110 9 = true →
    exec (.eyeScanStart r q l) s = .next (closed s { setBit (written s (sdqPage q.toNat) 0x110 (l.toNat + 0x100)) (sdqPage q.toNat) 0x110 11 true with
      resp := .done })) ∧
  (∀ (s : State) (q : BitVec 4) (h w : BitVec 16), bitAt s (sdqPage q.toNat) 0x110 9 = true →
    exec (.eyeScanDone q h w) s = .next (closed s (raise (setBit (setBit (wr s (sdqPage q.toNat) 0x114 (BitVec.ofNat 32 (h.toNat + w.toNat * 65536)))
      (sdqPage q.toNat) 0x110 9 false) (sdqPage q.toNat) 0x110 10 true) (sdqPage q.toNat) 4 0 (mapGet (fun _ => 0) s.eyeLane q.toNat)))) ∧
  (∀ (s : State) (r : Requester) (q : BitVec 4) (l : BitVec 2) (snr : BitVec 8), opened s r (sdqPage q.toNat) (0x148 + 0x20 * l.toNat) = true →
    bitAt s (sdqPage q.toNat) (0x148 + 0x20 * l.toNat) 1 = false →
    exec (.laneAdaptNow r q l snr) s = .next (closed s (setFld { adaptNow
      { written s (sdqPage q.toNat) (0x148 + 0x20 * l.toNat) (rewritten s (sdqPage q.toNat) (0x148 + 0x20 * l.toNat) 1 1) with freeCtr := s.freeCtr + 1 }
      q.toNat l.toNat (Config.freeValue s.freeCtr % 256) with resp := .done } (sdqPage q.toNat) (0x14C + 0x20 * l.toNat) 15 8 snr.toNat))) ∧
  (∀ (s : State) (c : BitVec 4), cageManual s c.toNat = false → cageState s c.toNat = 0 →
    exec (.moduleInsert c) s = .next (closed s (cageReset (setBit (setBit s (modPage c.toNat) 0x104 8 false) (modPage c.toNat) 0x104 9 true) c.toNat))) ∧
  (∀ (s : State) (c : BitVec 4), cageManual s c.toNat = false → cageState s c.toNat = 1 →
    exec (.moduleResetRelease c) s = .next (closed s (setFld (cagePin s c.toNat 0 true) (modPage c.toNat) 0x104 3 0 2))) ∧
  (∀ (s u : State) (c : BitVec 4) (id : List Byte) (ok judged : Bool), cageManual s c.toNat = false → cageState s c.toNat = 2 →
    u = setFld (modIdentity (cageTalk s c.toNat true ["lower page, pages 00h and 01h read"]) c.toNat id) (modPage c.toNat) 0x104 3 0 3 →
    exec (.moduleIdentify c id ok judged true) s = .next (closed s (if !judged then u else if ok then
      setFld (cagePin (cageTalk u c.toNat true ["staged data-path set written", "LowPwr cleared"]) c.toNat 1 false) (modPage c.toNat) 0x104 3 0 4
      else setFld (raise u (modPage c.toNat) 1) (modPage c.toNat) 0x104 3 0 6))) ∧
  (∀ (s : State) (c : BitVec 4) (id : List Byte) (ok judged : Bool), cageManual s c.toNat = false → cageState s c.toNat = 2 ∨ cageState s c.toNat = 3 →
    exec (.moduleIdentify c id ok judged false) s = .next (closed s (cageTalk s c.toNat false []))) ∧
  (∀ (s : State) (c : BitVec 4), cageManual s c.toNat = false → cageState s c.toNat = 2 →
    exec (.moduleReadyTimeout c) s = .next (closed s (if s.modRetry.contains c.toNat then setFld (raise s (modPage c.toNat) 2) (modPage c.toNat) 0x104 3 0 7
      else emit { s with modRetry := c.toNat :: s.modRetry } (.i2c c.toNat "ResetL pulse")))) ∧
  (∀ (s : State) (c : BitVec 4), cageManual s c.toNat = false → cageState s c.toNat = 4 →
    exec (.moduleDatapathActive c) s = .next (closed s (setFld s (modPage c.toNat) 0x104 3 0 5))) ∧
  (∀ (s : State) (c : BitVec 4), cageManual s c.toNat = false → cageState s c.toNat = 5 →
    exec (.moduleInterrupt c) s = .next (closed s (setBit (raise (cageTalk (setBit s (modPage c.toNat) 0x104 9 false) c.toNat true
      ["flag pages read", "flags cleared"]) (modPage c.toNat) 3) (modPage c.toNat) 0x104 9 true))) ∧
  (∀ (s u : State) (c : BitVec 4), cageManual s c.toNat = false → (∀ l < 4, linkState s (4 * c.toNat + l) = 0) →
    u = setFld (raise (setBit (setBit (cageDark s c.toNat) (modPage c.toNat) 0x104 8 true) (modPage c.toNat) 0x104 9 true) (modPage c.toNat) 0) (modPage c.toNat) 0x104 3 0 0 →
    exec (.moduleRemove c) s = .next (closed s (moduleGone s c.toNat)) ∧ modOut s c.toNat = u) ∧
  (∀ (s : State) (r : Requester) (c : BitVec 4), opened s r (modPage c.toNat) 0x100 = true → cageManual s c.toNat = false →
    cageState s c.toNat = 6 ∨ cageState s c.toNat = 7 →
    exec (.moduleRetry r c) s = .next (closed s { setFld { written s (modPage c.toNat) 0x100 (rewritten s (modPage c.toNat) 0x100 0x100 0x100) with
      modRetry := s.modRetry.erase c.toNat } (modPage c.toNat) 0x104 3 0 1 with resp := .done })) ∧
  (∀ (s u : State) (r : Requester) (c : BitVec 4) (v : Word), opened s r (modPage c.toNat) 0x108 = true → bitAt s (modPage c.toNat) 0x10C 0 = false →
    u = setBit { written s (modPage c.toNat) 0x108 v.toNat with
      xferCmd := mapSet (fun _ => 0) s.xferCmd c.toNat (rd (written s (modPage c.toNat) 0x108 v.toNat) (modPage c.toNat) 0x108).toNat } (modPage c.toNat) 0x10C 0 true →
    exec (.modXfer r c v) s = .next (closed s { emit u (.i2cXfer c.toNat (rd u (modPage c.toNat) 0x108).toNat (busKhz u c.toNat)
      (if bitOf (rd u (modPage c.toNat) 0x108).toNat 31 then xferData u c.toNat (fld u (modPage c.toNat) 0x108 30 24 + 1) else [])) with resp := .done })) ∧
  (∀ (s u : State) (c : BitVec 4) (data : List Byte) (cmd : Nat), bitAt s (modPage c.toNat) 0x10C 0 = true → cmd = mapGet (fun _ => 0) s.xferCmd c.toNat →
    u = { setBit (setBit s (modPage c.toNat) 0x10C 0 false) (modPage c.toNat) 0x10C 1 true with modNacks := mapSet (fun _ => 0) s.modNacks c.toNat 0 } →
    exec (.modXferDone c true data) s = .next (closed s (if bitOf cmd 31 then u else xferBytes u c.toNat (data.take (bitsOf cmd 30 24 + 1))))) ∧
  (∀ (s : State) (c : BitVec 4) (data : List Byte), bitAt s (modPage c.toNat) 0x10C 0 = true →
    exec (.modXferDone c false data) s = .next (closed s (busRecovery (setBit (setBit (setBit s (modPage c.toNat) 0x10C 0 false)
      (modPage c.toNat) 0x10C 1 true) (modPage c.toNat) 0x10C 2 true) c.toNat)))

/-! ### Field ports (chapter 04) -/

/-- R103, R107 to R111, R114 to R116: a field port leaves DISABLED while its domains are ON. Without PLCA a collision backs off, sixteen in
a row or a late one drop the frame; under PLCA a collision is counted, and the eighth in a row is a node event; the frame starts again,
stamped anew, after its back-off or at the next transmit opportunity, where otherwise a frame is selected. PLCA that goes active shows, and
inactive leaves a link that is not good. An SGMII control word sets the speed, and half duplex is not good; an MDIO transaction starts
where none is busy, and its end brings a read's data. Rests on the model's choices in log 54, 114, 132, 137, 140. -/
def Obligations.FieldPortsAndSegments : Prop :=
  (∀ (s : State) (r : Requester) (k : Port) (cfg : Word), 64 ≤ k.toNat → k.toNat ≤ 105 → opened s r (fpPage k.toNat) 0x100 = true →
    bitAt s (fpPage k.toNat) 0x100 0 = false → domOn s (fpDomain k.toNat) = true → domOn s 65 = true → domOn s 66 = true →
    exec (.fieldPortEnable r k cfg) s = .next (closed s { segmentStart (setLink' (sampleCfg (written s (fpPage k.toNat) 0x100 (cfg.toNat ||| 1))
      k.toNat) k.toNat 1) k.toNat with resp := .done })) ∧
  (∀ (s u v : State) (k : Port) (late : Bool) (x : Coll), 96 ≤ k.toNat → k.toNat < 104 → (eportOf s k.toNat).tx.isSome = true → (collOf s k.toNat).waiting = false →
    (collOf s k.toNat).attempts < 15 → late = false ∨ plcaLive s k.toNat = true →
    u = { addSat (setEport s k.toNat { eportOf s k.toNat with burst := 0 }) (fpPage k.toNat) 0x128 15 0 1 with freeCtr := s.freeCtr + 1 } →
    x = { attempts := (collOf s k.toNat).attempts + 1, waiting := true
          slots := if plcaLive s k.toNat then 0 else Config.freeValue s.freeCtr % 2 ^ min ((collOf s k.toNat).attempts + 1) 10 } →
    v = setColl u k.toNat x →
    exec (.collision k late) s = .next (closed s (if plcaLive s k.toNat ∧ x.attempts = 8 then tell v 7 0x80 [k.toNat] else v))) ∧
  (∀ (s u : State) (k : Port), 96 ≤ k.toNat → k.toNat < 104 → (eportOf s k.toNat).tx.isSome = true → (collOf s k.toNat).waiting = false →
    plcaLive s k.toNat = false → u = setEport s k.toNat { eportOf s k.toNat with burst := 0 } →
    (15 ≤ (collOf s k.toNat).attempts → exec (.collision k false) s =
      .next (closed s (dropTx (raise (addSat u (fpPage k.toNat) 0x128 15 0 1) (fpPage k.toNat) 5) k.toNat 0x15))) ∧
    exec (.collision k true) s = .next (closed s (dropTx (raise (addSat u (fpPage k.toNat) 0x128 31 16 1) (fpPage k.toNat) 6) k.toNat 0x16))) ∧
  (∀ (s u : State) (k : Port) (t : Tx) (e : List Byte × State), 96 ≤ k.toNat → k.toNat < 104 → (collOf s k.toNat).waiting = true → plcaLive s k.toNat = false →
    (eportOf s k.toNat).tx = some t → u = setColl s k.toNat { collOf s k.toNat with waiting := false, slots := 0 } →
    e = ptpEdit u k.toNat t.qf.frame (egressEdit u k.toNat t.qf.frame).bytes →
    exec (.backoffExpire k) s = .next (closed s (setEport e.2 k.toNat
      { eportOf e.2 k.toNat with tx := some { t with wire := e.1, startBc := now s, stamp := txStamp u k.toNat } }))) ∧
  (∀ (s : State) (k : Port), 96 ≤ k.toNat → k.toNat < 104 → bitAt s (fpPage k.toNat) 0x100 0 = true → plcaOn s k.toNat = true →
    exec (.plcaActive k) s = .next (closed s (setFld s (fpPage k.toNat) 0x12C 1 0 3))) ∧
  (∀ (s u : State) (k : Port), 96 ≤ k.toNat → k.toNat < 104 → plcaLive s k.toNat = true → u = beaconOut s k.toNat →
    exec (.plcaTxOpportunity k) s = .next (closed s (if (collOf s k.toNat).waiting then restartTx u k.toNat else selectNow (openTurn u k.toNat) k.toNat))) ∧
  (∀ (s u : State) (k : Port), 96 ≤ k.toNat → k.toNat < 104 → u = setFld s (fpPage k.toNat) 0x12C 1 0 0 →
    exec (.plcaInactive k) s = .next (closed s (if linkGood u k.toNat then u else linkNotGood u k.toNat))) ∧
  (∀ (s : State) (k : Port) (v : BitVec 2), k.toNat = 104 ∨ k.toNat = 105 →
    exec (.sgmiiControlWord k v true) s = .next (closed s (setBit (setBit (setEport s k.toNat { eportOf s k.toNat with sgmii := v.toNat, sgmiiFull := true })
      (fpPage k.toNat) 0x114 3 true) (fpPage k.toNat) 0x114 4 true)) ∧
    exec (.sgmiiControlWord k v false) s = .next (closed s (linkNotGood (raise (setBit (setBit (setEport s k.toNat
      { eportOf s k.toNat with sgmii := v.toNat, sgmiiFull := false }) (fpPage k.toNat) 0x114 4 false) (fpPage k.toNat) 0x114 9 true) (fpPage k.toNat) 7) k.toNat))) ∧
  (∀ (s u : State) (r : Requester) (cmd : Word) (op : Nat) (c : Instr), opened s r (fpPage 104) 0x140 = true →
    bitAt s (fpPage 104) 0x140 31 = false → (op = 0 ∧ c = .mdioAddress r cmd) ∨ (op = 1 ∧ c = .mdioWrite r cmd) ∨ (op = 2 ∧ c = .mdioRead r cmd) ∨ (op = 3 ∧ c = .mdioReadIncrement r cmd) →
    u = setBit (written s (fpPage 104) 0x140 (mdioWord cmd.toNat op)) (fpPage 104) 0x140 31 true →
    exec c s = .next (closed s { emit u (.mdio ((rd u (fpPage 104) 0x140).toNat % 2 ^ 14) (fld u (fpPage 104) 0x144 15 0)) with resp := .done })) ∧
  (∀ (s u : State) (d : BitVec 16), bitAt s (fpPage 104) 0x140 31 = true → u = setBit s (fpPage 104) 0x140 31 false →
    exec (.mdioDone d) s = .next (closed s (if 2 ≤ fld s (fpPage 104) 0x140 12 11 then wr u (fpPage 104) 0x144 (BitVec.ofNat 32 d.toNat) else u)))

/-- R122 to R129: eight samples of one class in a row settle it; a class without an action is committed and does no more, one whose action
is 2 or 3 holds the pair and takes the port down. An echo test of an enabled T1L port that is not UP starts, and its result settles OPEN and
a short at once; a clamp event of either conductor is counted, once in 1 ms; calibration starts, and its end commits the class that the
samples gave, or SENSE_FAULT; a cable diagnostic starts or is refused, and its end reports the pair, result, delay and distance; a hold
ends by a return to NORMAL, unless it is latched, or by release. Rests on the model's choices in log 51, 52, 53, 139. -/
def Obligations.LineSensing : Prop :=
  (∀ (s u : State) (k : BitVec 6) (vp vn : BitVec 12) (beyond : Bool) (c : Nat), pairOn s k.toNat = true → afterClamp s (senseOf s k.toNat) = false →
    bitAt s pairPage (pairStat k.toNat) 3 = false →
    u = setFld (setFld s pairPage (pairStat k.toNat) 19 8 vp.toNat) pairPage (pairStat k.toNat) 31 20 vn.toNat →
    c = rawClass u k.toNat (signedOf 12 vp.toNat) (signedOf 12 vn.toNat) beyond (senseOf s k.toNat).echo →
    ((senseOf s k.toNat).run = 0 ∨ (senseOf s k.toNat).cand ≠ c →
      exec (.senseSample k vp vn beyond) s = .next (closed s (setSense u k.toNat { senseOf s k.toNat with cand := c, run := 1 }))) ∧
    (0 < (senseOf s k.toNat).run → (senseOf s k.toNat).run < 7 → (senseOf s k.toNat).cand = c →
      exec (.senseSample k vp vn beyond) s = .next (closed s (setSense u k.toNat { senseOf s k.toNat with run := (senseOf s k.toNat).run + 1 }))) ∧
    ((senseOf s k.toNat).run = 7 → (senseOf s k.toNat).cand = c →
      exec (.senseSample k vp vn beyond) s = .next (closed s (settleRaw (setSense u k.toNat { senseOf s k.toNat with cand := c, run := 8 }) k.toNat c)))) ∧
  (∀ (s : State) (k c : Nat), k < 40 → c < 8 → c ≠ pairClass s k → senseAct s c = 0 → senseAct s (pairClass s k) = 0 →
    commitClass s k c = setFld s pairPage (pairStat k) 2 0 c ∧ pairClass (commitClass s k c) k = c) ∧
  (∀ (s u : State) (k c : Nat), k < 40 → c < 8 → c ≠ pairClass s k → u = raise (setFld s pairPage (pairStat k) 2 0 c) snsPage 0 0 (k + c * 64) →
    senseAct s c = 2 ∨ senseAct s c = 3 →
    commitClass s k c = senseDown (setBit (if senseAct s c = 3 then setSense u k { senseOf u k with latched := true } else u)
      pairPage (pairStat k) 4 true) (pairPort k)) ∧
  (∀ (s : State) (k : BitVec 6), k.toNat < 32 → pairOn s k.toNat = true → bitAt s (fpPage (64 + k.toNat)) 0x100 0 = true →
    linkState s (64 + k.toNat) ≠ 2 → (senseOf s k.toNat).latched = false →
    exec (.echoTestStart k) s = .next (closed s (setSense s k.toNat { senseOf s k.toNat with testing := true }))) ∧
  (∀ (s u : State) (k : BitVec 6) (r : Echo) (c : Nat), k.toNat < 40 → (senseOf s k.toNat).testing = true → snsRuns s = true → bitAt s pairPage (pairStat k.toNat) 3 = false →
    bitAt s pairPage (pairCfg k.toNat) 1 = true → u = setSense s k.toNat { senseOf s k.toNat with echo := r, testing := false } →
    c = rawClass u k.toNat (pairVolt s k.toNat).1 (pairVolt s k.toNat).2 false r →
    (c = 1 ∨ (c = 2 ∧ bitAt s pairPage (pairCfg k.toNat) 0 = false) → exec (.echoTestDone k r) s = .next (closed s (settleRaw u k.toNat c))) ∧
    (c = 0 ∨ 3 ≤ c ∨ (c = 2 ∧ bitAt s pairPage (pairCfg k.toNat) 0 = true) → exec (.echoTestDone k r) s = .next (closed s u))) ∧
  (∀ (s u : State) (k : BitVec 6) (neg : Bool) (x : Sense), k.toNat < 40 → x = senseOf s k.toNat → (if neg then x.clampedN else x.clamped) = false → snsRuns s = true →
    u = setSense s k.toNat (if neg then { x with clampedN := true, clampAt := some (now s) } else { x with clamped := true, clampAt := some (now s) }) →
    (x.clampAt = none → exec (.clampEvent k true neg) s = .next (closed s (raise (addSat u pairPage (pairClamp k.toNat) 15 0 1) snsPage 1 0 k.toNat))) ∧
    (∀ b, x.clampAt = some b → b + msUnits 1 ≤ now s →
      exec (.clampEvent k true neg) s = .next (closed s (raise (addSat u pairPage (pairClamp k.toNat) 15 0 1) snsPage 1 0 k.toNat))) ∧
    (∀ b, x.clampAt = some b → now s < b + msUnits 1 → exec (.clampEvent k true neg) s = .next (closed s u))) ∧
  (∀ (s : State) (k : BitVec 6) (neg : Bool) (x : Sense), k.toNat < 40 → x = senseOf s k.toNat → (if neg then x.clampedN else x.clamped) = true →
    exec (.clampEvent k false neg) s = .next (closed s (setSense s k.toNat
      (if neg then { x with clampedN := false, clampEnd := some (now s) } else { x with clamped := false, clampEnd := some (now s) })))) ∧
  (∀ (s : State) (k : BitVec 6), k.toNat < 40 → snsRuns s = true →
    exec (.senseCalibrate k) s = .next (closed s (setBit s pairPage (pairStat k.toNat) 3 true))) ∧
  (∀ (s : State) (r : Requester), opened s r snsPage 0x100 = true →
    exec (.senseCalAll r) s = .next (closed s { calAll (written s snsPage 0x100 (rewritten s snsPage 0x100 2 2)) with resp := .done })) ∧
  (∀ (s : State) (k : BitVec 6), k.toNat < 40 → bitAt s pairPage (pairStat k.toNat) 3 = true → snsRuns s = true →
    exec (.senseCalDone k true) s = .next (closed s (commitClass (setSense (setBit s pairPage (pairStat k.toNat) 3 false) k.toNat
      { senseOf s k.toNat with calBad := false }) k.toNat (fld s pairPage (pairStat k.toNat) 7 5)))) ∧
  (∀ (s u : State) (k : BitVec 6), k.toNat < 40 → bitAt s pairPage (pairStat k.toNat) 3 = true → snsRuns s = true →
    u = raise (setSense (setBit s pairPage (pairStat k.toNat) 3 false) k.toNat { senseOf s k.toNat with calBad := true }) snsPage 2 0 k.toNat →
    exec (.senseCalDone k false) s = .next (closed s (if bitAt s pairPage (pairCfg k.toNat) 1 then commitClass u k.toNat 7 else u))) ∧
  (∀ (s u : State) (r : Requester) (v : Word) (k : Nat), opened s r snsPage 0x110 = true → u = written s snsPage 0x110 (v.toNat ||| 0x100) →
    k = v.toNat % 64 → k < 40 → bitAt s snsPage 0x114 0 = false → (senseOf s k).latched = false → linkState s (pairPort k) ≠ 2 →
    exec (.cableDiagStart r v) s = .next (closed s { setBit { u with diagCmd := (rd u snsPage 0x110).toNat } snsPage 0x114 0 true with resp := .done })) ∧
  (∀ (s u : State) (r : Requester) (v : Word) (k : Nat), opened s r snsPage 0x110 = true → u = written s snsPage 0x110 (v.toNat ||| 0x100) →
    k = v.toNat % 64 → 40 ≤ k ∨ bitAt s snsPage 0x114 0 = true ∨ (senseOf s k).latched = true ∨ (linkState s (pairPort k) = 2 ∧ v.toNat.testBit 9 = false) →
    exec (.cableDiagStart r v) s = .next (closed s { setBit u snsPage 0x114 2 true with resp := .done })) ∧
  (∀ (s : State) (res : BitVec 2) (n : BitVec 16) (k d : Nat), bitAt s snsPage 0x114 0 = true → snsRuns s = true → k = bitsOf s.diagCmd 5 0 →
    d = faultDist n.toNat (bitsOf s.diagCmd 31 16) → d < 65536 →
    exec (.cableDiagDone res n) s = .next (closed s (echoResult (raise (wr (setFld (setFld (setBit (setBit s snsPage 0x114 0 false) snsPage 0x114 1 true)
      snsPage 0x114 4 3 res.toNat) snsPage 0x114 31 16 d) snsPage 0x118 (BitVec.ofNat 32 n.toNat))
      snsPage 3 0 k) k (match res.toNat with | 1 => .open | 2 => .short | _ => .clear)))) ∧
  (∀ (s : State) (k : BitVec 6), k.toNat < 40 → bitAt s pairPage (pairStat k.toNat) 4 = true → pairClass s k.toNat = 0 →
    ((senseOf s k.toNat).latched = false → exec (.senseHoldReturn k) s = .next (closed s (endHold s k.toNat))) ∧
    ((senseOf s k.toNat).latched = true → exec (.senseHoldReturn k) s = .next (closed s s))) ∧
  (∀ (s u : State) (r : Requester) (k : BitVec 6), k.toNat < 40 → opened s r pairPage (0x100 + 4 * k.toNat) = true →
    bitAt s pairPage (pairStat k.toNat) 4 = true → pairClass s k.toNat = 0 → bitAt s pairPage (pairCfg k.toNat) 1 = true → (senseOf s k.toNat).calBad = false →
    u = written s pairPage (0x100 + 4 * k.toNat) (rewritten s pairPage (0x100 + 4 * k.toNat) 0x100 0x100) →
    exec (.senseRelease r k) s = .next (closed s { endHold u k.toNat with resp := .done }))

/-! ### Pipelines and forwarding (chapters 05, 06) -/

/-- R142 to R158: the oldest arrival makes its pass 0, the oldest recirculated frame its pass 1, or is dropped with 0x2F when it has waited too
long; a pipeline that does not serve sheds them. A frame in which the parser finds a condition set to drop goes no further; one that a rule
drops or traps goes to that fate with the copy for the host that the rule asks for; a rule with recirc sends it round on pass 0, and on
pass 1 drops it with 0x2D. Rests on the model's choices in log 44, 60. -/
def Obligations.PipelinePasses : Prop :=
  (∀ (s t : State) (k : BitVec 3) (pf : PFrame) (rest : List PFrame), k.toNat ≤ 4 → (pipeOf s k.toNat).arrivals = pf :: rest →
    t = setPipe s k.toNat { pipeOf s k.toNat with arrivals := rest } →
    (pipeServing s k.toNat = true → exec (.pipelinePass k) s = .next (closed s (runPass t k.toNat 0 pf))) ∧
    (pipeServing s k.toNat = false → exec (.pipelinePass k) s = .next (closed s (pipeShut t k.toNat pf)))) ∧
  (∀ (s : State) (k : BitVec 3), k.toNat < 4 → (pipeOf s k.toNat).arrivals = [] → exec (.pipelinePass k) s = .next (closed s s)) ∧
  (∀ (s t : State) (k : BitVec 3) (pf : PFrame) (rest : List PFrame), k.toNat ≤ 4 → (pipeOf s k.toNat).recirc = pf :: rest →
    t = popRecirc s k.toNat pf rest →
    (pipeServing s k.toNat = true → exec (.recircIssue k) s = .next (closed s (runPass t k.toNat 1 pf))) ∧
    (pipeServing s k.toNat = false → exec (.recircIssue k) s = .next (closed s (pipeShut t k.toNat pf)))) ∧
  (∀ (s : State) (k : BitVec 3) (pf : PFrame) (rest : List PFrame), k.toNat ≤ 4 → (pipeOf s k.toNat).recirc = pf :: rest →
    exec (.recircStale k) s = .next (closed s (pipeDrop (raise (popRecirc s k.toNat pf rest) (prsPage k.toNat) 3 0x2F) k.toNat pf 0x2F))) ∧
  (∀ (s u : State) (k pass c : Nat) (pf : PFrame), u = useSlot s k pass →
    c = (parse (parseCfg u k) pf.frame.bytes).cond → c ≠ 0 → bitAt u (prsPage k) 0x108 (c - 0x20) = true →
    runPass s k pass pf = pipeDrop (raise u (prsPage k) 0 c) k pf c) ∧
  (∀ (s : State) (k pass act : Nat) (pf : PFrame) (p : Parsed) (f : Frame), act.testBit 127 = true → f = { pf.frame with vid := some (frameVid s k pf.frame p) } →
    (act.testBit 75 = false ∨ pass = 0 → bitsOf act 1 0 = 1 →
      passForward s k pass pf p act = deliver (ingressMirror s k f 0x20) k { pf with frame := f } f (.drop 0x20) (copyOf act)) ∧
    (act.testBit 75 = false ∨ pass = 0 → bitsOf act 1 0 = 3 →
      passForward s k pass pf p act = deliver (ingressMirror s k f 0) k { pf with frame := f } f (.host (bitsOf act 27 20) 0x21) (copyOf act)) ∧
    (act.testBit 75 = true → pass = 1 →
      passForward s k pass pf p act = deliver (ingressMirror (raise s (prsPage k) 1 0x2D) k f 0x2D) k { pf with frame := f } f (.drop 0x2D) (copyOf act)) ∧
    (act.testBit 75 = true → pass = 0 → act.testBit 76 = true → bitsOf act 1 0 = 2 →
      passForward s k pass pf p act = recirculate (copyAhead s f (copyOf act)) k { pf with frame := f, stage := 1, arg := 0 }))

/-- R153, R154, R156, R157: a swap of a rule set makes the falsework bank active, moves the epoch on by one, ends the guard and retires the
old bank while frames are in flight on it; it is refused while the falsework bank retires or is in guard. A bank whose counter has reached
zero is no longer retiring; a guard is set within 1 µs of the launch of a dispatched lift; a scan reports the failed entries of a page. Rests on the model's choices in log 64. -/
def Obligations.BankSwaps : Prop :=
  (∀ (s u : State) (r : Requester) (k : BitVec 3), k.toNat ≤ 4 → opened s r (rulPage k.toNat) 0x120 = true →
    u = written s (rulPage k.toNat) 0x120 (rewritten s (rulPage k.toNat) 0x120 1 1) →
    ((pipeOf s k.toNat).rul.retiring = false → (pipeOf s k.toNat).rul.guard = false →
      exec (.rulSwapGo r k) s = .next (closed s { swapMade u (rulPage k.toNat) with resp := .done })) ∧
    ((pipeOf s k.toNat).rul.retiring = true ∨ (pipeOf s k.toNat).rul.guard = true →
      exec (.rulSwapGo r k) s = .next (closed s { raise (setBit u (rulPage k.toNat) 0x120 1 true) (rulPage k.toNat) 5 with resp := .done }))) ∧
  (∀ (s : State) (k : Nat), k ≤ 4 → mapGet (fun _ => none) s.tblCmd (rulPage k) = none →
    (pipeOf (swapMade s (rulPage k)) k).rul = (pipeOf s k).rul.swap ∧ bitAt (swapMade s (rulPage k)) (rulPage k) 0x020 4 = true) ∧
  (∀ b : Bank, b.active < 2 → b.swap.active = 1 - b.active ∧ b.swap.epoch = (b.epoch + 1) % 65536 ∧ b.swap.guard = false ∧
    b.swap.inflight0 = b.inflight0 ∧ b.swap.inflight1 = b.inflight1 ∧
    (b.swap.retiring = true ↔ 0 < if b.active = 0 then b.inflight0 else b.inflight1)) ∧
  (∀ (s : State) (k : BitVec 3), exec (.bankRetired (.rules k)) s = .next (closed s (setPipe s k.toNat
    { pipeOf s k.toNat with rul := (pipeOf s k.toNat).rul.retire })) ∧
    exec (.bankRetired (.meters k)) s = .next (closed s (setPipe s k.toNat { pipeOf s k.toNat with mtr := (pipeOf s k.toNat).mtr.retire }))) ∧
  (∀ (s : State) (p : Port), (eportOf s p.toNat).tx = none → exec (.bankRetired (.gates p)) s = .next (closed s (gatFree s p.toNat))) ∧
  (∀ b : Bank, (b.falsework = 0 → b.retire = { b with retiring := false }) ∧ (b.falsework ≠ 0 → b.retire = b)) ∧
  (∀ (s : State) (i : BitVec 12), liftState s i.toNat = 3 → (liftX s i.toNat).late = false → (liftX s i.toNat).launch ≤ now s + usUnits 1 →
    exec (.swapGuard i) s = .next (closed s (setGuard s (liftAction (liftRec s i.toNat)) (liftTarget (liftRec s i.toNat)) true))) ∧
  (∀ (s : State) (p : Page), exec (.tableParityScan p) s =
    .next (closed s (forEach s (s.tabBad.filter (fun k => keyPage k == p.toNat)) reportEntry)))

/-- R181 to R188: the walker's next bucket; a flush that waits its turn and the entries it takes at its end; a learn event that reaches
the other pipelines and the partner; the resynchronisation after events were lost, which flushes in every other pipeline what this one
propagated and, once these flushes have ended, sends again every entry that it learned. Rests on the model's choices in log 62, 63, 143. -/
def Obligations.FdbUpkeep : Prop :=
  (∀ (s u : State) (k : BitVec 3) (b : Nat), k.toNat ≤ 4 → serving s (fdbPage k.toNat) = true → b = (pipeOf s k.toNat).bucket →
    u = forEach (if b = 0 then passBegin s k.toNat else s) (ways b) (fun t i =>
      flushEntry (walkEntry t k.toNat i (pipeOf (if b = 0 then passBegin s k.toNat else s) k.toNat).ageing) k.toNat i) →
    exec (.walkerVisit k) s = .next (closed s (setPipe u k.toNat { pipeOf u k.toNat with bucket := (b + 1) % fdbBuckets k.toNat }))) ∧
  (∀ (s : State) (k : BitVec 3), k.toNat ≤ 4 → serving s (fdbPage k.toNat) = false → exec (.walkerVisit k) s = .next (closed s s)) ∧
  (∀ (s u : State) (r : Requester) (k : BitVec 3) (v : Word), k.toNat ≤ 4 → opened s r (fdbPage k.toNat) 0x10C = true →
    (pipeOf s k.toNat).flushes = [] → u = written s (fdbPage k.toNat) 0x10C (v.toNat ||| 2 ^ 31) →
    exec (.fdbFlush r k v) s = .next (closed s { flushRequest u k.toNat ((rd u (fdbPage k.toNat) 0x10C).toNat % 2 ^ 27) with resp := .done })) ∧
  (∀ (s u : State) (k : BitVec 3) (f : Flush) (rest : List Flush), k.toNat ≤ 4 → (pipeOf s k.toNat).flushes = f :: rest →
    u = forEach s ((fdbListed s k.toNat).filter (fun e => flushHits f.value e.2)) (fun t e =>
      deleteEvent (fdbWrite t k.toNat e.1 (esetFld e.2 127 127 0)) k.toNat e.2) →
    exec (.fdbFlushDone k) s = .next (closed s (raise (setPipe u k.toNat { pipeOf u k.toNat with flushes := rest }) (fdbPage k.toNat) 6))) ∧
  (∀ (s : State) (k : BitVec 3) (e : LearnEvent) (rest : List LearnEvent), k.toNat ≤ 4 → (pipeOf s k.toNat).events = e :: rest →
    exec (.learnEventApply k) s = .next (closed s (learnOut (forEach (setFld (setPipe s k.toNat { pipeOf s k.toNat with events := rest })
      (fdbPage k.toNat) 0x128 12 0 rest.length) ([0, 1, 2, 3, 4].filter (· != k.toNat)) (fun t j => applyEvent t j e false)) e))) ∧
  (∀ (s u : State) (k : BitVec 3), k.toNat ≤ 4 → bitAt s (fdbPage k.toNat) 0x128 31 = true → (pipeOf s k.toNat).resyncing = false →
    u = forEach s ([0, 1, 2, 3, 4].filter (· != k.toNat)) (fun t j => flushRequest t j (2 ^ 23 + k.toNat * 2 ^ 24)) →
    exec (.learnResync k) s = .next (closed s (setPipe u k.toNat { pipeOf u k.toNat with resyncing := true }))) ∧
  (∀ (s u : State) (k : Nat), (pipeOf s k).resyncing = true → flushedOut s k = true → u = setPipe s k { pipeOf s k with resyncing := false } →
    resendLearns s k = setBit (forEach u (ownEntries s k) (fun t e =>
      if !ebit (tget t (fdbPage k) 2 0 (entryEvent k e).fid.toNat) 1 then t
      else learnOut (forEach t ([0, 1, 2, 3, 4].filter (· != k)) (fun t j => applyEvent t j (entryEvent k e) false)) (entryEvent k e)))
      (fdbPage k) 0x128 31 false)

/-! ### Buffer pools (chapter 07) -/

/-- R206: usage, minimum, maximum, available size A and shared free count F, and how a grant of one buffer is judged: from the reserve
while u is below m, else from the shared part while u is below M and F is above 0; at M it fails with QUOTA_FULL, and with F at 0 with
POOL_EMPTY, and so does a request for which no free buffer stands in a bank group or channel that grants are made from (R201, R202). A
grant that is made leaves its buffer HELD by the requester with no reference and adds its size to the usage; one that fails changes no
buffer. -/
def Obligations.GrantsFollowTheQuotas : Prop :=
  (∀ (s : State) (q : Pool), freeShared s q = (avail s q : Int) - (((List.range 16).map (minOf s q)).sum : Nat) -
    (((List.range 16).map (fun i => usageOf s q i - minOf s q i)).sum : Nat)) ∧
  (∀ (s : State) (q : Pool), avail s q = (match q with | .granules => 524288 | .pages => usable s) - fencedCount s q) ∧
  (∀ (s : State) (q : Pool) (i : BitVec 4), (q = .pages → ppmReady s = true) → inReach s q 1 = true →
    usageOf s q i.toNat < minOf s q i.toNat ∨
      (minOf s q i.toNat ≤ usageOf s q i.toNat ∧ usageOf s q i.toNat < maxOf s q i.toNat ∧ 0 < freeShared s q) →
    exec (.grant q i 1) s = .next (closed s (grantBuf s q i.toNat 1).2)) ∧
  (∀ (s : State) (q : Pool) (i : BitVec 4), (q = .pages → ppmReady s = true) → minOf s q i.toNat ≤ usageOf s q i.toNat →
    maxOf s q i.toNat ≤ usageOf s q i.toNat → exec (.grant q i 1) s = .next (closed s (grantFailed s q 0x61 (poolRegion q)))) ∧
  (∀ (s : State) (q : Pool) (i : BitVec 4), (q = .pages → ppmReady s = true) → minOf s q i.toNat ≤ usageOf s q i.toNat →
    usageOf s q i.toNat < maxOf s q i.toNat → freeShared s q ≤ 0 →
    exec (.grant q i 1) s = .next (closed s (grantFailed s q 0x60 (poolRegion q)))) ∧
  (∀ (s : State) (q : Pool) (i : BitVec 4), (q = .pages → ppmReady s = true) → inReach s q 1 = false →
    usageOf s q i.toNat < minOf s q i.toNat ∨ usageOf s q i.toNat < maxOf s q i.toNat →
    exec (.grant q i 1) s = .next (closed s (grantFailed s q 0x60 (poolRegion q)))) ∧
  (∀ (s : State) (q : Pool) (i size : Nat), (bufOf (grantBuf s q i size).2 q (grantBuf s q i size).1).st = .held ∧
    (bufOf (grantBuf s q i size).2 q (grantBuf s q i size).1).owner = i ∧ (bufOf (grantBuf s q i size).2 q (grantBuf s q i size).1).refs = 0 ∧
    usageOf (grantBuf s q i size).2 q i = usageOf s q i + grantSize q size ∧ (∀ j, j ≠ i → usageOf (grantBuf s q i size).2 q j = usageOf s q j) ∧
    (grantBuf s q i size).2.regs = s.regs ∧ (grantBuf s q i size).2.tabs = s.tabs) ∧
  (∀ (s : State) (q : Pool) (reason region : Nat), (grantFailed s q reason region).gran = s.gran ∧ (grantFailed s q reason region).page = s.page)

/-- R576: a HANDOVER of a HELD buffer by its owner is judged with the buffer already taken from the old owner: QUOTA_FULL above the new
owner's maximum; accepted within its minimum or while F is 0 or more; else POOL_EMPTY. An accepted one moves the ownership. -/
def Obligations.HandoverJudgement : Prop :=
  ∀ (s s' : State) (q : Pool) (b h g u : Nat) (i j : BitVec 4), h = bufHead s q b → (recordOf s q h).st = .held → (recordOf s q h).owner = i.toNat →
    g = (recordOf s q h).size → s' = setUsage s q i.toNat (usageOf s q i.toNat - g) → u = usageOf s' q j.toNat + g →
    (maxOf s q j.toNat < u → exec (.handover q b i j) s = .next (closed s (grantFailed s q 0x61 (poolRegion q)))) ∧
    (u ≤ maxOf s q j.toNat → u ≤ minOf s q j.toNat ∨ 0 ≤ freeShared (setUsage s' q j.toNat u) q →
      exec (.handover q b i j) s = .next (closed s (setBuf (setUsage s' q j.toNat u) q h { bufOf s q h with owner := j.toNat }))) ∧
    (u ≤ maxOf s q j.toNat → minOf s q j.toNat < u → freeShared (setUsage s' q j.toNat u) q < 0 →
      exec (.handover q b i j) s = .next (closed s (grantFailed s q 0x60 (poolRegion q))))

/-- R203, R204, R207, R210, R211: the operations on one buffer, named by any granule of its chain; a page that is not in the pool counts as
FENCED with owner 15. Grants of one cycle are made together. ADDREF by the owner adds references up to 511; DROP takes one; RELEASE ends
the hold, and the buffer becomes FREE with neither; FENCE takes a FREE buffer out, UNFENCE puts it back. An operation in the wrong state,
by another than the owner, or below 0 or above 511 references changes no buffer and is recorded with its reason. Rests on the model's choices in log 67, 144. -/
def Obligations.BufferOperations : Prop :=
  (∀ (s : State) (q : Pool) (i : BitVec 4) (size : Nat) (rivals : List (BitVec 4 × Nat)),
    exec (.grant q i size rivals) s = .next (closed s (grantCycle s q ((i.toNat, max size 1) :: rivals.map (fun r => (r.1.toNat, max r.2 1))) (poolRegion q)))) ∧
  (∀ (s : State) (q : Pool) (b h k : Nat) (i : BitVec 4), h = bufHead s q b → (recordOf s q h).st = .held → (recordOf s q h).owner = i.toNat →
    (recordOf s q h).refs + k ≤ 511 →
    exec (.addref q b i k) s = .next (closed s (setBuf s q h { bufOf s q h with refs := (bufOf s q h).refs + k }))) ∧
  (∀ (s : State) (q : Pool) (b h : Nat) (i : BitVec 4), h = bufHead s q b → (recordOf s q h).st = .held ∨ 2 ≤ (recordOf s q h).refs → (recordOf s q h).st ≠ .free →
    (recordOf s q h).st ≠ .fenced → 1 ≤ (recordOf s q h).refs →
    exec (.drop q b i) s = .next (closed s (setBuf s q h { bufOf s q h with refs := (bufOf s q h).refs - 1 }))) ∧
  (∀ (s : State) (b : Nat) (i : BitVec 4), (recordOf s .pages b).st = .released → (recordOf s .pages b).refs = 1 → (recordOf s .pages b).bad = false →
    exec (.drop .pages b i) s = .next (closed s (rewriteMeta (setBuf (setBuf s .pages b { bufOf s .pages b with refs := 0 }) .pages b { gen := (bufOf s .pages b).gen }) b))) ∧
  (∀ (s : State) (q : Pool) (b h : Nat) (i : BitVec 4), h = bufHead s q b → (recordOf s q h).st = .held → (recordOf s q h).owner = i.toNat →
    0 < (recordOf s q h).refs →
    exec (.release q b i) s = .next (closed s (setBuf (setUsage s q i.toNat (usageOf s q i.toNat - (bufOf s q h).size)) q h
      { bufOf s q h with st := .released, tag := none }))) ∧
  (∀ (s : State) (b : Nat) (i : BitVec 4), (recordOf s .pages b).st = .held → (recordOf s .pages b).owner = i.toNat → (recordOf s .pages b).refs = 0 →
    (recordOf s .pages b).bad = false →
    exec (.release .pages b i) s = .next (closed s (rewriteMeta (setBuf (setUsage s .pages i.toNat (usageOf s .pages i.toNat - (bufOf s .pages b).size)) .pages b
      { gen := (bufOf s .pages b).gen }) b))) ∧
  (∀ (s : State) (b h : Nat) (i : BitVec 4), h = bufHead s .granules b → (bufOf s .granules h).st = .held → (bufOf s .granules h).owner = i.toNat →
    (bufOf s .granules h).refs = 0 → (bufOf s .granules h).badGran = [] → (bufOf s .granules h).charge = none →
    exec (.release .granules b i) s = .next (closed s (setBuf (setUsage s .granules i.toNat (usageOf s .granules i.toNat - (bufOf s .granules h).size)) .granules h
      { gen := (bufOf s .granules h).gen }))) ∧
  (∀ (s : State) (q : Pool) (b h : Nat) (i : BitVec 4), h = bufHead s q b → i.toNat = inspOf q → (recordOf s q h).st = .free →
    exec (.fence q b i) s = .next (closed s (setBuf s q h { bufOf s q h with st := .fenced, owner := i.toNat, size := 1, chain := [h] }))) ∧
  (∀ (s : State) (q : Pool) (b h : Nat) (i : BitVec 4), h = bufHead s q b → i.toNat = inspOf q → (recordOf s q h).st = .fenced → (recordOf s q h).owner ≠ 15 →
    q = .pages ∨ (recordOf s q h).bad = false →
    exec (.unfence q b i) s = .next (closed s (setBuf s q h { gen := (bufOf s q h).gen }))) ∧
  (∀ (s : State) (q : Pool) (b h k : Nat) (i j : BitVec 4), h = bufHead s q b → (recordOf s q h).st = .free ∨ (recordOf s q h).st = .fenced →
    exec (.handover q b i j) s = .next (closed s (badOp s q h 2 i.toNat 0x62)) ∧ exec (.addref q b i k) s = .next (closed s (badOp s q h 3 i.toNat 0x62)) ∧
    exec (.drop q b i) s = .next (closed s (badOp s q h 4 i.toNat 0x62)) ∧ exec (.release q b i) s = .next (closed s (badOp s q h 5 i.toNat 0x62))) ∧
  (∀ (s : State) (q : Pool) (b h : Nat) (i : BitVec 4), h = bufHead s q b → (recordOf s q h).st = .held ∨ (recordOf s q h).st = .released → i.toNat = inspOf q →
    (recordOf s q h).owner ≠ 15 →
    exec (.fence q b i) s = .next (closed s (badOp s q h 6 i.toNat 0x62)) ∧ exec (.unfence q b i) s = .next (closed s (badOp s q h 6 i.toNat 0x62))) ∧
  (∀ (s : State) (q : Pool) (b h k : Nat) (i j : BitVec 4), h = bufHead s q b → (recordOf s q h).st = .held → (recordOf s q h).owner ≠ i.toNat →
    exec (.handover q b i j) s = .next (closed s (badOp s q h 2 i.toNat 0x63)) ∧ exec (.addref q b i k) s = .next (closed s (badOp s q h 3 i.toNat 0x63)) ∧
    exec (.release q b i) s = .next (closed s (badOp s q h 5 i.toNat 0x63))) ∧
  (∀ (s : State) (q : Pool) (b h : Nat) (i : BitVec 4), h = bufHead s q b → i.toNat ≠ inspOf q →
    exec (.fence q b i) s = .next (closed s (badOp s q h 6 i.toNat 0x63)) ∧ exec (.unfence q b i) s = .next (closed s (badOp s q h 6 i.toNat 0x63))) ∧
  (∀ (s : State) (q : Pool) (b h k : Nat) (i : BitVec 4), h = bufHead s q b → (recordOf s q h).st = .held → (recordOf s q h).owner = i.toNat →
    ((recordOf s q h).refs = 0 → exec (.drop q b i) s = .next (closed s (badOp s q h 4 i.toNat 0x64))) ∧
    (511 < (recordOf s q h).refs + k → exec (.addref q b i k) s = .next (closed s (badOp s q h 3 i.toNat 0x65)))) ∧
  (∀ (s : State) (q : Pool) (b op i reason : Nat), (badOp s q b op i reason).gran = s.gran ∧ (badOp s q b op i reason).page = s.page)

/-- R209, R214, R215, R218, R219, R225, R262: a granule minimum is refused where the minima would exceed what there is. The oldest waiting
copy is judged; one of no custody class is refused at a port that is down, staged while its queue is in spill mode, and else admitted to
SRAM within the threshold, with the queue's next number. The oldest staged frame of a slice is written as a record or, without a page,
discarded; the oldest record of a queue that reads correctly comes back while there are granules. A bank group is fenced where the minima
still fit and no other is being fenced, and source 11 says when none of its granules is in use. Rests on the model's choices in log 66, 68, 69. -/
def Obligations.AdmissionSpillAndFencing : Prop :=
  (∀ (s u : State) (r : Requester) (i : BitVec 4) (v : Word), opened s r bpmPage (0x140 + 8 * i.toNat) = true →
    u = written s bpmPage (0x140 + 8 * i.toNat) v.toNat →
    (sumMin u .granules ≤ avail u .granules → exec (.quotaWrite r .granules i false v) s = .next (closed s { u with resp := .done })) ∧
    (avail u .granules < sumMin u .granules → exec (.quotaWrite r .granules i false v) s =
      .next (closed s { raise (wr u bpmPage (0x140 + 8 * i.toNat) (rd s bpmPage (0x140 + 8 * i.toNat))) bpmPage 12 with resp := .done }))) ∧
  (∀ (s : State) (r : Requester) (i : BitVec 4) (v : Word), opened s r bpmPage (0x140 + 8 * i.toNat + 4) = true →
    exec (.quotaWrite r .granules i true v) s = .next (closed s { written s bpmPage (0x140 + 8 * i.toNat + 4) v.toNat with resp := .done })) ∧
  (∀ (s : State) (c : Copy) (rest : List Copy), s.admitting = c :: rest →
    exec .queueAdmission s = .next (closed s (admitCopy { s with admitting := rest } c))) ∧
  (∀ (s : State) (c : Copy), egressBlocked s c.port = false → portQ s c.port = 2 → marked s (qIdx c.port c.frame.tc) = false → csmaNow s c.port = false →
    admitCopy s c = refuse (inc (countReason s 5 0x80) (tmsPage c.port) 0x10C) c) ∧
  (∀ (s : State) (c : Copy), egressBlocked s c.port = false → portQ s c.port ≠ 2 → marked s (qIdx c.port c.frame.tc) = false →
    (queueOf s (qIdx c.port c.frame.tc)).spill = true → admitCopy s c = stage s c) ∧
  (∀ (s : State) (c : Copy), egressBlocked s c.port = false → portQ s c.port ≠ 2 → marked s (qIdx c.port c.frame.tc) = false →
    (queueOf s (qIdx c.port c.frame.tc)).spill = false → draining s (tmsPage c.port) = false → pushout s = false →
    ((qGran s (qIdx c.port c.frame.tc) + granulesOf c.frame : Nat) : Int) ≤ max (threshold s (qIdx c.port c.frame.tc)) (qResv s (qIdx c.port c.frame.tc) : Nat) →
    takeOver s c = 0 → admitCopy s c = enqueue (doTakeOver s c) c .sram (0, false)) ∧
  (∀ (s : State) (c : Copy), ∃ n, (queueOf (enqueue s c .sram (0, false)) (qIdx c.port c.frame.tc)).frames =
      (queueOf s (qIdx c.port c.frame.tc)).frames ++ [n] ∧ n.seq = (queueOf s (qIdx c.port c.frame.tc)).seqCtr ∧ n.place = .sram ∧
      (queueOf (enqueue s c .sram (0, false)) (qIdx c.port c.frame.tc)).seqCtr = (queueOf s (qIdx c.port c.frame.tc)).seqCtr + 1) ∧
  (∀ (s : State) (k : BitVec 2) (q : Nat) (f : QFrame), firstStaged s k.toNat = some (q, f) → marked s q = false →
    exec (.spillWrite k) s = .next (closed s (match appendRecord s (spillReq q) 5 (queueOf s q).tail (recSize f.frame) (some 0x60) with
      | (none, t) => spillDone (qDrop (discard t q f 5 0) q f.frame) q
      | (some (pages, tail), t) => toDram t q f pages (recOff (queueOf s q).tail) tail (recImage f.frame f.frame.ts f.seq false)))) ∧
  (∀ (s : State) (q : BitVec 10) (f : QFrame), queueNo q.toNat = true → (queueOf s q.toNat).frames.find? (fun f => f.place == .dram) = some f →
    (∀ p ∈ f.pages, wordBad s (descWord s p) = false) → badWords s f.pages f.off (recSize f.frame) = [] →
    unreadable s f.pages = false → marked s q.toNat = false → refillGran (queueOf s q.toNat) = 0 →
    exec (.spillRefill q) s = .next (closed s (match grant s .granules (tmsReq q.toNat) (granulesOf f.frame) 5 with
      | (none, t) => t
      | (some b, t) => spillDone (releaseRecord (setFrame t q.toNat f.seq (fun g => { g with place := .refill, buf := some b, pages := [] }))
          q.toNat f.pages) q.toNat))) ∧
  (∀ (s : State) (g : BitVec 4), s.gran.fencedGroups.contains g.toNat = false → s.gran.fencing.contains g.toNat = false →
    (s.gran.fencing = [] → 32768 + sumMin s .granules ≤ avail s .granules →
      exec (.bankFenceRequest g) s = .next (closed s (notePushout (pushout s) { s with gran := { s.gran with fencing := g.toNat :: s.gran.fencing } }))) ∧
    (s.gran.fencing ≠ [] ∨ avail s .granules < 32768 + sumMin s .granules → exec (.bankFenceRequest g) s = .next (closed s s))) ∧
  (∀ (s : State) (g : BitVec 4), s.gran.fencing.contains g.toNat = true → usedGranules s.gran g.toNat = [] →
    exec (.bankFenceDone g) s = .next (closed s (raise { s with gran :=
      { s.gran with fencing := s.gran.fencing.erase g.toNat, fencedGroups := g.toNat :: s.gran.fencedGroups } } bpmPage 11 0 g.toNat)))

/-! ### Queues, schedulers and gates (chapters 08, 09) -/

/-- R237 to R240: a complete frame within 4,096 numbers of next_seq becomes ready; one further ahead waits; one whose number was skipped is
discarded with 0x83; one that failed its check is discarded; an incomplete one becomes ready only for cut-through. R239: a number that is
neither ready nor reported is skipped once a later one is ready. R242: the scheduler starts what it picks, on a port in its footway, the
host port and the engine port by their own selection, on a segment with active PLCA only inside a burst. R242, R81 to R83: a transmission
ends, and one cut through that ran dry ends stomped with 0x0E. R252: heads that fit in no window of their gate are discarded with 0x89.
R253, R256: gate-list and meter banks swap by their go bit, or are refused while a bank retires or is guarded. Rests on the model's choices in log 138, 156. -/
def Obligations.QueuesAndGates : Prop :=
  (∀ (s : State) (q : BitVec 10) (n : Word) (f : QFrame), queueNo q.toNat = true →
    (queueOf s q.toNat).frames.find? (fun f => f.seq == n) = some f → (queueOf s q.toNat).skipped.contains n = false →
    f.place = .sram ∨ f.place = .refill →
    (4096 ≤ (n - (queueOf s q.toNat).nextSeq).toNat → exec (.frameReady q n) s = .next (closed s s)) ∧
    ((n - (queueOf s q.toNat).nextSeq).toNat < 4096 → f.frame.complete = true →
      (f.frame.bad = false → exec (.frameReady q n) s = .next (closed s (setFrame s q.toNat n (fun f => { f with ready := true })))) ∧
      (f.frame.bad = true → exec (.frameReady q n) s = .next (closed s (qDrop (discard s q.toNat f 5 0) q.toNat f.frame)))) ∧
    ((n - (queueOf s q.toNat).nextSeq).toNat < 4096 → f.frame.complete = false →
      (mayCutThrough s (qPort q.toNat) (qTc q.toNat) f = false → exec (.frameReady q n) s = .next (closed s s)) ∧
      (∀ u : State, u = setFrame s q.toNat n (fun f => { f with ready := true, cutThrough := true }) →
        mayCutThrough s (qPort q.toNat) (qTc q.toNat) f = true →
        ((pick (fillTokens u (qPort q.toNat)) (qPort q.toNat)).1.map (·.1) = some (qTc q.toNat) →
          exec (.frameReady q n) s = .next (closed s u)) ∧
        ((pick (fillTokens u (qPort q.toNat)) (qPort q.toNat)).1.map (·.1) ≠ some (qTc q.toNat) →
          exec (.frameReady q n) s = .next (closed s s))))) ∧
  (∀ (s : State) (q : BitVec 10) (n : Word) (f : QFrame), queueNo q.toNat = true →
    (queueOf s q.toNat).frames.find? (fun f => f.seq == n) = some f → (queueOf s q.toNat).skipped.contains n = true →
    exec (.frameReady q n) s = .next (closed s (raise (inc (discard s q.toNat f 5 0x83) rsqPage 0x108) rsqPage 1 0x83 q.toNat))) ∧
  (∀ (s : State) (q : BitVec 10) (y : Queue), queueNo q.toNat = true → (∀ f, headOf s q.toNat = some f → f.ready = false) →
    (queueOf s q.toNat).reported.contains (queueOf s q.toNat).nextSeq = false → (queueOf s q.toNat).frames.any (fun f => f.ready) = true →
    y = { queueOf s q.toNat with skipped := (queueOf s q.toNat).skipped ++ [(queueOf s q.toNat).nextSeq], nextSeq := (queueOf s q.toNat).nextSeq + 1 } →
    exec (.seqSkip q) s = .next (closed s (raise (inc (countReason (setQueue s q.toNat (advance y.reported.length y)) 5 0x82) rsqPage 0x104)
      rsqPage 0 0x82 q.toNat))) ∧
  (∀ (s : State) (q : BitVec 10), queueNo q.toNat = true → (queueOf s q.toNat).frames.any (fun f => f.ready) = false →
    exec (.seqSkip q) s = .next (closed s s)) ∧
  (∀ (s u v : State) (port : Port), isQueuePort port.toNat = true → port.toNat ≠ 112 → port.toNat ≠ 113 → fwActive s port.toNat = false →
    (isT1s port.toNat && plcaLive s port.toNat) = false → u = gateOversize (fillTokens (creditTick s port.toNat) port.toNat) port.toNat →
    (portFree u port.toNat = false → exec (.schedulerSelect port) s = .next (closed s u)) ∧
    (portFree u port.toNat = true → pick u port.toNat = (none, v) → exec (.schedulerSelect port) s = .next (closed s v)) ∧
    (∀ (c tier : Nat) (f : QFrame), portFree u port.toNat = true → pick u port.toNat = (some (c, tier), v) → nextOf v port.toNat c = some f →
      exec (.schedulerSelect port) s = .next (closed s (startTx (if tier = 1 then promoted v port.toNat c else v) port.toNat c f)))) ∧
  (∀ (s : State) (port : Port), 96 ≤ port.toNat → port.toNat < 104 → fwActive s port.toNat = false → plcaLive s port.toNat = true →
    exec (.schedulerSelect port) s = .next (closed s (if 0 < (eportOf s port.toNat).burst ∧ now s ≤ (eportOf s port.toNat).burstUntil then
      selectNow (setEport s port.toNat { eportOf s port.toNat with burst := (eportOf s port.toNat).burst - 1 }) port.toNat else s))) ∧
  (∀ (s : State) (port : Port), isQueuePort port.toNat = true → fwActive s port.toNat = true →
    exec (.schedulerSelect port) s = .next (closed s (fwSend s port.toNat))) ∧
  (∀ s : State, (fwActive s 112 = false → exec (.schedulerSelect 112) s = .next (closed s (hostSelect s none))) ∧
    (fwActive s 113 = false → exec (.schedulerSelect 113) s = .next (closed s (engineSelect s)))) ∧
  (∀ (s u : State) (port : Port) (t : Tx), isQueuePort port.toNat = true → isT1s port.toNat = false → (collOf s port.toNat).waiting = false →
    (eportOf (creditTick s port.toNat) port.toNat).tx = some t → t.qf.cutThrough = false → t.stomp = false → t.held = false →
    t.qf.again = none → t.mirror = 0 →
    u = gatFree (burstTimer (setColl (setEport (creditEnd (creditTick s port.toNat) port.toNat t) port.toNat
      { eportOf (creditTick s port.toNat) port.toNat with tx := none }) port.toNat {}) port.toNat) port.toNat →
    exec (.transmitComplete port) s = .next (closed s (stampNotes (emit (countTx (releaseRecord (dropBuf u t.queue t.qf) t.queue t.qf.pages)
      port.toNat t.wire false) (.tx port.toNat t.wire false))))) ∧
  (∀ (s u : State) (port : Port) (t : Tx), isQueuePort port.toNat = true → isT1s port.toNat = false → (collOf s port.toNat).waiting = false →
    (eportOf (creditTick s port.toNat) port.toNat).tx = some t → t.qf.cutThrough = true → t.qf.frame.complete = false → t.held = false →
    t.qf.again = none →
    u = gatFree (burstTimer (setColl (setEport (creditEnd (countReason (creditTick s port.toNat) (portRegion port.toNat) 0x0E) port.toNat t) port.toNat
      { eportOf (creditTick s port.toNat) port.toNat with tx := none }) port.toNat {}) port.toNat) port.toNat →
    exec (.transmitComplete port) s = .next (closed s (stampNotes (emit (countTx (mirrorAbort (releaseRecord (dropBuf u t.queue t.qf) t.queue t.qf.pages)
      t.mirror) port.toNat t.wire true) (.tx port.toNat t.wire true))))) ∧
  (∀ (s : State) (port : Port), isQueuePort port.toNat = true → (eportOf (creditTick s port.toNat) port.toNat).tx = none →
    exec (.transmitComplete port) s = .next (closed s (stampNotes (creditTick s port.toNat)))) ∧
  (∀ (s : State) (port : Port), port.toNat ≤ 105 → gatesRun s port.toNat = false → exec (.gateEntryChange port) s = .next (closed s s)) ∧
  (∀ (s : State) (port : Port) (g : GateList), port.toNat ≤ 105 → gatesRun s port.toNat = true → portGates s port.toNat = some g →
    exec (.gateEntryChange port) s = .next (closed s (forEach s (List.range 8) (fun t c => match headOf t (qIdx port.toNat c) with
      | none => t
      | some f => if !f.ready ∨ !f.frame.complete then t else match longestOpen (portSpans t port.toNat g) c with
        | none => t
        | some most => if headWire t port.toNat f.frame ≤ most * portKbps t port.toNat then t
          else raise (inc (discard t (qIdx port.toNat c) f 5 0x89) (gatPage port.toNat) 0x10C) (gatPage port.toNat) 2 0x89)))) ∧
  (∀ (s u : State) (r : Requester) (port : Port), port.toNat ≤ 105 → opened s r (gatPage port.toNat) 0x104 = true →
    u = written s (gatPage port.toNat) 0x104 (rewritten s (gatPage port.toNat) 0x104 1 1) →
    ((gatBank s port.toNat).retiring = false → (gatBank s port.toNat).guard = false →
      exec (.gatSwapGo r port) s = .next (closed s { swapMade u (gatPage port.toNat) with resp := .done })) ∧
    ((gatBank s port.toNat).retiring = true ∨ (gatBank s port.toNat).guard = true →
      exec (.gatSwapGo r port) s = .next (closed s { raise (setBit u (gatPage port.toNat) 0x104 1 true) (gatPage port.toNat) 1 with resp := .done }))) ∧
  (∀ (s u : State) (r : Requester) (k : BitVec 3), k.toNat ≤ 4 → opened s r (mtrPage k.toNat) 0x100 = true →
    u = written s (mtrPage k.toNat) 0x100 (rewritten s (mtrPage k.toNat) 0x100 1 1) →
    ((pipeOf s k.toNat).mtr.retiring = false → (pipeOf s k.toNat).mtr.guard = false →
      exec (.mtrSwapGo r k) s = .next (closed s { swapMade u (mtrPage k.toNat) with resp := .done })) ∧
    ((pipeOf s k.toNat).mtr.retiring = true ∨ (pipeOf s k.toNat).mtr.guard = true →
      exec (.mtrSwapGo r k) s = .next (closed s { raise (setBit u (mtrPage k.toNat) 0x100 1 true) (mtrPage k.toNat) 4 with resp := .done })))

/-- R241 to R243: the order of the tiers. While gates are enabled and its gate is open, class 7's eligible head goes first, whatever the
port shaper says. While gates are disabled and no class has a starve limit (R246), an eligible strict class above which no class is eligible is
taken in tier 2 where the port shaper allows it; where no class of tier 2 can go, tier 3 takes what the DWRR procedure answers. While every class
is paused none is picked; what is eligible is ready and not paused, fits its gate and the port's FIFO, and is what the class would send next. Rests on the model's choices in log 70. -/
def Obligations.SchedulerTiers : Prop :=
  (∀ (s : State) (port : Nat), port ≤ 105 → bitAt s (gatPage port) 0x100 0 = true → (gatesNow s port).testBit 7 = true →
    (eligible s port 7).isSome = true → pick s port = (some (7, 0), s)) ∧
  (∀ (s : State) (port c : Nat), port ≤ 105 → bitAt s (gatPage port) 0x100 0 = false → c < 8 → shaperAllows s port = true →
    (eligible s port c).isSome = true → schMode s port c = 0 → (∀ d < 8, c < d → eligible s port d = none) →
    (∀ d < 8, fld s (schPage port) (0x140 + 16 * d) 31 20 = 0) → pick s port = (some (c, 2), s)) ∧
  (∀ (s : State) (port r : Nat), port ≤ 105 → bitAt s (gatPage port) 0x100 0 = false → tier2 s port = none → hasDwrr s port = true →
    (∀ d < 8, fld s (schPage port) (0x140 + 16 * d) 31 20 = 0) →
    r = (if schMode s port (eportOf s port).rr = 1 then (eportOf s port).rr else nextDwrr s port (eportOf s port).rr) →
    pick s port = ((dwrrGo s port 8 r).1.map (fun c => (c, 3)), (dwrrGo s port 8 r).2)) ∧
  (∀ (s : State) (port c tier : Nat) (t : State), (eportOf s port).rr < 8 → (∀ d < 8, (eportOf s port).paused.testBit d = true) → pick s port ≠ (some (c, tier), t)) ∧
  (∀ (s : State) (port c : Nat) (f : QFrame), eligible s port c = some f → nextOf s port c = some f ∧ f.ready = true ∧
    (eportOf s port).paused.testBit c = false ∧ gateFits s port c f.frame = true ∧ fifoRoom s port f.frame = true ∧
    (f.again = none → headOf s (qIdx port c) = some f))

/-! ### Custody store (chapter 10) -/

/-- R274: a pending change of custody_en takes effect where the queue is empty, and waits where it is not. R279, R281, R284: once the settle time
has run, a queue with records goes to REPLAY with an empty bucket, or waits for TB0; one with nothing left is EMPTY. In REPLAY the head
record, where its pages and words can be read, is discarded with 0xA1 past its limit, waits for the bucket or the refill window, or is admitted
as a new arrival; a damaged one goes with 0xA6 (R220), and a broken chain with 0x6B (R221). R280: an inspection discards the expired records from the
head. R286: a flush discards every record with 0xA9. Rests on the model's choices in log 145. -/
def Obligations.CustodyQueues : Prop :=
  (∀ (s : State) (q : BitVec 10), queueNo q.toNat = true →
    ((cqOf s q.toNat).pendingEn = none → exec (.custodyEnApply q) s = .next (closed s s)) ∧
    (queueEmpty s q.toNat = false → exec (.custodyEnApply q) s = .next (closed s s)) ∧
    (∀ v : Bool, (cqOf s q.toNat).pendingEn = some v → queueEmpty s q.toNat = true →
      exec (.custodyEnApply q) s = .next (closed s (setCq s q.toNat { cqOf s q.toNat with en := v, pendingEn := none, st := 0 })))) ∧
  (∀ (s : State) (q : BitVec 10), queueNo q.toNat = true → (cqOf s q.toNat).st = 3 → cstReady s = true →
    ((cqOf s q.toNat).records = [] → (∀ f ∈ (queueOf s q.toNat).frames, f.place ≠ .staged) →
      exec (.settleExpire q) s = .next (closed s (setCq s q.toNat { cqOf s q.toNat with st := 0 }))) ∧
    ((cqOf s q.toNat).records ≠ [] → tbValid s 0 = false → bitAt s cstPage 0x100 1 = false → exec (.settleExpire q) s = .next (closed s s)) ∧
    ((cqOf s q.toNat).records ≠ [] → tbValid s 0 = true ∨ bitAt s cstPage 0x100 1 = true →
      exec (.settleExpire q) s = .next (closed s (setCq s q.toNat { cqOf s q.toNat with st := 4, bucket := 0, bucketBc := now s })))) ∧
  (∀ (s : State) (q : BitVec 10), queueNo q.toNat = true → (cqOf s q.toNat).st ≠ 3 → exec (.settleExpire q) s = .next (closed s s)) ∧
  (∀ (s : State) (q : BitVec 10) (r : Record) (rest : List Record), queueNo q.toNat = true → (cqOf s q.toNat).records = r :: rest →
    (cqOf s q.toNat).st = 4 → cstReady s = true → (cqOf s q.toNat).walkTill ≤ now s → spanBlocked s (qPort q.toNat) (qTc q.toNat) true = false →
    ((readChain s r.pages).1 = false → exec (.replayAdmit q) s = .next (closed s (replayDone (recordsLost (readChain s r.pages).2 q.toNat) q.toNat))) ∧
    ((∀ p ∈ r.pages, wordBad s (descWord s p) = false) →
      (unreadable s r.pages = true ∨ badWords s r.pages r.off (recSize r.frame) ≠ [] → exec (.replayAdmit q) s = .next (closed s
        (replayDone (dropAll 0xA6 (max 1 (headLost s q.toNat r)) (markBad s (badWords s r.pages r.off (recSize r.frame))) q.toNat) q.toNat))) ∧
      (unreadable s r.pages = false → badWords s r.pages r.off (recSize r.frame) = [] → expired s q.toNat r.cts r.untimed = true →
        exec (.replayAdmit q) s = .next (closed s (replayDone (dropHead s q.toNat 0xA1) q.toNat))) ∧
      (unreadable s r.pages = false → badWords s r.pages r.off (recSize r.frame) = [] → expired s q.toNat r.cts r.untimed = false →
        ((fillBucket s q.toNat).bucket < 0 ∨ (refillGran (queueOf s q.toNat) ≠ 0 ∧
            refillWindow s (qPort q.toNat) < refillGran (queueOf s q.toNat) + granulesOf r.frame) →
          exec (.replayAdmit q) s = .next (closed s (setCq s q.toNat (fillBucket s q.toNat)))) ∧
        (0 ≤ (fillBucket s q.toNat).bucket → refillGran (queueOf s q.toNat) = 0 ∨
            refillGran (queueOf s q.toNat) + granulesOf r.frame ≤ refillWindow s (qPort q.toNat) →
          (∀ t : State, grant (setCq s q.toNat (fillBucket s q.toNat)) .granules (tmsReq q.toNat) (granulesOf r.frame) 5 = (none, t) →
            exec (.replayAdmit q) s = .next (closed s t)) ∧
          (∀ (t v u w : State) (b : Nat),
            grant (setCq s q.toNat (fillBucket s q.toNat)) .granules (tmsReq q.toNat) (granulesOf r.frame) 5 = (some b, t) →
            v = setCq t q.toNat { cqOf t q.toNat with records := rest, bucket := (fillBucket s q.toNat).bucket - (schedLen t (qPort q.toNat) r.frame : Nat) } →
            u = enqueue v { frame := { r.frame with tc := qTc q.toNat, complete := true }, port := qPort q.toNat, buf := b, replay := true } .refill (r.cts, r.untimed) →
            w = (if isSpanPort v (qPort q.toNat) then setFrame u q.toNat ((queueOf u q.toNat).seqCtr - 1) (fun f => { f with pages := r.pages })
              else releaseRecord u q.toNat r.pages) →
            exec (.replayAdmit q) s = .next (closed s (replayDone w q.toNat))))))) ∧
  (∀ (s : State) (q : BitVec 10) (r : Record) (rest : List Record), queueNo q.toNat = true → (cqOf s q.toNat).records = r :: rest →
    (cqOf s q.toNat).st ≠ 4 → exec (.replayAdmit q) s = .next (closed s s)) ∧
  (∀ (s u : State) (q : BitVec 10), queueNo q.toNat = true → marked s q.toNat = true →
    u = spillDone (expireHead (cqRecords s q.toNat) s q.toNat) q.toNat →
    exec (.expiryInspect q) s = .next (closed s (if (cqOf u q.toNat).st = 4 then replayDone u q.toNat else u))) ∧
  (∀ (s : State) (q n : Nat) (t : Nat × Bool), oldestRecord s q = some t →
    expireHead (n + 1) s q = if expired s q t.1 t.2 then expireHead n (dropHead s q 0xA1) q else s) ∧
  (∀ (s : State) (q t : Nat), tbValid s 0 = true → expired s q t false = decide (ageLimit s q < tb0Ns s (now s) - t)) ∧
  (∀ (s u t : State) (r : Requester) (v : Word) (q : Nat), opened s r cstPage 0x128 = true → u = written s cstPage 0x128 (v.toNat ||| 2 ^ 31) →
    q = v.toNat % 1024 → marked s q = true → t = dropAll 0xA9 (cqRecords u q) u q →
    ((cqOf t q).st = 2 ∨ portQ t (qPort q) = 2 →
      exec (.custodyFlush r v) s = .next (closed s { setCq t q { cqOf t q with st := 2 } with resp := .done })) ∧
    ((cqOf t q).st ≠ 2 → portQ t (qPort q) ≠ 2 → (∀ f ∈ (queueOf t q).frames, f.place ≠ .staged) →
      exec (.custodyFlush r v) s = .next (closed s { setCq t q { cqOf t q with st := 0 } with resp := .done })) ∧
    ((cqOf t q).st ≠ 2 → portQ t (qPort q) ≠ 2 → (queueOf t q).frames.any (fun f => f.place == .staged) = true →
      exec (.custodyFlush r v) s = .next (closed s { t with resp := .done })))

/-- R287, R289: an accepted power failure and CST_HOLD_CTL.enter save custody and enter custody hold, in footway mode without another save;
custody hold keeps journals, anchors and queues, with every switched domain OFF and the hold cause in PWR_HOLD_CAUSE. R289 to R291: a journal of this
moment goes to both slots that do not hold the newest valid one, with the next generation; checkpoints wait for CST and for a period.
R292, R563: a hold with cause 1, 2, 4 or 5 ends in a cold chip reset that keeps the store, once it may. R293: the phases of a rebuild in turn. Rests on the model's choices in log 43, 76, 77, 147. -/
def Obligations.CustodyHoldAndRebuild : Prop :=
  (∀ s : State, s.mode = .run → fwState s = 0 →
    exec .pfwNAccept s = .next (closed s (powerFail { s with pins := { s.pins with pfwN := false } } 1 1))) ∧
  (∀ s : State, s.mode = .run → fwState s ≠ 0 →
    exec .pfwNAccept s = .next (closed s (enterHold { s with pins := { s.pins with pfwN := false } } 1))) ∧
  (∀ s : State, s.mode ≠ .run → exec .pfwNAccept s = .next (closed s { s with pins := { s.pins with pfwN := false } })) ∧
  (∀ (s : State) (c : Nat), c < 8 → (enterHold s c).mode = .custodyHold ∧ (enterHold s c).pins.custodyHold = true ∧
    rd (enterHold s c) pwrPage 0x10C = BitVec.ofNat 32 c ∧ (enterHold s c).cust.slots = s.cust.slots ∧ (enterHold s c).cust.anchors = s.cust.anchors ∧
    (enterHold s c).cqueues = s.cqueues ∧ (∀ d < 176, domOn (enterHold s c) d = false)) ∧
  (∀ (s : State) (r : Requester), opened s r cstPage 0x138 = true →
    exec (.custodyHoldEnter r) s = .next (closed s { powerFail (written s cstPage 0x138 1) 4 3 with resp := .done })) ∧
  (∀ (s : State) (r : Requester), opened s r cstPage 0x138 = true →
    exec (.custodyHoldAbandon r) s = .next (closed s { written s cstPage 0x138 2 with pins := { s.pins with custodyHold := false }, resp := .done })) ∧
  (∀ s : State, bitAt s cstPage 0x104 0 = true → 0 < fld s jrnPage 0x100 15 0 → exec .checkpointJournal s = .next (closed s (writeJournal s 0 0))) ∧
  (∀ s : State, bitAt s cstPage 0x104 0 = false ∨ fld s jrnPage 0x100 15 0 = 0 → exec .checkpointJournal s = .next (closed s s)) ∧
  (∀ (s : State) (r : Requester), opened s r jrnPage 0x104 = true → bitAt s cstPage 0x104 0 = true →
    exec (.journalNow r) s = .next (closed s { writeJournal (written s jrnPage 0x104 1) 0 0 with resp := .done })) ∧
  (∀ (s : State) (c l k : Nat), (channels s).contains 0 = true → (channels s).contains 8 = true →
    k = (match newestJournal s with | none => 0 | some e => 1 - e.1 % 2) →
    rd64 (writeJournal s c l) jrnPage 0x110 = (rd64 s jrnPage 0x110 + 1) % 2 ^ 64 ∧
    mapGet (fun _ => none) (writeJournal s c l).cust.slots k = some (journalNow s c l) ∧
    mapGet (fun _ => none) (writeJournal s c l).cust.slots (2 + k) = some (journalNow s c l)) ∧
  (∀ (s : State) (c l : Nat), (journalNow s c l).generation = rd64 s jrnPage 0x110 + 1 ∧ (journalNow s c l).cause = c ∧ (journalNow s c l).lost = l ∧
    (journalNow s c l).crc = journalCrc (journalNow s c l)) ∧
  (∀ (s : State) (c l : Nat), (channels s).contains 0 = false → (channels s).contains 8 = false → writeJournal s c l = raise s jrnPage 1) ∧
  (∀ s : State, s.mode = .custodyHold → s.pins.resetN = true → aonWarm s = true →
    (holdCause s = 1 ∨ holdCause s = 2 ∨ holdCause s = 5) ∨ (holdCause s = 4 ∧ aonCool s = true) →
    exec .holdExitTimer s = .next (closed s (coldReset (setBit { s with pins := { s.pins with pfwN := true } } pwrPage 0x10C 8 false) true))) ∧
  (∀ s : State, s.mode = .custodyHold → s.pins.resetN = true → aonWarm s = false →
    (holdCause s = 1 ∨ holdCause s = 2 ∨ holdCause s = 5) ∨ (holdCause s = 4 ∧ aonCool s = true) →
    exec .holdExitTimer s = .next (closed s { s with mode := .inReset, pins := { s.pins with pfwN := true }, boot := { s.boot with kept := true } })) ∧
  (∀ s : State, s.mode ≠ .custodyHold ∨ s.pins.resetN = false ∨ holdCause s = 3 ∨ (holdCause s = 4 ∧ aonCool s = false) →
    exec .holdExitTimer s = .next (closed s s)) ∧
  (∀ s : State, (fld s cstPage 0x104 6 4 = 1 → exec .rebuildPhaseDone s = .next (closed s (setFld (rebuildA s) cstPage 0x104 6 4 2))) ∧
    (fld s cstPage 0x104 6 4 = 2 → exec .rebuildPhaseDone s = .next (closed s (setFld (rebuildB s) cstPage 0x104 6 4 3))) ∧
    (fld s cstPage 0x104 6 4 = 3 → exec .rebuildPhaseDone s = .next (closed s (setFld (rebuildC s) cstPage 0x104 6 4 4))) ∧
    (fld s cstPage 0x104 6 4 = 4 → exec .rebuildPhaseDone s =
      .next (closed s (cstNowReady (setBit (setFld s cstPage 0x104 6 4 0) cstPage 0x104 1 false)))))

/-- R295, R296: a channel is drained only where no other transfer runs, it serves, and the rest can hold its pages; a custody page of it moves
once no other is left or no queue's tail is in it; the drain ends with the channel out of service, or is aborted. R297: a channel is readmitted
with a module of the capacity of the others, blank, and returns to the pool with a checkpoint journal. Rests on the model's choices in log 5. -/
def Obligations.ChannelDrainAndReadmit : Prop :=
  (∀ (s u v : State) (r : Requester) (k : BitVec 4), opened s r cstPage 0x12C = true →
    u = written s cstPage 0x12C (rewritten s cstPage 0x12C 0x10F (k.toNat + 0x100)) →
    v = { u with cust := { u.cust with draining := some k.toNat }, page := { u.page with closed := k.toNat :: u.page.closed } } →
    (drainCause u k.toNat = 0 → exec (.channelDrain r k) s = .next (closed s { setBit v cstPage 0x12C 16 true with resp := .done })) ∧
    (drainCause u k.toNat ≠ 0 → exec (.channelDrain r k) s = .next (closed s { drainRefuse u (drainCause u k.toNat) with resp := .done }))) ∧
  (∀ (s : State) (k : Nat), (s.cust.draining ≠ none ∨ s.cust.readmitting ≠ none → drainCause s k = 1) ∧
    (s.cust.draining = none → s.cust.readmitting = none →
      ((channels s).contains k = false → drainCause s k = 2) ∧
      ((channels s).contains k = true → freeElsewhere s k < heldOn s k + sumMin s .pages → drainCause s k = 3) ∧
      ((channels s).contains k = true → heldOn s k + sumMin s .pages ≤ freeElsewhere s k →
        drainCause s k = if bitAt s cstPage 0x104 0 then 0 else 4))) ∧
  (∀ (s : State) (page k : Nat), s.cust.draining = some k → page % 16 = k → (bufOf s .pages page).st = .held → (bufOf s .pages page).owner = 4 →
    (∀ q ∈ custodyQueues s, (cqOf s q).tail.any (fun t => t.1 == page) = false ∧ (queueOf s q).tail.any (fun t => t.1 == page) = false) ∨
      (∀ p ∈ usedOn s k, p ≠ page → (bufOf s .pages p).owner = 4 → (bufOf s .pages p).st ≠ .held) →
    (∀ t : State, grant s .pages 4 1 6 = (none, t) → exec (.pageMigrate page) s = .next (closed s t)) ∧
    (∀ (t v : State) (new : Nat), grant s .pages 4 1 6 = (some new, t) →
      v = takePlace t (((bufOf s .pages page).tag.getD 0) % 1024) page new →
      exec (.pageMigrate page) s = .next (closed s (opRelease { v with
        cqueues := mapUpdate cqDflt (fun _ c => { c with records := c.records.map (fun r => { r with pages := swapPage page new r.pages }), tail := c.tail.bind (fun x => if x.1 = page then none else some x) }) v.cqueues,
        queues := mapUpdate queueDflt (fun _ x => { x with frames := x.frames.map (fun f => { f with pages := swapPage page new f.pages }), tail := x.tail.bind (fun x => if x.1 = page then none else some x) }) v.queues }
        .pages page 4)))) ∧
  (∀ (s : State) (page : Nat), (∀ k, s.cust.draining = some k → page % 16 ≠ k) ∨ (bufOf s .pages page).st ≠ .held ∨ (bufOf s .pages page).owner ≠ 4 →
    exec (.pageMigrate page) s = .next (closed s s)) ∧
  (∀ (s : State) (k : Nat), s.cust.draining = some k → heldOn s k = 0 →
    exec .drainDone s = .next (closed s (raise (setBit (setBit (setDimm { s with cust := { s.cust with draining := none } } k
      { dimmOf s k with inService := false }) cstPage 0x12C 16 false) cstPage 0x12C 17 true) cstPage 6))) ∧
  (∀ s : State, (∀ k, s.cust.draining = some k → heldOn s k ≠ 0) → exec .drainDone s = .next (closed s s)) ∧
  (∀ (s u v : State) (r : Requester) (k : Nat), opened s r cstPage 0x12C = true → s.cust.draining = some k →
    u = written s cstPage 0x12C (rewritten s cstPage 0x12C 0x200 0x200) →
    v = { u with cust := { u.cust with draining := none }, page := { u.page with closed := u.page.closed.filter (· != k) } } →
    exec (.drainAbort r) s = .next (closed s { setBit v cstPage 0x12C 16 false with resp := .done })) ∧
  (∀ (s u : State) (r : Requester) (k : BitVec 4) (serial : Word) (cap : Nat), opened s r cstPage 0x12C = true →
    u = { written s cstPage 0x12C (rewritten s cstPage 0x12C 0xF k.toNat) with resp := .done } →
    (s.cust.draining ≠ none ∨ s.cust.readmitting ≠ none → exec (.channelReadmit r k serial cap) s = .next (closed s (drainRefuse u 1))) ∧
    (s.cust.draining = none → s.cust.readmitting = none → (channels s).contains k.toNat = true ∨ domOn s (89 + k.toNat) = false →
      exec (.channelReadmit r k serial cap) s = .next (closed s (drainRefuse u 2))) ∧
    (s.cust.draining = none → s.cust.readmitting = none → (channels s).contains k.toNat = false → domOn s (89 + k.toNat) = true →
      (∀ j, (channels s).head? = some j → (dimmOf s j).capacity ≠ cap → exec (.channelReadmit r k serial cap) s = .next (closed s (drainRefuse u 5))) ∧
      ((∀ j, (channels s).head? = some j → (dimmOf s j).capacity = cap) →
        exec (.channelReadmit r k serial cap) s = .next (closed s (setBit (setDimm (blankChannel { u with cust := { u.cust with readmitting := some k.toNat } } k.toNat) k.toNat
          { serial := serial.toNat, capacity := cap, inService := false }) cstPage 0x12C 16 true))))) ∧
  (∀ (s v : State) (k : Nat), s.cust.readmitting = some k →
    v = { s with cust := { s.cust with readmitting := none }, page := { s.page with closed := s.page.closed.filter (· != k) } } →
    exec .readmitDone s = .next (closed s (takePhy (raise (setBit (setBit (checkpoint (setDimm v k { dimmOf s k with inService := true }))
      cstPage 0x12C 16 false) cstPage 0x12C 17 true) cstPage 6) (2 ^ k)))) ∧
  (∀ s : State, s.cust.readmitting = none → exec .readmitDone s = .next (closed s s))

/-! ### Span pairs (chapter 10) -/

/-- R307 to R311, R324, R329: the pair's and a link's enable; a HELLO goes out on a link whose port is UP, and one that comes in starts an exchange in
HELLO or LOST, keeps a joined link alive, ends the session of a partner that has restarted, or counts 0xB8; AUTH_OFFER and AUTH_PROOF are
verified, and an exchange that fails or lasts 1 s returns the link to HELLO for 1 s with 0xB7 counted and SPN_PAIR source 2 raised; a joined
link without a HELLO for dead times hello_ms is lost; the two limits of a split. The commands that may change SPN_PAIR_STAT end with
`pairNote`, which tells the host of a change. Rests on the model's choices in log 78, 80. -/
def Obligations.SpanLinksAndSessions : Prop :=
  (∀ (s u : State) (r : Requester) (on : Bool), opened s r spnPairPage 0x100 = true → bitAt s spnPairPage 0x100 0 = !on →
    u = written s spnPairPage 0x100 (rewritten s spnPairPage 0x100 1 (b2n on)) →
    exec (.spanPairEnable r on) s = .next (closed s { if on then pairStart u else pairStop u with resp := .done })) ∧
  (∀ (s u : State) (r : Requester) (l : BitVec 3) (cfg : Word), opened s r (spnLinkPage l.toNat) 0x100 = true →
    bitAt s (spnLinkPage l.toNat) 0x100 0 = !bitOf cfg.toNat 0 → u = written s (spnLinkPage l.toNat) 0x100 cfg.toNat →
    exec (.spanLinkEnable r l cfg) s =
      .next (closed s { if bitOf cfg.toNat 0 then linkOn u l.toNat else linkOff u l.toNat with resp := .done })) ∧
  (∀ (s : State) (l : BitVec 3),
    (spanLinkState s l.toNat ≠ 0 → spanPortUp s l.toNat = true → s.span.on = true →
      exec (.helloSend l) s = .next (closed s (emit s (ctrlFrame s l.toNat "HELLO" [mySerial, s.span.mac, session s] (BitVec.ofNat 32 (session s)))))) ∧
    (spanLinkState s l.toNat = 0 ∨ spanPortUp s l.toNat = false ∨ s.span.on = false → exec (.helloSend l) s = .next (closed s s))) ∧
  (∀ (s u v w : State) (l : BitVec 3) (n : DWord) (mac : MacAddr) (x : Word), spanLinkState s l.toNat = 1 ∨ spanLinkState s l.toNat = 4 →
    pairState s = 0 ∨ partnerSerial s = n.toNat → u = (if partnerRestarted s l.toNat x.toNat then endSession s else s) →
    v = (fresh u).2 → w = setLink v l.toNat { linkOf v l.toNat with
      peer := n.toNat, peerMac := mac.toNat, peerSession := x.toNat, offered := false, lastHello := tb0Time u } →
    ((linkOf s l.toNat).retryAt ≤ tb0Time s → exec (.helloReceive l n mac x) s = .next (closed s (pairNote (spanStat s)
      (emit (setLinkState w l.toNat 2) (ctrlFrame w l.toNat "AUTH_OFFER" [mySerial, (fresh u).1 % 2 ^ 256]))))) ∧
    (tb0Time s < (linkOf s l.toNat).retryAt → exec (.helloReceive l n mac x) s = .next (closed s s))) ∧
  (∀ (s : State) (l : BitVec 3) (n : DWord) (mac : MacAddr) (x : Word), spanLinkState s l.toNat = 3 →
    (mac.toNat ≠ rd64 s (spnLinkPage l.toNat) 0x118 % 2 ^ 48 ∨ n.toNat ≠ (linkOf s l.toNat).peer →
      exec (.helloReceive l n mac x) s = .next (closed s (pairNote (spanStat s) (countReason s (linkRegion l.toNat) 0xB8)))) ∧
    (mac.toNat = rd64 s (spnLinkPage l.toNat) 0x118 % 2 ^ 48 → n.toNat = (linkOf s l.toNat).peer →
      (session s = x.toNat → pairState s ≠ 0 → exec (.helloReceive l n mac x) s = .next (closed s (pairNote (spanStat s)
        (setLink s l.toNat { linkOf s l.toNat with lastHello := tb0Time s, peerSession := x.toNat })))) ∧
      (partnerRestarted s l.toNat x.toNat = true ∨ pairState s = 0 → exec (.helloReceive l n mac x) s = .next (closed s (pairNote (spanStat s)
        (startAuth (endSession (updateActive (setLinkState s l.toNat 1))) l.toNat n.toNat mac.toNat x.toNat)))))) ∧
  (∀ (s : State) (l : BitVec 3) (n : DWord) (mac : MacAddr) (x : Word), spanLinkState s l.toNat = 1 ∨ spanLinkState s l.toNat = 4 → pairState s ≠ 0 →
    partnerSerial s ≠ n.toNat → exec (.helloReceive l n mac x) s = .next (closed s (pairNote (spanStat s)
      (countReason s (linkRegion l.toNat) 0xB8)))) ∧
  (∀ (s : State) (l : BitVec 3) (n : DWord) (mac : MacAddr) (x : Word), spanLinkState s l.toNat = 0 ∨ spanLinkState s l.toNat = 2 →
    exec (.helloReceive l n mac x) s = .next (closed s s)) ∧
  (∀ (s u : State) (l : BitVec 3) (n : DWord) (own : Bool), spanLinkState s l.toNat = 2 → n.toNat = (linkOf s l.toNat).peer →
    rd64 s spnPairPage 0x108 = 0 ∨ rd64 s spnPairPage 0x108 = n.toNat → own = true ∨ bitAt s spnPairPage 0x100 2 = false →
    u = setLink s l.toNat { linkOf s l.toNat with offered := true } →
    exec (.authOffer l n true own) s = .next (closed s (emit u (ctrlFrame u l.toNat "AUTH_PROOF" [mySerial])))) ∧
  (∀ (s : State) (l : BitVec 3) (n : DWord) (chain own : Bool), spanLinkState s l.toNat = 2 →
    chain = false ∨ n.toNat ≠ (linkOf s l.toNat).peer ∨ (rd64 s spnPairPage 0x108 ≠ 0 ∧ rd64 s spnPairPage 0x108 ≠ n.toNat) ∨
      (own = false ∧ bitAt s spnPairPage 0x100 2 = true) →
    exec (.authOffer l n chain own) s = .next (closed s (authFail s l.toNat))) ∧
  (∀ (s : State) (l : BitVec 3) (ok : Bool), spanLinkState s l.toNat = 2 →
    (ok = true → (linkOf s l.toNat).offered = true → exec (.authProof l ok) s = .next (closed s (pairNote (spanStat s) (joinLink s l.toNat)))) ∧
    (ok = false ∨ (linkOf s l.toNat).offered = false →
      exec (.authProof l ok) s = .next (closed s (pairNote (spanStat s) (authFail s l.toNat)))) ∧
    ((linkOf s l.toNat).lastHello + msTime 1000 ≤ tb0Time s → exec (.authTimeout l) s = .next (closed s (authFail s l.toNat))) ∧
    (tb0Time s < (linkOf s l.toNat).lastHello + msTime 1000 → exec (.authTimeout l) s = .next (closed s s))) ∧
  (∀ (s : State) (l : Nat), l < 8 → spanLinkState (authFail s l) l = 1 ∧ (linkOf (authFail s l) l).retryAt = tb0Time s + msTime 1000 ∧
    bitAt (authFail s l) spnPairPage 0x020 2 = true) ∧
  (∀ (s : State) (l : BitVec 3) (ms : Nat), ms = max 1 (fld s spnPairPage 0x104 7 0) * max 1 (fld s spnPairPage 0x104 15 8) →
    (tb0Time s < (linkOf s l.toNat).lastHello + msTime ms → exec (.helloDead l) s = .next (closed s s)) ∧
    (∀ p : Nat, joined s l.toNat = true → (linkOf s l.toNat).lastHello + msTime ms ≤ tb0Time s → (linkOf (spanLost s l.toNat) l.toNat).port = some p →
      exec (.helloDead l) s = .next (closed s (pairNote (spanStat s) (linkNotGood (spanLost s l.toNat) p))))) ∧
  (∀ s : State, pairState s = 2 → isPrimary s = false → bitAt s spnPairPage 0x130 7 = false →
    s.span.splitSince + msTime (100 * fld s spnPairPage 0x100 15 8) ≤ tb0Time s →
    exec .splitHoldExpire s = .next (closed s (pairNote (spanStat s) (raise (setBit s spnPairPage 0x130 7 true) spnPairPage 4)))) ∧
  (∀ s : State, pairState s = 2 → s.span.splitSince + msTime (1000 * fld s spnPairPage 0x104 31 16) ≤ tb0Time s →
    exec .sessionKeepExpire s = .next (closed s (pairNote (spanStat s) (endSession s)))) ∧
  (∀ s : State, pairState s ≠ 2 → exec .splitHoldExpire s = .next (closed s s) ∧ exec .sessionKeepExpire s = .next (closed s s)) ∧
  (∀ s : State, session s ≠ 0 ∨ pairState s ≠ 0 → session (endSession s) = 0 ∧ pairState (endSession s) = 0 ∧
    partnerSerial (endSession s) = 0 ∧ (endSession s).span.handover = none)

/-- R314, R315, R318: a DATA frame from another source MAC, of another version, on a link that is not joined or that a handover closed, is counted
and dropped; an unsequenced one goes on at once; a sequenced one below rcv_cum or already held is acknowledged again with 0xB2, one 65,536 or
more ahead is counted with 0xB4, one ahead is held within reorder_max or dropped with 0xB3, and the one expected is released with all that follow
it. R319, R320: an ACK is sent after ack_us, and one received releases what it covers and resends what its blocks leave out that was sent once.
R317: round-trip samples, and the timer of a space. -/
def Obligations.SpanSequenceSpaces : Prop :=
  (∀ (s : State) (l : BitVec 3) (h : SpanHeader) (bs : List Byte) (p : Nat), (linkOf s l.toNat).port = some p →
    (joined s l.toNat = false → exec (.spanDataReceive l h bs) s = .next (closed s (countReason s (linkRegion l.toNat) 0xB0))) ∧
    (joined s l.toNat = true → h.srcMac.toNat ≠ rd64 s (spnLinkPage l.toNat) 0x118 % 2 ^ 48 →
      exec (.spanDataReceive l h bs) s = .next (closed s (countReason s (linkRegion l.toNat) 0xB8))) ∧
    (joined s l.toNat = true → h.srcMac.toNat = rd64 s (spnLinkPage l.toNat) 0x118 % 2 ^ 48 → h.version ≠ 1 ∨ h.ftype ≠ 0 ∨ h.destKind = 3 →
      exec (.spanDataReceive l h bs) s = .next (closed s (countReason s (linkRegion l.toNat) 0xB1)))) ∧
  (∀ (s v : State) (l : BitVec 3) (h : SpanHeader) (bs : List Byte) (p : Nat) (x : SpanSpace) (f : Frame), (linkOf s l.toNat).port = some p →
    joined s l.toNat = true → h.srcMac.toNat = rd64 s (spnLinkPage l.toNat) 0x118 % 2 ^ 48 → h.version = 1 → h.ftype = 0 → h.destKind ≠ 3 →
    x = spaceOf s l.toNat h.tc.toNat → f = carried s p (now s) h bs → v = { s with nextId := s.nextId + 1 } →
    ((linkOf s l.toNat).closed = true → exec (.spanDataReceive l h bs) s = .next (closed s (inc (countReason s (linkRegion l.toNat) 0xB2)
      (spnLinkPage l.toNat) 0x128))) ∧
    ((linkOf s l.toNat).closed = false → h.rel = false → ∀ (b : Nat) (t : State), spanGrant v f = (some b, t) →
      exec (.spanDataReceive l h bs) s = .next (closed s (releaseIn t l.toNat 9 f b))) ∧
    ((linkOf s l.toNat).closed = false → h.rel = true →
      (seqLt h.seq x.rcvCum = true ∨ x.ooo.any (fun e => e.1 == h.seq) = true → exec (.spanDataReceive l h bs) s = .next (closed s
        (sendAck (inc (countReason v (linkRegion l.toNat) 0xB2) (spnLinkPage l.toNat) 0x128) l.toNat h.tc.toNat))) ∧
      (seqLt h.seq x.rcvCum = false → x.ooo.any (fun e => e.1 == h.seq) = false → x.oooLearn = [] →
        (65536 ≤ (h.seq - x.rcvCum).toNat →
          exec (.spanDataReceive l h bs) s = .next (closed s (inc (countReason v (linkRegion l.toNat) 0xB4) (spnLinkPage l.toNat) 0x12C))) ∧
        (0 < (h.seq - x.rcvCum).toNat → (h.seq - x.rcvCum).toNat < 65536 →
          (fld s (spnLinkPage l.toNat) 0x100 31 16 * 16 < oooGranules s l.toNat + granulesOf f → exec (.spanDataReceive l h bs) s = .next (closed s
            (raise (inc (countReason v (linkRegion l.toNat) 0xB3) (spnLinkPage l.toNat) 0x12C) (spnLinkPage l.toNat) 3 0xB3))) ∧
          (oooGranules s l.toNat + granulesOf f ≤ fld s (spnLinkPage l.toNat) 0x100 31 16 * 16 →
            ∀ (b : Nat) (t u : State), spanGrant v f = (some b, t) →
              u = setSpace t l.toNat h.tc.toNat { spaceOf t l.toNat h.tc.toNat with ooo := (spaceOf t l.toNat h.tc.toNat).ooo ++ [(h.seq, f, some b)] } →
              exec (.spanDataReceive l h bs) s = .next (closed s (if x.ooo.any (fun e => e.1 == h.seq - 1) ∨ x.ooo.any (fun e => e.1 == h.seq + 1)
                then noteArrival u l.toNat h.tc.toNat else sendAck u l.toNat h.tc.toNat)))) ∧
        (h.seq = x.rcvCum → ∀ (b : Nat) (t u : State), spanGrant v f = (some b, t) →
          u = setSpace (releaseIn t l.toNat h.tc.toNat f b) l.toNat h.tc.toNat
            { spaceOf (releaseIn t l.toNat h.tc.toNat f b) l.toNat h.tc.toNat with rcvCum := x.rcvCum + 1 } →
          exec (.spanDataReceive l h bs) s = .next (closed s (if (releaseHeld l.toNat h.tc.toNat 65536 u).1
            then sendAck (releaseHeld l.toNat h.tc.toNat 65536 u).2 l.toNat h.tc.toNat
            else noteArrival (releaseHeld l.toNat h.tc.toNat 65536 u).2 l.toNat h.tc.toNat)))))) ∧
  (∀ (s : State) (l : BitVec 3) (c : BitVec 4), c.toNat ≤ 8 → joined s l.toNat = true →
    (0 < (spaceOf s l.toNat c.toNat).sinceAck → exec (.ackTimer l c) s = .next (closed s (sendAck s l.toNat c.toNat))) ∧
    ((spaceOf s l.toNat c.toNat).sinceAck = 0 → exec (.ackTimer l c) s = .next (closed s s))) ∧
  (∀ (s u : State) (l : BitVec 3) (c : BitVec 4) (cum : Word) (sacks : List (BitVec 16 × BitVec 16)), c.toNat ≤ 8 → joined s l.toNat = true →
    u = ackTo s l.toNat c.toNat cum →
    exec (.spanAckReceive l c cum sacks) s = .next (closed s (bulkAgain (forEach u ((spaceOf u l.toNat c.toNat).sent.filter (fun e =>
      decide ((e.seq - cum).toNat < (sacks.map (fun b => b.1.toNat + b.2.toNat)).foldl max 0) &&
      !sacks.any (fun b => decide (b.1.toNat ≤ (e.seq - cum).toNat) && decide ((e.seq - cum).toNat < b.1.toNat + b.2.toNat)) &&
      e.sends == 1 && !e.due)) (fun s e => resend s l.toNat c.toNat e.seq))))) ∧
  (∀ (s : State) (l c : Nat) (cum : Word), seqLt (spaceOf s l c).una cum = true → seqLt (spaceOf s l c).nxt cum = false →
    (spaceOf (ackTo s l c cum) l c).una = cum ∧ (spaceOf (ackTo s l c cum) l c).sent = (spaceOf s l c).sent.filter (fun e => !seqLt e.seq cum) ∧
    (spaceOf (ackTo s l c cum) l c).backoff = 0 ∧ (spaceOf (ackTo s l c cum) l c).expiries = 0) ∧
  (∀ (s : State) (l c r : Nat), spaceOf (addSample s l c r) l c = (if (spaceOf s l c).sampled then
    { spaceOf s l c with rttvar := (3 * (spaceOf s l c).rttvar + (max (spaceOf s l c).srtt r - min (spaceOf s l c).srtt r)) / 4, srtt := (7 * (spaceOf s l c).srtt + r) / 8 }
    else { spaceOf s l c with sampled := true, srtt := r, rttvar := r / 2 })) ∧
  (∀ (s u : State) (l : BitVec 3) (c : BitVec 4) (x : SpanSpace), c.toNat ≤ 8 → joined s l.toNat = true → x = spaceOf s l.toNat c.toNat → x.una ≠ x.nxt →
    (rtoOver s l.toNat c.toNat = false → exec (.rtoExpire l c) s = .next (closed s s)) ∧
    (rtoOver s l.toNat c.toNat = true →
      u = resend (raise (inc (setSpace s l.toNat c.toNat { x with backoff := x.backoff + 1, expiries := x.expiries + 1 }) (spnLinkPage l.toNat) 0x130)
        (spnLinkPage l.toNat) 2) l.toNat c.toNat x.una →
      exec (.rtoExpire l c) s = .next (closed s
        (if max 1 (fld u (spnLinkPage l.toNat) 0x10C 27 24) ≤ x.expiries + 1 then linkDead u l.toNat else u))))

/-- R325: a HANDOVER of the partner closes the old link's spaces, and the answer to an own HANDOVER moves what is unacknowledged. R324: the
partner's rcv_cum on rejoin releases the frames below it and resends the rest. R330, R332: a LEARN frame's events are applied to every
pipeline when the frame is released; the frame that is filling is sent in space 8, or lost with 0xBB and source 5. R333: TIME frames, and the
offset they give. R335: BPDUs and topology changes cross in CTRL frames. R315: a LEARN or CTRL frame joins space 8 while that has room. Rests on the model's choices in log 143. -/
def Obligations.SpanHandoverLearningAndTime : Prop :=
  (∀ (s : State) (o n : BitVec 3) (cums : List Word), joined s n.toNat = true →
    exec (.spanHandover o n true cums) s = .next (closed s (handoverIn s o.toNat n.toNat)) ∧
    (s.span.handover = some o.toNat → exec (.spanHandover o n false cums) s = .next (closed s (handoverDone s o.toNat n.toNat cums))) ∧
    (s.span.handover ≠ some o.toNat → exec (.spanHandover o n false cums) s = .next (closed s s))) ∧
  (∀ (s : State) (o n : Nat) (cums : List Word), (handoverDone s o n cums).span.handover = none) ∧
  (∀ (s : State) (o n : Nat), o ≠ n → (linkOf (handoverIn s o n) o).closed = true) ∧
  (∀ (s v : State) (l : BitVec 3) (cums : List Word) (o : Nat), joined s l.toNat = true → v = ctrlIn s l.toNat (ctrlLen "RCV_CUM" (cums.map BitVec.toNat)) →
    v.span.handover = some o → activeLink v = some l.toNat → o ≠ l.toNat →
    exec (.spanRcvCumAnnounce l cums) s = .next (closed s (handoverDone v o l.toNat cums))) ∧
  (∀ (s u v : State) (l : BitVec 3) (cums : List Word), joined s l.toNat = true → v = ctrlIn s l.toNat (ctrlLen "RCV_CUM" (cums.map BitVec.toNat)) →
    v.span.handover = none → u = setLink v l.toNat { linkOf v l.toNat with awaitCum := false } →
    exec (.spanRcvCumAnnounce l cums) s = .next (closed s (forEach u (List.range 9) (fun s c =>
      forEach (ackTo s l.toNat c (cums.getD c (spaceOf s l.toNat c).una))
        (spaceOf (ackTo s l.toNat c (cums.getD c (spaceOf s l.toNat c).una)) l.toNat c).sent (fun s e => resend s l.toNat c e.seq))))) ∧
  (∀ (s u v : State) (l : BitVec 3) (n : Word) (evs : List LearnEvent) (x : SpanSpace), joined s l.toNat = true → x = spaceOf s l.toNat 8 →
    x.rcvCum = n → x.ooo = [] → x.oooLearn.any (fun e => e.1 == n) = false →
    v = forEach (countReleased s l.toNat 8 (ctrlLen "LEARN" (evs.map eventWord))) evs (fun s e => forEach s [0, 1, 2, 3, 4] (fun s k => applyEvent s k e true)) →
    u = setSpace v l.toNat 8 { spaceOf v l.toNat 8 with rcvCum := n + 1 } →
    exec (.spanLearnReceive l n evs) s = .next (closed s (if (releaseHeld l.toNat 8 65536 u).1 then sendAck (releaseHeld l.toNat 8 65536 u).2 l.toNat 8
      else noteArrival (releaseHeld l.toNat 8 65536 u).2 l.toNat 8))) ∧
  (∀ (s : State) (l : BitVec 3) (n : Word) (evs : List LearnEvent), joined s l.toNat = false → exec (.spanLearnReceive l n evs) s = .next (closed s s)) ∧
  (∀ (s : State) (l : Nat), s.span.learn ≠ [] → activeLink s = some l → joined s l = true →
    (spanRoom s l 8 = true → exec .learnFrameFlush s = .next (closed s
      (sendCtrl { s with span := { s.span with learn := [] } } l "LEARN" (s.span.learn.map eventWord)).2)) ∧
    (spanRoom s l 8 = false → exec .learnFrameFlush s = .next (closed s
      (raise { countReason s 0 0xBB with span := { s.span with learn := [], bulk := true } } spnPairPage 5 0xBB)))) ∧
  (∀ s : State, s.span.learn = [] → exec .learnFrameFlush s = .next (closed s s)) ∧
  (∀ (s : State) (l : BitVec 3),
    (joined s l.toNat = true → isPrimary s = false →
      exec (.spanTimeExchange l) s = .next (closed s (emit s (ctrlFrame s l.toNat "TIME" [leaveTime s l.toNat])))) ∧
    (joined s l.toNat = false ∨ isPrimary s = true → exec (.spanTimeExchange l) s = .next (closed s s))) ∧
  (∀ (s : State) (l : BitVec 3) (a b c d : BitVec 96), joined s l.toNat = true → isPrimary s = true →
    exec (.spanTimeReceive l a b c d) s = .next (closed s (emit s (ctrlFrame s l.toNat "TIME" [a.toNat, b.toNat, leaveTime s l.toNat])))) ∧
  (∀ (s v : State) (l : BitVec 3) (a b c d : BitVec 96) (off : Int), joined s l.toNat = true → isPrimary s = false →
    activeLink s = some l.toNat →
    off = (((b.toNat : Int) - a.toNat) + ((c.toNat : Int) - d.toNat)) / 2 -
      signedOf 32 (rd s (spnLinkPage l.toNat) 0x110).toNat * 2 ^ 32 / 10 →
    v = wr s spnPairPage 0x12C (BitVec.ofNat 32 (unsignedOf 32 (clampI (off / 2 ^ 32) (-(2 ^ 31)) (2 ^ 31 - 1)))) →
    (bitAt s spnPairPage 0x100 1 = false → exec (.spanTimeReceive l a b c d) s = .next (closed s v)) ∧
    (bitAt s spnPairPage 0x100 1 = true → exec (.spanTimeReceive l a b c d) s = .next (closed s (forEach v (onesOf 16 (fld v spnPairPage 0x128 15 0))
      (fun s k => if fld s (tbPage k) 0x100 7 5 = 0 then servoTake s k (-off / 2 ^ 16) else s))))) ∧
  (∀ (s : State) (p : Port) (body : List Byte) (l : Nat), activeLink s = some l →
    (body.getD 3 0 ≠ 0x80 → (body.getD 4 0).toNat % 2 = 0 →
      exec (.bpduRelay true p body) s = .next (closed s (sendCtrl s l "BPDU" (p.toNat :: body.map BitVec.toNat)).2) ∧
      exec (.bpduRelay false p body) s = .next (closed s (ctrlIn s l (ctrlLen "BPDU" (p.toNat :: body.map BitVec.toNat))))) ∧
    (body.getD 3 0 = 0x80 ∨ (body.getD 4 0).toNat % 2 = 1 →
      exec (.bpduRelay true p body) s = .next (closed s (tell (sendCtrl s l "BPDU" (p.toNat :: body.map BitVec.toNat)).2 8 0x80 [p.toNat])) ∧
      exec (.bpduRelay false p body) s = .next (closed s (tell (ctrlIn s l (ctrlLen "BPDU" (p.toNat :: body.map BitVec.toNat))) 8 0x80 [p.toNat])))) ∧
  (∀ (s t : State) (l : Nat) (k : String) (fs : List Nat),
    (joined s l = false ∨ spanRoom s l 8 = false → sendCtrl s l k fs = (false, s)) ∧
    (joined s l = true → spanRoom s l 8 = true →
      t = addCounter (addCounter (setSpace s l 8 { spaceOf s l 8 with
        nxt := (spaceOf s l 8).nxt + 1, sent := (spaceOf s l 8).sent ++ [{ seq := (spaceOf s l 8).nxt, ctrl := some (k, fs), sentBc := tb0Time s }] })
        (spnLinkPage l) 1 8 0 1) (spnLinkPage l) 1 8 1 (ctrlLen k fs) →
      sendCtrl s l k fs = (true, emit t (ctrlFrame t l k fs (spaceOf s l 8).nxt))))

/-! ### Time bases and pins (chapter 11) -/

/-- R345 to R349: TB_CMD and TB_FREQ request changes of a time base, TB_FREQ and slews being ignored in SERVO mode; a held change applies once
R348 allows it, and a step that may not apply yet is added to the one held. R341, R343, R346: a rate change re-anchors at the present value and base
count with the rate of the sum; a set that step_lock does not refuse makes the base valid and stepped; step_lock refuses the rest. R347: the end
of a slew changes only what TB_STAT and SRV_FREQ show, and an abort keeps every value up to now. Rests on the model's choices in log 83, 117. -/
def Obligations.TimeBaseChanges : Prop :=
  (∀ (s : State) (r : Requester) (k : BitVec 4), opened s r (tbPage k.toNat) 0x128 = true →
    exec (.tbSet r k) s = .next (closed s { reqSet (written s (tbPage k.toNat) 0x128 1) k.toNat with resp := .done }) ∧
    exec (.tbSetNow r k) s = .next (closed s { reqSetNow (written s (tbPage k.toNat) 0x128 2) k.toNat with resp := .done }) ∧
    exec (.tbStep r k) s = .next (closed s { reqStep (written s (tbPage k.toNat) 0x128 4) k.toNat
      (signedOf 64 (rd64 s (tbPage k.toNat) 0x130)) with resp := .done }) ∧
    exec (.tbSlew r k) s = .next (closed s { reqSlew (written s (tbPage k.toNat) 0x128 8) k.toNat with resp := .done }) ∧
    exec (.tbSlewAbort r k) s = .next (closed s { abortSlew (written s (tbPage k.toNat) 0x128 16) k.toNat with resp := .done })) ∧
  (∀ (s : State) (r : Requester) (k : BitVec 4) (v : Word), opened s r (tbPage k.toNat) 0x138 = true →
    servoMode s k.toNat = false →
    exec (.tbFreqWrite r k v) s = .next (closed s { reqRate (written s (tbPage k.toNat) 0x138 v.toNat) k.toNat with resp := .done })) ∧
  (∀ (s : State) (k : BitVec 4) (any : Bool), any = ((tbOf s k.toNat).heldSet.isSome || (tbOf s k.toNat).heldSetNow.isSome ||
      (tbOf s k.toNat).heldStep.isSome || (tbOf s k.toNat).heldRate.isSome || (tbOf s k.toNat).heldServo.isSome || (tbOf s k.toNat).heldSlew.isSome) →
    (any = true → mayChange s k.toNat = true → exec (.tbChangeRelease k) s = .next (closed s (applyHeld s k.toNat).2)) ∧
    (any = false ∨ mayChange s k.toNat = false → exec (.tbChangeRelease k) s = .next (closed s s))) ∧
  (∀ (s : State) (k : BitVec 4), ((tbOf s k.toNat).slewEnd ≤ now s → exec (.slewEnd k) s = .next (closed s (endSlew s k.toNat))) ∧
    (now s < (tbOf s k.toNat).slewEnd → exec (.slewEnd k) s = .next (closed s s))) ∧
  (∀ (s : State) (k : Nat) (d : Int), mayChange s k = false →
    reqStep s k d = setTb s k { tbOf s k with heldStep := some ((tbOf s k).heldStep.getD 0 + d) }) ∧
  (∀ (s : State) (k : Nat), servoMode s k = true → reqRate s k = setBit s (tbPage k) 0x104 3 true ∧ reqSlew s k = setBit s (tbPage k) 0x104 3 true) ∧
  (∀ (s : State) (k : Nat) (f : Int), (tbOf s k).slew = 0 ∨ now s < (tbOf s k).slewEnd → (tbOf (applyChange s k (fun t => { t with f := f })) k).f = f ∧
    (tbOf (applyChange s k (fun t => { t with f := f })) k).ta = (tbAt s k (now s)).toNat ∧
    (tbOf (applyChange s k (fun t => { t with f := f })) k).ba = now s ∧
    (tbOf (applyChange s k (fun t => { t with f := f })) k).rate = rateWord (f + (tbOf s k).slew * 256)) ∧
  (∀ (s : State) (k v : Nat), k < 16 → stepLocked s k = false → servoMode s k = false →
    (applySet s k (fun t => { t with ta := v })).1 = true ∧ (tbOf (applySet s k (fun t => { t with ta := v })).2 k).ta = v ∧
    (tbOf (applySet s k (fun t => { t with ta := v })).2 k).ba = now s ∧ tbValid (applySet s k (fun t => { t with ta := v })).2 k = true ∧
    bitAt (applySet s k (fun t => { t with ta := v })).2 (tbPage k) 0x104 1 = true) ∧
  (∀ (s : State) (k : Nat) (g : TimeBase → TimeBase), stepLocked s k = true → applySet s k g = (false, stepRefused s k)) ∧
  (∀ (s : State) (k : Nat), k < 16 → bitAt s (tbPage k) 0x104 7 = true → bitAt (endSlew s k) (tbPage k) 0x104 7 = false ∧
    (endSlew s k).tbs = s.tbs ∧ (endSlew s k).baseCount = s.baseCount) ∧
  (∀ (s : State) (k b : Nat), k < 16 → 0 < b → b ≤ now s → (tbOf s k).slew ≠ 0 → now s < (tbOf s k).slewEnd →
    tbAt (abortSlew s k) k b = tbAt s k b ∧ (tbOf (abortSlew s k) k).gens = (tbOf s k).gens ∧ rateOf (abortSlew s k) k = rateWord (tbOf s k).f) ∧
  (∀ (s : State) (r : Requester) (k : BitVec 4) (v : Word), opened s r (tbPage k.toNat) 0x138 = true → servoMode s k.toNat = true →
    exec (.tbFreqWrite r k v) s = .next (closed s { wrIgnored (wr (written s (tbPage k.toNat) 0x138 v.toNat) (tbPage k.toNat) 0x138
      (rd s (tbPage k.toNat) 0x138)) k.toNat with resp := .done }))

/-- R352 to R354: a write of SRV_SAMPLE is a sample where software is the source, and none where it is not; a sample changes nothing while CK_REF is
lost or the mode is STEER, and one less than 10 µs after the last sets TB_STAT bit 10 alone; one beyond step_thr requests a step and returns to
ACQUIRE; one below acq_thr in TRACK or LOCKED integrates, requests the output and counts toward LOCKED; no sample for the holdover interval
puts the servo into HOLDOVER with its integrator as the output. Rests on the model's choices in log 81, 148. -/
def Obligations.ServoLaw : Prop :=
  (∀ (s : State) (r : Requester) (k : BitVec 4) (th : DWord), reach s r = true → accKind s r (wordAddr (tbPage k.toNat) 0x160) 8 = 0 →
    fld s (tbPage k.toNat) 0x100 7 5 = 0 →
    exec (.servoSample r k th) s = .next (closed s { servoTake s k.toNat (signedOf 64 th.toNat) with resp := .done })) ∧
  (∀ (s : State) (r : Requester) (k : BitVec 4) (th : DWord), reach s r = true → accKind s r (wordAddr (tbPage k.toNat) 0x160) 8 = 0 →
    fld s (tbPage k.toNat) 0x100 7 5 ≠ 0 → exec (.servoSample r k th) s = .next (closed s { s with resp := .done })) ∧
  (∀ (s : State) (k : Nat) (th : Int), servoMode s k = false ∨ servoState s k = 0 ∨ refLost s = true → servoTake s k th = s) ∧
  (∀ (s : State) (k b : Nat) (th : Int), servoMode s k = true → servoState s k = 1 ∨ servoState s k = 2 ∨ servoState s k = 3 → refLost s = false →
    (tbOf s k).fromHold = false → (tbOf s k).lastSample = some b → tb0Time s - b < 10000 * 2 ^ 32 →
    servoTake s k th = setBit s (tbPage k) 0x104 10 true) ∧
  (∀ (s : State) (k : Nat) (th : Int), servoMode s k = true → servoState s k = 1 → refLost s = false → (tbOf s k).fromHold = false →
    (tbOf s k).lastSample = none → fld s (tbPage k) 0x158 31 16 * 1000 * 2 ^ 16 < th.natAbs → stepLocked s k = false → mayChange s k = false →
    (tbOf (servoTake s k th) k).heldStep = some ((tbOf s k).heldStep.getD 0 - th) ∧ servoState (servoTake s k th) k = 1 ∧
    (tbOf (servoTake s k th) k).haveEst = false) ∧
  (∀ (s : State) (k b tau : Nat) (th i y : Int), k < 16 → servoMode s k = true → servoState s k = 2 ∨ servoState s k = 3 → refLost s = false →
    (tbOf s k).fromHold = false → (tbOf s k).lastSample = some b → tau = tb0Time s - b → 10000 * 2 ^ 32 ≤ tau →
    th.natAbs ≤ fld s (tbPage k) 0x158 31 16 * 1000 * 2 ^ 16 → th.natAbs < fld s (tbPage k) 0x154 31 16 * 2 ^ 16 → mayChange s k = false →
    i = (tbOf s k).integ + th * (2 ^ 16 * 10 ^ 9 * 256) / tau * (fld s (tbPage k) 0x150 15 8 : Nat) / 256 →
    y = -(th * (2 ^ 16 * 10 ^ 9 * 256) / tau * (fld s (tbPage k) 0x150 7 0 : Nat) / 256 + i) →
    (tbOf (servoTake s k th) k).integ = i ∧ (tbOf (servoTake s k th) k).heldServo = some y ∧
    (tbOf (servoTake s k th) k).lastSample = some (tb0Time s) ∧
    servoState (servoTake s k th) k = (if th.natAbs ≤ fld s (tbPage k) 0x154 15 0 * 2 ^ 16 ∧
      max 1 (fld s (tbPage k) 0x158 7 0) ≤ (tbOf s k).locks + 1 then 3 else 2)) ∧
  (∀ (s : State) (k : BitVec 4), servoMode s k.toNat = true → 1 ≤ servoState s k.toNat → servoState s k.toNat ≤ 3 → refLost s = false →
    exec (.servoHoldover k) s = .next (closed s (servoOut (setServo (setTb s k.toNat { tbOf s k.toNat with locks := 0 }) k.toNat 4) k.toNat
      (-(tbOf s k.toNat).integ)))) ∧
  (∀ (s : State) (k : BitVec 4), servoMode s k.toNat = false ∨ servoState s k.toNat = 0 ∨ 3 < servoState s k.toNat ∨ refLost s = true →
    exec (.servoHoldover k) s = .next (closed s s))

/-- R356: an alignment marker checks the replicas it names and those that failed before, and raises source 0 at a second failure. R360, R370:
conversion and capture with the parameters in force. R365, R366: an edge that the pin's mode takes and that comes 20 ns or more after the last
is stamped and converted into its FIFO, or sets the overrun bit with the pin's source where that is full; a read of its low word removes
the oldest entry; a periodic output gives a leading edge from START on where its period and width are valid. R367: the squelch of a SyncE output ends
with its port UP. Rests on the model's choices in log 149. -/
def Obligations.TimeCaptureAndPins : Prop :=
  (∀ (s : State) (bad : List Page) (l : List Nat), l = bad.map (·.toNat) →
    (serving s tdsPage = true → exec (.alignmentMarker bad) s = .next (closed s
      (forEach s (l ++ ((s.replicas.map (·.1)).filter (fun p => !l.contains p))) (markReplica l)))) ∧
    (serving s tdsPage = false → exec (.alignmentMarker bad) s = .next (closed s s))) ∧
  (∀ (s : State) (bad : List Nat) (p : Nat), p ∈ bad → markReplica bad s p =
    { raise (inc s tdsPage 0x100) tdsPage 0 0 p with replicas := mapSet (fun _ => 0) s.replicas p 1 }) ∧
  (∀ (s : State) (bad : List Nat) (p : Nat), p ∉ bad → mapGet (fun _ => 0) s.replicas p = 1 → markReplica bad s p =
    { raise s tdsPage 0 0 p with replicas := mapSet (fun _ => 0) s.replicas p 2 }) ∧
  (∀ (s u : State) (r : Requester) (k : BitVec 4), opened s r tbsPage 0x128 = true → u = written s tbsPage 0x128 (rewritten s tbsPage 0x128 0x10F (k.toNat + 0x100)) →
    exec (.convert r k) s = .next (closed s { timeConv u with resp := .done }) ∧
    rd64 (timeConv u) tbsPage 0x130 = secOf (tbAt s k.toNat (restore s (rd64 s tbsPage 0x120))) ∧
    fld (timeConv u) tbsPage 0x138 29 0 = nsOf (tbAt s k.toNat (restore s (rd64 s tbsPage 0x120))) ∧
    bitAt (timeConv u) tbsPage 0x138 31 = tbValid s k.toNat ∧ bitAt (timeConv u) tbsPage 0x128 9 = true) ∧
  (∀ (s u : State) (r : Requester), opened s r tbsPage 0x100 = true → u = written s tbsPage 0x100 1 →
    exec (.timeCapture r) s = .next (closed s { timeCap u with resp := .done }) ∧ rd64 (timeCap u) tbsPage 0x108 = now s % 2 ^ 64 ∧
    (∀ k < 16, rd64 (timeCap u) (tbPage k) 0x180 = secOf (tbAt s k (now s)) ∧
      (rd (timeCap u) (tbPage k) 0x188).toNat = nsOf (tbAt s k (now s)))) ∧
  (∀ (s t v : State) (n : BitVec 2) (rising up : Bool), serving s tioPage = true → up = (rising != bitAt s tioPage (tioOff n.toNat) 8) →
    (fld s tioPage (tioOff n.toNat) 2 0 = 1 ∧ up = true) ∨ (fld s tioPage (tioOff n.toNat) 2 0 = 2 ∧ up = false) ∨ fld s tioPage (tioOff n.toNat) 2 0 = 3 →
    (∀ b, mapGet (fun _ => none) s.tioLast n.toNat = some b → stampNow s - b < 3072 → exec (.tioCapture n rising) s = .next (closed s s)) ∧
    ((∀ b ∈ mapGet (fun _ => none) s.tioLast n.toNat, 3072 ≤ stampNow s - b) →
      t = { s with tioLast := mapSet (fun _ => none) s.tioLast n.toNat (some (stampNow s)) } →
      v = (if up then tioServo t n.toNat (stampNow s) else t) →
      ((tioList s n.toNat).length < 16 → exec (.tioCapture n rising) s = .next (closed s (setTio v n.toNat (tioList s n.toNat ++
        [{ bc := stampNow s, time := tbAt v (fld v tioPage (tioOff n.toNat) 7 4) (stampNow s), valid := tbValid v (fld v tioPage (tioOff n.toNat) 7 4) }])))) ∧
      (16 ≤ (tioList s n.toNat).length → exec (.tioCapture n rising) s = .next (closed s
        (raise (setBit v tioPage (tioOff n.toNat + 0x1C) 8 true) tioPage n.toNat))))) ∧
  (∀ (s : State) (n : BitVec 2) (rising : Bool), serving s tioPage = false ∨ fld s tioPage (tioOff n.toNat) 2 0 = 0 ∨ 3 < fld s tioPage (tioOff n.toNat) 2 0 →
    exec (.tioCapture n rising) s = .next (closed s s)) ∧
  (∀ (s t : State) (r : Requester) (n : BitVec 2), opened s r tioPage (tioOff n.toNat + 0x20) = true → t = tioPop s n.toNat →
    exec (.tioCapPop r n) s = .next (closed s { setRdShadow t (regId r) tioPage (some (tioPage * 4096 + (tioOff n.toNat + 0x20),
      view t tioPage (tioOff n.toNat + 0x24))) with resp := .value ((view t tioPage (tioOff n.toNat + 0x20)).setWidth 64) })) ∧
  (∀ (s : State) (n : Nat) (e : TioCap) (rest : List TioCap), n < 4 → tioList s n = e :: rest → tioList (tioPop s n) n = rest ∧
    rd64 (tioPop s n) tioPage (tioOff n + 0x20) = e.bc % 2 ^ 64 ∧ rd64 (tioPop s n) tioPage (tioOff n + 0x28) = secOf e.time ∧
    fld (tioPop s n) tioPage (tioOff n + 0x30) 29 0 = nsOf e.time ∧ bitAt (tioPop s n) tioPage (tioOff n + 0x30) 31 = e.valid) ∧
  (∀ (s : State) (n : BitVec 2), serving s tioPage = true → fld s tioPage (tioOff n.toNat) 2 0 = 4 →
    (tioValid s n.toNat = true → (tioStart s n.toNat : Int) ≤ tbAt s (fld s tioPage (tioOff n.toNat) 7 4) (now s) →
      exec (.tioOutputEdge n) s = .next (closed s (emit s
        (.tioPulse n.toNat (now s) (!bitAt s tioPage (tioOff n.toNat) 8) (rd s tioPage (tioOff n.toNat + 0x18)).toNat)))) ∧
    (tioValid s n.toNat = true → tbAt s (fld s tioPage (tioOff n.toNat) 7 4) (now s) < (tioStart s n.toNat : Int) →
      exec (.tioOutputEdge n) s = .next (closed s s)) ∧
    (tioValid s n.toNat = false → exec (.tioOutputEdge n) s = .next (closed s (raise s tioPage (4 + n.toNat))))) ∧
  (∀ (s : State) (n : BitVec 2), serving s tioPage = false ∨ fld s tioPage (tioOff n.toNat) 2 0 ≠ 4 →
    exec (.tioOutputEdge n) s = .next (closed s s)) ∧
  (∀ (s : State) (n : BitVec 1) (p : Nat), p ≤ fld s syePage (0x100 + 4 * n.toNat) 5 0 → bitAt s (macPage p) 0x100 0 = true →
    fld s syePage (0x100 + 4 * n.toNat) 5 0 < p + lanesOf s p → (∀ q < fld s syePage (0x100 + 4 * n.toNat) 5 0 + 1, p < q →
      bitAt s (macPage q) 0x100 0 = false) → linkState s p = 2 →
    exec (.synceRelease n) s = .next (closed s (setBit s syePage 0x108 n.toNat false)))

/-! ### Bascule: lifts (chapter 12) -/

/-- R376, R377: a record committed with valid 1 arms its lift, or its agreement, or is refused with cause 2 or 4. R382, R385: a lift is dispatched
2 µs before its launch count, one in a cycle and in their order, or is MISSED where it is late and to be discarded; it is launched at its count:
NO_TARGET, MISSED, or what its action answers, OK, LATE or REFUSED, or held back with its time base; a change of a transmit SA is told to MKA.
R377: an outcome ends a single lift. R396: completions enter the done FIFO while it has room, and are read from it. Rests on the model's choices in log 19, 83, 84, 85, 87, 125, 150. -/
def Obligations.LiftsArmDispatchAndLaunch : Prop :=
  (∀ (s : State) (r : Requester) (i : BitVec 12) (w : BitVec 384), (∀ o, 0xF00 ≤ o → o < 0xF40 → o % 4 = 0 → opened s r bscPage o = true) →
    rd s bscPage 0xF0C = 0 → mapGet (fun _ => none) s.tblCmd bscPage = none → bitAt s bscPage 0xF08 0 = false → liftLive s i.toNat = false →
    ebit (w.setWidth 1920) 383 = true → liftBad s i.toNat (w.setWidth 1920) = false →
    ∃ t, exec (.liftArm r i w) s = .next (closed s t) ∧ liftRec t i.toNat = w.setWidth 1920 ∧
      liftState t i.toNat = (if ebit (w.setWidth 1920) 106 then 2 else 1) ∧ (liftX t i.toNat).inst = liftInst (w.setWidth 1920)) ∧
  (∀ (s : State) (r : Requester) (i : BitVec 12) (w : BitVec 384), (∀ o, 0xF00 ≤ o → o < 0xF40 → o % 4 = 0 → opened s r bscPage o = true) →
    rd s bscPage 0xF0C = 0 → mapGet (fun _ => none) s.tblCmd bscPage = none → bitAt s bscPage 0xF08 0 = false → liftLive s i.toNat = false →
    ebit (w.setWidth 1920) 383 = true → liftBad s i.toNat (w.setWidth 1920) = true →
    ∃ t, exec (.liftArm r i w) s = .next (closed s t) ∧ t.tabs = s.tabs ∧ t.lifts = s.lifts ∧ fld t bscPage 0xF08 5 3 = 4 ∧
      bitAt t bscPage 0xF08 2 = true ∧ bitAt t bscPage 0x020 30 = true) ∧
  (∀ (s : State) (r : Requester) (i : BitVec 12) (w : BitVec 384), (∀ o, 0xF00 ≤ o → o < 0xF40 → o % 4 = 0 → opened s r bscPage o = true) →
    rd s bscPage 0xF0C = 0 → mapGet (fun _ => none) s.tblCmd bscPage = none → bitAt s bscPage 0xF08 0 = false → liftLive s i.toNat = true →
    ∃ t, exec (.liftArm r i w) s = .next (closed s t) ∧ t.tabs = s.tabs ∧ t.lifts = s.lifts ∧ fld t bscPage 0xF08 5 3 = 2 ∧
      bitAt t bscPage 0xF08 2 = true ∧ bitAt t bscPage 0x020 30 = true) ∧
  (∀ (s : State) (i : BitVec 12) (e : Entry) (x : LiftX), e = liftRec s i.toNat → x = liftX s i.toNat → liftState s i.toNat = 1 →
    bitAt s bscPage 0x100 0 = true → tbValid s (liftTb e) = true → x.launch ≤ now s + usUnits 2 → s.mode = .run →
    (x.launch < now s → ebit e 105 = true → exec (.liftDispatch i) s = .next (closed s (occurred s i.toNat 3 (lateNs s x.launch)))) ∧
    (now s ≤ x.launch ∨ ebit e 105 = false →
      (s.dispatchAt ≠ some (now s) → (liftList s).any (dispatchedBefore s i.toNat) = false → slotsUsed s (liftTarget e) < 16 →
        exec (.liftDispatch i) s = .next (closed s (setLiftState (setLiftX { s with dispatchAt := some (now s) } i.toNat
          { x with late := decide (x.launch < now s) }) i.toNat 3))) ∧
      (s.dispatchAt = some (now s) ∨ (liftList s).any (dispatchedBefore s i.toNat) = true ∨ 16 ≤ slotsUsed s (liftTarget e) →
        exec (.liftDispatch i) s = .next (closed s s)))) ∧
  (∀ (s : State) (i : BitVec 12), liftState s i.toNat = 1 → bitAt s bscPage 0x100 0 = false ∨ tbValid s (liftTb (liftRec s i.toNat)) = false ∨
      now s + usUnits 2 < (liftX s i.toNat).launch → exec (.liftDispatch i) s = .next (closed s s)) ∧
  (∀ (s : State) (i : BitVec 12), liftState s i.toNat = 2 → isPrimary s = false → dispatchDue s i.toNat = true →
    exec (.liftDispatch i) s = .next (closed s (resolveGroup s (liftGroup (liftRec s i.toNat)) 10 (failSolo s)))) ∧
  (∀ (s : State) (i : BitVec 12) (e : Entry) (x : LiftX), e = liftRec s i.toNat → x = liftX s i.toNat → liftState s i.toNat = 3 →
    x.waiting = false → x.launch ≤ now s → s.mode = .run →
    (noTarget s (liftTarget e) = true → liftAction e ≠ 5 → exec (.liftLaunch i) s = .next (closed s (occurred (recallLift (launched s i.toNat) i.toNat) i.toNat 5 0))) ∧
    (noTarget s (liftTarget e) = false → x.late = true → ebit e 105 = true → liftAction e ≠ 5 →
      exec (.liftLaunch i) s = .next (closed s (occurred (recallLift s i.toNat) i.toNat 3 (lateNs s x.launch)))) ∧
    (noTarget s (liftTarget e) = false → x.late = false ∨ ebit e 105 = false → liftAction e ≠ 5 → ∀ t : State,
      (perform s i.toNat = (some true, t) → exec (.liftLaunch i) s = .next (closed s
        (if x.late then occurred (launched t i.toNat) i.toNat 2 (lateNs s x.launch) else occurred (launched t i.toNat) i.toNat 1 0))) ∧
      (perform s i.toNat = (some false, t) → exec (.liftLaunch i) s = .next (closed s (occurred (recallLift (launched t i.toNat) i.toNat) i.toNat 4 0))) ∧
      (perform s i.toNat = (none, t) → exec (.liftLaunch i) s = .next (closed s t))) ∧
    (noTarget s (liftTarget e) = false → x.late = false → liftAction e = 5 → ∀ (c : Nat) (t u : State), c = efld e 319 256 % 128 →
      t = tset s (liftTarget e) 0 0 c (esetFld (tget s (liftTarget e) 0 0 c) 78 78 (efld e 319 256 / 128)) →
      u = occurred (launched t i.toNat) i.toNat 1 0 → exec (.liftLaunch i) s = .next (closed s
        (if tget u (liftTarget e) 0 0 c ≠ tget s (liftTarget e) 0 0 c then tell u 9 0x80 [liftTarget e, c, efld e 319 256 / 128 % 2] else u)))) ∧
  (∀ (s : State) (i p : Nat) (e : Entry), e = liftRec s i → p = liftTarget e →
    (liftAction e = 0 → perform s i = (some true, liftWrite s p (efld e 155 144) (efld e 319 256 % 2 ^ 32) (efld e 255 224))) ∧
    (liftAction e = 2 ∨ liftAction e = 3 ∨ liftAction e = 4 →
      perform s i = if (bankOfPage s p).retiring then (some false, swapRefused s p) else (some true, swapMade s p)) ∧
    (liftAction e = 9 → marked s (efld e 319 256 % 1024) = true → perform s i = (some true, setCq (custodyDown s (efld e 319 256 % 1024))
      (efld e 319 256 % 1024) { cqOf (custodyDown s (efld e 319 256 % 1024)) (efld e 319 256 % 1024) with lifted := true })) ∧
    (liftAction e = 11 → stepLocked s (p % 4096 - 0x10) = true → perform s i = (some false, stepRefused s (p % 4096 - 0x10))) ∧
    (liftAction e = 12 → fld s tioPage (tioOff (efld e 319 256 % 4)) 2 0 ≠ 5 → perform s i = (some false, s))) ∧
  (∀ (s : State) (i o late : Nat), o < 16 → liftPeriod (liftRec s i) = 0 → (liftX s i).solo = false → ebit (liftRec s i) 106 = false →
    liftState (occurred s i o late) i = 4 ∧ efld (liftStat (occurred s i o late) i) 7 4 = o ∧ liftRec (occurred s i o late) i = liftRec s i) ∧
  (∀ (s : State) (i o late : Nat), ebit (liftRec s i) 107 = true → s.bscFifo.length < 256 →
    (pushDone s i o late).bscFifo = s.bscFifo ++ [(i, o, liftGroup (liftRec s i), late)] ∧ bitAt (pushDone s i o late) bscPage 0x020 0 = true) ∧
  (∀ (s : State) (i o late : Nat), ebit (liftRec s i) 107 = true → 256 ≤ s.bscFifo.length → (pushDone s i o late).bscFifo = s.bscFifo ∧
    bitAt (pushDone s i o late) bscPage 0x118 16 = true ∧ bitAt (pushDone s i o late) bscPage 0x020 5 = true) ∧
  (∀ (s : State) (r : Requester), opened s r bscPage 0x110 = true →
    exec (.bscDonePop r) s = .next (closed s { clearRC (popDone s).2 bscPage 0x110 all32 with
      resp := .value ((BitVec.ofNat 32 (popDone s).1).setWidth 64) }))

/-- R389: BSC_CANCEL of a lift is done, too late within 256 base units of its launch, or refused. R391 to R394: the agreement of a coordinated group:
ANNOUNCE sent and received, the primary's COMMIT or REJECT, COMMIT and COMMITTED received, REJECT, CANCEL, CANCELLED, and the commit deadline. Rests on the model's choices in log 79, 86. -/
def Obligations.LiftCancellationAndAgreement : Prop :=
  (∀ (s : State) (r : Requester) (v : Word), opened s r bscPage 0x108 = true →
    exec (.liftCancel r v) s = .next (closed s { cancelGo (written s bscPage 0x108 (v.toNat ||| 2 ^ 31)) with resp := .done })) ∧
  (∀ (s : State) (i : Nat), bitAt s bscPage 0x108 20 = false → fld s bscPage 0x108 11 0 = i →
    (liftLive s i = false → cancelGo s = setBit s bscPage 0x10C 2 true) ∧
    (liftState s i = 1 → ebit (liftRec s i) 106 = false → cancelGo s = setBit (endLift s i 6) bscPage 0x10C 0 true) ∧
    (liftState s i = 3 → (liftX s i).waiting = false → (liftX s i).launch < now s + 256 → cancelGo s = setBit s bscPage 0x10C 1 true)) ∧
  (∀ (s u : State) (r : Requester) (v : Word), opened s r bscPage 0x124 = true → u = written s bscPage 0x124 (v.toNat ||| 2 ^ 31) →
    (coordOf s (v.toNat % 256) = none → exec (.liftAnnounce r v) s = .next (closed s { u with resp := .done })) ∧
    (∀ f, coordOf s (v.toNat % 256) = some f → exec (.liftAnnounce r v) s = .next (closed s { tryMatch (tellPartner (setGroup u (v.toNat % 256)
      { groupOf s (v.toNat % 256) with announced := true, committed := false, confirmed := false }) "ANNOUNCE" (coordBody f 0)) (v.toNat % 256)
      with resp := .done }))) ∧
  (∀ (s t : State) (l : Nat) (f : CoordFields), activeLink s = some l → t = ctrlIn s l (ctrlLen "" []) →
    (isPrimary t = true → pastDeadline t f = true → exec (.announce f) s = .next (closed s
      (resolveGroup (tellPartner t "REJECT" (groupBody f.group.toNat 2 0)) f.group.toNat 7 false))) ∧
    (isPrimary t = false ∨ pastDeadline t f = false → exec (.announce f) s = .next (closed s
      (tryMatch (setGroup t f.group.toNat { groupOf t f.group.toNat with partner := some f }) f.group.toNat)))) ∧
  (∀ (s : State) (g l : Nat) (mine his : CoordFields), coordOf s g = some mine → (groupOf s g).partner = some his → activeLink s = some l →
    isPrimary s = true → (groupOf s g).announced = true → (groupOf s g).committed = false →
    (mine ≠ his → tryMatch s g = resolveGroup (sendCtrl s l "REJECT" (groupBody g 1 0)).2 g 7 false) ∧
    (∀ t, mine = his → pastDeadline s mine = false → sendCtrl s l "COMMIT" (groupBody g 0 0) = (true, t) →
      ∃ u, u = setGroup t g { groupOf s g with committed := true, partner := none } ∧ tryMatch s g =
        forEach u ((groupLifts u g).filter (fun i => liftState u i == 2)) (fun s i => arm (setLiftStat s i 3 3 1) i))) ∧
  (∀ (s t u : State) (l : Nat) (g : BitVec 8), activeLink s = some l → t = ctrlIn s l (ctrlLen "" []) → isPrimary t = false →
    ((groupLifts t g.toNat).filter (fun i => liftState t i == 2)) ≠ [] →
    (∀ i ∈ groupLifts t g.toNat, liftState t i = 2 → dispatchDue t i = false) →
    u = tellPartner (setGroup t g.toNat { groupOf t g.toNat with committed := true, confirmed := true, partner := none }) "COMMITTED" (groupBody g.toNat 0 0) →
    exec (.commit g) s = .next (closed s (forEach u ((groupLifts t g.toNat).filter (fun i => liftState t i == 2))
      (fun s i => arm (setLiftStat s i 3 3 1) i)))) ∧
  (∀ (s t : State) (l : Nat) (g c : BitVec 8), activeLink s = some l → t = ctrlIn s l (ctrlLen "" []) →
    (isPrimary t = true → (groupOf t g.toNat).committed = true →
      exec (.committed g) s = .next (closed s (setGroup t g.toNat { groupOf t g.toNat with confirmed := true }))) ∧
    (isPrimary t = false → exec (.reject g c) s = .next (closed s (resolveGroup t g.toNat 7 false))) ∧
    (isPrimary t = true → exec (.reject g c) s = .next (closed s t))) ∧
  (∀ (s t : State) (l : Nat) (g : BitVec 8) (n : Word), activeLink s = some l → t = ctrlIn s l (ctrlLen "" []) →
    ((groupOf t g.toNat).committed = false → exec (.cancel g n) s = .next (closed s (tellPartner (setGroup
      (forEach t ((groupLifts t g.toNat).filter (fun i => liftState t i == 2)) (fun s i => endLift s i 7)) g.toNat {}) "CANCELLED"
      (groupBody g.toNat 0 n.toNat)))) ∧
    ((groupOf t g.toNat).committed = true → (∀ i ∈ groupLifts t g.toNat, liftPeriod (liftRec t i) ≠ 0) →
      exec (.cancel g n) s = .next (closed s (tellPartner (stopFrom t (groupLifts t g.toNat) n.toNat) "CANCELLED" (groupBody g.toNat 0 n.toNat)))) ∧
    ((groupOf t g.toNat).committed = true → exec (.cancelled g n) s = .next (closed s (stopFrom t (groupLifts t g.toNat) n.toNat)))) ∧
  (∀ (s : State) (l : Nat) (g : BitVec 8), activeLink s = some l → isPrimary (ctrlIn s l (ctrlLen "" [])) = true →
    exec (.commit g) s = .next (closed s (ctrlIn s l (ctrlLen "" [])))) ∧
  (∀ (s : State) (g : BitVec 8) (f : CoordFields), coordOf s g.toNat = some f →
    ((groupOf s g.toNat).committed = false → pastDeadline s f = true → isPrimary s = true ∨ (groupOf s g.toNat).partner ≠ some f →
      exec (.commitDeadline g) s = .next (closed s (resolveGroup s g.toNat 7 (failSolo s)))) ∧
    ((groupOf s g.toNat).committed = true ∨ pastDeadline s f = false ∨ (isPrimary s = false ∧ (groupOf s g.toNat).partner = some f) →
      exec (.commitDeadline g) s = .next (closed s s)))

/-! ### Engines and services (chapter 13) -/

/-- R410 to R414: SVC_LOAD, SVC_START, SVC_MIGRATE and SVC_RELEASE begin or do what they ask for, or are refused with the cause R410 to R414 give; a load
that ends with a right digest leaves its block LOADED, with another it is refused with cause 5; a migration's end hands the source's
unfinished messages and the held ones to the target; a release deals the buckets to the other blocks. Rests on the model's choices in log 88. -/
def Obligations.ServiceLoadsAndMigration : Prop :=
  (∀ (s u : State) (r : Requester) (v : Word) (b k : Nat), opened s r svcPage 0x104 = true → u = written s svcPage 0x104 (v.toNat ||| 2 ^ 31) →
    b = v.toNat % 64 → k = v.toNat / 256 % 32 →
    (loadCause s b k = 0 → exec (.serviceLoad r v) s = .next (closed s { setBit (setBlkState { u with svcOp := some (.load b k) } b 1)
      svcPage 0x114 0 true with resp := .done })) ∧
    (loadCause s b k ≠ 0 → exec (.serviceLoad r v) s = .next (closed s { opRefuse u (loadCause s b k) 1 with resp := .done }))) ∧
  (∀ (s : State) (b k : Nat), (s.svcOp.isSome = true → loadCause s b k = 1) ∧
    (s.svcOp = none → blkState s b = 3 ∨ blkState s b = 4 → loadCause s b k = 2) ∧
    (s.svcOp = none → blkState s b ≠ 3 → blkState s b ≠ 4 →
      (storeOk s k = true → ((storeImg s k).service = 10 ∧ b ≠ 0) ∨ ((storeImg s k).service ≠ 10 ∧ b = 0) → loadCause s b k = 3) ∧
      (storeOk s k = false → loadCause s b k = 4) ∧
      (storeOk s k = true → ((storeImg s k).service = 10 ∧ b = 0) ∨ ((storeImg s k).service ≠ 10 ∧ b ≠ 0) →
        loadCause s b k = if blkOn s b then 0 else 6))) ∧
  (∀ (s : State) (cause src : Nat), cause < 16 → src < 32 → fld (opRefuse s cause src) svcPage 0x114 7 4 = cause ∧
    bitAt (opRefuse s cause src) svcPage 0x114 2 = true ∧ bitAt (opRefuse s cause src) svcPage 0x020 src = true) ∧
  (∀ (s : State) (b k : Nat), s.svcOp = some (.load b k) →
    exec (.serviceLoadDone true) s = .next (closed s (opDone (loadImage { s with svcOp := none } b k) 0)) ∧
    exec (.serviceLoadDone false) s = .next (closed s (opRefuse (setBit (wr { s with svcOp := none } (ebkPage b) 0x108 0) svcPage 0x114 0 false) 5 1))) ∧
  (∀ (s : State) (b k : Nat), b < 64 → blkState (loadImage s b k) b = 2 ∧ imgOf (loadImage s b k) b = storeImg s k) ∧
  (∀ (s u : State) (r : Requester) (v : Word) (b : Nat), opened s r svcPage 0x110 = true → u = written s svcPage 0x110 (v.toNat ||| 2 ^ 31) →
    b = v.toNat % 64 → blkState s b = 2 → svcBlocks s (imgOf s b).service = [] → blkOn s b = true →
    exec (.serviceStart r v) s = .next (closed s { health (deal (setBit (runBlock u b (imgOf s b).service) svcPage 0x114 1 true)
      (imgOf s b).service) with resp := .done })) ∧
  (∀ (s u : State) (r : Requester) (v : Word) (a d : Nat), opened s r svcPage 0x108 = true → u = written s svcPage 0x108 (v.toNat ||| 2 ^ 31) →
    a = v.toNat % 64 → d = v.toNat / 256 % 64 →
    (migrateCause s a d = 0 → exec (.serviceMigrate r v) s = .next (closed s { setBit (setBlkState { u with svcOp := some (.migrate a d) } a 4)
      svcPage 0x114 0 true with resp := .done })) ∧
    (migrateCause s a d ≠ 0 → exec (.serviceMigrate r v) s = .next (closed s { opRefuse u (migrateCause s a d) 3 with resp := .done }))) ∧
  (∀ (s : State) (a d : Nat), s.svcOp = none → blkState s d = 2 → blkState s a = 3 → (imgOf s d).service = mapAt s a →
    (imgOf s d).stateMin ≤ (imgOf s a).stateVer → pairForbidden d (mapAt s a) = false → blkOn s d = true → migrateCause s a d = 0) ∧
  (∀ (s : State) (a d : Nat), (s.svcOp.isSome = true → migrateCause s a d = 1) ∧
    (s.svcOp = none → blkState s d = 3 ∨ blkState s d = 4 → migrateCause s a d = 2) ∧
    (s.svcOp = none → blkState s d = 2 → pairForbidden d (mapAt s a) = true → migrateCause s a d = 3) ∧
    (s.svcOp = none → blkState s d = 2 → pairForbidden d (mapAt s a) = false → blkOn s d = false → migrateCause s a d = 6) ∧
    (s.svcOp = none → blkState s d = 2 → pairForbidden d (mapAt s a) = false → blkOn s d = true →
      blkState s a ≠ 3 ∨ (imgOf s d).service ≠ mapAt s a ∨ (imgOf s a).stateVer < (imgOf s d).stateMin → migrateCause s a d = 8)) ∧
  (∀ (s t u : State) (a d : Nat) (us : BitVec 16), s.svcOp = some (.migrate a d) → t = migrateEnd s us.toNat →
    u = forEach { t with redeliv := [] } t.redeliv (fun s e => embDeliver s e.1 e.2) →
    exec (.migrationDone us) s = .next (closed s (forEach { u with embHold := [] } u.embHold (fun s e => embDeliver s e.1 e.2)))) ∧
  (∀ (s u : State) (r : Requester) (v : Word) (b : Nat), opened s r svcPage 0x10C = true → u = written s svcPage 0x10C (v.toNat ||| 2 ^ 31) →
    b = v.toNat % 64 →
    (s.svcOp = none → b ≠ 0 → svcBlocks s (mapAt s b) ≠ [b] → blkState s b = 3 → exec (.serviceRelease r v) s =
      .next (closed s { opDone (takeBack (health (deal (unassign u b) (mapAt s b))) (fun h => h.block == b)) 2 with resp := .done })) ∧
    (s.svcOp = none → b = 0 ∨ svcBlocks s (mapAt s b) = [b] → exec (.serviceRelease r v) s = .next (closed s { opRefuse u 7 3 with resp := .done })) ∧
    (s.svcOp.isSome = true → exec (.serviceRelease r v) s = .next (closed s { opRefuse u 1 3 with resp := .done })))

/-- R416, R418: an engine that a watchdog, an ECC error or an instruction fault hits is held with its cause, its messages go back to EMB, and its
block is held with its last engine; EBK_RESTART frees engines. R417: a held block's service goes to a spare, or to its other blocks, and the service
rebuilds what was lost. R405: the timers of OAM and TELEM. Rests on the model's choices in log 90, 151. -/
def Obligations.EngineFaultsAndTimers : Prop :=
  (∀ (s t u v w : State) (b : BitVec 6) (e : BitVec 4), bitAt s (ebkPage b.toNat) 0x104 e.toNat = true →
    t = setBit (setBit s (ebkPage b.toNat) 0x104 e.toNat false) (ebkPage b.toNat) 0x104 (16 + e.toNat) true →
    u = takeBack (health (raise (wr t (ebkPage b.toNat) (0x140 + 4 * e.toNat) 0x13) (ebkPage b.toNat) 0 0 e.toNat e.toNat)) (fun h => h.at b.toNat e.toNat) →
    v = takeBack (health (raise (wr t (ebkPage b.toNat) (0x140 + 4 * e.toNat) 0x33) (ebkPage b.toNat) 0 0 e.toNat e.toNat)) (fun h => h.at b.toNat e.toNat) →
    w = takeBack (health (raise (addSat (wr t (ebkPage b.toNat) (0x140 + 4 * e.toNat) 0x23) (ebkPage b.toNat) 0x114 31 16 1) (ebkPage b.toNat) 0 0
      e.toNat e.toNat)) (fun h => h.at b.toNat e.toNat) →
    (fld t (ebkPage b.toNat) 0x104 15 0 ≠ 0 → exec (.engineWatchdog b e) s = .next (closed s u) ∧ exec (.engineFault b e true) s = .next (closed s v) ∧
      exec (.engineFault b e false) s = .next (closed s w)) ∧
    (fld t (ebkPage b.toNat) 0x104 15 0 = 0 → exec (.engineWatchdog b e) s = .next (closed s (holdBlock u b.toNat)) ∧
      exec (.engineFault b e true) s = .next (closed s (holdBlock v b.toNat)) ∧ exec (.engineFault b e false) s = .next (closed s (holdBlock w b.toNat)))) ∧
  (∀ (s : State) (b : BitVec 6) (e : BitVec 4) (i : Bool), bitAt s (ebkPage b.toNat) 0x104 e.toNat = false →
    exec (.engineWatchdog b e) s = .next (closed s s) ∧ exec (.engineFault b e i) s = .next (closed s s)) ∧
  (∀ (s : State) (r : Requester) (b : BitVec 6) (m : BitVec 16), opened s r (ebkPage b.toNat) 0x110 = true →
    exec (.engineRestart r b m) s = .next (closed s { restartEngines (written s (ebkPage b.toNat) 0x110 m.toNat) b.toNat m.toNat with resp := .done })) ∧
  (∀ (s : State) (b m : Nat), b < 64 → fld (restartEngines s b m) (ebkPage b) 0x104 31 16 =
    fld s (ebkPage b) 0x104 31 16 - (m &&& fld s (ebkPage b) 0x104 31 16)) ∧
  (∀ (s : State) (b : BitVec 6), exec (.blockHeld b) s = .next (closed s (holdBlock (addSat s (ebkPage b.toNat) 0x114 31 16 1) b.toNat))) ∧
  (∀ (s t u : State) (b id : Nat) (lost : List Nat) (alone : Bool), b < 64 → blkState s b = 3 → s.svcOp = none → id = mapAt s b → id ≠ 0x0B →
    t = takeBack (raise (setFld (setBlkState s b 5) (ebkPage b) 0x104 15 0 0) (ebkPage b) 1 0 0 0xFFFF) (fun h => h.block == b) → u = setMapAt t b 0 →
    lost = (List.range 64).filter (fun j => (mapGet (fun _ => []) t.buckets id)[j]? == some b) → alone = (svcBlocks u id).isEmpty →
    (bitAt u svcPage 0x100 0 = false ∨ id = 0x0A ∨ storeFor u id = none → holdBlock s b = recoverService (health (deal u id)) id lost alone) ∧
    (∀ slot d : Nat, bitAt u svcPage 0x100 0 = true → id ≠ 0x0A → storeFor u id = some slot →
      (List.range 64).find? (fun d => mapAt u d == 0 && d != b && blkOn u d && (blkState u d == 0 || blkState u d == 2) && !held u (ebkPage d)) = some d →
      holdBlock s b = recoverService (health (raise (passBuckets (runBlock (loadImage u d slot) d id) id b d) svcPage 5 0 d)) id lost alone)) ∧
  (∀ (s : State) (p : BitVec 12), svcBlocks s 5 ≠ [] → (∃ o ∈ s.svcObjs, o.1 = 5 ∧ o.2.1 = p.toNat) →
    exec (.oamCcmTimer p false) s = .next (closed s (emit s (.serviceFrame 5 p.toNat))) ∧
    exec (.oamCcmTimer p true) s = .next (closed s (notify (emit s (.serviceFrame 5 p.toNat)) 5 0x80 [p.toNat]))) ∧
  (∀ (s : State) (k : BitVec 16), svcBlocks s 6 ≠ [] → (∃ o ∈ s.svcObjs, o.1 = 6 ∧ o.2.1 = k.toNat) →
    exec (.telemPeriod k) s = .next (closed s (notify (fresh s).2 6 0x80 [k.toNat, (fresh s).1]))) ∧
  (∀ (s : State) (p : BitVec 12) (k : BitVec 16) (missed : Bool),
    (svcBlocks s 5 = [] ∨ (∀ o ∈ s.svcObjs, o.1 = 5 → o.2.1 ≠ p.toNat) → exec (.oamCcmTimer p missed) s = .next (closed s s)) ∧
    (svcBlocks s 6 = [] ∨ (∀ o ∈ s.svcObjs, o.1 = 6 → o.2.1 ≠ k.toNat) → exec (.telemPeriod k) s = .next (closed s s)))

/-- R404, R407 to R409, R412: a request row is the service message of its service and opcode; EMB takes a message only while a block can have it,
answers 5, 3 and 2 itself, holds it for a frozen block, or leaves it with its engine while that is at work; a message that names a ring comes
as that ring's next entry. A request that an engine can handle at once, not from a ring, is counted and answered: status 0 with its body,
1 for an opcode that its service does not define, 2 for arguments it cannot use. Bodies that the spec does not lay out are free values (log 89). Rests on the model's choices in log 89, 90, 91, 92. -/
def Obligations.ServiceRequests : Prop :=
  (∀ (s : State) (m : SvcRequest), exec (.ping m) s = exec (.serviceMessage { m with opcode := 0x00 }) s ∧
    exec (.stats m) s = exec (.serviceMessage { m with opcode := 0x01 }) s ∧ exec (.configGet m) s = exec (.serviceMessage { m with opcode := 0x02 }) s ∧
    exec (.configSet m) s = exec (.serviceMessage { m with opcode := 0x03 }) s ∧ exec (.resync m) s = exec (.serviceMessage (asked m 1 0x10)) s ∧
    exec (.partnerSync m) s = exec (.serviceMessage (asked m 1 0x11)) s ∧ exec (.linkInfo m) s = exec (.serviceMessage (asked m 2 0x10)) s ∧
    exec (.authRetry m) s = exec (.serviceMessage (asked m 2 0x11)) s ∧ exec (.instanceSet m) s = exec (.serviceMessage (asked m 3 0x10)) s ∧
    exec (.datasetGet m) s = exec (.serviceMessage (asked m 3 0x11)) s ∧ exec (.queueInfo m) s = exec (.serviceMessage (asked m 4 0x10)) s ∧
    exec (.indexCheck m) s = exec (.serviceMessage (asked m 4 0x11)) s ∧ exec (.mepSet m) s = exec (.serviceMessage (asked m 5 0x10)) s ∧
    exec (.measureStart m) s = exec (.serviceMessage (asked m 5 0x11)) s ∧ exec (.subscribe m) s = exec (.serviceMessage (asked m 6 0x10)) s ∧
    exec (.unsubscribe m) s = exec (.serviceMessage (asked m 6 0x11)) s ∧ exec (.diagSchedule m) s = exec (.serviceMessage (asked m 7 0x10)) s ∧
    exec (.segmentNodes m) s = exec (.serviceMessage (asked m 7 0x11)) s ∧ exec (.bridgeSet m) s = exec (.serviceMessage (asked m 8 0x10)) s ∧
    exec (.portStateGet m) s = exec (.serviceMessage (asked m 8 0x11)) s ∧ exec (.neighboursGet m) s = exec (.serviceMessage (asked m 8 0x12)) s ∧
    exec (.caSet m) s = exec (.serviceMessage (asked m 9 0x10)) s ∧ exec (.caStatus m) s = exec (.serviceMessage (asked m 9 0x11)) s ∧
    exec (.footwayStatus m) s = exec (.serviceMessage (asked m 10 0x10)) s ∧ exec (.inspectRequest m) s = exec (.serviceMessage (asked m 11 0x10)) s ∧
    exec (.inspectCancel m) s = exec (.serviceMessage (asked m 11 0x11)) s ∧ exec (.cageInfo m) s = exec (.serviceMessage (asked m 12 0x10)) s ∧
    exec (.appSet m) s = exec (.serviceMessage (asked m 12 0x11)) s) ∧
  (∀ (s : State) (m : SvcRequest), embTakes s m = false → exec (.serviceMessage m) s = .next (closed s s)) ∧
  (∀ (s : State) (m : SvcRequest) (n k : Nat), embTakes s m = true → m.ring = some (BitVec.ofNat 8 n) → n < 256 → k = 1 + (m.body.length + 15) / 16 →
    (sqReady s n 2 = true → k ≤ slotsLeft s n → k ≤ 16 → slotsFit s n k = true → exec (.serviceMessage m) s = .next (closed s
      (ringsGo (fetchEntry (askSlots s n k) n { index := (sqConsOf s n).toNat, count := k, msg := some m })))) ∧
    (sqReady s n 2 = false ∨ slotsLeft s n < k ∨ 16 < k ∨ slotsFit s n k = false → exec (.serviceMessage m) s = .next (closed s s))) ∧
  (∀ (s : State) (m : SvcRequest) (b e : Nat), m.ring = none → serving s embPage = true → b = blockFor s m.service.toNat m.key.toNat →
    e = engineFor s b m.key.toNat →
    (m.service = 0xF0 → svcBlocks s 0xF0 = [] → exec (.serviceMessage m) s = .next (closed s (respond s m 0 5 []))) ∧
    (m.service ≠ 0xF0 → svcBlocks s m.service.toNat = [] →
      exec (.serviceMessage m) s = .next (closed s (respond (raise (inc s embPage 0x108) embPage 1) m 0 3 []))) ∧
    (m.service ≠ 0xF0 → svcBlocks s m.service.toNat ≠ [] →
      (frozen s b = true → s.embHold.length < 1024 →
        exec (.serviceMessage m) s = .next (closed s { s with embHold := s.embHold ++ [(m, 0)] })) ∧
      (frozen s b = false → engines s b ≠ 0 → m.busy ≠ 0 ∨ stalled s b e = true ∨ s.inHand.any (fun h => h.at b e) = true →
        exec (.serviceMessage m) s = .next (closed s (showEngine { s with inHand := s.inHand ++ [{ block := b, engine := e, msg := m, index := 0 }] } b e))) ∧
      (frozen s b = false → engines s b ≠ 0 → m.busy = 0 → stalled s b e = false → s.inHand.any (fun h => h.at b e) = false → 240 < m.body.length →
        exec (.serviceMessage m) s = .next (closed s (respond (countedFor s m.service.toNat) m 0 2 []))))) ∧
  (∀ (s : State) (m : SvcRequest), answerable s m m.service.toNat = true →
    exec (.ping m) s = .next (closed s (respond (countedFor s m.service.toNat) { m with opcode := 0x00 } 0 0
      [(imgOf s ((svcBlocks s m.service.toNat).headD 0)).version, ((svcBlocks s m.service.toNat).map (engines s)).sum])) ∧
    exec (.stats m) s = .next (closed s (respond (fresh (countedFor s m.service.toNat)).2 { m with opcode := 0x01 } 0 0
      [served s m.service.toNat + 1, (fresh s).1])) ∧
    (cfgOf s m.service.toNat ≠ [] → exec (.configGet m) s = .next (closed s (respond (countedFor s m.service.toNat) { m with opcode := 0x02 } 0 0
      ((cfgOf s m.service.toNat).map (·.toNat))))) ∧
    (cfgOf s m.service.toNat = [] → exec (.configGet m) s = .next (closed s (respond (fresh (countedFor s m.service.toNat)).2 { m with opcode := 0x02 } 0 0
      [(fresh s).1]))) ∧
    (∀ u, u = countedFor s m.service.toNat → exec (.configSet m) s = .next (closed s (respond { u with
      svcCfg := mapSet (fun _ => []) s.svcCfg m.service.toNat m.body } { m with opcode := 0x03 } 0 0 [])))) ∧
  (∀ (s : State) (m : SvcRequest), answerable s m m.service.toNat = true → 0x20 ≤ m.opcode.toNat →
    exec (.serviceMessage m) s = .next (closed s (respond (countedFor s m.service.toNat) m 0 1 []))) ∧
  (∀ (s : State) (m : SvcRequest) (k : Byte) (rest : List Byte), answerable s m 1 = true → m.body = k :: rest → k.toNat ≤ 4 →
    exec (.resync m) s = .next (closed s (respond (startResync (countedFor s 1) k.toNat) (asked m 1 0x10) 0 0 []))) ∧
  (∀ (s : State) (m : SvcRequest), answerable s m 1 = true → m.body = [] ∨ 4 < (m.body.headD 0).toNat →
    exec (.resync m) s = .next (closed s (respond (countedFor s 1) (asked m 1 0x10) 0 2 []))) ∧
  (∀ (s : State) (m : SvcRequest), answerable s m 1 = true → ∀ u, u = countedFor s 1 → exec (.partnerSync m) s =
    .next (closed s (respond (bulkAgain { u with span := { s.span with bulk := true } }) (asked m 1 0x11) 0 0 []))) ∧
  (∀ (s : State) (m : SvcRequest), answerable s m 2 = true →
    exec (.authRetry m) s = .next (closed s (respond (forEach (countedFor s 2) (List.range 8) (fun s l =>
      setLink s l { linkOf s l with retryAt := 0 })) (asked m 2 0x11) 0 0 [])) ∧
    exec (.linkInfo m) s = .next (closed s (respond (fresh (countedFor s 2)).2 (asked m 2 0x10) 0 0 [(fresh s).1]))) ∧
  (∀ (s a b : State) (m : SvcRequest), answerable s m 3 = true → a = storeObj (countedFor s 3) 3 m.key.toNat m.body → b = (fresh (fresh a).2).2 →
    exec (.instanceSet m) s = .next (closed s (respond { b with tcPorts := (fresh a).1, ptpPorts := (fresh (fresh a).2).1 } (asked m 3 0x10) 0 0 [])) ∧
    exec (.datasetGet m) s = .next (closed s (respond (fresh (countedFor s 3)).2 (asked m 3 0x11) 0 0 [(fresh s).1]))) ∧
  (∀ (s : State) (m : SvcRequest) (q : Nat) (t : Nat × Bool), answerable s m 4 = true → q = leNat (m.body.take 2) → 2 ≤ m.body.length →
    queueNo q = true → q < 1024 → oldestRecord s q = some t →
    exec (.queueInfo m) s = .next (closed s (respond (countedFor s 4) (asked m 4 0x10) 0 0 [(cqOf s q).records.length,
      ((cqOf s q).records.flatMap (fun r => r.pages)).eraseDups.length, tb0Ns s (now s) - t.1]))) ∧
  (∀ (s : State) (m : SvcRequest), m.body.length < 2 → answerable s m 4 = true →
    exec (.queueInfo m) s = .next (closed s (respond (countedFor s 4) (asked m 4 0x10) 0 2 []))) ∧
  (∀ (s : State) (m : SvcRequest),
    (answerable s m 4 = true → exec (.indexCheck m) s = .next (closed s (respond (fresh (countedFor s 4)).2 (asked m 4 0x11) 0 0 [(fresh s).1]))) ∧
    (answerable s m 7 = true → exec (.segmentNodes m) s = .next (closed s (respond (fresh (countedFor s 7)).2 (asked m 7 0x11) 0 0 [(fresh s).1]))) ∧
    (answerable s m 8 = true → exec (.portStateGet m) s = .next (closed s (respond (fresh (countedFor s 8)).2 (asked m 8 0x11) 0 0 [(fresh s).1])) ∧
      exec (.neighboursGet m) s = .next (closed s (respond (fresh (countedFor s 8)).2 (asked m 8 0x12) 0 0 [(fresh s).1]))) ∧
    (answerable s m 9 = true → exec (.caStatus m) s = .next (closed s (respond (fresh (countedFor s 9)).2 (asked m 9 0x11) 0 0 [(fresh s).1]))) ∧
    (answerable s m 10 = true → exec (.footwayStatus m) s = .next (closed s (respond (fresh (countedFor s 10)).2 (asked m 10 0x10) 0 0 [(fresh s).1]))) ∧
    (answerable s m 12 = true → exec (.cageInfo m) s = .next (closed s (respond (fresh (countedFor s 12)).2 (asked m 12 0x10) 0 0 [(fresh s).1])))) ∧
  (∀ (s : State) (m : SvcRequest),
    (answerable s m 5 = true → exec (.mepSet m) s = .next (closed s (respond (storeObj (countedFor s 5) 5 m.key.toNat m.body) (asked m 5 0x10) 0 0 [])) ∧
      exec (.measureStart m) s = .next (closed s (respond (fresh (storeObj (countedFor s 5) 5 m.key.toNat m.body)).2 (asked m 5 0x11) 0 0 [(fresh s).1]))) ∧
    (answerable s m 6 = true → exec (.subscribe m) s = .next (closed s (respond (storeObj (countedFor s 6) 6 m.key.toNat m.body) (asked m 6 0x10) 0 0 [])) ∧
      exec (.unsubscribe m) s = .next (closed s (respond (dropObj (countedFor s 6) 6 m.key.toNat) (asked m 6 0x11) 0 0 []))) ∧
    (answerable s m 7 = true → exec (.diagSchedule m) s = .next (closed s (respond (storeObj (countedFor s 7) 7 m.key.toNat m.body) (asked m 7 0x10) 0 0 []))) ∧
    (answerable s m 8 = true → exec (.bridgeSet m) s = .next (closed s (respond (storeObj (countedFor s 8) 8 m.key.toNat m.body) (asked m 8 0x10) 0 0 []))) ∧
    (answerable s m 9 = true → exec (.caSet m) s = .next (closed s (respond (storeObj (countedFor s 9) 9 m.key.toNat m.body) (asked m 9 0x10) 0 0 []))) ∧
    (answerable s m 12 = true → exec (.appSet m) s = .next (closed s (respond (storeObj (countedFor s 12) 12 m.key.toNat m.body) (asked m 12 0x11) 0 0 [])))) ∧
  (∀ (s : State) (m : SvcRequest), answerable s m 11 = true →
    (m.body.length = 32 → exec (.inspectRequest m) s = .next (closed s (respond (inspRequest (countedFor s 11) m.body).2 (asked m 11 0x10) 0 0
      (inspRequest (countedFor s 11) m.body).1))) ∧
    (m.body.length ≠ 32 → exec (.inspectRequest m) s = .next (closed s (respond (countedFor s 11) (asked m 11 0x10) 0 2 []))) ∧
    (∀ c, (inspCancel (countedFor s 11) (leNat (m.body.take 2))).1 = some c → exec (.inspectCancel m) s =
      .next (closed s (respond (inspCancel (countedFor s 11) (leNat (m.body.take 2))).2 (asked m 11 0x11) 0 0
        [leNat (m.body.take 2) % 256, leNat (m.body.take 2) / 256, c]))) ∧
    ((inspCancel (countedFor s 11) (leNat (m.body.take 2))).1 = none → exec (.inspectCancel m) s =
      .next (closed s (respond (inspCancel (countedFor s 11) (leNat (m.body.take 2))).2 (asked m 11 0x11) 0 2 []))))

/-! ### Host rings (chapter 14) -/

/-- R427, R429, R430, R441, R445, R449: doorbells, the reads of prod and cons, a ring's enable and disable, the moderation timer. Entries
fetched and not started are given up when their ring is disabled (log 94). Rests on the model's choices in log 94, 153. -/
def Obligations.RingsAndDoorbells : Prop :=
  (∀ (s u : State) (r : Requester) (n : BitVec 8) (x : SqRing), opened s r (sqPage n.toNat) 0x100 = true → u = written s (sqPage n.toNat) 0x100 0 →
    x = sqOf s n.toNat →
    (x.on = false ∨ halted s = true → exec (.sqDoorbell r n) s = .next (closed s { u with resp := .done })) ∧
    (x.on = true → halted s = false → x.reading = true →
      exec (.sqDoorbell r n) s = .next (closed s { setSq u n.toNat { x with again := true } with resp := .done })) ∧
    (x.on = true → halted s = false → x.reading = false →
      (pcieLive s = true → exec (.sqDoorbell r n) s = .next (closed s
        { emit (setSq u n.toNat { x with reading := true, readDue := false }) (.hostRead x.rcb 4) with resp := .done })) ∧
      (pcieLive s = false → exec (.sqDoorbell r n) s = .next (closed s
        { setSq u n.toNat { x with reading := true, readDue := true } with resp := .done })))) ∧
  (∀ (s : State) (n : BitVec 8) (x : SqRing), x = sqOf s n.toNat →
    (hostLive s = false ∨ x.on = false ∨ x.reading = false ∨ x.readDue = true →
      ∀ v : HostRead Word, exec (.rcbProdRead n v) s = .next (closed s s)) ∧
    (hostLive s = true → x.on = true → x.reading = true → x.readDue = false →
      exec (.rcbProdRead n .error) s = .next (closed s (halt s 10 n.toNat false (sqConsOf s n.toNat).toNat [])) ∧
      (∀ v : Word, x.size < (v - sqConsOf s n.toNat).toNat →
        exec (.rcbProdRead n (.ok v)) s = .next (closed s (halt s 2 n.toNat false (sqConsOf s n.toNat).toNat []))) ∧
      (∀ v : Word, (v - sqConsOf s n.toNat).toNat ≤ x.size →
        (x.again = false → exec (.rcbProdRead n (.ok v)) s = .next (closed s (setSq (wr s (sqPage n.toNat) 0x120 v) n.toNat
          { x with reading := false }))) ∧
        (x.again = true → exec (.rcbProdRead n (.ok v)) s = .next (closed s (emit (setSq (wr s (sqPage n.toNat) 0x120 v) n.toNat
          { x with again := false }) (.hostRead x.rcb 4))))))) ∧
  (∀ (s : State) (n : BitVec 8), (hostLive s = false ∨ (cqRing s n.toNat).on = false → ∀ v : HostRead Word, exec (.cqReread n v) s = .next (closed s s)) ∧
    (hostLive s = true → (cqRing s n.toNat).on = true →
      exec (.cqReread n .error) s = .next (closed s (halt s 10 n.toNat true 0 [])) ∧
      (∀ v : Word, (cqRing s n.toNat).size < (cqProd s n.toNat - v).toNat →
        exec (.cqReread n (.ok v)) s = .next (closed s (halt s 11 n.toNat true 0 []))) ∧
      (∀ (v : Word) (u : State), (cqProd s n.toNat - v).toNat ≤ (cqRing s n.toNat).size → u = wr s (cqPage n.toNat) 0x124 v →
        ((cqRing s n.toNat).held = [] → exec (.cqReread n (.ok v)) s = .next (closed s u)) ∧
        (∀ (c : Compl) (l : List Compl), (cqRing s n.toNat).held = c :: l →
          (freeRecords u n.toNat < c.records → exec (.cqReread n (.ok v)) s = .next (closed s u)) ∧
          (c.records ≤ freeRecords u n.toNat → exec (.cqReread n (.ok v)) s = .next (closed s
            (drainCq (writeCompl (setCqRing u n.toNat { cqRing s n.toNat with held := l }) n.toNat c) n.toNat l.length))))))) ∧
  (∀ (s u : State) (r : Requester) (n : BitVec 8) (c : HostRead Word), opened s r (cqPage n.toNat) 0x100 = true →
    u = written s (cqPage n.toNat) 0x100 0 →
    exec (.cqDoorbell r n c) s = .next (closed s (cqConsIn { cqDoor u n.toNat with resp := .done } n.toNat c)) ∧
    ((cqRing s n.toNat).on = false ∨ halted s = true → cqDoor u n.toNat = u) ∧
    ((cqRing s n.toNat).on = true → halted s = false →
      (pcieLive s = true → cqDoor u n.toNat = emit u (.hostRead (cqRing s n.toNat).rcb 4)) ∧
      (pcieLive s = false → cqDoor u n.toNat = setCqRing u n.toNat { cqRing s n.toNat with readDue := true }))) ∧
  (∀ (s : State) (n : BitVec 8), ((cqRing s n.toNat).since = none → exec (.cqModTimer n) s = .next (closed s s)) ∧
    (∀ b : Nat, (cqRing s n.toNat).since = some b →
      (b + usUnits (fld s (cqPage n.toNat) 0x118 31 16) ≤ now s →
        exec (.cqModTimer n) s = .next (closed s (setCqRing s n.toNat { cqRing s n.toNat with due := true }))) ∧
      (now s < b + usUnits (fld s (cqPage n.toNat) 0x118 31 16) → exec (.cqModTimer n) s = .next (closed s s)))) ∧
  (∀ (s u v : State) (r : Requester) (n : BitVec 8), opened s r (sqPage n.toNat) 0x104 = true →
    u = written s (sqPage n.toNat) 0x104 (rewritten s (sqPage n.toNat) 0x104 1 1) → v = sqEnable u n.toNat →
    (bitAt s (sqPage n.toNat) 0x104 0 = true → exec (.ringEnable r false n) s = .next (closed s { u with resp := .done })) ∧
    (bitAt s (sqPage n.toNat) 0x104 0 = false →
      exec (.ringEnable r false n) s = .next (closed s { v with resp := .done }) ∧ sqConsOf v n.toNat = 0 ∧ rd v (sqPage n.toNat) 0x120 = 0 ∧
      sqOf v n.toNat = {
        on := true, typ := fld s (sqPage n.toNat) 0x104 2 1, size := ringSize (fld s (sqPage n.toNat) 0x104 7 4),
        cq := fld s (sqPage n.toNat) 0x104 15 8,
        pipe := if 4 < fld s (sqPage n.toNat) 0x104 19 17 then 0 else fld s (sqPage n.toNat) 0x104 19 17, base := rd64 s (sqPage n.toNat) 0x108,
        rcb := rd64 s (sqPage n.toNat) 0x110, noSnoop := bitAt s (sqPage n.toNat) 0x104 16, inflight := (sqOf s n.toNat).inflight })) ∧
  (∀ (s u v : State) (r : Requester) (n : BitVec 8), opened s r (cqPage n.toNat) 0x104 = true →
    u = written s (cqPage n.toNat) 0x104 (rewritten s (cqPage n.toNat) 0x104 1 1) → v = cqEnable u n.toNat →
    (bitAt s (cqPage n.toNat) 0x104 0 = true → exec (.ringEnable r true n) s = .next (closed s { u with resp := .done })) ∧
    (bitAt s (cqPage n.toNat) 0x104 0 = false →
      exec (.ringEnable r true n) s = .next (closed s { v with resp := .done }) ∧ cqProd v n.toNat = 0 ∧ cqCons v n.toNat = 0 ∧
      cqRing v n.toNat = {
        on := true, size := ringSize (fld s (cqPage n.toNat) 0x104 7 4), vector := fld s (cqPage n.toNat) 0x104 17 9,
        irq := bitAt s (cqPage n.toNat) 0x104 18, base := rd64 s (cqPage n.toNat) 0x108, rcb := rd64 s (cqPage n.toNat) 0x110,
        reserved := (cqRing s n.toNat).reserved })) ∧
  (∀ (s u v : State) (r : Requester) (n : BitVec 8), opened s r (sqPage n.toNat) 0x104 = true →
    u = written s (sqPage n.toNat) 0x104 (rewritten s (sqPage n.toNat) 0x104 1 0) → v = sqDisable u n.toNat →
    (bitAt s (sqPage n.toNat) 0x104 0 = false → exec (.ringDisable r false n) s = .next (closed s { u with resp := .done })) ∧
    (bitAt s (sqPage n.toNat) 0x104 0 = true → exec (.ringDisable r false n) s = .next (closed s { v with resp := .done }) ∧
      sqOf v n.toNat = { sqOf s n.toNat with
        on := false, posted := [], fetched := [], waiting := false, reading := false, again := false,
        readDue := false } ∧
      ((sqOf s n.toNat).inflight = 0 → bitAt v (sqPage n.toNat) 0x118 0 = false))) ∧
  (∀ (s u v : State) (r : Requester) (n : BitVec 8), opened s r (cqPage n.toNat) 0x104 = true →
    u = written s (cqPage n.toNat) 0x104 (rewritten s (cqPage n.toNat) 0x104 1 0) → v = cqDisable u n.toNat →
    (bitAt s (cqPage n.toNat) 0x104 0 = false → exec (.ringDisable r true n) s = .next (closed s { u with resp := .done })) ∧
    (bitAt s (cqPage n.toNat) 0x104 0 = true → exec (.ringDisable r true n) s = .next (closed s { v with resp := .done }) ∧
      cqRing v n.toNat = { cqRing s n.toNat with on := false, held := [], due := false, readDue := false } ∧
      bitAt v (cqPage n.toNat) 0x11C 16 = false))

/-- R431 to R441: an entry of a ring is fetched, or halts the host path; fetched entries start in turn, or wait for completion room; what a
started entry of each type does; a frame for the host port goes to the ring that its host code steers to; the waits for a buffer and for a stamp. Rests on the model's choices in log 75, 93, 95, 96, 146. -/
def Obligations.RingEntriesAndHostFrames : Prop :=
  (∀ (s : State) (n : BitVec 8) (d : HostRead (List Byte)),
    (sqReady s n.toNat 0 = false → ∀ v : HostRead (List (BitVec 128)), exec (.txEntry n v d) s = .next (closed s (ringsGo s))) ∧
    (sqReady s n.toNat 1 = false → ∀ v : HostRead (List (BitVec 128)), exec (.rxEntry n v) s = .next (closed s s)) ∧
    (sqReady s n.toNat 2 = false → ∀ v : HostRead (List (BitVec 128)), exec (.svcEntry n v) s = .next (closed s (ringsGo s))) ∧
    (sqReady s n.toNat 3 = false → ∀ v : HostRead (List (BitVec 128)), exec (.copyEntry n v) s = .next (closed s (ringsGo s))) ∧
    (∀ t : State, t = halt (askSlots s n.toNat 1) 10 n.toNat false (sqConsOf s n.toNat).toNat [] →
      (sqReady s n.toNat 0 = true → exec (.txEntry n .error d) s = .next (closed s (ringsGo t))) ∧
      (sqReady s n.toNat 1 = true → exec (.rxEntry n .error) s = .next (closed s t)) ∧
      (sqReady s n.toNat 2 = true → exec (.svcEntry n .error) s = .next (closed s (ringsGo t))) ∧
      (sqReady s n.toNat 3 = true → exec (.copyEntry n .error) s = .next (closed s (ringsGo t))))) ∧
  (∀ (s a : State) (n : BitVec 8) (d : HostRead (List Byte)) (l : List (BitVec 128)) (h : BitVec 128) (k idx : Nat), sqReady s n.toNat 0 = true →
    h = l.headD 0 → k = sfld h 3 0 + 1 → a = askSlots s n.toNat k → idx = (sqConsOf s n.toNat).toNat →
    (txCause s n.toNat h (l.drop 1) ≠ 0 → exec (.txEntry n (.ok l) d) s = .next (closed s
      (ringsGo (halt a (txCause s n.toNat h (l.drop 1)) n.toNat false idx l)))) ∧
    (txCause s n.toNat h (l.drop 1) = 0 → slotsFit s n.toNat k = false → exec (.txEntry n (.ok l) d) s = .next (closed s (ringsGo s))) ∧
    (txCause s n.toNat h (l.drop 1) = 0 → slotsFit s n.toNat k = true → exec (.txEntry n (.ok l) d) s = .next (closed s
      (ringsGo (fetchEntry a n.toNat { index := idx, count := k, slots := l, data := d }))))) ∧
  (∀ (s a : State) (n : BitVec 8) (h : BitVec 128) (idx : Nat), sqReady s n.toNat 1 = true → a = askSlots s n.toNat 1 → idx = (sqConsOf s n.toNat).toNat →
    (sfld h 3 0 ≠ 0 → exec (.rxEntry n (.ok [h])) s = .next (closed s (halt a 1 n.toNat false idx [h]))) ∧
    (sfld h 3 0 = 0 → sfld h 31 18 ≠ 0 → exec (.rxEntry n (.ok [h])) s = .next (closed s (halt a 3 n.toNat false idx [h]))) ∧
    (sfld h 3 0 = 0 → sfld h 31 18 = 0 → sfld h 17 4 < 64 → exec (.rxEntry n (.ok [h])) s = .next (closed s (halt a 7 n.toNat false idx [h]))) ∧
    (sfld h 3 0 = 0 → sfld h 31 18 = 0 → 64 ≤ sfld h 17 4 →
      (slotsFit s n.toNat 1 = false → exec (.rxEntry n (.ok [h])) s = .next (closed s s)) ∧
      (slotsFit s n.toNat 1 = true → exec (.rxEntry n (.ok [h])) s = .next (closed s (passSlots a n.toNat 1 { sqOf s n.toNat with
        posted := (sqOf s n.toNat).posted ++ [{ index := sqConsOf s n.toNat, tag := sfld h 63 32, len := sfld h 17 4, addr := sfld h 127 64 }] }))))) ∧
  (∀ (s a : State) (n : BitVec 8) (l : List (BitVec 128)) (h : BitVec 128) (k idx : Nat) (m : SvcRequest), sqReady s n.toNat 2 = true → h = l.headD 0 →
    k = sfld h 23 20 + 1 → a = askSlots s n.toNat k → idx = (sqConsOf s n.toNat).toNat → m = slotMsg n.toNat (l.take k) →
    (slotsLeft s n.toNat < k → exec (.svcEntry n (.ok l)) s = .next (closed s (ringsGo (halt a 1 n.toNat false idx l)))) ∧
    (k ≤ slotsLeft s n.toNat →
      (sfld h 19 19 ≠ 0 ∨ sfld h 63 48 ≠ 0 ∨ sfld h 127 104 ≠ 0 →
        exec (.svcEntry n (.ok l)) s = .next (closed s (ringsGo (halt a 3 n.toNat false idx l)))) ∧
      (sfld h 19 19 = 0 → sfld h 63 48 = 0 → sfld h 127 104 = 0 →
        (16 * (k - 1) < sfld h 103 96 → exec (.svcEntry n (.ok l)) s = .next (closed s (ringsGo (halt a 8 n.toNat false idx l)))) ∧
        (sfld h 103 96 ≤ 16 * (k - 1) →
          (embTakes s m = false ∨ slotsFit s n.toNat k = false → exec (.svcEntry n (.ok l)) s = .next (closed s (ringsGo s))) ∧
          (embTakes s m = true → slotsFit s n.toNat k = true → exec (.svcEntry n (.ok l)) s = .next (closed s
            (ringsGo (fetchEntry a n.toNat { index := idx, count := k, slots := l, msg := some m })))))))) ∧
  (∀ (s c : State) (n : BitVec 8) (a b : BitVec 128) (idx : Nat), sqReady s n.toNat 3 = true → c = askSlots s n.toNat 2 → idx = (sqConsOf s n.toNat).toNat →
    (sfld a 3 0 ≠ 1 ∨ sfld a 95 64 = 0 → exec (.copyEntry n (.ok [a, b])) s = .next (closed s (ringsGo (halt c 9 n.toNat false idx [a, b])))) ∧
    (sfld a 3 0 = 1 → sfld a 95 64 ≠ 0 →
      (slotsLeft s n.toNat < 2 → exec (.copyEntry n (.ok [a, b])) s = .next (closed s (ringsGo (halt c 1 n.toNat false idx [a, b])))) ∧
      (2 ≤ slotsLeft s n.toNat → sfld a 31 15 ≠ 0 → exec (.copyEntry n (.ok [a, b])) s = .next (closed s (ringsGo (halt c 3 n.toNat false idx [a, b])))) ∧
      (2 ≤ slotsLeft s n.toNat → sfld a 31 15 = 0 → slotsFit s n.toNat 2 = false → exec (.copyEntry n (.ok [a, b])) s = .next (closed s (ringsGo s))) ∧
      (2 ≤ slotsLeft s n.toNat → sfld a 31 15 = 0 → slotsFit s n.toNat 2 = true → exec (.copyEntry n (.ok [a, b])) s = .next (closed s
        (ringsGo (fetchEntry c n.toNat { index := idx, count := 2, slots := [a, b] })))))) ∧
  (∀ (s : State) (k : Nat), (nextRing s = none → moveRings k s = s) ∧
    (∀ n : Nat, nextRing s = some n → (entryMove s n = some true → moveRings (k + 1) s = moveRings k (startFront s n)) ∧
      (entryMove s n = some false → moveRings (k + 1) s = moveRings k (blockEntry s n (sqOf s n).cq)) ∧ entryMove s n ≠ none ∧
      (∀ (f : Fetched) (rest : List Fetched), (sqOf s n).fetched = f :: rest → (entryMove s n = some true ↔ mayStart s n (recordsNeeded (sqOf s n).typ f) = true)))) ∧
  (∀ (s : State) (n : Nat) (f : Fetched) (rest : List Fetched), (sqOf s n).fetched = f :: rest →
    ((sqOf s n).typ = 0 → startFront s n = txStart s n f) ∧
    (∀ m : SvcRequest, (sqOf s n).typ = 2 → f.msg = some m → startFront s n = embDeliver (startEntry s n (if m.noResp then 0 else 9)) m f.index) ∧
    ((sqOf s n).typ = 3 → ∃ u, u = startEntry s n 2 ∧ startFront s n = setChan u (sfld (f.slots.headD 0) 7 4)
      { chanOf u (sfld (f.slots.headD 0) 7 4) with entries := (chanOf u (sfld (f.slots.headD 0) 7 4)).entries ++
        [{
           ring := n, waitLift := decide (sfld (f.slots.headD 0) 8 8 = 1), srcSpace := sfld (f.slots.headD 0) 11 9,
           dstSpace := sfld (f.slots.headD 0) 14 12, tag := sfld (f.slots.headD 0) 63 32, len := sfld (f.slots.headD 0) 95 64,
           xform := sfld (f.slots.headD 0) 127 96, src := sfld ((f.slots.drop 1).headD 0) 63 0, dst := sfld ((f.slots.drop 1).headD 0) 127 64,
           index := f.index }] })) ∧
  (∀ (s u : State) (n : Nat) (f : Fetched) (h : BitVec 128) (k : Nat) (c : Compl), h = f.slots.headD 0 → k = (if sfld h 6 5 = 1 then 2 else 1) →
    u = forEach (startEntry s n k) (f.slots.drop 1) (fun s g => emit s (.hostRead (sfld g 63 0) (sfld g 77 64) (sqOf s n).noSnoop)) →
    c = { typ := 0, index := f.index, tag := sfld h 95 64, records := k } →
    (f.data = .error → txStart s n f = complete (raise (countReason u 8 0xC5) rngPage 3 0xC5) n { c with status := 0xC5, data := leBytes 16 0 }) ∧
    (∀ (bs bytes : List Byte) (x : Frame), f.data = .ok bs → bytes = fitBytes (max 60 (sfld h 45 32)) (fitBytes (sfld h 45 32) bs) →
      x = {
            id := u.nextId, bytes := bytes, ingress := 112, ts := stampNow u % 2 ^ 64, tc := (if sfld h 4 4 = 1 then sfld h 18 16 else 0),
            tsTag := (if sfld h 6 5 = 1 then some (n, sfld h 95 64) else none), ptp := (if sfld h 6 5 = 2 then 1 else 0),
            parser := if sfld h 4 4 = 1 then some (sqOf u n).pipe else none } →
      (∀ t : State, grant { u with nextId := u.nextId + 1 } .granules 5 (granulesOf x) 8 = (none, t) →
        txStart s n f = complete t n { c with status := grantVerdict u .granules 5 (granulesOf x), data := leBytes 16 0 }) ∧
      (∀ (b : Nat) (t : State), grant { u with nextId := u.nextId + 1 } .granules 5 (granulesOf x) 8 = (some b, t) →
        (sfld h 4 4 = 0 → txStart s n f = complete (pipeArrive t (sqOf t n).pipe { frame := x, buf := b }) n { c with data := leBytes 16 bytes.length }) ∧
        (sfld h 4 4 ≠ 0 → sfld h 6 5 ≠ 1 →
          txStart s n f = complete (addCopy t { frame := x, port := sfld h 15 8, buf := b }) n { c with data := leBytes 16 bytes.length }) ∧
        (∀ v : State, v = addCopy t { frame := x, port := sfld h 15 8, buf := b } → sfld h 4 4 ≠ 0 → sfld h 6 5 = 1 → txStart s n f =
          { v with txWait := v.txWait ++ [{ ring := n, tag := sfld h 95 64, index := f.index, len := bytes.length, sel := decide (sfld h 7 7 = 1), since := now v }] })))) ∧
  (∀ (s t g : State) (tc : BitVec 3) (c tier : Nat) (f : QFrame), chooseNow s 112 = (some (c, tier, f), t, g) →
    (c ≠ tc.toNat → exec (.hostFrameDeliver tc) s = .next (closed s s)) ∧
    (c = tc.toNat → ∀ (u : State) (q n : Nat), u = chargeNow g 112 c tier f → q = qIdx 112 c → n = rxRing s f.frame →
      (hostBar s f.frame ≠ 0 → exec (.hostFrameDeliver tc) s = .next (closed s (hostDrop u q f (hostBar s f.frame)))) ∧
      (hostBar s f.frame = 0 → (sqOf s n).posted = [] → exec (.hostFrameDeliver tc) s =
        .next (closed s { t with rxWait := mapSet (fun _ => none) t.rxWait c (some (f.seq, now s)) })) ∧
      (∀ (b : RxBuf) (rest : List RxBuf) (v w : State) (d : List Byte × State), hostBar s f.frame = 0 → (sqOf s n).posted = b :: rest →
        v = takeHead { u with rxWait := mapSet (fun _ => none) u.rxWait c none } q f →
        w = emit (startEntry (setHeld v n { sqOf v n with posted := rest }) n 2)
          (.hostWrite b.addr (f.frame.bytes.take (min b.len f.frame.bytes.length)) (sqOf v n).noSnoop) →
        d = rxData (if b.len < f.frame.bytes.length then countReason w 8 0xC4 else w) f.frame (min b.len f.frame.bytes.length) →
        (mayStart s n 2 = false → exec (.hostFrameDeliver tc) s = .next (closed s { blockEntry t n (sqOf s n).cq with
          rxWait := mapSet (fun _ => none) (blockEntry t n (sqOf s n).cq).rxWait c (some (f.seq, now s)) })) ∧
        (mayStart s n 2 = true → exec (.hostFrameDeliver tc) s = .next (closed s (complete d.2 n {
          typ := 1, status := (if b.len < f.frame.bytes.length then 0xC4 else 0), index := b.index.toNat, tag := b.tag, records := 2, data := d.1 })))))) ∧
  (∀ (s t g : State) (tc : BitVec 3), chooseNow s 112 = (none, t, g) → exec (.hostFrameDeliver tc) s = .next (closed s g)) ∧
  (∀ (s : State) (f : Frame), rxRing s f = efld (tget s rngPage 0 0 f.hostCode) 7 0 ∧ (hostLive s = false → hostBar s f = 0xC1) ∧
    (hostLive s = true → ebit (tget s rngPage 0 0 f.hostCode) 8 = false ∨ (sqOf s (rxRing s f)).on = false ∨ (sqOf s (rxRing s f)).typ ≠ 1 →
      hostBar s f = 0xC3) ∧
    (hostLive s = true → ebit (tget s rngPage 0 0 f.hostCode) 8 = true → (sqOf s (rxRing s f)).on = true → (sqOf s (rxRing s f)).typ = 1 → hostBar s f = 0)) ∧
  (∀ (s : State) (tc : BitVec 3), (headOf s (qIdx 112 tc.toNat) = none ∨ rxSince s tc.toNat = none → exec (.rxWaitExpire tc) s = .next (closed s s)) ∧
    (∀ (f : QFrame) (b : Nat), headOf s (qIdx 112 tc.toNat) = some f → rxSince s tc.toNat = some b →
      (b + usUnits (fld s rngPage 0x100 15 0) ≤ now s → exec (.rxWaitExpire tc) s = .next (closed s (hostDrop s (qIdx 112 tc.toNat) f 0xC2))) ∧
      (now s < b + usUnits (fld s rngPage 0x100 15 0) → exec (.rxWaitExpire tc) s = .next (closed s s)))) ∧
  (∀ (s : State) (tag : Word), ((∀ w ∈ s.txWait, w.tag = tag.toNat → now s < w.since + msUnits 10) → exec (.tsTimeout tag) s = .next (closed s s)) ∧
    (∀ (w : TxWait) (rest : List TxWait), s.txWait = w :: rest → w.tag = tag.toNat → w.since + msUnits 10 ≤ now s →
      ∃ u, u = raise (inc (countReason s 8 0xC6) rngPage 0x110) rngPage 4 0xC6 ∧ exec (.tsTimeout tag) s = .next (closed s (complete
        { u with txWait := rest } w.ring { typ := 0, status := 0xC6, index := w.index, tag := tag.toNat, records := 2, data := leBytes 16 w.len }))))

/-! ### Copy channels and capture partitions (chapters 15 and 16) -/

/-- R456 to R467: a channel starts its next entry or refuses it; reads are issued while the channel's token bucket is above 0; a beat of a read
moves bytes, asks on, ends the entry, or fails it; the scratch area. Rests on the model's choices in log 97, 98, 152. -/
def Obligations.CopyChannelsAndScratch : Prop :=
  (∀ (s : State) (c : BitVec 4), ((chanOf s c.toNat).entries = [] → exec (.copyExecute c) s = .next (closed s s)) ∧
    (∀ (e : ChanEntry) (rest : List ChanEntry), (chanOf s c.toNat).entries = e :: rest →
      (e.running = true ∨ e.waitLift = true ∨ halted s = true ∨ serving s dmaPage = false ∨ draining s dmaPage = true ∨
        ((e.srcSpace = 0 ∨ e.dstSpace = 0) ∧ pcieLive s = false) → exec (.copyExecute c) s = .next (closed s s)) ∧
      (e.running = false → e.waitLift = false → halted s = false → serving s dmaPage = true → draining s dmaPage = false →
        (e.srcSpace ≠ 0 ∧ e.dstSpace ≠ 0) ∨ pcieLive s = true →
        (copyVerdict s e ≠ 0 → exec (.copyExecute c) s = .next (closed s (copyDone s c.toNat (copyVerdict s e)))) ∧
        (copyVerdict s e = 0 → exec (.copyExecute c) s = .next (closed s (issueReads (setChan s c.toNat { chanOf s c.toNat with
          entries := { e with
            running := true, due := true, gen := if e.srcSpace = 1 then some (bufOf s .pages (e.src / 4096)).gen else none } :: rest, used := shareFrom s c.toNat })))))) ) ∧
  (∀ (s : State) (e : ChanEntry), (3 < e.srcSpace ∨ 3 < e.dstSpace ∨ e.dstSpace = 1 ∨ e.dstSpace = 2 → copyVerdict s e = 0xD9) ∧
    (e.srcSpace = 0 → e.dstSpace = 0 → e.xform = 0 → (copyVerdict s e = 0 ↔ (e.src + e.len ≤ 2 ^ 64 ∧ e.dst + e.len ≤ 2 ^ 64))) ∧
    (e.srcSpace = 3 → e.dstSpace = 3 → e.xform = 0 → e.src < e.dst + e.len → e.dst < e.src + e.len → copyVerdict s e = 0xD9) ∧
    (e.srcSpace = 1 → e.dstSpace = 0 → e.xform = 0 → e.src < 2 ^ 42 → e.src % 4096 + e.len ≤ 4096 → e.dst + e.len ≤ 2 ^ 64 →
      copyVerdict s e = if pageReadable s (e.src / 4096) then 0 else 0xDA) ∧
    (e.srcSpace = 2 → e.dstSpace = 0 → e.xform = 0 → e.src % 2 ^ 60 + e.len ≤ (capOf s (e.src / 2 ^ 60)).size * 4096 → e.dst + e.len ≤ 2 ^ 64 →
      copyVerdict s e = if capState s (e.src / 2 ^ 60) = 4 then 0 else 0xDC)) ∧
  (∀ (s : State) (c : Nat) (e : ChanEntry) (rest : List ChanEntry), (chanOf s c).entries = e :: rest → e.running = true → e.due = true →
    (chanRate s c ≠ 0 → (fillChan s c (chanRate s c)).fill ≤ 0 → readReady s c = false) ∧ (fillChan s c (chanRate s c)).fill ≤ 65536 * 12288 ∧
    (chanOf (issueRead s c) c).entries = { e with asked := e.asked + readLen e, due := false } :: rest ∧ readLen e ≤ 512 ∧
    (e.src + e.asked + readLen e - 1) / 512 * 512 ≤ e.src + e.asked ∧
    (chanRate s c ≠ 0 → (chanOf (issueRead s c) c).fill = (fillChan s c (chanRate s c)).fill - (readLen e * 12288 : Nat)) ∧
    (e.srcSpace = 0 → (issueRead s c).out = s.out ++ [.hostRead (e.src + e.asked) (readLen e) (sqOf s e.ring).noSnoop]) ∧
    (e.srcSpace ≠ 0 → (issueRead s c).out = s.out)) ∧
  (∀ (s : State) (c : BitVec 4) (d : HostRead (List Byte)) (last : Bool), ((chanOf s c.toNat).entries = [] →
      exec (.copyReadResponse c d last) s = .next (closed s s)) ∧
    (∀ (e : ChanEntry) (rest : List ChanEntry), (chanOf s c.toNat).entries = e :: rest →
      (e.running = false ∨ e.asked ≤ e.got.length → exec (.copyReadResponse c d last) s = .next (closed s s)) ∧
      (e.running = true → e.got.length < e.asked →
        (beatData s e d = .error → halted s = true → exec (.copyReadResponse c d last) s = .next (closed s s)) ∧
        (beatData s e d = .error → halted s = false →
          (e.srcSpace = 0 → exec (.copyReadResponse c d last) s = .next (closed s (copyDone s c.toNat (if last && e.asked == e.len then 0xDE else 0xD8)))) ∧
          (e.srcSpace ≠ 0 → exec (.copyReadResponse c d last) s = .next (closed s (raise
            (copyDone s c.toNat (if last && e.asked == e.len then 0xDF else 0xDD)) dmaPage 3 0 c.toNat)))) ∧
        (∀ (bs got : List Byte) (r : ChanEntry × State) (e' : ChanEntry), beatData s e d = .ok bs →
          got = (numbered e.got.length (bs.take (e.asked - e.got.length))).map (fun b => srcByte s e b.1 b.2) →
          r = writeOut s e (if (xformOf e.xform).op = 0 then numbered e.got.length got else (xformOf e.xform).output e.len e.got.length (e.got ++ got)) →
          e' = { r.1 with got := r.1.got ++ got } →
          (e'.got.length < e.asked ∨ halted s = true → exec (.copyReadResponse c d last) s =
            .next (closed s (setChan r.2 c.toNat { chanOf r.2 c.toNat with entries := e' :: rest }))) ∧
          (e.asked ≤ e'.got.length → halted s = false →
            (e.asked < e.len → exec (.copyReadResponse c d last) s =
              .next (closed s (issueReads (setChan r.2 c.toNat { chanOf r.2 c.toNat with entries := { e' with due := true } :: rest })))) ∧
            (∀ t : State, e.len ≤ e.asked → t = setChan r.2 c.toNat { chanOf r.2 c.toNat with entries := e' :: rest } →
              (e.srcSpace = 1 → pageReadable t (e.src / 4096) = false ∨ e.gen ≠ some (bufOf t .pages (e.src / 4096)).gen →
                exec (.copyReadResponse c d last) s = .next (closed s (copyDone t c.toNat 0xDB))) ∧
              (e.srcSpace ≠ 1 ∨ (pageReadable t (e.src / 4096) = true ∧ e.gen = some (bufOf t .pages (e.src / 4096)).gen) →
                exec (.copyReadResponse c d last) s = .next (closed s (copyDone t c.toNat 0))))))))) ∧
  (∀ (s : State) (e : ChanEntry), beatData s e .error = .error ∧ (∀ bs : List Byte, e.srcSpace = 0 → beatData s e (.ok bs) = .ok bs) ∧
    (∀ bs : List Byte, s.dramBad = [] → beatData s e (.ok bs) = .ok bs) ∧ (∀ (i : Nat) (b : Byte), e.srcSpace = 0 → srcByte s e i b = b)) ∧
  (∀ (s : State) (c status : Nat) (e : ChanEntry) (rest : List ChanEntry), (chanOf s c).entries = e :: rest → ∃ d u,
    copyDone s c status = complete u e.ring { typ := 3, status := status, index := e.index, tag := e.tag, records := 2, data := d } ∧
    d = leBytes 48 (e.got.length + e.written * 2 ^ 32 + e.dirtyLo % 2 ^ 64 * 2 ^ 64 + e.dirtyHi % 2 ^ 64 * 2 ^ 128 + c * 2 ^ 192 + now s % 2 ^ 64 * 2 ^ 256) ∧
    (chanOf u c).entries = rest ∧ (status ≠ 0 → bitAt u dmaPage 0x020 0 = true ∧
    efld (tget u (8 * 4096) 0 0 status) 63 0 = (efld (tget s (8 * 4096) 0 0 status) 63 0 + 1) % 2 ^ 64)) ∧
  (∀ (s u : State) (r : Requester) (v : Word), opened s r dmaPage 0x104 = true → u = written s dmaPage 0x104 (v.toNat ||| 2 ^ 31) →
    (s.scratchNew.isSome = true → exec (.scratchResize r v) s = .next (closed s { scratchRefuse u 3 with resp := .done })) ∧
    (s.scratchNew = none → scratchNamed s = true → exec (.scratchResize r v) s = .next (closed s { scratchRefuse u 1 with resp := .done })) ∧
    (∀ (t : State), s.scratchNew = none → scratchNamed s = false → grantPages u 6 8 none (v.toNat % 2 ^ 28) [] = (none, t) →
      exec (.scratchResize r v) s = .next (closed s { scratchRefuse t 2 with resp := .done })) ∧
    (∀ (l : List Nat) (t : State), s.scratchNew = none → scratchNamed s = false → grantPages u 6 8 none (v.toNat % 2 ^ 28) [] = (some l, t) →
      exec (.scratchResize r v) s = .next (closed s { setBit { t with scratchNew := some l } dmaPage 0x108 0 true with resp := .done }))) ∧
  (∀ s : State, (s.scratchNew = none → exec .scratchDone s = .next (closed s s)) ∧
    (∀ (l : List Nat) (u : State), s.scratchNew = some l → u = forEach s s.scratch (fun s p => opRelease s .pages p 6) →
      exec .scratchDone s = .next (closed s (setBit (setBit (wr64 { u with scratch := l, scratchNew := none, scratchMem := [] } dmaPage 0x110 l.length)
        dmaPage 0x108 0 false) dmaPage 0x108 1 true))))

/-- R483 to R486: the state machine of a capture partition, the header of a record, and a record that is lost. Rests on the model's choices in log 5, 118. -/
def Obligations.CapturePartitions : Prop :=
  (∀ (s u : State) (r : Requester) (n : BitVec 4), opened s r capPage (capOff n.toNat) = true →
    u = written s capPage (capOff n.toNat) (rewritten s capPage (capOff n.toNat) 1 1) →
    (bitAt s capPage (capOff n.toNat) 0 = true → exec (.captureEnable r n true) s = .next (closed s { u with resp := .done })) ∧
    (bitAt s capPage (capOff n.toNat) 0 = false →
      (fld s capPage (capOff n.toNat + 4) 27 0 < 16 → exec (.captureEnable r n true) s = .next (closed s { capRefuse u n.toNat 3 with resp := .done })) ∧
      (∀ (t : State), 16 ≤ fld s capPage (capOff n.toNat + 4) 27 0 →
        grantPages u 5 6 none (fld s capPage (capOff n.toNat + 4) 27 0) [] = (none, t) →
        exec (.captureEnable r n true) s = .next (closed s { capRefuse t n.toNat 2 with resp := .done })) ∧
      (∀ (l : List Nat) (t : State), 16 ≤ fld s capPage (capOff n.toNat + 4) 27 0 →
        grantPages u 5 6 none (fld s capPage (capOff n.toNat + 4) 27 0) [] = (some l, t) →
        exec (.captureEnable r n true) s = .next (closed s { setCapState (setCap t n.toNat { size := fld s capPage (capOff n.toNat + 4) 27 0, pages := l })
          n.toNat 1 with resp := .done })))) ∧
  (∀ (s u : State) (r : Requester) (n : BitVec 4), opened s r capPage (capOff n.toNat) = true →
    u = written s capPage (capOff n.toNat) (rewritten s capPage (capOff n.toNat) 1 0) →
    (bitAt s capPage (capOff n.toNat) 0 = false → exec (.captureEnable r n false) s = .next (closed s { u with resp := .done })) ∧
    (bitAt s capPage (capOff n.toNat) 0 = true →
      (capNamed s n.toNat = true → exec (.captureEnable r n false) s = .next (closed s { capRefuse (setBit u capPage (capOff n.toNat) 0 true) n.toNat 1
        with resp := .done })) ∧
      (capNamed s n.toNat = false → capState s n.toNat = 0 → exec (.captureEnable r n false) s = .next (closed s { u with resp := .done })) ∧
      (capNamed s n.toNat = false → capState s n.toNat ≠ 0 → exec (.captureEnable r n false) s = .next (closed s { setCapState (setCap
        (forEach u (capOf s n.toNat).pages (fun s p => opRelease s .pages p 5)) n.toNat {}) n.toNat 0 with resp := .done })))) ∧
  (∀ (s u : State) (r : Requester) (n : BitVec 4), opened s r capPage (capOff n.toNat + 0x0C) = true → u = written s capPage (capOff n.toNat + 0x0C) 1 →
    (capState s n.toNat ≠ 1 → capState s n.toNat ≠ 4 → exec (.captureArm r n) s = .next (closed s { u with resp := .done })) ∧
    (capState s n.toNat = 1 ∨ capState s n.toNat = 4 →
      (capNamed s n.toNat = true → exec (.captureArm r n) s = .next (closed s { capRefuse u n.toNat 1 with resp := .done })) ∧
      (capNamed s n.toNat = false → exec (.captureArm r n) s = .next (closed s { capArm u n.toNat with resp := .done }) ∧
        capState (capArm u n.toNat) n.toNat = 2 ∧ (capOf (capArm u n.toNat) n.toNat).recs = [] ∧
        (capOf (capArm u n.toNat) n.toNat).pages = (capOf s n.toNat).pages ∧ rd64 (capArm u n.toNat) capPage (capOff n.toNat + 0x18) = 0 ∧
        rd64 (capArm u n.toNat) capPage (capOff n.toNat + 0x20) = 0))) ∧
  (∀ (s u : State) (r : Requester) (n : BitVec 4), opened s r capPage (capOff n.toNat + 0x0C) = true → u = written s capPage (capOff n.toNat + 0x0C) 2 →
    (capState s n.toNat = 2 → exec (.captureTrigger r n) s = .next (closed s { capTrigger u n.toNat with resp := .done }) ∧
      capState (capTrigger u n.toNat) n.toNat = 3 ∧ rd64 (capTrigger u n.toNat) capPage (capOff n.toNat + 0x28) = now s % 2 ^ 64 ∧
      rd64 (capTrigger u n.toNat) capPage (capOff n.toNat + 0x30) = rd64 s capPage (capOff n.toNat + 0x20) ∧
      bitAt (capTrigger u n.toNat) capPage 0x020 0 = true) ∧
    (capState s n.toNat = 1 ∨ capState s n.toNat = 4 → exec (.captureTrigger r n) s =
      .next (closed s { setBit u capPage (capOff n.toNat + 0x10) 4 true with resp := .done })) ∧
    (capState s n.toNat = 0 ∨ capState s n.toNat = 3 → exec (.captureTrigger r n) s = .next (closed s { u with resp := .done }))) ∧
  (∀ (s u : State) (r : Requester) (n : BitVec 4), opened s r capPage (capOff n.toNat + 0x0C) = true → u = written s capPage (capOff n.toNat + 0x0C) 4 →
    (capState s n.toNat = 2 ∨ capState s n.toNat = 3 →
      exec (.captureFreeze r n) s = .next (closed s { setCapState (raise u capPage 1 0 n.toNat) n.toNat 4 with resp := .done })) ∧
    (capState s n.toNat ≠ 2 → capState s n.toNat ≠ 3 → exec (.captureFreeze r n) s = .next (closed s { u with resp := .done }))) ∧
  (∀ (s : State) (n : BitVec 4),
    (capState s n.toNat = 3 → fld s capPage (capOff n.toNat + 8) 27 0 * 4096 ≤ (capOf s n.toNat).post →
      exec (.capturePostDone n) s = .next (closed s (setCapState (raise s capPage 1 0 n.toNat) n.toNat 4))) ∧
    (capState s n.toNat ≠ 3 ∨ (capOf s n.toNat).post < fld s capPage (capOff n.toNat + 8) 27 0 * 4096 →
      exec (.capturePostDone n) s = .next (closed s s))) ∧
  (∀ (s : State) (n : Nat) (i : CopyInfo) (bytes : List Byte), (capState s n ≠ 2 → capState s n ≠ 3 →
      capWrite s n i bytes = raise (inc s capPage (capOff n + 0x38)) capPage 3 0 n) ∧
    (capState s n = 3 → serving s capPage = true →
      fld s capPage (capOff n + 8) 27 0 * 4096 < (capOf s n).post + (32 + (bytes.length + 7) / 8 * 8) → capState (capWrite s n i bytes) n = 4) ∧
    ∃ t, capHeader s n i bytes.length = (leBytes 32 (i.ts % 2 ^ 64 + t * 2 ^ 64 + b2n (tbValid s (fld s capPage (capOff n) 4 1)) * 2 ^ 158 +
      bytes.length * 2 ^ 160 + i.origLen * 2 ^ 174 + i.session * 2 ^ 188 + i.dir * 2 ^ 192 + b2n i.trunc * 2 ^ 193 + b2n i.cut * 2 ^ 194 +
      b2n i.dropped * 2 ^ 195 + i.inPort * 2 ^ 196 + i.outPort * 2 ^ 204 + i.reason * 2 ^ 212 + i.tc * 2 ^ 220 + i.colour * 2 ^ 223),
      (convertStamp s (fld s capPage (capOff n) 4 1) i.ts).2))

/-! ### Faults, injection and inspection (chapter 17) -/

/-- R399, R493 to R496, R501: the chip watchdog, the unlocking of injection, injected faults, the patrol scrub and failover. Rests on the model's choices in log 99, 103, 158. -/
def Obligations.WatchdogInjectionAndFailover : Prop :=
  (∀ s : State, (fld s inspPage 0x118 15 0 = 0 → exec .chipWatchdog s = .next (closed s s)) ∧
    (now s < s.wdogAt + msUnits (fld s inspPage 0x118 15 0) → exec .chipWatchdog s = .next (closed s s)) ∧
    (fld s inspPage 0x118 15 0 ≠ 0 → s.wdogAt + msUnits (fld s inspPage 0x118 15 0) ≤ now s → exec .chipWatchdog s = .next (closed s (warmReset s)))) ∧
  (∀ (s u : State) (r : Requester), opened s r inspPage 0x118 = true →
    u = written s inspPage 0x118 (rewritten s inspPage 0x118 0x80000000 0x80000000) →
    exec (.watchdogKick r) s = .next (closed s { u with wdogAt := now s, resp := .done })) ∧
  (∀ (s t : State), opened s .host unlockPage 0x100 = true → t = drawNonce s → exec (.injNonceRead .host) s = .next (closed s { setRdShadow t 0
    unlockPage (some (unlockPage * 4096 + 0x100, view t unlockPage 0x104)) with resp := .value ((view t unlockPage 0x100).setWidth 64) })) ∧
  (∀ s : State, (drawNonce s).inj.nonce = some ((fresh s).1 % 2 ^ 64, now s) ∧ (drawNonce s).inj.keyAt = none ∧
    rd64 (drawNonce s) unlockPage 0x100 = (fresh s).1 % 2 ^ 64) ∧
  (∀ (s u : State) (key : Word) (n t : Nat), opened s .host unlockPage 0x108 = true → u = written s unlockPage 0x108 key.toNat →
    s.inj.nonce = some (n, t) → bitAt s fusePage 0x108 1 = false →
    (key.toNat = (n % 2 ^ 32) ^^^ 0x5A5A5A5A → now s ≤ t + msUnits 10 →
      exec (.injKey .host key) s = .next (closed s { u with inj := { s.inj with keyAt := some (now s) }, resp := .done })) ∧
    (key.toNat ≠ (n % 2 ^ 32) ^^^ 0x5A5A5A5A ∨ t + msUnits 10 < now s →
      exec (.injKey .host key) s = .next (closed s { u with inj := { s.inj with keyAt := none }, resp := .done }))) ∧
  (∀ (s u : State) (key : Word), opened s .host unlockPage 0x108 = true → u = written s unlockPage 0x108 key.toNat →
    s.inj.nonce = none ∨ bitAt s fusePage 0x108 1 = true → exec (.injKey .host key) s = .next (closed s { u with resp := .done })) ∧
  (∀ (s u v : State) (m : BitVec 6), opened s .host unlockPage 0x10C = true → u = written s unlockPage 0x10C (m.toNat + 0x100) →
    v = { u with inj := { s.inj with keyAt := none, until' := now s + m.toNat * 60000 * 153600000 } } →
    (∀ t : Nat, s.inj.keyAt = some t → now s ≤ t + msUnits 10 → 1 ≤ m.toNat → m.toNat ≤ 60 →
      exec (.injUnlock .host m) s = .next (closed s { setBit v unlockPage 0x10C 16 true with resp := .done })) ∧
    (s.inj.keyAt = none ∨ (∃ t ∈ s.inj.keyAt, t + msUnits 10 < now s) ∨ m.toNat = 0 ∨ 60 < m.toNat →
      exec (.injUnlock .host m) s = .next (closed s { raise (deny u) inspPage 3 with resp := .done }))) ∧
  (∀ (s u : State), opened s .host unlockPage 0x10C = true → u = written s unlockPage 0x10C (rewritten s unlockPage 0x10C 0x200 0x200) →
    exec (.injLock .host) s = .next (closed s { setBit u unlockPage 0x10C 16 false with resp := .done })) ∧
  (∀ s : State, (unlocked s = true → s.inj.until' ≤ now s → exec .injUnlockExpire s = .next (closed s (setBit s unlockPage 0x10C 16 false))) ∧
    (unlocked s = false ∨ now s < s.inj.until' → exec .injUnlockExpire s = .next (closed s s))) ∧
  (∀ (s : State) (r : Requester) (u : Nat → State), opened s r injPage 0x100 = true →
    (∀ k, u k = written s injPage 0x100 (rewritten s injPage 0x100 0x8000000F (k + 2 ^ 31))) →
    exec (.injectSingleBit r) s = .next (closed s { inject (u 1) with resp := .done }) ∧
    exec (.injectDoubleBit r) s = .next (closed s { inject (u 2) with resp := .done }) ∧
    exec (.injectParity r) s = .next (closed s { inject (u 3) with resp := .done }) ∧
    exec (.injectFlitCrc r) s = .next (closed s { inject (u 4) with resp := .done }) ∧
    exec (.injectDramSingle r) s = .next (closed s { inject (u 5) with resp := .done }) ∧
    exec (.injectDramUncorr r) s = .next (closed s { inject (u 6) with resp := .done }) ∧
    exec (.injectEngineStall r) s = .next (closed s { inject (u 7) with resp := .done }) ∧
    exec (.injectLossOfSignal r) s = .next (closed s { inject (u 8) with resp := .done }) ∧
    exec (.injectThermal r) s = .next (closed s { inject (u 9) with resp := .done })) ∧
  (∀ (s : State) (k p : Nat), k = fld s injPage 0x100 3 0 → p = fld s injPage 0x104 15 0 →
    (unlocked s = false → inject s = injRefuse (deny s) 1) ∧
    (unlocked s = true → carries k p = false → inject s = injRefuse s 2) ∧
    (unlocked s = true → carries k p = true → pageOn s p = false → inject s = injRefuse s 3) ∧
    (∀ (cell idx bit c : Nat) (dir : D2dDir), unlocked s = true → carries k p = true → pageOn s p = true → cell = fld s injPage 0x104 31 16 → idx = fld s injPage 0x108 29 0 →
      bit = fld s injPage 0x10C 9 0 → c = fld s injPage 0x10C 31 16 → dir = (if fld s injPage 0x108 31 30 = 0 then D2dDir.toCor else .toFld) →
      s.inj.faults = [] →
      (bitAt s injPage 0x100 4 = true → (inject s).inj.faults = [(k, p, cell, idx, bit, true)] ∨ kindOf p = some .sdq ∨ kindOf p = some .therm) ∧
      (bitAt s injPage 0x100 4 = false → k = 7 →
        inject s = setBit { s with inj := { s.inj with faults := [(7, p, cell, idx, bit, false)] } } injPage 0x110 1 true) ∧
      (bitAt s injPage 0x100 4 = false → (k = 1 → inject s = setBit (correctWord s p) injPage 0x110 1 true) ∧
        (k = 2 ∨ k = 3 → inject s = setBit (loseWord s p cell idx) injPage 0x110 1 true) ∧
        (k = 4 → inject s = setBit (flit s dir 0 false) injPage 0x110 1 true) ∧
        (k = 5 → inject s = setBit s injPage 0x110 1 true) ∧
        (∀ w : Nat × Nat, w = (idx, (fresh s).1 % 512) → k = 6 → inject s = setBit { (fresh s).2 with dramBad := w :: s.dramBad.erase w } injPage 0x110 1 true) ∧
        (k = 8 → inject s = setBit (laneLost s (p / 4096 * 4 + (p % 4096 - 1)) (cell % 4) c) injPage 0x110 1 true) ∧
        (k = 9 → inject s = setBit (reportTemp { s with therm := { s.therm with forced := some (signedOf 16 c, now s + msUnits 100) } } (signedOf 16 c)
          (fld s thermPage 0x100 20 16)) injPage 0x110 1 true)))) ∧
  (∀ (s : State) (quad lane us : Nat), (now s + usUnits us, 4 * quad + lane) ∈ ((laneLost s quad lane us).inj.dark.map (fun d => (d.2, d.1))) ∨
    portOfLane s (4 * quad + lane) ≠ none) ∧
  (∀ (s : State) (p : Page) (cell idx bit : Nat) (sticky : Bool), s.inj.faults = [(1, p.toNat, cell, idx, bit, sticky)] → kindOf p.toNat = some .buf →
    ∀ u : State, u = addSat s p.toNat 0x100 15 0 1 →
    exec (.patrolScrub p) s = .next (closed s { u with inj := { s.inj with faults := if sticky then s.inj.faults else [] } })) ∧
  (∀ (s : State) (p : Page), (∀ f ∈ s.inj.faults, f.2.1 = p.toNat → f.1 ≠ 1 ∧ f.1 ≠ 2) → exec (.patrolScrub p) s = .next (closed s s)) ∧
  (∀ (s u : State) (r : Requester) (v : BitVec 8), opened s r inspPage 0x110 = true → u = written s inspPage 0x110 v.toNat →
    ((v.toNat = (rd s inspPage 0x110).toNat % 256 → exec (.failoverSet r v) s = .next (closed s { u with resp := .done })) ∧
    ∀ g : Nat, g < 4 → (∀ h < 4, h ≠ g → bitsOf v.toNat (2 * h + 1) (2 * h) = fld s inspPage 0x110 (2 * h + 1) (2 * h)) →
      bitsOf v.toNat (2 * g + 1) (2 * g) ≠ fld s inspPage 0x110 (2 * g + 1) (2 * g) →
      (bitsOf v.toNat (2 * g + 1) (2 * g) = 2 → exec (.failoverSet r v) s = .next (closed s { failover u g with resp := .done })) ∧
      (bitsOf v.toNat (2 * g + 1) (2 * g) = 0 → exec (.failoverSet r v) s = .next (closed s { failback u g with resp := .done })) ∧
      (bitsOf v.toNat (2 * g + 1) (2 * g) % 2 = 1 → exec (.failoverSet r v) s = .next (closed s { u with resp := .done }))))

/-- R497 to R500: what a request earns; a preparation ends or a window opens, and the action runs; a result; a deadline; a write of the live
test controls. Which requests clash, and what holds a queued action back, is the model's reading (log 104). Rests on the model's choices in log 92, 104. -/
def Obligations.InspectionAndTestControls : Prop :=
  (∀ (s : State) (i : Inspection) (sec ns : Nat), (inspTargetOk i.action i.page i.cell = false ∨ pageOn s i.page = false ∨ 999999999 < ns →
      inspAccept s i sec ns = (5, s)) ∧
    (inspTargetOk i.action i.page i.cell = true → pageOn s i.page = true → ns ≤ 999999999 →
      (underInsp s i = true ∨ 256 ≤ (s.insp.filter (fun j => j.phase == 0)).length → inspAccept s i sec ns = (4, s)) ∧
      (underInsp s i = false → (s.insp.filter (fun j => j.phase == 0)).length < 256 →
        (inspOnline s i = true → inspAccept s i sec ns = (3, inspRun { s with insp := s.insp ++ [i] } i)) ∧
        (inspOnline s i = false → i.windowed = true → i.inst ≤ (tbAt s i.tb (now s) / (2 ^ 32 : Nat)).toNat → inspAccept s i sec ns = (7, s)) ∧
        (inspOnline s i = false → i.windowed = true → (tbAt s i.tb (now s) / (2 ^ 32 : Nat)).toNat < i.inst →
          (windowClash s i = true → inspAccept s i sec ns = (4, s)) ∧
          (∀ (l : Nat) (t : State), windowClash s i = false → (s.insp.filter (fun j => j.phase == 0 && j.windowed)).length < 32 → inspLift s = some l →
            liftCommit s l (markRecord i.tb sec ns) = (0, t) → inspAccept s i sec ns = (2, { t with insp := t.insp ++ [{ i with lift := some l }] }))) ∧
        (inspOnline s i = false → i.windowed = false → i.force = true →
          (mayRun s i = true → inspAccept s i sec ns = (3, inspRun (outOfService { s with insp := s.insp ++ [i] } i) i)) ∧
          (mayRun s i = false → inspAccept s i sec ns = (2, { s with insp := s.insp ++ [i] }))) ∧
        (inspOnline s i = false → i.windowed = false → i.force = false → inspLossless i = false → inspAccept s i sec ns = (4, s)) ∧
        (∀ (k : Nat) (t : State), inspOnline s i = false → i.windowed = false → i.force = false → inspLossless i = true → prepStart s i = (k, t) →
          (k = 4 → inspAccept s i sec ns = (4, s)) ∧
          (k ≠ 4 → inspAccept s i sec ns = (2, { t with insp := t.insp ++ [{ i with prep := k == 0 }] })))))) ∧
  (∀ (s : State) (id : BitVec 16), s.insp.find? (fun j => j.id == id.toNat && j.phase == 0) = none →
    exec (.inspectPrepared id) s = .next (closed s s)) ∧
  (∀ (s : State) (id : BitVec 16) (i : Inspection), s.insp.find? (fun j => j.id == id.toNat && j.phase == 0) = some i →
    (∀ l : Nat, i.lift = some l →
      (liftState s l ≠ 4 → exec (.inspectPrepared id) s = .next (closed s s)) ∧
      (liftState s l = 4 → efld (liftStat s l) 7 4 ≠ 1 →
        exec (.inspectPrepared id) s = .next (closed s (inspResult (dropInsp s id.toNat) id.toNat 7 0))) ∧
      (liftState s l = 4 → efld (liftStat s l) 7 4 = 1 → mayRun s i = true →
        exec (.inspectPrepared id) s = .next (closed s (inspRun (outOfService s i) i)))) ∧
    (mayRun s i = false → (∀ l ∈ i.lift, efld (liftStat s l) 7 4 = 1) → exec (.inspectPrepared id) s = .next (closed s s)) ∧
    (i.lift = none → mayRun s i = true →
      (i.force = true → exec (.inspectPrepared id) s = .next (closed s (inspRun (outOfService s i) i))) ∧
      (i.force = false → i.prep = true → prepReady s i = true → exec (.inspectPrepared id) s = .next (closed s (inspRun s i))) ∧
      (i.force = false → i.prep = true → prepReady s i = false → exec (.inspectPrepared id) s = .next (closed s s)) ∧
      (∀ (k : Nat) (t : State), i.force = false → i.prep = false → prepStart s i = (k, t) →
        (k = 4 → exec (.inspectPrepared id) s = .next (closed s (inspResult (dropInsp s id.toNat) id.toNat 4 0))) ∧
        (k ≠ 4 → exec (.inspectPrepared id) s = .next (closed s (setInsp t { i with prep := k == 0 })))))) ∧
  (∀ (s : State) (id : BitVec 16) (e a : Word), (s.insp.find? (fun j => j.id == id.toNat && j.phase == 1) = none →
      exec (.inspectTestDone id e a) s = .next (closed s s)) ∧
    (∀ (i : Inspection) (t : State), s.insp.find? (fun j => j.id == id.toNat && j.phase == 1) = some i → t = dropInsp (testEnd s i e.toNat a.toNat true) id.toNat →
      (e = 0 → exec (.inspectTestDone id e a) s = .next (closed s (inspResult (backInService t i) id.toNat 0 0))) ∧
      (e ≠ 0 → i.action ≠ 7 → i.action ≠ 8 →
        exec (.inspectTestDone id e a) s = .next (closed s (inspResult (raise t inspPage 1 0 i.cell) id.toNat 1 a.toNat))) ∧
      (e ≠ 0 → i.action = 7 ∨ i.action = 8 →
        exec (.inspectTestDone id e a) s = .next (closed s (inspResult (raise (setRecovery t) inspPage 1 0 i.cell) id.toNat 1 a.toNat))))) ∧
  (∀ (s : State) (id : BitVec 16), (s.insp.find? (fun j => j.id == id.toNat) = none → exec (.inspectDeadline id) s = .next (closed s s)) ∧
    (∀ i : Inspection, s.insp.find? (fun j => j.id == id.toNat) = some i →
      (i.deadline ≠ 0 ∨ (i.phase = 1 ∧ i.windowed = true) → exec (.inspectDeadline id) s = .next (closed s (inspResult (inspLeave s i) id.toNat 6 0))) ∧
      (i.deadline = 0 → i.phase ≠ 1 ∨ i.windowed = false → exec (.inspectDeadline id) s = .next (closed s s)))) ∧
  (∀ (s : State) (i : Inspection), (dropInsp s i.id).insp.all (fun j => j.id != i.id) = true ∧ (dropInsp s i.id).regs = s.regs) ∧
  (∀ (s a : State) (r : Requester) (p : Page) (c0 c1 : Word), hasTest p.toNat = true → opened s r p.toNat 0x054 = true →
    a = { testWrite (written s p.toNat 0x054 c1.toNat) r p.toNat 0x054 c1 with resp := .done } → opened a r p.toNat 0x050 = true →
    exec (.testCtlWrite r p c0 c1) s = .next (closed s { testWrite (written a p.toNat 0x050 c0.toNat) r p.toNat 0x050 c0 with resp := .done })) ∧
  (∀ (s : State) (r : Requester) (p o : Nat) (v : Word), (rd s p o = v → testWrite s r p o v = s) ∧
    (rd s p o ≠ v → mayTest s r = false → testWrite s r p o v = deny s) ∧
    (rd s p o ≠ v → mayTest s r = true → o ≠ 0x050 ∨ runsActions s r = true → testWrite s r p o v = wr s p o v) ∧
    (rd s p 0x050 ≠ v → mayTest s r = true → runsActions s r = false → bitsOf v.toNat 4 0 ≠ fld s p 0x050 4 0 → bitsOf v.toNat 4 0 = 0 →
      (∀ i ∈ s.insp, i.page ≠ p) → testWrite s r p 0x050 v = setFld (wr (wr s p 0x050 v) p 0x050 v) p 0x050 5 5 0) ∧
    (∀ (i : Inspection) (t : State), rd s p 0x050 ≠ v → mayTest s r = true → runsActions s r = false → bitsOf v.toNat 4 0 ≠ fld s p 0x050 4 0 → bitsOf v.toNat 4 0 ≠ 0 →
      inspTargetOk (bitsOf v.toNat 4 0) p (bitsOf v.toNat 23 8) = true → (∀ j ∈ s.insp, j.page ≠ p) →
      i = { id := s.nextId % 65536, action := bitsOf v.toNat 4 0, page := p, cell := bitsOf v.toNat 23 8, force := true, param := (rd (wr s p 0x050 v) p 0x054).toNat } →
      t = wr s p 0x050 v →
      testWrite s r p 0x050 v = inspRun (outOfService { t with nextId := s.nextId + 1, insp := s.insp ++ [i] } i) i)) ∧
  (∀ (s : State) (id code a : Nat), (inspResult s id code a).insp = s.insp ∧
    Output.notify 11 0x80 ([id % 256, id / 256 % 256, code, 0, 0, 0, 0, 0] ++ (leBytes 8 a).map (·.toNat)) ∈ (inspResult s id code a).out)

/-- R504 to R512: the footway configuration, entry, forwarding by the footway table, exit and handover. Rests on the model's choices in log 100, 101, 102, 111. -/
def Obligations.FootwayMode : Prop :=
  (∀ (s u : State) (r : Requester), opened s r fwPage 0x104 = true → u = setFld (written s fwPage 0x104 1) fwPage 0x108 31 16 (fwPower s) →
    fwState s = 0 →
    (commitCause s false = 0 → exec (.footwayCommit r) s =
      .next (closed s { setBit u fwPage 0x100 8 true with fwTabs := s.tabs.filter (fun e => keyPage e.1 == fwPage), resp := .done })) ∧
    (commitCause s false ≠ 0 → exec (.footwayCommit r) s = .next (closed s { fwRefuse u (commitCause s false) with resp := .done }))) ∧
  (∀ (s : State) (r : Requester), opened s r fwPage 0x104 = true → fwState s ≠ 0 →
    exec (.footwayCommit r) s = .next (closed s { written s fwPage 0x104 1 with resp := .done })) ∧
  (∀ (s : State) (b : Bool), (450 < fwPower s → commitCause s b ≠ 0) ∧ (8 < ((writtenPorts s).filter (· < 64)).length → commitCause s b = 3)) ∧
  (∀ (s : State) (c : BitVec 3), 1 ≤ c.toNat → c.toNat ≤ 4 →
    (fwPermitted s = true → fwState s = 0 ∨ fwState s = 3 → exec (.footwayEnter c) s = .next (closed s (fwEnter s c.toNat))) ∧
    (fwState s = 1 ∨ fwState s = 2 → exec (.footwayEnter c) s = .next (closed s s)) ∧
    (fwPermitted s = false → fwState s = 0 ∨ fwState s = 3 → (c = 3 → exec (.footwayEnter c) s = .next (closed s (fwRefuse s 1))) ∧
      (c = 1 → exec (.footwayEnter c) s = .next (closed s (warmReset s))) ∧ (c = 4 → exec (.footwayEnter c) s = .next (closed s s)) ∧
      (c = 2 → ∃ t, t = chipNote s 8 (match pageInfo thermPage with | some i => summaryBit i | none => 0) 0 (fld s inspPage 0x100 17 16) ∧
        (fwPermitted t = false → exec (.footwayEnter c) s = .next (closed s (warmReset t)))))) ∧
  (∀ (s : State) (c : BitVec 3), c.toNat = 0 ∨ 4 < c.toNat → exec (.footwayEnter c) s = .next (closed s s)) ∧
  (∀ (s : State) (c : Nat), fwState (fwEnter s c) = 2 ∧ (∀ d < 176, d ∉ keptDoms s → domOn (fwEnter s c) d = false) ∧
    (fwEnter s c).mode = s.mode) ∧
  (∀ s : State, 1150 ≤ s.therm.reported → s.mode = .run → fwState s ≠ 2 → ∃ t, t = chipNote s 8 (match pageInfo thermPage with | some i => summaryBit i | none => 0) 0
      (fld s inspPage 0x100 17 16) ∧ (fwPermitted t = true → exec .thermalFootway s = .next (closed s (fwTrigger t 2))) ∧
    (fwPermitted t = false → exec .thermalFootway s = .next (closed s (warmReset t)))) ∧
  (∀ s : State, s.therm.reported < 1150 ∨ s.mode ≠ .run ∨ fwState s = 2 → exec .thermalFootway s = .next (closed s s)) ∧
  (∀ (s : State) (p : Port) (bs : List Byte), (fwActive s p.toNat = false → exec (.footwayFrame p bs) s = .next (closed s s)) ∧
    (fwActive s p.toNat = true →
      (fwFind s p.toNat bs = none → exec (.footwayFrame p bs) s = .next (closed s (inc (countReason s 7 0xF0) fwPage 0x10C))) ∧
      (∀ e : Entry, fwFind s p.toNat bs = some e → ebit e 103 = true → exec (.footwayFrame p bs) s = .next (closed s s)) ∧
      (∀ (e : Entry) (f : Frame) (l : List Nat) (t : State), fwFind s p.toNat bs = some e → ebit e 103 = false →
        f = { id := 0, bytes := bs, ingress := p.toNat, ts := rxStamp s p.toNat } →
        l = (onesOf 16 (efld e 102 87)).filter (fun i => (fwSlot s i).2.1 && (fwSlot s i).1 != p.toNat) →
        (fwTake s (ebit e 104) (frameLen f) = (false, t) → exec (.footwayFrame p bs) s = .next (closed s (inc (countReason t 7 0xF2) fwPage 0x10C))) ∧
        (fwTake s (ebit e 104) (frameLen f) = (true, t) → exec (.footwayFrame p bs) s = .next (closed s
          (forEach (if l.any (fun i => fifoBytes s i + frameLen f ≤ 32768) then inc t fwPage 0x110 else t) l (fwPut (ebit e 104) f))))))) ∧
  (∀ (s : State) (prio : Bool) (f : Frame) (i : Nat), i < 16 →
    (32768 < fifoBytes s i + frameLen f → fwPut prio f s i = inc (countReason s 7 0xF1) fwPage 0x10C) ∧
    (fifoBytes s i + frameLen f ≤ 32768 → fifoBytes (fwPut prio f s i) i = fifoBytes s i + frameLen f)) ∧
  (∀ (s : State) (prio : Bool) (n : Nat), s.foot.slot = now s / msUnits 1 → (fwTake s prio n).1 =
    decide ((if prio then s.foot.urgent else s.foot.all).1 < 2000 ∧ (if prio then s.foot.urgent else s.foot.all).2 + n ≤ 2500000)) ∧
  (∀ (s u : State) (r : Requester), opened s r fwPage 0x104 = true → u = written s fwPage 0x104 4 → fwState s = 2 →
    (fwPersists s = true → exec (.footwayExit r) s = .next (closed s { fwRefuse u 6 with resp := .done })) ∧
    (fwPersists s = false → exec (.footwayExit r) s = .next (closed s { fwExit u with resp := .done }) ∧
      ∀ d < 176, domOn (fwExit u) d = true)) ∧
  (∀ (s u : State) (r : Requester), opened s r fwPage 0x104 = true → u = written s fwPage 0x104 4 → fwState s ≠ 2 →
    exec (.footwayExit r) s = .next (closed s { u with resp := .done })) ∧
  (∀ s : State, (fld s fwPage 0x108 6 4 = 2 → bitAt s fwPage 0x100 0 = true → s.therm.reported < 1050 → fwState s = 2 →
      exec .footwayAutoExit s = .next (closed s (fwExit s)) ∧ fwState (fwExit s) = 3) ∧
    (fld s fwPage 0x108 6 4 ≠ 2 ∨ bitAt s fwPage 0x100 0 = false ∨ 1050 ≤ s.therm.reported ∨ fwState s ≠ 2 →
      exec .footwayAutoExit s = .next (closed s s))) ∧
  (∀ (s u : State) (r : Requester), opened s r fwPage 0x104 = true → u = written s fwPage 0x104 8 → fwState s ≠ 3 →
    exec (.footwayHandover r) s = .next (closed s { u with resp := .done })) ∧
  (∀ (s u : State) (r : Requester), opened s r fwPage 0x104 = true → u = written s fwPage 0x104 8 → fwState s = 3 →
    ((fwPorts s).all (fwReady s) = false → exec (.footwayHandover r) s = .next (closed s { fwRefuse u 7 with resp := .done })) ∧
    ((fwPorts s).all (fwReady s) = true → ∃ v, v = forEach u (List.range 16) fwFlush ∧
      exec (.footwayHandover r) s = .next (closed s { raise (setFw { v with foot := {} } 0) fwPage 2 with resp := .done })))

/-! ### Identity and boot (chapter 18) -/

/-- R523 to R543: a SEC command is taken while none runs; what it comes to; the stages of a start; signatures for SPAN. Rests on the model's choices in log 9, 37, 42, 102, 106, 107, 108, 109. -/
def Obligations.SecurityCommandsAndBoot : Prop :=
  (∀ (s : State) (r : Requester) (w : Nat → State) (f : Nat → SecCmd → State), opened s r secPage 0x100 = true → s.boot.cmd = none →
    (∀ k, w k = written s secPage 0x100 (k + 2 ^ 31)) →
    (∀ k c, f k c = { setBit { w k with boot := { s.boot with cmd := some c } } secPage 0x104 0 true with resp := .done }) →
    exec (.quote r) s = .next (closed s (f 1 { code := 1 })) ∧
    (∀ (b : HostRead Bundle) (k : Bool), exec (.stage r b k) s = .next (closed s (f 2 { code := 2, bundle := b, flashOk := k }))) ∧
    exec (.select r) s = .next (closed s (f 3 { code := 3 })) ∧
    exec (.bootOk r) s = .next (closed s (f 4 { code := 4 })) ∧
    exec (.spxUpdate r) s = .next (closed s (f 5 { code := 5 })) ∧
    exec (.fwApply r) s = .next (closed s (f 6 { code := 6 })) ∧
    exec (.certRead r) s = .next (closed s (f 7 { code := 7 })) ∧
    exec (.fuseOwner r) s = .next (closed s (f 8 { code := 8 })) ∧
    (∀ a o : Bool, exec (.debug r a o) s = .next (closed s (f 9 { code := 9, sigAskineOk := a, sigOwnerOk := o }))) ∧
    exec (.debugNonce r) s = .next (closed s (f 10 { code := 10 }))) ∧
  (∀ (s : State) (r : Requester) (f : Nat → State), opened s r secPage 0x100 = true → s.boot.cmd.isSome = true →
    (∀ k, f k = { setFld (wr (written s secPage 0x100 (k + 2 ^ 31)) secPage 0x100 (rd s secPage 0x100)) secPage 0x104 15 8 0x0C with resp := .done }) →
    exec (.quote r) s = .next (closed s (f 1)) ∧ (∀ (b : HostRead Bundle) (k : Bool), exec (.stage r b k) s = .next (closed s (f 2))) ∧ exec (.select r) s = .next (closed s (f 3)) ∧
    exec (.bootOk r) s = .next (closed s (f 4)) ∧ exec (.spxUpdate r) s = .next (closed s (f 5)) ∧ exec (.fwApply r) s = .next (closed s (f 6)) ∧
    exec (.certRead r) s = .next (closed s (f 7)) ∧ exec (.fuseOwner r) s = .next (closed s (f 8)) ∧
    (∀ a o : Bool, exec (.debug r a o) s = .next (closed s (f 9))) ∧ exec (.debugNonce r) s = .next (closed s (f 10))) ∧
  (∀ s : State, (s.boot.cmd = none → exec .secCommandDone s = .next (closed s s)) ∧
    (∀ (c : SecCmd) (x : Nat × State) (t : State), s.boot.cmd = some c → x = runSec { s with boot := { s.boot with cmd := none } } c →
      t = raise (wr x.2 secPage 0x104 (BitVec.ofNat 32 (2 + x.1 * 256))) secPage 0 →
      exec .secCommandDone s = .next (closed s (forEach { t with boot := { t.boot with asked := [] } } t.boot.asked spxServe)))) ∧
  (∀ (s : State) (c : SecCmd), (c.busError = true → runSec s c = (0x0B, s)) ∧ (c.busError = false → 10 < c.code → runSec s c = (1, s)) ∧
    (c.busError = false → c.code = 1 → s.boot.locked = true → runSec s c = (0x0A, s)) ∧
    (c.busError = false → c.code = 1 → s.boot.locked = false → runSec s c = (0, putBuffer s (quoteBody s ++
      leBytes 64 (deviceSign (Config.sha512 ((quoteBody s).map (·.toNat)) % 2 ^ 512))))) ∧
    (c.busError = false → c.code = 2 → 2 ^ 26 < (rd s secPage 0x110).toNat → runSec s c = (2, s)) ∧
    (∀ t : State, c.busError = false → c.code = 2 → (rd s secPage 0x110).toNat ≤ 2 ^ 26 →
      t = toHost s (.hostRead (rd64 s secPage 0x108) (rd s secPage 0x110).toNat) →
      (c.bundle = .error → runSec s c = (7, t)) ∧
      (∀ b : Bundle, c.bundle = .ok b → bundleCause t b ≠ 0 → runSec s c = (bundleCause t b, t)) ∧
      (∀ b : Bundle, c.bundle = .ok b → bundleCause t b = 0 → ((List.range 32).filter (fun k => !storeOk t k)).length <
        ((compsOf b 2).filter (fun c => (storedAs t c.digest.toNat).isNone)).length → runSec s c = (6, t)) ∧
      (∀ b : Bundle, c.bundle = .ok b → bundleCause t b = 0 → ((compsOf b 2).filter (fun c => (storedAs t c.digest.toNat).isNone)).length ≤
        ((List.range 32).filter (fun k => !storeOk t k)).length →
        (c.flashOk = false → runSec s c = (8, setOther t none)) ∧
        (c.flashOk = true → runSec s c = (0, forEach (setOther t (some b)) (compsOf b 2) storePut)))) ∧
    (c.busError = false → c.code = 3 → 1 < (rd s secPage 0x108).toNat ∨ slotValid s (rd s secPage 0x108).toNat = false → runSec s c = (2, s)) ∧
    (c.busError = false → c.code = 3 → (rd s secPage 0x108).toNat ≤ 1 → slotValid s (rd s secPage 0x108).toNat = true →
      runSec s c = (0, setFld s bootPage 0x104 0 0 (rd s secPage 0x108).toNat)) ∧
    (∀ d : Component, c.busError = false → c.code = 5 → (staged s).bind (compOf · 1) = some d → runSec s c = (0, extendBy (takeComp s d) 8 d)) ∧
    (c.busError = false → c.code = 6 → ((rd s secPage 0x108).toNat ≠ 3 ∧ (rd s secPage 0x108).toNat ≠ 4) ∨ 0xFFFF < (rd s secPage 0x10C).toNat →
      runSec s c = (2, s)) ∧
    (∀ d : Component, c.busError = false → c.code = 6 → (rd s secPage 0x10C).toNat ≤ 0xFFFF → rd s secPage 0x10C ≠ 0 →
      (staged s).bind (compOf · (rd s secPage 0x108).toNat) = some d →
      (rd s secPage 0x108 = 4 → runSec s c =
        (0, { s with boot := { s.boot with phyMask := s.boot.phyMask ||| (rd s secPage 0x10C).toNat, phyNew := some d } })) ∧
      (rd s secPage 0x108 = 3 → runSec s c = (0, forEach (takeComp s d) ([0, 1, 2, 3].filter (fun r =>
        bitsOf (rd s secPage 0x10C).toNat (4 * r + 3) (4 * r) != 0)) (fun s r => extendBy s r d)))) ∧
    (c.busError = false → c.code = 7 → 10 < (rd s secPage 0x108).toNat → runSec s c = (2, s)) ∧
    (c.busError = false → c.code = 7 → rd s secPage 0x108 = 0 → runSec s c = (0, putBuffer s (Config.deviceCert.take 4096))) ∧
    (c.busError = false → c.code = 8 → rd s secPage 0x108 = 0x4F574E52 → ownerSet s = true → runSec s c = (9, s)) ∧
    (c.busError = false → c.code = 8 → rd s secPage 0x108 ≠ 0x4F574E52 → runSec s c = (2, s)) ∧
    (c.busError = false → c.code = 8 → rd s secPage 0x108 = 0x4F574E52 → ownerSet s = false → (runSec s c).1 = 0 ∧ ownerSet (runSec s c).2 = true) ∧
    (c.busError = false → c.code = 9 → (runSec s c).1 ∈ [0, 2, 3, 0x0C] ∧ ((runSec s c).1 ≠ 0 → (runSec s c).2 = s)) ∧
    (c.busError = false → c.code = 10 → runSec s c = (0, { putBuffer (fresh s).2 (leBytes 8 ((fresh s).1 % 2 ^ 64)) with
      boot := { s.boot with nonce := some ((fresh s).1 % 2 ^ 64, now s) } })) ∧
    (c.busError = false → c.code = 4 → fld (runSec s c).2 bootPage 0x104 7 4 = 0 ∧ (runSec s c).1 = 0)) ∧
  (∀ (s : State) (b : Bundle), (sigOk s b = false → bundleCause s b = 3) ∧
    (sigOk s b = true → (∃ c ∈ b.components, c.digestOk = false) → bundleCause s b = 4) ∧
    (sigOk s b = true → (∀ c ∈ b.components, c.digestOk = true) → bundleShape b = true →
      (∃ c ∈ b.components, c.svn.toNat < counterOf s c.counter.toNat) → bundleCause s b = 5)) ∧
  (∀ (s : State) (r : Requester) (b : HostRead Bundle), opened s r bootPage 0x11C = true →
    exec (.bootHostGo r b) s = .next (closed s (hostGo { written s bootPage 0x11C 1 with resp := .done } b))) ∧
  (∀ (s : State) (b : Bundle), s.boot.stage = 0 → s.pins.bootSrc ≠ 0 →
    ∀ t : State, t = toHost s (.hostRead (rd64 s bootPage 0x110) (rd s bootPage 0x118).toNat) →
      hostGo s (.ok b) = { t with boot := { s.boot with hostBundle := some b } } ∧ hostGo s .error = setFld t bootPage 0x100 11 8 2) ∧
  (∀ (s : State) (b : HostRead Bundle), s.boot.stage ≠ 0 ∨ s.pins.bootSrc = 0 → hostGo s b = s) ∧
  (∀ (s : State) (k : Bool), (s.mode ≠ .run ∨ domOn s 172 = false ∨ 2 < s.boot.stage ∨ (s.boot.stage ≠ 0 ∧ s.boot.running = none) →
      exec (.bootStageDone k) s = .next (closed s s)) ∧
    (s.mode = .run → domOn s 172 = true →
      (s.boot.stage = 0 → exec (.bootStageDone k) s = .next (closed s (bootRom s k))) ∧
      (∀ b : Bundle, s.boot.stage = 1 → s.boot.running = some b → exec (.bootStageDone k) s = .next (closed s (bootFirst s b))) ∧
      (∀ b : Bundle, s.boot.stage = 2 → s.boot.running = some b → exec (.bootStageDone k) s = .next (closed s (bootSecond s b))))) ∧
  (∀ (s : State) (t : Nat), (slotValid s (fld s bootPage 0x104 0 0) = false → slotValid s (1 - fld s bootPage 0x104 0 0) = false → chooseSlot s t = none) ∧
    (slotValid s (fld s bootPage 0x104 0 0) = true → slotValid s (1 - fld s bootPage 0x104 0 0) = false →
      chooseSlot s t = some (fld s bootPage 0x104 0 0, false)) ∧
    (slotValid s (fld s bootPage 0x104 0 0) = false → slotValid s (1 - fld s bootPage 0x104 0 0) = true → s.boot.aonLost = false →
      chooseSlot s t = some (1 - fld s bootPage 0x104 0 0, true)) ∧
    (slotValid s (fld s bootPage 0x104 0 0) = true → slotValid s (1 - fld s bootPage 0x104 0 0) = true → s.boot.aonLost = false →
      chooseSlot s t = some (if max 1 (fld s bootPage 0x108 3 0) < t then (1 - fld s bootPage 0x104 0 0, true) else (fld s bootPage 0x104 0 0, false))) ∧
    (slotValid s (fld s bootPage 0x104 0 0) = false → slotValid s (1 - fld s bootPage 0x104 0 0) = true → s.boot.aonLost = true →
      chooseSlot s t = some (1 - fld s bootPage 0x104 0 0, false)) ∧
    (∀ a b : Bundle, slotOf s (fld s bootPage 0x104 0 0) = some a → slotOf s (1 - fld s bootPage 0x104 0 0) = some b →
      slotValid s (fld s bootPage 0x104 0 0) = true → slotValid s (1 - fld s bootPage 0x104 0 0) = true → s.boot.aonLost = true →
      chooseSlot s t = some (if a.generation.toNat < b.generation.toNat then 1 - fld s bootPage 0x104 0 0 else fld s bootPage 0x104 0 0, false))) ∧
  (∀ (s : State) (b : Bundle), (romRuns s b).boot.stage = 1 ∧ (romRuns s b).boot.running = some b ∧
    (romRuns s b).logLen = s.logLen + 2 + (if (compOf b 1).isSome then 1 else 0)) ∧
  (∀ s : State, s.boot.dram ≠ 1 → exec .dimmTrainingDone s = .next (closed s s)) ∧
  (∀ s : State, s.boot.dram ≠ 2 → exec .dramInitDone s = .next (closed s s)) ∧
  (∀ s : State, s.boot.dram = 1 → ∃ t, t = takePhy (selfRefresh s false) 0xFFFF ∧
    (t.boot.kept = false → exec .dimmTrainingDone s = .next (closed s { t with boot := { t.boot with dram := 2 } })) ∧
    (t.boot.kept = true → exec .dimmTrainingDone s = .next (closed s (rebuildStart { t with boot := { t.boot with dram := 0 } })))) ∧
  (∀ s : State, s.boot.dram = 2 → exec .dramInitDone s = .next (closed s (cstNowReady (rebuildB { s with boot := { s.boot with dram := 0 } })))) ∧
  (∀ (s : State) (b : BitVec 6) (r : BitVec 4) (d : BitVec 512) (o n : Nat) (x : DWord) (c w : Bool),
    (runsSpan s b.toNat = false → exec (.sign b r d) s = .next (closed s (emit s (.response 0xF0 0x10 b.toNat 5 none []))) ∧
      exec (.verifyPeer b o n x c w) s = .next (closed s (emit s (.response 0xF0 0x11 b.toNat 5 none [])))) ∧
    (runsSpan s b.toNat = true → (∀ k ∈ s.boot.cmd, k.code ≠ 5) →
      exec (.verifyPeer b o n x c w) s = .next (closed s (emit s (.response 0xF0 0x11 b.toNat 0 none [x.toNat, b2n c, b2n w]))) ∧
      (s.boot.locked = true → exec (.sign b r d) s = .next (closed s (emit s (.response 0xF0 0x10 b.toNat 0x0A none [])))) ∧
      (s.boot.locked = false → (∀ l < 8, linkRegion l = r.toNat → bitAt s (spnLinkPage l) 0x100 0 = false) →
        exec (.sign b r d) s = .next (closed s (emit s (.response 0xF0 0x10 b.toNat 5 none [])))) ∧
      (∀ l : Nat, s.boot.locked = false → l < 8 → linkRegion l = r.toNat → bitAt s (spnLinkPage l) 0x100 0 = true →
        exec (.sign b r d) s = .next (closed s (emit s (.response 0xF0 0x10 b.toNat 0 none [regionSign s r.toNat d.toNat]))))) ∧
    (∀ k : SecCmd, runsSpan s b.toNat = true → s.boot.cmd = some k → k.code = 5 →
      (64 ≤ s.boot.asked.length → exec (.sign b r d) s = .next (closed s (emit s (.response 0xF0 0x10 b.toNat 4 none []))) ∧
        exec (.verifyPeer b o n x c w) s = .next (closed s (emit s (.response 0xF0 0x11 b.toNat 4 none [])))) ∧
      (s.boot.asked.length < 64 →
        exec (.sign b r d) s = .next (closed s { s with boot := { s.boot with
          asked := s.boot.asked ++ [{ block := b.toNat, op := 0x10, args := [r.toNat, d.toNat] }] } }) ∧
        exec (.verifyPeer b o n x c w) s = .next (closed s { s with boot := { s.boot with
          asked := s.boot.asked ++ [{ block := b.toNat, op := 0x11, args := [x.toNat, b2n c, b2n w] }] } }))))

/-! ### Supplies and temperature (chapter 19) -/

/-- R288, R291, R556 to R563: RESET_N, loss of supplies, the sensors, throttling and the trip. Rests on the model's choices in log 111. -/
def Obligations.ResetPinSuppliesAndTemperature : Prop :=
  (∀ (s u : State), s.pins.resetN = false → u = { s with pins := { s.pins with resetN := true } } →
    (s.mode = .run → exec .resetNRise s = .next (closed s u)) ∧ (s.mode ≠ .run → exec .resetNRise s = .next (closed s (coldStart u true)))) ∧
  (∀ s : State, s.pins.resetN = true → exec .resetNRise s = .next (closed s s)) ∧
  (∀ (s u : State), s.pins.resetN = true → u = { s with pins := { s.pins with resetN := false } } → s.mode = .run →
    exec .resetNFall s = .next (closed s (enterHold (selfRefresh (forEach (abortDrain u) (custodyQueues (abortDrain u)) (fun s q =>
      if marked s q ∧ bitAt s cstPage 0x104 0 then dramToRecords s q else s)) true) 6))) ∧
  (∀ s : State, s.pins.resetN = false → exec .resetNFall s = .next (closed s s)) ∧
  (∀ (s u : State), s.pins.resetN = true → s.mode ≠ .run → u = { s with pins := { s.pins with resetN := false } } →
    exec .resetNFall s = .next (closed s u)) ∧
  (∀ (s : State) (b k : Bool), k = (s.mode == .custodyHold || (s.mode == .inReset && s.boot.kept)) →
    (aonWarm s = false ∨ (fld s pwrPage 0x10C 2 0 = 4 ∧ aonCool s = false) → coldStart s b = { s with mode := .inReset, boot := { s.boot with kept := k } }) ∧
    (aonWarm s = true → fld s pwrPage 0x10C 2 0 ≠ 4 ∨ aonCool s = true →
      coldStart s b = coldReset (setBit s pwrPage 0x10C 8 (b && s.mode == .custodyHold)) k)) ∧
  (∀ (s : State) (k : Bool), (coldReset s k).baseCount = 0 ∧ (coldReset s k).mode = .run ∧ (coldReset s k).tbs = [] ∧
    (coldReset s k).doms = startDoms ∧ (coldReset s k).resets = [.cold] ∧ (coldReset s k).dimms = s.dimms ∧
    (k = false → (coldReset s k).cqueues = [] ∧ (coldReset s k).page = {} ∧ (coldReset s k).cust.slots = [] ∧ (coldReset s k).cust.anchors = [])) ∧
  (∀ (s : State) (b : Bool), ∃ u, exec (.supplyLoss b) s = .next (closed s u) ∧ u.page = {} ∧ u.cust.slots = [] ∧ u.cust.anchors = [] ∧
    u.pins.custodyHold = false ∧ (∀ q, (cqOf u q).records = []) ∧ u.boot.aonLost = true ∧
    (s.mode = .custodyHold → b = false → u.mode = .custodyHold ∧ u.aonFailed = true) ∧
    (s.mode ≠ .custodyHold ∨ b = true → u.mode = .inReset ∧ u.pins.resetN = false ∧ (∀ d < 176, domOn u d = false))) ∧
  (∀ (s : State) (l : List (BitVec 16 × Bool)) (a b : BitVec 8) (u : State), s.mode = .run → domOn s 173 = false →
    u = { s with therm := { s.therm with aonDeck := signedOf 8 a.toNat, aonAbut := signedOf 8 b.toNat } } →
    exec (.thermalSample l a b) s = .next (closed s u)) ∧
  (∀ (s : State) (a b : BitVec 8), s.mode = .run → domOn s 173 = true → s.therm.forced = none → s.therm.reported < 1200 → fwState s = 0 →
    ∃ u, exec (.thermalSample [] a b) s = .next (closed s u) ∧ u.therm.reported = 1100 ∧ fld u thermPage 0x100 15 0 = 1100 ∧
      u.therm.aonDeck = signedOf 8 a.toNat ∧ u.mode = .run) ∧
  (∀ (s : State) (l : List (BitVec 16 × Bool)) (a b : BitVec 8), s.mode = .run → domOn s 173 = true → s.therm.forced = none →
    (hottest (l.take 30)).1 < 1200 → ∃ u, exec (.thermalSample l a b) s = .next (closed s u) ∧ u.therm.reported = (hottest (l.take 30)).1 ∧
      fld u thermPage 0x100 20 16 = (hottest (l.take 30)).2 ∧
      (∀ i r, i < 30 → l[i]? = some r → fld u thermPage 0x114 i i = if (sensorOk r).isNone then 1 else 0)) ∧
  (∀ (s : State) (l : List (BitVec 16 × Bool)) (a b : BitVec 8), s.mode ≠ .run → s.pins.resetN = false ∨ s.mode = .custodyHold →
    exec (.thermalSample l a b) s = .next (closed s { s with therm := { s.therm with aonDeck := signedOf 8 a.toNat, aonAbut := signedOf 8 b.toNat } })) ∧
  (∀ (s : State) (t : Int) (k : Nat), 1200 ≤ t → s.mode = .run → (reportTemp s t k).mode = .custodyHold ∧
    fld (reportTemp s t k) pwrPage 0x10C 2 0 = 4) ∧
  (∀ s : State, throttled s = false → 1100 ≤ s.therm.reported → domOn s 173 = true → ∃ t, t = forEach s ((List.range 64).filter (fun b =>
      mapAt s b == 0 && blkState s b == 0 && blkOn s b && b != 0)) (fun s b => presetDom .off (goOff s 0xE1 (inDomain (106 + b))) (106 + b)) ∧
    exec .throttleEnter s = .next (closed s (raise (inc (setBit t thermPage 0x10C 0 true) thermPage 0x110) thermPage 1))) ∧
  (∀ s : State, throttled s = true ∨ s.therm.reported < 1100 ∨ domOn s 173 = false → exec .throttleEnter s = .next (closed s s)) ∧
  (∀ s : State, throttled s = false → exec .throttleExit s = .next (closed s s)) ∧
  (∀ s : State, throttled s = true → (s.therm.reported < 1050 → exec .throttleExit s =
      .next (closed s (raise (setBit s thermPage 0x10C 0 false) thermPage 2))) ∧
    (1050 ≤ s.therm.reported → exec .throttleExit s = .next (closed s s)))
end

