-- ==== Sys2Proof/Laws/Map.lean ====
section
/-! SUPPORT. Sparse maps: what a read finds after a write, and that writes keep the canonical form. -/

namespace Sys2Proof.Machine

variable {α : Type}

theorem mapGet_mapErase_same (d : Nat → α) (m : SMap α) (k : Nat) : mapGet d (mapErase m k) k = d k := by
  induction m with
  | nil => rfl
  | cons e m ih =>
    simp only [mapErase]
    split
    · exact ih
    · next h => simp only [mapGet, h, if_false, ih]

theorem mapGet_mapErase_other (d : Nat → α) (m : SMap α) {j k : Nat} (h : j ≠ k) :
    mapGet d (mapErase m k) j = mapGet d m j := by
  induction m with
  | nil => rfl
  | cons e m ih =>
    simp only [mapErase]
    split
    · next hk => simp only [mapGet]; rw [if_neg (fun h' => h (h'.symm.trans hk)), ih]
    · simp only [mapGet, ih]

theorem mapGet_mapInsert_other (d : Nat → α) (m : SMap α) (v : α) {j k : Nat} (h : j ≠ k) :
    mapGet d (mapInsert m k v) j = mapGet d m j := by
  induction m with
  | nil => simp only [mapInsert, mapGet]; rw [if_neg (fun h' => h h'.symm)]
  | cons e m ih =>
    simp only [mapInsert]
    split
    · simp only [mapGet]; rw [if_neg (fun h' : k = j => h h'.symm)]
    · simp only [mapGet, ih]

theorem mapGet_mapInsert_same (d : Nat → α) (m : SMap α) (k : Nat) (v : α) (h : ∀ e ∈ m, e.1 ≠ k) :
    mapGet d (mapInsert m k v) k = v := by
  induction m with
  | nil => simp [mapInsert, mapGet]
  | cons e m ih =>
    simp only [mapInsert]
    split
    · simp [mapGet]
    · simp only [mapGet]
      rw [if_neg (h e (by simp)), ih (fun x hx => h x (by simp [hx]))]

theorem mapErase_keys (m : SMap α) (k : Nat) : ∀ e ∈ mapErase m k, e.1 ≠ k := by
  induction m with
  | nil => simp [mapErase]
  | cons e m ih =>
    simp only [mapErase]
    split
    · exact ih
    · next h =>
      intro x hx
      rcases List.mem_cons.mp hx with rfl | hx
      · exact h
      · exact ih x hx

/-- A read after a write to the same key gives the value written. -/
@[simp] theorem mapGet_mapSet_same [DecidableEq α] (d : Nat → α) (m : SMap α) (k : Nat) (v : α) :
    mapGet d (mapSet d m k v) k = v := by
  unfold mapSet
  split
  · next h => rw [mapGet_mapErase_same, h]
  · exact mapGet_mapInsert_same d _ k v (mapErase_keys m k)

/-- A write leaves every other key alone. -/
theorem mapGet_mapSet_other [DecidableEq α] (d : Nat → α) (m : SMap α) (v : α) {j k : Nat} (h : j ≠ k) :
    mapGet d (mapSet d m k v) j = mapGet d m j := by
  unfold mapSet
  split
  · exact mapGet_mapErase_other d m h
  · rw [mapGet_mapInsert_other d _ v h, mapGet_mapErase_other d m h]

/-- Lower bound of a canonical map's keys. -/
def keyAbove (lo : Option Nat) (k : Nat) : Bool := match lo with | none => true | some l => decide (l < k)

theorem mapWfFrom_cons [DecidableEq α] (d : Nat → α) (lo : Option Nat) (k : Nat) (v : α) (m : SMap α) :
    mapWfFrom d lo ((k, v) :: m) = (keyAbove lo k && decide (v ≠ d k) && mapWfFrom d (some k) m) := by
  cases lo <;> rfl

theorem mapWfFrom_mono [DecidableEq α] (d : Nat → α) {lo lo' : Option Nat} (m : SMap α)
    (h : ∀ k, keyAbove lo k = true → keyAbove lo' k = true) (w : mapWfFrom d lo m = true) : mapWfFrom d lo' m = true := by
  cases m with
  | nil => rfl
  | cons e m =>
    obtain ⟨k, v⟩ := e
    rw [mapWfFrom_cons] at w ⊢
    simp only [Bool.and_eq_true] at w ⊢
    exact ⟨⟨h k w.1.1, w.1.2⟩, w.2⟩

theorem mapErase_wf [DecidableEq α] (d : Nat → α) (lo : Option Nat) (m : SMap α) (k : Nat) (w : mapWfFrom d lo m = true) :
    mapWfFrom d lo (mapErase m k) = true := by
  induction m generalizing lo with
  | nil => rfl
  | cons e m ih =>
    obtain ⟨j, v⟩ := e
    rw [mapWfFrom_cons] at w
    simp only [Bool.and_eq_true] at w
    simp only [mapErase]
    split
    · refine mapWfFrom_mono d _ ?_ (ih (some j) w.2)
      intro x hx
      cases lo with
      | none => rfl
      | some l => simp [keyAbove] at w hx ⊢; omega
    · rw [mapWfFrom_cons]
      simp only [Bool.and_eq_true]
      exact ⟨w.1, ih (some j) w.2⟩

theorem mapInsert_wf [DecidableEq α] (d : Nat → α) (lo : Option Nat) (m : SMap α) (k : Nat) (v : α) (hlo : keyAbove lo k = true)
    (hv : v ≠ d k) (hk : ∀ e ∈ m, e.1 ≠ k) (w : mapWfFrom d lo m = true) : mapWfFrom d lo (mapInsert m k v) = true := by
  induction m generalizing lo with
  | nil => simp [mapInsert, mapWfFrom_cons, hlo, hv, mapWfFrom]
  | cons e m ih =>
    obtain ⟨j, x⟩ := e
    rw [mapWfFrom_cons] at w
    simp only [Bool.and_eq_true] at w
    simp only [mapInsert]
    split
    · next hkj =>
      rw [mapWfFrom_cons, mapWfFrom_cons]
      simp only [Bool.and_eq_true]
      exact ⟨⟨hlo, by simpa using hv⟩, ⟨by simpa [keyAbove] using hkj, w.1.2⟩, w.2⟩
    · next hkj =>
      rw [mapWfFrom_cons]
      simp only [Bool.and_eq_true]
      have hj : j ≠ k := hk (j, x) (by simp)
      exact ⟨w.1, ih (some j) (by simp [keyAbove]; omega) (fun e he => hk e (by simp [he])) w.2⟩

/-- A write keeps the canonical form. -/
theorem mapSet_wf [DecidableEq α] (d : Nat → α) (m : SMap α) (k : Nat) (v : α) (w : mapWf d m = true) : mapWf d (mapSet d m k v) = true := by
  unfold mapWf at w ⊢
  unfold mapSet
  split
  · exact mapErase_wf d none m k w
  · next h => exact mapInsert_wf d none _ k v rfl h (mapErase_keys m k) (mapErase_wf d none m k w)

/-- What is filtered out of a canonical map leaves it canonical. -/
theorem mapFilter_wf [DecidableEq α] (d : Nat → α) (p : Nat × α → Bool) (lo : Option Nat) (m : SMap α) (w : mapWfFrom d lo m = true) :
    mapWfFrom d lo (m.filter p) = true := by
  induction m generalizing lo with
  | nil => rfl
  | cons e m ih =>
    obtain ⟨j, v⟩ := e
    rw [mapWfFrom_cons] at w
    simp only [Bool.and_eq_true] at w
    rw [List.filter_cons]
    split
    · rw [mapWfFrom_cons]
      simp only [Bool.and_eq_true]
      exact ⟨w.1, ih (some j) w.2⟩
    · refine mapWfFrom_mono d _ ?_ (ih (some j) w.2)
      intro x hx
      cases lo with
      | none => rfl
      | some l => simp [keyAbove] at w hx ⊢; omega

end Sys2Proof.Machine
end

