-- ==== Sys2Proof/Laws/State.lean ====
section
/-! SUPPORT. What each update of the state leaves alone: for every update, every field it does not write, as one list of
equations that simp reads one by one. -/

namespace Sys2Proof.Machine

theorem wr_only (s : State) (p o : Nat) (v : Word) :
    ∃ v0, wr s p o v = { s with regs := v0 } :=
  ⟨_, rfl⟩
theorem only_regs1 {s t : State} (v0 : SMap Word) (h : t = { s with regs := v0 }) :
    t.baseCount = s.baseCount ∧ t.tabs = s.tabs ∧ t.snaps = s.snaps ∧ t.pending = s.pending ∧ t.freeCtr = s.freeCtr ∧
    t.out = s.out ∧ t.resp = s.resp ∧ t.escal = s.escal ∧ t.rdShadow = s.rdShadow := by
  subst h; exact ⟨rfl, rfl, rfl, rfl, rfl, rfl, rfl, rfl, rfl⟩

theorem only_regs2 {s t : State} (v0 : SMap Word) (h : t = { s with regs := v0 }) :
    t.wrShadow = s.wrShadow ∧ t.tblCmd = s.tblCmd ∧ t.parBad = s.parBad ∧ t.mode = s.mode ∧ t.pins = s.pins ∧
    t.doms = s.doms ∧ t.holds = s.holds ∧ t.resets = s.resets ∧ t.d2d = s.d2d := by
  subst h; exact ⟨rfl, rfl, rfl, rfl, rfl, rfl, rfl, rfl, rfl⟩

theorem only_regs3 {s t : State} (v0 : SMap Word) (h : t = { s with regs := v0 }) :
    t.queues = s.queues ∧ t.eports = s.eports ∧ t.admitting = s.admitting ∧ t.jobs = s.jobs ∧ t.rxOpen = s.rxOpen ∧
    t.pipes = s.pipes ∧ t.gates = s.gates ∧ t.gran = s.gran ∧ t.page = s.page := by
  subst h; exact ⟨rfl, rfl, rfl, rfl, rfl, rfl, rfl, rfl, rfl⟩

theorem only_regs4 {s t : State} (v0 : SMap Word) (h : t = { s with regs := v0 }) :
    t.dramBad = s.dramBad ∧ t.cqueues = s.cqueues ∧ t.cust = s.cust ∧ t.dimms = s.dimms ∧ t.nextId = s.nextId ∧
    t.inj = s.inj ∧ t.insp = s.insp ∧ t.foot = s.foot ∧ t.fwTabs = s.fwTabs := by
  subst h; exact ⟨rfl, rfl, rfl, rfl, rfl, rfl, rfl, rfl, rfl⟩

theorem only_regs5 {s t : State} (v0 : SMap Word) (h : t = { s with regs := v0 }) :
    t.therm = s.therm ∧ t.pcie = s.pcie ∧ t.tbs = s.tbs ∧ t.mtrLast = s.mtrLast ∧ t.mirCnt = s.mirCnt ∧
    t.mirSeq = s.mirSeq ∧ t.lpmStuck = s.lpmStuck ∧ t.caps = s.caps ∧ t.chans = s.chans := by
  subst h; exact ⟨rfl, rfl, rfl, rfl, rfl, rfl, rfl, rfl, rfl⟩

theorem only_regs6 {s t : State} (v0 : SMap Word) (h : t = { s with regs := v0 }) :
    t.scratch = s.scratch ∧ t.span = s.span ∧ t.tioFifo = s.tioFifo ∧ t.tioLast = s.tioLast ∧ t.sense = s.sense ∧
    t.colls = s.colls ∧ t.modRetry = s.modRetry ∧ t.eqHeld = s.eqHeld ∧ t.modNacks = s.modNacks := by
  subst h; exact ⟨rfl, rfl, rfl, rfl, rfl, rfl, rfl, rfl, rfl⟩

theorem only_regs7 {s t : State} (v0 : SMap Word) (h : t = { s with regs := v0 }) :
    t.fecWin = s.fecWin ∧ t.eyeLane = s.eyeLane ∧ t.cagePins = s.cagePins ∧ t.xferCmd = s.xferCmd ∧ t.diagCmd = s.diagCmd ∧
    t.mirHeld = s.mirHeld ∧ t.stamps = s.stamps ∧ t.tcPorts = s.tcPorts ∧ t.ptpPorts = s.ptpPorts := by
  subst h; exact ⟨rfl, rfl, rfl, rfl, rfl, rfl, rfl, rfl, rfl⟩

theorem only_regs8 {s t : State} (v0 : SMap Word) (h : t = { s with regs := v0 }) :
    t.lifts = s.lifts ∧ t.groups = s.groups ∧ t.dispatchAt = s.dispatchAt ∧ t.bscFifo = s.bscFifo ∧ t.stepped = s.stepped ∧
    t.sqs = s.sqs ∧ t.cqs = s.cqs ∧ t.txWait = s.txWait ∧ t.rxWait = s.rxWait := by
  subst h; exact ⟨rfl, rfl, rfl, rfl, rfl, rfl, rfl, rfl, rfl⟩

theorem only_regs9 {s t : State} (v0 : SMap Word) (h : t = { s with regs := v0 }) :
    t.turns = s.turns ∧ t.lostTx = s.lostTx ∧ t.lastReason = s.lastReason ∧ t.scratchNew = s.scratchNew ∧ t.scratchMem = s.scratchMem ∧
    t.blkImg = s.blkImg ∧ t.svcOp = s.svcOp ∧ t.buckets = s.buckets ∧ t.embHold = s.embHold := by
  subst h; exact ⟨rfl, rfl, rfl, rfl, rfl, rfl, rfl, rfl, rfl⟩

theorem only_regs10 {s t : State} (v0 : SMap Word) (h : t = { s with regs := v0 }) :
    t.inHand = s.inHand ∧ t.redeliv = s.redeliv ∧ t.svcCfg = s.svcCfg ∧ t.svcObjs = s.svcObjs ∧ t.svcServed = s.svcServed ∧
    t.storeDigest = s.storeDigest ∧ t.logLen = s.logLen ∧ t.certSerial = s.certSerial ∧ t.boot = s.boot := by
  subst h; exact ⟨rfl, rfl, rfl, rfl, rfl, rfl, rfl, rfl, rfl⟩

theorem only_regs11 {s t : State} (v0 : SMap Word) (h : t = { s with regs := v0 }) :
    t.tabBad = s.tabBad ∧ t.aonFailed = s.aonFailed ∧ t.wdogAt = s.wdogAt ∧ t.replicas = s.replicas := by
  subst h; exact ⟨rfl, rfl, rfl, rfl⟩

@[simp] theorem wr_frame1 (s : State) (p o : Nat) (v : Word) :
    (wr s p o v).baseCount = s.baseCount ∧ (wr s p o v).tabs = s.tabs ∧ (wr s p o v).snaps = s.snaps ∧
    (wr s p o v).pending = s.pending ∧ (wr s p o v).freeCtr = s.freeCtr ∧ (wr s p o v).out = s.out ∧
    (wr s p o v).resp = s.resp ∧ (wr s p o v).escal = s.escal ∧ (wr s p o v).rdShadow = s.rdShadow :=
  let ⟨v0, h⟩ := wr_only s p o v
  only_regs1 v0 h

@[simp] theorem wr_frame2 (s : State) (p o : Nat) (v : Word) :
    (wr s p o v).wrShadow = s.wrShadow ∧ (wr s p o v).tblCmd = s.tblCmd ∧ (wr s p o v).parBad = s.parBad ∧
    (wr s p o v).mode = s.mode ∧ (wr s p o v).pins = s.pins ∧ (wr s p o v).doms = s.doms ∧
    (wr s p o v).holds = s.holds ∧ (wr s p o v).resets = s.resets ∧ (wr s p o v).d2d = s.d2d :=
  let ⟨v0, h⟩ := wr_only s p o v
  only_regs2 v0 h

@[simp] theorem wr_frame3 (s : State) (p o : Nat) (v : Word) :
    (wr s p o v).queues = s.queues ∧ (wr s p o v).eports = s.eports ∧ (wr s p o v).admitting = s.admitting ∧
    (wr s p o v).jobs = s.jobs ∧ (wr s p o v).rxOpen = s.rxOpen ∧ (wr s p o v).pipes = s.pipes ∧
    (wr s p o v).gates = s.gates ∧ (wr s p o v).gran = s.gran ∧ (wr s p o v).page = s.page :=
  let ⟨v0, h⟩ := wr_only s p o v
  only_regs3 v0 h

@[simp] theorem wr_frame4 (s : State) (p o : Nat) (v : Word) :
    (wr s p o v).dramBad = s.dramBad ∧ (wr s p o v).cqueues = s.cqueues ∧ (wr s p o v).cust = s.cust ∧
    (wr s p o v).dimms = s.dimms ∧ (wr s p o v).nextId = s.nextId ∧ (wr s p o v).inj = s.inj ∧
    (wr s p o v).insp = s.insp ∧ (wr s p o v).foot = s.foot ∧ (wr s p o v).fwTabs = s.fwTabs :=
  let ⟨v0, h⟩ := wr_only s p o v
  only_regs4 v0 h

@[simp] theorem wr_frame5 (s : State) (p o : Nat) (v : Word) :
    (wr s p o v).therm = s.therm ∧ (wr s p o v).pcie = s.pcie ∧ (wr s p o v).tbs = s.tbs ∧
    (wr s p o v).mtrLast = s.mtrLast ∧ (wr s p o v).mirCnt = s.mirCnt ∧ (wr s p o v).mirSeq = s.mirSeq ∧
    (wr s p o v).lpmStuck = s.lpmStuck ∧ (wr s p o v).caps = s.caps ∧ (wr s p o v).chans = s.chans :=
  let ⟨v0, h⟩ := wr_only s p o v
  only_regs5 v0 h

@[simp] theorem wr_frame6 (s : State) (p o : Nat) (v : Word) :
    (wr s p o v).scratch = s.scratch ∧ (wr s p o v).span = s.span ∧ (wr s p o v).tioFifo = s.tioFifo ∧
    (wr s p o v).tioLast = s.tioLast ∧ (wr s p o v).sense = s.sense ∧ (wr s p o v).colls = s.colls ∧
    (wr s p o v).modRetry = s.modRetry ∧ (wr s p o v).eqHeld = s.eqHeld ∧ (wr s p o v).modNacks = s.modNacks :=
  let ⟨v0, h⟩ := wr_only s p o v
  only_regs6 v0 h

@[simp] theorem wr_frame7 (s : State) (p o : Nat) (v : Word) :
    (wr s p o v).fecWin = s.fecWin ∧ (wr s p o v).eyeLane = s.eyeLane ∧ (wr s p o v).cagePins = s.cagePins ∧
    (wr s p o v).xferCmd = s.xferCmd ∧ (wr s p o v).diagCmd = s.diagCmd ∧ (wr s p o v).mirHeld = s.mirHeld ∧
    (wr s p o v).stamps = s.stamps ∧ (wr s p o v).tcPorts = s.tcPorts ∧ (wr s p o v).ptpPorts = s.ptpPorts :=
  let ⟨v0, h⟩ := wr_only s p o v
  only_regs7 v0 h

@[simp] theorem wr_frame8 (s : State) (p o : Nat) (v : Word) :
    (wr s p o v).lifts = s.lifts ∧ (wr s p o v).groups = s.groups ∧ (wr s p o v).dispatchAt = s.dispatchAt ∧
    (wr s p o v).bscFifo = s.bscFifo ∧ (wr s p o v).stepped = s.stepped ∧ (wr s p o v).sqs = s.sqs ∧
    (wr s p o v).cqs = s.cqs ∧ (wr s p o v).txWait = s.txWait ∧ (wr s p o v).rxWait = s.rxWait :=
  let ⟨v0, h⟩ := wr_only s p o v
  only_regs8 v0 h

@[simp] theorem wr_frame9 (s : State) (p o : Nat) (v : Word) :
    (wr s p o v).turns = s.turns ∧ (wr s p o v).lostTx = s.lostTx ∧ (wr s p o v).lastReason = s.lastReason ∧
    (wr s p o v).scratchNew = s.scratchNew ∧ (wr s p o v).scratchMem = s.scratchMem ∧ (wr s p o v).blkImg = s.blkImg ∧
    (wr s p o v).svcOp = s.svcOp ∧ (wr s p o v).buckets = s.buckets ∧ (wr s p o v).embHold = s.embHold :=
  let ⟨v0, h⟩ := wr_only s p o v
  only_regs9 v0 h

@[simp] theorem wr_frame10 (s : State) (p o : Nat) (v : Word) :
    (wr s p o v).inHand = s.inHand ∧ (wr s p o v).redeliv = s.redeliv ∧ (wr s p o v).svcCfg = s.svcCfg ∧
    (wr s p o v).svcObjs = s.svcObjs ∧ (wr s p o v).svcServed = s.svcServed ∧ (wr s p o v).storeDigest = s.storeDigest ∧
    (wr s p o v).logLen = s.logLen ∧ (wr s p o v).certSerial = s.certSerial ∧ (wr s p o v).boot = s.boot :=
  let ⟨v0, h⟩ := wr_only s p o v
  only_regs10 v0 h

@[simp] theorem wr_frame11 (s : State) (p o : Nat) (v : Word) :
    (wr s p o v).tabBad = s.tabBad ∧ (wr s p o v).aonFailed = s.aonFailed ∧ (wr s p o v).wdogAt = s.wdogAt ∧
    (wr s p o v).replicas = s.replicas :=
  let ⟨v0, h⟩ := wr_only s p o v
  only_regs11 v0 h

theorem setFld_only (s : State) (p o hi lo n : Nat) :
    ∃ v0, setFld s p o hi lo n = { s with regs := v0 } :=
  ⟨_, rfl⟩
@[simp] theorem setFld_frame1 (s : State) (p o hi lo n : Nat) :
    (setFld s p o hi lo n).baseCount = s.baseCount ∧ (setFld s p o hi lo n).tabs = s.tabs ∧ (setFld s p o hi lo n).snaps = s.snaps ∧
    (setFld s p o hi lo n).pending = s.pending ∧ (setFld s p o hi lo n).freeCtr = s.freeCtr ∧ (setFld s p o hi lo n).out = s.out ∧
    (setFld s p o hi lo n).resp = s.resp ∧ (setFld s p o hi lo n).escal = s.escal ∧ (setFld s p o hi lo n).rdShadow = s.rdShadow :=
  let ⟨v0, h⟩ := setFld_only s p o hi lo n
  only_regs1 v0 h

@[simp] theorem setFld_frame2 (s : State) (p o hi lo n : Nat) :
    (setFld s p o hi lo n).wrShadow = s.wrShadow ∧ (setFld s p o hi lo n).tblCmd = s.tblCmd ∧ (setFld s p o hi lo n).parBad = s.parBad ∧
    (setFld s p o hi lo n).mode = s.mode ∧ (setFld s p o hi lo n).pins = s.pins ∧ (setFld s p o hi lo n).doms = s.doms ∧
    (setFld s p o hi lo n).holds = s.holds ∧ (setFld s p o hi lo n).resets = s.resets ∧ (setFld s p o hi lo n).d2d = s.d2d :=
  let ⟨v0, h⟩ := setFld_only s p o hi lo n
  only_regs2 v0 h

@[simp] theorem setFld_frame3 (s : State) (p o hi lo n : Nat) :
    (setFld s p o hi lo n).queues = s.queues ∧ (setFld s p o hi lo n).eports = s.eports ∧ (setFld s p o hi lo n).admitting = s.admitting ∧
    (setFld s p o hi lo n).jobs = s.jobs ∧ (setFld s p o hi lo n).rxOpen = s.rxOpen ∧ (setFld s p o hi lo n).pipes = s.pipes ∧
    (setFld s p o hi lo n).gates = s.gates ∧ (setFld s p o hi lo n).gran = s.gran ∧ (setFld s p o hi lo n).page = s.page :=
  let ⟨v0, h⟩ := setFld_only s p o hi lo n
  only_regs3 v0 h

@[simp] theorem setFld_frame4 (s : State) (p o hi lo n : Nat) :
    (setFld s p o hi lo n).dramBad = s.dramBad ∧ (setFld s p o hi lo n).cqueues = s.cqueues ∧ (setFld s p o hi lo n).cust = s.cust ∧
    (setFld s p o hi lo n).dimms = s.dimms ∧ (setFld s p o hi lo n).nextId = s.nextId ∧ (setFld s p o hi lo n).inj = s.inj ∧
    (setFld s p o hi lo n).insp = s.insp ∧ (setFld s p o hi lo n).foot = s.foot ∧ (setFld s p o hi lo n).fwTabs = s.fwTabs :=
  let ⟨v0, h⟩ := setFld_only s p o hi lo n
  only_regs4 v0 h

@[simp] theorem setFld_frame5 (s : State) (p o hi lo n : Nat) :
    (setFld s p o hi lo n).therm = s.therm ∧ (setFld s p o hi lo n).pcie = s.pcie ∧ (setFld s p o hi lo n).tbs = s.tbs ∧
    (setFld s p o hi lo n).mtrLast = s.mtrLast ∧ (setFld s p o hi lo n).mirCnt = s.mirCnt ∧ (setFld s p o hi lo n).mirSeq = s.mirSeq ∧
    (setFld s p o hi lo n).lpmStuck = s.lpmStuck ∧ (setFld s p o hi lo n).caps = s.caps ∧ (setFld s p o hi lo n).chans = s.chans :=
  let ⟨v0, h⟩ := setFld_only s p o hi lo n
  only_regs5 v0 h

@[simp] theorem setFld_frame6 (s : State) (p o hi lo n : Nat) :
    (setFld s p o hi lo n).scratch = s.scratch ∧ (setFld s p o hi lo n).span = s.span ∧ (setFld s p o hi lo n).tioFifo = s.tioFifo ∧
    (setFld s p o hi lo n).tioLast = s.tioLast ∧ (setFld s p o hi lo n).sense = s.sense ∧ (setFld s p o hi lo n).colls = s.colls ∧
    (setFld s p o hi lo n).modRetry = s.modRetry ∧ (setFld s p o hi lo n).eqHeld = s.eqHeld ∧ (setFld s p o hi lo n).modNacks = s.modNacks :=
  let ⟨v0, h⟩ := setFld_only s p o hi lo n
  only_regs6 v0 h

@[simp] theorem setFld_frame7 (s : State) (p o hi lo n : Nat) :
    (setFld s p o hi lo n).fecWin = s.fecWin ∧ (setFld s p o hi lo n).eyeLane = s.eyeLane ∧ (setFld s p o hi lo n).cagePins = s.cagePins ∧
    (setFld s p o hi lo n).xferCmd = s.xferCmd ∧ (setFld s p o hi lo n).diagCmd = s.diagCmd ∧ (setFld s p o hi lo n).mirHeld = s.mirHeld ∧
    (setFld s p o hi lo n).stamps = s.stamps ∧ (setFld s p o hi lo n).tcPorts = s.tcPorts ∧ (setFld s p o hi lo n).ptpPorts = s.ptpPorts :=
  let ⟨v0, h⟩ := setFld_only s p o hi lo n
  only_regs7 v0 h

@[simp] theorem setFld_frame8 (s : State) (p o hi lo n : Nat) :
    (setFld s p o hi lo n).lifts = s.lifts ∧ (setFld s p o hi lo n).groups = s.groups ∧ (setFld s p o hi lo n).dispatchAt = s.dispatchAt ∧
    (setFld s p o hi lo n).bscFifo = s.bscFifo ∧ (setFld s p o hi lo n).stepped = s.stepped ∧ (setFld s p o hi lo n).sqs = s.sqs ∧
    (setFld s p o hi lo n).cqs = s.cqs ∧ (setFld s p o hi lo n).txWait = s.txWait ∧ (setFld s p o hi lo n).rxWait = s.rxWait :=
  let ⟨v0, h⟩ := setFld_only s p o hi lo n
  only_regs8 v0 h

@[simp] theorem setFld_frame9 (s : State) (p o hi lo n : Nat) :
    (setFld s p o hi lo n).turns = s.turns ∧ (setFld s p o hi lo n).lostTx = s.lostTx ∧ (setFld s p o hi lo n).lastReason = s.lastReason ∧
    (setFld s p o hi lo n).scratchNew = s.scratchNew ∧ (setFld s p o hi lo n).scratchMem = s.scratchMem ∧ (setFld s p o hi lo n).blkImg = s.blkImg ∧
    (setFld s p o hi lo n).svcOp = s.svcOp ∧ (setFld s p o hi lo n).buckets = s.buckets ∧ (setFld s p o hi lo n).embHold = s.embHold :=
  let ⟨v0, h⟩ := setFld_only s p o hi lo n
  only_regs9 v0 h

@[simp] theorem setFld_frame10 (s : State) (p o hi lo n : Nat) :
    (setFld s p o hi lo n).inHand = s.inHand ∧ (setFld s p o hi lo n).redeliv = s.redeliv ∧ (setFld s p o hi lo n).svcCfg = s.svcCfg ∧
    (setFld s p o hi lo n).svcObjs = s.svcObjs ∧ (setFld s p o hi lo n).svcServed = s.svcServed ∧ (setFld s p o hi lo n).storeDigest = s.storeDigest ∧
    (setFld s p o hi lo n).logLen = s.logLen ∧ (setFld s p o hi lo n).certSerial = s.certSerial ∧ (setFld s p o hi lo n).boot = s.boot :=
  let ⟨v0, h⟩ := setFld_only s p o hi lo n
  only_regs10 v0 h

@[simp] theorem setFld_frame11 (s : State) (p o hi lo n : Nat) :
    (setFld s p o hi lo n).tabBad = s.tabBad ∧ (setFld s p o hi lo n).aonFailed = s.aonFailed ∧ (setFld s p o hi lo n).wdogAt = s.wdogAt ∧
    (setFld s p o hi lo n).replicas = s.replicas :=
  let ⟨v0, h⟩ := setFld_only s p o hi lo n
  only_regs11 v0 h

theorem setBit_only (s : State) (p o b : Nat) (v : Bool) :
    ∃ v0, setBit s p o b v = { s with regs := v0 } :=
  ⟨_, rfl⟩
@[simp] theorem setBit_frame1 (s : State) (p o b : Nat) (v : Bool) :
    (setBit s p o b v).baseCount = s.baseCount ∧ (setBit s p o b v).tabs = s.tabs ∧ (setBit s p o b v).snaps = s.snaps ∧
    (setBit s p o b v).pending = s.pending ∧ (setBit s p o b v).freeCtr = s.freeCtr ∧ (setBit s p o b v).out = s.out ∧
    (setBit s p o b v).resp = s.resp ∧ (setBit s p o b v).escal = s.escal ∧ (setBit s p o b v).rdShadow = s.rdShadow :=
  let ⟨v0, h⟩ := setBit_only s p o b v
  only_regs1 v0 h

@[simp] theorem setBit_frame2 (s : State) (p o b : Nat) (v : Bool) :
    (setBit s p o b v).wrShadow = s.wrShadow ∧ (setBit s p o b v).tblCmd = s.tblCmd ∧ (setBit s p o b v).parBad = s.parBad ∧
    (setBit s p o b v).mode = s.mode ∧ (setBit s p o b v).pins = s.pins ∧ (setBit s p o b v).doms = s.doms ∧
    (setBit s p o b v).holds = s.holds ∧ (setBit s p o b v).resets = s.resets ∧ (setBit s p o b v).d2d = s.d2d :=
  let ⟨v0, h⟩ := setBit_only s p o b v
  only_regs2 v0 h

@[simp] theorem setBit_frame3 (s : State) (p o b : Nat) (v : Bool) :
    (setBit s p o b v).queues = s.queues ∧ (setBit s p o b v).eports = s.eports ∧ (setBit s p o b v).admitting = s.admitting ∧
    (setBit s p o b v).jobs = s.jobs ∧ (setBit s p o b v).rxOpen = s.rxOpen ∧ (setBit s p o b v).pipes = s.pipes ∧
    (setBit s p o b v).gates = s.gates ∧ (setBit s p o b v).gran = s.gran ∧ (setBit s p o b v).page = s.page :=
  let ⟨v0, h⟩ := setBit_only s p o b v
  only_regs3 v0 h

@[simp] theorem setBit_frame4 (s : State) (p o b : Nat) (v : Bool) :
    (setBit s p o b v).dramBad = s.dramBad ∧ (setBit s p o b v).cqueues = s.cqueues ∧ (setBit s p o b v).cust = s.cust ∧
    (setBit s p o b v).dimms = s.dimms ∧ (setBit s p o b v).nextId = s.nextId ∧ (setBit s p o b v).inj = s.inj ∧
    (setBit s p o b v).insp = s.insp ∧ (setBit s p o b v).foot = s.foot ∧ (setBit s p o b v).fwTabs = s.fwTabs :=
  let ⟨v0, h⟩ := setBit_only s p o b v
  only_regs4 v0 h

@[simp] theorem setBit_frame5 (s : State) (p o b : Nat) (v : Bool) :
    (setBit s p o b v).therm = s.therm ∧ (setBit s p o b v).pcie = s.pcie ∧ (setBit s p o b v).tbs = s.tbs ∧
    (setBit s p o b v).mtrLast = s.mtrLast ∧ (setBit s p o b v).mirCnt = s.mirCnt ∧ (setBit s p o b v).mirSeq = s.mirSeq ∧
    (setBit s p o b v).lpmStuck = s.lpmStuck ∧ (setBit s p o b v).caps = s.caps ∧ (setBit s p o b v).chans = s.chans :=
  let ⟨v0, h⟩ := setBit_only s p o b v
  only_regs5 v0 h

@[simp] theorem setBit_frame6 (s : State) (p o b : Nat) (v : Bool) :
    (setBit s p o b v).scratch = s.scratch ∧ (setBit s p o b v).span = s.span ∧ (setBit s p o b v).tioFifo = s.tioFifo ∧
    (setBit s p o b v).tioLast = s.tioLast ∧ (setBit s p o b v).sense = s.sense ∧ (setBit s p o b v).colls = s.colls ∧
    (setBit s p o b v).modRetry = s.modRetry ∧ (setBit s p o b v).eqHeld = s.eqHeld ∧ (setBit s p o b v).modNacks = s.modNacks :=
  let ⟨v0, h⟩ := setBit_only s p o b v
  only_regs6 v0 h

@[simp] theorem setBit_frame7 (s : State) (p o b : Nat) (v : Bool) :
    (setBit s p o b v).fecWin = s.fecWin ∧ (setBit s p o b v).eyeLane = s.eyeLane ∧ (setBit s p o b v).cagePins = s.cagePins ∧
    (setBit s p o b v).xferCmd = s.xferCmd ∧ (setBit s p o b v).diagCmd = s.diagCmd ∧ (setBit s p o b v).mirHeld = s.mirHeld ∧
    (setBit s p o b v).stamps = s.stamps ∧ (setBit s p o b v).tcPorts = s.tcPorts ∧ (setBit s p o b v).ptpPorts = s.ptpPorts :=
  let ⟨v0, h⟩ := setBit_only s p o b v
  only_regs7 v0 h

@[simp] theorem setBit_frame8 (s : State) (p o b : Nat) (v : Bool) :
    (setBit s p o b v).lifts = s.lifts ∧ (setBit s p o b v).groups = s.groups ∧ (setBit s p o b v).dispatchAt = s.dispatchAt ∧
    (setBit s p o b v).bscFifo = s.bscFifo ∧ (setBit s p o b v).stepped = s.stepped ∧ (setBit s p o b v).sqs = s.sqs ∧
    (setBit s p o b v).cqs = s.cqs ∧ (setBit s p o b v).txWait = s.txWait ∧ (setBit s p o b v).rxWait = s.rxWait :=
  let ⟨v0, h⟩ := setBit_only s p o b v
  only_regs8 v0 h

@[simp] theorem setBit_frame9 (s : State) (p o b : Nat) (v : Bool) :
    (setBit s p o b v).turns = s.turns ∧ (setBit s p o b v).lostTx = s.lostTx ∧ (setBit s p o b v).lastReason = s.lastReason ∧
    (setBit s p o b v).scratchNew = s.scratchNew ∧ (setBit s p o b v).scratchMem = s.scratchMem ∧ (setBit s p o b v).blkImg = s.blkImg ∧
    (setBit s p o b v).svcOp = s.svcOp ∧ (setBit s p o b v).buckets = s.buckets ∧ (setBit s p o b v).embHold = s.embHold :=
  let ⟨v0, h⟩ := setBit_only s p o b v
  only_regs9 v0 h

@[simp] theorem setBit_frame10 (s : State) (p o b : Nat) (v : Bool) :
    (setBit s p o b v).inHand = s.inHand ∧ (setBit s p o b v).redeliv = s.redeliv ∧ (setBit s p o b v).svcCfg = s.svcCfg ∧
    (setBit s p o b v).svcObjs = s.svcObjs ∧ (setBit s p o b v).svcServed = s.svcServed ∧ (setBit s p o b v).storeDigest = s.storeDigest ∧
    (setBit s p o b v).logLen = s.logLen ∧ (setBit s p o b v).certSerial = s.certSerial ∧ (setBit s p o b v).boot = s.boot :=
  let ⟨v0, h⟩ := setBit_only s p o b v
  only_regs10 v0 h

@[simp] theorem setBit_frame11 (s : State) (p o b : Nat) (v : Bool) :
    (setBit s p o b v).tabBad = s.tabBad ∧ (setBit s p o b v).aonFailed = s.aonFailed ∧ (setBit s p o b v).wdogAt = s.wdogAt ∧
    (setBit s p o b v).replicas = s.replicas :=
  let ⟨v0, h⟩ := setBit_only s p o b v
  only_regs11 v0 h

theorem addSat_only (s : State) (p o hi lo k : Nat) :
    ∃ v0, addSat s p o hi lo k = { s with regs := v0 } :=
  ⟨_, rfl⟩
@[simp] theorem addSat_frame1 (s : State) (p o hi lo k : Nat) :
    (addSat s p o hi lo k).baseCount = s.baseCount ∧ (addSat s p o hi lo k).tabs = s.tabs ∧ (addSat s p o hi lo k).snaps = s.snaps ∧
    (addSat s p o hi lo k).pending = s.pending ∧ (addSat s p o hi lo k).freeCtr = s.freeCtr ∧ (addSat s p o hi lo k).out = s.out ∧
    (addSat s p o hi lo k).resp = s.resp ∧ (addSat s p o hi lo k).escal = s.escal ∧ (addSat s p o hi lo k).rdShadow = s.rdShadow :=
  let ⟨v0, h⟩ := addSat_only s p o hi lo k
  only_regs1 v0 h

@[simp] theorem addSat_frame2 (s : State) (p o hi lo k : Nat) :
    (addSat s p o hi lo k).wrShadow = s.wrShadow ∧ (addSat s p o hi lo k).tblCmd = s.tblCmd ∧ (addSat s p o hi lo k).parBad = s.parBad ∧
    (addSat s p o hi lo k).mode = s.mode ∧ (addSat s p o hi lo k).pins = s.pins ∧ (addSat s p o hi lo k).doms = s.doms ∧
    (addSat s p o hi lo k).holds = s.holds ∧ (addSat s p o hi lo k).resets = s.resets ∧ (addSat s p o hi lo k).d2d = s.d2d :=
  let ⟨v0, h⟩ := addSat_only s p o hi lo k
  only_regs2 v0 h

@[simp] theorem addSat_frame3 (s : State) (p o hi lo k : Nat) :
    (addSat s p o hi lo k).queues = s.queues ∧ (addSat s p o hi lo k).eports = s.eports ∧ (addSat s p o hi lo k).admitting = s.admitting ∧
    (addSat s p o hi lo k).jobs = s.jobs ∧ (addSat s p o hi lo k).rxOpen = s.rxOpen ∧ (addSat s p o hi lo k).pipes = s.pipes ∧
    (addSat s p o hi lo k).gates = s.gates ∧ (addSat s p o hi lo k).gran = s.gran ∧ (addSat s p o hi lo k).page = s.page :=
  let ⟨v0, h⟩ := addSat_only s p o hi lo k
  only_regs3 v0 h

@[simp] theorem addSat_frame4 (s : State) (p o hi lo k : Nat) :
    (addSat s p o hi lo k).dramBad = s.dramBad ∧ (addSat s p o hi lo k).cqueues = s.cqueues ∧ (addSat s p o hi lo k).cust = s.cust ∧
    (addSat s p o hi lo k).dimms = s.dimms ∧ (addSat s p o hi lo k).nextId = s.nextId ∧ (addSat s p o hi lo k).inj = s.inj ∧
    (addSat s p o hi lo k).insp = s.insp ∧ (addSat s p o hi lo k).foot = s.foot ∧ (addSat s p o hi lo k).fwTabs = s.fwTabs :=
  let ⟨v0, h⟩ := addSat_only s p o hi lo k
  only_regs4 v0 h

@[simp] theorem addSat_frame5 (s : State) (p o hi lo k : Nat) :
    (addSat s p o hi lo k).therm = s.therm ∧ (addSat s p o hi lo k).pcie = s.pcie ∧ (addSat s p o hi lo k).tbs = s.tbs ∧
    (addSat s p o hi lo k).mtrLast = s.mtrLast ∧ (addSat s p o hi lo k).mirCnt = s.mirCnt ∧ (addSat s p o hi lo k).mirSeq = s.mirSeq ∧
    (addSat s p o hi lo k).lpmStuck = s.lpmStuck ∧ (addSat s p o hi lo k).caps = s.caps ∧ (addSat s p o hi lo k).chans = s.chans :=
  let ⟨v0, h⟩ := addSat_only s p o hi lo k
  only_regs5 v0 h

@[simp] theorem addSat_frame6 (s : State) (p o hi lo k : Nat) :
    (addSat s p o hi lo k).scratch = s.scratch ∧ (addSat s p o hi lo k).span = s.span ∧ (addSat s p o hi lo k).tioFifo = s.tioFifo ∧
    (addSat s p o hi lo k).tioLast = s.tioLast ∧ (addSat s p o hi lo k).sense = s.sense ∧ (addSat s p o hi lo k).colls = s.colls ∧
    (addSat s p o hi lo k).modRetry = s.modRetry ∧ (addSat s p o hi lo k).eqHeld = s.eqHeld ∧ (addSat s p o hi lo k).modNacks = s.modNacks :=
  let ⟨v0, h⟩ := addSat_only s p o hi lo k
  only_regs6 v0 h

@[simp] theorem addSat_frame7 (s : State) (p o hi lo k : Nat) :
    (addSat s p o hi lo k).fecWin = s.fecWin ∧ (addSat s p o hi lo k).eyeLane = s.eyeLane ∧ (addSat s p o hi lo k).cagePins = s.cagePins ∧
    (addSat s p o hi lo k).xferCmd = s.xferCmd ∧ (addSat s p o hi lo k).diagCmd = s.diagCmd ∧ (addSat s p o hi lo k).mirHeld = s.mirHeld ∧
    (addSat s p o hi lo k).stamps = s.stamps ∧ (addSat s p o hi lo k).tcPorts = s.tcPorts ∧ (addSat s p o hi lo k).ptpPorts = s.ptpPorts :=
  let ⟨v0, h⟩ := addSat_only s p o hi lo k
  only_regs7 v0 h

@[simp] theorem addSat_frame8 (s : State) (p o hi lo k : Nat) :
    (addSat s p o hi lo k).lifts = s.lifts ∧ (addSat s p o hi lo k).groups = s.groups ∧ (addSat s p o hi lo k).dispatchAt = s.dispatchAt ∧
    (addSat s p o hi lo k).bscFifo = s.bscFifo ∧ (addSat s p o hi lo k).stepped = s.stepped ∧ (addSat s p o hi lo k).sqs = s.sqs ∧
    (addSat s p o hi lo k).cqs = s.cqs ∧ (addSat s p o hi lo k).txWait = s.txWait ∧ (addSat s p o hi lo k).rxWait = s.rxWait :=
  let ⟨v0, h⟩ := addSat_only s p o hi lo k
  only_regs8 v0 h

@[simp] theorem addSat_frame9 (s : State) (p o hi lo k : Nat) :
    (addSat s p o hi lo k).turns = s.turns ∧ (addSat s p o hi lo k).lostTx = s.lostTx ∧ (addSat s p o hi lo k).lastReason = s.lastReason ∧
    (addSat s p o hi lo k).scratchNew = s.scratchNew ∧ (addSat s p o hi lo k).scratchMem = s.scratchMem ∧ (addSat s p o hi lo k).blkImg = s.blkImg ∧
    (addSat s p o hi lo k).svcOp = s.svcOp ∧ (addSat s p o hi lo k).buckets = s.buckets ∧ (addSat s p o hi lo k).embHold = s.embHold :=
  let ⟨v0, h⟩ := addSat_only s p o hi lo k
  only_regs9 v0 h

@[simp] theorem addSat_frame10 (s : State) (p o hi lo k : Nat) :
    (addSat s p o hi lo k).inHand = s.inHand ∧ (addSat s p o hi lo k).redeliv = s.redeliv ∧ (addSat s p o hi lo k).svcCfg = s.svcCfg ∧
    (addSat s p o hi lo k).svcObjs = s.svcObjs ∧ (addSat s p o hi lo k).svcServed = s.svcServed ∧ (addSat s p o hi lo k).storeDigest = s.storeDigest ∧
    (addSat s p o hi lo k).logLen = s.logLen ∧ (addSat s p o hi lo k).certSerial = s.certSerial ∧ (addSat s p o hi lo k).boot = s.boot :=
  let ⟨v0, h⟩ := addSat_only s p o hi lo k
  only_regs10 v0 h

@[simp] theorem addSat_frame11 (s : State) (p o hi lo k : Nat) :
    (addSat s p o hi lo k).tabBad = s.tabBad ∧ (addSat s p o hi lo k).aonFailed = s.aonFailed ∧ (addSat s p o hi lo k).wdogAt = s.wdogAt ∧
    (addSat s p o hi lo k).replicas = s.replicas :=
  let ⟨v0, h⟩ := addSat_only s p o hi lo k
  only_regs11 v0 h

theorem inc_only (s : State) (p o : Nat) :
    ∃ v0, inc s p o = { s with regs := v0 } :=
  ⟨_, rfl⟩
@[simp] theorem inc_frame1 (s : State) (p o : Nat) :
    (inc s p o).baseCount = s.baseCount ∧ (inc s p o).tabs = s.tabs ∧ (inc s p o).snaps = s.snaps ∧
    (inc s p o).pending = s.pending ∧ (inc s p o).freeCtr = s.freeCtr ∧ (inc s p o).out = s.out ∧
    (inc s p o).resp = s.resp ∧ (inc s p o).escal = s.escal ∧ (inc s p o).rdShadow = s.rdShadow :=
  let ⟨v0, h⟩ := inc_only s p o
  only_regs1 v0 h

@[simp] theorem inc_frame2 (s : State) (p o : Nat) :
    (inc s p o).wrShadow = s.wrShadow ∧ (inc s p o).tblCmd = s.tblCmd ∧ (inc s p o).parBad = s.parBad ∧
    (inc s p o).mode = s.mode ∧ (inc s p o).pins = s.pins ∧ (inc s p o).doms = s.doms ∧
    (inc s p o).holds = s.holds ∧ (inc s p o).resets = s.resets ∧ (inc s p o).d2d = s.d2d :=
  let ⟨v0, h⟩ := inc_only s p o
  only_regs2 v0 h

@[simp] theorem inc_frame3 (s : State) (p o : Nat) :
    (inc s p o).queues = s.queues ∧ (inc s p o).eports = s.eports ∧ (inc s p o).admitting = s.admitting ∧
    (inc s p o).jobs = s.jobs ∧ (inc s p o).rxOpen = s.rxOpen ∧ (inc s p o).pipes = s.pipes ∧
    (inc s p o).gates = s.gates ∧ (inc s p o).gran = s.gran ∧ (inc s p o).page = s.page :=
  let ⟨v0, h⟩ := inc_only s p o
  only_regs3 v0 h

@[simp] theorem inc_frame4 (s : State) (p o : Nat) :
    (inc s p o).dramBad = s.dramBad ∧ (inc s p o).cqueues = s.cqueues ∧ (inc s p o).cust = s.cust ∧
    (inc s p o).dimms = s.dimms ∧ (inc s p o).nextId = s.nextId ∧ (inc s p o).inj = s.inj ∧
    (inc s p o).insp = s.insp ∧ (inc s p o).foot = s.foot ∧ (inc s p o).fwTabs = s.fwTabs :=
  let ⟨v0, h⟩ := inc_only s p o
  only_regs4 v0 h

@[simp] theorem inc_frame5 (s : State) (p o : Nat) :
    (inc s p o).therm = s.therm ∧ (inc s p o).pcie = s.pcie ∧ (inc s p o).tbs = s.tbs ∧
    (inc s p o).mtrLast = s.mtrLast ∧ (inc s p o).mirCnt = s.mirCnt ∧ (inc s p o).mirSeq = s.mirSeq ∧
    (inc s p o).lpmStuck = s.lpmStuck ∧ (inc s p o).caps = s.caps ∧ (inc s p o).chans = s.chans :=
  let ⟨v0, h⟩ := inc_only s p o
  only_regs5 v0 h

@[simp] theorem inc_frame6 (s : State) (p o : Nat) :
    (inc s p o).scratch = s.scratch ∧ (inc s p o).span = s.span ∧ (inc s p o).tioFifo = s.tioFifo ∧
    (inc s p o).tioLast = s.tioLast ∧ (inc s p o).sense = s.sense ∧ (inc s p o).colls = s.colls ∧
    (inc s p o).modRetry = s.modRetry ∧ (inc s p o).eqHeld = s.eqHeld ∧ (inc s p o).modNacks = s.modNacks :=
  let ⟨v0, h⟩ := inc_only s p o
  only_regs6 v0 h

@[simp] theorem inc_frame7 (s : State) (p o : Nat) :
    (inc s p o).fecWin = s.fecWin ∧ (inc s p o).eyeLane = s.eyeLane ∧ (inc s p o).cagePins = s.cagePins ∧
    (inc s p o).xferCmd = s.xferCmd ∧ (inc s p o).diagCmd = s.diagCmd ∧ (inc s p o).mirHeld = s.mirHeld ∧
    (inc s p o).stamps = s.stamps ∧ (inc s p o).tcPorts = s.tcPorts ∧ (inc s p o).ptpPorts = s.ptpPorts :=
  let ⟨v0, h⟩ := inc_only s p o
  only_regs7 v0 h

@[simp] theorem inc_frame8 (s : State) (p o : Nat) :
    (inc s p o).lifts = s.lifts ∧ (inc s p o).groups = s.groups ∧ (inc s p o).dispatchAt = s.dispatchAt ∧
    (inc s p o).bscFifo = s.bscFifo ∧ (inc s p o).stepped = s.stepped ∧ (inc s p o).sqs = s.sqs ∧
    (inc s p o).cqs = s.cqs ∧ (inc s p o).txWait = s.txWait ∧ (inc s p o).rxWait = s.rxWait :=
  let ⟨v0, h⟩ := inc_only s p o
  only_regs8 v0 h

@[simp] theorem inc_frame9 (s : State) (p o : Nat) :
    (inc s p o).turns = s.turns ∧ (inc s p o).lostTx = s.lostTx ∧ (inc s p o).lastReason = s.lastReason ∧
    (inc s p o).scratchNew = s.scratchNew ∧ (inc s p o).scratchMem = s.scratchMem ∧ (inc s p o).blkImg = s.blkImg ∧
    (inc s p o).svcOp = s.svcOp ∧ (inc s p o).buckets = s.buckets ∧ (inc s p o).embHold = s.embHold :=
  let ⟨v0, h⟩ := inc_only s p o
  only_regs9 v0 h

@[simp] theorem inc_frame10 (s : State) (p o : Nat) :
    (inc s p o).inHand = s.inHand ∧ (inc s p o).redeliv = s.redeliv ∧ (inc s p o).svcCfg = s.svcCfg ∧
    (inc s p o).svcObjs = s.svcObjs ∧ (inc s p o).svcServed = s.svcServed ∧ (inc s p o).storeDigest = s.storeDigest ∧
    (inc s p o).logLen = s.logLen ∧ (inc s p o).certSerial = s.certSerial ∧ (inc s p o).boot = s.boot :=
  let ⟨v0, h⟩ := inc_only s p o
  only_regs10 v0 h

@[simp] theorem inc_frame11 (s : State) (p o : Nat) :
    (inc s p o).tabBad = s.tabBad ∧ (inc s p o).aonFailed = s.aonFailed ∧ (inc s p o).wdogAt = s.wdogAt ∧
    (inc s p o).replicas = s.replicas :=
  let ⟨v0, h⟩ := inc_only s p o
  only_regs11 v0 h

theorem wr64_only (s : State) (p o v : Nat) :
    ∃ v0, wr64 s p o v = { s with regs := v0 } :=
  ⟨_, rfl⟩
@[simp] theorem wr64_frame1 (s : State) (p o v : Nat) :
    (wr64 s p o v).baseCount = s.baseCount ∧ (wr64 s p o v).tabs = s.tabs ∧ (wr64 s p o v).snaps = s.snaps ∧
    (wr64 s p o v).pending = s.pending ∧ (wr64 s p o v).freeCtr = s.freeCtr ∧ (wr64 s p o v).out = s.out ∧
    (wr64 s p o v).resp = s.resp ∧ (wr64 s p o v).escal = s.escal ∧ (wr64 s p o v).rdShadow = s.rdShadow :=
  let ⟨v0, h⟩ := wr64_only s p o v
  only_regs1 v0 h

@[simp] theorem wr64_frame2 (s : State) (p o v : Nat) :
    (wr64 s p o v).wrShadow = s.wrShadow ∧ (wr64 s p o v).tblCmd = s.tblCmd ∧ (wr64 s p o v).parBad = s.parBad ∧
    (wr64 s p o v).mode = s.mode ∧ (wr64 s p o v).pins = s.pins ∧ (wr64 s p o v).doms = s.doms ∧
    (wr64 s p o v).holds = s.holds ∧ (wr64 s p o v).resets = s.resets ∧ (wr64 s p o v).d2d = s.d2d :=
  let ⟨v0, h⟩ := wr64_only s p o v
  only_regs2 v0 h

@[simp] theorem wr64_frame3 (s : State) (p o v : Nat) :
    (wr64 s p o v).queues = s.queues ∧ (wr64 s p o v).eports = s.eports ∧ (wr64 s p o v).admitting = s.admitting ∧
    (wr64 s p o v).jobs = s.jobs ∧ (wr64 s p o v).rxOpen = s.rxOpen ∧ (wr64 s p o v).pipes = s.pipes ∧
    (wr64 s p o v).gates = s.gates ∧ (wr64 s p o v).gran = s.gran ∧ (wr64 s p o v).page = s.page :=
  let ⟨v0, h⟩ := wr64_only s p o v
  only_regs3 v0 h

@[simp] theorem wr64_frame4 (s : State) (p o v : Nat) :
    (wr64 s p o v).dramBad = s.dramBad ∧ (wr64 s p o v).cqueues = s.cqueues ∧ (wr64 s p o v).cust = s.cust ∧
    (wr64 s p o v).dimms = s.dimms ∧ (wr64 s p o v).nextId = s.nextId ∧ (wr64 s p o v).inj = s.inj ∧
    (wr64 s p o v).insp = s.insp ∧ (wr64 s p o v).foot = s.foot ∧ (wr64 s p o v).fwTabs = s.fwTabs :=
  let ⟨v0, h⟩ := wr64_only s p o v
  only_regs4 v0 h

@[simp] theorem wr64_frame5 (s : State) (p o v : Nat) :
    (wr64 s p o v).therm = s.therm ∧ (wr64 s p o v).pcie = s.pcie ∧ (wr64 s p o v).tbs = s.tbs ∧
    (wr64 s p o v).mtrLast = s.mtrLast ∧ (wr64 s p o v).mirCnt = s.mirCnt ∧ (wr64 s p o v).mirSeq = s.mirSeq ∧
    (wr64 s p o v).lpmStuck = s.lpmStuck ∧ (wr64 s p o v).caps = s.caps ∧ (wr64 s p o v).chans = s.chans :=
  let ⟨v0, h⟩ := wr64_only s p o v
  only_regs5 v0 h

@[simp] theorem wr64_frame6 (s : State) (p o v : Nat) :
    (wr64 s p o v).scratch = s.scratch ∧ (wr64 s p o v).span = s.span ∧ (wr64 s p o v).tioFifo = s.tioFifo ∧
    (wr64 s p o v).tioLast = s.tioLast ∧ (wr64 s p o v).sense = s.sense ∧ (wr64 s p o v).colls = s.colls ∧
    (wr64 s p o v).modRetry = s.modRetry ∧ (wr64 s p o v).eqHeld = s.eqHeld ∧ (wr64 s p o v).modNacks = s.modNacks :=
  let ⟨v0, h⟩ := wr64_only s p o v
  only_regs6 v0 h

@[simp] theorem wr64_frame7 (s : State) (p o v : Nat) :
    (wr64 s p o v).fecWin = s.fecWin ∧ (wr64 s p o v).eyeLane = s.eyeLane ∧ (wr64 s p o v).cagePins = s.cagePins ∧
    (wr64 s p o v).xferCmd = s.xferCmd ∧ (wr64 s p o v).diagCmd = s.diagCmd ∧ (wr64 s p o v).mirHeld = s.mirHeld ∧
    (wr64 s p o v).stamps = s.stamps ∧ (wr64 s p o v).tcPorts = s.tcPorts ∧ (wr64 s p o v).ptpPorts = s.ptpPorts :=
  let ⟨v0, h⟩ := wr64_only s p o v
  only_regs7 v0 h

@[simp] theorem wr64_frame8 (s : State) (p o v : Nat) :
    (wr64 s p o v).lifts = s.lifts ∧ (wr64 s p o v).groups = s.groups ∧ (wr64 s p o v).dispatchAt = s.dispatchAt ∧
    (wr64 s p o v).bscFifo = s.bscFifo ∧ (wr64 s p o v).stepped = s.stepped ∧ (wr64 s p o v).sqs = s.sqs ∧
    (wr64 s p o v).cqs = s.cqs ∧ (wr64 s p o v).txWait = s.txWait ∧ (wr64 s p o v).rxWait = s.rxWait :=
  let ⟨v0, h⟩ := wr64_only s p o v
  only_regs8 v0 h

@[simp] theorem wr64_frame9 (s : State) (p o v : Nat) :
    (wr64 s p o v).turns = s.turns ∧ (wr64 s p o v).lostTx = s.lostTx ∧ (wr64 s p o v).lastReason = s.lastReason ∧
    (wr64 s p o v).scratchNew = s.scratchNew ∧ (wr64 s p o v).scratchMem = s.scratchMem ∧ (wr64 s p o v).blkImg = s.blkImg ∧
    (wr64 s p o v).svcOp = s.svcOp ∧ (wr64 s p o v).buckets = s.buckets ∧ (wr64 s p o v).embHold = s.embHold :=
  let ⟨v0, h⟩ := wr64_only s p o v
  only_regs9 v0 h

@[simp] theorem wr64_frame10 (s : State) (p o v : Nat) :
    (wr64 s p o v).inHand = s.inHand ∧ (wr64 s p o v).redeliv = s.redeliv ∧ (wr64 s p o v).svcCfg = s.svcCfg ∧
    (wr64 s p o v).svcObjs = s.svcObjs ∧ (wr64 s p o v).svcServed = s.svcServed ∧ (wr64 s p o v).storeDigest = s.storeDigest ∧
    (wr64 s p o v).logLen = s.logLen ∧ (wr64 s p o v).certSerial = s.certSerial ∧ (wr64 s p o v).boot = s.boot :=
  let ⟨v0, h⟩ := wr64_only s p o v
  only_regs10 v0 h

@[simp] theorem wr64_frame11 (s : State) (p o v : Nat) :
    (wr64 s p o v).tabBad = s.tabBad ∧ (wr64 s p o v).aonFailed = s.aonFailed ∧ (wr64 s p o v).wdogAt = s.wdogAt ∧
    (wr64 s p o v).replicas = s.replicas :=
  let ⟨v0, h⟩ := wr64_only s p o v
  only_regs11 v0 h

theorem tset_only (s : State) (p sel bank idx : Nat) (e : Entry) :
    ∃ v0, tset s p sel bank idx e = { s with tabs := v0 } :=
  ⟨_, rfl⟩
theorem only_tabs1 {s t : State} (v0 : SMap Entry) (h : t = { s with tabs := v0 }) :
    t.baseCount = s.baseCount ∧ t.regs = s.regs ∧ t.snaps = s.snaps ∧ t.pending = s.pending ∧ t.freeCtr = s.freeCtr ∧
    t.out = s.out ∧ t.resp = s.resp ∧ t.escal = s.escal ∧ t.rdShadow = s.rdShadow := by
  subst h; exact ⟨rfl, rfl, rfl, rfl, rfl, rfl, rfl, rfl, rfl⟩

theorem only_tabs2 {s t : State} (v0 : SMap Entry) (h : t = { s with tabs := v0 }) :
    t.wrShadow = s.wrShadow ∧ t.tblCmd = s.tblCmd ∧ t.parBad = s.parBad ∧ t.mode = s.mode ∧ t.pins = s.pins ∧
    t.doms = s.doms ∧ t.holds = s.holds ∧ t.resets = s.resets ∧ t.d2d = s.d2d := by
  subst h; exact ⟨rfl, rfl, rfl, rfl, rfl, rfl, rfl, rfl, rfl⟩

theorem only_tabs3 {s t : State} (v0 : SMap Entry) (h : t = { s with tabs := v0 }) :
    t.queues = s.queues ∧ t.eports = s.eports ∧ t.admitting = s.admitting ∧ t.jobs = s.jobs ∧ t.rxOpen = s.rxOpen ∧
    t.pipes = s.pipes ∧ t.gates = s.gates ∧ t.gran = s.gran ∧ t.page = s.page := by
  subst h; exact ⟨rfl, rfl, rfl, rfl, rfl, rfl, rfl, rfl, rfl⟩

theorem only_tabs4 {s t : State} (v0 : SMap Entry) (h : t = { s with tabs := v0 }) :
    t.dramBad = s.dramBad ∧ t.cqueues = s.cqueues ∧ t.cust = s.cust ∧ t.dimms = s.dimms ∧ t.nextId = s.nextId ∧
    t.inj = s.inj ∧ t.insp = s.insp ∧ t.foot = s.foot ∧ t.fwTabs = s.fwTabs := by
  subst h; exact ⟨rfl, rfl, rfl, rfl, rfl, rfl, rfl, rfl, rfl⟩

theorem only_tabs5 {s t : State} (v0 : SMap Entry) (h : t = { s with tabs := v0 }) :
    t.therm = s.therm ∧ t.pcie = s.pcie ∧ t.tbs = s.tbs ∧ t.mtrLast = s.mtrLast ∧ t.mirCnt = s.mirCnt ∧
    t.mirSeq = s.mirSeq ∧ t.lpmStuck = s.lpmStuck ∧ t.caps = s.caps ∧ t.chans = s.chans := by
  subst h; exact ⟨rfl, rfl, rfl, rfl, rfl, rfl, rfl, rfl, rfl⟩

theorem only_tabs6 {s t : State} (v0 : SMap Entry) (h : t = { s with tabs := v0 }) :
    t.scratch = s.scratch ∧ t.span = s.span ∧ t.tioFifo = s.tioFifo ∧ t.tioLast = s.tioLast ∧ t.sense = s.sense ∧
    t.colls = s.colls ∧ t.modRetry = s.modRetry ∧ t.eqHeld = s.eqHeld ∧ t.modNacks = s.modNacks := by
  subst h; exact ⟨rfl, rfl, rfl, rfl, rfl, rfl, rfl, rfl, rfl⟩

theorem only_tabs7 {s t : State} (v0 : SMap Entry) (h : t = { s with tabs := v0 }) :
    t.fecWin = s.fecWin ∧ t.eyeLane = s.eyeLane ∧ t.cagePins = s.cagePins ∧ t.xferCmd = s.xferCmd ∧ t.diagCmd = s.diagCmd ∧
    t.mirHeld = s.mirHeld ∧ t.stamps = s.stamps ∧ t.tcPorts = s.tcPorts ∧ t.ptpPorts = s.ptpPorts := by
  subst h; exact ⟨rfl, rfl, rfl, rfl, rfl, rfl, rfl, rfl, rfl⟩

theorem only_tabs8 {s t : State} (v0 : SMap Entry) (h : t = { s with tabs := v0 }) :
    t.lifts = s.lifts ∧ t.groups = s.groups ∧ t.dispatchAt = s.dispatchAt ∧ t.bscFifo = s.bscFifo ∧ t.stepped = s.stepped ∧
    t.sqs = s.sqs ∧ t.cqs = s.cqs ∧ t.txWait = s.txWait ∧ t.rxWait = s.rxWait := by
  subst h; exact ⟨rfl, rfl, rfl, rfl, rfl, rfl, rfl, rfl, rfl⟩

theorem only_tabs9 {s t : State} (v0 : SMap Entry) (h : t = { s with tabs := v0 }) :
    t.turns = s.turns ∧ t.lostTx = s.lostTx ∧ t.lastReason = s.lastReason ∧ t.scratchNew = s.scratchNew ∧ t.scratchMem = s.scratchMem ∧
    t.blkImg = s.blkImg ∧ t.svcOp = s.svcOp ∧ t.buckets = s.buckets ∧ t.embHold = s.embHold := by
  subst h; exact ⟨rfl, rfl, rfl, rfl, rfl, rfl, rfl, rfl, rfl⟩

theorem only_tabs10 {s t : State} (v0 : SMap Entry) (h : t = { s with tabs := v0 }) :
    t.inHand = s.inHand ∧ t.redeliv = s.redeliv ∧ t.svcCfg = s.svcCfg ∧ t.svcObjs = s.svcObjs ∧ t.svcServed = s.svcServed ∧
    t.storeDigest = s.storeDigest ∧ t.logLen = s.logLen ∧ t.certSerial = s.certSerial ∧ t.boot = s.boot := by
  subst h; exact ⟨rfl, rfl, rfl, rfl, rfl, rfl, rfl, rfl, rfl⟩

theorem only_tabs11 {s t : State} (v0 : SMap Entry) (h : t = { s with tabs := v0 }) :
    t.tabBad = s.tabBad ∧ t.aonFailed = s.aonFailed ∧ t.wdogAt = s.wdogAt ∧ t.replicas = s.replicas := by
  subst h; exact ⟨rfl, rfl, rfl, rfl⟩

@[simp] theorem tset_frame1 (s : State) (p sel bank idx : Nat) (e : Entry) :
    (tset s p sel bank idx e).baseCount = s.baseCount ∧ (tset s p sel bank idx e).regs = s.regs ∧ (tset s p sel bank idx e).snaps = s.snaps ∧
    (tset s p sel bank idx e).pending = s.pending ∧ (tset s p sel bank idx e).freeCtr = s.freeCtr ∧ (tset s p sel bank idx e).out = s.out ∧
    (tset s p sel bank idx e).resp = s.resp ∧ (tset s p sel bank idx e).escal = s.escal ∧ (tset s p sel bank idx e).rdShadow = s.rdShadow :=
  let ⟨v0, h⟩ := tset_only s p sel bank idx e
  only_tabs1 v0 h

@[simp] theorem tset_frame2 (s : State) (p sel bank idx : Nat) (e : Entry) :
    (tset s p sel bank idx e).wrShadow = s.wrShadow ∧ (tset s p sel bank idx e).tblCmd = s.tblCmd ∧ (tset s p sel bank idx e).parBad = s.parBad ∧
    (tset s p sel bank idx e).mode = s.mode ∧ (tset s p sel bank idx e).pins = s.pins ∧ (tset s p sel bank idx e).doms = s.doms ∧
    (tset s p sel bank idx e).holds = s.holds ∧ (tset s p sel bank idx e).resets = s.resets ∧ (tset s p sel bank idx e).d2d = s.d2d :=
  let ⟨v0, h⟩ := tset_only s p sel bank idx e
  only_tabs2 v0 h

@[simp] theorem tset_frame3 (s : State) (p sel bank idx : Nat) (e : Entry) :
    (tset s p sel bank idx e).queues = s.queues ∧ (tset s p sel bank idx e).eports = s.eports ∧ (tset s p sel bank idx e).admitting = s.admitting ∧
    (tset s p sel bank idx e).jobs = s.jobs ∧ (tset s p sel bank idx e).rxOpen = s.rxOpen ∧ (tset s p sel bank idx e).pipes = s.pipes ∧
    (tset s p sel bank idx e).gates = s.gates ∧ (tset s p sel bank idx e).gran = s.gran ∧ (tset s p sel bank idx e).page = s.page :=
  let ⟨v0, h⟩ := tset_only s p sel bank idx e
  only_tabs3 v0 h

@[simp] theorem tset_frame4 (s : State) (p sel bank idx : Nat) (e : Entry) :
    (tset s p sel bank idx e).dramBad = s.dramBad ∧ (tset s p sel bank idx e).cqueues = s.cqueues ∧ (tset s p sel bank idx e).cust = s.cust ∧
    (tset s p sel bank idx e).dimms = s.dimms ∧ (tset s p sel bank idx e).nextId = s.nextId ∧ (tset s p sel bank idx e).inj = s.inj ∧
    (tset s p sel bank idx e).insp = s.insp ∧ (tset s p sel bank idx e).foot = s.foot ∧ (tset s p sel bank idx e).fwTabs = s.fwTabs :=
  let ⟨v0, h⟩ := tset_only s p sel bank idx e
  only_tabs4 v0 h

@[simp] theorem tset_frame5 (s : State) (p sel bank idx : Nat) (e : Entry) :
    (tset s p sel bank idx e).therm = s.therm ∧ (tset s p sel bank idx e).pcie = s.pcie ∧ (tset s p sel bank idx e).tbs = s.tbs ∧
    (tset s p sel bank idx e).mtrLast = s.mtrLast ∧ (tset s p sel bank idx e).mirCnt = s.mirCnt ∧ (tset s p sel bank idx e).mirSeq = s.mirSeq ∧
    (tset s p sel bank idx e).lpmStuck = s.lpmStuck ∧ (tset s p sel bank idx e).caps = s.caps ∧ (tset s p sel bank idx e).chans = s.chans :=
  let ⟨v0, h⟩ := tset_only s p sel bank idx e
  only_tabs5 v0 h

@[simp] theorem tset_frame6 (s : State) (p sel bank idx : Nat) (e : Entry) :
    (tset s p sel bank idx e).scratch = s.scratch ∧ (tset s p sel bank idx e).span = s.span ∧ (tset s p sel bank idx e).tioFifo = s.tioFifo ∧
    (tset s p sel bank idx e).tioLast = s.tioLast ∧ (tset s p sel bank idx e).sense = s.sense ∧ (tset s p sel bank idx e).colls = s.colls ∧
    (tset s p sel bank idx e).modRetry = s.modRetry ∧ (tset s p sel bank idx e).eqHeld = s.eqHeld ∧ (tset s p sel bank idx e).modNacks = s.modNacks :=
  let ⟨v0, h⟩ := tset_only s p sel bank idx e
  only_tabs6 v0 h

@[simp] theorem tset_frame7 (s : State) (p sel bank idx : Nat) (e : Entry) :
    (tset s p sel bank idx e).fecWin = s.fecWin ∧ (tset s p sel bank idx e).eyeLane = s.eyeLane ∧ (tset s p sel bank idx e).cagePins = s.cagePins ∧
    (tset s p sel bank idx e).xferCmd = s.xferCmd ∧ (tset s p sel bank idx e).diagCmd = s.diagCmd ∧ (tset s p sel bank idx e).mirHeld = s.mirHeld ∧
    (tset s p sel bank idx e).stamps = s.stamps ∧ (tset s p sel bank idx e).tcPorts = s.tcPorts ∧ (tset s p sel bank idx e).ptpPorts = s.ptpPorts :=
  let ⟨v0, h⟩ := tset_only s p sel bank idx e
  only_tabs7 v0 h

@[simp] theorem tset_frame8 (s : State) (p sel bank idx : Nat) (e : Entry) :
    (tset s p sel bank idx e).lifts = s.lifts ∧ (tset s p sel bank idx e).groups = s.groups ∧ (tset s p sel bank idx e).dispatchAt = s.dispatchAt ∧
    (tset s p sel bank idx e).bscFifo = s.bscFifo ∧ (tset s p sel bank idx e).stepped = s.stepped ∧ (tset s p sel bank idx e).sqs = s.sqs ∧
    (tset s p sel bank idx e).cqs = s.cqs ∧ (tset s p sel bank idx e).txWait = s.txWait ∧ (tset s p sel bank idx e).rxWait = s.rxWait :=
  let ⟨v0, h⟩ := tset_only s p sel bank idx e
  only_tabs8 v0 h

@[simp] theorem tset_frame9 (s : State) (p sel bank idx : Nat) (e : Entry) :
    (tset s p sel bank idx e).turns = s.turns ∧ (tset s p sel bank idx e).lostTx = s.lostTx ∧ (tset s p sel bank idx e).lastReason = s.lastReason ∧
    (tset s p sel bank idx e).scratchNew = s.scratchNew ∧ (tset s p sel bank idx e).scratchMem = s.scratchMem ∧ (tset s p sel bank idx e).blkImg = s.blkImg ∧
    (tset s p sel bank idx e).svcOp = s.svcOp ∧ (tset s p sel bank idx e).buckets = s.buckets ∧ (tset s p sel bank idx e).embHold = s.embHold :=
  let ⟨v0, h⟩ := tset_only s p sel bank idx e
  only_tabs9 v0 h

@[simp] theorem tset_frame10 (s : State) (p sel bank idx : Nat) (e : Entry) :
    (tset s p sel bank idx e).inHand = s.inHand ∧ (tset s p sel bank idx e).redeliv = s.redeliv ∧ (tset s p sel bank idx e).svcCfg = s.svcCfg ∧
    (tset s p sel bank idx e).svcObjs = s.svcObjs ∧ (tset s p sel bank idx e).svcServed = s.svcServed ∧ (tset s p sel bank idx e).storeDigest = s.storeDigest ∧
    (tset s p sel bank idx e).logLen = s.logLen ∧ (tset s p sel bank idx e).certSerial = s.certSerial ∧ (tset s p sel bank idx e).boot = s.boot :=
  let ⟨v0, h⟩ := tset_only s p sel bank idx e
  only_tabs10 v0 h

@[simp] theorem tset_frame11 (s : State) (p sel bank idx : Nat) (e : Entry) :
    (tset s p sel bank idx e).tabBad = s.tabBad ∧ (tset s p sel bank idx e).aonFailed = s.aonFailed ∧ (tset s p sel bank idx e).wdogAt = s.wdogAt ∧
    (tset s p sel bank idx e).replicas = s.replicas :=
  let ⟨v0, h⟩ := tset_only s p sel bank idx e
  only_tabs11 v0 h

theorem addCounter_only (s : State) (p sel idx c k : Nat) :
    ∃ v0, addCounter s p sel idx c k = { s with tabs := v0 } :=
  ⟨_, rfl⟩
@[simp] theorem addCounter_frame1 (s : State) (p sel idx c k : Nat) :
    (addCounter s p sel idx c k).baseCount = s.baseCount ∧ (addCounter s p sel idx c k).regs = s.regs ∧ (addCounter s p sel idx c k).snaps = s.snaps ∧
    (addCounter s p sel idx c k).pending = s.pending ∧ (addCounter s p sel idx c k).freeCtr = s.freeCtr ∧ (addCounter s p sel idx c k).out = s.out ∧
    (addCounter s p sel idx c k).resp = s.resp ∧ (addCounter s p sel idx c k).escal = s.escal ∧ (addCounter s p sel idx c k).rdShadow = s.rdShadow :=
  let ⟨v0, h⟩ := addCounter_only s p sel idx c k
  only_tabs1 v0 h

@[simp] theorem addCounter_frame2 (s : State) (p sel idx c k : Nat) :
    (addCounter s p sel idx c k).wrShadow = s.wrShadow ∧ (addCounter s p sel idx c k).tblCmd = s.tblCmd ∧ (addCounter s p sel idx c k).parBad = s.parBad ∧
    (addCounter s p sel idx c k).mode = s.mode ∧ (addCounter s p sel idx c k).pins = s.pins ∧ (addCounter s p sel idx c k).doms = s.doms ∧
    (addCounter s p sel idx c k).holds = s.holds ∧ (addCounter s p sel idx c k).resets = s.resets ∧ (addCounter s p sel idx c k).d2d = s.d2d :=
  let ⟨v0, h⟩ := addCounter_only s p sel idx c k
  only_tabs2 v0 h

@[simp] theorem addCounter_frame3 (s : State) (p sel idx c k : Nat) :
    (addCounter s p sel idx c k).queues = s.queues ∧ (addCounter s p sel idx c k).eports = s.eports ∧ (addCounter s p sel idx c k).admitting = s.admitting ∧
    (addCounter s p sel idx c k).jobs = s.jobs ∧ (addCounter s p sel idx c k).rxOpen = s.rxOpen ∧ (addCounter s p sel idx c k).pipes = s.pipes ∧
    (addCounter s p sel idx c k).gates = s.gates ∧ (addCounter s p sel idx c k).gran = s.gran ∧ (addCounter s p sel idx c k).page = s.page :=
  let ⟨v0, h⟩ := addCounter_only s p sel idx c k
  only_tabs3 v0 h

@[simp] theorem addCounter_frame4 (s : State) (p sel idx c k : Nat) :
    (addCounter s p sel idx c k).dramBad = s.dramBad ∧ (addCounter s p sel idx c k).cqueues = s.cqueues ∧ (addCounter s p sel idx c k).cust = s.cust ∧
    (addCounter s p sel idx c k).dimms = s.dimms ∧ (addCounter s p sel idx c k).nextId = s.nextId ∧ (addCounter s p sel idx c k).inj = s.inj ∧
    (addCounter s p sel idx c k).insp = s.insp ∧ (addCounter s p sel idx c k).foot = s.foot ∧ (addCounter s p sel idx c k).fwTabs = s.fwTabs :=
  let ⟨v0, h⟩ := addCounter_only s p sel idx c k
  only_tabs4 v0 h

@[simp] theorem addCounter_frame5 (s : State) (p sel idx c k : Nat) :
    (addCounter s p sel idx c k).therm = s.therm ∧ (addCounter s p sel idx c k).pcie = s.pcie ∧ (addCounter s p sel idx c k).tbs = s.tbs ∧
    (addCounter s p sel idx c k).mtrLast = s.mtrLast ∧ (addCounter s p sel idx c k).mirCnt = s.mirCnt ∧ (addCounter s p sel idx c k).mirSeq = s.mirSeq ∧
    (addCounter s p sel idx c k).lpmStuck = s.lpmStuck ∧ (addCounter s p sel idx c k).caps = s.caps ∧ (addCounter s p sel idx c k).chans = s.chans :=
  let ⟨v0, h⟩ := addCounter_only s p sel idx c k
  only_tabs5 v0 h

@[simp] theorem addCounter_frame6 (s : State) (p sel idx c k : Nat) :
    (addCounter s p sel idx c k).scratch = s.scratch ∧ (addCounter s p sel idx c k).span = s.span ∧ (addCounter s p sel idx c k).tioFifo = s.tioFifo ∧
    (addCounter s p sel idx c k).tioLast = s.tioLast ∧ (addCounter s p sel idx c k).sense = s.sense ∧ (addCounter s p sel idx c k).colls = s.colls ∧
    (addCounter s p sel idx c k).modRetry = s.modRetry ∧ (addCounter s p sel idx c k).eqHeld = s.eqHeld ∧ (addCounter s p sel idx c k).modNacks = s.modNacks :=
  let ⟨v0, h⟩ := addCounter_only s p sel idx c k
  only_tabs6 v0 h

@[simp] theorem addCounter_frame7 (s : State) (p sel idx c k : Nat) :
    (addCounter s p sel idx c k).fecWin = s.fecWin ∧ (addCounter s p sel idx c k).eyeLane = s.eyeLane ∧ (addCounter s p sel idx c k).cagePins = s.cagePins ∧
    (addCounter s p sel idx c k).xferCmd = s.xferCmd ∧ (addCounter s p sel idx c k).diagCmd = s.diagCmd ∧ (addCounter s p sel idx c k).mirHeld = s.mirHeld ∧
    (addCounter s p sel idx c k).stamps = s.stamps ∧ (addCounter s p sel idx c k).tcPorts = s.tcPorts ∧ (addCounter s p sel idx c k).ptpPorts = s.ptpPorts :=
  let ⟨v0, h⟩ := addCounter_only s p sel idx c k
  only_tabs7 v0 h

@[simp] theorem addCounter_frame8 (s : State) (p sel idx c k : Nat) :
    (addCounter s p sel idx c k).lifts = s.lifts ∧ (addCounter s p sel idx c k).groups = s.groups ∧ (addCounter s p sel idx c k).dispatchAt = s.dispatchAt ∧
    (addCounter s p sel idx c k).bscFifo = s.bscFifo ∧ (addCounter s p sel idx c k).stepped = s.stepped ∧ (addCounter s p sel idx c k).sqs = s.sqs ∧
    (addCounter s p sel idx c k).cqs = s.cqs ∧ (addCounter s p sel idx c k).txWait = s.txWait ∧ (addCounter s p sel idx c k).rxWait = s.rxWait :=
  let ⟨v0, h⟩ := addCounter_only s p sel idx c k
  only_tabs8 v0 h

@[simp] theorem addCounter_frame9 (s : State) (p sel idx c k : Nat) :
    (addCounter s p sel idx c k).turns = s.turns ∧ (addCounter s p sel idx c k).lostTx = s.lostTx ∧ (addCounter s p sel idx c k).lastReason = s.lastReason ∧
    (addCounter s p sel idx c k).scratchNew = s.scratchNew ∧ (addCounter s p sel idx c k).scratchMem = s.scratchMem ∧ (addCounter s p sel idx c k).blkImg = s.blkImg ∧
    (addCounter s p sel idx c k).svcOp = s.svcOp ∧ (addCounter s p sel idx c k).buckets = s.buckets ∧ (addCounter s p sel idx c k).embHold = s.embHold :=
  let ⟨v0, h⟩ := addCounter_only s p sel idx c k
  only_tabs9 v0 h

@[simp] theorem addCounter_frame10 (s : State) (p sel idx c k : Nat) :
    (addCounter s p sel idx c k).inHand = s.inHand ∧ (addCounter s p sel idx c k).redeliv = s.redeliv ∧ (addCounter s p sel idx c k).svcCfg = s.svcCfg ∧
    (addCounter s p sel idx c k).svcObjs = s.svcObjs ∧ (addCounter s p sel idx c k).svcServed = s.svcServed ∧ (addCounter s p sel idx c k).storeDigest = s.storeDigest ∧
    (addCounter s p sel idx c k).logLen = s.logLen ∧ (addCounter s p sel idx c k).certSerial = s.certSerial ∧ (addCounter s p sel idx c k).boot = s.boot :=
  let ⟨v0, h⟩ := addCounter_only s p sel idx c k
  only_tabs10 v0 h

@[simp] theorem addCounter_frame11 (s : State) (p sel idx c k : Nat) :
    (addCounter s p sel idx c k).tabBad = s.tabBad ∧ (addCounter s p sel idx c k).aonFailed = s.aonFailed ∧ (addCounter s p sel idx c k).wdogAt = s.wdogAt ∧
    (addCounter s p sel idx c k).replicas = s.replicas :=
  let ⟨v0, h⟩ := addCounter_only s p sel idx c k
  only_tabs11 v0 h

theorem countReason_only (s : State) (r code : Nat) :
    ∃ v0 v1, countReason s r code = { s with tabs := v0, lastReason := v1 } :=
  ⟨_, _, rfl⟩
theorem only_tabs_lastReason1 {s t : State} (v0 : SMap Entry) (v1 : Nat) (h : t = { s with tabs := v0, lastReason := v1 }) :
    t.baseCount = s.baseCount ∧ t.regs = s.regs ∧ t.snaps = s.snaps ∧ t.pending = s.pending ∧ t.freeCtr = s.freeCtr ∧
    t.out = s.out ∧ t.resp = s.resp ∧ t.escal = s.escal ∧ t.rdShadow = s.rdShadow := by
  subst h; exact ⟨rfl, rfl, rfl, rfl, rfl, rfl, rfl, rfl, rfl⟩

theorem only_tabs_lastReason2 {s t : State} (v0 : SMap Entry) (v1 : Nat) (h : t = { s with tabs := v0, lastReason := v1 }) :
    t.wrShadow = s.wrShadow ∧ t.tblCmd = s.tblCmd ∧ t.parBad = s.parBad ∧ t.mode = s.mode ∧ t.pins = s.pins ∧
    t.doms = s.doms ∧ t.holds = s.holds ∧ t.resets = s.resets ∧ t.d2d = s.d2d := by
  subst h; exact ⟨rfl, rfl, rfl, rfl, rfl, rfl, rfl, rfl, rfl⟩

theorem only_tabs_lastReason3 {s t : State} (v0 : SMap Entry) (v1 : Nat) (h : t = { s with tabs := v0, lastReason := v1 }) :
    t.queues = s.queues ∧ t.eports = s.eports ∧ t.admitting = s.admitting ∧ t.jobs = s.jobs ∧ t.rxOpen = s.rxOpen ∧
    t.pipes = s.pipes ∧ t.gates = s.gates ∧ t.gran = s.gran ∧ t.page = s.page := by
  subst h; exact ⟨rfl, rfl, rfl, rfl, rfl, rfl, rfl, rfl, rfl⟩

theorem only_tabs_lastReason4 {s t : State} (v0 : SMap Entry) (v1 : Nat) (h : t = { s with tabs := v0, lastReason := v1 }) :
    t.dramBad = s.dramBad ∧ t.cqueues = s.cqueues ∧ t.cust = s.cust ∧ t.dimms = s.dimms ∧ t.nextId = s.nextId ∧
    t.inj = s.inj ∧ t.insp = s.insp ∧ t.foot = s.foot ∧ t.fwTabs = s.fwTabs := by
  subst h; exact ⟨rfl, rfl, rfl, rfl, rfl, rfl, rfl, rfl, rfl⟩

theorem only_tabs_lastReason5 {s t : State} (v0 : SMap Entry) (v1 : Nat) (h : t = { s with tabs := v0, lastReason := v1 }) :
    t.therm = s.therm ∧ t.pcie = s.pcie ∧ t.tbs = s.tbs ∧ t.mtrLast = s.mtrLast ∧ t.mirCnt = s.mirCnt ∧
    t.mirSeq = s.mirSeq ∧ t.lpmStuck = s.lpmStuck ∧ t.caps = s.caps ∧ t.chans = s.chans := by
  subst h; exact ⟨rfl, rfl, rfl, rfl, rfl, rfl, rfl, rfl, rfl⟩

theorem only_tabs_lastReason6 {s t : State} (v0 : SMap Entry) (v1 : Nat) (h : t = { s with tabs := v0, lastReason := v1 }) :
    t.scratch = s.scratch ∧ t.span = s.span ∧ t.tioFifo = s.tioFifo ∧ t.tioLast = s.tioLast ∧ t.sense = s.sense ∧
    t.colls = s.colls ∧ t.modRetry = s.modRetry ∧ t.eqHeld = s.eqHeld ∧ t.modNacks = s.modNacks := by
  subst h; exact ⟨rfl, rfl, rfl, rfl, rfl, rfl, rfl, rfl, rfl⟩

theorem only_tabs_lastReason7 {s t : State} (v0 : SMap Entry) (v1 : Nat) (h : t = { s with tabs := v0, lastReason := v1 }) :
    t.fecWin = s.fecWin ∧ t.eyeLane = s.eyeLane ∧ t.cagePins = s.cagePins ∧ t.xferCmd = s.xferCmd ∧ t.diagCmd = s.diagCmd ∧
    t.mirHeld = s.mirHeld ∧ t.stamps = s.stamps ∧ t.tcPorts = s.tcPorts ∧ t.ptpPorts = s.ptpPorts := by
  subst h; exact ⟨rfl, rfl, rfl, rfl, rfl, rfl, rfl, rfl, rfl⟩

theorem only_tabs_lastReason8 {s t : State} (v0 : SMap Entry) (v1 : Nat) (h : t = { s with tabs := v0, lastReason := v1 }) :
    t.lifts = s.lifts ∧ t.groups = s.groups ∧ t.dispatchAt = s.dispatchAt ∧ t.bscFifo = s.bscFifo ∧ t.stepped = s.stepped ∧
    t.sqs = s.sqs ∧ t.cqs = s.cqs ∧ t.txWait = s.txWait ∧ t.rxWait = s.rxWait := by
  subst h; exact ⟨rfl, rfl, rfl, rfl, rfl, rfl, rfl, rfl, rfl⟩

theorem only_tabs_lastReason9 {s t : State} (v0 : SMap Entry) (v1 : Nat) (h : t = { s with tabs := v0, lastReason := v1 }) :
    t.turns = s.turns ∧ t.lostTx = s.lostTx ∧ t.scratchNew = s.scratchNew ∧ t.scratchMem = s.scratchMem ∧ t.blkImg = s.blkImg ∧
    t.svcOp = s.svcOp ∧ t.buckets = s.buckets ∧ t.embHold = s.embHold ∧ t.inHand = s.inHand := by
  subst h; exact ⟨rfl, rfl, rfl, rfl, rfl, rfl, rfl, rfl, rfl⟩

theorem only_tabs_lastReason10 {s t : State} (v0 : SMap Entry) (v1 : Nat) (h : t = { s with tabs := v0, lastReason := v1 }) :
    t.redeliv = s.redeliv ∧ t.svcCfg = s.svcCfg ∧ t.svcObjs = s.svcObjs ∧ t.svcServed = s.svcServed ∧ t.storeDigest = s.storeDigest ∧
    t.logLen = s.logLen ∧ t.certSerial = s.certSerial ∧ t.boot = s.boot ∧ t.tabBad = s.tabBad := by
  subst h; exact ⟨rfl, rfl, rfl, rfl, rfl, rfl, rfl, rfl, rfl⟩

theorem only_tabs_lastReason11 {s t : State} (v0 : SMap Entry) (v1 : Nat) (h : t = { s with tabs := v0, lastReason := v1 }) :
    t.aonFailed = s.aonFailed ∧ t.wdogAt = s.wdogAt ∧ t.replicas = s.replicas := by
  subst h; exact ⟨rfl, rfl, rfl⟩

@[simp] theorem countReason_frame1 (s : State) (r code : Nat) :
    (countReason s r code).baseCount = s.baseCount ∧ (countReason s r code).regs = s.regs ∧ (countReason s r code).snaps = s.snaps ∧
    (countReason s r code).pending = s.pending ∧ (countReason s r code).freeCtr = s.freeCtr ∧ (countReason s r code).out = s.out ∧
    (countReason s r code).resp = s.resp ∧ (countReason s r code).escal = s.escal ∧ (countReason s r code).rdShadow = s.rdShadow :=
  let ⟨v0, v1, h⟩ := countReason_only s r code
  only_tabs_lastReason1 v0 v1 h

@[simp] theorem countReason_frame2 (s : State) (r code : Nat) :
    (countReason s r code).wrShadow = s.wrShadow ∧ (countReason s r code).tblCmd = s.tblCmd ∧ (countReason s r code).parBad = s.parBad ∧
    (countReason s r code).mode = s.mode ∧ (countReason s r code).pins = s.pins ∧ (countReason s r code).doms = s.doms ∧
    (countReason s r code).holds = s.holds ∧ (countReason s r code).resets = s.resets ∧ (countReason s r code).d2d = s.d2d :=
  let ⟨v0, v1, h⟩ := countReason_only s r code
  only_tabs_lastReason2 v0 v1 h

@[simp] theorem countReason_frame3 (s : State) (r code : Nat) :
    (countReason s r code).queues = s.queues ∧ (countReason s r code).eports = s.eports ∧ (countReason s r code).admitting = s.admitting ∧
    (countReason s r code).jobs = s.jobs ∧ (countReason s r code).rxOpen = s.rxOpen ∧ (countReason s r code).pipes = s.pipes ∧
    (countReason s r code).gates = s.gates ∧ (countReason s r code).gran = s.gran ∧ (countReason s r code).page = s.page :=
  let ⟨v0, v1, h⟩ := countReason_only s r code
  only_tabs_lastReason3 v0 v1 h

@[simp] theorem countReason_frame4 (s : State) (r code : Nat) :
    (countReason s r code).dramBad = s.dramBad ∧ (countReason s r code).cqueues = s.cqueues ∧ (countReason s r code).cust = s.cust ∧
    (countReason s r code).dimms = s.dimms ∧ (countReason s r code).nextId = s.nextId ∧ (countReason s r code).inj = s.inj ∧
    (countReason s r code).insp = s.insp ∧ (countReason s r code).foot = s.foot ∧ (countReason s r code).fwTabs = s.fwTabs :=
  let ⟨v0, v1, h⟩ := countReason_only s r code
  only_tabs_lastReason4 v0 v1 h

@[simp] theorem countReason_frame5 (s : State) (r code : Nat) :
    (countReason s r code).therm = s.therm ∧ (countReason s r code).pcie = s.pcie ∧ (countReason s r code).tbs = s.tbs ∧
    (countReason s r code).mtrLast = s.mtrLast ∧ (countReason s r code).mirCnt = s.mirCnt ∧ (countReason s r code).mirSeq = s.mirSeq ∧
    (countReason s r code).lpmStuck = s.lpmStuck ∧ (countReason s r code).caps = s.caps ∧ (countReason s r code).chans = s.chans :=
  let ⟨v0, v1, h⟩ := countReason_only s r code
  only_tabs_lastReason5 v0 v1 h

@[simp] theorem countReason_frame6 (s : State) (r code : Nat) :
    (countReason s r code).scratch = s.scratch ∧ (countReason s r code).span = s.span ∧ (countReason s r code).tioFifo = s.tioFifo ∧
    (countReason s r code).tioLast = s.tioLast ∧ (countReason s r code).sense = s.sense ∧ (countReason s r code).colls = s.colls ∧
    (countReason s r code).modRetry = s.modRetry ∧ (countReason s r code).eqHeld = s.eqHeld ∧ (countReason s r code).modNacks = s.modNacks :=
  let ⟨v0, v1, h⟩ := countReason_only s r code
  only_tabs_lastReason6 v0 v1 h

@[simp] theorem countReason_frame7 (s : State) (r code : Nat) :
    (countReason s r code).fecWin = s.fecWin ∧ (countReason s r code).eyeLane = s.eyeLane ∧ (countReason s r code).cagePins = s.cagePins ∧
    (countReason s r code).xferCmd = s.xferCmd ∧ (countReason s r code).diagCmd = s.diagCmd ∧ (countReason s r code).mirHeld = s.mirHeld ∧
    (countReason s r code).stamps = s.stamps ∧ (countReason s r code).tcPorts = s.tcPorts ∧ (countReason s r code).ptpPorts = s.ptpPorts :=
  let ⟨v0, v1, h⟩ := countReason_only s r code
  only_tabs_lastReason7 v0 v1 h

@[simp] theorem countReason_frame8 (s : State) (r code : Nat) :
    (countReason s r code).lifts = s.lifts ∧ (countReason s r code).groups = s.groups ∧ (countReason s r code).dispatchAt = s.dispatchAt ∧
    (countReason s r code).bscFifo = s.bscFifo ∧ (countReason s r code).stepped = s.stepped ∧ (countReason s r code).sqs = s.sqs ∧
    (countReason s r code).cqs = s.cqs ∧ (countReason s r code).txWait = s.txWait ∧ (countReason s r code).rxWait = s.rxWait :=
  let ⟨v0, v1, h⟩ := countReason_only s r code
  only_tabs_lastReason8 v0 v1 h

@[simp] theorem countReason_frame9 (s : State) (r code : Nat) :
    (countReason s r code).turns = s.turns ∧ (countReason s r code).lostTx = s.lostTx ∧ (countReason s r code).scratchNew = s.scratchNew ∧
    (countReason s r code).scratchMem = s.scratchMem ∧ (countReason s r code).blkImg = s.blkImg ∧ (countReason s r code).svcOp = s.svcOp ∧
    (countReason s r code).buckets = s.buckets ∧ (countReason s r code).embHold = s.embHold ∧ (countReason s r code).inHand = s.inHand :=
  let ⟨v0, v1, h⟩ := countReason_only s r code
  only_tabs_lastReason9 v0 v1 h

@[simp] theorem countReason_frame10 (s : State) (r code : Nat) :
    (countReason s r code).redeliv = s.redeliv ∧ (countReason s r code).svcCfg = s.svcCfg ∧ (countReason s r code).svcObjs = s.svcObjs ∧
    (countReason s r code).svcServed = s.svcServed ∧ (countReason s r code).storeDigest = s.storeDigest ∧ (countReason s r code).logLen = s.logLen ∧
    (countReason s r code).certSerial = s.certSerial ∧ (countReason s r code).boot = s.boot ∧ (countReason s r code).tabBad = s.tabBad :=
  let ⟨v0, v1, h⟩ := countReason_only s r code
  only_tabs_lastReason10 v0 v1 h

@[simp] theorem countReason_frame11 (s : State) (r code : Nat) :
    (countReason s r code).aonFailed = s.aonFailed ∧ (countReason s r code).wdogAt = s.wdogAt ∧ (countReason s r code).replicas = s.replicas :=
  let ⟨v0, v1, h⟩ := countReason_only s r code
  only_tabs_lastReason11 v0 v1 h

theorem emit_only (s : State) (o : Output) :
    ∃ v0, emit s o = { s with out := v0 } :=
  ⟨_, rfl⟩
theorem only_out1 {s t : State} (v0 : List Output) (h : t = { s with out := v0 }) :
    t.baseCount = s.baseCount ∧ t.regs = s.regs ∧ t.tabs = s.tabs ∧ t.snaps = s.snaps ∧ t.pending = s.pending ∧
    t.freeCtr = s.freeCtr ∧ t.resp = s.resp ∧ t.escal = s.escal ∧ t.rdShadow = s.rdShadow := by
  subst h; exact ⟨rfl, rfl, rfl, rfl, rfl, rfl, rfl, rfl, rfl⟩

theorem only_out2 {s t : State} (v0 : List Output) (h : t = { s with out := v0 }) :
    t.wrShadow = s.wrShadow ∧ t.tblCmd = s.tblCmd ∧ t.parBad = s.parBad ∧ t.mode = s.mode ∧ t.pins = s.pins ∧
    t.doms = s.doms ∧ t.holds = s.holds ∧ t.resets = s.resets ∧ t.d2d = s.d2d := by
  subst h; exact ⟨rfl, rfl, rfl, rfl, rfl, rfl, rfl, rfl, rfl⟩

theorem only_out3 {s t : State} (v0 : List Output) (h : t = { s with out := v0 }) :
    t.queues = s.queues ∧ t.eports = s.eports ∧ t.admitting = s.admitting ∧ t.jobs = s.jobs ∧ t.rxOpen = s.rxOpen ∧
    t.pipes = s.pipes ∧ t.gates = s.gates ∧ t.gran = s.gran ∧ t.page = s.page := by
  subst h; exact ⟨rfl, rfl, rfl, rfl, rfl, rfl, rfl, rfl, rfl⟩

theorem only_out4 {s t : State} (v0 : List Output) (h : t = { s with out := v0 }) :
    t.dramBad = s.dramBad ∧ t.cqueues = s.cqueues ∧ t.cust = s.cust ∧ t.dimms = s.dimms ∧ t.nextId = s.nextId ∧
    t.inj = s.inj ∧ t.insp = s.insp ∧ t.foot = s.foot ∧ t.fwTabs = s.fwTabs := by
  subst h; exact ⟨rfl, rfl, rfl, rfl, rfl, rfl, rfl, rfl, rfl⟩

theorem only_out5 {s t : State} (v0 : List Output) (h : t = { s with out := v0 }) :
    t.therm = s.therm ∧ t.pcie = s.pcie ∧ t.tbs = s.tbs ∧ t.mtrLast = s.mtrLast ∧ t.mirCnt = s.mirCnt ∧
    t.mirSeq = s.mirSeq ∧ t.lpmStuck = s.lpmStuck ∧ t.caps = s.caps ∧ t.chans = s.chans := by
  subst h; exact ⟨rfl, rfl, rfl, rfl, rfl, rfl, rfl, rfl, rfl⟩

theorem only_out6 {s t : State} (v0 : List Output) (h : t = { s with out := v0 }) :
    t.scratch = s.scratch ∧ t.span = s.span ∧ t.tioFifo = s.tioFifo ∧ t.tioLast = s.tioLast ∧ t.sense = s.sense ∧
    t.colls = s.colls ∧ t.modRetry = s.modRetry ∧ t.eqHeld = s.eqHeld ∧ t.modNacks = s.modNacks := by
  subst h; exact ⟨rfl, rfl, rfl, rfl, rfl, rfl, rfl, rfl, rfl⟩

theorem only_out7 {s t : State} (v0 : List Output) (h : t = { s with out := v0 }) :
    t.fecWin = s.fecWin ∧ t.eyeLane = s.eyeLane ∧ t.cagePins = s.cagePins ∧ t.xferCmd = s.xferCmd ∧ t.diagCmd = s.diagCmd ∧
    t.mirHeld = s.mirHeld ∧ t.stamps = s.stamps ∧ t.tcPorts = s.tcPorts ∧ t.ptpPorts = s.ptpPorts := by
  subst h; exact ⟨rfl, rfl, rfl, rfl, rfl, rfl, rfl, rfl, rfl⟩

theorem only_out8 {s t : State} (v0 : List Output) (h : t = { s with out := v0 }) :
    t.lifts = s.lifts ∧ t.groups = s.groups ∧ t.dispatchAt = s.dispatchAt ∧ t.bscFifo = s.bscFifo ∧ t.stepped = s.stepped ∧
    t.sqs = s.sqs ∧ t.cqs = s.cqs ∧ t.txWait = s.txWait ∧ t.rxWait = s.rxWait := by
  subst h; exact ⟨rfl, rfl, rfl, rfl, rfl, rfl, rfl, rfl, rfl⟩

theorem only_out9 {s t : State} (v0 : List Output) (h : t = { s with out := v0 }) :
    t.turns = s.turns ∧ t.lostTx = s.lostTx ∧ t.lastReason = s.lastReason ∧ t.scratchNew = s.scratchNew ∧ t.scratchMem = s.scratchMem ∧
    t.blkImg = s.blkImg ∧ t.svcOp = s.svcOp ∧ t.buckets = s.buckets ∧ t.embHold = s.embHold := by
  subst h; exact ⟨rfl, rfl, rfl, rfl, rfl, rfl, rfl, rfl, rfl⟩

theorem only_out10 {s t : State} (v0 : List Output) (h : t = { s with out := v0 }) :
    t.inHand = s.inHand ∧ t.redeliv = s.redeliv ∧ t.svcCfg = s.svcCfg ∧ t.svcObjs = s.svcObjs ∧ t.svcServed = s.svcServed ∧
    t.storeDigest = s.storeDigest ∧ t.logLen = s.logLen ∧ t.certSerial = s.certSerial ∧ t.boot = s.boot := by
  subst h; exact ⟨rfl, rfl, rfl, rfl, rfl, rfl, rfl, rfl, rfl⟩

theorem only_out11 {s t : State} (v0 : List Output) (h : t = { s with out := v0 }) :
    t.tabBad = s.tabBad ∧ t.aonFailed = s.aonFailed ∧ t.wdogAt = s.wdogAt ∧ t.replicas = s.replicas := by
  subst h; exact ⟨rfl, rfl, rfl, rfl⟩

@[simp] theorem emit_frame1 (s : State) (o : Output) :
    (emit s o).baseCount = s.baseCount ∧ (emit s o).regs = s.regs ∧ (emit s o).tabs = s.tabs ∧
    (emit s o).snaps = s.snaps ∧ (emit s o).pending = s.pending ∧ (emit s o).freeCtr = s.freeCtr ∧
    (emit s o).resp = s.resp ∧ (emit s o).escal = s.escal ∧ (emit s o).rdShadow = s.rdShadow :=
  let ⟨v0, h⟩ := emit_only s o
  only_out1 v0 h

@[simp] theorem emit_frame2 (s : State) (o : Output) :
    (emit s o).wrShadow = s.wrShadow ∧ (emit s o).tblCmd = s.tblCmd ∧ (emit s o).parBad = s.parBad ∧
    (emit s o).mode = s.mode ∧ (emit s o).pins = s.pins ∧ (emit s o).doms = s.doms ∧
    (emit s o).holds = s.holds ∧ (emit s o).resets = s.resets ∧ (emit s o).d2d = s.d2d :=
  let ⟨v0, h⟩ := emit_only s o
  only_out2 v0 h

@[simp] theorem emit_frame3 (s : State) (o : Output) :
    (emit s o).queues = s.queues ∧ (emit s o).eports = s.eports ∧ (emit s o).admitting = s.admitting ∧
    (emit s o).jobs = s.jobs ∧ (emit s o).rxOpen = s.rxOpen ∧ (emit s o).pipes = s.pipes ∧
    (emit s o).gates = s.gates ∧ (emit s o).gran = s.gran ∧ (emit s o).page = s.page :=
  let ⟨v0, h⟩ := emit_only s o
  only_out3 v0 h

@[simp] theorem emit_frame4 (s : State) (o : Output) :
    (emit s o).dramBad = s.dramBad ∧ (emit s o).cqueues = s.cqueues ∧ (emit s o).cust = s.cust ∧
    (emit s o).dimms = s.dimms ∧ (emit s o).nextId = s.nextId ∧ (emit s o).inj = s.inj ∧
    (emit s o).insp = s.insp ∧ (emit s o).foot = s.foot ∧ (emit s o).fwTabs = s.fwTabs :=
  let ⟨v0, h⟩ := emit_only s o
  only_out4 v0 h

@[simp] theorem emit_frame5 (s : State) (o : Output) :
    (emit s o).therm = s.therm ∧ (emit s o).pcie = s.pcie ∧ (emit s o).tbs = s.tbs ∧
    (emit s o).mtrLast = s.mtrLast ∧ (emit s o).mirCnt = s.mirCnt ∧ (emit s o).mirSeq = s.mirSeq ∧
    (emit s o).lpmStuck = s.lpmStuck ∧ (emit s o).caps = s.caps ∧ (emit s o).chans = s.chans :=
  let ⟨v0, h⟩ := emit_only s o
  only_out5 v0 h

@[simp] theorem emit_frame6 (s : State) (o : Output) :
    (emit s o).scratch = s.scratch ∧ (emit s o).span = s.span ∧ (emit s o).tioFifo = s.tioFifo ∧
    (emit s o).tioLast = s.tioLast ∧ (emit s o).sense = s.sense ∧ (emit s o).colls = s.colls ∧
    (emit s o).modRetry = s.modRetry ∧ (emit s o).eqHeld = s.eqHeld ∧ (emit s o).modNacks = s.modNacks :=
  let ⟨v0, h⟩ := emit_only s o
  only_out6 v0 h

@[simp] theorem emit_frame7 (s : State) (o : Output) :
    (emit s o).fecWin = s.fecWin ∧ (emit s o).eyeLane = s.eyeLane ∧ (emit s o).cagePins = s.cagePins ∧
    (emit s o).xferCmd = s.xferCmd ∧ (emit s o).diagCmd = s.diagCmd ∧ (emit s o).mirHeld = s.mirHeld ∧
    (emit s o).stamps = s.stamps ∧ (emit s o).tcPorts = s.tcPorts ∧ (emit s o).ptpPorts = s.ptpPorts :=
  let ⟨v0, h⟩ := emit_only s o
  only_out7 v0 h

@[simp] theorem emit_frame8 (s : State) (o : Output) :
    (emit s o).lifts = s.lifts ∧ (emit s o).groups = s.groups ∧ (emit s o).dispatchAt = s.dispatchAt ∧
    (emit s o).bscFifo = s.bscFifo ∧ (emit s o).stepped = s.stepped ∧ (emit s o).sqs = s.sqs ∧
    (emit s o).cqs = s.cqs ∧ (emit s o).txWait = s.txWait ∧ (emit s o).rxWait = s.rxWait :=
  let ⟨v0, h⟩ := emit_only s o
  only_out8 v0 h

@[simp] theorem emit_frame9 (s : State) (o : Output) :
    (emit s o).turns = s.turns ∧ (emit s o).lostTx = s.lostTx ∧ (emit s o).lastReason = s.lastReason ∧
    (emit s o).scratchNew = s.scratchNew ∧ (emit s o).scratchMem = s.scratchMem ∧ (emit s o).blkImg = s.blkImg ∧
    (emit s o).svcOp = s.svcOp ∧ (emit s o).buckets = s.buckets ∧ (emit s o).embHold = s.embHold :=
  let ⟨v0, h⟩ := emit_only s o
  only_out9 v0 h

@[simp] theorem emit_frame10 (s : State) (o : Output) :
    (emit s o).inHand = s.inHand ∧ (emit s o).redeliv = s.redeliv ∧ (emit s o).svcCfg = s.svcCfg ∧
    (emit s o).svcObjs = s.svcObjs ∧ (emit s o).svcServed = s.svcServed ∧ (emit s o).storeDigest = s.storeDigest ∧
    (emit s o).logLen = s.logLen ∧ (emit s o).certSerial = s.certSerial ∧ (emit s o).boot = s.boot :=
  let ⟨v0, h⟩ := emit_only s o
  only_out10 v0 h

@[simp] theorem emit_frame11 (s : State) (o : Output) :
    (emit s o).tabBad = s.tabBad ∧ (emit s o).aonFailed = s.aonFailed ∧ (emit s o).wdogAt = s.wdogAt ∧
    (emit s o).replicas = s.replicas :=
  let ⟨v0, h⟩ := emit_only s o
  only_out11 v0 h

theorem setDom_only (s : State) (d : Nat) (x : Dom) :
    ∃ v0, setDom s d x = { s with doms := v0 } :=
  ⟨_, rfl⟩
theorem only_doms1 {s t : State} (v0 : SMap Dom) (h : t = { s with doms := v0 }) :
    t.baseCount = s.baseCount ∧ t.regs = s.regs ∧ t.tabs = s.tabs ∧ t.snaps = s.snaps ∧ t.pending = s.pending ∧
    t.freeCtr = s.freeCtr ∧ t.out = s.out ∧ t.resp = s.resp ∧ t.escal = s.escal := by
  subst h; exact ⟨rfl, rfl, rfl, rfl, rfl, rfl, rfl, rfl, rfl⟩

theorem only_doms2 {s t : State} (v0 : SMap Dom) (h : t = { s with doms := v0 }) :
    t.rdShadow = s.rdShadow ∧ t.wrShadow = s.wrShadow ∧ t.tblCmd = s.tblCmd ∧ t.parBad = s.parBad ∧ t.mode = s.mode ∧
    t.pins = s.pins ∧ t.holds = s.holds ∧ t.resets = s.resets ∧ t.d2d = s.d2d := by
  subst h; exact ⟨rfl, rfl, rfl, rfl, rfl, rfl, rfl, rfl, rfl⟩

theorem only_doms3 {s t : State} (v0 : SMap Dom) (h : t = { s with doms := v0 }) :
    t.queues = s.queues ∧ t.eports = s.eports ∧ t.admitting = s.admitting ∧ t.jobs = s.jobs ∧ t.rxOpen = s.rxOpen ∧
    t.pipes = s.pipes ∧ t.gates = s.gates ∧ t.gran = s.gran ∧ t.page = s.page := by
  subst h; exact ⟨rfl, rfl, rfl, rfl, rfl, rfl, rfl, rfl, rfl⟩

theorem only_doms4 {s t : State} (v0 : SMap Dom) (h : t = { s with doms := v0 }) :
    t.dramBad = s.dramBad ∧ t.cqueues = s.cqueues ∧ t.cust = s.cust ∧ t.dimms = s.dimms ∧ t.nextId = s.nextId ∧
    t.inj = s.inj ∧ t.insp = s.insp ∧ t.foot = s.foot ∧ t.fwTabs = s.fwTabs := by
  subst h; exact ⟨rfl, rfl, rfl, rfl, rfl, rfl, rfl, rfl, rfl⟩

theorem only_doms5 {s t : State} (v0 : SMap Dom) (h : t = { s with doms := v0 }) :
    t.therm = s.therm ∧ t.pcie = s.pcie ∧ t.tbs = s.tbs ∧ t.mtrLast = s.mtrLast ∧ t.mirCnt = s.mirCnt ∧
    t.mirSeq = s.mirSeq ∧ t.lpmStuck = s.lpmStuck ∧ t.caps = s.caps ∧ t.chans = s.chans := by
  subst h; exact ⟨rfl, rfl, rfl, rfl, rfl, rfl, rfl, rfl, rfl⟩

theorem only_doms6 {s t : State} (v0 : SMap Dom) (h : t = { s with doms := v0 }) :
    t.scratch = s.scratch ∧ t.span = s.span ∧ t.tioFifo = s.tioFifo ∧ t.tioLast = s.tioLast ∧ t.sense = s.sense ∧
    t.colls = s.colls ∧ t.modRetry = s.modRetry ∧ t.eqHeld = s.eqHeld ∧ t.modNacks = s.modNacks := by
  subst h; exact ⟨rfl, rfl, rfl, rfl, rfl, rfl, rfl, rfl, rfl⟩

theorem only_doms7 {s t : State} (v0 : SMap Dom) (h : t = { s with doms := v0 }) :
    t.fecWin = s.fecWin ∧ t.eyeLane = s.eyeLane ∧ t.cagePins = s.cagePins ∧ t.xferCmd = s.xferCmd ∧ t.diagCmd = s.diagCmd ∧
    t.mirHeld = s.mirHeld ∧ t.stamps = s.stamps ∧ t.tcPorts = s.tcPorts ∧ t.ptpPorts = s.ptpPorts := by
  subst h; exact ⟨rfl, rfl, rfl, rfl, rfl, rfl, rfl, rfl, rfl⟩

theorem only_doms8 {s t : State} (v0 : SMap Dom) (h : t = { s with doms := v0 }) :
    t.lifts = s.lifts ∧ t.groups = s.groups ∧ t.dispatchAt = s.dispatchAt ∧ t.bscFifo = s.bscFifo ∧ t.stepped = s.stepped ∧
    t.sqs = s.sqs ∧ t.cqs = s.cqs ∧ t.txWait = s.txWait ∧ t.rxWait = s.rxWait := by
  subst h; exact ⟨rfl, rfl, rfl, rfl, rfl, rfl, rfl, rfl, rfl⟩

theorem only_doms9 {s t : State} (v0 : SMap Dom) (h : t = { s with doms := v0 }) :
    t.turns = s.turns ∧ t.lostTx = s.lostTx ∧ t.lastReason = s.lastReason ∧ t.scratchNew = s.scratchNew ∧ t.scratchMem = s.scratchMem ∧
    t.blkImg = s.blkImg ∧ t.svcOp = s.svcOp ∧ t.buckets = s.buckets ∧ t.embHold = s.embHold := by
  subst h; exact ⟨rfl, rfl, rfl, rfl, rfl, rfl, rfl, rfl, rfl⟩

theorem only_doms10 {s t : State} (v0 : SMap Dom) (h : t = { s with doms := v0 }) :
    t.inHand = s.inHand ∧ t.redeliv = s.redeliv ∧ t.svcCfg = s.svcCfg ∧ t.svcObjs = s.svcObjs ∧ t.svcServed = s.svcServed ∧
    t.storeDigest = s.storeDigest ∧ t.logLen = s.logLen ∧ t.certSerial = s.certSerial ∧ t.boot = s.boot := by
  subst h; exact ⟨rfl, rfl, rfl, rfl, rfl, rfl, rfl, rfl, rfl⟩

theorem only_doms11 {s t : State} (v0 : SMap Dom) (h : t = { s with doms := v0 }) :
    t.tabBad = s.tabBad ∧ t.aonFailed = s.aonFailed ∧ t.wdogAt = s.wdogAt ∧ t.replicas = s.replicas := by
  subst h; exact ⟨rfl, rfl, rfl, rfl⟩

@[simp] theorem setDom_frame1 (s : State) (d : Nat) (x : Dom) :
    (setDom s d x).baseCount = s.baseCount ∧ (setDom s d x).regs = s.regs ∧ (setDom s d x).tabs = s.tabs ∧
    (setDom s d x).snaps = s.snaps ∧ (setDom s d x).pending = s.pending ∧ (setDom s d x).freeCtr = s.freeCtr ∧
    (setDom s d x).out = s.out ∧ (setDom s d x).resp = s.resp ∧ (setDom s d x).escal = s.escal :=
  let ⟨v0, h⟩ := setDom_only s d x
  only_doms1 v0 h

@[simp] theorem setDom_frame2 (s : State) (d : Nat) (x : Dom) :
    (setDom s d x).rdShadow = s.rdShadow ∧ (setDom s d x).wrShadow = s.wrShadow ∧ (setDom s d x).tblCmd = s.tblCmd ∧
    (setDom s d x).parBad = s.parBad ∧ (setDom s d x).mode = s.mode ∧ (setDom s d x).pins = s.pins ∧
    (setDom s d x).holds = s.holds ∧ (setDom s d x).resets = s.resets ∧ (setDom s d x).d2d = s.d2d :=
  let ⟨v0, h⟩ := setDom_only s d x
  only_doms2 v0 h

@[simp] theorem setDom_frame3 (s : State) (d : Nat) (x : Dom) :
    (setDom s d x).queues = s.queues ∧ (setDom s d x).eports = s.eports ∧ (setDom s d x).admitting = s.admitting ∧
    (setDom s d x).jobs = s.jobs ∧ (setDom s d x).rxOpen = s.rxOpen ∧ (setDom s d x).pipes = s.pipes ∧
    (setDom s d x).gates = s.gates ∧ (setDom s d x).gran = s.gran ∧ (setDom s d x).page = s.page :=
  let ⟨v0, h⟩ := setDom_only s d x
  only_doms3 v0 h

@[simp] theorem setDom_frame4 (s : State) (d : Nat) (x : Dom) :
    (setDom s d x).dramBad = s.dramBad ∧ (setDom s d x).cqueues = s.cqueues ∧ (setDom s d x).cust = s.cust ∧
    (setDom s d x).dimms = s.dimms ∧ (setDom s d x).nextId = s.nextId ∧ (setDom s d x).inj = s.inj ∧
    (setDom s d x).insp = s.insp ∧ (setDom s d x).foot = s.foot ∧ (setDom s d x).fwTabs = s.fwTabs :=
  let ⟨v0, h⟩ := setDom_only s d x
  only_doms4 v0 h

@[simp] theorem setDom_frame5 (s : State) (d : Nat) (x : Dom) :
    (setDom s d x).therm = s.therm ∧ (setDom s d x).pcie = s.pcie ∧ (setDom s d x).tbs = s.tbs ∧
    (setDom s d x).mtrLast = s.mtrLast ∧ (setDom s d x).mirCnt = s.mirCnt ∧ (setDom s d x).mirSeq = s.mirSeq ∧
    (setDom s d x).lpmStuck = s.lpmStuck ∧ (setDom s d x).caps = s.caps ∧ (setDom s d x).chans = s.chans :=
  let ⟨v0, h⟩ := setDom_only s d x
  only_doms5 v0 h

@[simp] theorem setDom_frame6 (s : State) (d : Nat) (x : Dom) :
    (setDom s d x).scratch = s.scratch ∧ (setDom s d x).span = s.span ∧ (setDom s d x).tioFifo = s.tioFifo ∧
    (setDom s d x).tioLast = s.tioLast ∧ (setDom s d x).sense = s.sense ∧ (setDom s d x).colls = s.colls ∧
    (setDom s d x).modRetry = s.modRetry ∧ (setDom s d x).eqHeld = s.eqHeld ∧ (setDom s d x).modNacks = s.modNacks :=
  let ⟨v0, h⟩ := setDom_only s d x
  only_doms6 v0 h

@[simp] theorem setDom_frame7 (s : State) (d : Nat) (x : Dom) :
    (setDom s d x).fecWin = s.fecWin ∧ (setDom s d x).eyeLane = s.eyeLane ∧ (setDom s d x).cagePins = s.cagePins ∧
    (setDom s d x).xferCmd = s.xferCmd ∧ (setDom s d x).diagCmd = s.diagCmd ∧ (setDom s d x).mirHeld = s.mirHeld ∧
    (setDom s d x).stamps = s.stamps ∧ (setDom s d x).tcPorts = s.tcPorts ∧ (setDom s d x).ptpPorts = s.ptpPorts :=
  let ⟨v0, h⟩ := setDom_only s d x
  only_doms7 v0 h

@[simp] theorem setDom_frame8 (s : State) (d : Nat) (x : Dom) :
    (setDom s d x).lifts = s.lifts ∧ (setDom s d x).groups = s.groups ∧ (setDom s d x).dispatchAt = s.dispatchAt ∧
    (setDom s d x).bscFifo = s.bscFifo ∧ (setDom s d x).stepped = s.stepped ∧ (setDom s d x).sqs = s.sqs ∧
    (setDom s d x).cqs = s.cqs ∧ (setDom s d x).txWait = s.txWait ∧ (setDom s d x).rxWait = s.rxWait :=
  let ⟨v0, h⟩ := setDom_only s d x
  only_doms8 v0 h

@[simp] theorem setDom_frame9 (s : State) (d : Nat) (x : Dom) :
    (setDom s d x).turns = s.turns ∧ (setDom s d x).lostTx = s.lostTx ∧ (setDom s d x).lastReason = s.lastReason ∧
    (setDom s d x).scratchNew = s.scratchNew ∧ (setDom s d x).scratchMem = s.scratchMem ∧ (setDom s d x).blkImg = s.blkImg ∧
    (setDom s d x).svcOp = s.svcOp ∧ (setDom s d x).buckets = s.buckets ∧ (setDom s d x).embHold = s.embHold :=
  let ⟨v0, h⟩ := setDom_only s d x
  only_doms9 v0 h

@[simp] theorem setDom_frame10 (s : State) (d : Nat) (x : Dom) :
    (setDom s d x).inHand = s.inHand ∧ (setDom s d x).redeliv = s.redeliv ∧ (setDom s d x).svcCfg = s.svcCfg ∧
    (setDom s d x).svcObjs = s.svcObjs ∧ (setDom s d x).svcServed = s.svcServed ∧ (setDom s d x).storeDigest = s.storeDigest ∧
    (setDom s d x).logLen = s.logLen ∧ (setDom s d x).certSerial = s.certSerial ∧ (setDom s d x).boot = s.boot :=
  let ⟨v0, h⟩ := setDom_only s d x
  only_doms10 v0 h

@[simp] theorem setDom_frame11 (s : State) (d : Nat) (x : Dom) :
    (setDom s d x).tabBad = s.tabBad ∧ (setDom s d x).aonFailed = s.aonFailed ∧ (setDom s d x).wdogAt = s.wdogAt ∧
    (setDom s d x).replicas = s.replicas :=
  let ⟨v0, h⟩ := setDom_only s d x
  only_doms11 v0 h

theorem addHold_only (s : State) (k : Nat × Nat) :
    ∃ v0, addHold s k = { s with holds := v0 } :=
  by
  unfold addHold
  split
  · exact ⟨s.holds, rfl⟩
  · exact ⟨_, rfl⟩
theorem only_holds1 {s t : State} (v0 : List (Nat × Nat)) (h : t = { s with holds := v0 }) :
    t.baseCount = s.baseCount ∧ t.regs = s.regs ∧ t.tabs = s.tabs ∧ t.snaps = s.snaps ∧ t.pending = s.pending ∧
    t.freeCtr = s.freeCtr ∧ t.out = s.out ∧ t.resp = s.resp ∧ t.escal = s.escal := by
  subst h; exact ⟨rfl, rfl, rfl, rfl, rfl, rfl, rfl, rfl, rfl⟩

theorem only_holds2 {s t : State} (v0 : List (Nat × Nat)) (h : t = { s with holds := v0 }) :
    t.rdShadow = s.rdShadow ∧ t.wrShadow = s.wrShadow ∧ t.tblCmd = s.tblCmd ∧ t.parBad = s.parBad ∧ t.mode = s.mode ∧
    t.pins = s.pins ∧ t.doms = s.doms ∧ t.resets = s.resets ∧ t.d2d = s.d2d := by
  subst h; exact ⟨rfl, rfl, rfl, rfl, rfl, rfl, rfl, rfl, rfl⟩

theorem only_holds3 {s t : State} (v0 : List (Nat × Nat)) (h : t = { s with holds := v0 }) :
    t.queues = s.queues ∧ t.eports = s.eports ∧ t.admitting = s.admitting ∧ t.jobs = s.jobs ∧ t.rxOpen = s.rxOpen ∧
    t.pipes = s.pipes ∧ t.gates = s.gates ∧ t.gran = s.gran ∧ t.page = s.page := by
  subst h; exact ⟨rfl, rfl, rfl, rfl, rfl, rfl, rfl, rfl, rfl⟩

theorem only_holds4 {s t : State} (v0 : List (Nat × Nat)) (h : t = { s with holds := v0 }) :
    t.dramBad = s.dramBad ∧ t.cqueues = s.cqueues ∧ t.cust = s.cust ∧ t.dimms = s.dimms ∧ t.nextId = s.nextId ∧
    t.inj = s.inj ∧ t.insp = s.insp ∧ t.foot = s.foot ∧ t.fwTabs = s.fwTabs := by
  subst h; exact ⟨rfl, rfl, rfl, rfl, rfl, rfl, rfl, rfl, rfl⟩

theorem only_holds5 {s t : State} (v0 : List (Nat × Nat)) (h : t = { s with holds := v0 }) :
    t.therm = s.therm ∧ t.pcie = s.pcie ∧ t.tbs = s.tbs ∧ t.mtrLast = s.mtrLast ∧ t.mirCnt = s.mirCnt ∧
    t.mirSeq = s.mirSeq ∧ t.lpmStuck = s.lpmStuck ∧ t.caps = s.caps ∧ t.chans = s.chans := by
  subst h; exact ⟨rfl, rfl, rfl, rfl, rfl, rfl, rfl, rfl, rfl⟩

theorem only_holds6 {s t : State} (v0 : List (Nat × Nat)) (h : t = { s with holds := v0 }) :
    t.scratch = s.scratch ∧ t.span = s.span ∧ t.tioFifo = s.tioFifo ∧ t.tioLast = s.tioLast ∧ t.sense = s.sense ∧
    t.colls = s.colls ∧ t.modRetry = s.modRetry ∧ t.eqHeld = s.eqHeld ∧ t.modNacks = s.modNacks := by
  subst h; exact ⟨rfl, rfl, rfl, rfl, rfl, rfl, rfl, rfl, rfl⟩

theorem only_holds7 {s t : State} (v0 : List (Nat × Nat)) (h : t = { s with holds := v0 }) :
    t.fecWin = s.fecWin ∧ t.eyeLane = s.eyeLane ∧ t.cagePins = s.cagePins ∧ t.xferCmd = s.xferCmd ∧ t.diagCmd = s.diagCmd ∧
    t.mirHeld = s.mirHeld ∧ t.stamps = s.stamps ∧ t.tcPorts = s.tcPorts ∧ t.ptpPorts = s.ptpPorts := by
  subst h; exact ⟨rfl, rfl, rfl, rfl, rfl, rfl, rfl, rfl, rfl⟩

theorem only_holds8 {s t : State} (v0 : List (Nat × Nat)) (h : t = { s with holds := v0 }) :
    t.lifts = s.lifts ∧ t.groups = s.groups ∧ t.dispatchAt = s.dispatchAt ∧ t.bscFifo = s.bscFifo ∧ t.stepped = s.stepped ∧
    t.sqs = s.sqs ∧ t.cqs = s.cqs ∧ t.txWait = s.txWait ∧ t.rxWait = s.rxWait := by
  subst h; exact ⟨rfl, rfl, rfl, rfl, rfl, rfl, rfl, rfl, rfl⟩

theorem only_holds9 {s t : State} (v0 : List (Nat × Nat)) (h : t = { s with holds := v0 }) :
    t.turns = s.turns ∧ t.lostTx = s.lostTx ∧ t.lastReason = s.lastReason ∧ t.scratchNew = s.scratchNew ∧ t.scratchMem = s.scratchMem ∧
    t.blkImg = s.blkImg ∧ t.svcOp = s.svcOp ∧ t.buckets = s.buckets ∧ t.embHold = s.embHold := by
  subst h; exact ⟨rfl, rfl, rfl, rfl, rfl, rfl, rfl, rfl, rfl⟩

theorem only_holds10 {s t : State} (v0 : List (Nat × Nat)) (h : t = { s with holds := v0 }) :
    t.inHand = s.inHand ∧ t.redeliv = s.redeliv ∧ t.svcCfg = s.svcCfg ∧ t.svcObjs = s.svcObjs ∧ t.svcServed = s.svcServed ∧
    t.storeDigest = s.storeDigest ∧ t.logLen = s.logLen ∧ t.certSerial = s.certSerial ∧ t.boot = s.boot := by
  subst h; exact ⟨rfl, rfl, rfl, rfl, rfl, rfl, rfl, rfl, rfl⟩

theorem only_holds11 {s t : State} (v0 : List (Nat × Nat)) (h : t = { s with holds := v0 }) :
    t.tabBad = s.tabBad ∧ t.aonFailed = s.aonFailed ∧ t.wdogAt = s.wdogAt ∧ t.replicas = s.replicas := by
  subst h; exact ⟨rfl, rfl, rfl, rfl⟩

@[simp] theorem addHold_frame1 (s : State) (k : Nat × Nat) :
    (addHold s k).baseCount = s.baseCount ∧ (addHold s k).regs = s.regs ∧ (addHold s k).tabs = s.tabs ∧
    (addHold s k).snaps = s.snaps ∧ (addHold s k).pending = s.pending ∧ (addHold s k).freeCtr = s.freeCtr ∧
    (addHold s k).out = s.out ∧ (addHold s k).resp = s.resp ∧ (addHold s k).escal = s.escal :=
  let ⟨v0, h⟩ := addHold_only s k
  only_holds1 v0 h

@[simp] theorem addHold_frame2 (s : State) (k : Nat × Nat) :
    (addHold s k).rdShadow = s.rdShadow ∧ (addHold s k).wrShadow = s.wrShadow ∧ (addHold s k).tblCmd = s.tblCmd ∧
    (addHold s k).parBad = s.parBad ∧ (addHold s k).mode = s.mode ∧ (addHold s k).pins = s.pins ∧
    (addHold s k).doms = s.doms ∧ (addHold s k).resets = s.resets ∧ (addHold s k).d2d = s.d2d :=
  let ⟨v0, h⟩ := addHold_only s k
  only_holds2 v0 h

@[simp] theorem addHold_frame3 (s : State) (k : Nat × Nat) :
    (addHold s k).queues = s.queues ∧ (addHold s k).eports = s.eports ∧ (addHold s k).admitting = s.admitting ∧
    (addHold s k).jobs = s.jobs ∧ (addHold s k).rxOpen = s.rxOpen ∧ (addHold s k).pipes = s.pipes ∧
    (addHold s k).gates = s.gates ∧ (addHold s k).gran = s.gran ∧ (addHold s k).page = s.page :=
  let ⟨v0, h⟩ := addHold_only s k
  only_holds3 v0 h

@[simp] theorem addHold_frame4 (s : State) (k : Nat × Nat) :
    (addHold s k).dramBad = s.dramBad ∧ (addHold s k).cqueues = s.cqueues ∧ (addHold s k).cust = s.cust ∧
    (addHold s k).dimms = s.dimms ∧ (addHold s k).nextId = s.nextId ∧ (addHold s k).inj = s.inj ∧
    (addHold s k).insp = s.insp ∧ (addHold s k).foot = s.foot ∧ (addHold s k).fwTabs = s.fwTabs :=
  let ⟨v0, h⟩ := addHold_only s k
  only_holds4 v0 h

@[simp] theorem addHold_frame5 (s : State) (k : Nat × Nat) :
    (addHold s k).therm = s.therm ∧ (addHold s k).pcie = s.pcie ∧ (addHold s k).tbs = s.tbs ∧
    (addHold s k).mtrLast = s.mtrLast ∧ (addHold s k).mirCnt = s.mirCnt ∧ (addHold s k).mirSeq = s.mirSeq ∧
    (addHold s k).lpmStuck = s.lpmStuck ∧ (addHold s k).caps = s.caps ∧ (addHold s k).chans = s.chans :=
  let ⟨v0, h⟩ := addHold_only s k
  only_holds5 v0 h

@[simp] theorem addHold_frame6 (s : State) (k : Nat × Nat) :
    (addHold s k).scratch = s.scratch ∧ (addHold s k).span = s.span ∧ (addHold s k).tioFifo = s.tioFifo ∧
    (addHold s k).tioLast = s.tioLast ∧ (addHold s k).sense = s.sense ∧ (addHold s k).colls = s.colls ∧
    (addHold s k).modRetry = s.modRetry ∧ (addHold s k).eqHeld = s.eqHeld ∧ (addHold s k).modNacks = s.modNacks :=
  let ⟨v0, h⟩ := addHold_only s k
  only_holds6 v0 h

@[simp] theorem addHold_frame7 (s : State) (k : Nat × Nat) :
    (addHold s k).fecWin = s.fecWin ∧ (addHold s k).eyeLane = s.eyeLane ∧ (addHold s k).cagePins = s.cagePins ∧
    (addHold s k).xferCmd = s.xferCmd ∧ (addHold s k).diagCmd = s.diagCmd ∧ (addHold s k).mirHeld = s.mirHeld ∧
    (addHold s k).stamps = s.stamps ∧ (addHold s k).tcPorts = s.tcPorts ∧ (addHold s k).ptpPorts = s.ptpPorts :=
  let ⟨v0, h⟩ := addHold_only s k
  only_holds7 v0 h

@[simp] theorem addHold_frame8 (s : State) (k : Nat × Nat) :
    (addHold s k).lifts = s.lifts ∧ (addHold s k).groups = s.groups ∧ (addHold s k).dispatchAt = s.dispatchAt ∧
    (addHold s k).bscFifo = s.bscFifo ∧ (addHold s k).stepped = s.stepped ∧ (addHold s k).sqs = s.sqs ∧
    (addHold s k).cqs = s.cqs ∧ (addHold s k).txWait = s.txWait ∧ (addHold s k).rxWait = s.rxWait :=
  let ⟨v0, h⟩ := addHold_only s k
  only_holds8 v0 h

@[simp] theorem addHold_frame9 (s : State) (k : Nat × Nat) :
    (addHold s k).turns = s.turns ∧ (addHold s k).lostTx = s.lostTx ∧ (addHold s k).lastReason = s.lastReason ∧
    (addHold s k).scratchNew = s.scratchNew ∧ (addHold s k).scratchMem = s.scratchMem ∧ (addHold s k).blkImg = s.blkImg ∧
    (addHold s k).svcOp = s.svcOp ∧ (addHold s k).buckets = s.buckets ∧ (addHold s k).embHold = s.embHold :=
  let ⟨v0, h⟩ := addHold_only s k
  only_holds9 v0 h

@[simp] theorem addHold_frame10 (s : State) (k : Nat × Nat) :
    (addHold s k).inHand = s.inHand ∧ (addHold s k).redeliv = s.redeliv ∧ (addHold s k).svcCfg = s.svcCfg ∧
    (addHold s k).svcObjs = s.svcObjs ∧ (addHold s k).svcServed = s.svcServed ∧ (addHold s k).storeDigest = s.storeDigest ∧
    (addHold s k).logLen = s.logLen ∧ (addHold s k).certSerial = s.certSerial ∧ (addHold s k).boot = s.boot :=
  let ⟨v0, h⟩ := addHold_only s k
  only_holds10 v0 h

@[simp] theorem addHold_frame11 (s : State) (k : Nat × Nat) :
    (addHold s k).tabBad = s.tabBad ∧ (addHold s k).aonFailed = s.aonFailed ∧ (addHold s k).wdogAt = s.wdogAt ∧
    (addHold s k).replicas = s.replicas :=
  let ⟨v0, h⟩ := addHold_only s k
  only_holds11 v0 h

theorem regs_wr {s t : State} (h : ∃ r, t = { s with regs := r }) (p o : Nat) (v : Word) : ∃ r, wr t p o v = { s with regs := r } := by
  obtain ⟨r, rfl⟩ := h; exact ⟨_, rfl⟩
theorem regs_wr64 {s t : State} (h : ∃ r, t = { s with regs := r }) (p o v : Nat) : ∃ r, wr64 t p o v = { s with regs := r } :=
  regs_wr (regs_wr h p o _) p (o + 4) _
theorem capture_regs (s : State) (p src sev cell reason detail : Nat) :
    ∃ r, capture s p src sev cell reason detail = { s with regs := r } := by
  rw [capture]
  split
  · exact ⟨_, rfl⟩
  · exact regs_wr (regs_wr64 (regs_wr ⟨s.regs, rfl⟩ p _ _) p _ _) p _ _

theorem raise_only (s : State) (p src reason detail cell : Nat) :
    ∃ v0 v1 v2, raise s p src reason detail cell = { s with regs := v0, holds := v1, escal := v2 } :=
  by
  unfold raise
  dsimp only
  obtain ⟨a, ha⟩ := setBit_only s p 32 src true
  obtain ⟨r, hr⟩ := capture_regs (setBit s p 32 src true) p src (sevOf s p src) cell reason detail
  rw [hr, ha]
  split
  · obtain ⟨h, hh⟩ := addHold_only { s with regs := r } (if cellSource p src = true then (scopeKey p, cell + 1) else (scopeKey p, 0))
    exact ⟨r, h, s.escal, hh⟩
  · split
    · exact ⟨r, s.holds, _, rfl⟩
    · exact ⟨r, s.holds, s.escal, rfl⟩
theorem only_regs_holds_escal1 {s t : State} (v0 : SMap Word) (v1 : List (Nat × Nat)) (v2 : List (Nat × Nat)) (h : t = { s with regs := v0, holds := v1, escal := v2 }) :
    t.baseCount = s.baseCount ∧ t.tabs = s.tabs ∧ t.snaps = s.snaps ∧ t.pending = s.pending ∧ t.freeCtr = s.freeCtr ∧
    t.out = s.out ∧ t.resp = s.resp ∧ t.rdShadow = s.rdShadow ∧ t.wrShadow = s.wrShadow := by
  subst h; exact ⟨rfl, rfl, rfl, rfl, rfl, rfl, rfl, rfl, rfl⟩

theorem only_regs_holds_escal2 {s t : State} (v0 : SMap Word) (v1 : List (Nat × Nat)) (v2 : List (Nat × Nat)) (h : t = { s with regs := v0, holds := v1, escal := v2 }) :
    t.tblCmd = s.tblCmd ∧ t.parBad = s.parBad ∧ t.mode = s.mode ∧ t.pins = s.pins ∧ t.doms = s.doms ∧
    t.resets = s.resets ∧ t.d2d = s.d2d ∧ t.queues = s.queues ∧ t.eports = s.eports := by
  subst h; exact ⟨rfl, rfl, rfl, rfl, rfl, rfl, rfl, rfl, rfl⟩

theorem only_regs_holds_escal3 {s t : State} (v0 : SMap Word) (v1 : List (Nat × Nat)) (v2 : List (Nat × Nat)) (h : t = { s with regs := v0, holds := v1, escal := v2 }) :
    t.admitting = s.admitting ∧ t.jobs = s.jobs ∧ t.rxOpen = s.rxOpen ∧ t.pipes = s.pipes ∧ t.gates = s.gates ∧
    t.gran = s.gran ∧ t.page = s.page ∧ t.dramBad = s.dramBad ∧ t.cqueues = s.cqueues := by
  subst h; exact ⟨rfl, rfl, rfl, rfl, rfl, rfl, rfl, rfl, rfl⟩

theorem only_regs_holds_escal4 {s t : State} (v0 : SMap Word) (v1 : List (Nat × Nat)) (v2 : List (Nat × Nat)) (h : t = { s with regs := v0, holds := v1, escal := v2 }) :
    t.cust = s.cust ∧ t.dimms = s.dimms ∧ t.nextId = s.nextId ∧ t.inj = s.inj ∧ t.insp = s.insp ∧
    t.foot = s.foot ∧ t.fwTabs = s.fwTabs ∧ t.therm = s.therm ∧ t.pcie = s.pcie := by
  subst h; exact ⟨rfl, rfl, rfl, rfl, rfl, rfl, rfl, rfl, rfl⟩

theorem only_regs_holds_escal5 {s t : State} (v0 : SMap Word) (v1 : List (Nat × Nat)) (v2 : List (Nat × Nat)) (h : t = { s with regs := v0, holds := v1, escal := v2 }) :
    t.tbs = s.tbs ∧ t.mtrLast = s.mtrLast ∧ t.mirCnt = s.mirCnt ∧ t.mirSeq = s.mirSeq ∧ t.lpmStuck = s.lpmStuck ∧
    t.caps = s.caps ∧ t.chans = s.chans ∧ t.scratch = s.scratch ∧ t.span = s.span := by
  subst h; exact ⟨rfl, rfl, rfl, rfl, rfl, rfl, rfl, rfl, rfl⟩

theorem only_regs_holds_escal6 {s t : State} (v0 : SMap Word) (v1 : List (Nat × Nat)) (v2 : List (Nat × Nat)) (h : t = { s with regs := v0, holds := v1, escal := v2 }) :
    t.tioFifo = s.tioFifo ∧ t.tioLast = s.tioLast ∧ t.sense = s.sense ∧ t.colls = s.colls ∧ t.modRetry = s.modRetry ∧
    t.eqHeld = s.eqHeld ∧ t.modNacks = s.modNacks ∧ t.fecWin = s.fecWin ∧ t.eyeLane = s.eyeLane := by
  subst h; exact ⟨rfl, rfl, rfl, rfl, rfl, rfl, rfl, rfl, rfl⟩

theorem only_regs_holds_escal7 {s t : State} (v0 : SMap Word) (v1 : List (Nat × Nat)) (v2 : List (Nat × Nat)) (h : t = { s with regs := v0, holds := v1, escal := v2 }) :
    t.cagePins = s.cagePins ∧ t.xferCmd = s.xferCmd ∧ t.diagCmd = s.diagCmd ∧ t.mirHeld = s.mirHeld ∧ t.stamps = s.stamps ∧
    t.tcPorts = s.tcPorts ∧ t.ptpPorts = s.ptpPorts ∧ t.lifts = s.lifts ∧ t.groups = s.groups := by
  subst h; exact ⟨rfl, rfl, rfl, rfl, rfl, rfl, rfl, rfl, rfl⟩

theorem only_regs_holds_escal8 {s t : State} (v0 : SMap Word) (v1 : List (Nat × Nat)) (v2 : List (Nat × Nat)) (h : t = { s with regs := v0, holds := v1, escal := v2 }) :
    t.dispatchAt = s.dispatchAt ∧ t.bscFifo = s.bscFifo ∧ t.stepped = s.stepped ∧ t.sqs = s.sqs ∧ t.cqs = s.cqs ∧
    t.txWait = s.txWait ∧ t.rxWait = s.rxWait ∧ t.turns = s.turns ∧ t.lostTx = s.lostTx := by
  subst h; exact ⟨rfl, rfl, rfl, rfl, rfl, rfl, rfl, rfl, rfl⟩

theorem only_regs_holds_escal9 {s t : State} (v0 : SMap Word) (v1 : List (Nat × Nat)) (v2 : List (Nat × Nat)) (h : t = { s with regs := v0, holds := v1, escal := v2 }) :
    t.lastReason = s.lastReason ∧ t.scratchNew = s.scratchNew ∧ t.scratchMem = s.scratchMem ∧ t.blkImg = s.blkImg ∧ t.svcOp = s.svcOp ∧
    t.buckets = s.buckets ∧ t.embHold = s.embHold ∧ t.inHand = s.inHand ∧ t.redeliv = s.redeliv := by
  subst h; exact ⟨rfl, rfl, rfl, rfl, rfl, rfl, rfl, rfl, rfl⟩

theorem only_regs_holds_escal10 {s t : State} (v0 : SMap Word) (v1 : List (Nat × Nat)) (v2 : List (Nat × Nat)) (h : t = { s with regs := v0, holds := v1, escal := v2 }) :
    t.svcCfg = s.svcCfg ∧ t.svcObjs = s.svcObjs ∧ t.svcServed = s.svcServed ∧ t.storeDigest = s.storeDigest ∧ t.logLen = s.logLen ∧
    t.certSerial = s.certSerial ∧ t.boot = s.boot ∧ t.tabBad = s.tabBad ∧ t.aonFailed = s.aonFailed := by
  subst h; exact ⟨rfl, rfl, rfl, rfl, rfl, rfl, rfl, rfl, rfl⟩

theorem only_regs_holds_escal11 {s t : State} (v0 : SMap Word) (v1 : List (Nat × Nat)) (v2 : List (Nat × Nat)) (h : t = { s with regs := v0, holds := v1, escal := v2 }) :
    t.wdogAt = s.wdogAt ∧ t.replicas = s.replicas := by
  subst h; exact ⟨rfl, rfl⟩

@[simp] theorem raise_frame1 (s : State) (p src reason detail cell : Nat) :
    (raise s p src reason detail cell).baseCount = s.baseCount ∧ (raise s p src reason detail cell).tabs = s.tabs ∧ (raise s p src reason detail cell).snaps = s.snaps ∧
    (raise s p src reason detail cell).pending = s.pending ∧ (raise s p src reason detail cell).freeCtr = s.freeCtr ∧ (raise s p src reason detail cell).out = s.out ∧
    (raise s p src reason detail cell).resp = s.resp ∧ (raise s p src reason detail cell).rdShadow = s.rdShadow ∧ (raise s p src reason detail cell).wrShadow = s.wrShadow :=
  let ⟨v0, v1, v2, h⟩ := raise_only s p src reason detail cell
  only_regs_holds_escal1 v0 v1 v2 h

@[simp] theorem raise_frame2 (s : State) (p src reason detail cell : Nat) :
    (raise s p src reason detail cell).tblCmd = s.tblCmd ∧ (raise s p src reason detail cell).parBad = s.parBad ∧ (raise s p src reason detail cell).mode = s.mode ∧
    (raise s p src reason detail cell).pins = s.pins ∧ (raise s p src reason detail cell).doms = s.doms ∧ (raise s p src reason detail cell).resets = s.resets ∧
    (raise s p src reason detail cell).d2d = s.d2d ∧ (raise s p src reason detail cell).queues = s.queues ∧ (raise s p src reason detail cell).eports = s.eports :=
  let ⟨v0, v1, v2, h⟩ := raise_only s p src reason detail cell
  only_regs_holds_escal2 v0 v1 v2 h

@[simp] theorem raise_frame3 (s : State) (p src reason detail cell : Nat) :
    (raise s p src reason detail cell).admitting = s.admitting ∧ (raise s p src reason detail cell).jobs = s.jobs ∧ (raise s p src reason detail cell).rxOpen = s.rxOpen ∧
    (raise s p src reason detail cell).pipes = s.pipes ∧ (raise s p src reason detail cell).gates = s.gates ∧ (raise s p src reason detail cell).gran = s.gran ∧
    (raise s p src reason detail cell).page = s.page ∧ (raise s p src reason detail cell).dramBad = s.dramBad ∧ (raise s p src reason detail cell).cqueues = s.cqueues :=
  let ⟨v0, v1, v2, h⟩ := raise_only s p src reason detail cell
  only_regs_holds_escal3 v0 v1 v2 h

@[simp] theorem raise_frame4 (s : State) (p src reason detail cell : Nat) :
    (raise s p src reason detail cell).cust = s.cust ∧ (raise s p src reason detail cell).dimms = s.dimms ∧ (raise s p src reason detail cell).nextId = s.nextId ∧
    (raise s p src reason detail cell).inj = s.inj ∧ (raise s p src reason detail cell).insp = s.insp ∧ (raise s p src reason detail cell).foot = s.foot ∧
    (raise s p src reason detail cell).fwTabs = s.fwTabs ∧ (raise s p src reason detail cell).therm = s.therm ∧ (raise s p src reason detail cell).pcie = s.pcie :=
  let ⟨v0, v1, v2, h⟩ := raise_only s p src reason detail cell
  only_regs_holds_escal4 v0 v1 v2 h

@[simp] theorem raise_frame5 (s : State) (p src reason detail cell : Nat) :
    (raise s p src reason detail cell).tbs = s.tbs ∧ (raise s p src reason detail cell).mtrLast = s.mtrLast ∧ (raise s p src reason detail cell).mirCnt = s.mirCnt ∧
    (raise s p src reason detail cell).mirSeq = s.mirSeq ∧ (raise s p src reason detail cell).lpmStuck = s.lpmStuck ∧ (raise s p src reason detail cell).caps = s.caps ∧
    (raise s p src reason detail cell).chans = s.chans ∧ (raise s p src reason detail cell).scratch = s.scratch ∧ (raise s p src reason detail cell).span = s.span :=
  let ⟨v0, v1, v2, h⟩ := raise_only s p src reason detail cell
  only_regs_holds_escal5 v0 v1 v2 h

@[simp] theorem raise_frame6 (s : State) (p src reason detail cell : Nat) :
    (raise s p src reason detail cell).tioFifo = s.tioFifo ∧ (raise s p src reason detail cell).tioLast = s.tioLast ∧ (raise s p src reason detail cell).sense = s.sense ∧
    (raise s p src reason detail cell).colls = s.colls ∧ (raise s p src reason detail cell).modRetry = s.modRetry ∧ (raise s p src reason detail cell).eqHeld = s.eqHeld ∧
    (raise s p src reason detail cell).modNacks = s.modNacks ∧ (raise s p src reason detail cell).fecWin = s.fecWin ∧ (raise s p src reason detail cell).eyeLane = s.eyeLane :=
  let ⟨v0, v1, v2, h⟩ := raise_only s p src reason detail cell
  only_regs_holds_escal6 v0 v1 v2 h

@[simp] theorem raise_frame7 (s : State) (p src reason detail cell : Nat) :
    (raise s p src reason detail cell).cagePins = s.cagePins ∧ (raise s p src reason detail cell).xferCmd = s.xferCmd ∧ (raise s p src reason detail cell).diagCmd = s.diagCmd ∧
    (raise s p src reason detail cell).mirHeld = s.mirHeld ∧ (raise s p src reason detail cell).stamps = s.stamps ∧ (raise s p src reason detail cell).tcPorts = s.tcPorts ∧
    (raise s p src reason detail cell).ptpPorts = s.ptpPorts ∧ (raise s p src reason detail cell).lifts = s.lifts ∧ (raise s p src reason detail cell).groups = s.groups :=
  let ⟨v0, v1, v2, h⟩ := raise_only s p src reason detail cell
  only_regs_holds_escal7 v0 v1 v2 h

@[simp] theorem raise_frame8 (s : State) (p src reason detail cell : Nat) :
    (raise s p src reason detail cell).dispatchAt = s.dispatchAt ∧ (raise s p src reason detail cell).bscFifo = s.bscFifo ∧ (raise s p src reason detail cell).stepped = s.stepped ∧
    (raise s p src reason detail cell).sqs = s.sqs ∧ (raise s p src reason detail cell).cqs = s.cqs ∧ (raise s p src reason detail cell).txWait = s.txWait ∧
    (raise s p src reason detail cell).rxWait = s.rxWait ∧ (raise s p src reason detail cell).turns = s.turns ∧ (raise s p src reason detail cell).lostTx = s.lostTx :=
  let ⟨v0, v1, v2, h⟩ := raise_only s p src reason detail cell
  only_regs_holds_escal8 v0 v1 v2 h

@[simp] theorem raise_frame9 (s : State) (p src reason detail cell : Nat) :
    (raise s p src reason detail cell).lastReason = s.lastReason ∧ (raise s p src reason detail cell).scratchNew = s.scratchNew ∧ (raise s p src reason detail cell).scratchMem = s.scratchMem ∧
    (raise s p src reason detail cell).blkImg = s.blkImg ∧ (raise s p src reason detail cell).svcOp = s.svcOp ∧ (raise s p src reason detail cell).buckets = s.buckets ∧
    (raise s p src reason detail cell).embHold = s.embHold ∧ (raise s p src reason detail cell).inHand = s.inHand ∧ (raise s p src reason detail cell).redeliv = s.redeliv :=
  let ⟨v0, v1, v2, h⟩ := raise_only s p src reason detail cell
  only_regs_holds_escal9 v0 v1 v2 h

@[simp] theorem raise_frame10 (s : State) (p src reason detail cell : Nat) :
    (raise s p src reason detail cell).svcCfg = s.svcCfg ∧ (raise s p src reason detail cell).svcObjs = s.svcObjs ∧ (raise s p src reason detail cell).svcServed = s.svcServed ∧
    (raise s p src reason detail cell).storeDigest = s.storeDigest ∧ (raise s p src reason detail cell).logLen = s.logLen ∧ (raise s p src reason detail cell).certSerial = s.certSerial ∧
    (raise s p src reason detail cell).boot = s.boot ∧ (raise s p src reason detail cell).tabBad = s.tabBad ∧ (raise s p src reason detail cell).aonFailed = s.aonFailed :=
  let ⟨v0, v1, v2, h⟩ := raise_only s p src reason detail cell
  only_regs_holds_escal10 v0 v1 v2 h

@[simp] theorem raise_frame11 (s : State) (p src reason detail cell : Nat) :
    (raise s p src reason detail cell).wdogAt = s.wdogAt ∧ (raise s p src reason detail cell).replicas = s.replicas :=
  let ⟨v0, v1, v2, h⟩ := raise_only s p src reason detail cell
  only_regs_holds_escal11 v0 v1 v2 h

theorem setQueue_only (s : State) (q : Nat) (x : Queue) :
    ∃ v0, setQueue s q x = { s with queues := v0 } :=
  ⟨_, rfl⟩
theorem only_queues1 {s t : State} (v0 : SMap Queue) (h : t = { s with queues := v0 }) :
    t.baseCount = s.baseCount ∧ t.regs = s.regs ∧ t.tabs = s.tabs ∧ t.snaps = s.snaps ∧ t.pending = s.pending ∧
    t.freeCtr = s.freeCtr ∧ t.out = s.out ∧ t.resp = s.resp ∧ t.escal = s.escal := by
  subst h; exact ⟨rfl, rfl, rfl, rfl, rfl, rfl, rfl, rfl, rfl⟩

theorem only_queues2 {s t : State} (v0 : SMap Queue) (h : t = { s with queues := v0 }) :
    t.rdShadow = s.rdShadow ∧ t.wrShadow = s.wrShadow ∧ t.tblCmd = s.tblCmd ∧ t.parBad = s.parBad ∧ t.mode = s.mode ∧
    t.pins = s.pins ∧ t.doms = s.doms ∧ t.holds = s.holds ∧ t.resets = s.resets := by
  subst h; exact ⟨rfl, rfl, rfl, rfl, rfl, rfl, rfl, rfl, rfl⟩

theorem only_queues3 {s t : State} (v0 : SMap Queue) (h : t = { s with queues := v0 }) :
    t.d2d = s.d2d ∧ t.eports = s.eports ∧ t.admitting = s.admitting ∧ t.jobs = s.jobs ∧ t.rxOpen = s.rxOpen ∧
    t.pipes = s.pipes ∧ t.gates = s.gates ∧ t.gran = s.gran ∧ t.page = s.page := by
  subst h; exact ⟨rfl, rfl, rfl, rfl, rfl, rfl, rfl, rfl, rfl⟩

theorem only_queues4 {s t : State} (v0 : SMap Queue) (h : t = { s with queues := v0 }) :
    t.dramBad = s.dramBad ∧ t.cqueues = s.cqueues ∧ t.cust = s.cust ∧ t.dimms = s.dimms ∧ t.nextId = s.nextId ∧
    t.inj = s.inj ∧ t.insp = s.insp ∧ t.foot = s.foot ∧ t.fwTabs = s.fwTabs := by
  subst h; exact ⟨rfl, rfl, rfl, rfl, rfl, rfl, rfl, rfl, rfl⟩

theorem only_queues5 {s t : State} (v0 : SMap Queue) (h : t = { s with queues := v0 }) :
    t.therm = s.therm ∧ t.pcie = s.pcie ∧ t.tbs = s.tbs ∧ t.mtrLast = s.mtrLast ∧ t.mirCnt = s.mirCnt ∧
    t.mirSeq = s.mirSeq ∧ t.lpmStuck = s.lpmStuck ∧ t.caps = s.caps ∧ t.chans = s.chans := by
  subst h; exact ⟨rfl, rfl, rfl, rfl, rfl, rfl, rfl, rfl, rfl⟩

theorem only_queues6 {s t : State} (v0 : SMap Queue) (h : t = { s with queues := v0 }) :
    t.scratch = s.scratch ∧ t.span = s.span ∧ t.tioFifo = s.tioFifo ∧ t.tioLast = s.tioLast ∧ t.sense = s.sense ∧
    t.colls = s.colls ∧ t.modRetry = s.modRetry ∧ t.eqHeld = s.eqHeld ∧ t.modNacks = s.modNacks := by
  subst h; exact ⟨rfl, rfl, rfl, rfl, rfl, rfl, rfl, rfl, rfl⟩

theorem only_queues7 {s t : State} (v0 : SMap Queue) (h : t = { s with queues := v0 }) :
    t.fecWin = s.fecWin ∧ t.eyeLane = s.eyeLane ∧ t.cagePins = s.cagePins ∧ t.xferCmd = s.xferCmd ∧ t.diagCmd = s.diagCmd ∧
    t.mirHeld = s.mirHeld ∧ t.stamps = s.stamps ∧ t.tcPorts = s.tcPorts ∧ t.ptpPorts = s.ptpPorts := by
  subst h; exact ⟨rfl, rfl, rfl, rfl, rfl, rfl, rfl, rfl, rfl⟩

theorem only_queues8 {s t : State} (v0 : SMap Queue) (h : t = { s with queues := v0 }) :
    t.lifts = s.lifts ∧ t.groups = s.groups ∧ t.dispatchAt = s.dispatchAt ∧ t.bscFifo = s.bscFifo ∧ t.stepped = s.stepped ∧
    t.sqs = s.sqs ∧ t.cqs = s.cqs ∧ t.txWait = s.txWait ∧ t.rxWait = s.rxWait := by
  subst h; exact ⟨rfl, rfl, rfl, rfl, rfl, rfl, rfl, rfl, rfl⟩

theorem only_queues9 {s t : State} (v0 : SMap Queue) (h : t = { s with queues := v0 }) :
    t.turns = s.turns ∧ t.lostTx = s.lostTx ∧ t.lastReason = s.lastReason ∧ t.scratchNew = s.scratchNew ∧ t.scratchMem = s.scratchMem ∧
    t.blkImg = s.blkImg ∧ t.svcOp = s.svcOp ∧ t.buckets = s.buckets ∧ t.embHold = s.embHold := by
  subst h; exact ⟨rfl, rfl, rfl, rfl, rfl, rfl, rfl, rfl, rfl⟩

theorem only_queues10 {s t : State} (v0 : SMap Queue) (h : t = { s with queues := v0 }) :
    t.inHand = s.inHand ∧ t.redeliv = s.redeliv ∧ t.svcCfg = s.svcCfg ∧ t.svcObjs = s.svcObjs ∧ t.svcServed = s.svcServed ∧
    t.storeDigest = s.storeDigest ∧ t.logLen = s.logLen ∧ t.certSerial = s.certSerial ∧ t.boot = s.boot := by
  subst h; exact ⟨rfl, rfl, rfl, rfl, rfl, rfl, rfl, rfl, rfl⟩

theorem only_queues11 {s t : State} (v0 : SMap Queue) (h : t = { s with queues := v0 }) :
    t.tabBad = s.tabBad ∧ t.aonFailed = s.aonFailed ∧ t.wdogAt = s.wdogAt ∧ t.replicas = s.replicas := by
  subst h; exact ⟨rfl, rfl, rfl, rfl⟩

@[simp] theorem setQueue_frame1 (s : State) (q : Nat) (x : Queue) :
    (setQueue s q x).baseCount = s.baseCount ∧ (setQueue s q x).regs = s.regs ∧ (setQueue s q x).tabs = s.tabs ∧
    (setQueue s q x).snaps = s.snaps ∧ (setQueue s q x).pending = s.pending ∧ (setQueue s q x).freeCtr = s.freeCtr ∧
    (setQueue s q x).out = s.out ∧ (setQueue s q x).resp = s.resp ∧ (setQueue s q x).escal = s.escal :=
  let ⟨v0, h⟩ := setQueue_only s q x
  only_queues1 v0 h

@[simp] theorem setQueue_frame2 (s : State) (q : Nat) (x : Queue) :
    (setQueue s q x).rdShadow = s.rdShadow ∧ (setQueue s q x).wrShadow = s.wrShadow ∧ (setQueue s q x).tblCmd = s.tblCmd ∧
    (setQueue s q x).parBad = s.parBad ∧ (setQueue s q x).mode = s.mode ∧ (setQueue s q x).pins = s.pins ∧
    (setQueue s q x).doms = s.doms ∧ (setQueue s q x).holds = s.holds ∧ (setQueue s q x).resets = s.resets :=
  let ⟨v0, h⟩ := setQueue_only s q x
  only_queues2 v0 h

@[simp] theorem setQueue_frame3 (s : State) (q : Nat) (x : Queue) :
    (setQueue s q x).d2d = s.d2d ∧ (setQueue s q x).eports = s.eports ∧ (setQueue s q x).admitting = s.admitting ∧
    (setQueue s q x).jobs = s.jobs ∧ (setQueue s q x).rxOpen = s.rxOpen ∧ (setQueue s q x).pipes = s.pipes ∧
    (setQueue s q x).gates = s.gates ∧ (setQueue s q x).gran = s.gran ∧ (setQueue s q x).page = s.page :=
  let ⟨v0, h⟩ := setQueue_only s q x
  only_queues3 v0 h

@[simp] theorem setQueue_frame4 (s : State) (q : Nat) (x : Queue) :
    (setQueue s q x).dramBad = s.dramBad ∧ (setQueue s q x).cqueues = s.cqueues ∧ (setQueue s q x).cust = s.cust ∧
    (setQueue s q x).dimms = s.dimms ∧ (setQueue s q x).nextId = s.nextId ∧ (setQueue s q x).inj = s.inj ∧
    (setQueue s q x).insp = s.insp ∧ (setQueue s q x).foot = s.foot ∧ (setQueue s q x).fwTabs = s.fwTabs :=
  let ⟨v0, h⟩ := setQueue_only s q x
  only_queues4 v0 h

@[simp] theorem setQueue_frame5 (s : State) (q : Nat) (x : Queue) :
    (setQueue s q x).therm = s.therm ∧ (setQueue s q x).pcie = s.pcie ∧ (setQueue s q x).tbs = s.tbs ∧
    (setQueue s q x).mtrLast = s.mtrLast ∧ (setQueue s q x).mirCnt = s.mirCnt ∧ (setQueue s q x).mirSeq = s.mirSeq ∧
    (setQueue s q x).lpmStuck = s.lpmStuck ∧ (setQueue s q x).caps = s.caps ∧ (setQueue s q x).chans = s.chans :=
  let ⟨v0, h⟩ := setQueue_only s q x
  only_queues5 v0 h

@[simp] theorem setQueue_frame6 (s : State) (q : Nat) (x : Queue) :
    (setQueue s q x).scratch = s.scratch ∧ (setQueue s q x).span = s.span ∧ (setQueue s q x).tioFifo = s.tioFifo ∧
    (setQueue s q x).tioLast = s.tioLast ∧ (setQueue s q x).sense = s.sense ∧ (setQueue s q x).colls = s.colls ∧
    (setQueue s q x).modRetry = s.modRetry ∧ (setQueue s q x).eqHeld = s.eqHeld ∧ (setQueue s q x).modNacks = s.modNacks :=
  let ⟨v0, h⟩ := setQueue_only s q x
  only_queues6 v0 h

@[simp] theorem setQueue_frame7 (s : State) (q : Nat) (x : Queue) :
    (setQueue s q x).fecWin = s.fecWin ∧ (setQueue s q x).eyeLane = s.eyeLane ∧ (setQueue s q x).cagePins = s.cagePins ∧
    (setQueue s q x).xferCmd = s.xferCmd ∧ (setQueue s q x).diagCmd = s.diagCmd ∧ (setQueue s q x).mirHeld = s.mirHeld ∧
    (setQueue s q x).stamps = s.stamps ∧ (setQueue s q x).tcPorts = s.tcPorts ∧ (setQueue s q x).ptpPorts = s.ptpPorts :=
  let ⟨v0, h⟩ := setQueue_only s q x
  only_queues7 v0 h

@[simp] theorem setQueue_frame8 (s : State) (q : Nat) (x : Queue) :
    (setQueue s q x).lifts = s.lifts ∧ (setQueue s q x).groups = s.groups ∧ (setQueue s q x).dispatchAt = s.dispatchAt ∧
    (setQueue s q x).bscFifo = s.bscFifo ∧ (setQueue s q x).stepped = s.stepped ∧ (setQueue s q x).sqs = s.sqs ∧
    (setQueue s q x).cqs = s.cqs ∧ (setQueue s q x).txWait = s.txWait ∧ (setQueue s q x).rxWait = s.rxWait :=
  let ⟨v0, h⟩ := setQueue_only s q x
  only_queues8 v0 h

@[simp] theorem setQueue_frame9 (s : State) (q : Nat) (x : Queue) :
    (setQueue s q x).turns = s.turns ∧ (setQueue s q x).lostTx = s.lostTx ∧ (setQueue s q x).lastReason = s.lastReason ∧
    (setQueue s q x).scratchNew = s.scratchNew ∧ (setQueue s q x).scratchMem = s.scratchMem ∧ (setQueue s q x).blkImg = s.blkImg ∧
    (setQueue s q x).svcOp = s.svcOp ∧ (setQueue s q x).buckets = s.buckets ∧ (setQueue s q x).embHold = s.embHold :=
  let ⟨v0, h⟩ := setQueue_only s q x
  only_queues9 v0 h

@[simp] theorem setQueue_frame10 (s : State) (q : Nat) (x : Queue) :
    (setQueue s q x).inHand = s.inHand ∧ (setQueue s q x).redeliv = s.redeliv ∧ (setQueue s q x).svcCfg = s.svcCfg ∧
    (setQueue s q x).svcObjs = s.svcObjs ∧ (setQueue s q x).svcServed = s.svcServed ∧ (setQueue s q x).storeDigest = s.storeDigest ∧
    (setQueue s q x).logLen = s.logLen ∧ (setQueue s q x).certSerial = s.certSerial ∧ (setQueue s q x).boot = s.boot :=
  let ⟨v0, h⟩ := setQueue_only s q x
  only_queues10 v0 h

@[simp] theorem setQueue_frame11 (s : State) (q : Nat) (x : Queue) :
    (setQueue s q x).tabBad = s.tabBad ∧ (setQueue s q x).aonFailed = s.aonFailed ∧ (setQueue s q x).wdogAt = s.wdogAt ∧
    (setQueue s q x).replicas = s.replicas :=
  let ⟨v0, h⟩ := setQueue_only s q x
  only_queues11 v0 h

theorem setEport_only (s : State) (p : Nat) (x : EPort) :
    ∃ v0, setEport s p x = { s with eports := v0 } :=
  ⟨_, rfl⟩
theorem only_eports1 {s t : State} (v0 : SMap EPort) (h : t = { s with eports := v0 }) :
    t.baseCount = s.baseCount ∧ t.regs = s.regs ∧ t.tabs = s.tabs ∧ t.snaps = s.snaps ∧ t.pending = s.pending ∧
    t.freeCtr = s.freeCtr ∧ t.out = s.out ∧ t.resp = s.resp ∧ t.escal = s.escal := by
  subst h; exact ⟨rfl, rfl, rfl, rfl, rfl, rfl, rfl, rfl, rfl⟩

theorem only_eports2 {s t : State} (v0 : SMap EPort) (h : t = { s with eports := v0 }) :
    t.rdShadow = s.rdShadow ∧ t.wrShadow = s.wrShadow ∧ t.tblCmd = s.tblCmd ∧ t.parBad = s.parBad ∧ t.mode = s.mode ∧
    t.pins = s.pins ∧ t.doms = s.doms ∧ t.holds = s.holds ∧ t.resets = s.resets := by
  subst h; exact ⟨rfl, rfl, rfl, rfl, rfl, rfl, rfl, rfl, rfl⟩

theorem only_eports3 {s t : State} (v0 : SMap EPort) (h : t = { s with eports := v0 }) :
    t.d2d = s.d2d ∧ t.queues = s.queues ∧ t.admitting = s.admitting ∧ t.jobs = s.jobs ∧ t.rxOpen = s.rxOpen ∧
    t.pipes = s.pipes ∧ t.gates = s.gates ∧ t.gran = s.gran ∧ t.page = s.page := by
  subst h; exact ⟨rfl, rfl, rfl, rfl, rfl, rfl, rfl, rfl, rfl⟩

theorem only_eports4 {s t : State} (v0 : SMap EPort) (h : t = { s with eports := v0 }) :
    t.dramBad = s.dramBad ∧ t.cqueues = s.cqueues ∧ t.cust = s.cust ∧ t.dimms = s.dimms ∧ t.nextId = s.nextId ∧
    t.inj = s.inj ∧ t.insp = s.insp ∧ t.foot = s.foot ∧ t.fwTabs = s.fwTabs := by
  subst h; exact ⟨rfl, rfl, rfl, rfl, rfl, rfl, rfl, rfl, rfl⟩

theorem only_eports5 {s t : State} (v0 : SMap EPort) (h : t = { s with eports := v0 }) :
    t.therm = s.therm ∧ t.pcie = s.pcie ∧ t.tbs = s.tbs ∧ t.mtrLast = s.mtrLast ∧ t.mirCnt = s.mirCnt ∧
    t.mirSeq = s.mirSeq ∧ t.lpmStuck = s.lpmStuck ∧ t.caps = s.caps ∧ t.chans = s.chans := by
  subst h; exact ⟨rfl, rfl, rfl, rfl, rfl, rfl, rfl, rfl, rfl⟩

theorem only_eports6 {s t : State} (v0 : SMap EPort) (h : t = { s with eports := v0 }) :
    t.scratch = s.scratch ∧ t.span = s.span ∧ t.tioFifo = s.tioFifo ∧ t.tioLast = s.tioLast ∧ t.sense = s.sense ∧
    t.colls = s.colls ∧ t.modRetry = s.modRetry ∧ t.eqHeld = s.eqHeld ∧ t.modNacks = s.modNacks := by
  subst h; exact ⟨rfl, rfl, rfl, rfl, rfl, rfl, rfl, rfl, rfl⟩

theorem only_eports7 {s t : State} (v0 : SMap EPort) (h : t = { s with eports := v0 }) :
    t.fecWin = s.fecWin ∧ t.eyeLane = s.eyeLane ∧ t.cagePins = s.cagePins ∧ t.xferCmd = s.xferCmd ∧ t.diagCmd = s.diagCmd ∧
    t.mirHeld = s.mirHeld ∧ t.stamps = s.stamps ∧ t.tcPorts = s.tcPorts ∧ t.ptpPorts = s.ptpPorts := by
  subst h; exact ⟨rfl, rfl, rfl, rfl, rfl, rfl, rfl, rfl, rfl⟩

theorem only_eports8 {s t : State} (v0 : SMap EPort) (h : t = { s with eports := v0 }) :
    t.lifts = s.lifts ∧ t.groups = s.groups ∧ t.dispatchAt = s.dispatchAt ∧ t.bscFifo = s.bscFifo ∧ t.stepped = s.stepped ∧
    t.sqs = s.sqs ∧ t.cqs = s.cqs ∧ t.txWait = s.txWait ∧ t.rxWait = s.rxWait := by
  subst h; exact ⟨rfl, rfl, rfl, rfl, rfl, rfl, rfl, rfl, rfl⟩

theorem only_eports9 {s t : State} (v0 : SMap EPort) (h : t = { s with eports := v0 }) :
    t.turns = s.turns ∧ t.lostTx = s.lostTx ∧ t.lastReason = s.lastReason ∧ t.scratchNew = s.scratchNew ∧ t.scratchMem = s.scratchMem ∧
    t.blkImg = s.blkImg ∧ t.svcOp = s.svcOp ∧ t.buckets = s.buckets ∧ t.embHold = s.embHold := by
  subst h; exact ⟨rfl, rfl, rfl, rfl, rfl, rfl, rfl, rfl, rfl⟩

theorem only_eports10 {s t : State} (v0 : SMap EPort) (h : t = { s with eports := v0 }) :
    t.inHand = s.inHand ∧ t.redeliv = s.redeliv ∧ t.svcCfg = s.svcCfg ∧ t.svcObjs = s.svcObjs ∧ t.svcServed = s.svcServed ∧
    t.storeDigest = s.storeDigest ∧ t.logLen = s.logLen ∧ t.certSerial = s.certSerial ∧ t.boot = s.boot := by
  subst h; exact ⟨rfl, rfl, rfl, rfl, rfl, rfl, rfl, rfl, rfl⟩

theorem only_eports11 {s t : State} (v0 : SMap EPort) (h : t = { s with eports := v0 }) :
    t.tabBad = s.tabBad ∧ t.aonFailed = s.aonFailed ∧ t.wdogAt = s.wdogAt ∧ t.replicas = s.replicas := by
  subst h; exact ⟨rfl, rfl, rfl, rfl⟩

@[simp] theorem setEport_frame1 (s : State) (p : Nat) (x : EPort) :
    (setEport s p x).baseCount = s.baseCount ∧ (setEport s p x).regs = s.regs ∧ (setEport s p x).tabs = s.tabs ∧
    (setEport s p x).snaps = s.snaps ∧ (setEport s p x).pending = s.pending ∧ (setEport s p x).freeCtr = s.freeCtr ∧
    (setEport s p x).out = s.out ∧ (setEport s p x).resp = s.resp ∧ (setEport s p x).escal = s.escal :=
  let ⟨v0, h⟩ := setEport_only s p x
  only_eports1 v0 h

@[simp] theorem setEport_frame2 (s : State) (p : Nat) (x : EPort) :
    (setEport s p x).rdShadow = s.rdShadow ∧ (setEport s p x).wrShadow = s.wrShadow ∧ (setEport s p x).tblCmd = s.tblCmd ∧
    (setEport s p x).parBad = s.parBad ∧ (setEport s p x).mode = s.mode ∧ (setEport s p x).pins = s.pins ∧
    (setEport s p x).doms = s.doms ∧ (setEport s p x).holds = s.holds ∧ (setEport s p x).resets = s.resets :=
  let ⟨v0, h⟩ := setEport_only s p x
  only_eports2 v0 h

@[simp] theorem setEport_frame3 (s : State) (p : Nat) (x : EPort) :
    (setEport s p x).d2d = s.d2d ∧ (setEport s p x).queues = s.queues ∧ (setEport s p x).admitting = s.admitting ∧
    (setEport s p x).jobs = s.jobs ∧ (setEport s p x).rxOpen = s.rxOpen ∧ (setEport s p x).pipes = s.pipes ∧
    (setEport s p x).gates = s.gates ∧ (setEport s p x).gran = s.gran ∧ (setEport s p x).page = s.page :=
  let ⟨v0, h⟩ := setEport_only s p x
  only_eports3 v0 h

@[simp] theorem setEport_frame4 (s : State) (p : Nat) (x : EPort) :
    (setEport s p x).dramBad = s.dramBad ∧ (setEport s p x).cqueues = s.cqueues ∧ (setEport s p x).cust = s.cust ∧
    (setEport s p x).dimms = s.dimms ∧ (setEport s p x).nextId = s.nextId ∧ (setEport s p x).inj = s.inj ∧
    (setEport s p x).insp = s.insp ∧ (setEport s p x).foot = s.foot ∧ (setEport s p x).fwTabs = s.fwTabs :=
  let ⟨v0, h⟩ := setEport_only s p x
  only_eports4 v0 h

@[simp] theorem setEport_frame5 (s : State) (p : Nat) (x : EPort) :
    (setEport s p x).therm = s.therm ∧ (setEport s p x).pcie = s.pcie ∧ (setEport s p x).tbs = s.tbs ∧
    (setEport s p x).mtrLast = s.mtrLast ∧ (setEport s p x).mirCnt = s.mirCnt ∧ (setEport s p x).mirSeq = s.mirSeq ∧
    (setEport s p x).lpmStuck = s.lpmStuck ∧ (setEport s p x).caps = s.caps ∧ (setEport s p x).chans = s.chans :=
  let ⟨v0, h⟩ := setEport_only s p x
  only_eports5 v0 h

@[simp] theorem setEport_frame6 (s : State) (p : Nat) (x : EPort) :
    (setEport s p x).scratch = s.scratch ∧ (setEport s p x).span = s.span ∧ (setEport s p x).tioFifo = s.tioFifo ∧
    (setEport s p x).tioLast = s.tioLast ∧ (setEport s p x).sense = s.sense ∧ (setEport s p x).colls = s.colls ∧
    (setEport s p x).modRetry = s.modRetry ∧ (setEport s p x).eqHeld = s.eqHeld ∧ (setEport s p x).modNacks = s.modNacks :=
  let ⟨v0, h⟩ := setEport_only s p x
  only_eports6 v0 h

@[simp] theorem setEport_frame7 (s : State) (p : Nat) (x : EPort) :
    (setEport s p x).fecWin = s.fecWin ∧ (setEport s p x).eyeLane = s.eyeLane ∧ (setEport s p x).cagePins = s.cagePins ∧
    (setEport s p x).xferCmd = s.xferCmd ∧ (setEport s p x).diagCmd = s.diagCmd ∧ (setEport s p x).mirHeld = s.mirHeld ∧
    (setEport s p x).stamps = s.stamps ∧ (setEport s p x).tcPorts = s.tcPorts ∧ (setEport s p x).ptpPorts = s.ptpPorts :=
  let ⟨v0, h⟩ := setEport_only s p x
  only_eports7 v0 h

@[simp] theorem setEport_frame8 (s : State) (p : Nat) (x : EPort) :
    (setEport s p x).lifts = s.lifts ∧ (setEport s p x).groups = s.groups ∧ (setEport s p x).dispatchAt = s.dispatchAt ∧
    (setEport s p x).bscFifo = s.bscFifo ∧ (setEport s p x).stepped = s.stepped ∧ (setEport s p x).sqs = s.sqs ∧
    (setEport s p x).cqs = s.cqs ∧ (setEport s p x).txWait = s.txWait ∧ (setEport s p x).rxWait = s.rxWait :=
  let ⟨v0, h⟩ := setEport_only s p x
  only_eports8 v0 h

@[simp] theorem setEport_frame9 (s : State) (p : Nat) (x : EPort) :
    (setEport s p x).turns = s.turns ∧ (setEport s p x).lostTx = s.lostTx ∧ (setEport s p x).lastReason = s.lastReason ∧
    (setEport s p x).scratchNew = s.scratchNew ∧ (setEport s p x).scratchMem = s.scratchMem ∧ (setEport s p x).blkImg = s.blkImg ∧
    (setEport s p x).svcOp = s.svcOp ∧ (setEport s p x).buckets = s.buckets ∧ (setEport s p x).embHold = s.embHold :=
  let ⟨v0, h⟩ := setEport_only s p x
  only_eports9 v0 h

@[simp] theorem setEport_frame10 (s : State) (p : Nat) (x : EPort) :
    (setEport s p x).inHand = s.inHand ∧ (setEport s p x).redeliv = s.redeliv ∧ (setEport s p x).svcCfg = s.svcCfg ∧
    (setEport s p x).svcObjs = s.svcObjs ∧ (setEport s p x).svcServed = s.svcServed ∧ (setEport s p x).storeDigest = s.storeDigest ∧
    (setEport s p x).logLen = s.logLen ∧ (setEport s p x).certSerial = s.certSerial ∧ (setEport s p x).boot = s.boot :=
  let ⟨v0, h⟩ := setEport_only s p x
  only_eports10 v0 h

@[simp] theorem setEport_frame11 (s : State) (p : Nat) (x : EPort) :
    (setEport s p x).tabBad = s.tabBad ∧ (setEport s p x).aonFailed = s.aonFailed ∧ (setEport s p x).wdogAt = s.wdogAt ∧
    (setEport s p x).replicas = s.replicas :=
  let ⟨v0, h⟩ := setEport_only s p x
  only_eports11 v0 h

theorem setPipe_only (s : State) (k : Nat) (x : Pipe) :
    ∃ v0, setPipe s k x = { s with pipes := v0 } :=
  ⟨_, rfl⟩
theorem only_pipes1 {s t : State} (v0 : SMap Pipe) (h : t = { s with pipes := v0 }) :
    t.baseCount = s.baseCount ∧ t.regs = s.regs ∧ t.tabs = s.tabs ∧ t.snaps = s.snaps ∧ t.pending = s.pending ∧
    t.freeCtr = s.freeCtr ∧ t.out = s.out ∧ t.resp = s.resp ∧ t.escal = s.escal := by
  subst h; exact ⟨rfl, rfl, rfl, rfl, rfl, rfl, rfl, rfl, rfl⟩

theorem only_pipes2 {s t : State} (v0 : SMap Pipe) (h : t = { s with pipes := v0 }) :
    t.rdShadow = s.rdShadow ∧ t.wrShadow = s.wrShadow ∧ t.tblCmd = s.tblCmd ∧ t.parBad = s.parBad ∧ t.mode = s.mode ∧
    t.pins = s.pins ∧ t.doms = s.doms ∧ t.holds = s.holds ∧ t.resets = s.resets := by
  subst h; exact ⟨rfl, rfl, rfl, rfl, rfl, rfl, rfl, rfl, rfl⟩

theorem only_pipes3 {s t : State} (v0 : SMap Pipe) (h : t = { s with pipes := v0 }) :
    t.d2d = s.d2d ∧ t.queues = s.queues ∧ t.eports = s.eports ∧ t.admitting = s.admitting ∧ t.jobs = s.jobs ∧
    t.rxOpen = s.rxOpen ∧ t.gates = s.gates ∧ t.gran = s.gran ∧ t.page = s.page := by
  subst h; exact ⟨rfl, rfl, rfl, rfl, rfl, rfl, rfl, rfl, rfl⟩

theorem only_pipes4 {s t : State} (v0 : SMap Pipe) (h : t = { s with pipes := v0 }) :
    t.dramBad = s.dramBad ∧ t.cqueues = s.cqueues ∧ t.cust = s.cust ∧ t.dimms = s.dimms ∧ t.nextId = s.nextId ∧
    t.inj = s.inj ∧ t.insp = s.insp ∧ t.foot = s.foot ∧ t.fwTabs = s.fwTabs := by
  subst h; exact ⟨rfl, rfl, rfl, rfl, rfl, rfl, rfl, rfl, rfl⟩

theorem only_pipes5 {s t : State} (v0 : SMap Pipe) (h : t = { s with pipes := v0 }) :
    t.therm = s.therm ∧ t.pcie = s.pcie ∧ t.tbs = s.tbs ∧ t.mtrLast = s.mtrLast ∧ t.mirCnt = s.mirCnt ∧
    t.mirSeq = s.mirSeq ∧ t.lpmStuck = s.lpmStuck ∧ t.caps = s.caps ∧ t.chans = s.chans := by
  subst h; exact ⟨rfl, rfl, rfl, rfl, rfl, rfl, rfl, rfl, rfl⟩

theorem only_pipes6 {s t : State} (v0 : SMap Pipe) (h : t = { s with pipes := v0 }) :
    t.scratch = s.scratch ∧ t.span = s.span ∧ t.tioFifo = s.tioFifo ∧ t.tioLast = s.tioLast ∧ t.sense = s.sense ∧
    t.colls = s.colls ∧ t.modRetry = s.modRetry ∧ t.eqHeld = s.eqHeld ∧ t.modNacks = s.modNacks := by
  subst h; exact ⟨rfl, rfl, rfl, rfl, rfl, rfl, rfl, rfl, rfl⟩

theorem only_pipes7 {s t : State} (v0 : SMap Pipe) (h : t = { s with pipes := v0 }) :
    t.fecWin = s.fecWin ∧ t.eyeLane = s.eyeLane ∧ t.cagePins = s.cagePins ∧ t.xferCmd = s.xferCmd ∧ t.diagCmd = s.diagCmd ∧
    t.mirHeld = s.mirHeld ∧ t.stamps = s.stamps ∧ t.tcPorts = s.tcPorts ∧ t.ptpPorts = s.ptpPorts := by
  subst h; exact ⟨rfl, rfl, rfl, rfl, rfl, rfl, rfl, rfl, rfl⟩

theorem only_pipes8 {s t : State} (v0 : SMap Pipe) (h : t = { s with pipes := v0 }) :
    t.lifts = s.lifts ∧ t.groups = s.groups ∧ t.dispatchAt = s.dispatchAt ∧ t.bscFifo = s.bscFifo ∧ t.stepped = s.stepped ∧
    t.sqs = s.sqs ∧ t.cqs = s.cqs ∧ t.txWait = s.txWait ∧ t.rxWait = s.rxWait := by
  subst h; exact ⟨rfl, rfl, rfl, rfl, rfl, rfl, rfl, rfl, rfl⟩

theorem only_pipes9 {s t : State} (v0 : SMap Pipe) (h : t = { s with pipes := v0 }) :
    t.turns = s.turns ∧ t.lostTx = s.lostTx ∧ t.lastReason = s.lastReason ∧ t.scratchNew = s.scratchNew ∧ t.scratchMem = s.scratchMem ∧
    t.blkImg = s.blkImg ∧ t.svcOp = s.svcOp ∧ t.buckets = s.buckets ∧ t.embHold = s.embHold := by
  subst h; exact ⟨rfl, rfl, rfl, rfl, rfl, rfl, rfl, rfl, rfl⟩

theorem only_pipes10 {s t : State} (v0 : SMap Pipe) (h : t = { s with pipes := v0 }) :
    t.inHand = s.inHand ∧ t.redeliv = s.redeliv ∧ t.svcCfg = s.svcCfg ∧ t.svcObjs = s.svcObjs ∧ t.svcServed = s.svcServed ∧
    t.storeDigest = s.storeDigest ∧ t.logLen = s.logLen ∧ t.certSerial = s.certSerial ∧ t.boot = s.boot := by
  subst h; exact ⟨rfl, rfl, rfl, rfl, rfl, rfl, rfl, rfl, rfl⟩

theorem only_pipes11 {s t : State} (v0 : SMap Pipe) (h : t = { s with pipes := v0 }) :
    t.tabBad = s.tabBad ∧ t.aonFailed = s.aonFailed ∧ t.wdogAt = s.wdogAt ∧ t.replicas = s.replicas := by
  subst h; exact ⟨rfl, rfl, rfl, rfl⟩

@[simp] theorem setPipe_frame1 (s : State) (k : Nat) (x : Pipe) :
    (setPipe s k x).baseCount = s.baseCount ∧ (setPipe s k x).regs = s.regs ∧ (setPipe s k x).tabs = s.tabs ∧
    (setPipe s k x).snaps = s.snaps ∧ (setPipe s k x).pending = s.pending ∧ (setPipe s k x).freeCtr = s.freeCtr ∧
    (setPipe s k x).out = s.out ∧ (setPipe s k x).resp = s.resp ∧ (setPipe s k x).escal = s.escal :=
  let ⟨v0, h⟩ := setPipe_only s k x
  only_pipes1 v0 h

@[simp] theorem setPipe_frame2 (s : State) (k : Nat) (x : Pipe) :
    (setPipe s k x).rdShadow = s.rdShadow ∧ (setPipe s k x).wrShadow = s.wrShadow ∧ (setPipe s k x).tblCmd = s.tblCmd ∧
    (setPipe s k x).parBad = s.parBad ∧ (setPipe s k x).mode = s.mode ∧ (setPipe s k x).pins = s.pins ∧
    (setPipe s k x).doms = s.doms ∧ (setPipe s k x).holds = s.holds ∧ (setPipe s k x).resets = s.resets :=
  let ⟨v0, h⟩ := setPipe_only s k x
  only_pipes2 v0 h

@[simp] theorem setPipe_frame3 (s : State) (k : Nat) (x : Pipe) :
    (setPipe s k x).d2d = s.d2d ∧ (setPipe s k x).queues = s.queues ∧ (setPipe s k x).eports = s.eports ∧
    (setPipe s k x).admitting = s.admitting ∧ (setPipe s k x).jobs = s.jobs ∧ (setPipe s k x).rxOpen = s.rxOpen ∧
    (setPipe s k x).gates = s.gates ∧ (setPipe s k x).gran = s.gran ∧ (setPipe s k x).page = s.page :=
  let ⟨v0, h⟩ := setPipe_only s k x
  only_pipes3 v0 h

@[simp] theorem setPipe_frame4 (s : State) (k : Nat) (x : Pipe) :
    (setPipe s k x).dramBad = s.dramBad ∧ (setPipe s k x).cqueues = s.cqueues ∧ (setPipe s k x).cust = s.cust ∧
    (setPipe s k x).dimms = s.dimms ∧ (setPipe s k x).nextId = s.nextId ∧ (setPipe s k x).inj = s.inj ∧
    (setPipe s k x).insp = s.insp ∧ (setPipe s k x).foot = s.foot ∧ (setPipe s k x).fwTabs = s.fwTabs :=
  let ⟨v0, h⟩ := setPipe_only s k x
  only_pipes4 v0 h

@[simp] theorem setPipe_frame5 (s : State) (k : Nat) (x : Pipe) :
    (setPipe s k x).therm = s.therm ∧ (setPipe s k x).pcie = s.pcie ∧ (setPipe s k x).tbs = s.tbs ∧
    (setPipe s k x).mtrLast = s.mtrLast ∧ (setPipe s k x).mirCnt = s.mirCnt ∧ (setPipe s k x).mirSeq = s.mirSeq ∧
    (setPipe s k x).lpmStuck = s.lpmStuck ∧ (setPipe s k x).caps = s.caps ∧ (setPipe s k x).chans = s.chans :=
  let ⟨v0, h⟩ := setPipe_only s k x
  only_pipes5 v0 h

@[simp] theorem setPipe_frame6 (s : State) (k : Nat) (x : Pipe) :
    (setPipe s k x).scratch = s.scratch ∧ (setPipe s k x).span = s.span ∧ (setPipe s k x).tioFifo = s.tioFifo ∧
    (setPipe s k x).tioLast = s.tioLast ∧ (setPipe s k x).sense = s.sense ∧ (setPipe s k x).colls = s.colls ∧
    (setPipe s k x).modRetry = s.modRetry ∧ (setPipe s k x).eqHeld = s.eqHeld ∧ (setPipe s k x).modNacks = s.modNacks :=
  let ⟨v0, h⟩ := setPipe_only s k x
  only_pipes6 v0 h

@[simp] theorem setPipe_frame7 (s : State) (k : Nat) (x : Pipe) :
    (setPipe s k x).fecWin = s.fecWin ∧ (setPipe s k x).eyeLane = s.eyeLane ∧ (setPipe s k x).cagePins = s.cagePins ∧
    (setPipe s k x).xferCmd = s.xferCmd ∧ (setPipe s k x).diagCmd = s.diagCmd ∧ (setPipe s k x).mirHeld = s.mirHeld ∧
    (setPipe s k x).stamps = s.stamps ∧ (setPipe s k x).tcPorts = s.tcPorts ∧ (setPipe s k x).ptpPorts = s.ptpPorts :=
  let ⟨v0, h⟩ := setPipe_only s k x
  only_pipes7 v0 h

@[simp] theorem setPipe_frame8 (s : State) (k : Nat) (x : Pipe) :
    (setPipe s k x).lifts = s.lifts ∧ (setPipe s k x).groups = s.groups ∧ (setPipe s k x).dispatchAt = s.dispatchAt ∧
    (setPipe s k x).bscFifo = s.bscFifo ∧ (setPipe s k x).stepped = s.stepped ∧ (setPipe s k x).sqs = s.sqs ∧
    (setPipe s k x).cqs = s.cqs ∧ (setPipe s k x).txWait = s.txWait ∧ (setPipe s k x).rxWait = s.rxWait :=
  let ⟨v0, h⟩ := setPipe_only s k x
  only_pipes8 v0 h

@[simp] theorem setPipe_frame9 (s : State) (k : Nat) (x : Pipe) :
    (setPipe s k x).turns = s.turns ∧ (setPipe s k x).lostTx = s.lostTx ∧ (setPipe s k x).lastReason = s.lastReason ∧
    (setPipe s k x).scratchNew = s.scratchNew ∧ (setPipe s k x).scratchMem = s.scratchMem ∧ (setPipe s k x).blkImg = s.blkImg ∧
    (setPipe s k x).svcOp = s.svcOp ∧ (setPipe s k x).buckets = s.buckets ∧ (setPipe s k x).embHold = s.embHold :=
  let ⟨v0, h⟩ := setPipe_only s k x
  only_pipes9 v0 h

@[simp] theorem setPipe_frame10 (s : State) (k : Nat) (x : Pipe) :
    (setPipe s k x).inHand = s.inHand ∧ (setPipe s k x).redeliv = s.redeliv ∧ (setPipe s k x).svcCfg = s.svcCfg ∧
    (setPipe s k x).svcObjs = s.svcObjs ∧ (setPipe s k x).svcServed = s.svcServed ∧ (setPipe s k x).storeDigest = s.storeDigest ∧
    (setPipe s k x).logLen = s.logLen ∧ (setPipe s k x).certSerial = s.certSerial ∧ (setPipe s k x).boot = s.boot :=
  let ⟨v0, h⟩ := setPipe_only s k x
  only_pipes10 v0 h

@[simp] theorem setPipe_frame11 (s : State) (k : Nat) (x : Pipe) :
    (setPipe s k x).tabBad = s.tabBad ∧ (setPipe s k x).aonFailed = s.aonFailed ∧ (setPipe s k x).wdogAt = s.wdogAt ∧
    (setPipe s k x).replicas = s.replicas :=
  let ⟨v0, h⟩ := setPipe_only s k x
  only_pipes11 v0 h

theorem setCq_only (s : State) (q : Nat) (x : CQueue) :
    ∃ v0, setCq s q x = { s with cqueues := v0 } :=
  ⟨_, rfl⟩
theorem only_cqueues1 {s t : State} (v0 : SMap CQueue) (h : t = { s with cqueues := v0 }) :
    t.baseCount = s.baseCount ∧ t.regs = s.regs ∧ t.tabs = s.tabs ∧ t.snaps = s.snaps ∧ t.pending = s.pending ∧
    t.freeCtr = s.freeCtr ∧ t.out = s.out ∧ t.resp = s.resp ∧ t.escal = s.escal := by
  subst h; exact ⟨rfl, rfl, rfl, rfl, rfl, rfl, rfl, rfl, rfl⟩

theorem only_cqueues2 {s t : State} (v0 : SMap CQueue) (h : t = { s with cqueues := v0 }) :
    t.rdShadow = s.rdShadow ∧ t.wrShadow = s.wrShadow ∧ t.tblCmd = s.tblCmd ∧ t.parBad = s.parBad ∧ t.mode = s.mode ∧
    t.pins = s.pins ∧ t.doms = s.doms ∧ t.holds = s.holds ∧ t.resets = s.resets := by
  subst h; exact ⟨rfl, rfl, rfl, rfl, rfl, rfl, rfl, rfl, rfl⟩

theorem only_cqueues3 {s t : State} (v0 : SMap CQueue) (h : t = { s with cqueues := v0 }) :
    t.d2d = s.d2d ∧ t.queues = s.queues ∧ t.eports = s.eports ∧ t.admitting = s.admitting ∧ t.jobs = s.jobs ∧
    t.rxOpen = s.rxOpen ∧ t.pipes = s.pipes ∧ t.gates = s.gates ∧ t.gran = s.gran := by
  subst h; exact ⟨rfl, rfl, rfl, rfl, rfl, rfl, rfl, rfl, rfl⟩

theorem only_cqueues4 {s t : State} (v0 : SMap CQueue) (h : t = { s with cqueues := v0 }) :
    t.page = s.page ∧ t.dramBad = s.dramBad ∧ t.cust = s.cust ∧ t.dimms = s.dimms ∧ t.nextId = s.nextId ∧
    t.inj = s.inj ∧ t.insp = s.insp ∧ t.foot = s.foot ∧ t.fwTabs = s.fwTabs := by
  subst h; exact ⟨rfl, rfl, rfl, rfl, rfl, rfl, rfl, rfl, rfl⟩

theorem only_cqueues5 {s t : State} (v0 : SMap CQueue) (h : t = { s with cqueues := v0 }) :
    t.therm = s.therm ∧ t.pcie = s.pcie ∧ t.tbs = s.tbs ∧ t.mtrLast = s.mtrLast ∧ t.mirCnt = s.mirCnt ∧
    t.mirSeq = s.mirSeq ∧ t.lpmStuck = s.lpmStuck ∧ t.caps = s.caps ∧ t.chans = s.chans := by
  subst h; exact ⟨rfl, rfl, rfl, rfl, rfl, rfl, rfl, rfl, rfl⟩

theorem only_cqueues6 {s t : State} (v0 : SMap CQueue) (h : t = { s with cqueues := v0 }) :
    t.scratch = s.scratch ∧ t.span = s.span ∧ t.tioFifo = s.tioFifo ∧ t.tioLast = s.tioLast ∧ t.sense = s.sense ∧
    t.colls = s.colls ∧ t.modRetry = s.modRetry ∧ t.eqHeld = s.eqHeld ∧ t.modNacks = s.modNacks := by
  subst h; exact ⟨rfl, rfl, rfl, rfl, rfl, rfl, rfl, rfl, rfl⟩

theorem only_cqueues7 {s t : State} (v0 : SMap CQueue) (h : t = { s with cqueues := v0 }) :
    t.fecWin = s.fecWin ∧ t.eyeLane = s.eyeLane ∧ t.cagePins = s.cagePins ∧ t.xferCmd = s.xferCmd ∧ t.diagCmd = s.diagCmd ∧
    t.mirHeld = s.mirHeld ∧ t.stamps = s.stamps ∧ t.tcPorts = s.tcPorts ∧ t.ptpPorts = s.ptpPorts := by
  subst h; exact ⟨rfl, rfl, rfl, rfl, rfl, rfl, rfl, rfl, rfl⟩

theorem only_cqueues8 {s t : State} (v0 : SMap CQueue) (h : t = { s with cqueues := v0 }) :
    t.lifts = s.lifts ∧ t.groups = s.groups ∧ t.dispatchAt = s.dispatchAt ∧ t.bscFifo = s.bscFifo ∧ t.stepped = s.stepped ∧
    t.sqs = s.sqs ∧ t.cqs = s.cqs ∧ t.txWait = s.txWait ∧ t.rxWait = s.rxWait := by
  subst h; exact ⟨rfl, rfl, rfl, rfl, rfl, rfl, rfl, rfl, rfl⟩

theorem only_cqueues9 {s t : State} (v0 : SMap CQueue) (h : t = { s with cqueues := v0 }) :
    t.turns = s.turns ∧ t.lostTx = s.lostTx ∧ t.lastReason = s.lastReason ∧ t.scratchNew = s.scratchNew ∧ t.scratchMem = s.scratchMem ∧
    t.blkImg = s.blkImg ∧ t.svcOp = s.svcOp ∧ t.buckets = s.buckets ∧ t.embHold = s.embHold := by
  subst h; exact ⟨rfl, rfl, rfl, rfl, rfl, rfl, rfl, rfl, rfl⟩

theorem only_cqueues10 {s t : State} (v0 : SMap CQueue) (h : t = { s with cqueues := v0 }) :
    t.inHand = s.inHand ∧ t.redeliv = s.redeliv ∧ t.svcCfg = s.svcCfg ∧ t.svcObjs = s.svcObjs ∧ t.svcServed = s.svcServed ∧
    t.storeDigest = s.storeDigest ∧ t.logLen = s.logLen ∧ t.certSerial = s.certSerial ∧ t.boot = s.boot := by
  subst h; exact ⟨rfl, rfl, rfl, rfl, rfl, rfl, rfl, rfl, rfl⟩

theorem only_cqueues11 {s t : State} (v0 : SMap CQueue) (h : t = { s with cqueues := v0 }) :
    t.tabBad = s.tabBad ∧ t.aonFailed = s.aonFailed ∧ t.wdogAt = s.wdogAt ∧ t.replicas = s.replicas := by
  subst h; exact ⟨rfl, rfl, rfl, rfl⟩

@[simp] theorem setCq_frame1 (s : State) (q : Nat) (x : CQueue) :
    (setCq s q x).baseCount = s.baseCount ∧ (setCq s q x).regs = s.regs ∧ (setCq s q x).tabs = s.tabs ∧
    (setCq s q x).snaps = s.snaps ∧ (setCq s q x).pending = s.pending ∧ (setCq s q x).freeCtr = s.freeCtr ∧
    (setCq s q x).out = s.out ∧ (setCq s q x).resp = s.resp ∧ (setCq s q x).escal = s.escal :=
  let ⟨v0, h⟩ := setCq_only s q x
  only_cqueues1 v0 h

@[simp] theorem setCq_frame2 (s : State) (q : Nat) (x : CQueue) :
    (setCq s q x).rdShadow = s.rdShadow ∧ (setCq s q x).wrShadow = s.wrShadow ∧ (setCq s q x).tblCmd = s.tblCmd ∧
    (setCq s q x).parBad = s.parBad ∧ (setCq s q x).mode = s.mode ∧ (setCq s q x).pins = s.pins ∧
    (setCq s q x).doms = s.doms ∧ (setCq s q x).holds = s.holds ∧ (setCq s q x).resets = s.resets :=
  let ⟨v0, h⟩ := setCq_only s q x
  only_cqueues2 v0 h

@[simp] theorem setCq_frame3 (s : State) (q : Nat) (x : CQueue) :
    (setCq s q x).d2d = s.d2d ∧ (setCq s q x).queues = s.queues ∧ (setCq s q x).eports = s.eports ∧
    (setCq s q x).admitting = s.admitting ∧ (setCq s q x).jobs = s.jobs ∧ (setCq s q x).rxOpen = s.rxOpen ∧
    (setCq s q x).pipes = s.pipes ∧ (setCq s q x).gates = s.gates ∧ (setCq s q x).gran = s.gran :=
  let ⟨v0, h⟩ := setCq_only s q x
  only_cqueues3 v0 h

@[simp] theorem setCq_frame4 (s : State) (q : Nat) (x : CQueue) :
    (setCq s q x).page = s.page ∧ (setCq s q x).dramBad = s.dramBad ∧ (setCq s q x).cust = s.cust ∧
    (setCq s q x).dimms = s.dimms ∧ (setCq s q x).nextId = s.nextId ∧ (setCq s q x).inj = s.inj ∧
    (setCq s q x).insp = s.insp ∧ (setCq s q x).foot = s.foot ∧ (setCq s q x).fwTabs = s.fwTabs :=
  let ⟨v0, h⟩ := setCq_only s q x
  only_cqueues4 v0 h

@[simp] theorem setCq_frame5 (s : State) (q : Nat) (x : CQueue) :
    (setCq s q x).therm = s.therm ∧ (setCq s q x).pcie = s.pcie ∧ (setCq s q x).tbs = s.tbs ∧
    (setCq s q x).mtrLast = s.mtrLast ∧ (setCq s q x).mirCnt = s.mirCnt ∧ (setCq s q x).mirSeq = s.mirSeq ∧
    (setCq s q x).lpmStuck = s.lpmStuck ∧ (setCq s q x).caps = s.caps ∧ (setCq s q x).chans = s.chans :=
  let ⟨v0, h⟩ := setCq_only s q x
  only_cqueues5 v0 h

@[simp] theorem setCq_frame6 (s : State) (q : Nat) (x : CQueue) :
    (setCq s q x).scratch = s.scratch ∧ (setCq s q x).span = s.span ∧ (setCq s q x).tioFifo = s.tioFifo ∧
    (setCq s q x).tioLast = s.tioLast ∧ (setCq s q x).sense = s.sense ∧ (setCq s q x).colls = s.colls ∧
    (setCq s q x).modRetry = s.modRetry ∧ (setCq s q x).eqHeld = s.eqHeld ∧ (setCq s q x).modNacks = s.modNacks :=
  let ⟨v0, h⟩ := setCq_only s q x
  only_cqueues6 v0 h

@[simp] theorem setCq_frame7 (s : State) (q : Nat) (x : CQueue) :
    (setCq s q x).fecWin = s.fecWin ∧ (setCq s q x).eyeLane = s.eyeLane ∧ (setCq s q x).cagePins = s.cagePins ∧
    (setCq s q x).xferCmd = s.xferCmd ∧ (setCq s q x).diagCmd = s.diagCmd ∧ (setCq s q x).mirHeld = s.mirHeld ∧
    (setCq s q x).stamps = s.stamps ∧ (setCq s q x).tcPorts = s.tcPorts ∧ (setCq s q x).ptpPorts = s.ptpPorts :=
  let ⟨v0, h⟩ := setCq_only s q x
  only_cqueues7 v0 h

@[simp] theorem setCq_frame8 (s : State) (q : Nat) (x : CQueue) :
    (setCq s q x).lifts = s.lifts ∧ (setCq s q x).groups = s.groups ∧ (setCq s q x).dispatchAt = s.dispatchAt ∧
    (setCq s q x).bscFifo = s.bscFifo ∧ (setCq s q x).stepped = s.stepped ∧ (setCq s q x).sqs = s.sqs ∧
    (setCq s q x).cqs = s.cqs ∧ (setCq s q x).txWait = s.txWait ∧ (setCq s q x).rxWait = s.rxWait :=
  let ⟨v0, h⟩ := setCq_only s q x
  only_cqueues8 v0 h

@[simp] theorem setCq_frame9 (s : State) (q : Nat) (x : CQueue) :
    (setCq s q x).turns = s.turns ∧ (setCq s q x).lostTx = s.lostTx ∧ (setCq s q x).lastReason = s.lastReason ∧
    (setCq s q x).scratchNew = s.scratchNew ∧ (setCq s q x).scratchMem = s.scratchMem ∧ (setCq s q x).blkImg = s.blkImg ∧
    (setCq s q x).svcOp = s.svcOp ∧ (setCq s q x).buckets = s.buckets ∧ (setCq s q x).embHold = s.embHold :=
  let ⟨v0, h⟩ := setCq_only s q x
  only_cqueues9 v0 h

@[simp] theorem setCq_frame10 (s : State) (q : Nat) (x : CQueue) :
    (setCq s q x).inHand = s.inHand ∧ (setCq s q x).redeliv = s.redeliv ∧ (setCq s q x).svcCfg = s.svcCfg ∧
    (setCq s q x).svcObjs = s.svcObjs ∧ (setCq s q x).svcServed = s.svcServed ∧ (setCq s q x).storeDigest = s.storeDigest ∧
    (setCq s q x).logLen = s.logLen ∧ (setCq s q x).certSerial = s.certSerial ∧ (setCq s q x).boot = s.boot :=
  let ⟨v0, h⟩ := setCq_only s q x
  only_cqueues10 v0 h

@[simp] theorem setCq_frame11 (s : State) (q : Nat) (x : CQueue) :
    (setCq s q x).tabBad = s.tabBad ∧ (setCq s q x).aonFailed = s.aonFailed ∧ (setCq s q x).wdogAt = s.wdogAt ∧
    (setCq s q x).replicas = s.replicas :=
  let ⟨v0, h⟩ := setCq_only s q x
  only_cqueues11 v0 h

theorem setTb_only (s : State) (k : Nat) (x : TimeBase) :
    ∃ v0, setTb s k x = { s with tbs := v0 } :=
  ⟨_, rfl⟩
theorem only_tbs1 {s t : State} (v0 : SMap TimeBase) (h : t = { s with tbs := v0 }) :
    t.baseCount = s.baseCount ∧ t.regs = s.regs ∧ t.tabs = s.tabs ∧ t.snaps = s.snaps ∧ t.pending = s.pending ∧
    t.freeCtr = s.freeCtr ∧ t.out = s.out ∧ t.resp = s.resp ∧ t.escal = s.escal := by
  subst h; exact ⟨rfl, rfl, rfl, rfl, rfl, rfl, rfl, rfl, rfl⟩

theorem only_tbs2 {s t : State} (v0 : SMap TimeBase) (h : t = { s with tbs := v0 }) :
    t.rdShadow = s.rdShadow ∧ t.wrShadow = s.wrShadow ∧ t.tblCmd = s.tblCmd ∧ t.parBad = s.parBad ∧ t.mode = s.mode ∧
    t.pins = s.pins ∧ t.doms = s.doms ∧ t.holds = s.holds ∧ t.resets = s.resets := by
  subst h; exact ⟨rfl, rfl, rfl, rfl, rfl, rfl, rfl, rfl, rfl⟩

theorem only_tbs3 {s t : State} (v0 : SMap TimeBase) (h : t = { s with tbs := v0 }) :
    t.d2d = s.d2d ∧ t.queues = s.queues ∧ t.eports = s.eports ∧ t.admitting = s.admitting ∧ t.jobs = s.jobs ∧
    t.rxOpen = s.rxOpen ∧ t.pipes = s.pipes ∧ t.gates = s.gates ∧ t.gran = s.gran := by
  subst h; exact ⟨rfl, rfl, rfl, rfl, rfl, rfl, rfl, rfl, rfl⟩

theorem only_tbs4 {s t : State} (v0 : SMap TimeBase) (h : t = { s with tbs := v0 }) :
    t.page = s.page ∧ t.dramBad = s.dramBad ∧ t.cqueues = s.cqueues ∧ t.cust = s.cust ∧ t.dimms = s.dimms ∧
    t.nextId = s.nextId ∧ t.inj = s.inj ∧ t.insp = s.insp ∧ t.foot = s.foot := by
  subst h; exact ⟨rfl, rfl, rfl, rfl, rfl, rfl, rfl, rfl, rfl⟩

theorem only_tbs5 {s t : State} (v0 : SMap TimeBase) (h : t = { s with tbs := v0 }) :
    t.fwTabs = s.fwTabs ∧ t.therm = s.therm ∧ t.pcie = s.pcie ∧ t.mtrLast = s.mtrLast ∧ t.mirCnt = s.mirCnt ∧
    t.mirSeq = s.mirSeq ∧ t.lpmStuck = s.lpmStuck ∧ t.caps = s.caps ∧ t.chans = s.chans := by
  subst h; exact ⟨rfl, rfl, rfl, rfl, rfl, rfl, rfl, rfl, rfl⟩

theorem only_tbs6 {s t : State} (v0 : SMap TimeBase) (h : t = { s with tbs := v0 }) :
    t.scratch = s.scratch ∧ t.span = s.span ∧ t.tioFifo = s.tioFifo ∧ t.tioLast = s.tioLast ∧ t.sense = s.sense ∧
    t.colls = s.colls ∧ t.modRetry = s.modRetry ∧ t.eqHeld = s.eqHeld ∧ t.modNacks = s.modNacks := by
  subst h; exact ⟨rfl, rfl, rfl, rfl, rfl, rfl, rfl, rfl, rfl⟩

theorem only_tbs7 {s t : State} (v0 : SMap TimeBase) (h : t = { s with tbs := v0 }) :
    t.fecWin = s.fecWin ∧ t.eyeLane = s.eyeLane ∧ t.cagePins = s.cagePins ∧ t.xferCmd = s.xferCmd ∧ t.diagCmd = s.diagCmd ∧
    t.mirHeld = s.mirHeld ∧ t.stamps = s.stamps ∧ t.tcPorts = s.tcPorts ∧ t.ptpPorts = s.ptpPorts := by
  subst h; exact ⟨rfl, rfl, rfl, rfl, rfl, rfl, rfl, rfl, rfl⟩

theorem only_tbs8 {s t : State} (v0 : SMap TimeBase) (h : t = { s with tbs := v0 }) :
    t.lifts = s.lifts ∧ t.groups = s.groups ∧ t.dispatchAt = s.dispatchAt ∧ t.bscFifo = s.bscFifo ∧ t.stepped = s.stepped ∧
    t.sqs = s.sqs ∧ t.cqs = s.cqs ∧ t.txWait = s.txWait ∧ t.rxWait = s.rxWait := by
  subst h; exact ⟨rfl, rfl, rfl, rfl, rfl, rfl, rfl, rfl, rfl⟩

theorem only_tbs9 {s t : State} (v0 : SMap TimeBase) (h : t = { s with tbs := v0 }) :
    t.turns = s.turns ∧ t.lostTx = s.lostTx ∧ t.lastReason = s.lastReason ∧ t.scratchNew = s.scratchNew ∧ t.scratchMem = s.scratchMem ∧
    t.blkImg = s.blkImg ∧ t.svcOp = s.svcOp ∧ t.buckets = s.buckets ∧ t.embHold = s.embHold := by
  subst h; exact ⟨rfl, rfl, rfl, rfl, rfl, rfl, rfl, rfl, rfl⟩

theorem only_tbs10 {s t : State} (v0 : SMap TimeBase) (h : t = { s with tbs := v0 }) :
    t.inHand = s.inHand ∧ t.redeliv = s.redeliv ∧ t.svcCfg = s.svcCfg ∧ t.svcObjs = s.svcObjs ∧ t.svcServed = s.svcServed ∧
    t.storeDigest = s.storeDigest ∧ t.logLen = s.logLen ∧ t.certSerial = s.certSerial ∧ t.boot = s.boot := by
  subst h; exact ⟨rfl, rfl, rfl, rfl, rfl, rfl, rfl, rfl, rfl⟩

theorem only_tbs11 {s t : State} (v0 : SMap TimeBase) (h : t = { s with tbs := v0 }) :
    t.tabBad = s.tabBad ∧ t.aonFailed = s.aonFailed ∧ t.wdogAt = s.wdogAt ∧ t.replicas = s.replicas := by
  subst h; exact ⟨rfl, rfl, rfl, rfl⟩

@[simp] theorem setTb_frame1 (s : State) (k : Nat) (x : TimeBase) :
    (setTb s k x).baseCount = s.baseCount ∧ (setTb s k x).regs = s.regs ∧ (setTb s k x).tabs = s.tabs ∧
    (setTb s k x).snaps = s.snaps ∧ (setTb s k x).pending = s.pending ∧ (setTb s k x).freeCtr = s.freeCtr ∧
    (setTb s k x).out = s.out ∧ (setTb s k x).resp = s.resp ∧ (setTb s k x).escal = s.escal :=
  let ⟨v0, h⟩ := setTb_only s k x
  only_tbs1 v0 h

@[simp] theorem setTb_frame2 (s : State) (k : Nat) (x : TimeBase) :
    (setTb s k x).rdShadow = s.rdShadow ∧ (setTb s k x).wrShadow = s.wrShadow ∧ (setTb s k x).tblCmd = s.tblCmd ∧
    (setTb s k x).parBad = s.parBad ∧ (setTb s k x).mode = s.mode ∧ (setTb s k x).pins = s.pins ∧
    (setTb s k x).doms = s.doms ∧ (setTb s k x).holds = s.holds ∧ (setTb s k x).resets = s.resets :=
  let ⟨v0, h⟩ := setTb_only s k x
  only_tbs2 v0 h

@[simp] theorem setTb_frame3 (s : State) (k : Nat) (x : TimeBase) :
    (setTb s k x).d2d = s.d2d ∧ (setTb s k x).queues = s.queues ∧ (setTb s k x).eports = s.eports ∧
    (setTb s k x).admitting = s.admitting ∧ (setTb s k x).jobs = s.jobs ∧ (setTb s k x).rxOpen = s.rxOpen ∧
    (setTb s k x).pipes = s.pipes ∧ (setTb s k x).gates = s.gates ∧ (setTb s k x).gran = s.gran :=
  let ⟨v0, h⟩ := setTb_only s k x
  only_tbs3 v0 h

@[simp] theorem setTb_frame4 (s : State) (k : Nat) (x : TimeBase) :
    (setTb s k x).page = s.page ∧ (setTb s k x).dramBad = s.dramBad ∧ (setTb s k x).cqueues = s.cqueues ∧
    (setTb s k x).cust = s.cust ∧ (setTb s k x).dimms = s.dimms ∧ (setTb s k x).nextId = s.nextId ∧
    (setTb s k x).inj = s.inj ∧ (setTb s k x).insp = s.insp ∧ (setTb s k x).foot = s.foot :=
  let ⟨v0, h⟩ := setTb_only s k x
  only_tbs4 v0 h

@[simp] theorem setTb_frame5 (s : State) (k : Nat) (x : TimeBase) :
    (setTb s k x).fwTabs = s.fwTabs ∧ (setTb s k x).therm = s.therm ∧ (setTb s k x).pcie = s.pcie ∧
    (setTb s k x).mtrLast = s.mtrLast ∧ (setTb s k x).mirCnt = s.mirCnt ∧ (setTb s k x).mirSeq = s.mirSeq ∧
    (setTb s k x).lpmStuck = s.lpmStuck ∧ (setTb s k x).caps = s.caps ∧ (setTb s k x).chans = s.chans :=
  let ⟨v0, h⟩ := setTb_only s k x
  only_tbs5 v0 h

@[simp] theorem setTb_frame6 (s : State) (k : Nat) (x : TimeBase) :
    (setTb s k x).scratch = s.scratch ∧ (setTb s k x).span = s.span ∧ (setTb s k x).tioFifo = s.tioFifo ∧
    (setTb s k x).tioLast = s.tioLast ∧ (setTb s k x).sense = s.sense ∧ (setTb s k x).colls = s.colls ∧
    (setTb s k x).modRetry = s.modRetry ∧ (setTb s k x).eqHeld = s.eqHeld ∧ (setTb s k x).modNacks = s.modNacks :=
  let ⟨v0, h⟩ := setTb_only s k x
  only_tbs6 v0 h

@[simp] theorem setTb_frame7 (s : State) (k : Nat) (x : TimeBase) :
    (setTb s k x).fecWin = s.fecWin ∧ (setTb s k x).eyeLane = s.eyeLane ∧ (setTb s k x).cagePins = s.cagePins ∧
    (setTb s k x).xferCmd = s.xferCmd ∧ (setTb s k x).diagCmd = s.diagCmd ∧ (setTb s k x).mirHeld = s.mirHeld ∧
    (setTb s k x).stamps = s.stamps ∧ (setTb s k x).tcPorts = s.tcPorts ∧ (setTb s k x).ptpPorts = s.ptpPorts :=
  let ⟨v0, h⟩ := setTb_only s k x
  only_tbs7 v0 h

@[simp] theorem setTb_frame8 (s : State) (k : Nat) (x : TimeBase) :
    (setTb s k x).lifts = s.lifts ∧ (setTb s k x).groups = s.groups ∧ (setTb s k x).dispatchAt = s.dispatchAt ∧
    (setTb s k x).bscFifo = s.bscFifo ∧ (setTb s k x).stepped = s.stepped ∧ (setTb s k x).sqs = s.sqs ∧
    (setTb s k x).cqs = s.cqs ∧ (setTb s k x).txWait = s.txWait ∧ (setTb s k x).rxWait = s.rxWait :=
  let ⟨v0, h⟩ := setTb_only s k x
  only_tbs8 v0 h

@[simp] theorem setTb_frame9 (s : State) (k : Nat) (x : TimeBase) :
    (setTb s k x).turns = s.turns ∧ (setTb s k x).lostTx = s.lostTx ∧ (setTb s k x).lastReason = s.lastReason ∧
    (setTb s k x).scratchNew = s.scratchNew ∧ (setTb s k x).scratchMem = s.scratchMem ∧ (setTb s k x).blkImg = s.blkImg ∧
    (setTb s k x).svcOp = s.svcOp ∧ (setTb s k x).buckets = s.buckets ∧ (setTb s k x).embHold = s.embHold :=
  let ⟨v0, h⟩ := setTb_only s k x
  only_tbs9 v0 h

@[simp] theorem setTb_frame10 (s : State) (k : Nat) (x : TimeBase) :
    (setTb s k x).inHand = s.inHand ∧ (setTb s k x).redeliv = s.redeliv ∧ (setTb s k x).svcCfg = s.svcCfg ∧
    (setTb s k x).svcObjs = s.svcObjs ∧ (setTb s k x).svcServed = s.svcServed ∧ (setTb s k x).storeDigest = s.storeDigest ∧
    (setTb s k x).logLen = s.logLen ∧ (setTb s k x).certSerial = s.certSerial ∧ (setTb s k x).boot = s.boot :=
  let ⟨v0, h⟩ := setTb_only s k x
  only_tbs10 v0 h

@[simp] theorem setTb_frame11 (s : State) (k : Nat) (x : TimeBase) :
    (setTb s k x).tabBad = s.tabBad ∧ (setTb s k x).aonFailed = s.aonFailed ∧ (setTb s k x).wdogAt = s.wdogAt ∧
    (setTb s k x).replicas = s.replicas :=
  let ⟨v0, h⟩ := setTb_only s k x
  only_tbs11 v0 h

theorem setSq_only (s : State) (n : Nat) (x : SqRing) :
    ∃ v0, setSq s n x = { s with sqs := v0 } :=
  ⟨_, rfl⟩
theorem only_sqs1 {s t : State} (v0 : SMap SqRing) (h : t = { s with sqs := v0 }) :
    t.baseCount = s.baseCount ∧ t.regs = s.regs ∧ t.tabs = s.tabs ∧ t.snaps = s.snaps ∧ t.pending = s.pending ∧
    t.freeCtr = s.freeCtr ∧ t.out = s.out ∧ t.resp = s.resp ∧ t.escal = s.escal := by
  subst h; exact ⟨rfl, rfl, rfl, rfl, rfl, rfl, rfl, rfl, rfl⟩

theorem only_sqs2 {s t : State} (v0 : SMap SqRing) (h : t = { s with sqs := v0 }) :
    t.rdShadow = s.rdShadow ∧ t.wrShadow = s.wrShadow ∧ t.tblCmd = s.tblCmd ∧ t.parBad = s.parBad ∧ t.mode = s.mode ∧
    t.pins = s.pins ∧ t.doms = s.doms ∧ t.holds = s.holds ∧ t.resets = s.resets := by
  subst h; exact ⟨rfl, rfl, rfl, rfl, rfl, rfl, rfl, rfl, rfl⟩

theorem only_sqs3 {s t : State} (v0 : SMap SqRing) (h : t = { s with sqs := v0 }) :
    t.d2d = s.d2d ∧ t.queues = s.queues ∧ t.eports = s.eports ∧ t.admitting = s.admitting ∧ t.jobs = s.jobs ∧
    t.rxOpen = s.rxOpen ∧ t.pipes = s.pipes ∧ t.gates = s.gates ∧ t.gran = s.gran := by
  subst h; exact ⟨rfl, rfl, rfl, rfl, rfl, rfl, rfl, rfl, rfl⟩

theorem only_sqs4 {s t : State} (v0 : SMap SqRing) (h : t = { s with sqs := v0 }) :
    t.page = s.page ∧ t.dramBad = s.dramBad ∧ t.cqueues = s.cqueues ∧ t.cust = s.cust ∧ t.dimms = s.dimms ∧
    t.nextId = s.nextId ∧ t.inj = s.inj ∧ t.insp = s.insp ∧ t.foot = s.foot := by
  subst h; exact ⟨rfl, rfl, rfl, rfl, rfl, rfl, rfl, rfl, rfl⟩

theorem only_sqs5 {s t : State} (v0 : SMap SqRing) (h : t = { s with sqs := v0 }) :
    t.fwTabs = s.fwTabs ∧ t.therm = s.therm ∧ t.pcie = s.pcie ∧ t.tbs = s.tbs ∧ t.mtrLast = s.mtrLast ∧
    t.mirCnt = s.mirCnt ∧ t.mirSeq = s.mirSeq ∧ t.lpmStuck = s.lpmStuck ∧ t.caps = s.caps := by
  subst h; exact ⟨rfl, rfl, rfl, rfl, rfl, rfl, rfl, rfl, rfl⟩

theorem only_sqs6 {s t : State} (v0 : SMap SqRing) (h : t = { s with sqs := v0 }) :
    t.chans = s.chans ∧ t.scratch = s.scratch ∧ t.span = s.span ∧ t.tioFifo = s.tioFifo ∧ t.tioLast = s.tioLast ∧
    t.sense = s.sense ∧ t.colls = s.colls ∧ t.modRetry = s.modRetry ∧ t.eqHeld = s.eqHeld := by
  subst h; exact ⟨rfl, rfl, rfl, rfl, rfl, rfl, rfl, rfl, rfl⟩

theorem only_sqs7 {s t : State} (v0 : SMap SqRing) (h : t = { s with sqs := v0 }) :
    t.modNacks = s.modNacks ∧ t.fecWin = s.fecWin ∧ t.eyeLane = s.eyeLane ∧ t.cagePins = s.cagePins ∧ t.xferCmd = s.xferCmd ∧
    t.diagCmd = s.diagCmd ∧ t.mirHeld = s.mirHeld ∧ t.stamps = s.stamps ∧ t.tcPorts = s.tcPorts := by
  subst h; exact ⟨rfl, rfl, rfl, rfl, rfl, rfl, rfl, rfl, rfl⟩

theorem only_sqs8 {s t : State} (v0 : SMap SqRing) (h : t = { s with sqs := v0 }) :
    t.ptpPorts = s.ptpPorts ∧ t.lifts = s.lifts ∧ t.groups = s.groups ∧ t.dispatchAt = s.dispatchAt ∧ t.bscFifo = s.bscFifo ∧
    t.stepped = s.stepped ∧ t.cqs = s.cqs ∧ t.txWait = s.txWait ∧ t.rxWait = s.rxWait := by
  subst h; exact ⟨rfl, rfl, rfl, rfl, rfl, rfl, rfl, rfl, rfl⟩

theorem only_sqs9 {s t : State} (v0 : SMap SqRing) (h : t = { s with sqs := v0 }) :
    t.turns = s.turns ∧ t.lostTx = s.lostTx ∧ t.lastReason = s.lastReason ∧ t.scratchNew = s.scratchNew ∧ t.scratchMem = s.scratchMem ∧
    t.blkImg = s.blkImg ∧ t.svcOp = s.svcOp ∧ t.buckets = s.buckets ∧ t.embHold = s.embHold := by
  subst h; exact ⟨rfl, rfl, rfl, rfl, rfl, rfl, rfl, rfl, rfl⟩

theorem only_sqs10 {s t : State} (v0 : SMap SqRing) (h : t = { s with sqs := v0 }) :
    t.inHand = s.inHand ∧ t.redeliv = s.redeliv ∧ t.svcCfg = s.svcCfg ∧ t.svcObjs = s.svcObjs ∧ t.svcServed = s.svcServed ∧
    t.storeDigest = s.storeDigest ∧ t.logLen = s.logLen ∧ t.certSerial = s.certSerial ∧ t.boot = s.boot := by
  subst h; exact ⟨rfl, rfl, rfl, rfl, rfl, rfl, rfl, rfl, rfl⟩

theorem only_sqs11 {s t : State} (v0 : SMap SqRing) (h : t = { s with sqs := v0 }) :
    t.tabBad = s.tabBad ∧ t.aonFailed = s.aonFailed ∧ t.wdogAt = s.wdogAt ∧ t.replicas = s.replicas := by
  subst h; exact ⟨rfl, rfl, rfl, rfl⟩

@[simp] theorem setSq_frame1 (s : State) (n : Nat) (x : SqRing) :
    (setSq s n x).baseCount = s.baseCount ∧ (setSq s n x).regs = s.regs ∧ (setSq s n x).tabs = s.tabs ∧
    (setSq s n x).snaps = s.snaps ∧ (setSq s n x).pending = s.pending ∧ (setSq s n x).freeCtr = s.freeCtr ∧
    (setSq s n x).out = s.out ∧ (setSq s n x).resp = s.resp ∧ (setSq s n x).escal = s.escal :=
  let ⟨v0, h⟩ := setSq_only s n x
  only_sqs1 v0 h

@[simp] theorem setSq_frame2 (s : State) (n : Nat) (x : SqRing) :
    (setSq s n x).rdShadow = s.rdShadow ∧ (setSq s n x).wrShadow = s.wrShadow ∧ (setSq s n x).tblCmd = s.tblCmd ∧
    (setSq s n x).parBad = s.parBad ∧ (setSq s n x).mode = s.mode ∧ (setSq s n x).pins = s.pins ∧
    (setSq s n x).doms = s.doms ∧ (setSq s n x).holds = s.holds ∧ (setSq s n x).resets = s.resets :=
  let ⟨v0, h⟩ := setSq_only s n x
  only_sqs2 v0 h

@[simp] theorem setSq_frame3 (s : State) (n : Nat) (x : SqRing) :
    (setSq s n x).d2d = s.d2d ∧ (setSq s n x).queues = s.queues ∧ (setSq s n x).eports = s.eports ∧
    (setSq s n x).admitting = s.admitting ∧ (setSq s n x).jobs = s.jobs ∧ (setSq s n x).rxOpen = s.rxOpen ∧
    (setSq s n x).pipes = s.pipes ∧ (setSq s n x).gates = s.gates ∧ (setSq s n x).gran = s.gran :=
  let ⟨v0, h⟩ := setSq_only s n x
  only_sqs3 v0 h

@[simp] theorem setSq_frame4 (s : State) (n : Nat) (x : SqRing) :
    (setSq s n x).page = s.page ∧ (setSq s n x).dramBad = s.dramBad ∧ (setSq s n x).cqueues = s.cqueues ∧
    (setSq s n x).cust = s.cust ∧ (setSq s n x).dimms = s.dimms ∧ (setSq s n x).nextId = s.nextId ∧
    (setSq s n x).inj = s.inj ∧ (setSq s n x).insp = s.insp ∧ (setSq s n x).foot = s.foot :=
  let ⟨v0, h⟩ := setSq_only s n x
  only_sqs4 v0 h

@[simp] theorem setSq_frame5 (s : State) (n : Nat) (x : SqRing) :
    (setSq s n x).fwTabs = s.fwTabs ∧ (setSq s n x).therm = s.therm ∧ (setSq s n x).pcie = s.pcie ∧
    (setSq s n x).tbs = s.tbs ∧ (setSq s n x).mtrLast = s.mtrLast ∧ (setSq s n x).mirCnt = s.mirCnt ∧
    (setSq s n x).mirSeq = s.mirSeq ∧ (setSq s n x).lpmStuck = s.lpmStuck ∧ (setSq s n x).caps = s.caps :=
  let ⟨v0, h⟩ := setSq_only s n x
  only_sqs5 v0 h

@[simp] theorem setSq_frame6 (s : State) (n : Nat) (x : SqRing) :
    (setSq s n x).chans = s.chans ∧ (setSq s n x).scratch = s.scratch ∧ (setSq s n x).span = s.span ∧
    (setSq s n x).tioFifo = s.tioFifo ∧ (setSq s n x).tioLast = s.tioLast ∧ (setSq s n x).sense = s.sense ∧
    (setSq s n x).colls = s.colls ∧ (setSq s n x).modRetry = s.modRetry ∧ (setSq s n x).eqHeld = s.eqHeld :=
  let ⟨v0, h⟩ := setSq_only s n x
  only_sqs6 v0 h

@[simp] theorem setSq_frame7 (s : State) (n : Nat) (x : SqRing) :
    (setSq s n x).modNacks = s.modNacks ∧ (setSq s n x).fecWin = s.fecWin ∧ (setSq s n x).eyeLane = s.eyeLane ∧
    (setSq s n x).cagePins = s.cagePins ∧ (setSq s n x).xferCmd = s.xferCmd ∧ (setSq s n x).diagCmd = s.diagCmd ∧
    (setSq s n x).mirHeld = s.mirHeld ∧ (setSq s n x).stamps = s.stamps ∧ (setSq s n x).tcPorts = s.tcPorts :=
  let ⟨v0, h⟩ := setSq_only s n x
  only_sqs7 v0 h

@[simp] theorem setSq_frame8 (s : State) (n : Nat) (x : SqRing) :
    (setSq s n x).ptpPorts = s.ptpPorts ∧ (setSq s n x).lifts = s.lifts ∧ (setSq s n x).groups = s.groups ∧
    (setSq s n x).dispatchAt = s.dispatchAt ∧ (setSq s n x).bscFifo = s.bscFifo ∧ (setSq s n x).stepped = s.stepped ∧
    (setSq s n x).cqs = s.cqs ∧ (setSq s n x).txWait = s.txWait ∧ (setSq s n x).rxWait = s.rxWait :=
  let ⟨v0, h⟩ := setSq_only s n x
  only_sqs8 v0 h

@[simp] theorem setSq_frame9 (s : State) (n : Nat) (x : SqRing) :
    (setSq s n x).turns = s.turns ∧ (setSq s n x).lostTx = s.lostTx ∧ (setSq s n x).lastReason = s.lastReason ∧
    (setSq s n x).scratchNew = s.scratchNew ∧ (setSq s n x).scratchMem = s.scratchMem ∧ (setSq s n x).blkImg = s.blkImg ∧
    (setSq s n x).svcOp = s.svcOp ∧ (setSq s n x).buckets = s.buckets ∧ (setSq s n x).embHold = s.embHold :=
  let ⟨v0, h⟩ := setSq_only s n x
  only_sqs9 v0 h

@[simp] theorem setSq_frame10 (s : State) (n : Nat) (x : SqRing) :
    (setSq s n x).inHand = s.inHand ∧ (setSq s n x).redeliv = s.redeliv ∧ (setSq s n x).svcCfg = s.svcCfg ∧
    (setSq s n x).svcObjs = s.svcObjs ∧ (setSq s n x).svcServed = s.svcServed ∧ (setSq s n x).storeDigest = s.storeDigest ∧
    (setSq s n x).logLen = s.logLen ∧ (setSq s n x).certSerial = s.certSerial ∧ (setSq s n x).boot = s.boot :=
  let ⟨v0, h⟩ := setSq_only s n x
  only_sqs10 v0 h

@[simp] theorem setSq_frame11 (s : State) (n : Nat) (x : SqRing) :
    (setSq s n x).tabBad = s.tabBad ∧ (setSq s n x).aonFailed = s.aonFailed ∧ (setSq s n x).wdogAt = s.wdogAt ∧
    (setSq s n x).replicas = s.replicas :=
  let ⟨v0, h⟩ := setSq_only s n x
  only_sqs11 v0 h

theorem setChan_only (s : State) (c : Nat) (x : Chan) :
    ∃ v0, setChan s c x = { s with chans := v0 } :=
  ⟨_, rfl⟩
theorem only_chans1 {s t : State} (v0 : SMap Chan) (h : t = { s with chans := v0 }) :
    t.baseCount = s.baseCount ∧ t.regs = s.regs ∧ t.tabs = s.tabs ∧ t.snaps = s.snaps ∧ t.pending = s.pending ∧
    t.freeCtr = s.freeCtr ∧ t.out = s.out ∧ t.resp = s.resp ∧ t.escal = s.escal := by
  subst h; exact ⟨rfl, rfl, rfl, rfl, rfl, rfl, rfl, rfl, rfl⟩

theorem only_chans2 {s t : State} (v0 : SMap Chan) (h : t = { s with chans := v0 }) :
    t.rdShadow = s.rdShadow ∧ t.wrShadow = s.wrShadow ∧ t.tblCmd = s.tblCmd ∧ t.parBad = s.parBad ∧ t.mode = s.mode ∧
    t.pins = s.pins ∧ t.doms = s.doms ∧ t.holds = s.holds ∧ t.resets = s.resets := by
  subst h; exact ⟨rfl, rfl, rfl, rfl, rfl, rfl, rfl, rfl, rfl⟩

theorem only_chans3 {s t : State} (v0 : SMap Chan) (h : t = { s with chans := v0 }) :
    t.d2d = s.d2d ∧ t.queues = s.queues ∧ t.eports = s.eports ∧ t.admitting = s.admitting ∧ t.jobs = s.jobs ∧
    t.rxOpen = s.rxOpen ∧ t.pipes = s.pipes ∧ t.gates = s.gates ∧ t.gran = s.gran := by
  subst h; exact ⟨rfl, rfl, rfl, rfl, rfl, rfl, rfl, rfl, rfl⟩

theorem only_chans4 {s t : State} (v0 : SMap Chan) (h : t = { s with chans := v0 }) :
    t.page = s.page ∧ t.dramBad = s.dramBad ∧ t.cqueues = s.cqueues ∧ t.cust = s.cust ∧ t.dimms = s.dimms ∧
    t.nextId = s.nextId ∧ t.inj = s.inj ∧ t.insp = s.insp ∧ t.foot = s.foot := by
  subst h; exact ⟨rfl, rfl, rfl, rfl, rfl, rfl, rfl, rfl, rfl⟩

theorem only_chans5 {s t : State} (v0 : SMap Chan) (h : t = { s with chans := v0 }) :
    t.fwTabs = s.fwTabs ∧ t.therm = s.therm ∧ t.pcie = s.pcie ∧ t.tbs = s.tbs ∧ t.mtrLast = s.mtrLast ∧
    t.mirCnt = s.mirCnt ∧ t.mirSeq = s.mirSeq ∧ t.lpmStuck = s.lpmStuck ∧ t.caps = s.caps := by
  subst h; exact ⟨rfl, rfl, rfl, rfl, rfl, rfl, rfl, rfl, rfl⟩

theorem only_chans6 {s t : State} (v0 : SMap Chan) (h : t = { s with chans := v0 }) :
    t.scratch = s.scratch ∧ t.span = s.span ∧ t.tioFifo = s.tioFifo ∧ t.tioLast = s.tioLast ∧ t.sense = s.sense ∧
    t.colls = s.colls ∧ t.modRetry = s.modRetry ∧ t.eqHeld = s.eqHeld ∧ t.modNacks = s.modNacks := by
  subst h; exact ⟨rfl, rfl, rfl, rfl, rfl, rfl, rfl, rfl, rfl⟩

theorem only_chans7 {s t : State} (v0 : SMap Chan) (h : t = { s with chans := v0 }) :
    t.fecWin = s.fecWin ∧ t.eyeLane = s.eyeLane ∧ t.cagePins = s.cagePins ∧ t.xferCmd = s.xferCmd ∧ t.diagCmd = s.diagCmd ∧
    t.mirHeld = s.mirHeld ∧ t.stamps = s.stamps ∧ t.tcPorts = s.tcPorts ∧ t.ptpPorts = s.ptpPorts := by
  subst h; exact ⟨rfl, rfl, rfl, rfl, rfl, rfl, rfl, rfl, rfl⟩

theorem only_chans8 {s t : State} (v0 : SMap Chan) (h : t = { s with chans := v0 }) :
    t.lifts = s.lifts ∧ t.groups = s.groups ∧ t.dispatchAt = s.dispatchAt ∧ t.bscFifo = s.bscFifo ∧ t.stepped = s.stepped ∧
    t.sqs = s.sqs ∧ t.cqs = s.cqs ∧ t.txWait = s.txWait ∧ t.rxWait = s.rxWait := by
  subst h; exact ⟨rfl, rfl, rfl, rfl, rfl, rfl, rfl, rfl, rfl⟩

theorem only_chans9 {s t : State} (v0 : SMap Chan) (h : t = { s with chans := v0 }) :
    t.turns = s.turns ∧ t.lostTx = s.lostTx ∧ t.lastReason = s.lastReason ∧ t.scratchNew = s.scratchNew ∧ t.scratchMem = s.scratchMem ∧
    t.blkImg = s.blkImg ∧ t.svcOp = s.svcOp ∧ t.buckets = s.buckets ∧ t.embHold = s.embHold := by
  subst h; exact ⟨rfl, rfl, rfl, rfl, rfl, rfl, rfl, rfl, rfl⟩

theorem only_chans10 {s t : State} (v0 : SMap Chan) (h : t = { s with chans := v0 }) :
    t.inHand = s.inHand ∧ t.redeliv = s.redeliv ∧ t.svcCfg = s.svcCfg ∧ t.svcObjs = s.svcObjs ∧ t.svcServed = s.svcServed ∧
    t.storeDigest = s.storeDigest ∧ t.logLen = s.logLen ∧ t.certSerial = s.certSerial ∧ t.boot = s.boot := by
  subst h; exact ⟨rfl, rfl, rfl, rfl, rfl, rfl, rfl, rfl, rfl⟩

theorem only_chans11 {s t : State} (v0 : SMap Chan) (h : t = { s with chans := v0 }) :
    t.tabBad = s.tabBad ∧ t.aonFailed = s.aonFailed ∧ t.wdogAt = s.wdogAt ∧ t.replicas = s.replicas := by
  subst h; exact ⟨rfl, rfl, rfl, rfl⟩

@[simp] theorem setChan_frame1 (s : State) (c : Nat) (x : Chan) :
    (setChan s c x).baseCount = s.baseCount ∧ (setChan s c x).regs = s.regs ∧ (setChan s c x).tabs = s.tabs ∧
    (setChan s c x).snaps = s.snaps ∧ (setChan s c x).pending = s.pending ∧ (setChan s c x).freeCtr = s.freeCtr ∧
    (setChan s c x).out = s.out ∧ (setChan s c x).resp = s.resp ∧ (setChan s c x).escal = s.escal :=
  let ⟨v0, h⟩ := setChan_only s c x
  only_chans1 v0 h

@[simp] theorem setChan_frame2 (s : State) (c : Nat) (x : Chan) :
    (setChan s c x).rdShadow = s.rdShadow ∧ (setChan s c x).wrShadow = s.wrShadow ∧ (setChan s c x).tblCmd = s.tblCmd ∧
    (setChan s c x).parBad = s.parBad ∧ (setChan s c x).mode = s.mode ∧ (setChan s c x).pins = s.pins ∧
    (setChan s c x).doms = s.doms ∧ (setChan s c x).holds = s.holds ∧ (setChan s c x).resets = s.resets :=
  let ⟨v0, h⟩ := setChan_only s c x
  only_chans2 v0 h

@[simp] theorem setChan_frame3 (s : State) (c : Nat) (x : Chan) :
    (setChan s c x).d2d = s.d2d ∧ (setChan s c x).queues = s.queues ∧ (setChan s c x).eports = s.eports ∧
    (setChan s c x).admitting = s.admitting ∧ (setChan s c x).jobs = s.jobs ∧ (setChan s c x).rxOpen = s.rxOpen ∧
    (setChan s c x).pipes = s.pipes ∧ (setChan s c x).gates = s.gates ∧ (setChan s c x).gran = s.gran :=
  let ⟨v0, h⟩ := setChan_only s c x
  only_chans3 v0 h

@[simp] theorem setChan_frame4 (s : State) (c : Nat) (x : Chan) :
    (setChan s c x).page = s.page ∧ (setChan s c x).dramBad = s.dramBad ∧ (setChan s c x).cqueues = s.cqueues ∧
    (setChan s c x).cust = s.cust ∧ (setChan s c x).dimms = s.dimms ∧ (setChan s c x).nextId = s.nextId ∧
    (setChan s c x).inj = s.inj ∧ (setChan s c x).insp = s.insp ∧ (setChan s c x).foot = s.foot :=
  let ⟨v0, h⟩ := setChan_only s c x
  only_chans4 v0 h

@[simp] theorem setChan_frame5 (s : State) (c : Nat) (x : Chan) :
    (setChan s c x).fwTabs = s.fwTabs ∧ (setChan s c x).therm = s.therm ∧ (setChan s c x).pcie = s.pcie ∧
    (setChan s c x).tbs = s.tbs ∧ (setChan s c x).mtrLast = s.mtrLast ∧ (setChan s c x).mirCnt = s.mirCnt ∧
    (setChan s c x).mirSeq = s.mirSeq ∧ (setChan s c x).lpmStuck = s.lpmStuck ∧ (setChan s c x).caps = s.caps :=
  let ⟨v0, h⟩ := setChan_only s c x
  only_chans5 v0 h

@[simp] theorem setChan_frame6 (s : State) (c : Nat) (x : Chan) :
    (setChan s c x).scratch = s.scratch ∧ (setChan s c x).span = s.span ∧ (setChan s c x).tioFifo = s.tioFifo ∧
    (setChan s c x).tioLast = s.tioLast ∧ (setChan s c x).sense = s.sense ∧ (setChan s c x).colls = s.colls ∧
    (setChan s c x).modRetry = s.modRetry ∧ (setChan s c x).eqHeld = s.eqHeld ∧ (setChan s c x).modNacks = s.modNacks :=
  let ⟨v0, h⟩ := setChan_only s c x
  only_chans6 v0 h

@[simp] theorem setChan_frame7 (s : State) (c : Nat) (x : Chan) :
    (setChan s c x).fecWin = s.fecWin ∧ (setChan s c x).eyeLane = s.eyeLane ∧ (setChan s c x).cagePins = s.cagePins ∧
    (setChan s c x).xferCmd = s.xferCmd ∧ (setChan s c x).diagCmd = s.diagCmd ∧ (setChan s c x).mirHeld = s.mirHeld ∧
    (setChan s c x).stamps = s.stamps ∧ (setChan s c x).tcPorts = s.tcPorts ∧ (setChan s c x).ptpPorts = s.ptpPorts :=
  let ⟨v0, h⟩ := setChan_only s c x
  only_chans7 v0 h

@[simp] theorem setChan_frame8 (s : State) (c : Nat) (x : Chan) :
    (setChan s c x).lifts = s.lifts ∧ (setChan s c x).groups = s.groups ∧ (setChan s c x).dispatchAt = s.dispatchAt ∧
    (setChan s c x).bscFifo = s.bscFifo ∧ (setChan s c x).stepped = s.stepped ∧ (setChan s c x).sqs = s.sqs ∧
    (setChan s c x).cqs = s.cqs ∧ (setChan s c x).txWait = s.txWait ∧ (setChan s c x).rxWait = s.rxWait :=
  let ⟨v0, h⟩ := setChan_only s c x
  only_chans8 v0 h

@[simp] theorem setChan_frame9 (s : State) (c : Nat) (x : Chan) :
    (setChan s c x).turns = s.turns ∧ (setChan s c x).lostTx = s.lostTx ∧ (setChan s c x).lastReason = s.lastReason ∧
    (setChan s c x).scratchNew = s.scratchNew ∧ (setChan s c x).scratchMem = s.scratchMem ∧ (setChan s c x).blkImg = s.blkImg ∧
    (setChan s c x).svcOp = s.svcOp ∧ (setChan s c x).buckets = s.buckets ∧ (setChan s c x).embHold = s.embHold :=
  let ⟨v0, h⟩ := setChan_only s c x
  only_chans9 v0 h

@[simp] theorem setChan_frame10 (s : State) (c : Nat) (x : Chan) :
    (setChan s c x).inHand = s.inHand ∧ (setChan s c x).redeliv = s.redeliv ∧ (setChan s c x).svcCfg = s.svcCfg ∧
    (setChan s c x).svcObjs = s.svcObjs ∧ (setChan s c x).svcServed = s.svcServed ∧ (setChan s c x).storeDigest = s.storeDigest ∧
    (setChan s c x).logLen = s.logLen ∧ (setChan s c x).certSerial = s.certSerial ∧ (setChan s c x).boot = s.boot :=
  let ⟨v0, h⟩ := setChan_only s c x
  only_chans10 v0 h

@[simp] theorem setChan_frame11 (s : State) (c : Nat) (x : Chan) :
    (setChan s c x).tabBad = s.tabBad ∧ (setChan s c x).aonFailed = s.aonFailed ∧ (setChan s c x).wdogAt = s.wdogAt ∧
    (setChan s c x).replicas = s.replicas :=
  let ⟨v0, h⟩ := setChan_only s c x
  only_chans11 v0 h

theorem setImg_only (s : State) (b : Nat) (i : BlockImg) :
    ∃ v0, setImg s b i = { s with blkImg := v0 } :=
  ⟨_, rfl⟩
theorem only_blkImg1 {s t : State} (v0 : SMap BlockImg) (h : t = { s with blkImg := v0 }) :
    t.baseCount = s.baseCount ∧ t.regs = s.regs ∧ t.tabs = s.tabs ∧ t.snaps = s.snaps ∧ t.pending = s.pending ∧
    t.freeCtr = s.freeCtr ∧ t.out = s.out ∧ t.resp = s.resp ∧ t.escal = s.escal := by
  subst h; exact ⟨rfl, rfl, rfl, rfl, rfl, rfl, rfl, rfl, rfl⟩

theorem only_blkImg2 {s t : State} (v0 : SMap BlockImg) (h : t = { s with blkImg := v0 }) :
    t.rdShadow = s.rdShadow ∧ t.wrShadow = s.wrShadow ∧ t.tblCmd = s.tblCmd ∧ t.parBad = s.parBad ∧ t.mode = s.mode ∧
    t.pins = s.pins ∧ t.doms = s.doms ∧ t.holds = s.holds ∧ t.resets = s.resets := by
  subst h; exact ⟨rfl, rfl, rfl, rfl, rfl, rfl, rfl, rfl, rfl⟩

theorem only_blkImg3 {s t : State} (v0 : SMap BlockImg) (h : t = { s with blkImg := v0 }) :
    t.d2d = s.d2d ∧ t.queues = s.queues ∧ t.eports = s.eports ∧ t.admitting = s.admitting ∧ t.jobs = s.jobs ∧
    t.rxOpen = s.rxOpen ∧ t.pipes = s.pipes ∧ t.gates = s.gates ∧ t.gran = s.gran := by
  subst h; exact ⟨rfl, rfl, rfl, rfl, rfl, rfl, rfl, rfl, rfl⟩

theorem only_blkImg4 {s t : State} (v0 : SMap BlockImg) (h : t = { s with blkImg := v0 }) :
    t.page = s.page ∧ t.dramBad = s.dramBad ∧ t.cqueues = s.cqueues ∧ t.cust = s.cust ∧ t.dimms = s.dimms ∧
    t.nextId = s.nextId ∧ t.inj = s.inj ∧ t.insp = s.insp ∧ t.foot = s.foot := by
  subst h; exact ⟨rfl, rfl, rfl, rfl, rfl, rfl, rfl, rfl, rfl⟩

theorem only_blkImg5 {s t : State} (v0 : SMap BlockImg) (h : t = { s with blkImg := v0 }) :
    t.fwTabs = s.fwTabs ∧ t.therm = s.therm ∧ t.pcie = s.pcie ∧ t.tbs = s.tbs ∧ t.mtrLast = s.mtrLast ∧
    t.mirCnt = s.mirCnt ∧ t.mirSeq = s.mirSeq ∧ t.lpmStuck = s.lpmStuck ∧ t.caps = s.caps := by
  subst h; exact ⟨rfl, rfl, rfl, rfl, rfl, rfl, rfl, rfl, rfl⟩

theorem only_blkImg6 {s t : State} (v0 : SMap BlockImg) (h : t = { s with blkImg := v0 }) :
    t.chans = s.chans ∧ t.scratch = s.scratch ∧ t.span = s.span ∧ t.tioFifo = s.tioFifo ∧ t.tioLast = s.tioLast ∧
    t.sense = s.sense ∧ t.colls = s.colls ∧ t.modRetry = s.modRetry ∧ t.eqHeld = s.eqHeld := by
  subst h; exact ⟨rfl, rfl, rfl, rfl, rfl, rfl, rfl, rfl, rfl⟩

theorem only_blkImg7 {s t : State} (v0 : SMap BlockImg) (h : t = { s with blkImg := v0 }) :
    t.modNacks = s.modNacks ∧ t.fecWin = s.fecWin ∧ t.eyeLane = s.eyeLane ∧ t.cagePins = s.cagePins ∧ t.xferCmd = s.xferCmd ∧
    t.diagCmd = s.diagCmd ∧ t.mirHeld = s.mirHeld ∧ t.stamps = s.stamps ∧ t.tcPorts = s.tcPorts := by
  subst h; exact ⟨rfl, rfl, rfl, rfl, rfl, rfl, rfl, rfl, rfl⟩

theorem only_blkImg8 {s t : State} (v0 : SMap BlockImg) (h : t = { s with blkImg := v0 }) :
    t.ptpPorts = s.ptpPorts ∧ t.lifts = s.lifts ∧ t.groups = s.groups ∧ t.dispatchAt = s.dispatchAt ∧ t.bscFifo = s.bscFifo ∧
    t.stepped = s.stepped ∧ t.sqs = s.sqs ∧ t.cqs = s.cqs ∧ t.txWait = s.txWait := by
  subst h; exact ⟨rfl, rfl, rfl, rfl, rfl, rfl, rfl, rfl, rfl⟩

theorem only_blkImg9 {s t : State} (v0 : SMap BlockImg) (h : t = { s with blkImg := v0 }) :
    t.rxWait = s.rxWait ∧ t.turns = s.turns ∧ t.lostTx = s.lostTx ∧ t.lastReason = s.lastReason ∧ t.scratchNew = s.scratchNew ∧
    t.scratchMem = s.scratchMem ∧ t.svcOp = s.svcOp ∧ t.buckets = s.buckets ∧ t.embHold = s.embHold := by
  subst h; exact ⟨rfl, rfl, rfl, rfl, rfl, rfl, rfl, rfl, rfl⟩

theorem only_blkImg10 {s t : State} (v0 : SMap BlockImg) (h : t = { s with blkImg := v0 }) :
    t.inHand = s.inHand ∧ t.redeliv = s.redeliv ∧ t.svcCfg = s.svcCfg ∧ t.svcObjs = s.svcObjs ∧ t.svcServed = s.svcServed ∧
    t.storeDigest = s.storeDigest ∧ t.logLen = s.logLen ∧ t.certSerial = s.certSerial ∧ t.boot = s.boot := by
  subst h; exact ⟨rfl, rfl, rfl, rfl, rfl, rfl, rfl, rfl, rfl⟩

theorem only_blkImg11 {s t : State} (v0 : SMap BlockImg) (h : t = { s with blkImg := v0 }) :
    t.tabBad = s.tabBad ∧ t.aonFailed = s.aonFailed ∧ t.wdogAt = s.wdogAt ∧ t.replicas = s.replicas := by
  subst h; exact ⟨rfl, rfl, rfl, rfl⟩

@[simp] theorem setImg_frame1 (s : State) (b : Nat) (i : BlockImg) :
    (setImg s b i).baseCount = s.baseCount ∧ (setImg s b i).regs = s.regs ∧ (setImg s b i).tabs = s.tabs ∧
    (setImg s b i).snaps = s.snaps ∧ (setImg s b i).pending = s.pending ∧ (setImg s b i).freeCtr = s.freeCtr ∧
    (setImg s b i).out = s.out ∧ (setImg s b i).resp = s.resp ∧ (setImg s b i).escal = s.escal :=
  let ⟨v0, h⟩ := setImg_only s b i
  only_blkImg1 v0 h

@[simp] theorem setImg_frame2 (s : State) (b : Nat) (i : BlockImg) :
    (setImg s b i).rdShadow = s.rdShadow ∧ (setImg s b i).wrShadow = s.wrShadow ∧ (setImg s b i).tblCmd = s.tblCmd ∧
    (setImg s b i).parBad = s.parBad ∧ (setImg s b i).mode = s.mode ∧ (setImg s b i).pins = s.pins ∧
    (setImg s b i).doms = s.doms ∧ (setImg s b i).holds = s.holds ∧ (setImg s b i).resets = s.resets :=
  let ⟨v0, h⟩ := setImg_only s b i
  only_blkImg2 v0 h

@[simp] theorem setImg_frame3 (s : State) (b : Nat) (i : BlockImg) :
    (setImg s b i).d2d = s.d2d ∧ (setImg s b i).queues = s.queues ∧ (setImg s b i).eports = s.eports ∧
    (setImg s b i).admitting = s.admitting ∧ (setImg s b i).jobs = s.jobs ∧ (setImg s b i).rxOpen = s.rxOpen ∧
    (setImg s b i).pipes = s.pipes ∧ (setImg s b i).gates = s.gates ∧ (setImg s b i).gran = s.gran :=
  let ⟨v0, h⟩ := setImg_only s b i
  only_blkImg3 v0 h

@[simp] theorem setImg_frame4 (s : State) (b : Nat) (i : BlockImg) :
    (setImg s b i).page = s.page ∧ (setImg s b i).dramBad = s.dramBad ∧ (setImg s b i).cqueues = s.cqueues ∧
    (setImg s b i).cust = s.cust ∧ (setImg s b i).dimms = s.dimms ∧ (setImg s b i).nextId = s.nextId ∧
    (setImg s b i).inj = s.inj ∧ (setImg s b i).insp = s.insp ∧ (setImg s b i).foot = s.foot :=
  let ⟨v0, h⟩ := setImg_only s b i
  only_blkImg4 v0 h

@[simp] theorem setImg_frame5 (s : State) (b : Nat) (i : BlockImg) :
    (setImg s b i).fwTabs = s.fwTabs ∧ (setImg s b i).therm = s.therm ∧ (setImg s b i).pcie = s.pcie ∧
    (setImg s b i).tbs = s.tbs ∧ (setImg s b i).mtrLast = s.mtrLast ∧ (setImg s b i).mirCnt = s.mirCnt ∧
    (setImg s b i).mirSeq = s.mirSeq ∧ (setImg s b i).lpmStuck = s.lpmStuck ∧ (setImg s b i).caps = s.caps :=
  let ⟨v0, h⟩ := setImg_only s b i
  only_blkImg5 v0 h

@[simp] theorem setImg_frame6 (s : State) (b : Nat) (i : BlockImg) :
    (setImg s b i).chans = s.chans ∧ (setImg s b i).scratch = s.scratch ∧ (setImg s b i).span = s.span ∧
    (setImg s b i).tioFifo = s.tioFifo ∧ (setImg s b i).tioLast = s.tioLast ∧ (setImg s b i).sense = s.sense ∧
    (setImg s b i).colls = s.colls ∧ (setImg s b i).modRetry = s.modRetry ∧ (setImg s b i).eqHeld = s.eqHeld :=
  let ⟨v0, h⟩ := setImg_only s b i
  only_blkImg6 v0 h

@[simp] theorem setImg_frame7 (s : State) (b : Nat) (i : BlockImg) :
    (setImg s b i).modNacks = s.modNacks ∧ (setImg s b i).fecWin = s.fecWin ∧ (setImg s b i).eyeLane = s.eyeLane ∧
    (setImg s b i).cagePins = s.cagePins ∧ (setImg s b i).xferCmd = s.xferCmd ∧ (setImg s b i).diagCmd = s.diagCmd ∧
    (setImg s b i).mirHeld = s.mirHeld ∧ (setImg s b i).stamps = s.stamps ∧ (setImg s b i).tcPorts = s.tcPorts :=
  let ⟨v0, h⟩ := setImg_only s b i
  only_blkImg7 v0 h

@[simp] theorem setImg_frame8 (s : State) (b : Nat) (i : BlockImg) :
    (setImg s b i).ptpPorts = s.ptpPorts ∧ (setImg s b i).lifts = s.lifts ∧ (setImg s b i).groups = s.groups ∧
    (setImg s b i).dispatchAt = s.dispatchAt ∧ (setImg s b i).bscFifo = s.bscFifo ∧ (setImg s b i).stepped = s.stepped ∧
    (setImg s b i).sqs = s.sqs ∧ (setImg s b i).cqs = s.cqs ∧ (setImg s b i).txWait = s.txWait :=
  let ⟨v0, h⟩ := setImg_only s b i
  only_blkImg8 v0 h

@[simp] theorem setImg_frame9 (s : State) (b : Nat) (i : BlockImg) :
    (setImg s b i).rxWait = s.rxWait ∧ (setImg s b i).turns = s.turns ∧ (setImg s b i).lostTx = s.lostTx ∧
    (setImg s b i).lastReason = s.lastReason ∧ (setImg s b i).scratchNew = s.scratchNew ∧ (setImg s b i).scratchMem = s.scratchMem ∧
    (setImg s b i).svcOp = s.svcOp ∧ (setImg s b i).buckets = s.buckets ∧ (setImg s b i).embHold = s.embHold :=
  let ⟨v0, h⟩ := setImg_only s b i
  only_blkImg9 v0 h

@[simp] theorem setImg_frame10 (s : State) (b : Nat) (i : BlockImg) :
    (setImg s b i).inHand = s.inHand ∧ (setImg s b i).redeliv = s.redeliv ∧ (setImg s b i).svcCfg = s.svcCfg ∧
    (setImg s b i).svcObjs = s.svcObjs ∧ (setImg s b i).svcServed = s.svcServed ∧ (setImg s b i).storeDigest = s.storeDigest ∧
    (setImg s b i).logLen = s.logLen ∧ (setImg s b i).certSerial = s.certSerial ∧ (setImg s b i).boot = s.boot :=
  let ⟨v0, h⟩ := setImg_only s b i
  only_blkImg10 v0 h

@[simp] theorem setImg_frame11 (s : State) (b : Nat) (i : BlockImg) :
    (setImg s b i).tabBad = s.tabBad ∧ (setImg s b i).aonFailed = s.aonFailed ∧ (setImg s b i).wdogAt = s.wdogAt ∧
    (setImg s b i).replicas = s.replicas :=
  let ⟨v0, h⟩ := setImg_only s b i
  only_blkImg11 v0 h

end Sys2Proof.Machine
end

