-- ==== Sys2Proof/Laws/Ops.lean ====
section
/-! SUPPORT. The shared operations over registers, entries and sources, each by what a later read finds. -/

namespace Sys2Proof.Machine

/-! ### Registers -/

@[simp] theorem rd_wr_same (s : State) (p o : Nat) (v : Word) : rd (wr s p o v) p o = v := mapGet_mapSet_same _ _ _ _
theorem rd_wr_key (s : State) (p o q w : Nat) (v : Word) (h : q * 4096 + w ≠ p * 4096 + o) : rd (wr s p o v) q w = rd s q w :=
  mapGet_mapSet_other _ _ _ h
theorem rd_wr (s : State) (p o q w : Nat) (v : Word) :
    rd (wr s p o v) q w = if q * 4096 + w = p * 4096 + o then v else rd s q w := by
  split
  · next h => show mapGet regReset _ (q * 4096 + w) = v; rw [h]; exact rd_wr_same s p o v
  · next h => exact rd_wr_key s p o q w v h
/-- Two offsets of one page are two registers. -/
theorem rd_wr_off (s : State) (p o w : Nat) (v : Word) (h : w ≠ o) : rd (wr s p o v) p w = rd s p w :=
  rd_wr_key s p o p w v (by omega)
/-- Registers of different pages do not touch. -/
theorem rd_wr_page (s : State) (p o q w : Nat) (v : Word) (h : q ≠ p) (ho : o < 4096) (hw : w < 4096) : rd (wr s p o v) q w = rd s q w :=
  rd_wr_key s p o q w v (by omega)
/-- A register reads what the map of registers holds. -/
theorem rd_congr {s t : State} (h : t.regs = s.regs) (p o : Nat) : rd t p o = rd s p o := by unfold rd; rw [h]

/-! ### Bit fields -/

theorem bitsOf_lt (n hi lo : Nat) : bitsOf n hi lo < 2 ^ (hi + 1 - lo) := Nat.mod_lt _ (Nat.two_pow_pos _)
theorem testBit_bitsOf (n hi lo i : Nat) : (bitsOf n hi lo).testBit i = (decide (i < hi + 1 - lo) && n.testBit (lo + i)) := by
  simp [bitsOf, Nat.testBit_mod_two_pow, Nat.testBit_shiftRight]

/-- The parts of a number around a field, and the number put together again. -/
theorem withBits_parts (n hi lo v : Nat) :
    withBits n hi lo v = 2 ^ lo * (2 ^ (hi + 1 - lo) * (n / 2 ^ lo / 2 ^ (hi + 1 - lo)) + v % 2 ^ (hi + 1 - lo)) + n % 2 ^ lo := by
  unfold withBits bitsOf
  rw [Nat.shiftRight_eq_div_pow]
  have h1 := Nat.div_add_mod n (2 ^ lo)
  have h2 := Nat.div_add_mod (n / 2 ^ lo) (2 ^ (hi + 1 - lo))
  generalize n % 2 ^ lo = L at *
  generalize hq : n / 2 ^ lo = q at *
  generalize q % 2 ^ (hi + 1 - lo) = b at *
  generalize q / 2 ^ (hi + 1 - lo) = a at *
  generalize 2 ^ (hi + 1 - lo) = K at *
  have h3 : n = 2 ^ lo * (K * a) + 2 ^ lo * b + L := by rw [← h1, ← h2, Nat.mul_add]
  rw [h3, Nat.mul_comm b, Nat.mul_add, Nat.mul_comm (v % K)]
  omega
/-- The bits of a number whose field has been replaced. -/
theorem testBit_withBits (n hi lo v i : Nat) (h : lo ≤ hi) :
    (withBits n hi lo v).testBit i = if lo ≤ i ∧ i ≤ hi then v.testBit (i - lo) else n.testBit i := by
  rw [withBits_parts, Nat.testBit_two_pow_mul_add _ (Nat.mod_lt _ (Nat.two_pow_pos _))]
  split
  · next hi' => rw [if_neg (by omega), Nat.testBit_mod_two_pow]; simp [hi']
  · next hi' =>
    rw [Nat.testBit_two_pow_mul_add _ (Nat.mod_lt _ (Nat.two_pow_pos _))]
    split
    · rw [if_pos (by omega), Nat.testBit_mod_two_pow]
      simp; omega
    · rw [if_neg (by omega), Nat.testBit_div_two_pow, Nat.testBit_div_two_pow]
      congr 1; omega
theorem withBits_lt (n hi lo v w : Nat) (h : lo ≤ hi) (hw : hi < w) (hn : n < 2 ^ w) : withBits n hi lo v < 2 ^ w := by
  apply Nat.lt_pow_two_of_testBit
  intro i hi'
  rw [testBit_withBits n hi lo v i h, if_neg (by omega)]
  exact Nat.testBit_lt_two_pow (Nat.lt_of_lt_of_le hn (Nat.pow_le_pow_right (by omega) hi'))
theorem toNat_withBits (v : Word) (hi lo n : Nat) (h : lo ≤ hi) (hw : hi < 32) :
    (BitVec.ofNat 32 (withBits v.toNat hi lo n)).toNat = withBits v.toNat hi lo n := by
  rw [BitVec.toNat_ofNat, Nat.mod_eq_of_lt (withBits_lt _ hi lo n 32 h hw v.isLt)]

/-- A bit of the register whose field was set, and of every other register. -/
theorem bitAt_setFld (s : State) (p o hi lo n q w b : Nat) (h : lo ≤ hi) (hw : hi < 32) :
    bitAt (setFld s p o hi lo n) q w b =
      if q * 4096 + w = p * 4096 + o ∧ lo ≤ b ∧ b ≤ hi then n.testBit (b - lo) else bitAt s q w b := by
  unfold bitAt setFld
  rw [rd_wr]
  by_cases hk : q * 4096 + w = p * 4096 + o
  · have e : rd s q w = rd s p o := by unfold rd; rw [hk]
    rw [if_pos hk, toNat_withBits _ _ _ _ h hw, testBit_withBits _ _ _ _ _ h, e]
    simp only [hk, true_and]
  · simp [hk]
theorem bitAt_setBit (s : State) (p o c q w b : Nat) (v : Bool) (hc : c < 32) :
    bitAt (setBit s p o c v) q w b = if q * 4096 + w = p * 4096 + o ∧ b = c then v else bitAt s q w b := by
  unfold setBit
  rw [bitAt_setFld _ _ _ _ _ _ _ _ _ (Nat.le_refl _) hc]
  by_cases hb : b = c
  · subst hb; cases v <;> simp [b2n]
  · have : ¬ (c ≤ b ∧ b ≤ c) := by omega
    simp [this, hb]
theorem rd_setFld_key (s : State) (p o hi lo n q w : Nat) (h : q * 4096 + w ≠ p * 4096 + o) : rd (setFld s p o hi lo n) q w = rd s q w :=
  rd_wr_key s p o q w _ h
theorem rd_setBit_key (s : State) (p o b q w : Nat) (v : Bool) (h : q * 4096 + w ≠ p * 4096 + o) : rd (setBit s p o b v) q w = rd s q w :=
  rd_wr_key s p o q w _ h
theorem rd_addSat_key (s : State) (p o hi lo k q w : Nat) (h : q * 4096 + w ≠ p * 4096 + o) : rd (addSat s p o hi lo k) q w = rd s q w :=
  rd_wr_key s p o q w _ h
theorem rd_inc_key (s : State) (p o q w : Nat) (h : q * 4096 + w ≠ p * 4096 + o) : rd (inc s p o) q w = rd s q w :=
  rd_wr_key s p o q w _ h

/-! ### Interrupt sources (R47, R66) -/

/-- A capture writes the four words from 0x038 of its page at most. -/
theorem rd_capture (s : State) (p src sev cell reason detail q w : Nat)
    (h : q * 4096 + w < p * 4096 + 0x038 ∨ p * 4096 + 0x044 < q * 4096 + w) :
    rd (capture s p src sev cell reason detail) q w = rd s q w := by
  unfold capture
  split
  · exact rd_addSat_key s p 0x044 15 0 1 q w (by omega)
  · exact (rd_wr_key _ p 0x044 q w _ (by omega)).trans ((rd_wr_key _ p (0x03C + 4) q w _ (by omega)).trans
      ((rd_wr_key _ p 0x03C q w _ (by omega)).trans (rd_wr_key s p 0x038 q w _ (by omega))))
/-- The registers after a source has fired: those of the capture over those with the cause bit set. -/
theorem raise_regs (s : State) (p src reason detail cell : Nat) :
    (raise s p src reason detail cell).regs = (capture (setBit s p 0x020 src true) p src (sevOf s p src) cell reason detail).regs := by
  unfold raise
  dsimp only
  obtain ⟨h, hh⟩ := addHold_only (capture (setBit s p 32 src true) p src (sevOf s p src) cell reason detail)
    (if cellSource p src = true then (scopeKey p, cell + 1) else (scopeKey p, 0))
  split
  · rw [hh]
  · split <;> rfl
theorem rd_raise_capture (s : State) (p src reason detail cell q w : Nat) : rd (raise s p src reason detail cell) q w =
    rd (capture (setBit s p 0x020 src true) p src (sevOf s p src) cell reason detail) q w := by
  unfold rd
  rw [raise_regs]
/-- A source that fires writes INT_CAUSE and the capture words of its page, no other register. -/
theorem rd_raise (s : State) (p src reason detail cell q w : Nat)
    (h : q * 4096 + w < p * 4096 + 0x020 ∨ p * 4096 + 0x044 < q * 4096 + w) :
    rd (raise s p src reason detail cell) q w = rd s q w := by
  rw [rd_raise_capture, rd_capture]
  · rw [rd_setBit_key]
    rcases h with h | h <;> omega
  · rcases h with h | h
    · exact Or.inl (Nat.lt_of_lt_of_le h (Nat.add_le_add_left (by decide) _))
    · exact Or.inr h
/-- The source's bit in INT_CAUSE is set, the other bits stay. -/
theorem bitAt_raise_cause (s : State) (p src reason detail cell b : Nat) (h : src < 32) :
    bitAt (raise s p src reason detail cell) p 0x020 b = (decide (b = src) || bitAt s p 0x020 b) := by
  have e : rd (raise s p src reason detail cell) p 0x020 = rd (setBit s p 0x020 src true) p 0x020 := by
    exact (rd_raise_capture s p src reason detail cell p 0x020).trans
      (rd_capture (setBit s p 0x020 src true) p src (sevOf s p src) cell reason detail p 0x020 (by omega))
  have f : bitAt (raise s p src reason detail cell) p 0x020 b = bitAt (setBit s p 0x020 src true) p 0x020 b := by
    unfold bitAt; rw [e]
  rw [f, bitAt_setBit _ _ _ _ _ _ _ _ h]
  by_cases hb : b = src <;> simp [hb]

end Sys2Proof.Machine
end

