-- ==== Sys2Proof/Laws/Access.lean ====
section
/-! SUPPORT. What a register write of a requester comes to, once the access goes through; and what it stores. -/

namespace Sys2Proof.Machine

/-- An offset below 4 KiB and its page, from the BAR0 address. -/
theorem addr_page (p o : Nat) (h : o < 4096) : (p * 4096 + o) / 4096 = p := by omega
theorem addr_off (p o : Nat) (h : o < 4096) : (p * 4096 + o) % 4096 = o := by omega
theorem reach_of_opened {s : State} {r : Requester} {p o : Nat} (h : opened s r p o = true) : reach s r = true := by
  simp only [opened, Bool.and_eq_true] at h; exact h.1
theorem accKind_of_opened {s : State} {r : Requester} {p o : Nat} (h : opened s r p o = true) : accKind s r (p * 4096 + o) 4 = 0 := by
  simp only [opened, Bool.and_eq_true, beq_iff_eq] at h; exact h.2
/-- A word write to a register that has a row is stored by its access codes and acted on. -/
theorem putWord_row {p o : Nat} {row : RegRow} (h : regRow p o = some row) (s : State) (r : Requester) (v mask : Nat) :
    putWord s r p o v mask = effect s (storeWord s p o v mask) r p o (rd s p o).toNat
      (if 0x050 ≤ o ∧ o < 0x060 then ((rd s p o).toNat &&& (all32 ^^^ mask)) ||| (v &&& mask)
       else v &&& mask &&& (row.rw ||| row.rws ||| row.w1c ||| row.w1s ||| row.wo)) := by
  simp only [putWord, h]
/-- R50: a 4-byte write that goes through, to a register that no shadow and no lock holds back, takes effect at once. -/
theorem regWrite_opened {s : State} {r : Requester} {p o : Nat} (v : Nat) (ho : o < 4096) (h : opened s r p o = true)
    (hl : lockedOut s r p o = false) (h1 : o ≠ 0xF0C) (hw : (isLow p o && writable p o) = false) (hh : isHigh p o = false) :
    regWrite s r p o v = { putWord s r p o (v % 2 ^ 32) all32 with resp := .done } := by
  have hv : (BitVec.ofNat 64 (v % 2 ^ 32)).toNat % 2 ^ 32 = v % 2 ^ 32 := by
    rw [BitVec.toNat_ofNat, Nat.mod_eq_of_lt (a := v % 2 ^ 32) (b := 2 ^ 64) (Nat.lt_of_lt_of_le (Nat.mod_lt _ (by decide)) (by decide)),
      Nat.mod_mod]
  have hw' : ¬(isLow p o = true ∧ writable p o = true) := by
    intro ⟨a, b⟩; rw [a, b] at hw; cases hw
  have hwr : writeWord s r p o (v % 2 ^ 32) = putWord s r p o (v % 2 ^ 32) all32 := by
    unfold writeWord
    rw [if_neg (by rw [hl]; decide), if_neg (fun x => h1 x.1), if_neg hw', if_neg (by rw [hh]; simp)]
  unfold regWrite busWrite
  rw [if_neg (by rw [reach_of_opened h]; decide)]
  dsimp only
  rw [if_neg (by rw [accKind_of_opened h]; decide), addr_page p o ho, addr_off p o ho]
  unfold writeWords
  dsimp only
  rw [if_pos (by decide), hv, hwr]
/-- Below the window no lock holds a write back. -/
theorem lockedOut_low (s : State) (r : Requester) (p o : Nat) (h : o < 0xF00) : lockedOut s r p o = false := by
  simp [lockedOut]; omega
/-- The word stored by the access codes (R42). -/
theorem rd_storeWord {p o : Nat} {row : RegRow} (h : regRow p o = some row) (s : State) (v mask : Nat) :
    rd (storeWord s p o v mask) p o = BitVec.ofNat 32 (storedWord row (rd s p o).toNat v mask
      (decide (kindOf p = some .intc) && decide (0x140 ≤ o) && decide (o < 0x180))) := by
  simp only [storeWord, h]
  split <;> exact rd_wr_same _ _ _ _
/-- A word write touches no other register. -/
theorem rd_storeWord_other (s : State) (p o q w v mask : Nat) (h : q * 4096 + w ≠ p * 4096 + o) :
    rd (storeWord s p o v mask) q w = rd s q w := by
  unfold storeWord
  split
  · rfl
  · split <;> exact rd_wr_key _ _ _ _ _ _ h

/-! ### The access codes of a row (R42) -/

/-- No bit of a row carries two of the access codes that decide what a write leaves. -/
def codesApart (r : RegRow) : Bool :=
  (r.rw ||| r.rws) &&& (r.w1c ||| r.w1s) == 0 && r.w1c &&& r.w1s == 0
theorem codesApart_blockRows (i : PageInfo) : (blockRows i).all codesApart = true := by
  obtain ⟨k, _, _, _, _, _, n⟩ := i
  cases k <;> first
    | (simp only [blockRows]; decide +kernel)
    | (simp only [blockRows, mgtRows]; split <;> decide +kernel)
    | (simp [blockRows, regionRows, rowsRO, rowsRW, rowRC, codesApart]; done)
    | simp [blockRows, sqRows, cqRows, wideRW, wideRO, rowRW, rowRO, rowRC, codesApart]
theorem codesApart_findRow {rows : List RegRow} {o : Nat} {row : RegRow} (h : rows.all codesApart = true)
    (hf : findRow rows o = some row) : codesApart row = true :=
  List.all_eq_true.mp h row (List.mem_of_find?_eq_some hf)
theorem codesApart_regRow {p o : Nat} {row : RegRow} (h : regRow p o = some row) : codesApart row = true := by
  unfold regRow at h
  split at h
  · cases h
  · repeat' split at h
    all_goals first
      | cases h
      | exact codesApart_findRow (codesApart_blockRows _) h
      | exact codesApart_findRow (by decide) h

end Sys2Proof.Machine
end

