-- ==== Sys2Proof/WellFormed.lean ====
section
/-! DEFINITION. Well-formed commands: operands that name something on this part. The meanings are total all the same: a command
whose operands name nothing changes nothing, or is answered as the access rules say. -/

namespace Sys2Proof

/-- R18: line ports 0 to 63, field ports 64 to 103, management ports 104 and 105. -/
def macPortNo (p : Nat) : Bool := decide (p ≤ 105)
def fieldPortNo (p : Nat) : Bool := decide (64 ≤ p) && decide (p ≤ 105)
def t1sPort (p : Nat) : Bool := decide (96 ≤ p) && decide (p ≤ 103)
def managementPort (p : Nat) : Bool := decide (104 ≤ p) && decide (p ≤ 105)
/-- R234: the ports that have egress queues. -/
def queuePort (p : Nat) : Bool := decide (p ≤ 105) || (decide (112 ≤ p) && decide (p ≤ 118))
/-- A queue index is port * 8 + class (R228). -/
def queueOk (q : Nat) : Bool := queuePort (q / 8)
/-- LN0 to LN3 are pipelines 0 to 3, the field pipeline is 4. -/
def pipelineNo (k : Nat) : Bool := decide (k ≤ 4)
/-- R122: forty sense pairs. -/
def pairNo (k : Nat) : Bool := decide (k < 40)
/-- R314: spaces 0 to 7 for the classes, 8 for LEARN and CTRL. -/
def spaceOk (c : Nat) : Bool := decide (c ≤ 8)
/-- R26: domains 0 to 175 are switched. -/
def domainNo (d : Nat) : Bool := decide (d < 176)
/-- R38: the ten region windows. -/
def pageOk (p : Nat) : Bool := decide (p < 10 * 4096)
/-- R40: 4 or 8 bytes, naturally aligned. -/
def accessOk (a size : Nat) : Bool := (size == 4 || size == 8) && a % size == 0
/-- R55: 4 bytes, aligned. -/
def aliasOk (a size : Nat) : Bool := size == 4 && a % 4 == 0
/-- R406: at most 240 body bytes. -/
def bodyOk (b : List Byte) : Bool := decide (b.length ≤ 240)
def bankOk (b : BankTarget) : Bool :=
  match b with
  | .rules k => pipelineNo k.toNat
  | .meters k => pipelineNo k.toNat
  | .gates p => macPortNo p.toNat
def scopeOk (r : ResetScope) : Bool :=
  match r with
  | .cell p => pageOk p.toNat
  | .block g _ _ => decide (g.toNat ≤ 9)
  | .region g => decide (g.toNat ≤ 9)
  | .warm => true
  | .cold => true
/-- R93: the identity copy holds 384 bytes. -/
def identityOk (l : List Byte) : Bool := decide (l.length ≤ 384)
/-- R494: 1 to 60 minutes. -/
def minutesOk (m : Nat) : Bool := decide (1 ≤ m) && decide (m ≤ 60)
/-- R7: a frame has its two addresses and its EtherType. -/
def frameOk (rx : RxEvent) : Bool :=
  match rx with
  | .whole b _ _ _ => decide (14 ≤ b.length)
  | .begins b => decide (14 ≤ b.length)
  | .ends _ _ _ _ => true

/-- The operands of a command name something. -/
def Instr.wf (i : Instr) : Bool :=
  match i with
  | .flitReceive _ _ _ _ => true
  | .d2dRetrain => true
  | .d2dRetrainDone => true
  | .d2dLinkDown => true
  | .d2dLinkReturn => true
  | .ckRefLost => true
  | .ckRefRelock => true
  | .holdoverExpire => true
  | .ckPcieLoss => true
  | .powerRequest _ page _ _ => pageOk page.toNat
  | .powerTransitionStart dom => domainNo dom.toNat
  | .powerTransitionDone dom => domainNo dom.toNat
  | .pgEnable _ page _ => pageOk page.toNat
  | .pgDrain _ page _ => pageOk page.toNat
  | .pgIsolate _ page _ => pageOk page.toNat
  | .softReset _ page => pageOk page.toNat
  | .resetComplete scope => scopeOk scope
  | .holdRelease _ page => pageOk page.toNat
  | .perstN _ speed width =>
      decide (1 ≤ speed.toNat ∧ speed.toNat ≤ 5) && [1, 2, 4, 8].contains width.toNat
  | .pwrWarm _ _ => true
  | .registerWrite r addr size _ e sp => e && accessOk addr.toNat size && (sp == .bar0 || r == .host)
  | .lowWordRead r addr size e sp => e && accessOk addr.toNat size && (sp == .bar0 || r == .host)
  | .highWordRead _ addr size e => e && accessOk addr.toNat size
  | .lowWordWrite _ _ _ e => e
  | .highWordWrite _ _ _ e => e
  | .accessTimeout _ _ _ => true
  | .aliasWrite _ addr size _ e => e && aliasOk addr.toNat size
  | .aliasRead _ addr size e => e && aliasOk addr.toNat size
  | .cfgParityScan page => pageOk page.toNat
  | .cfgParInj _ page _ _ => pageOk page.toNat
  | .intInj _ page _ => pageOk page.toNat
  | .intcArm _ _ _ => true
  | .tblRead _ page => pageOk page.toNat
  | .tblWrite _ page => pageOk page.toNat
  | .tblInvalidate _ page => pageOk page.toNat
  | .tblCmdDone page => pageOk page.toNat
  | .tblLockAcquire _ page => pageOk page.toNat
  | .tblLockRelease _ page => pageOk page.toNat
  | .tblLockForceRelease _ page => pageOk page.toNat
  | .snapRequest _ page _ => pageOk page.toNat
  | .snapshotDone page => pageOk page.toNat
  | .portEnable _ _ _ => true
  | .portDisable _ _ => true
  | .linkUp port _ _ _ => macPortNo port.toNat
  | .linkFault port _ => macPortNo port.toNat
  | .linkHoldExpire port => macPortNo port.toNat
  | .frameReceive port rx => macPortNo port.toNat && frameOk rx
  | .macControlReceive port _ => macPortNo port.toNat
  | .pauseExpire port _ => macPortNo port.toNat
  | .pauseRefresh port => macPortNo port.toNat
  | .lpiEnter port => macPortNo port.toNat
  | .lpiWake port => macPortNo port.toNat
  | .eyeScanStart _ _ _ => true
  | .eyeScanDone _ _ _ => true
  | .laneAdaptNow _ _ _ _ => true
  | .moduleInsert _ => true
  | .moduleResetRelease _ => true
  | .moduleIdentify _ identity _ _ _ => identityOk identity
  | .moduleReadyTimeout _ => true
  | .moduleDatapathActive _ => true
  | .moduleInterrupt _ _ => true
  | .moduleRemove _ => true
  | .moduleRetry _ _ => true
  | .modXfer _ _ _ => true
  | .modXferDone _ _ data => decide (data.length ≤ 128)
  | .fieldPortEnable _ port _ => fieldPortNo port.toNat
  | .collision port _ => t1sPort port.toNat
  | .backoffExpire port => t1sPort port.toNat
  | .plcaActive port => t1sPort port.toNat
  | .plcaTxOpportunity port => t1sPort port.toNat
  | .sgmiiControlWord port _ _ => managementPort port.toNat
  | .mdioAddress _ _ => true
  | .mdioWrite _ _ => true
  | .mdioRead _ _ => true
  | .mdioReadIncrement _ _ => true
  | .mdioDone _ => true
  | .senseSample pair _ _ _ => pairNo pair.toNat
  | .echoTestStart pair => pairNo pair.toNat
  | .echoTestDone pair _ => pairNo pair.toNat
  | .clampEvent pair _ _ => pairNo pair.toNat
  | .senseCalibrate pair => pairNo pair.toNat
  | .senseCalAll _ => true
  | .senseCalDone pair _ => pairNo pair.toNat
  | .cableDiagStart _ _ => true
  | .cableDiagDone _ _ => true
  | .senseHoldReturn pair => pairNo pair.toNat
  | .senseRelease _ pair => pairNo pair.toNat
  | .pipelinePass pipe => pipelineNo pipe.toNat
  | .recircIssue pipe => pipelineNo pipe.toNat
  | .recircStale pipe => pipelineNo pipe.toNat
  | .rulSwapGo _ pipe => pipelineNo pipe.toNat
  | .swapGuard _ => true
  | .bankRetired bank => bankOk bank
  | .tableParityScan page => pageOk page.toNat
  | .walkerVisit pipe => pipelineNo pipe.toNat
  | .fdbFlush _ pipe _ => pipelineNo pipe.toNat
  | .fdbFlushDone pipe => pipelineNo pipe.toNat
  | .learnEventApply pipe => pipelineNo pipe.toNat
  | .learnResync pipe => pipelineNo pipe.toNat
  | .grant _ _ size rivals => decide (0 < size) && rivals.all (fun r => decide (0 < r.2))
  | .handover _ _ _ _ => true
  | .addref _ _ _ k => decide (0 < k)
  | .drop _ _ _ => true
  | .release _ _ _ => true
  | .fence _ _ _ => true
  | .unfence _ _ _ => true
  | .queueAdmission => true
  | .quotaWrite _ _ _ _ _ => true
  | .spillWrite _ => true
  | .spillRefill queue => queueOk queue.toNat
  | .bankFenceRequest _ => true
  | .bankFenceDone _ => true
  | .frameReady queue _ => queueOk queue.toNat
  | .seqSkip queue => queueOk queue.toNat
  | .schedulerSelect port => queuePort port.toNat
  | .transmitComplete port => queuePort port.toNat
  | .gateEntryChange port => macPortNo port.toNat
  | .gatSwapGo _ port => macPortNo port.toNat
  | .mtrSwapGo _ pipe => pipelineNo pipe.toNat
  | .custodyEnApply queue => queueOk queue.toNat
  | .settleExpire queue => queueOk queue.toNat
  | .replayAdmit queue => queueOk queue.toNat
  | .expiryInspect queue => queueOk queue.toNat
  | .custodyFlush _ _ => true
  | .pfwNAccept => true
  | .custodyHoldEnter _ => true
  | .custodyHoldAbandon _ => true
  | .checkpointJournal => true
  | .journalNow _ => true
  | .holdExitTimer => true
  | .rebuildPhaseDone => true
  | .channelDrain _ _ => true
  | .pageMigrate _ => true
  | .drainDone => true
  | .drainAbort _ => true
  | .channelReadmit _ _ _ _ => true
  | .readmitDone => true
  | .spanPairEnable _ _ => true
  | .spanLinkEnable _ _ _ => true
  | .helloSend _ => true
  | .helloReceive _ _ _ _ => true
  | .authOffer _ _ _ _ => true
  | .authProof _ _ => true
  | .authTimeout _ => true
  | .helloDead _ => true
  | .spanDataReceive _ _ _ => true
  | .ackTimer _ space => spaceOk space.toNat
  | .spanAckReceive _ space _ _ => spaceOk space.toNat
  | .rtoExpire _ space => spaceOk space.toNat
  | .spanHandover _ _ _ _ => true
  | .spanLearnReceive _ _ _ => true
  | .learnFrameFlush => true
  | .spanTimeExchange _ => true
  | .bpduRelay _ port _ => macPortNo port.toNat
  | .splitHoldExpire => true
  | .sessionKeepExpire => true
  | .tbSet _ _ => true
  | .tbSetNow _ _ => true
  | .tbStep _ _ => true
  | .tbSlew _ _ => true
  | .tbSlewAbort _ _ => true
  | .tbFreqWrite _ _ _ => true
  | .tbChangeRelease _ => true
  | .slewEnd _ => true
  | .servoSample _ _ _ => true
  | .servoHoldover _ => true
  | .alignmentMarker _ => true
  | .convert _ _ => true
  | .timeCapture _ => true
  | .tioCapture _ _ => true
  | .tioCapPop _ _ => true
  | .tioOutputEdge _ => true
  | .synceRelease _ => true
  | .liftArm _ _ _ => true
  | .liftDispatch _ => true
  | .liftLaunch _ => true
  | .liftCancel _ _ => true
  | .liftAnnounce _ _ => true
  | .announce _ => true
  | .commit _ => true
  | .committed _ => true
  | .reject _ _ => true
  | .cancel _ _ => true
  | .cancelled _ _ => true
  | .commitDeadline _ => true
  | .bscDonePop _ => true
  | .serviceLoad _ _ => true
  | .serviceLoadDone _ => true
  | .serviceStart _ _ => true
  | .serviceMigrate _ _ => true
  | .migrationDone _ => true
  | .serviceRelease _ _ => true
  | .serviceMessage msg => bodyOk msg.body
  | .engineWatchdog _ _ => true
  | .engineFault _ _ _ => true
  | .engineRestart _ _ _ => true
  | .blockHeld _ => true
  | .ping msg => bodyOk msg.body
  | .stats msg => bodyOk msg.body
  | .configGet msg => bodyOk msg.body
  | .configSet msg => bodyOk msg.body
  | .resync msg => bodyOk msg.body
  | .partnerSync msg => bodyOk msg.body
  | .linkInfo msg => bodyOk msg.body
  | .authRetry msg => bodyOk msg.body
  | .instanceSet msg => bodyOk msg.body
  | .datasetGet msg => bodyOk msg.body
  | .queueInfo msg => bodyOk msg.body
  | .indexCheck msg => bodyOk msg.body
  | .mepSet msg => bodyOk msg.body
  | .measureStart msg => bodyOk msg.body
  | .oamCcmTimer _ _ => true
  | .subscribe msg => bodyOk msg.body
  | .unsubscribe msg => bodyOk msg.body
  | .telemPeriod _ => true
  | .diagSchedule msg => bodyOk msg.body
  | .segmentNodes msg => bodyOk msg.body
  | .bridgeSet msg => bodyOk msg.body
  | .portStateGet msg => bodyOk msg.body
  | .neighboursGet msg => bodyOk msg.body
  | .caSet msg => bodyOk msg.body
  | .caStatus msg => bodyOk msg.body
  | .footwayStatus msg => bodyOk msg.body
  | .inspectRequest msg => bodyOk msg.body
  | .inspectCancel msg => bodyOk msg.body
  | .cageInfo msg => bodyOk msg.body
  | .appSet msg => bodyOk msg.body
  | .sign _ _ _ => true
  | .verifyPeer _ offset length _ _ _ => decide (offset + length ≤ 65536)
  | .sqDoorbell _ _ => true
  | .rcbProdRead _ _ => true
  | .txEntry _ _ _ => true
  | .rxEntry _ _ => true
  | .svcEntry _ _ => true
  | .copyEntry _ _ => true
  | .hostFrameDeliver _ => true
  | .rxWaitExpire _ => true
  | .tsTimeout _ => true
  | .cqDoorbell _ _ _ => true
  | .cqReread _ _ => true
  | .cqModTimer _ => true
  | .ringEnable _ _ _ => true
  | .ringDisable _ _ _ => true
  | .functionLevelReset => true
  | .busMasterDisable _ _ => true
  | .copyExecute _ => true
  | .copyReadResponse _ _ _ => true
  | .scratchResize _ _ => true
  | .scratchDone => true
  | .captureEnable _ _ _ => true
  | .captureArm _ _ => true
  | .captureTrigger _ _ => true
  | .captureFreeze _ _ => true
  | .capturePostDone _ => true
  | .chipWatchdog => true
  | .watchdogKick _ => true
  | .injNonceRead _ => true
  | .injKey _ _ => true
  | .injUnlock _ minutes => minutesOk minutes.toNat
  | .injLock _ => true
  | .injUnlockExpire => true
  | .injectSingleBit _ => true
  | .injectDoubleBit _ => true
  | .injectParity _ => true
  | .injectFlitCrc _ => true
  | .injectDramSingle _ => true
  | .injectDramUncorr _ => true
  | .injectEngineStall _ => true
  | .injectLossOfSignal _ => true
  | .injectThermal _ => true
  | .testCtlWrite _ page _ _ => pageOk page.toNat
  | .inspectPrepared _ => true
  | .inspectTestDone _ _ _ => true
  | .inspectDeadline _ => true
  | .failoverSet _ _ => true
  | .footwayCommit _ => true
  | .footwayEnter _ => true
  | .thermalFootway => true
  | .footwayFrame port _ => macPortNo port.toNat
  | .footwayExit _ => true
  | .footwayAutoExit => true
  | .footwayHandover _ => true
  | .quote _ => true
  | .stage _ _ _ => true
  | .select _ => true
  | .bootOk _ => true
  | .spxUpdate _ => true
  | .fwApply _ => true
  | .certRead _ => true
  | .fuseOwner _ => true
  | .debug _ _ _ => true
  | .debugNonce _ => true
  | .secCommandDone => true
  | .bootHostGo _ _ => true
  | .resetNRise => true
  | .resetNFall => true
  | .thermalSample readings _ _ => decide (readings.length = 30)
  | .throttleEnter => true
  | .throttleExit => true
  | .rcRegisterRead _ addr size e => e && accessOk addr.toNat size
  | .plcaInactive port => t1sPort port.toNat
  | .spanRcvCumAnnounce _ _ => true
  | .spanTimeReceive _ _ _ _ _ => true
  | .patrolScrub page => pageOk page.toNat
  | .pcieLinkDown => true
  | .supplyLoss _ => true
  | .bootStageDone _ => true
  | .dimmTrainingDone => true
  | .dramInitDone => true

end Sys2Proof
end

