-- ==== Sys2Proof/Tests/Slice0.lean ====
section
/-! SUPPORT. Tests: an ill-formed command for each check of `Instr.wf`; the numbers of the manual's worked examples; and, for every
statement with hypotheses, concrete states and operands that meet the hypotheses of each of its clauses. -/

open Sys2Proof Sys2Proof.Machine

namespace Sys2Proof.Tests

-- One test after the other: each would otherwise hold a thread of its own while it waits for the kernel.
set_option Elab.async false

/-! ### Commands that `Instr.wf` refuses, one for each check -/

theorem test_wf_mac_port : Instr.wf (.linkUp 106 true false false) = false := by decide
theorem test_wf_field_port : Instr.wf (.fieldPortEnable .host 63 0) = false := by decide
theorem test_wf_t1s_port : Instr.wf (.collision 95 false) = false := by decide
theorem test_wf_management_port : Instr.wf (.sgmiiControlWord 103 0 true) = false := by decide
theorem test_wf_queue_port : Instr.wf (.schedulerSelect 119) = false := by decide
theorem test_wf_queue : Instr.wf (.seqSkip 848) = false := by decide
theorem test_wf_pipeline : Instr.wf (.pipelinePass 5) = false := by decide
theorem test_wf_pair : Instr.wf (.echoTestStart 40) = false := by decide
theorem test_wf_space : Instr.wf (.ackTimer 0 9) = false := by decide
theorem test_wf_domain : Instr.wf (.powerTransitionDone 176) = false := by decide
theorem test_wf_page : Instr.wf (.cfgParityScan 40960) = false := by decide
theorem test_wf_access : Instr.wf (.registerWrite .host 0x104 8 0) = false := by decide
theorem test_wf_alias : Instr.wf (.aliasRead .host 0 8) = false := by decide
theorem test_wf_body : Instr.wf (.ping { service := 1, key := 0, noResp := false, opcode := 0, tag := 0, ring := none, body := List.replicate 241 0 }) = false := by decide +kernel
theorem test_wf_bank : Instr.wf (.bankRetired (.gates 106)) = false := by decide
theorem test_wf_scope : Instr.wf (.resetComplete (.region 10)) = false := by decide
theorem test_wf_identity : Instr.wf (.moduleIdentify 0 (List.replicate 385 0) true) = false := by decide +kernel
theorem test_wf_minutes : Instr.wf (.injUnlock .host 61) = false := by decide
theorem test_wf_frame : Instr.wf (.frameReceive 0 (.begins [1, 2, 3])) = false := by decide
theorem test_wf_transfer : Instr.wf (.modXferDone 0 true (List.replicate 129 0)) = false := by decide +kernel
theorem test_wf_grant : Instr.wf (.grant .pages 0 0) = false := by decide
theorem test_wf_addref : Instr.wf (.addref .pages 0 0 0) = false := by decide
theorem test_wf_verify : Instr.wf (.verifyPeer 0 1 65536 0 true true) = false := by decide
theorem test_wf_sensors : Instr.wf (.thermalSample [] 0 0) = false := by decide

/-! ### States the tests start from -/

/-- Reset, with every domain ON and the host's link up with bus mastering. -/
def S0 : State := { State.reset with doms := [], pcie := { linkUp := true, bme := true } }
/-- The state a command leaves, where it leaves one. -/
def run1 (c : Instr) (s : State) : State := match exec c s with | .next t => t | _ => s
def wreg (s : State) (p o v : Nat) : State := wr s p o (BitVec.ofNat 32 v)
/-- A frame of `n` bytes: addresses and EtherType 0x0800, then zeros. -/
def fr (n : Nat) : List Byte := [0x10, 0, 0, 0, 0, 2, 0x10, 0, 0, 0, 0, 1, 0x08, 0] ++ List.replicate (n - 14) 0
def F1 : Frame := { id := 1, bytes := fr 60, ingress := 0, ts := 0 }
def good : LinkCond := { signal := true, lock := true, localFault := false, remoteFault := false, hiBer := false }
/-- Port `port` with a good link in state `st`. -/
def linkAt (port st : Nat) : State := setLink' (setCond S0 port good) port st
def upAt (port : Nat) : State := linkAt port 2
/-- A table entry from words (index, value) of the table window. -/
def words (l : List (Nat × Nat)) : Entry := BitVec.ofNat 1920 ((l.map (fun e => e.2 * 2 ^ (32 * e.1))).sum)

/-! ### The manual's worked examples -/

/-- Chapter 01: the 400GbE port on lane 36 lives in LN2: SDQ1, MAC group domain 32, pipeline domain 34, COR.TMS2 domain 85. -/
theorem test_port_36 : sdqPage 9 = 0x2002 ∧ macPage 36 = 0x2014 ∧ pageDom (macPage 36) = 32 ∧ pageDom (iplPage 2) = 34 ∧
    pageDom (tmsPage 36) = 85 := by decide +kernel
/-- Chapter 02: the alias of bit 31 of INT_MASK on the TIM header page is 0x1200_04FC, and a write of 1 there sets that bit alone. -/
theorem test_alias_example : rd (run1 (.aliasWrite .host (BitVec.ofNat 29 0x120004FC) 4 1) S0) 0x9000 0x024 =
    rd S0 0x9000 0x024 ||| 0x80000000#32 := by decide +kernel
/-- Chapter 02: the host's high word comes from its own shadow; engine block 5's read in between does not touch it. -/
theorem test_shadow_example :
    (run1 (.highWordRead .host 0x9000040#28 4) (run1 (.lowWordRead (.engine 5) 0x900003C#28 4)
      (run1 (.lowWordRead .host 0x900003C#28 4) (wr (wr S0 0x9000 0x3C 0x8C4A2E10) 0x9000 0x40 1)))).resp = .value 1 := by decide +kernel
/-- Chapter 03: 2,000 bytes at port 21 with max_frame 1,528: 1,528 are kept, md.trunc is set and source 7 is raised. -/
theorem test_truncation_example :
    (let t := run1 (.frameReceive 21 (.whole (fr 1996) true false true)) (setFld (upAt 21) (macPage 21) 0x104 13 0 1528)
     ((pipeOf t 1).arrivals.map (fun a => (a.frame.bytes.length, a.frame.trunc)), bitAt t (macPage 21) 0x020 7)) = ([(1528, true)], true) := by
  decide +kernel
/-- Chapter 04: 531 samples at vf 676 are 700 m. -/
theorem test_fault_dist_example : faultDist 531 676 = 700 := by decide +kernel
/-- Chapter 05: rule 120 of bank 0, word by word, matches the GOOSE frame (APPID 0x0102, VID 10) and carries tc 7, counter 2,000 and
stream 5. -/
theorem test_goose_rule_example :
    (let goose : List Byte := [0x01, 0x0C, 0xCD, 0x01, 0x00, 0x10, 0x10, 0, 0, 0, 0, 1, 0x81, 0, 0x80, 0x0A, 0x88, 0xB8, 0x01, 0x02] ++
       List.replicate 60 0
     let s := tset S0 (rulPage 1) 0 0 120 (words [(0, 0x000A0000), (12, 0x0FFF000F), (1, 0x100), (13, 0x100), (2, 0xCD010010),
       (14, 0xFFFFFFFF), (3, 0x10C), (15, 0xFFFF), (5, 0x010288B8), (17, 0xFFFFFFFF), (25, 0xA100000F), (26, 0x0001600F), (27, 0x80000000)])
     (ruleFind s 1 0 (ruleKey (parse (parseCfg s 1) goose) goose 20 0 3 false)).map (fun r =>
       (r.1, bitsOf r.2 35 33, bitsOf r.2 74 57, r.2.testBit 77, bitsOf r.2 89 78))) = some (120, 7, 2000, true, 5) := by decide +kernel
/-- Chapter 06: the RTU's key folds to bucket 61,186; 10.20.7.33/32 and 10.20.7.0/24 fold to 0x0D15 and 0x0D0C. -/
theorem test_fold_examples : fdbBucket 0 0 (fdbKey 10 0x001BC5042A17) = 61186 ∧ lpmFold false 0x0A140721 32 = 0x0D15 ∧
    lpmFold false 0x0A140700 24 = 0x0D0C := by decide +kernel
/-- Chapter 07: at rest F is 438,272; a 1,500-byte frame takes 6 granules and a record of 1,520 bytes. -/
theorem test_pool_example : freeShared S0 .granules = 438272 ∧ granulesOf { F1 with bytes := fr 1496 } = 6 ∧
    recSize { F1 with bytes := fr 1496 } = 1520 := by decide +kernel
/-- Chapter 08: the header words of the gate list, and 125.6 ns for a 1,518-byte frame under MACsec with SCI at 100GbE. -/
theorem test_gate_example : gateHeader (words [(0, 0x6553F100), (3, 0x0003D090), (4, 0x80002002)]) (fun i => [10000, 240000].getD i 0) =
    some { base := 1700000000000000000, cycle := 250000, tb := 2, intervals := [10000, 240000] } ∧ 
    headWire (tset (setBit S0 (msecPage 0) 0x100 8 true) (msecPage 0) 0 0 0 (words [(2, 0x518), (3, 0x80000000)])) 8 { F1 with bytes := fr 1514 } =
      125600 * 100000000 / 1000 := by
  decide +kernel
/-- Chapter 09: entry 0x4624_EA01 of queue 29 is 7 days and replay share 70. -/
theorem test_custody_entry_example : (let s := tset S0 cstPage 0 0 29 0x4624EA01; (ageLimit s 29, efld (tget s cstPage 0 0 29) 30 24)) =
    (604800 * 10 ^ 9, 70) := by decide +kernel
/-- θ in ns and y in 1/256 ppb of `n` samples a second apart; each θ is the one before plus 2,000 + y ns. -/
def servoRun : Nat → Nat → Int → State → List (Int × Int)
  | 0, _, _, _ => []
  | n + 1, t, th, s =>
    let u := servoTake { s with baseCount := BitVec.ofNat 96 (t * 153600000000) } 1 (th * 65536)
    let y := ((tbOf u 1).f + 128) / 256
    (th, y) :: servoRun n (t + 1) (th + 2000 + y) u
/-- Chapter 11: a servo converging from 40 µs: θ in ns and y in ppb of the first six samples. -/
theorem test_servo_example : servoRun 6 1 40000 (setFld (wreg S0 (tbPage 1) 0x100 5) (tbPage 1) 0x104 6 4 1) =
    [(40000, 0), (42000, -33500), (10500, -9875), (2625, -3969), (656, -2656), (0, -2164)] := by decide +kernel
/-- Chapter 12: entry 100's words: C on TB2, gate swap of page 0x5308, late_discard, coord and irq, group 7. -/
theorem test_lift_entry_example : (let e := words [(0, 0x6553F2F4), (3, 0x00070E42), (4, 0x5308), (11, 0x80000000)]
    (liftInst e, liftTb e, liftAction e, ebit e 105 && ebit e 106 && ebit e 107, liftGroup e, liftTarget e, ebit e 383)) =
    (1700000500 * 10 ^ 9, 2, 4, true, 7, 0x5308, true) := by decide +kernel
/-- Chapter 13: SVC_LOAD 0x8000_0338 is block 56, slot 3 and go. -/
theorem test_service_load_example : (run1 (.serviceLoad .host 0x80000338) (tset S0 secPage 1 0 3 (BitVec.ofNat 1920 (1 + 2 ^ 40)))).svcOp =
    some (.load 56 3) := by decide +kernel
/-- SQ 5 of chapter 14: 256 slots, its cons at 0xFFFF_FFF8, a read of prod under way. -/
def sq5 : State := setSq (wreg S0 (sqPage 5) 0x11C 0xFFFFFFF8) 5 { on := true, typ := 0, size := 256, cq := 5, reading := true }
/-- Chapter 14: prod 0x70 is 120 slots on; 0x170 would be 376 and halts the host path with cause 2, ring 5, index 0xFFFF_FFF8. -/
theorem test_index_wrap_example : slotsLeft (run1 (.rcbProdRead 5 (.ok 0x70)) sq5) 5 = 120 ∧
    rd (run1 (.rcbProdRead 5 (.ok 0x170)) sq5) rngPage 0x104 = 0x00050005 ∧
    rd (run1 (.rcbProdRead 5 (.ok 0x170)) sq5) rngPage 0x108 = 0xFFFFFFF8 := by decide +kernel
/-- Chapter 15: xform 0x0008_407A extracts 8 of 72-byte frames' 4-byte values; 4,000 frames become 128,000 bytes. 287,744 bytes hold
3,996 whole frames, and the last byte written of them is 127,983. -/
theorem test_xform_example : (let x := xformOf 0x0008407A; (x.frame, x.frames 288000, x.dstLen 288000, x.ready 288000 287744,
    (x.frameOffs 288000 3995).getLast?, x.srcOff 288000 127983)) =
    (72, 4000, 128000, 3996, some 127983, some (8 + 8 * 7 + 72 * 3995 + 3)) := by decide +kernel
/-- Chapter 17: ports 8, 12 and 64 keep the footway at 18.0 W. -/
theorem test_footway_power_example : fwPower (tset (tset (tset S0 fwPage 0 0 0 0x108) fwPage 0 0 1 0x10C) fwPage 0 0 2 0x140) = 180 := by
  decide +kernel
/-- An empty queue: one step is one CK_TIME cycle (log 1). -/
theorem test_idle_step : (match step S0 with | .next t => t.baseCount | _ => 0) = 256 := by decide +kernel

/-! ### Witnesses: the queue of commands and what follows every command -/

theorem witness_StepRunsTheFrontCommand : ({ S0 with pending := [.ckPcieLoss] } : State).pending = .ckPcieLoss :: [] := rfl
theorem witness_IdleStepAdvancesBaseCount : S0.pending = [] := rfl
theorem witness_CommandsServedInOrder : 2 ≤ ({ S0 with pending := [.ckPcieLoss, .ckRefLost] } : State).pending.length := by decide
theorem witness_NoMessageIsOwed : ∃ t, MsiSettled State.reset ∧ step State.reset = .next t :=
  ⟨_, fun h => absurd h (by decide +kernel), rfl⟩
theorem witness_IsolatedBlocksHoldNoLock : ∃ t, LocksLive S0 ∧ step S0 = .next t := by
  refine ⟨_, fun p k h => ?_, rfl⟩
  have all : ∀ j < 64, isolated S0 (ebkPage j) = false := by decide +kernel
  refine all k ?_
  generalize (rd S0 p 0xF0C).toNat = v at h
  unfold lockBlock at h
  split at h
  · have e := Option.some.inj h; omega
  · exact absurd h (by simp)
theorem witness_QuietCommandsOnlySignal : Quiet S0 := by refine ⟨rfl, rfl, rfl, rfl, rfl, rfl, rfl, rfl, ?_, ?_⟩ <;> decide +kernel

theorem last_within (l : List Nat) (n : Nat) (h : l.getLast?.all (fun b => decide (b + 3072 ≤ n)) = true) :
    ∀ b, l.getLast? = some b → b + 3072 ≤ n := by
  intro b hb; rw [hb] at h; simpa using h
theorem bsc_words_open (o : Nat) (h1 : o < 0xF40) (h2 : 0xF00 ≤ o) (h3 : o % 4 = 0) : opened S0 .host bscPage o = true := by
  have h : ∀ k < 16, opened S0 .host bscPage (0xF00 + 4 * k) = true := by decide +kernel
  have e : o = 0xF00 + 4 * ((o - 0xF00) / 4) := by omega
  rw [e]; exact h _ (by omega)

/-! ### Witnesses: structure -/

namespace Structure


/-- States and operands that meet the hypotheses of each clause of DieToDieLink. -/
theorem witness_DieToDieLink :
    (∃ (s : State) (seq : BitVec 16), (s.d2d.st = .up ∨ (s.d2d.st = .replay ∧ s.d2d.repFld = true)) ∧ seq = s.d2d.expToCor) ∧
    (∃ (s : State) (seq : BitVec 16), (s.d2d.st = .up ∨ (s.d2d.st = .replay ∧ s.d2d.repCor = true)) ∧ seq = s.d2d.expToFld) ∧
    (∃ (s : State) (seq : BitVec 16), s.d2d.st = .replay ∧ s.d2d.repFld = false ∧ seq = s.d2d.expToCor) ∧
    (∃ (s : State) (seq : BitVec 16) (ok : Bool), (s.d2d.st = .up ∨ s.d2d.st = .replay) ∧ s.d2d.repCor = false ∧ (ok = false ∨ seq ≠ s.d2d.expToCor)) ∧
    (∃ (s : State) (seq : BitVec 16) (ok : Bool), (s.d2d.st = .up ∨ s.d2d.st = .replay) ∧ s.d2d.repFld = false ∧ (ok = false ∨ seq ≠ s.d2d.expToFld)) ∧
    (∃ (s : State) (seq : BitVec 16) (ok : Bool), s.d2d.st = .replay ∧ s.d2d.repCor = true ∧ (ok = false ∨ seq ≠ s.d2d.expToCor)) ∧
    (∃ (s : State) (seq : BitVec 16) (ok : Bool), s.d2d.st = .replay ∧ s.d2d.repFld = true ∧ (ok = false ∨ seq ≠ s.d2d.expToFld)) ∧
    (∃ (s : State), s.d2d.st = .replay ∧ (8 ≤ s.d2d.fails ∨ 8 ≤ s.d2d.failsFld)) ∧
    (∃ (s : State), s.d2d.st = .retrain) ∧
    (∃ (s : State), s.d2d.st = .retrain) ∧
    (∃ (s : State), s.d2d.st = .down) :=
  ⟨⟨{ S0 with d2d := { st := .replay, repFld := true, repCor := true, fails := 7 } }, 0, by decide +kernel⟩,
   ⟨{ S0 with d2d := { expToFld := 65535 } }, 65535, by decide +kernel⟩,
   ⟨{ S0 with d2d := { st := .replay, repCor := true, fails := 3, expToCor := 65535 } }, 65535, by decide +kernel⟩,
   ⟨S0, 0, false, by decide +kernel⟩,
   ⟨S0, 5, true, by decide +kernel⟩,
   ⟨{ S0 with d2d := { st := .replay, repCor := true, fails := 7 } }, 1, true, by decide +kernel⟩,
   ⟨{ S0 with d2d := { st := .replay, repFld := true, failsFld := 7 } }, 0, false, by decide +kernel⟩,
   ⟨{ S0 with d2d := { st := .replay, failsFld := 8 } }, by decide +kernel⟩,
   ⟨{ S0 with d2d := { st := .retrain, fails := 8 } }, by decide +kernel⟩,
   ⟨{ S0 with d2d := { st := .retrain, fails := 8 } }, by decide +kernel⟩,
   ⟨{ S0 with d2d := { st := .down } }, by decide +kernel⟩⟩

/-- States and operands that meet the hypotheses of each clause of ReferenceClock. -/
theorem witness_ReferenceClock :
    (∃ (s : State), bitAt s pwrPage 0x108 0 = false) ∧
    (∃ (s : State), bitAt s pwrPage 0x108 1 = true) ∧
    (∃ (s : State), bitAt s pwrPage 0x108 1 = true ∧ s.mode = .run) :=
  ⟨⟨S0, by decide +kernel⟩,
   ⟨run1 .ckRefLost S0, by decide +kernel⟩,
   ⟨run1 .ckRefLost S0, by decide +kernel⟩⟩

/-- States and operands that meet the hypotheses of each clause of PcieLinkAndHostReset. -/
theorem witness_PcieLinkAndHostReset :
    (∃ (s : State), s.mode = .run) ∧
    (∃ (s : State), s.mode = .run) ∧
    (∃ (s : State), s.mode = .run ∧ s.pcie.linkUp = true ∧ domOn s 170 = true) ∧
    (∃ (s : State), s.pcie.linkUp = true ∧ domOn s 170 = true ∧ (∀ e ∈ s.cqs, (cqRing s e.1).held = [] ∧ e.2.readDue = false) ∧ (∀ e ∈ s.sqs, e.2.readDue = false)) :=
  ⟨⟨S0, by decide +kernel⟩,
   ⟨S0, by decide +kernel⟩,
   ⟨S0, by decide +kernel⟩,
   ⟨S0, by decide +kernel⟩⟩

/-- States and operands that meet the hypotheses of each clause of PowerTransitions. -/
theorem witness_PowerTransitions :
    (∃ (s : State) (r : Requester) (p : Page), opened s r p.toNat 0x00C = true) ∧
    (∃ (s : State) (r : Requester) (g : Nat) (k : BitVec 6), g < 10 ∧ k.toNat < (regionDomains g).2 ∧ opened s r (g * 4096) (0x100 + 4 * k.toNat) = true) ∧
    (∃ (s : State) (d : Nat) (t : PwrState), d < 176 ∧ (domOf s d).going = none ∧ (domOf s d).st ≠ t ∧ (domOf s d).st = .on ∧ domDrained (setDom s d { domOf s d with pending := none }) d = true ∧ neededBy (setDom s d { domOf s d with pending := none }) d = false) ∧
    (∃ (s : State) (d : Nat) (t : PwrState), d < 176 ∧ (domOf s d).going = none ∧ (domOf s d).st ≠ t ∧ (domOf s d).st = .on ∧ (domDrained (setDom s d { domOf s d with pending := none }) d = false ∨ neededBy (setDom s d { domOf s d with pending := none }) d = true)) ∧
    (∃ (s : State) (d : Nat) (u : PwrState), d < 176 ∧ (domOf s d).going = some u) ∧
    (∃ (s : State) (d : BitVec 8), d.toNat < 176 ∧ (domOf s d.toNat).going = none ∧ (domOf s d.toNat).pending = some .on ∧ (domOf s d.toNat).st = .gated ∧ (domNeeds d.toNat).all (staysOn s) = true) ∧
    (∃ (s : State) (d : BitVec 8), d.toNat < 176 ∧ (d.toNat < 48 → d.toNat % 12 < 10) ∧ (domOf s d.toNat).going = some .gated ∧ (domOf s d.toNat).st = .retain) ∧
    (∃ (s : State) (d : BitVec 8), d.toNat < 176 ∧ (d.toNat < 48 → d.toNat % 12 < 10) ∧ (domOf s d.toNat).going = some .on ∧ (domOf s d.toNat).st = .gated) ∧
    (∃ (s : State) (d : BitVec 8), d.toNat < 176 ∧ (d.toNat < 48 → d.toNat % 12 < 10) ∧ (domOf s d.toNat).going = some .gated ∧ (domOf s d.toNat).st = .on) :=
  ⟨⟨S0, .host, 0x0001, by decide +kernel⟩,
   ⟨S0, .host, 9, 1, by decide +kernel⟩,
   ⟨setBit S0 (ebkPage 1) 0x010 1 true, 107, .gated, by decide +kernel⟩,
   ⟨S0, 106, .off, by decide +kernel⟩,
   ⟨setDom S0 175 { st := .off, going := some .gated }, 175, .gated, by decide +kernel⟩,
   ⟨setDom S0 175 { st := .gated, pending := some .on }, 175, by decide +kernel⟩,
   ⟨setDom S0 175 { st := .retain, going := some .gated }, 175, by decide +kernel⟩,
   ⟨setDom S0 48 { st := .gated, going := some .on }, 48, by decide +kernel⟩,
   ⟨setDom S0 63 { st := .on, going := some .gated }, 63, by decide +kernel⟩⟩

/-- States and operands that meet the hypotheses of each clause of PageControl. -/
theorem witness_PageControl :
    (∃ (s : State) (r : Requester) (p : Page), opened s r p.toNat 0x010 = true ∧ bitAt s p.toNat 0x010 0 = true) ∧
    (∃ (s : State) (r : Requester) (p : Page), opened s r p.toNat 0x010 = true) ∧
    (∃ (s : State) (r : Requester) (p : Page), opened s r p.toNat 0x010 = true) ∧
    (∃ (s : State) (r : Requester) (p : Page), opened s r p.toNat 0x010 = true) ∧
    (∃ (s : State) (r : Requester) (p : Page), opened s r p.toNat 0x010 = true) ∧
    (∃ (s : State) (r : Requester) (p : Page), opened s r p.toNat 0x010 = true) ∧
    (∃ (s : State) (p : Nat), (∀ b < 32, bitAt s p 0x020 b = true → bitAt s p 0x024 b = true ∨ sevOf s p b ≠ 2)) ∧
    (∃ (s : State) (r : Requester) (v : Word), opened s r pwrPage 0x100 = true ∧ v = 0x57525354#32) ∧
    (∃ (s : State) (r : Requester) (v : Word), opened s r pwrPage 0x100 = true ∧ v ≠ 0x57525354#32) ∧
    (∃ (s : State) (c : ResetScope), s.resets.contains c = true) ∧
    (∃ (s : State) (c : ResetScope) (q : Nat), s.resets.contains c = true ∧ c = .cell q) :=
  ⟨⟨S0, .host, 0x0001, by decide +kernel⟩,
   ⟨S0, .host, 0x0001, by decide +kernel⟩,
   ⟨S0, .host, 0x0001, by decide +kernel⟩,
   ⟨S0, .host, 0x0001, by decide +kernel⟩,
   ⟨S0, .host, 0x0001, by decide +kernel⟩,
   ⟨S0, .host, 0x0001, by decide +kernel⟩,
   ⟨{ S0 with holds := [(scopeKey 1, 0)] }, 1, by decide +kernel⟩,
   ⟨S0, .host, 0x57525354, by decide +kernel⟩,
   ⟨S0, .host, 0, by decide +kernel⟩,
   ⟨{ S0 with resets := [.cell 1] }, .cell 1, by decide +kernel⟩,
   ⟨{ S0 with resets := [.cell 1] }, .cell 1, 1, by decide +kernel⟩⟩

/-- States and operands that meet the hypotheses of each clause of InnerResetAbsorbed. -/
theorem witness_InnerResetAbsorbed :
    (∃ (s : State) (a : ResetScope) (b : ResetScope), b ∈ s.resets ∧ scopeInside a b = true) ∧
    (∃ (a : ResetScope), senseScope a = true) ∧
    (∃ (s : State) (a : ResetScope), senseScope a = false ∧ (∀ b ∈ s.resets, scopeInside a b = false)) :=
  ⟨⟨{ S0 with resets := [.region 0] }, .cell 1, .region 0, by decide +kernel⟩,
   ⟨.block 4 3 0, by decide +kernel⟩,
   ⟨{ S0 with resets := [.cell 1, .region 3] }, .region 0, by decide +kernel⟩⟩

end Structure

/-! ### Witnesses: registers -/

namespace Registers

def rowOf (p o : Nat) : RegRow := (regRow p o).getD { off := o }
def U0 : State := setBit S0 unlockPage 0x10C 16 true

/-- States and operands that meet the hypotheses of each clause of WritesStoreByAccessCode. -/
theorem witness_WritesStoreByAccessCode :
    (∃ (p : Nat) (o : Nat) (b : Nat) (row : RegRow), regRow p o = some row ∧ b < 32) ∧
    (∃ (p : Nat) (o : Nat) (b : Nat) (row : RegRow) (q : Nat) (w : Nat), regRow p o = some row ∧ b < 32 ∧ q * 4096 + w ≠ p * 4096 + o) :=
  ⟨⟨macPage 63, 0x020, 31, rowOf (macPage 63) 0x020, by decide +kernel⟩,
   ⟨macPage 63, 0x100, 31, rowOf (macPage 63) 0x100, macPage 63, 0x104, by decide +kernel⟩⟩

/-- States and operands that meet the hypotheses of each clause of RegisterWrites. -/
theorem witness_RegisterWrites :
    (∃ (s : State) (r : Requester) (a : BitVec 28) (p : Nat) (o : Nat) (row : RegRow), a.toNat = p * 4096 + o ∧ 0x060 ≤ o ∧ o < 0xF00 ∧ opened s r p o = true ∧ regRow p o = some row ∧ isLow p o = false ∧ isHigh p o = false) ∧
    (∃ (s : State) (r : Requester) (a : BitVec 28) (p : Nat) (o : Nat), a.toNat = p * 4096 + o ∧ (o = 0x024 ∨ o = 0x028 ∨ o = 0x02C ∨ o = 0x048) ∧ opened s r p o = true) ∧
    (∃ (s : State) (r : Requester) (a : BitVec 28) (p : Nat) (o : Nat), a.toNat = p * 4096 + o ∧ o < 0xF00 ∧ opened s r p o = true ∧ isLow p o = true ∧ writable p o = true) ∧
    (∃ (s : State) (r : Requester) (a : BitVec 28) (low : Word) (p : Nat) (o : Nat), a.toNat = p * 4096 + (o + 4) ∧ o + 4 < 0xF00 ∧ opened s r p (o + 4) = true ∧ isLow p o = true ∧ isLow p (o + 4) = false ∧ writable p o = true ∧ kindOf p ≠ some .tb ∧ wrShadowOf s (regId r) p = some (p * 4096 + o, low)) ∧
    (∃ (s : State) (r : Requester) (a : BitVec 28) (p : Nat) (o : Nat), a.toNat = p * 4096 + (o + 4) ∧ o + 4 < 0xF00 ∧ opened s r p (o + 4) = true ∧ isLow p o = true ∧ isLow p (o + 4) = false ∧ writable p o = true ∧ kindOf p ≠ some .tb ∧ wrShadowOf s (regId r) p = none) ∧
    (∃ (s : State) (r : Requester) (a : BitVec 28) (p : Nat) (o : Nat), a.toNat = p * 4096 + o ∧ reach s r = true ∧ accKind s r a.toNat 8 = 0 ∧ isLow p o = true ∧ writable p o = true ∧ kindOf p ≠ some .tb ∧ o < 4096) ∧
    (∃ (s : State) (a : BitVec 28), spaceReach s .host .bar4 = true ∧ a.toNat < 0x2000 ∧ a.toNat % 16 = 12) :=
  ⟨⟨S0, .host, 0x0001F108#28, 0x1F, 0x108, rowOf 0x1F 0x108, by decide +kernel⟩,
   ⟨S0, .host, 0x0001F024#28, 0x1F, 0x024, by decide +kernel⟩,
   ⟨S0, .host, 0x50108#28, 80, 264, by decide +kernel⟩,
   ⟨setWrShadow S0 0 80 (some (80*4096+264, 7)), .host, 0x5010C#28, 7, 80, 264, by decide +kernel⟩,
   ⟨S0, .host, 0x5010C#28, 80, 264, by decide +kernel⟩,
   ⟨S0, .host, 0x50108#28, 80, 264, by decide +kernel⟩,
   ⟨S0, 0x1FFC#28, by decide +kernel⟩⟩

/-- States and operands that meet the hypotheses of each clause of RegisterReads. -/
theorem witness_RegisterReads :
    (∃ (s : State) (r : Requester) (a : BitVec 28) (p : Nat) (o : Nat), a.toNat = p * 4096 + o ∧ opened s r p o = true ∧ readsPlain p o = true ∧ s.parBad.contains (p * 1024 + o / 4) = false) ∧
    (∃ (p : Nat) (o : Nat) (b : Nat) (row : RegRow), regRow p o = some row ∧ b < 32) ∧
    (∃ (s : State) (r : Requester) (a : BitVec 28) (p : Nat) (o : Nat), a.toNat = p * 4096 + o ∧ o < 0xEF8 ∧ opened s r p o = true ∧ isLow p o = true ∧ isHigh p o = false ∧ kindOf p ≠ some .injUnlock ∧ kindOf p ≠ some .tio ∧ s.parBad.contains (p * 1024 + o / 4) = false) ∧
    (∃ (s : State) (r : Requester) (a : BitVec 28) (p : Nat) (o : Nat) (v : Word), a.toNat = p * 4096 + (o + 4) ∧ o + 4 < 0xEF8 ∧ opened s r p (o + 4) = true ∧ isLow p o = true ∧ kindOf p ≠ some .injUnlock ∧ kindOf p ≠ some .tio ∧ s.parBad.contains (p * 1024 + (o + 4) / 4) = false ∧ rdShadowOf s (regId r) p = some (p * 4096 + o, v)) ∧
    (∃ (s : State) (r : Requester) (a : BitVec 28) (p : Nat) (o : Nat), a.toNat = p * 4096 + (o + 4) ∧ o + 4 < 0xEF8 ∧ opened s r p (o + 4) = true ∧ isLow p o = true ∧ freeBits p (o + 4) = none ∧ kindOf p ≠ some .injUnlock ∧ kindOf p ≠ some .tio ∧ s.parBad.contains (p * 1024 + (o + 4) / 4) = false ∧ rdShadowOf s (regId r) p = none) ∧
    (∃ (s : State) (a : BitVec 28), spaceReach s .host .config = true ∧ a.toNat = 0) ∧
    (∃ (s : State) (a : BitVec 28), spaceReach s .host .bar4 = true ∧ a.toNat < 0x2000 ∧ a.toNat % 16 = 12) :=
  ⟨⟨S0, .host, 0x0001F108#28, 0x1F, 0x108, by decide +kernel⟩,
   ⟨0x1F, 0x108, 31, rowOf 0x1F 0x108, by decide +kernel⟩,
   ⟨S0, .host, 0x50108#28, 80, 264, by decide +kernel⟩,
   ⟨setRdShadow S0 0 80 (some (80*4096+264, 7)), .host, 0x5010C#28, 80, 264, 7, by decide +kernel⟩,
   ⟨S0, .host, 0x5010C#28, 80, 264, by decide +kernel⟩,
   ⟨S0, 0, by decide +kernel⟩,
   ⟨S0, 0x1FFC#28, by decide +kernel⟩⟩

/-- States and operands that meet the hypotheses of each clause of RefusedAccessesAreLogged. -/
theorem witness_RefusedAccessesAreLogged :
    (∃ (a : Nat) (size : Nat), (size = 4 ∨ size = 8) ∧ a % size = 0 ∧ (pageInfo (a / 4096)).isNone = true) ∧
    (∃ (s : State) (a : Nat) (size : Nat), (size = 4 ∨ size = 8) ∧ a % size = 0 ∧ (pageInfo (a / 4096)).isNone = false ∧ domOn s (pageDom (a / 4096)) = false) ∧
    (∃ (s : State) (r : Requester) (a : BitVec 28) (size : Nat) (k : Nat), reach s r = true ∧ (size = 4 ∨ size = 8) ∧ accKind s r a.toNat size = k ∧ (k = 1 ∨ k = 3)) ∧
    (∃ (s : State) (r : Requester) (a : BitVec 28) (size : Nat) (k : Nat), reach s r = true ∧ accKind s r a.toNat size = k ∧ (k = 1 ∨ k = 3 ∨ k = 5)) ∧
    (∃ (s : State) (r : Requester) (a : BitVec 28) (size : Nat), reach s r = true ∧ (¬(size = 4 ∨ size = 8) ∨ a.toNat % size ≠ 0)) ∧
    (∃ (s : State) (r : Requester), reach s r = true) ∧
    (∃ (s : State) (a : BitVec 28), reach s .host = true ∧ accKind s .host a.toNat 4 = 4) ∧
    (∃ (s : State) (a : BitVec 28) (t : State), t = { logAcc s 4 1 a.toNat with resp := .busError, boot := { s.boot with cmd := s.boot.cmd.map (fun c => { c with busError := true }) } } ∧ reach s .spx = true ∧ accKind s .spx a.toNat 4 = 4) ∧
    (∃ (s : State) (k : BitVec 6) (a : BitVec 28) (t : State), t = abandonHand (raise (inc { logAcc s 4 (0x40 + k.toNat) a.toNat with resp := .busError } (ebkPage k.toNat) 0x118) (ebkPage k.toNat) 2) k.toNat ∧ reach s (.engine k) = true ∧ accKind s (.engine k) a.toNat 4 = 4) ∧
    (∃ (s : State) (r : Requester) (a : BitVec 29), reach s r = true ∧ a.toNat % 4 = 0 ∧ (pageInfo (aliasPage a.toNat)).isNone = false ∧ privPage (aliasPage a.toNat) = true) ∧
    (∃ (s : State) (r : Requester) (a : BitVec 28), reach s r = true ∧ accKind s r a.toNat 4 = 0) ∧
    (∃ (s : State) (kind : Nat) (id : Nat) (addr : Nat), domOn s 173 = true ∧ bitAt s intcPage 0x104 0 = false ∧ kind < 8 ∧ id < 256 ∧ addr < 2 ^ 32) ∧
    (∃ (s : State), domOn s 173 = true ∧ bitAt s intcPage 0x104 0 = true) :=
  ⟨⟨0x00FFF00, 4, by decide +kernel⟩,
   ⟨setDom S0 174 { st := .off }, 0x9001100, 8, by decide +kernel⟩,
   ⟨setDom S0 174 { st := .off }, .host, 0x9001100#28, 4, 1, by decide +kernel⟩,
   ⟨S0, .host, 0x1102#28, 4, 5, by decide +kernel⟩,
   ⟨S0, .host, 0x1104#28, 8, by decide +kernel⟩,
   ⟨S0, .host, by decide +kernel⟩,
   ⟨S0, BitVec.ofNat 28 (bootPage * 4096 + 0xE00), by decide +kernel⟩,
   ⟨S0, BitVec.ofNat 28 (bootPage * 4096 + 0xE00), _, rfl, by decide +kernel⟩,
   ⟨S0, 63, BitVec.ofNat 28 (bootPage * 4096 + 0xE00), _, rfl, by decide +kernel⟩,
   ⟨S0, .host, BitVec.ofNat 29 (bootPage * 2^13), by decide +kernel⟩,
   ⟨S0, .host, 0x1100#28, by decide +kernel⟩,
   ⟨S0, 7, 255, 0xFFFFFFFF, by decide +kernel⟩,
   ⟨logAcc S0 3 0 4, by decide +kernel⟩⟩

/-- States and operands that meet the hypotheses of each clause of AliasAccesses. -/
theorem witness_AliasAccesses :
    (∃ (s : State) (r : Requester) (a : BitVec 29) (row : RegRow), reach s r = true ∧ aliasKind s r a.toNat 4 = 0 ∧ regRow (aliasPage a.toNat) (aliasOff a.toNat) = some row ∧ (row.rw ||| row.rws ||| row.w1c ||| row.w1s).testBit (aliasBit a.toNat) = true) ∧
    (∃ (s : State) (r : Requester) (a : BitVec 29) (row : RegRow), reach s r = true ∧ aliasKind s r a.toNat 4 = 0 ∧ regRow (aliasPage a.toNat) (aliasOff a.toNat) = some row ∧ (row.rw ||| row.rws ||| row.w1c ||| row.w1s).testBit (aliasBit a.toNat) = false) ∧
    (∃ (s : State) (r : Requester) (a : BitVec 29), reach s r = true ∧ aliasKind s r a.toNat 4 = 0 ∧ readsPlain (aliasPage a.toNat) (aliasOff a.toNat) = true ∧ s.parBad.contains (aliasPage a.toNat * 1024 + aliasOff a.toNat / 4) = false) ∧
    (∃ (s : State) (r : Requester) (a : BitVec 29) (p : Nat) (o : Nat) (t : State), t = clearRC s p o (2 ^ aliasBit a.toNat) ∧ p = aliasPage a.toNat ∧ o = aliasOff a.toNat ∧ reach s r = true ∧ aliasKind s r a.toNat 4 = 0 ∧ isLow p o = true ∧ isHigh p o = false ∧ kindOf p ≠ some .tio ∧ s.parBad.contains (p * 1024 + o / 4) = false) ∧
    (∃ (s : State) (r : Requester) (a : BitVec 29) (p : Nat) (o : Nat) (v : Word), p = aliasPage a.toNat ∧ o = aliasOff a.toNat ∧ reach s r = true ∧ aliasKind s r a.toNat 4 = 0 ∧ isHigh p o = true ∧ kindOf p ≠ some .tio ∧ s.parBad.contains (p * 1024 + o / 4) = false ∧ rdShadowOf s (regId r) p = some (p * 4096 + (o - 4), v)) ∧
    (∃ (p : Nat) (o : Nat) (b : Nat) (row : RegRow) (c : Nat), regRow p o = some row ∧ (row.rw ||| row.rws).testBit b = true ∧ b < 32 ∧ c < 32) :=
  ⟨⟨S0, .host, BitVec.ofNat 29 (0x1F * 2^13 + 0x24 / 4 * 128 + 4), rowOf 0x1F 0x024, by decide +kernel⟩,
   ⟨S0, .host, BitVec.ofNat 29 (0x1F * 2^13 + 0x000 / 4 * 128 + 30 * 4), rowOf 0x1F 0x000, by decide +kernel⟩,
   ⟨S0, .host, BitVec.ofNat 29 (0x1F * 2^13 + 0x24 / 4 * 128 + 4), by decide +kernel⟩,
   ⟨S0, .host, BitVec.ofNat 29 (80 * 2^13 + 0x3C / 4 * 128 + 124), 80, 0x3C, _, rfl, by decide +kernel⟩,
   ⟨setRdShadow S0 0 80 (some (80*4096+0x3C, 7)), .host, BitVec.ofNat 29 (80 * 2^13 + 0x40 / 4 * 128), 80, 0x40, 7, by decide +kernel⟩,
   ⟨0x1F, 0x024, 1, rowOf 0x1F 0x024, 1, by decide +kernel⟩⟩

/-- States and operands that meet the hypotheses of each clause of SourcesParityAndArming. -/
theorem witness_SourcesParityAndArming :
    (∃ (s : State) (p : Page), pageOn s p.toNat = true ∧ bitAt s p.toNat 0x048 0 = true) ∧
    (∃ (k : Nat) (l : List Nat), l.Pairwise (· < ·) ∧ k ∉ l) ∧
    (∃ (k : Nat) (l : List Nat), l.Pairwise (· < ·) ∧ k ∉ l) ∧
    (∃ (s : State) (p : Nat) (o : Nat), hasConfig p o = true ∧ s.parBad.contains (p * 1024 + o / 4) = true ∧ bitAt s p 0x048 1 = false ∧ o < 4096) ∧
    (∃ (s : State) (r : Requester) (p : Page) (w : BitVec 10), opened s r p.toNat 0x04C = true ∧ unlocked s = true ∧ hasConfig p.toNat (4 * w.toNat) = true) ∧
    (∃ (s : State) (r : Requester) (p : Page) (w : BitVec 10), opened s r p.toNat 0x04C = true ∧ unlocked s = true ∧ hasConfig p.toNat (4 * w.toNat) = true ∧ s.parBad.contains (p.toNat * 1024 + w.toNat) = false) ∧
    (∃ (s : State) (r : Requester) (p : Page) (w : BitVec 10), opened s r p.toNat 0x04C = true ∧ unlocked s = true ∧ hasConfig p.toNat (4 * w.toNat) = true ∧ s.parBad.contains (p.toNat * 1024 + w.toNat) = true) ∧
    (∃ (s : State) (r : Requester) (p : Page) (w : BitVec 10) (arm : Bool), opened s r p.toNat 0x04C = true ∧ unlocked (written s p.toNat 0x04C (w.toNat + b2n arm * 2 ^ 31)) = false) ∧
    (∃ (s : State) (r : Requester) (p : Page) (v : Word), opened s r p.toNat 0x030 = true ∧ unlocked (written s p.toNat 0x030 v.toNat) = true) ∧
    (∃ (v : Nat) (b : Nat), b < 32 ∧ v.testBit b = true) ∧
    (∃ (s : State) (r : Requester) (p : Page) (v : Word), opened s r p.toNat 0x030 = true ∧ unlocked (written s p.toNat 0x030 v.toNat) = false) ∧
    (∃ (src : Nat), src < 32) ∧
    (∃ (p : Nat) (src : Nat) (q : Nat) (w : Nat), src < 32 ∧ q * 4096 + w ≠ p * 4096 + 0x020 ∧ (q * 4096 + w < p * 4096 + 0x038 ∨ p * 4096 + 0x044 < q * 4096 + w)) ∧
    (∃ (s : State) (p : Nat) (src : Nat), src < 32 ∧ bitAt s p 0x038 0 = false) ∧
    (∃ (s : State) (p : Nat) (src : Nat), src < 32 ∧ sevOf s p src = 2 ∧ cellSource p src = false) ∧
    (∃ (s : State) (p : Nat) (src : Nat), src < 32 ∧ sevOf s p src = 3) ∧
    (∃ (s : State) (p : Nat) (src : Nat), src < 32 ∧ sevOf s p src < 2) ∧
    (∃ (s : State) (r : Requester) (w : BitVec 4), opened s r intcPage (0x140 + 4 * w.toNat) = true) :=
  ⟨⟨{ setBit S0 0x1F 0x048 0 true with parBad := [0x1F * 1024 + 0x42] }, 0x1F, by decide +kernel⟩,
   ⟨5, [1, 9], by decide +kernel⟩,
   ⟨5, [1, 9], by decide +kernel⟩,
   ⟨{ S0 with parBad := [0x1F * 1024 + 0x42] }, 0x1F, 0x108, by decide +kernel⟩,
   ⟨U0, .host, 0x1F, 0x42, by decide +kernel⟩,
   ⟨U0, .host, 0x1F, 0x42, by decide +kernel⟩,
   ⟨{ U0 with parBad := [0x1F * 1024 + 0x42] }, .host, 0x1F, 0x42, by decide +kernel⟩,
   ⟨S0, .host, 0x1F, 0x42, true, by decide +kernel⟩,
   ⟨U0, .host, 0x1F, 3, by decide +kernel⟩,
   ⟨0x80000000, 31, by decide +kernel⟩,
   ⟨S0, .host, 0x1F, 3, by decide +kernel⟩,
   ⟨31, by decide +kernel⟩,
   ⟨0x1F, 31, 0x1F, 0x048, by decide +kernel⟩,
   ⟨S0, 0x1F, 31, by decide +kernel⟩,
   ⟨setFld S0 0x1F 0x028 15 14 2, 0x1F, 7, by decide +kernel⟩,
   ⟨setFld S0 0x1F 0x028 15 14 3, 0x1F, 7, by decide +kernel⟩,
   ⟨setFld S0 0x1F 0x028 15 14 1, 0x1F, 7, by decide +kernel⟩,
   ⟨S0, .host, 15, by decide +kernel⟩⟩

/-- States and operands that meet the hypotheses of each clause of WindowCommands. -/
theorem witness_WindowCommands :
    (∃ (s : State) (r : Requester) (p : Page), opened s r p.toNat 0xF04 = true ∧ lockedOut s r p.toNat 0xF04 = false) ∧
    (∃ (s : State) (p : Nat), tblCause s p 1 (rd s p 0xF00).toNat (tblData s p) = 0) ∧
    (∃ (s : State) (p : Nat) (op : Nat) (v : Nat) (a : Nat) (d : TabDesc), a = (rd s p 0xF00).toNat ∧ (op = 2 ∨ op = 3) ∧ tblCause s p op a (tblData s p) = 0 ∧ descOf p (tblSel a) = some d ∧ d.valid = some v) ∧
    (∃ (s : State) (p : Nat) (op : Nat) (c : Nat), tblCause s p op (rd s p 0xF00).toNat (tblData s p) = c ∧ c ≠ 0 ∧ c < 8) ∧
    (∃ (s : State) (p : Page) (c : TblCmd), (mapGet (fun _ => none) s.tblCmd p.toNat = some c)) ∧
    (∃ (s : State) (p : Nat) (c : TblCmd) (d : TabDesc), c.op = 1 ∧ descOf p (tblSel c.addr) = some d ∧ s.tabBad.contains (tabKey p (tblSel c.addr) (bankUsed p (tblBank c.addr) d) (tblIndex s p c.addr)) = false) ∧
    (∃ (c : TblCmd) (d : TabDesc), descOf intcPage 0 = some d ∧ c.op = 2 ∧ tblSel c.addr = 0) :=
  ⟨⟨S0, .host, BitVec.ofNat 16 (fdbPage 0), by decide +kernel⟩,
   ⟨S0, fdbPage 0, by decide +kernel⟩,
   ⟨S0, msecPage 0, 3, 127, 0, (descOf (msecPage 0) 0).getD { n := 0, width := 0 }, by decide +kernel⟩,
   ⟨S0, fdbPage 0, 9, 4, by decide +kernel⟩,
   ⟨tblGo (wreg S0 (fdbPage 0) 0xF04 1) (fdbPage 0) 1, BitVec.ofNat 16 (fdbPage 0), { op := 1, addr := 0, data := 0 }, by decide +kernel⟩,
   ⟨S0, fdbPage 0, { op := 1, addr := 0, data := 0 }, (descOf (fdbPage 0) 0).getD { n := 0, width := 0 }, by decide +kernel⟩,
   ⟨{ op := 2, addr := 511, data := 0x8001 }, (descOf intcPage 0).getD { n := 0, width := 0 }, by decide +kernel⟩⟩

/-- States and operands that meet the hypotheses of each clause of WindowLockAndSnapshots. -/
theorem witness_WindowLockAndSnapshots :
    (∃ (s : State) (r : Requester) (p : Page), opened s r p.toNat 0xF0C = true ∧ ((kindOf p.toNat).map PageKind.window) = some true ∧ rd s p.toNat 0xF0C = 0) ∧
    (∃ (s : State) (r : Requester) (p : Page), opened s r p.toNat 0xF0C = true ∧ ((kindOf p.toNat).map PageKind.window) = some true ∧ rd s p.toNat 0xF0C = BitVec.ofNat 32 (0x100 + regId r)) ∧
    (∃ (s : State) (r : Requester) (p : Page), opened s r p.toNat 0xF0C = true ∧ ((kindOf p.toNat).map PageKind.window) = some true) ∧
    (∃ (s : State) (r : Requester) (p : Nat) (o : Nat), opened s r p o = true ∧ lockedOut s r p o = true ∧ o < 4096) ∧
    (∃ (s : State) (r : Requester) (p : Page), opened s r p.toNat 0x060 = true ∧ ((kindOf p.toNat).map PageKind.snap) = some true) ∧
    (∃ (s : State) (p : Nat) (sel : Nat) (idx : Nat), bitAt s p 0x064 0 = false ∧ mapWf tabReset s.tabs = true ∧ counterKey p (tabKey p sel 0 idx) = true ∧ tabReset (tabKey p sel 0 idx) = 0) ∧
    (∃ (s : State) (p : Nat), bitAt s p 0x064 0 = true) ∧
    (∃ (s : State) (p : Page), bitAt s p.toNat 0x064 0 = true) :=
  ⟨⟨S0, .host, BitVec.ofNat 16 (fdbPage 0), by decide +kernel⟩,
   ⟨wreg S0 (fdbPage 0) 0xF0C 0x100, .host, BitVec.ofNat 16 (fdbPage 0), by decide +kernel⟩,
   ⟨S0, .host, BitVec.ofNat 16 (fdbPage 0), by decide +kernel⟩,
   ⟨wreg S0 (fdbPage 0) 0xF0C 0x101, .host, fdbPage 0, 0xF04, by decide +kernel⟩,
   ⟨S0, .host, BitVec.ofNat 16 (cntPage 0), by decide +kernel⟩,
   ⟨tset S0 (cntPage 0) 0 0 5 9, cntPage 0, 0, 5, by decide +kernel⟩,
   ⟨setBit S0 (cntPage 0) 0x064 0 true, cntPage 0, by decide +kernel⟩,
   ⟨setBit S0 (cntPage 0) 0x064 0 true, BitVec.ofNat 16 (cntPage 0), by decide +kernel⟩⟩

end Registers

/-! ### Witnesses: ports -/

namespace Ports

def ctlFrame : List Byte := [0x01,0x80,0xC2,0,0,1, 0x10,0,0,0,0,1, 0x88,0x08] ++ List.replicate 46 0
def openPf (k id : Nat) : PFrame := { frame := { id := id, bytes := fr 60, ingress := k, ts := 0 }, buf := 0 }
def opening (k id : Nat) : State := { upAt k with rxOpen := mapSet (fun _ => none) S0.rxOpen k (some (openPf k id)) }
def cage (n : Nat) : State := setFld S0 (modPage 15) 0x104 3 0 n

/-- States and operands that meet the hypotheses of each clause of PortLinkStates. -/
theorem witness_PortLinkStates :
    (∃ (s : State) (r : Requester) (k : BitVec 6) (cfg : Word), opened s r (macPage k.toNat) 0x100 = true ∧ bitAt s (macPage k.toNat) 0x100 0 = false ∧ enableCause (written s (macPage k.toNat) 0x100 (cfg.toNat ||| 1)) k.toNat = 0) ∧
    (∃ (s : State) (r : Requester) (k : BitVec 6) (cfg : Word) (c : Nat), opened s r (macPage k.toNat) 0x100 = true ∧ bitAt s (macPage k.toNat) 0x100 0 = false ∧ enableCause (written s (macPage k.toNat) 0x100 (cfg.toNat ||| 1)) k.toNat = c ∧ c ≠ 0) ∧
    (∃ (s : State) (r : Requester) (k : BitVec 6), opened s r (macPage k.toNat) 0x100 = true ∧ bitAt s (macPage k.toNat) 0x100 0 = true) ∧
    (∃ (s : State) (port : Port) (l : Bool) (rev : Bool), port.toNat ≤ 105 ∧ (rev = false ∨ bitAt s (portPage port.toNat) 0x100 6 = true ∨ port.toNat < 64 ∨ 96 ≤ port.toNat) ∧ linkGood s port.toNat = true ∧ serving s (portPage port.toNat) = true ∧ (∀ l, spanLinkOf s port.toNat = some l → spanLinkState s l ≠ 4) ∧ (linkState s port.toNat = 1 ∨ linkState s port.toNat = 4)) ∧
    (∃ (s : State) (port : Port) (l : Bool) (rev : Bool), port.toNat ≤ 105 ∧ (rev = false ∨ bitAt s (portPage port.toNat) 0x100 6 = true ∨ port.toNat < 64 ∨ 96 ≤ port.toNat) ∧ linkGood s port.toNat = true ∧ serving s (portPage port.toNat) = true ∧ (∀ l, spanLinkOf s port.toNat = some l → spanLinkState s l ≠ 4) ∧ linkState s port.toNat = 3) ∧
    (∃ (s : State) (port : Port) (c : LinkCond) (u : State), u = setCond (countFec s port.toNat c.codewords c.corrected c.uncorrectable) port.toNat c ∧ port.toNat ≤ 105 ∧ darkLane s port.toNat = none ∧ (64 ≤ port.toNat ∨ ((bitAt u (macPage port.toNat) 0x114 7 = false ∨ bitAt s (macPage port.toNat) 0x114 7 = true) ∧ (c.remoteFault = false ∨ bitAt s (macPage port.toNat) 0x114 6 = true)))) ∧
    (∃ (s : State) (port : Port) (c : LinkCond) (u : State), u = setCond (countFec s port.toNat c.codewords c.corrected c.uncorrectable) port.toNat c ∧ port.toNat < 64 ∧ darkLane s port.toNat = none ∧ bitAt u (macPage port.toNat) 0x114 7 = true ∧ bitAt s (macPage port.toNat) 0x114 7 = false ∧ (c.remoteFault = false ∨ bitAt s (macPage port.toNat) 0x114 6 = true)) ∧
    (∃ (s : State) (port : Port) (c : LinkCond) (u : State), u = setCond (countFec s port.toNat c.codewords c.corrected c.uncorrectable) port.toNat c ∧ port.toNat < 64 ∧ darkLane s port.toNat = none ∧ (bitAt u (macPage port.toNat) 0x114 7 = false ∨ bitAt s (macPage port.toNat) 0x114 7 = true) ∧ c.remoteFault = true ∧ bitAt s (macPage port.toNat) 0x114 6 = false) ∧
    (∃ (s : State) (port : Nat), linkState s port = 2 ∧ 0 < linkHold (raise (leftUp (clearLpi s port) port) (portPage port) 1) port) ∧
    (∃ (s : State) (port : Nat), linkState s port = 2 ∧ linkHold (raise (leftUp (clearLpi s port) port) (portPage port) 1) port = 0) ∧
    (∃ (s : State) (port : Nat), linkState s port ≠ 2) ∧
    (∃ (s : State) (port : Port), port.toNat ≤ 105 ∧ linkState s port.toNat = 3) :=
  ⟨⟨S0, .host, 63, 0x44, by decide +kernel⟩,
   ⟨S0, .host, 63, 0xFF, 4, by decide +kernel⟩,
   ⟨wreg (upAt 63) (macPage 63) 0x100 0x49, .host, 63, by decide +kernel⟩,
   ⟨linkAt 104 4, 104, true, true, by decide +kernel⟩,
   ⟨linkAt 63 3, 63, true, true, by decide +kernel⟩,
   ⟨upAt 105, 105, { good with signal := false }, _, rfl, by decide +kernel⟩,
   ⟨upAt 63, 63, { good with hiBer := true }, _, rfl, by decide +kernel⟩,
   ⟨upAt 63, 63, { good with remoteFault := true }, _, rfl, by decide +kernel⟩,
   ⟨setFld (upAt 63) (macPage 63) 0x110 9 0 5, 63, by decide +kernel⟩,
   ⟨setFld (upAt 63) (macPage 63) 0x110 9 0 0, 63, by decide +kernel⟩,
   ⟨linkAt 63 3, 63, by decide +kernel⟩,
   ⟨linkAt 63 3, 63, by decide +kernel⟩⟩

/-- States and operands that meet the hypotheses of each clause of MacTestsInOrder. -/
theorem witness_MacTestsInOrder :
    (∃ (s : State) (port : Port) (bs : List Byte) (fcsOk : Bool) (symErr : Bool) (s0 : State) (s1 : State), s0 = (if 64 ≤ bs.length + 4 ∧ fcsOk ∧ !symErr then countRx s port.toNat bs (bs.length + 4) else s) ∧ s1 = noteLong (if symErr then countFec s0 port.toNat 1 0 1 else s0) port.toNat bs (bs.length + 4) ∧ port.toNat ≤ 105 ∧ fwActive s port.toNat = false ∧ draining s (portPage port.toNat) = false ∧ pageOn s (portPage port.toNat) = true ∧ inReset s (portPage port.toNat) = false ∧ isolated s (portPage port.toNat) = false ∧ bs.length + 4 < 64) ∧
    (∃ (s : State) (port : Port) (bs : List Byte) (fcsOk : Bool) (symErr : Bool) (s0 : State) (s1 : State), s0 = (if 64 ≤ bs.length + 4 ∧ fcsOk ∧ !symErr then countRx s port.toNat bs (bs.length + 4) else s) ∧ s1 = noteLong (if symErr then countFec s0 port.toNat 1 0 1 else s0) port.toNat bs (bs.length + 4) ∧ port.toNat ≤ 105 ∧ fwActive s port.toNat = false ∧ draining s (portPage port.toNat) = false ∧ pageOn s (portPage port.toNat) = true ∧ inReset s (portPage port.toNat) = false ∧ isolated s (portPage port.toNat) = false ∧ 64 ≤ bs.length + 4 ∧ symErr = true) ∧
    (∃ (s : State) (port : Port) (bs : List Byte) (fcsOk : Bool) (symErr : Bool) (s0 : State) (s1 : State), s0 = (if 64 ≤ bs.length + 4 ∧ fcsOk ∧ !symErr then countRx s port.toNat bs (bs.length + 4) else s) ∧ s1 = noteLong (if symErr then countFec s0 port.toNat 1 0 1 else s0) port.toNat bs (bs.length + 4) ∧ port.toNat ≤ 105 ∧ fwActive s port.toNat = false ∧ draining s (portPage port.toNat) = false ∧ pageOn s (portPage port.toNat) = true ∧ inReset s (portPage port.toNat) = false ∧ isolated s (portPage port.toNat) = false ∧ 64 ≤ bs.length + 4 ∧ symErr = false ∧ fcsOk = false) ∧
    (∃ (s : State) (port : Port) (bs : List Byte) (fcsOk : Bool) (symErr : Bool) (s0 : State) (s1 : State), s0 = (if 64 ≤ bs.length + 4 ∧ fcsOk ∧ !symErr then countRx s port.toNat bs (bs.length + 4) else s) ∧ s1 = noteLong (if symErr then countFec s0 port.toNat 1 0 1 else s0) port.toNat bs (bs.length + 4) ∧ port.toNat ≤ 105 ∧ fwActive s port.toNat = false ∧ draining s (portPage port.toNat) = false ∧ pageOn s (portPage port.toNat) = true ∧ inReset s (portPage port.toNat) = false ∧ isolated s (portPage port.toNat) = false ∧ 64 ≤ bs.length + 4 ∧ symErr = false ∧ fcsOk = true ∧ linkState s port.toNat ≠ 2) ∧
    (∃ (s : State) (port : Port) (bs : List Byte) (fcsOk : Bool) (symErr : Bool) (s0 : State) (s1 : State), s0 = (if 64 ≤ bs.length + 4 ∧ fcsOk ∧ !symErr then countRx s port.toNat bs (bs.length + 4) else s) ∧ s1 = noteLong (if symErr then countFec s0 port.toNat 1 0 1 else s0) port.toNat bs (bs.length + 4) ∧ port.toNat ≤ 105 ∧ fwActive s port.toNat = false ∧ draining s (portPage port.toNat) = false ∧ pageOn s (portPage port.toNat) = true ∧ inReset s (portPage port.toNat) = false ∧ isolated s (portPage port.toNat) = false ∧ 64 ≤ bs.length + 4 ∧ symErr = false ∧ fcsOk = true ∧ linkState s port.toNat = 2 ∧ isMacControl bs = true ∧ (64 ≤ port.toNat ∨ bitAt s (macPage port.toNat) 0x108 2 = false ∨ (match controlOf bs with | .pause _ => fcMode s port.toNat != 1 | .pfc _ _ => fcMode s port.toNat != 2 | .other => true) = true)) ∧
    (∃ (s : State) (port : Port) (bs : List Byte) (fcsOk : Bool) (symErr : Bool) (icvOk : Bool) (x : Nat) (s0 : State) (s1 : State), s0 = (if 64 ≤ bs.length + 4 ∧ fcsOk ∧ !symErr then countRx s port.toNat bs (bs.length + 4) else s) ∧ s1 = noteLong (if symErr then countFec s0 port.toNat 1 0 1 else s0) port.toNat bs (bs.length + 4) ∧ port.toNat ≤ 105 ∧ fwActive s port.toNat = false ∧ draining s (portPage port.toNat) = false ∧ pageOn s (portPage port.toNat) = true ∧ inReset s (portPage port.toNat) = false ∧ isolated s (portPage port.toNat) = false ∧ 64 ≤ bs.length + 4 ∧ symErr = false ∧ fcsOk = true ∧ linkState s port.toNat = 2 ∧ isMacControl bs = false ∧ msecOn s1 port.toNat = true ∧ (oversize s1 port.toNat bs (bs.length + 4) = false ∨ tagSize s1 port.toNat bs = none) ∧ isSpanPort s1 port.toNat = false ∧ (msecReceive s1 port.toNat bs icvOk).bytes = none ∧ x = (msecReceive s1 port.toNat bs icvOk).reason) ∧
    (∃ (s : State) (port : Port) (bs : List Byte) (fcsOk : Bool) (symErr : Bool) (icvOk : Bool) (b : List Byte) (s0 : State) (s1 : State), s0 = (if 64 ≤ bs.length + 4 ∧ fcsOk ∧ !symErr then countRx s port.toNat bs (bs.length + 4) else s) ∧ s1 = noteLong (if symErr then countFec s0 port.toNat 1 0 1 else s0) port.toNat bs (bs.length + 4) ∧ port.toNat ≤ 105 ∧ fwActive s port.toNat = false ∧ draining s (portPage port.toNat) = false ∧ pageOn s (portPage port.toNat) = true ∧ inReset s (portPage port.toNat) = false ∧ isolated s (portPage port.toNat) = false ∧ 64 ≤ bs.length + 4 ∧ symErr = false ∧ fcsOk = true ∧ linkState s port.toNat = 2 ∧ isMacControl bs = false ∧ msecOn s1 port.toNat = true ∧ (oversize s1 port.toNat bs (bs.length + 4) = false ∨ tagSize s1 port.toNat bs = none) ∧ isSpanPort s1 port.toNat = false ∧ (msecReceive s1 port.toNat bs icvOk).bytes = some b ∧ isSpanPort (msecPassed s1 port.toNat (msecReceive s1 port.toNat bs icvOk)) port.toNat = false) ∧
    (∃ (s : State) (port : Port) (bs : List Byte) (fcsOk : Bool) (symErr : Bool) (s0 : State) (s1 : State), s0 = (if 64 ≤ bs.length + 4 ∧ fcsOk ∧ !symErr then countRx s port.toNat bs (bs.length + 4) else s) ∧ s1 = noteLong (if symErr then countFec s0 port.toNat 1 0 1 else s0) port.toNat bs (bs.length + 4) ∧ port.toNat ≤ 105 ∧ fwActive s port.toNat = false ∧ draining s (portPage port.toNat) = false ∧ pageOn s (portPage port.toNat) = true ∧ inReset s (portPage port.toNat) = false ∧ isolated s (portPage port.toNat) = false ∧ 64 ≤ bs.length + 4 ∧ symErr = false ∧ fcsOk = true ∧ linkState s port.toNat = 2 ∧ isMacControl bs = false ∧ msecOn s1 port.toNat = false ∧ isSpanPort s1 port.toNat = false) ∧
    (∃ (s : State) (port : Port) (bs : List Byte) (u : State), u = passOn (noteLong s port.toNat bs (bs.length + 4)) port.toNat (rxStamp s port.toNat) bs false false false ∧ port.toNat < 64 ∧ fwActive s port.toNat = false ∧ draining s (macPage port.toNat) = false ∧ serving s (macPage port.toNat) = true ∧ linkState s port.toNat = 2 ∧ isMacControl bs = false ∧ msecOn s port.toNat = false ∧ isSpanPort s port.toNat = false) ∧
    (∃ (s : State) (port : Port) (pf : PFrame) (len : Nat) (fcsOk : Bool) (u : State) (v : Nat) (u0 : State), u = { s with rxOpen := mapSet (fun _ => none) s.rxOpen port.toNat none } ∧ v = macVerdict u port.toNat len fcsOk false ∧ u0 = (if 64 ≤ len ∧ fcsOk then countRx u port.toNat pf.frame.bytes len else u) ∧ port.toNat ≤ 105 ∧ (mapGet (fun _ => none) s.rxOpen port.toNat = some pf) ∧ pf.frame.id ≠ 0 ∧ oversize u port.toNat pf.frame.bytes len = false ∧ oversize u0 port.toNat pf.frame.bytes len = false ∧ (v ≠ 0 ∨ msecOn u0 port.toNat = false)) ∧
    (∃ (s : State) (port : Port) (pf : PFrame), port.toNat ≤ 105 ∧ (mapGet (fun _ => none) s.rxOpen port.toNat = some pf) ∧ pf.frame.id = 0) :=
  ⟨⟨S0, 105, fr 59, true, false, _, _, rfl, rfl, by decide +kernel⟩,
   ⟨S0, 63, fr 60, true, true, _, _, rfl, rfl, by decide +kernel⟩,
   ⟨upAt 63, 63, fr 60, false, false, _, _, rfl, rfl, by decide +kernel⟩,
   ⟨S0, 63, fr 60, true, false, _, _, rfl, rfl, by decide +kernel⟩,
   ⟨upAt 63, 63, ctlFrame, true, false, _, _, rfl, rfl, by decide +kernel⟩,
   ⟨setBit (setFld (upAt 63) (msecPage 3) 0x104 31 30 2) (msecPage 3) 0x100 15 true, 63, fr 60, true, false, true, 0x0A, _, _, rfl, rfl, by decide +kernel⟩,
   ⟨setFld (setBit (upAt 63) (msecPage 3) 0x100 15 true) (msecPage 3) 0x104 31 30 0, 63, fr 60, true, false, true, fr 60, _, _, rfl, rfl, by decide +kernel⟩,
   ⟨upAt 105, 105, fr 60, true, false, _, _, rfl, rfl, by decide +kernel⟩,
   ⟨upAt 63, 63, fr 60, _, rfl, by decide +kernel⟩,
   ⟨opening 63 7, 63, openPf 63 7, 64, true, _, _, _, rfl, rfl, rfl, by decide +kernel⟩,
   ⟨opening 105 0, 105, openPf 105 0, by decide +kernel⟩⟩

/-- States and operands that meet the hypotheses of each clause of FlowControlAndIdle. -/
theorem witness_FlowControlAndIdle :
    (∃ (s : State) (port : Port) (u : State), u = creditTick (portCount (countControl s port.toNat) port.toNat 6 1) port.toNat ∧ port.toNat < 64 ∧ pageOn s (portPage port.toNat) = true ∧ inReset s (portPage port.toNat) = false ∧ isolated s (portPage port.toNat) = false ∧ linkState s port.toNat = 2 ∧ fcMode s port.toNat = 1 ∧ bitAt s (macPage port.toNat) 0x108 2 = true) ∧
    (∃ (s : State) (port : Port) (u : State), u = creditTick (portCount (countControl s port.toNat) port.toNat 6 1) port.toNat ∧ port.toNat < 64 ∧ pageOn s (portPage port.toNat) = true ∧ inReset s (portPage port.toNat) = false ∧ isolated s (portPage port.toNat) = false ∧ linkState s port.toNat = 2 ∧ fcMode s port.toNat = 2 ∧ bitAt s (macPage port.toNat) 0x108 2 = true) ∧
    (∃ (s : State) (port : Port) (u : State), u = creditTick (portCount (countControl s port.toNat) port.toNat 6 1) port.toNat ∧ port.toNat ≤ 105 ∧ pageOn s (portPage port.toNat) = true ∧ inReset s (portPage port.toNat) = false ∧ isolated s (portPage port.toNat) = false ∧ linkState s port.toNat = 2 ∧ (64 ≤ port.toNat ∨ bitAt s (macPage port.toNat) 0x108 2 = false)) ∧
    (∃ (s : State) (port : Port) (u : State), u = creditTick s port.toNat ∧ port.toNat ≤ 105) ∧
    (∃ (s : State) (port : Port), port.toNat < 64 ∧ fcTx s port.toNat = true ∧ fcMode s port.toNat = 1 ∧ ebit (tget s bpmInPage 1 0 (512 + port.toNat)) 31 = true) ∧
    (∃ (s : State) (port : Port), port.toNat ≤ 105 ∧ eeeOn s port.toNat = true ∧ linkState s port.toNat = 2 ∧ (eportOf s port.toNat).tx = none ∧ (∀ c < 8, (queueOf s (qIdx port.toNat c)).frames = []) ∧ (eportOf s port.toNat).lpi = false) ∧
    (∃ (s : State) (port : Port), port.toNat ≤ 105 ∧ (eportOf s port.toNat).lpi = true) :=
  ⟨⟨wreg (upAt 63) (macPage 63) 0x108 5, 63, _, rfl, by decide +kernel⟩,
   ⟨wreg (upAt 63) (macPage 63) 0x108 0x8006, 63, _, rfl, by decide +kernel⟩,
   ⟨upAt 105, 105, _, rfl, by decide +kernel⟩,
   ⟨setEport S0 105 { paused := 0xFF }, 105, _, rfl, by decide +kernel⟩,
   ⟨tset (wreg (upAt 63) (macPage 63) 0x108 9) bpmInPage 1 0 575 0x80000000, 63, by decide +kernel⟩,
   ⟨wreg (upAt 63) (macPage 63) 0x10C 1, 63, by decide +kernel⟩,
   ⟨setEport (upAt 63) 63 { lpi := true }, 63, by decide +kernel⟩⟩

/-- States and operands that meet the hypotheses of each clause of SerdesAndModules. -/
theorem witness_SerdesAndModules :
    (∃ (s : State) (r : Requester) (q : BitVec 4), opened s r (sdqPage q.toNat) 0x110 = true ∧ bitAt s (sdqPage q.toNat) 0x110 9 = false) ∧
    (∃ (s : State) (r : Requester) (q : BitVec 4), opened s r (sdqPage q.toNat) 0x110 = true ∧ bitAt s (sdqPage q.toNat) 0x110 9 = true) ∧
    (∃ (s : State) (q : BitVec 4), bitAt s (sdqPage q.toNat) 0x110 9 = true) ∧
    (∃ (s : State) (r : Requester) (q : BitVec 4) (l : BitVec 2), opened s r (sdqPage q.toNat) (0x148 + 0x20 * l.toNat) = true ∧ bitAt s (sdqPage q.toNat) (0x148 + 0x20 * l.toNat) 1 = false) ∧
    (∃ (s : State) (c : BitVec 4), cageManual s c.toNat = false ∧ cageState s c.toNat = 0) ∧
    (∃ (s : State) (c : BitVec 4), cageManual s c.toNat = false ∧ cageState s c.toNat = 1) ∧
    (∃ (s : State) (c : BitVec 4) (id : List Byte) (u : State), u = setFld (modIdentity (cageTalk s c.toNat true ["lower page, pages 00h and 01h read"]) c.toNat id) (modPage c.toNat) 0x104 3 0 3 ∧ cageManual s c.toNat = false ∧ cageState s c.toNat = 2) ∧
    (∃ (s : State) (c : BitVec 4), cageManual s c.toNat = false ∧ (cageState s c.toNat = 2 ∨ cageState s c.toNat = 3)) ∧
    (∃ (s : State) (c : BitVec 4), cageManual s c.toNat = false ∧ cageState s c.toNat = 2) ∧
    (∃ (s : State) (c : BitVec 4), cageManual s c.toNat = false ∧ cageState s c.toNat = 4) ∧
    (∃ (s : State) (c : BitVec 4), cageManual s c.toNat = false ∧ cageState s c.toNat = 5) ∧
    (∃ (s : State) (c : BitVec 4) (u : State), u = setFld (raise (setBit (setBit (cageDark s c.toNat) (modPage c.toNat) 0x104 8 true) (modPage c.toNat) 0x104 9 true) (modPage c.toNat) 0) (modPage c.toNat) 0x104 3 0 0 ∧ cageManual s c.toNat = false ∧ (∀ l < 4, linkState s (4 * c.toNat + l) = 0)) ∧
    (∃ (s : State) (r : Requester) (c : BitVec 4), opened s r (modPage c.toNat) 0x100 = true ∧ cageManual s c.toNat = false ∧ (cageState s c.toNat = 6 ∨ cageState s c.toNat = 7)) ∧
    (∃ (s : State) (r : Requester) (c : BitVec 4) (v : Word) (u : State), u = setBit { written s (modPage c.toNat) 0x108 v.toNat with xferCmd := mapSet (fun _ => 0) s.xferCmd c.toNat (rd (written s (modPage c.toNat) 0x108 v.toNat) (modPage c.toNat) 0x108).toNat } (modPage c.toNat) 0x10C 0 true ∧ opened s r (modPage c.toNat) 0x108 = true ∧ bitAt s (modPage c.toNat) 0x10C 0 = false) ∧
    (∃ (s : State) (c : BitVec 4) (cmd : Nat) (u : State), u = { setBit (setBit s (modPage c.toNat) 0x10C 0 false) (modPage c.toNat) 0x10C 1 true with modNacks := mapSet (fun _ => 0) s.modNacks c.toNat 0 } ∧ bitAt s (modPage c.toNat) 0x10C 0 = true ∧ (cmd = mapGet (fun _ => 0) s.xferCmd c.toNat)) ∧
    (∃ (s : State) (c : BitVec 4), bitAt s (modPage c.toNat) 0x10C 0 = true) :=
  ⟨⟨S0, .host, 15, by decide +kernel⟩,
   ⟨setBit S0 (sdqPage 15) 0x110 9 true, .host, 15, by decide +kernel⟩,
   ⟨wreg S0 (sdqPage 15) 0x110 0x203, 15, by decide +kernel⟩,
   ⟨S0, .host, 15, 3, by decide +kernel⟩,
   ⟨S0, 15, by decide +kernel⟩,
   ⟨cage 1, 15, by decide +kernel⟩,
   ⟨cage 2, 15, [0x18, 0], _, rfl, by decide +kernel⟩,
   ⟨cage 3, 15, by decide +kernel⟩,
   ⟨cage 2, 15, by decide +kernel⟩,
   ⟨cage 4, 15, by decide +kernel⟩,
   ⟨cage 5, 15, by decide +kernel⟩,
   ⟨cage 5, 15, _, rfl, by decide +kernel⟩,
   ⟨cage 7, .host, 15, by decide +kernel⟩,
   ⟨S0, .host, 15, 0x7F00A050, _, rfl, by decide +kernel⟩,
   ⟨{ setBit S0 (modPage 15) 0x10C 0 true with xferCmd := [(15, 0x7F00A050)] }, 15, 0x7F00A050, _, rfl, by decide +kernel⟩,
   ⟨{ setBit S0 (modPage 15) 0x10C 0 true with xferCmd := [(15, 0x7F00A050)] }, 15, by decide +kernel⟩⟩

end Ports

/-! ### Witnesses: field -/

namespace Field

def tx1 (p : Nat) : Tx := { queue := 8 * p, qf := { frame := { id := 1, bytes := List.replicate 60 0, ingress := 0, ts := 0 }, seq := 0, place := .sram } }
def txAt (p : Nat) : State := setEport S0 p { tx := some (tx1 p) }
def P0 : State := setBit S0 pairPage (pairCfg 39) 1 true
def noPlca (s : State) : State := setBit s (fpPage 103) 0x120 0 false

/-- States and operands that meet the hypotheses of each clause of FieldPortsAndSegments. -/
theorem witness_FieldPortsAndSegments :
    (∃ (s : State) (r : Requester) (k : Port), 64 ≤ k.toNat ∧ k.toNat ≤ 105 ∧ opened s r (fpPage k.toNat) 0x100 = true ∧ bitAt s (fpPage k.toNat) 0x100 0 = false ∧ domOn s (fpDomain k.toNat) = true ∧ domOn s 65 = true ∧ domOn s 66 = true) ∧
    (∃ (s : State) (k : Port) (late : Bool) (u : State) (x : Coll) (v : State), u = { addSat (setEport s k.toNat { eportOf s k.toNat with burst := 0 }) (fpPage k.toNat) 0x128 15 0 1 with freeCtr := s.freeCtr + 1 } ∧ x = { attempts := (collOf s k.toNat).attempts + 1, waiting := true, slots := if plcaLive s k.toNat then 0 else Config.freeValue s.freeCtr % 2 ^ min ((collOf s k.toNat).attempts + 1) 10 } ∧ v = setColl u k.toNat x ∧ 96 ≤ k.toNat ∧ k.toNat < 104 ∧ (eportOf s k.toNat).tx.isSome = true ∧ (collOf s k.toNat).waiting = false ∧ (collOf s k.toNat).attempts < 15 ∧ (late = false ∨ plcaLive s k.toNat = true)) ∧
    (∃ (s : State) (k : Port) (u : State), u = setEport s k.toNat { eportOf s k.toNat with burst := 0 } ∧ 96 ≤ k.toNat ∧ k.toNat < 104 ∧ (eportOf s k.toNat).tx.isSome = true ∧ (collOf s k.toNat).waiting = false ∧ plcaLive s k.toNat = false) ∧
    (∃ (s : State) (k : Port) (u : State), u = setEport s k.toNat { eportOf s k.toNat with burst := 0 } ∧ 96 ≤ k.toNat ∧ k.toNat < 104 ∧ (eportOf s k.toNat).tx.isSome = true ∧ (collOf s k.toNat).waiting = false ∧ plcaLive s k.toNat = false ∧ 15 ≤ (collOf s k.toNat).attempts) ∧
    (∃ (s : State) (k : Port) (t : Tx) (u : State) (e : List Byte × State), u = setColl s k.toNat { collOf s k.toNat with waiting := false, slots := 0 } ∧ e = ptpEdit u k.toNat t.qf.frame (egressEdit u k.toNat t.qf.frame).bytes ∧ 96 ≤ k.toNat ∧ k.toNat < 104 ∧ (collOf s k.toNat).waiting = true ∧ plcaLive s k.toNat = false ∧ (eportOf s k.toNat).tx = some t) ∧
    (∃ (s : State) (k : Port), 96 ≤ k.toNat ∧ k.toNat < 104 ∧ bitAt s (fpPage k.toNat) 0x100 0 = true ∧ plcaOn s k.toNat = true) ∧
    (∃ (s : State) (k : Port) (u : State), u = beaconOut s k.toNat ∧ 96 ≤ k.toNat ∧ k.toNat < 104 ∧ plcaLive s k.toNat = true) ∧
    (∃ (s : State) (k : Port) (u : State), u = setFld s (fpPage k.toNat) 0x12C 1 0 0 ∧ 96 ≤ k.toNat ∧ k.toNat < 104) ∧
    (∃ (k : Port), (k.toNat = 104 ∨ k.toNat = 105)) ∧
    (∃ (s : State) (r : Requester) (cmd : Word) (op : Nat) (c : Instr) (u : State), u = setBit (written s (fpPage 104) 0x140 (mdioWord cmd.toNat op)) (fpPage 104) 0x140 31 true ∧ opened s r (fpPage 104) 0x140 = true ∧ bitAt s (fpPage 104) 0x140 31 = false ∧ ((op = 0 ∧ c = .mdioAddress r cmd) ∨ (op = 1 ∧ c = .mdioWrite r cmd) ∨ (op = 2 ∧ c = .mdioRead r cmd) ∨ (op = 3 ∧ c = .mdioReadIncrement r cmd))) ∧
    (∃ (s : State) (u : State), u = setBit s (fpPage 104) 0x140 31 false ∧ bitAt s (fpPage 104) 0x140 31 = true) :=
  ⟨⟨S0, .host, 105, by decide +kernel⟩,
   ⟨noPlca (txAt 103), 103, false, _, _, _, rfl, rfl, rfl, by decide +kernel⟩,
   ⟨noPlca (txAt 103), 103, _, rfl, by decide +kernel⟩,
   ⟨setColl (noPlca (txAt 103)) 103 { attempts := 15 }, 103, _, rfl, by decide +kernel⟩,
   ⟨setColl (noPlca (txAt 103)) 103 { attempts := 15, waiting := true }, 103, tx1 103, _, _, rfl, rfl, by decide +kernel⟩,
   ⟨setEport (wreg S0 (fpPage 103) 0x100 1) 103 { plca := 1 }, 103, by decide +kernel⟩,
   ⟨setEport (wreg S0 (fpPage 103) 0x12C 1) 103 { plca := 1 }, 103, _, rfl, by decide +kernel⟩,
   ⟨setBit (wreg S0 (fpPage 103) 0x100 1) (fpPage 103) 0x120 0 false, 103, _, rfl, by decide +kernel⟩,
   ⟨104, by decide +kernel⟩,
   ⟨S0, .host, 0x3FFF, 3, .mdioReadIncrement .host 0x3FFF, _, rfl, by decide +kernel⟩,
   ⟨wreg S0 (fpPage 104) 0x140 0x80001000, _, rfl, by decide +kernel⟩⟩

/-- States and operands that meet the hypotheses of each clause of LineSensing. -/
theorem witness_LineSensing :
    (∃ (s : State) (k : BitVec 6) (vp : BitVec 12) (vn : BitVec 12) (beyond : Bool) (u : State) (c : Nat), u = setFld (setFld s pairPage (pairStat k.toNat) 19 8 vp.toNat) pairPage (pairStat k.toNat) 31 20 vn.toNat ∧ c = rawClass u k.toNat (signedOf 12 vp.toNat) (signedOf 12 vn.toNat) beyond (senseOf s k.toNat).echo ∧ pairOn s k.toNat = true ∧ afterClamp s (senseOf s k.toNat) = false ∧ bitAt s pairPage (pairStat k.toNat) 3 = false ∧ ((senseOf s k.toNat).run = 0 ∨ (senseOf s k.toNat).cand ≠ c)) ∧
    (∃ (s : State) (k : BitVec 6) (vp : BitVec 12) (vn : BitVec 12) (beyond : Bool) (u : State) (c : Nat), u = setFld (setFld s pairPage (pairStat k.toNat) 19 8 vp.toNat) pairPage (pairStat k.toNat) 31 20 vn.toNat ∧ c = rawClass u k.toNat (signedOf 12 vp.toNat) (signedOf 12 vn.toNat) beyond (senseOf s k.toNat).echo ∧ pairOn s k.toNat = true ∧ afterClamp s (senseOf s k.toNat) = false ∧ bitAt s pairPage (pairStat k.toNat) 3 = false ∧ 0 < (senseOf s k.toNat).run ∧ (senseOf s k.toNat).run < 7 ∧ (senseOf s k.toNat).cand = c) ∧
    (∃ (s : State) (k : BitVec 6) (vp : BitVec 12) (vn : BitVec 12) (beyond : Bool) (u : State) (c : Nat), u = setFld (setFld s pairPage (pairStat k.toNat) 19 8 vp.toNat) pairPage (pairStat k.toNat) 31 20 vn.toNat ∧ c = rawClass u k.toNat (signedOf 12 vp.toNat) (signedOf 12 vn.toNat) beyond (senseOf s k.toNat).echo ∧ pairOn s k.toNat = true ∧ afterClamp s (senseOf s k.toNat) = false ∧ bitAt s pairPage (pairStat k.toNat) 3 = false ∧ (senseOf s k.toNat).run = 7 ∧ (senseOf s k.toNat).cand = c) ∧
    (∃ (s : State) (k : Nat) (c : Nat), k < 40 ∧ c < 8 ∧ c ≠ pairClass s k ∧ senseAct s c = 0 ∧ senseAct s (pairClass s k) = 0) ∧
    (∃ (s : State) (k : Nat) (c : Nat) (u : State), u = raise (setFld s pairPage (pairStat k) 2 0 c) snsPage 0 0 (k + c * 64) ∧ k < 40 ∧ c < 8 ∧ c ≠ pairClass s k ∧ (senseAct s c = 2 ∨ senseAct s c = 3)) ∧
    (∃ (s : State) (k : BitVec 6), k.toNat < 32 ∧ pairOn s k.toNat = true ∧ bitAt s (fpPage (64 + k.toNat)) 0x100 0 = true ∧ linkState s (64 + k.toNat) ≠ 2 ∧ (senseOf s k.toNat).latched = false) ∧
    (∃ (s : State) (k : BitVec 6) (r : Echo) (u : State) (c : Nat), u = setSense s k.toNat { senseOf s k.toNat with echo := r, testing := false } ∧ c = rawClass u k.toNat (pairVolt s k.toNat).1 (pairVolt s k.toNat).2 false r ∧ k.toNat < 40 ∧ (senseOf s k.toNat).testing = true ∧ snsRuns s = true ∧ bitAt s pairPage (pairStat k.toNat) 3 = false ∧ bitAt s pairPage (pairCfg k.toNat) 1 = true ∧ (c = 1 ∨ (c = 2 ∧ bitAt s pairPage (pairCfg k.toNat) 0 = false))) ∧
    (∃ (s : State) (k : BitVec 6) (r : Echo) (u : State) (c : Nat), u = setSense s k.toNat { senseOf s k.toNat with echo := r, testing := false } ∧ c = rawClass u k.toNat (pairVolt s k.toNat).1 (pairVolt s k.toNat).2 false r ∧ k.toNat < 40 ∧ (senseOf s k.toNat).testing = true ∧ snsRuns s = true ∧ bitAt s pairPage (pairStat k.toNat) 3 = false ∧ bitAt s pairPage (pairCfg k.toNat) 1 = true ∧ (c = 0 ∨ 3 ≤ c ∨ (c = 2 ∧ bitAt s pairPage (pairCfg k.toNat) 0 = true))) ∧
    (∃ (s : State) (k : BitVec 6) (neg : Bool) (x : Sense) (u : State), x = senseOf s k.toNat ∧ u = setSense s k.toNat (if neg then { x with clampedN := true, clampAt := some (now s) } else { x with clamped := true, clampAt := some (now s) }) ∧ k.toNat < 40 ∧ (if neg then x.clampedN else x.clamped) = false ∧ snsRuns s = true ∧ x.clampAt = none) ∧
    (∃ (s : State) (k : BitVec 6) (neg : Bool) (b : Nat) (x : Sense) (u : State), x = senseOf s k.toNat ∧ u = setSense s k.toNat (if neg then { x with clampedN := true, clampAt := some (now s) } else { x with clamped := true, clampAt := some (now s) }) ∧ k.toNat < 40 ∧ (if neg then x.clampedN else x.clamped) = false ∧ snsRuns s = true ∧ x.clampAt = some b ∧ b + msUnits 1 ≤ now s) ∧
    (∃ (s : State) (k : BitVec 6) (neg : Bool) (b : Nat) (x : Sense) (u : State), x = senseOf s k.toNat ∧ u = setSense s k.toNat (if neg then { x with clampedN := true, clampAt := some (now s) } else { x with clamped := true, clampAt := some (now s) }) ∧ k.toNat < 40 ∧ (if neg then x.clampedN else x.clamped) = false ∧ snsRuns s = true ∧ x.clampAt = some b ∧ now s < b + msUnits 1) ∧
    (∃ (s : State) (k : BitVec 6) (neg : Bool) (x : Sense), x = senseOf s k.toNat ∧ k.toNat < 40 ∧ (if neg then x.clampedN else x.clamped) = true) ∧
    (∃ (s : State) (k : BitVec 6), k.toNat < 40 ∧ snsRuns s = true) ∧
    (∃ (s : State) (r : Requester), opened s r snsPage 0x100 = true) ∧
    (∃ (s : State) (k : BitVec 6), k.toNat < 40 ∧ bitAt s pairPage (pairStat k.toNat) 3 = true ∧ snsRuns s = true) ∧
    (∃ (s : State) (k : BitVec 6) (u : State), u = raise (setSense (setBit s pairPage (pairStat k.toNat) 3 false) k.toNat { senseOf s k.toNat with calBad := true }) snsPage 2 0 k.toNat ∧ k.toNat < 40 ∧ bitAt s pairPage (pairStat k.toNat) 3 = true ∧ snsRuns s = true) ∧
    (∃ (s : State) (r : Requester) (v : Word) (k : Nat) (u : State), u = written s snsPage 0x110 (v.toNat ||| 0x100) ∧ opened s r snsPage 0x110 = true ∧ k = v.toNat % 64 ∧ k < 40 ∧ bitAt s snsPage 0x114 0 = false ∧ (senseOf s k).latched = false ∧ linkState s (pairPort k) ≠ 2) ∧
    (∃ (s : State) (r : Requester) (v : Word) (k : Nat) (u : State), u = written s snsPage 0x110 (v.toNat ||| 0x100) ∧ opened s r snsPage 0x110 = true ∧ k = v.toNat % 64 ∧ (40 ≤ k ∨ bitAt s snsPage 0x114 0 = true ∨ (senseOf s k).latched = true ∨ (linkState s (pairPort k) = 2 ∧ v.toNat.testBit 9 = false))) ∧
    (∃ (s : State) (n : BitVec 16) (k : Nat) (d : Nat), d = faultDist n.toNat (bitsOf s.diagCmd 31 16) ∧ bitAt s snsPage 0x114 0 = true ∧ snsRuns s = true ∧ k = bitsOf s.diagCmd 5 0 ∧ d < 65536) ∧
    (∃ (s : State) (k : BitVec 6), k.toNat < 40 ∧ bitAt s pairPage (pairStat k.toNat) 4 = true ∧ pairClass s k.toNat = 0 ∧ (senseOf s k.toNat).latched = false) ∧
    (∃ (s : State) (k : BitVec 6), k.toNat < 40 ∧ bitAt s pairPage (pairStat k.toNat) 4 = true ∧ pairClass s k.toNat = 0 ∧ (senseOf s k.toNat).latched = true) ∧
    (∃ (s : State) (r : Requester) (k : BitVec 6) (u : State), u = written s pairPage (0x100 + 4 * k.toNat) (rewritten s pairPage (0x100 + 4 * k.toNat) 0x100 0x100) ∧ k.toNat < 40 ∧ opened s r pairPage (0x100 + 4 * k.toNat) = true ∧ bitAt s pairPage (pairStat k.toNat) 4 = true ∧ pairClass s k.toNat = 0 ∧ bitAt s pairPage (pairCfg k.toNat) 1 = true ∧ (senseOf s k.toNat).calBad = false) :=
  ⟨⟨P0, 39, 0, 0xFFF, false, _, _, rfl, rfl, by decide +kernel⟩,
   ⟨setSense P0 39 { cand := 3, run := 6 }, 39, 0, 0, false, _, _, rfl, rfl, by decide +kernel⟩,
   ⟨setSense P0 39 { cand := 3, run := 7 }, 39, 0, 0, false, _, _, rfl, rfl, by decide +kernel⟩,
   ⟨wreg S0 snsPage 0x104 0, 39, 7, by decide +kernel⟩,
   ⟨wreg S0 snsPage 0x104 0xFFFFFFFF, 39, 7, _, rfl, by decide +kernel⟩,
   ⟨wreg P0 (fpPage 95) 0x100 1, 31, by decide +kernel⟩,
   ⟨wreg (setSense P0 39 { testing := true }) pairPage (pairStat 39) 0x06406400, 39, .open, _, _, rfl, rfl, by decide +kernel⟩,
   ⟨setSense P0 39 { testing := true }, 39, .clear, _, _, rfl, rfl, by decide +kernel⟩,
   ⟨S0, 39, true, _, _, rfl, rfl, by decide +kernel⟩,
   ⟨{ setSense S0 39 { clampAt := some 0 } with baseCount := 153600000 }, 39, true, 0, _, _, rfl, rfl, by decide +kernel⟩,
   ⟨{ setSense S0 39 { clampAt := some 0 } with baseCount := 153599999 }, 39, true, 0, _, _, rfl, rfl, by decide +kernel⟩,
   ⟨setSense S0 39 { clampedN := true }, 39, true, _, rfl, by decide +kernel⟩,
   ⟨S0, 39, by decide +kernel⟩,
   ⟨S0, .host, by decide +kernel⟩,
   ⟨setBit S0 pairPage (pairStat 39) 3 true, 39, by decide +kernel⟩,
   ⟨setBit S0 pairPage (pairStat 39) 3 true, 39, _, rfl, by decide +kernel⟩,
   ⟨S0, .host, 39, 39, _, rfl, by decide +kernel⟩,
   ⟨S0, .host, 40, 40, _, rfl, by decide +kernel⟩,
   ⟨{ setBit S0 snsPage 0x114 0 true with diagCmd := 39 + 676 * 65536 }, 531, 39, _, rfl, by decide +kernel⟩,
   ⟨setBit S0 pairPage (pairStat 39) 4 true, 39, by decide +kernel⟩,
   ⟨setSense (setBit S0 pairPage (pairStat 39) 4 true) 39 { latched := true }, 39, by decide +kernel⟩,
   ⟨setBit P0 pairPage (pairStat 39) 4 true, .host, 39, _, rfl, by decide +kernel⟩⟩

end Field

/-! ### Witnesses: pipes -/

namespace Pipes

def pf1 : PFrame := { frame := F1, buf := 0 }
def pipeS (k : Nat) (p : Pipe) : State := { S0 with pipes := mapSet (fun _ => ({} : Pipe)) S0.pipes k p }

/-- States and operands that meet the hypotheses of each clause of PipelinePasses. -/
theorem witness_PipelinePasses :
    (∃ (s : State) (k : BitVec 3) (pf : PFrame) (rest : List PFrame) (t : State), t = setPipe s k.toNat { pipeOf s k.toNat with arrivals := rest } ∧ k.toNat ≤ 4 ∧ (pipeOf s k.toNat).arrivals = pf :: rest ∧ pipeServing s k.toNat = true) ∧
    (∃ (s : State) (k : BitVec 3) (pf : PFrame) (rest : List PFrame) (t : State), t = setPipe s k.toNat { pipeOf s k.toNat with arrivals := rest } ∧ k.toNat ≤ 4 ∧ (pipeOf s k.toNat).arrivals = pf :: rest ∧ pipeServing s k.toNat = false) ∧
    (∃ (s : State) (k : BitVec 3), k.toNat < 4 ∧ (pipeOf s k.toNat).arrivals = []) ∧
    (∃ (s : State) (k : BitVec 3) (pf : PFrame) (rest : List PFrame) (t : State), t = popRecirc s k.toNat pf rest ∧ k.toNat ≤ 4 ∧ (pipeOf s k.toNat).recirc = pf :: rest ∧ pipeServing s k.toNat = true) ∧
    (∃ (s : State) (k : BitVec 3) (pf : PFrame) (rest : List PFrame) (t : State), t = popRecirc s k.toNat pf rest ∧ k.toNat ≤ 4 ∧ (pipeOf s k.toNat).recirc = pf :: rest ∧ pipeServing s k.toNat = false) ∧
    (∃ (s : State) (k : BitVec 3) (pf : PFrame) (rest : List PFrame), k.toNat ≤ 4 ∧ (pipeOf s k.toNat).recirc = pf :: rest) ∧
    (∃ (s : State) (k : Nat) (pass : Nat) (pf : PFrame) (u : State) (c : Nat), u = useSlot s k pass ∧ c = (parse (parseCfg u k) pf.frame.bytes).cond ∧ c ≠ 0 ∧ bitAt u (prsPage k) 0x108 (c - 0x20) = true) ∧
    (∃ (s : State) (k : Nat) (pass : Nat) (act : Nat) (pf : PFrame) (p : Parsed) (f : Frame), f = { pf.frame with vid := some (frameVid s k pf.frame p) } ∧ act.testBit 127 = true ∧ (act.testBit 75 = false ∨ pass = 0) ∧ bitsOf act 1 0 = 1) ∧
    (∃ (s : State) (k : Nat) (pass : Nat) (act : Nat) (pf : PFrame) (p : Parsed) (f : Frame), f = { pf.frame with vid := some (frameVid s k pf.frame p) } ∧ act.testBit 127 = true ∧ (act.testBit 75 = false ∨ pass = 0) ∧ bitsOf act 1 0 = 3) ∧
    (∃ (s : State) (k : Nat) (pass : Nat) (act : Nat) (pf : PFrame) (p : Parsed) (f : Frame), f = { pf.frame with vid := some (frameVid s k pf.frame p) } ∧ act.testBit 127 = true ∧ act.testBit 75 = true ∧ pass = 1) ∧
    (∃ (s : State) (k : Nat) (pass : Nat) (act : Nat) (pf : PFrame) (p : Parsed) (f : Frame), f = { pf.frame with vid := some (frameVid s k pf.frame p) } ∧ act.testBit 127 = true ∧ act.testBit 75 = true ∧ pass = 0 ∧ act.testBit 76 = true ∧ bitsOf act 1 0 = 2) :=
  ⟨⟨pipeS 4 { arrivals := [pf1] }, 4, pf1, [], _, rfl, by decide +kernel⟩,
   ⟨setBit (pipeS 4 { arrivals := [pf1] }) (prsPage 4) 0x010 2 true, 4, pf1, [], _, rfl, by decide +kernel⟩,
   ⟨S0, 3, by decide +kernel⟩,
   ⟨pipeS 4 { recirc := [pf1] }, 4, pf1, [], _, rfl, by decide +kernel⟩,
   ⟨setBit (pipeS 4 { recirc := [pf1] }) (prsPage 4) 0x010 2 true, 4, pf1, [], _, rfl, by decide +kernel⟩,
   ⟨pipeS 4 { recirc := [pf1] }, 4, pf1, [], by decide +kernel⟩,
   ⟨wreg S0 (prsPage 0) 0x108 0xFFFFFFFF, 0, 0, pf1, _, _, rfl, rfl, by decide +kernel⟩,
   ⟨S0, 0, 0, 2^127 + 2^19 + 1, pf1, parse (parseCfg S0 0) (fr 60), _, rfl, by decide +kernel⟩,
   ⟨S0, 0, 1, 2^127 + 2^19 + 3, pf1, parse (parseCfg S0 0) (fr 60), _, rfl, by decide +kernel⟩,
   ⟨S0, 0, 1, 2^127 + 2^75 + 3, pf1, parse (parseCfg S0 0) (fr 60), _, rfl, by decide +kernel⟩,
   ⟨S0, 0, 0, 2^127 + 2^75 + 2^76 + 2, pf1, parse (parseCfg S0 0) (fr 60), _, rfl, by decide +kernel⟩⟩

/-- States and operands that meet the hypotheses of each clause of BankSwaps. -/
theorem witness_BankSwaps :
    (∃ (s : State) (r : Requester) (k : BitVec 3) (u : State), u = written s (rulPage k.toNat) 0x120 (rewritten s (rulPage k.toNat) 0x120 1 1) ∧ k.toNat ≤ 4 ∧ opened s r (rulPage k.toNat) 0x120 = true ∧ (pipeOf s k.toNat).rul.retiring = false ∧ (pipeOf s k.toNat).rul.guard = false) ∧
    (∃ (s : State) (r : Requester) (k : BitVec 3) (u : State), u = written s (rulPage k.toNat) 0x120 (rewritten s (rulPage k.toNat) 0x120 1 1) ∧ k.toNat ≤ 4 ∧ opened s r (rulPage k.toNat) 0x120 = true ∧ ((pipeOf s k.toNat).rul.retiring = true ∨ (pipeOf s k.toNat).rul.guard = true)) ∧
    (∃ (s : State) (k : Nat), k ≤ 4 ∧ (mapGet (fun _ => none) s.tblCmd (rulPage k) = none)) ∧
    (∃ (b : Bank), b.active < 2) ∧
    (∃ (s : State) (p : Port), (eportOf s p.toNat).tx = none) ∧
    (∃ (b : Bank), b.falsework = 0) ∧
    (∃ (b : Bank), b.falsework ≠ 0) ∧
    (∃ (s : State) (i : BitVec 12), liftState s i.toNat = 3 ∧ (liftX s i.toNat).late = false ∧ (liftX s i.toNat).launch ≤ now s + usUnits 1) :=
  ⟨⟨S0, .host, 4, _, rfl, by decide +kernel⟩,
   ⟨pipeS 4 { rul := { guard := true } }, .host, 4, _, rfl, by decide +kernel⟩,
   ⟨S0, 4, by decide +kernel⟩,
   ⟨{ active := 1, inflight1 := 3 }, by decide +kernel⟩,
   ⟨S0, 105, by decide +kernel⟩,
   ⟨{ active := 1, retiring := true }, by decide +kernel⟩,
   ⟨{ active := 1, inflight0 := 1, retiring := true }, by decide +kernel⟩,
   ⟨{ setFld S0 bscPage 0x100 0 0 0 with tabs := (tset S0 bscPage 1 0 4095 3).tabs }, 4095, by decide +kernel⟩⟩

/-- States and operands that meet the hypotheses of each clause of FdbUpkeep. -/
theorem witness_FdbUpkeep :
    (∃ (s : State) (k : BitVec 3) (b : Nat) (u : State), b = (pipeOf s k.toNat).bucket ∧ u = forEach (if b = 0 then passBegin s k.toNat else s) (ways b) (fun t i => flushEntry (walkEntry t k.toNat i (pipeOf (if b = 0 then passBegin s k.toNat else s) k.toNat).ageing) k.toNat i) ∧ k.toNat ≤ 4 ∧ serving s (fdbPage k.toNat) = true) ∧
    (∃ (s : State) (k : BitVec 3), k.toNat ≤ 4 ∧ serving s (fdbPage k.toNat) = false) ∧
    (∃ (s : State) (r : Requester) (k : BitVec 3) (v : Word) (u : State), u = written s (fdbPage k.toNat) 0x10C (v.toNat ||| 2 ^ 31) ∧ k.toNat ≤ 4 ∧ opened s r (fdbPage k.toNat) 0x10C = true ∧ (pipeOf s k.toNat).flushes = []) ∧
    (∃ (s : State) (k : BitVec 3) (f : Flush) (rest : List Flush) (u : State), u = forEach s ((fdbListed s k.toNat).filter (fun e => flushHits f.value e.2)) (fun t e => deleteEvent (fdbWrite t k.toNat e.1 (esetFld e.2 127 127 0)) k.toNat e.2) ∧ k.toNat ≤ 4 ∧ (pipeOf s k.toNat).flushes = f :: rest) ∧
    (∃ (s : State) (k : BitVec 3) (e : LearnEvent) (rest : List LearnEvent), k.toNat ≤ 4 ∧ (pipeOf s k.toNat).events = e :: rest) ∧
    (∃ (s : State) (k : BitVec 3) (u : State), u = forEach s ([0, 1, 2, 3, 4].filter (· != k.toNat)) (fun t j => flushRequest t j (2 ^ 23 + k.toNat * 2 ^ 24)) ∧ k.toNat ≤ 4 ∧ bitAt s (fdbPage k.toNat) 0x128 31 = true ∧ (pipeOf s k.toNat).resyncing = false) ∧
    (∃ (s : State) (k : Nat) (u : State), u = setPipe s k { pipeOf s k with resyncing := false } ∧ (pipeOf s k).resyncing = true ∧ flushedOut s k = true) :=
  ⟨⟨S0, 4, _, _, rfl, rfl, by decide +kernel⟩,
   ⟨setBit S0 (fdbPage 4) 0x010 0 false, 4, by decide +kernel⟩,
   ⟨S0, .host, 4, 0x3FFF, _, rfl, by decide +kernel⟩,
   ⟨pipeS 4 { flushes := [{ value := 1, since := 0 }] }, 4, { value := 1, since := 0 }, [], _, rfl, by decide +kernel⟩,
   ⟨pipeS 4 { events := [{ kind := 0, pipe := 4, port := 64, fid := 1, mac := 0x100000000001, ts := 5 }] }, 4, { kind := 0, pipe := 4, port := 64, fid := 1, mac := 0x100000000001, ts := 5 }, [], by decide +kernel⟩,
   ⟨setBit S0 (fdbPage 4) 0x128 31 true, 4, _, rfl, by decide +kernel⟩,
   ⟨pipeS 4 { resyncing := true }, 4, _, rfl, by decide +kernel⟩⟩

end Pipes

/-! ### Witnesses: pools -/

namespace Pools

def c1 : Copy := { frame := F1, port := 63, buf := 5 }
def upP : State := setLink' S0 63 2
def heldG : State := setBuf S0 .granules 5 { st := .held, owner := 3, chain := [5] }
def ready : State := setBit S0 ppmPage 0x100 0 true
def q1 (pl : Place) : QFrame := { frame := F1, seq := 0, place := pl, pages := [] }
def qS (s : State) (q : Nat) (f : Queue) : State := { s with queues := mapSet (fun _ => ({} : Queue)) s.queues q f }
def tl (q : Pool) (b : Nat) (x : Buf) : State := setBuf S0 q b x

/-- States and operands that meet the hypotheses of each clause of GrantsFollowTheQuotas. -/
theorem witness_GrantsFollowTheQuotas :
    (∃ (s : State) (q : Pool) (i : BitVec 4), (q = .pages → ppmReady s = true) ∧ inReach s q 1 = true ∧ (usageOf s q i.toNat < minOf s q i.toNat ∨ (minOf s q i.toNat ≤ usageOf s q i.toNat ∧ usageOf s q i.toNat < maxOf s q i.toNat ∧ 0 < freeShared s q))) ∧
    (∃ (s : State) (q : Pool) (i : BitVec 4), (q = .pages → ppmReady s = true) ∧ minOf s q i.toNat ≤ usageOf s q i.toNat ∧ maxOf s q i.toNat ≤ usageOf s q i.toNat) ∧
    (∃ (s : State) (q : Pool) (i : BitVec 4), (q = .pages → ppmReady s = true) ∧ minOf s q i.toNat ≤ usageOf s q i.toNat ∧ usageOf s q i.toNat < maxOf s q i.toNat ∧ freeShared s q ≤ 0) ∧
    (∃ (s : State) (q : Pool) (i : BitVec 4), (q = .pages → ppmReady s = true) ∧ inReach s q 1 = false ∧ (usageOf s q i.toNat < minOf s q i.toNat ∨ usageOf s q i.toNat < maxOf s q i.toNat)) ∧
    (∃ (i : Nat) (j : Nat), j ≠ i) :=
  ⟨⟨ready, .pages, 5, by decide +kernel⟩,
   ⟨setUsage (wreg S0 bpmPage (0x140 + 8*15+4) 4) .granules 15 0xFFFFFF, .granules, 15, by decide +kernel⟩,
   ⟨setUsage S0 .granules 0 0xFFFFF, .granules, 13, by decide +kernel⟩,
   ⟨{ ready with page := { closed := List.range 16 } }, .pages, 5, by decide +kernel⟩,
   ⟨14, 15, by decide +kernel⟩⟩

/-- States and operands that meet the hypotheses of each clause of HandoverJudgement. -/
theorem witness_HandoverJudgement :
    (∃ (s : State) (q : Pool) (b : Nat) (i : BitVec 4) (j : BitVec 4) (h : Nat) (g : Nat) (s' : State) (u : Nat), h = bufHead s q b ∧ g = (recordOf s q h).size ∧ s' = setUsage s q i.toNat (usageOf s q i.toNat - g) ∧ u = usageOf s' q j.toNat + g ∧ (recordOf s q h).st = .held ∧ (recordOf s q h).owner = i.toNat ∧ maxOf s q j.toNat < u) ∧
    (∃ (s : State) (q : Pool) (b : Nat) (i : BitVec 4) (j : BitVec 4) (h : Nat) (g : Nat) (s' : State) (u : Nat), h = bufHead s q b ∧ g = (recordOf s q h).size ∧ s' = setUsage s q i.toNat (usageOf s q i.toNat - g) ∧ u = usageOf s' q j.toNat + g ∧ (recordOf s q h).st = .held ∧ (recordOf s q h).owner = i.toNat ∧ u ≤ maxOf s q j.toNat ∧ (u ≤ minOf s q j.toNat ∨ 0 ≤ freeShared (setUsage s' q j.toNat u) q)) ∧
    (∃ (s : State) (q : Pool) (b : Nat) (i : BitVec 4) (j : BitVec 4) (h : Nat) (g : Nat) (s' : State) (u : Nat), h = bufHead s q b ∧ g = (recordOf s q h).size ∧ s' = setUsage s q i.toNat (usageOf s q i.toNat - g) ∧ u = usageOf s' q j.toNat + g ∧ (recordOf s q h).st = .held ∧ (recordOf s q h).owner = i.toNat ∧ u ≤ maxOf s q j.toNat ∧ minOf s q j.toNat < u ∧ freeShared (setUsage s' q j.toNat u) q < 0) :=
  ⟨⟨wreg heldG bpmPage (0x140 + 8*8+4) 0, .granules, 5, 3, 8, _, _, _, _, rfl, rfl, rfl, rfl, by decide +kernel⟩,
   ⟨wreg (wreg (setUsage heldG .granules 3 1) bpmPage (0x140 + 8*8+4) 0xFFFFF) bpmPage (0x140+8*8) 5, .granules, 5, 3, 8, _, _, _, _, rfl, rfl, rfl, rfl, by decide +kernel⟩,
   ⟨wreg (wreg (wreg (setUsage heldG .granules 3 1) bpmPage (0x140 + 8*8+4) 0xFFFFF) bpmPage (0x140+8*8) 0) bpmPage (0x140+8*9) 0xFFFFF, .granules, 5, 3, 8, _, _, _, _, rfl, rfl, rfl, rfl, by decide +kernel⟩⟩

/-- States and operands that meet the hypotheses of each clause of BufferOperations. -/
theorem witness_BufferOperations :
    (∃ (s : State) (q : Pool) (b : Nat) (k : Nat) (i : BitVec 4) (h : Nat), h = bufHead s q b ∧ (recordOf s q h).st = .held ∧ (recordOf s q h).owner = i.toNat ∧ (recordOf s q h).refs + k ≤ 511) ∧
    (∃ (s : State) (q : Pool) (b : Nat) (h : Nat), h = bufHead s q b ∧ ((recordOf s q h).st = .held ∨ 2 ≤ (recordOf s q h).refs) ∧ (recordOf s q h).st ≠ .free ∧ (recordOf s q h).st ≠ .fenced ∧ 1 ≤ (recordOf s q h).refs) ∧
    (∃ (s : State) (b : Nat), (recordOf s .pages b).st = .released ∧ (recordOf s .pages b).refs = 1 ∧ (recordOf s .pages b).bad = false) ∧
    (∃ (s : State) (q : Pool) (b : Nat) (i : BitVec 4) (h : Nat), h = bufHead s q b ∧ (recordOf s q h).st = .held ∧ (recordOf s q h).owner = i.toNat ∧ 0 < (recordOf s q h).refs) ∧
    (∃ (s : State) (b : Nat) (i : BitVec 4), (recordOf s .pages b).st = .held ∧ (recordOf s .pages b).owner = i.toNat ∧ (recordOf s .pages b).refs = 0 ∧ (recordOf s .pages b).bad = false) ∧
    (∃ (s : State) (b : Nat) (i : BitVec 4) (h : Nat), h = bufHead s .granules b ∧ (bufOf s .granules h).st = .held ∧ (bufOf s .granules h).owner = i.toNat ∧ (bufOf s .granules h).refs = 0 ∧ (bufOf s .granules h).badGran = [] ∧ (bufOf s .granules h).charge = none) ∧
    (∃ (s : State) (q : Pool) (b : Nat) (i : BitVec 4) (h : Nat), h = bufHead s q b ∧ i.toNat = inspOf q ∧ (recordOf s q h).st = .free) ∧
    (∃ (s : State) (q : Pool) (b : Nat) (i : BitVec 4) (h : Nat), h = bufHead s q b ∧ i.toNat = inspOf q ∧ (recordOf s q h).st = .fenced ∧ (recordOf s q h).owner ≠ 15 ∧ (q = .pages ∨ (recordOf s q h).bad = false)) ∧
    (∃ (s : State) (q : Pool) (b : Nat) (h : Nat), h = bufHead s q b ∧ ((recordOf s q h).st = .free ∨ (recordOf s q h).st = .fenced)) ∧
    (∃ (s : State) (q : Pool) (b : Nat) (i : BitVec 4) (h : Nat), h = bufHead s q b ∧ ((recordOf s q h).st = .held ∨ (recordOf s q h).st = .released) ∧ i.toNat = inspOf q ∧ (recordOf s q h).owner ≠ 15) ∧
    (∃ (s : State) (q : Pool) (b : Nat) (i : BitVec 4) (h : Nat), h = bufHead s q b ∧ (recordOf s q h).st = .held ∧ (recordOf s q h).owner ≠ i.toNat) ∧
    (∃ (s : State) (q : Pool) (b : Nat) (i : BitVec 4) (h : Nat), h = bufHead s q b ∧ i.toNat ≠ inspOf q) ∧
    (∃ (s : State) (q : Pool) (b : Nat) (i : BitVec 4) (h : Nat), h = bufHead s q b ∧ (recordOf s q h).st = .held ∧ (recordOf s q h).owner = i.toNat ∧ (recordOf s q h).refs = 0) ∧
    (∃ (s : State) (q : Pool) (b : Nat) (k : Nat) (i : BitVec 4) (h : Nat), h = bufHead s q b ∧ (recordOf s q h).st = .held ∧ (recordOf s q h).owner = i.toNat ∧ 511 < (recordOf s q h).refs + k) :=
  ⟨⟨setBuf S0 .granules 5 { st := .held, owner := 3, chain := [5, 32768], size := 2, refs := 500 }, .granules, 32768, 11, 3, _, rfl, by decide +kernel⟩,
   ⟨setBuf S0 .granules 5 { st := .released, refs := 2, owner := 3, chain := [5] }, .granules, 5, _, rfl, by decide +kernel⟩,
   ⟨setBuf S0 .pages 5 { st := .released, refs := 1, owner := 3, chain := [5] }, 5, by decide +kernel⟩,
   ⟨setBuf S0 .granules 5 { st := .held, refs := 1, owner := 3, chain := [5, 6], size := 2 }, .granules, 6, 3, _, rfl, by decide +kernel⟩,
   ⟨setBuf S0 .pages 5 { st := .held, refs := 0, owner := 3, chain := [5] }, 5, 3, by decide +kernel⟩,
   ⟨setBuf S0 .granules 5 { st := .held, refs := 0, owner := 3, chain := [5, 6], size := 2 }, 6, 3, _, rfl, by decide +kernel⟩,
   ⟨S0, .granules, 524287, 13, _, rfl, by decide +kernel⟩,
   ⟨setBuf S0 .pages 5 { st := .fenced, owner := 7, chain := [5] }, .pages, 5, 7, _, rfl, by decide +kernel⟩,
   ⟨S0, .pages, 0xFFFFFFFF, _, rfl, by decide +kernel⟩,
   ⟨heldG, .granules, 5, 13, _, rfl, by decide +kernel⟩,
   ⟨heldG, .granules, 5, 7, _, rfl, by decide +kernel⟩,
   ⟨heldG, .granules, 5, 7, _, rfl, by decide +kernel⟩,
   ⟨heldG, .granules, 5, 3, _, rfl, by decide +kernel⟩,
   ⟨heldG, .granules, 5, 512, 3, _, rfl, by decide +kernel⟩⟩

/-- States and operands that meet the hypotheses of each clause of AdmissionSpillAndFencing. -/
theorem witness_AdmissionSpillAndFencing :
    (∃ (s : State) (r : Requester) (i : BitVec 4) (v : Word) (u : State), u = written s bpmPage (0x140 + 8 * i.toNat) v.toNat ∧ opened s r bpmPage (0x140 + 8 * i.toNat) = true ∧ sumMin u .granules ≤ avail u .granules) ∧
    (∃ (s : State) (r : Requester) (i : BitVec 4) (v : Word) (u : State), u = written s bpmPage (0x140 + 8 * i.toNat) v.toNat ∧ opened s r bpmPage (0x140 + 8 * i.toNat) = true ∧ avail u .granules < sumMin u .granules) ∧
    (∃ (s : State) (r : Requester) (i : BitVec 4), opened s r bpmPage (0x140 + 8 * i.toNat + 4) = true) ∧
    (∃ (s : State) (c : Copy) (rest : List Copy), s.admitting = c :: rest) ∧
    (∃ (s : State) (c : Copy), egressBlocked s c.port = false ∧ portQ s c.port = 2 ∧ marked s (qIdx c.port c.frame.tc) = false ∧ csmaNow s c.port = false) ∧
    (∃ (s : State) (c : Copy), egressBlocked s c.port = false ∧ portQ s c.port ≠ 2 ∧ marked s (qIdx c.port c.frame.tc) = false ∧ (queueOf s (qIdx c.port c.frame.tc)).spill = true) ∧
    (∃ (s : State) (c : Copy), egressBlocked s c.port = false ∧ portQ s c.port ≠ 2 ∧ marked s (qIdx c.port c.frame.tc) = false ∧ (queueOf s (qIdx c.port c.frame.tc)).spill = false ∧ draining s (tmsPage c.port) = false ∧ pushout s = false ∧ ((qGran s (qIdx c.port c.frame.tc) + granulesOf c.frame : Nat) : Int) ≤ max (threshold s (qIdx c.port c.frame.tc)) (qResv s (qIdx c.port c.frame.tc) : Nat) ∧ takeOver s c = 0) ∧
    (∃ (s : State) (k : BitVec 2) (q : Nat) (f : QFrame), firstStaged s k.toNat = some (q, f) ∧ marked s q = false) ∧
    (∃ (s : State) (q : BitVec 10) (f : QFrame), queueNo q.toNat = true ∧ (queueOf s q.toNat).frames.find? (fun f => f.place == .dram) = some f ∧ (∀ p ∈ f.pages, wordBad s (descWord s p) = false) ∧ badWords s f.pages f.off (recSize f.frame) = [] ∧ unreadable s f.pages = false ∧ marked s q.toNat = false ∧ refillGran (queueOf s q.toNat) = 0) ∧
    (∃ (s : State) (g : BitVec 4), s.gran.fencedGroups.contains g.toNat = false ∧ s.gran.fencing.contains g.toNat = false ∧ s.gran.fencing = [] ∧ 32768 + sumMin s .granules ≤ avail s .granules) ∧
    (∃ (s : State) (g : BitVec 4), s.gran.fencedGroups.contains g.toNat = false ∧ s.gran.fencing.contains g.toNat = false ∧ (s.gran.fencing ≠ [] ∨ avail s .granules < 32768 + sumMin s .granules)) ∧
    (∃ (s : State) (g : BitVec 4), s.gran.fencing.contains g.toNat = true ∧ usedGranules s.gran g.toNat = []) :=
  ⟨⟨S0, .host, 15, 1, _, rfl, by decide +kernel⟩,
   ⟨S0, .host, 15, 0xFFFFFFFF, _, rfl, by decide +kernel⟩,
   ⟨S0, .host, 15, by decide +kernel⟩,
   ⟨{ S0 with admitting := [c1] }, c1, [], by decide +kernel⟩,
   ⟨S0, c1, by decide +kernel⟩,
   ⟨qS upP 504 { spill := true }, c1, by decide +kernel⟩,
   ⟨setBuf (wreg upP bpmPage 0x100 0) .granules 5 { st := .held, owner := 3, chain := [5] }, c1, by decide +kernel⟩,
   ⟨qS upP 504 { frames := [q1 .staged], spill := true }, 3, 504, q1 .staged, by decide +kernel⟩,
   ⟨qS upP 504 { frames := [q1 .dram], spill := true }, 504, q1 .dram, by decide +kernel⟩,
   ⟨S0, 15, by decide +kernel⟩,
   ⟨{ S0 with gran := { fencing := [15] } }, 0, by decide +kernel⟩,
   ⟨{ S0 with gran := { fencing := [15] } }, 15, by decide +kernel⟩⟩

end Pools

/-! ### Witnesses: queues -/

namespace Queues

def q1 (r : Bool) : QFrame := { frame := F1, seq := 0, place := .sram, ready := r }
def qS (s : State) (q : Nat) (f : Queue) : State := { s with queues := mapSet (fun _ => ({} : Queue)) s.queues q f }
def U63 : State := setLink' S0 63 2
def G63 : State := tset (tset (setBit U63 (gatPage 63) 0x100 0 true) (gatPage 63) 1 0 0 (BitVec.ofNat 1920 (2^159 + 2^128 + 1000000 * 2^96))) (gatPage 63) 0 0 0 (0xFF + 1000000 * 256)
def tx1 : Tx := { queue := 511, qf := q1 true, wire := fr 60 }
def R63 : State := qS U63 511 { frames := [q1 true] }
def fI : Frame := { F1 with complete := false }
def q0 (n : Nat) (f : Frame) : QFrame := { frame := f, seq := BitVec.ofNat 32 n, place := .sram }
def CT : State := wreg U63 (tmsPage 63) 0x100 0xFF

/-- States and operands that meet the hypotheses of each clause of QueuesAndGates. -/
theorem witness_QueuesAndGates :
    (∃ (s : State) (q : BitVec 10) (n : Word) (f : QFrame), queueNo q.toNat = true ∧ (queueOf s q.toNat).frames.find? (fun f => f.seq == n) = some f ∧ (queueOf s q.toNat).skipped.contains n = false ∧ (f.place = .sram ∨ f.place = .refill) ∧ 4096 ≤ (n - (queueOf s q.toNat).nextSeq).toNat) ∧
    (∃ (s : State) (q : BitVec 10) (n : Word) (f : QFrame), queueNo q.toNat = true ∧ (queueOf s q.toNat).frames.find? (fun f => f.seq == n) = some f ∧ (queueOf s q.toNat).skipped.contains n = false ∧ (f.place = .sram ∨ f.place = .refill) ∧ (n - (queueOf s q.toNat).nextSeq).toNat < 4096 ∧ f.frame.complete = true ∧ f.frame.bad = false) ∧
    (∃ (s : State) (q : BitVec 10) (n : Word) (f : QFrame), queueNo q.toNat = true ∧ (queueOf s q.toNat).frames.find? (fun f => f.seq == n) = some f ∧ (queueOf s q.toNat).skipped.contains n = false ∧ (f.place = .sram ∨ f.place = .refill) ∧ (n - (queueOf s q.toNat).nextSeq).toNat < 4096 ∧ f.frame.complete = true ∧ f.frame.bad = true) ∧
    (∃ (s : State) (q : BitVec 10) (n : Word) (f : QFrame), queueNo q.toNat = true ∧ (queueOf s q.toNat).frames.find? (fun f => f.seq == n) = some f ∧ (queueOf s q.toNat).skipped.contains n = false ∧ (f.place = .sram ∨ f.place = .refill) ∧ (n - (queueOf s q.toNat).nextSeq).toNat < 4096 ∧ f.frame.complete = false ∧ mayCutThrough s (qPort q.toNat) (qTc q.toNat) f = false) ∧
    (∃ (s : State) (q : BitVec 10) (n : Word) (f : QFrame) (u : State), u = setFrame s q.toNat n (fun f => { f with ready := true, cutThrough := true }) ∧ queueNo q.toNat = true ∧ (queueOf s q.toNat).frames.find? (fun f => f.seq == n) = some f ∧ (queueOf s q.toNat).skipped.contains n = false ∧ (f.place = .sram ∨ f.place = .refill) ∧ (n - (queueOf s q.toNat).nextSeq).toNat < 4096 ∧ f.frame.complete = false ∧ mayCutThrough s (qPort q.toNat) (qTc q.toNat) f = true ∧ (pick (fillTokens u (qPort q.toNat)) (qPort q.toNat)).1.map (·.1) = some (qTc q.toNat)) ∧
    (∃ (s : State) (q : BitVec 10) (n : Word) (f : QFrame) (u : State), u = setFrame s q.toNat n (fun f => { f with ready := true, cutThrough := true }) ∧ queueNo q.toNat = true ∧ (queueOf s q.toNat).frames.find? (fun f => f.seq == n) = some f ∧ (queueOf s q.toNat).skipped.contains n = false ∧ (f.place = .sram ∨ f.place = .refill) ∧ (n - (queueOf s q.toNat).nextSeq).toNat < 4096 ∧ f.frame.complete = false ∧ mayCutThrough s (qPort q.toNat) (qTc q.toNat) f = true ∧ (pick (fillTokens u (qPort q.toNat)) (qPort q.toNat)).1.map (·.1) ≠ some (qTc q.toNat)) ∧
    (∃ (s : State) (q : BitVec 10) (n : Word) (f : QFrame), queueNo q.toNat = true ∧ (queueOf s q.toNat).frames.find? (fun f => f.seq == n) = some f ∧ (queueOf s q.toNat).skipped.contains n = true) ∧
    (∃ (s : State) (q : BitVec 10) (y : Queue), y = { queueOf s q.toNat with skipped := (queueOf s q.toNat).skipped ++ [(queueOf s q.toNat).nextSeq], nextSeq := (queueOf s q.toNat).nextSeq + 1 } ∧ queueNo q.toNat = true ∧ (∀ f, headOf s q.toNat = some f → f.ready = false) ∧ (queueOf s q.toNat).reported.contains (queueOf s q.toNat).nextSeq = false ∧ (queueOf s q.toNat).frames.any (fun f => f.ready) = true) ∧
    (∃ (s : State) (q : BitVec 10), queueNo q.toNat = true ∧ (queueOf s q.toNat).frames.any (fun f => f.ready) = false) ∧
    (∃ (s : State) (port : Port) (u : State), u = gateOversize (fillTokens (creditTick s port.toNat) port.toNat) port.toNat ∧ isQueuePort port.toNat = true ∧ port.toNat ≠ 112 ∧ port.toNat ≠ 113 ∧ fwActive s port.toNat = false ∧ (isT1s port.toNat && plcaLive s port.toNat) = false ∧ portFree u port.toNat = false) ∧
    (∃ (s : State) (v : State) (port : Port) (u : State), u = gateOversize (fillTokens (creditTick s port.toNat) port.toNat) port.toNat ∧ isQueuePort port.toNat = true ∧ port.toNat ≠ 112 ∧ port.toNat ≠ 113 ∧ fwActive s port.toNat = false ∧ (isT1s port.toNat && plcaLive s port.toNat) = false ∧ portFree u port.toNat = true ∧ pick u port.toNat = (none, v)) ∧
    (∃ (s : State) (v : State) (port : Port) (c : Nat) (tier : Nat) (f : QFrame) (u : State), u = gateOversize (fillTokens (creditTick s port.toNat) port.toNat) port.toNat ∧ isQueuePort port.toNat = true ∧ port.toNat ≠ 112 ∧ port.toNat ≠ 113 ∧ fwActive s port.toNat = false ∧ (isT1s port.toNat && plcaLive s port.toNat) = false ∧ portFree u port.toNat = true ∧ pick u port.toNat = (some (c, tier), v) ∧ nextOf v port.toNat c = some f) ∧
    (∃ (s : State) (port : Port), 96 ≤ port.toNat ∧ port.toNat < 104 ∧ fwActive s port.toNat = false ∧ plcaLive s port.toNat = true) ∧
    (∃ (s : State) (port : Port), isQueuePort port.toNat = true ∧ fwActive s port.toNat = true) ∧
    (∃ (s : State), fwActive s 112 = false) ∧
    (∃ (s : State), fwActive s 113 = false) ∧
    (∃ (s : State) (port : Port) (t : Tx) (u : State), u = gatFree (burstTimer (setColl (setEport (creditEnd (creditTick s port.toNat) port.toNat t) port.toNat { eportOf (creditTick s port.toNat) port.toNat with tx := none }) port.toNat {}) port.toNat) port.toNat ∧ isQueuePort port.toNat = true ∧ isT1s port.toNat = false ∧ (collOf s port.toNat).waiting = false ∧ (eportOf (creditTick s port.toNat) port.toNat).tx = some t ∧ t.qf.cutThrough = false ∧ t.stomp = false ∧ t.held = false ∧ t.qf.again = none ∧ t.mirror = 0) ∧
    (∃ (s : State) (port : Port) (t : Tx) (u : State), u = gatFree (burstTimer (setColl (setEport (creditEnd (countReason (creditTick s port.toNat) (portRegion port.toNat) 0x0E) port.toNat t) port.toNat { eportOf (creditTick s port.toNat) port.toNat with tx := none }) port.toNat {}) port.toNat) port.toNat ∧ isQueuePort port.toNat = true ∧ isT1s port.toNat = false ∧ (collOf s port.toNat).waiting = false ∧ (eportOf (creditTick s port.toNat) port.toNat).tx = some t ∧ t.qf.cutThrough = true ∧ t.qf.frame.complete = false ∧ t.held = false ∧ t.qf.again = none) ∧
    (∃ (s : State) (port : Port), isQueuePort port.toNat = true ∧ (eportOf (creditTick s port.toNat) port.toNat).tx = none) ∧
    (∃ (s : State) (port : Port), port.toNat ≤ 105 ∧ gatesRun s port.toNat = false) ∧
    (∃ (s : State) (port : Port) (g : GateList), port.toNat ≤ 105 ∧ gatesRun s port.toNat = true ∧ portGates s port.toNat = some g) ∧
    (∃ (s : State) (r : Requester) (port : Port) (u : State), u = written s (gatPage port.toNat) 0x104 (rewritten s (gatPage port.toNat) 0x104 1 1) ∧ port.toNat ≤ 105 ∧ opened s r (gatPage port.toNat) 0x104 = true ∧ (gatBank s port.toNat).retiring = false ∧ (gatBank s port.toNat).guard = false) ∧
    (∃ (s : State) (r : Requester) (port : Port) (u : State), u = written s (gatPage port.toNat) 0x104 (rewritten s (gatPage port.toNat) 0x104 1 1) ∧ port.toNat ≤ 105 ∧ opened s r (gatPage port.toNat) 0x104 = true ∧ ((gatBank s port.toNat).retiring = true ∨ (gatBank s port.toNat).guard = true)) ∧
    (∃ (s : State) (r : Requester) (k : BitVec 3) (u : State), u = written s (mtrPage k.toNat) 0x100 (rewritten s (mtrPage k.toNat) 0x100 1 1) ∧ k.toNat ≤ 4 ∧ opened s r (mtrPage k.toNat) 0x100 = true ∧ (pipeOf s k.toNat).mtr.retiring = false ∧ (pipeOf s k.toNat).mtr.guard = false) ∧
    (∃ (s : State) (r : Requester) (k : BitVec 3) (u : State), u = written s (mtrPage k.toNat) 0x100 (rewritten s (mtrPage k.toNat) 0x100 1 1) ∧ k.toNat ≤ 4 ∧ opened s r (mtrPage k.toNat) 0x100 = true ∧ ((pipeOf s k.toNat).mtr.retiring = true ∨ (pipeOf s k.toNat).mtr.guard = true)) :=
  ⟨⟨qS S0 847 { frames := [q0 4096 F1] }, 847, 4096, q0 4096 F1, by decide +kernel⟩,
   ⟨qS S0 847 { frames := [q0 4095 F1] }, 847, 4095, q0 4095 F1, by decide +kernel⟩,
   ⟨qS S0 847 { frames := [q0 0 { F1 with bad := true }] }, 847, 0, q0 0 { F1 with bad := true }, by decide +kernel⟩,
   ⟨qS S0 847 { frames := [q0 0 fI] }, 847, 0, q0 0 fI, by decide +kernel⟩,
   ⟨qS CT 511 { frames := [q0 0 fI] }, 511, 0, q0 0 fI, _, rfl, by decide +kernel⟩,
   ⟨qS (qS CT 511 { frames := [q1 true] }) 504 { frames := [q0 0 fI] }, 504, 0, q0 0 fI, _, rfl, by decide +kernel⟩,
   ⟨qS S0 847 { frames := [q1 false], skipped := [0] }, 847, 0, q1 false, by decide +kernel⟩,
   ⟨qS S0 847 { frames := [{ q1 true with seq := 1 }] }, 847, _, rfl, by decide +kernel⟩,
   ⟨qS S0 847 { frames := [{ q1 false with seq := 1 }] }, 847, by decide +kernel⟩,
   ⟨S0, 63, _, rfl, by decide +kernel⟩,
   ⟨U63, (pick (gateOversize (fillTokens (creditTick U63 63) 63) 63) 63).2, 63, _, rfl, by decide +kernel⟩,
   ⟨R63, (pick (gateOversize (fillTokens (creditTick R63 63) 63) 63) 63).2, 63, 7, 2, q1 true, _, rfl, by decide +kernel⟩,
   ⟨setEport (wreg S0 (fpPage 103) 0x12C 1) 103 { plca := 1, burst := 1, burstUntil := 10 }, 103, by decide +kernel⟩,
   ⟨{ setFld S0 fwPage 0x108 2 0 2 with fwTabs := mapSet (fun _ => 0) [] (tabKey fwPage 0 0 0) (63 + 256) }, 63, by decide +kernel⟩,
   ⟨qS (wreg S0 0 0 0) 896 { frames := [{ q1 true with frame := { F1 with hostCode := 3 } }] }, by decide +kernel⟩,
   ⟨qS S0 904 { frames := [q1 true] }, by decide +kernel⟩,
   ⟨setEport U63 63 { tx := some tx1 }, 63, tx1, _, rfl, by decide +kernel⟩,
   ⟨setEport U63 63 { tx := some { tx1 with qf := { tx1.qf with cutThrough := true, frame := fI } } }, 63, { tx1 with qf := { tx1.qf with cutThrough := true, frame := fI } }, _, rfl, by decide +kernel⟩,
   ⟨U63, 63, by decide +kernel⟩,
   ⟨U63, 63, by decide +kernel⟩,
   ⟨G63, 63, { base := 0, cycle := 1000000, tb := 0, intervals := [1000000] }, by decide +kernel⟩,
   ⟨S0, .host, 63, _, rfl, by decide +kernel⟩,
   ⟨{ S0 with gates := mapSet (fun _ => ({} : Bank)) S0.gates 63 { retiring := true } }, .host, 63, _, rfl, by decide +kernel⟩,
   ⟨S0, .host, 4, _, rfl, by decide +kernel⟩,
   ⟨{ S0 with pipes := mapSet (fun _ => ({} : Pipe)) S0.pipes 4 { mtr := { guard := true } } }, .host, 4, _, rfl, by decide +kernel⟩⟩

/-- States and operands that meet the hypotheses of each clause of SchedulerTiers. -/
theorem witness_SchedulerTiers :
    (∃ (s : State) (port : Nat), port ≤ 105 ∧ bitAt s (gatPage port) 0x100 0 = true ∧ (gatesNow s port).testBit 7 = true ∧ (eligible s port 7).isSome = true) ∧
    (∃ (s : State) (port : Nat) (c : Nat), port ≤ 105 ∧ bitAt s (gatPage port) 0x100 0 = false ∧ c < 8 ∧ shaperAllows s port = true ∧ (eligible s port c).isSome = true ∧ schMode s port c = 0 ∧ (∀ d < 8, c < d → eligible s port d = none) ∧ (∀ d < 8, fld s (schPage port) (0x140 + 16 * d) 31 20 = 0)) ∧
    (∃ (s : State) (port : Nat) (r : Nat), r = (if schMode s port (eportOf s port).rr = 1 then (eportOf s port).rr else nextDwrr s port (eportOf s port).rr) ∧ port ≤ 105 ∧ bitAt s (gatPage port) 0x100 0 = false ∧ tier2 s port = none ∧ hasDwrr s port = true ∧ (∀ d < 8, fld s (schPage port) (0x140 + 16 * d) 31 20 = 0)) ∧
    (∃ (s : State) (port : Nat), (eportOf s port).rr < 8 ∧ (∀ d < 8, (eportOf s port).paused.testBit d = true)) ∧
    (∃ (s : State) (port : Nat) (c : Nat) (f : QFrame), eligible s port c = some f) ∧
    (∃ (s : State) (port : Nat) (c : Nat) (f : QFrame), eligible s port c = some f ∧ f.again = none) :=
  ⟨⟨qS G63 511 { frames := [q1 true] }, 63, by decide +kernel⟩,
   ⟨R63, 63, 7, by decide +kernel⟩,
   ⟨qS (wreg U63 (schPage 63) (0x140+16*6) 0x5DC1) 510 { frames := [q1 true] }, 63, _, rfl, by decide +kernel⟩,
   ⟨setEport R63 63 { paused := 0xFF }, 63, by decide +kernel⟩,
   ⟨R63, 63, 7, q1 true, by decide +kernel⟩,
   ⟨R63, 63, 7, q1 true, by decide +kernel⟩⟩

end Queues

/-! ### Witnesses: custody -/

namespace Custody

def rec1 : Record := { frame := F1, cts := 0, untimed := false, pages := [] }
def cqS (s : State) (q : Nat) (c : CQueue) : State := setCq s q c
def cstS : State := setFld (setBit S0 cstPage 0x100 0 true) cstPage 0x104 0 0 1
def tbS : State := setBit cstS (tbPage 0) 0x104 0 true
def oldS : State := { tbS with baseCount := 153600000000 * 31536000, tbs := [] }
def holdS (c : Nat) : State := { setFld S0 pwrPage 0x10C 2 0 c with mode := .custodyHold }
def ppm : State := setBit S0 ppmPage 0x100 0 true
def two : State := { cstS with cust := { draining := some 14 } }
def dr (b : Nat) (x : Buf) : State := let y := setBuf ppm .pages b x; { y with cust := { draining := some 15 } }
def badW : State := { setCq cstS 845 { en := true, st := 4, records := [{ rec1 with pages := [7] }] } with dramBad := [descWord S0 7, linkWord S0 7] }
def rp845 : State := setCq cstS 845 { en := true, st := 4, records := [rec1] }
def exp845 (st : Nat) : State := setCq oldS 845 { en := true, st := st, records := [rec1] }
def offC : State := { S0 with dimms := mapSet dimmDflt S0.dimms 15 { serial := 1, inService := false } }

/-- States and operands that meet the hypotheses of each clause of CustodyQueues. -/
theorem witness_CustodyQueues :
    (∃ (s : State) (q : BitVec 10), queueNo q.toNat = true ∧ (cqOf s q.toNat).pendingEn = none) ∧
    (∃ (s : State) (q : BitVec 10), queueNo q.toNat = true ∧ queueEmpty s q.toNat = false) ∧
    (∃ (s : State) (q : BitVec 10) (v : Bool), queueNo q.toNat = true ∧ (cqOf s q.toNat).pendingEn = some v ∧ queueEmpty s q.toNat = true) ∧
    (∃ (s : State) (q : BitVec 10), queueNo q.toNat = true ∧ (cqOf s q.toNat).st = 3 ∧ cstReady s = true ∧ (cqOf s q.toNat).records = [] ∧ (∀ f ∈ (queueOf s q.toNat).frames, f.place ≠ .staged)) ∧
    (∃ (s : State) (q : BitVec 10), queueNo q.toNat = true ∧ (cqOf s q.toNat).st = 3 ∧ cstReady s = true ∧ (cqOf s q.toNat).records ≠ [] ∧ tbValid s 0 = false ∧ bitAt s cstPage 0x100 1 = false) ∧
    (∃ (s : State) (q : BitVec 10), queueNo q.toNat = true ∧ (cqOf s q.toNat).st = 3 ∧ cstReady s = true ∧ (cqOf s q.toNat).records ≠ [] ∧ (tbValid s 0 = true ∨ bitAt s cstPage 0x100 1 = true)) ∧
    (∃ (s : State) (q : BitVec 10), queueNo q.toNat = true ∧ (cqOf s q.toNat).st ≠ 3) ∧
    (∃ (s : State) (q : BitVec 10) (r : Record) (rest : List Record), queueNo q.toNat = true ∧ (cqOf s q.toNat).records = r :: rest ∧ (cqOf s q.toNat).st = 4 ∧ cstReady s = true ∧ (cqOf s q.toNat).walkTill ≤ now s ∧ spanBlocked s (qPort q.toNat) (qTc q.toNat) true = false ∧ (readChain s r.pages).1 = false) ∧
    (∃ (s : State) (q : BitVec 10) (r : Record) (rest : List Record), queueNo q.toNat = true ∧ (cqOf s q.toNat).records = r :: rest ∧ (cqOf s q.toNat).st = 4 ∧ cstReady s = true ∧ (cqOf s q.toNat).walkTill ≤ now s ∧ spanBlocked s (qPort q.toNat) (qTc q.toNat) true = false ∧ (∀ p ∈ r.pages, wordBad s (descWord s p) = false) ∧ (unreadable s r.pages = true ∨ badWords s r.pages r.off (recSize r.frame) ≠ [])) ∧
    (∃ (s : State) (q : BitVec 10) (r : Record) (rest : List Record), queueNo q.toNat = true ∧ (cqOf s q.toNat).records = r :: rest ∧ (cqOf s q.toNat).st = 4 ∧ cstReady s = true ∧ (cqOf s q.toNat).walkTill ≤ now s ∧ spanBlocked s (qPort q.toNat) (qTc q.toNat) true = false ∧ (∀ p ∈ r.pages, wordBad s (descWord s p) = false) ∧ unreadable s r.pages = false ∧ badWords s r.pages r.off (recSize r.frame) = [] ∧ expired s q.toNat r.cts r.untimed = true) ∧
    (∃ (s : State) (q : BitVec 10) (r : Record) (rest : List Record), queueNo q.toNat = true ∧ (cqOf s q.toNat).records = r :: rest ∧ (cqOf s q.toNat).st = 4 ∧ cstReady s = true ∧ (cqOf s q.toNat).walkTill ≤ now s ∧ spanBlocked s (qPort q.toNat) (qTc q.toNat) true = false ∧ (∀ p ∈ r.pages, wordBad s (descWord s p) = false) ∧ unreadable s r.pages = false ∧ badWords s r.pages r.off (recSize r.frame) = [] ∧ expired s q.toNat r.cts r.untimed = false ∧ ((fillBucket s q.toNat).bucket < 0 ∨ (refillGran (queueOf s q.toNat) ≠ 0 ∧ refillWindow s (qPort q.toNat) < refillGran (queueOf s q.toNat) + granulesOf r.frame))) ∧
    (∃ (s : State) (q : BitVec 10) (r : Record) (rest : List Record) (t : State), queueNo q.toNat = true ∧ (cqOf s q.toNat).records = r :: rest ∧ (cqOf s q.toNat).st = 4 ∧ cstReady s = true ∧ (cqOf s q.toNat).walkTill ≤ now s ∧ spanBlocked s (qPort q.toNat) (qTc q.toNat) true = false ∧ (∀ p ∈ r.pages, wordBad s (descWord s p) = false) ∧ unreadable s r.pages = false ∧ badWords s r.pages r.off (recSize r.frame) = [] ∧ expired s q.toNat r.cts r.untimed = false ∧ 0 ≤ (fillBucket s q.toNat).bucket ∧ (refillGran (queueOf s q.toNat) = 0 ∨ refillGran (queueOf s q.toNat) + granulesOf r.frame ≤ refillWindow s (qPort q.toNat)) ∧ grant (setCq s q.toNat (fillBucket s q.toNat)) .granules (tmsReq q.toNat) (granulesOf r.frame) 5 = (none, t)) ∧
    (∃ (s : State) (q : BitVec 10) (r : Record) (rest : List Record) (t : State) (b : Nat) (v : State) (u : State) (w : State), v = setCq t q.toNat { cqOf t q.toNat with records := rest, bucket := (fillBucket s q.toNat).bucket - (schedLen t (qPort q.toNat) r.frame : Nat) } ∧ u = enqueue v { frame := { r.frame with tc := qTc q.toNat, complete := true }, port := qPort q.toNat, buf := b, replay := true } .refill (r.cts, r.untimed) ∧ w = (if isSpanPort v (qPort q.toNat) then setFrame u q.toNat ((queueOf u q.toNat).seqCtr - 1) (fun f => { f with pages := r.pages }) else releaseRecord u q.toNat r.pages) ∧ queueNo q.toNat = true ∧ (cqOf s q.toNat).records = r :: rest ∧ (cqOf s q.toNat).st = 4 ∧ cstReady s = true ∧ (cqOf s q.toNat).walkTill ≤ now s ∧ spanBlocked s (qPort q.toNat) (qTc q.toNat) true = false ∧ (∀ p ∈ r.pages, wordBad s (descWord s p) = false) ∧ unreadable s r.pages = false ∧ badWords s r.pages r.off (recSize r.frame) = [] ∧ expired s q.toNat r.cts r.untimed = false ∧ 0 ≤ (fillBucket s q.toNat).bucket ∧ (refillGran (queueOf s q.toNat) = 0 ∨ refillGran (queueOf s q.toNat) + granulesOf r.frame ≤ refillWindow s (qPort q.toNat)) ∧ grant (setCq s q.toNat (fillBucket s q.toNat)) .granules (tmsReq q.toNat) (granulesOf r.frame) 5 = (some b, t)) ∧
    (∃ (s : State) (q : BitVec 10) (r : Record) (rest : List Record), queueNo q.toNat = true ∧ (cqOf s q.toNat).records = r :: rest ∧ (cqOf s q.toNat).st ≠ 4) ∧
    (∃ (s : State) (q : BitVec 10) (u : State), u = spillDone (expireHead (cqRecords s q.toNat) s q.toNat) q.toNat ∧ queueNo q.toNat = true ∧ marked s q.toNat = true) ∧
    (∃ (s : State) (q : Nat) (t : Nat × Bool), oldestRecord s q = some t) ∧
    (∃ (s : State), tbValid s 0 = true) ∧
    (∃ (s : State) (r : Requester) (v : Word) (q : Nat) (u : State) (t : State), u = written s cstPage 0x128 (v.toNat ||| 2 ^ 31) ∧ t = dropAll 0xA9 (cqRecords u q) u q ∧ opened s r cstPage 0x128 = true ∧ q = v.toNat % 1024 ∧ marked s q = true ∧ ((cqOf t q).st = 2 ∨ portQ t (qPort q) = 2)) ∧
    (∃ (s : State) (r : Requester) (v : Word) (q : Nat) (u : State) (t : State), u = written s cstPage 0x128 (v.toNat ||| 2 ^ 31) ∧ t = dropAll 0xA9 (cqRecords u q) u q ∧ opened s r cstPage 0x128 = true ∧ q = v.toNat % 1024 ∧ marked s q = true ∧ (cqOf t q).st ≠ 2 ∧ portQ t (qPort q) ≠ 2 ∧ (∀ f ∈ (queueOf t q).frames, f.place ≠ .staged)) ∧
    (∃ (s : State) (r : Requester) (v : Word) (q : Nat) (u : State) (t : State), u = written s cstPage 0x128 (v.toNat ||| 2 ^ 31) ∧ t = dropAll 0xA9 (cqRecords u q) u q ∧ opened s r cstPage 0x128 = true ∧ q = v.toNat % 1024 ∧ marked s q = true ∧ (cqOf t q).st ≠ 2 ∧ portQ t (qPort q) ≠ 2 ∧ (queueOf t q).frames.any (fun f => f.place == .staged) = true) :=
  ⟨⟨S0, 845, by decide +kernel⟩,
   ⟨setCq S0 845 { en := true, records := [rec1], pendingEn := some false }, 845, by decide +kernel⟩,
   ⟨setCq S0 845 { en := true, pendingEn := some false }, 845, false, by decide +kernel⟩,
   ⟨setCq tbS 845 { en := true, st := 3 }, 845, by decide +kernel⟩,
   ⟨setCq cstS 845 { en := true, st := 3, records := [rec1] }, 845, by decide +kernel⟩,
   ⟨setCq tbS 845 { en := true, st := 3, records := [rec1] }, 845, by decide +kernel⟩,
   ⟨setCq tbS 845 { en := true, st := 2, records := [rec1] }, 845, by decide +kernel⟩,
   ⟨badW, 845, { rec1 with pages := [7] }, [], by decide +kernel⟩,
   ⟨setBuf (setCq cstS 845 { en := true, st := 4, records := [{ rec1 with pages := [7] }] }) .pages 7 { st := .held, bad := true }, 845, { rec1 with pages := [7] }, [], by decide +kernel⟩,
   ⟨exp845 4, 845, rec1, [], by decide +kernel⟩,
   ⟨setCq cstS 845 { en := true, st := 4, records := [rec1], bucket := -1 }, 845, rec1, [], by decide +kernel⟩,
   ⟨setUsage rp845 .granules (tmsReq 845) 0xFFFFFF, 845, rec1, [], (grant (setCq (setUsage rp845 .granules (tmsReq 845) 0xFFFFFF) 845 (fillBucket (setUsage rp845 .granules (tmsReq 845) 0xFFFFFF) 845)) .granules (tmsReq 845) (granulesOf F1) 5).2, by decide +kernel⟩,
   ⟨rp845, 845, rec1, [], (grant (setCq rp845 845 (fillBucket rp845 845)) .granules (tmsReq 845) (granulesOf F1) 5).2, ((grant (setCq rp845 845 (fillBucket rp845 845)) .granules (tmsReq 845) (granulesOf F1) 5).1).getD 0, _, _, _, rfl, rfl, rfl, by decide +kernel⟩,
   ⟨setCq tbS 845 { en := true, st := 2, records := [rec1] }, 845, rec1, [], by decide +kernel⟩,
   ⟨exp845 4, 845, _, rfl, by decide +kernel⟩,
   ⟨exp845 4, 845, (0, false), by decide +kernel⟩,
   ⟨tbS, by decide +kernel⟩,
   ⟨setCq tbS 845 { en := true, st := 2, records := [rec1] }, .host, 845, 845, _, _, rfl, rfl, by decide +kernel⟩,
   ⟨setCq (setLink' tbS 105 2) 845 { en := true, st := 4, records := [rec1] }, .host, 845, 845, _, _, rfl, rfl, by decide +kernel⟩,
   ⟨{ setCq (setLink' tbS 105 2) 845 { en := true, st := 4, records := [rec1] } with queues := mapSet (fun _ => ({} : Queue)) [] 845 { frames := [{ frame := F1, seq := 0, place := .staged, buf := some 5 }] } }, .host, 845, 845, _, _, rfl, rfl, by decide +kernel⟩⟩

/-- States and operands that meet the hypotheses of each clause of CustodyHoldAndRebuild. -/
theorem witness_CustodyHoldAndRebuild :
    (∃ (s : State), s.mode = .run ∧ fwState s = 0) ∧
    (∃ (s : State), s.mode = .run ∧ fwState s ≠ 0) ∧
    (∃ (s : State), s.mode ≠ .run) ∧
    (∃ (c : Nat), c < 8) ∧
    (∃ (s : State) (r : Requester), opened s r cstPage 0x138 = true) ∧
    (∃ (s : State) (r : Requester), opened s r cstPage 0x138 = true) ∧
    (∃ (s : State), bitAt s cstPage 0x104 0 = true ∧ 0 < fld s jrnPage 0x100 15 0) ∧
    (∃ (s : State), (bitAt s cstPage 0x104 0 = false ∨ fld s jrnPage 0x100 15 0 = 0)) ∧
    (∃ (s : State) (r : Requester), opened s r jrnPage 0x104 = true ∧ bitAt s cstPage 0x104 0 = true) ∧
    (∃ (s : State) (k : Nat), (channels s).contains 0 = true ∧ (channels s).contains 8 = true ∧ k = (match newestJournal s with | none => 0 | some e => 1 - e.1 % 2)) ∧
    (∃ (s : State), (channels s).contains 0 = false ∧ (channels s).contains 8 = false) ∧
    (∃ (s : State), s.mode = .custodyHold ∧ s.pins.resetN = true ∧ aonWarm s = true ∧ ((holdCause s = 1 ∨ holdCause s = 2 ∨ holdCause s = 5) ∨ (holdCause s = 4 ∧ aonCool s = true))) ∧
    (∃ (s : State), s.mode = .custodyHold ∧ s.pins.resetN = true ∧ aonWarm s = false ∧ ((holdCause s = 1 ∨ holdCause s = 2 ∨ holdCause s = 5) ∨ (holdCause s = 4 ∧ aonCool s = true))) ∧
    (∃ (s : State), (s.mode ≠ .custodyHold ∨ s.pins.resetN = false ∨ holdCause s = 3 ∨ (holdCause s = 4 ∧ aonCool s = false))) ∧
    (∃ (s : State), fld s cstPage 0x104 6 4 = 1) ∧
    (∃ (s : State), fld s cstPage 0x104 6 4 = 2) ∧
    (∃ (s : State), fld s cstPage 0x104 6 4 = 3) ∧
    (∃ (s : State), fld s cstPage 0x104 6 4 = 4) :=
  ⟨⟨S0, by decide +kernel⟩,
   ⟨setFld S0 fwPage 0x108 2 0 2, by decide +kernel⟩,
   ⟨holdS 1, by decide +kernel⟩,
   ⟨7, by decide +kernel⟩,
   ⟨S0, .host, by decide +kernel⟩,
   ⟨S0, .host, by decide +kernel⟩,
   ⟨setFld cstS jrnPage 0x100 15 0 10, by decide +kernel⟩,
   ⟨setFld S0 jrnPage 0x100 15 0 10, by decide +kernel⟩,
   ⟨setFld cstS jrnPage 0x100 15 0 10, .host, by decide +kernel⟩,
   ⟨cstS, 0, by decide +kernel⟩,
   ⟨{ S0 with dimms := mapSet dimmDflt (mapSet dimmDflt S0.dimms 0 { serial := 1, inService := false }) 8 { serial := 1, inService := false } }, by decide +kernel⟩,
   ⟨holdS 4, by decide +kernel⟩,
   ⟨{ holdS 5 with therm := { S0.therm with aonDeck := -46 } }, by decide +kernel⟩,
   ⟨holdS 3, by decide +kernel⟩,
   ⟨setFld S0 cstPage 0x104 6 4 1, by decide +kernel⟩,
   ⟨setFld S0 cstPage 0x104 6 4 2, by decide +kernel⟩,
   ⟨setFld S0 cstPage 0x104 6 4 3, by decide +kernel⟩,
   ⟨setFld S0 cstPage 0x104 6 4 4, by decide +kernel⟩⟩

/-- States and operands that meet the hypotheses of each clause of ChannelDrainAndReadmit. -/
theorem witness_ChannelDrainAndReadmit :
    (∃ (s : State) (r : Requester) (k : BitVec 4) (u : State) (v : State), u = written s cstPage 0x12C (rewritten s cstPage 0x12C 0x10F (k.toNat + 0x100)) ∧ v = { u with cust := { u.cust with draining := some k.toNat }, page := { u.page with closed := k.toNat :: u.page.closed } } ∧ opened s r cstPage 0x12C = true ∧ drainCause u k.toNat = 0) ∧
    (∃ (s : State) (r : Requester) (k : BitVec 4) (u : State) (v : State), u = written s cstPage 0x12C (rewritten s cstPage 0x12C 0x10F (k.toNat + 0x100)) ∧ v = { u with cust := { u.cust with draining := some k.toNat }, page := { u.page with closed := k.toNat :: u.page.closed } } ∧ opened s r cstPage 0x12C = true ∧ drainCause u k.toNat ≠ 0) ∧
    (∃ (s : State), (s.cust.draining ≠ none ∨ s.cust.readmitting ≠ none)) ∧
    (∃ (s : State) (k : Nat), s.cust.draining = none ∧ s.cust.readmitting = none ∧ (channels s).contains k = false) ∧
    (∃ (s : State) (k : Nat), s.cust.draining = none ∧ s.cust.readmitting = none ∧ (channels s).contains k = true ∧ freeElsewhere s k < heldOn s k + sumMin s .pages) ∧
    (∃ (s : State) (k : Nat), s.cust.draining = none ∧ s.cust.readmitting = none ∧ (channels s).contains k = true ∧ heldOn s k + sumMin s .pages ≤ freeElsewhere s k) ∧
    (∃ (s : State) (page : Nat) (k : Nat) (t : State), s.cust.draining = some k ∧ page % 16 = k ∧ (bufOf s .pages page).st = .held ∧ (bufOf s .pages page).owner = 4 ∧ ((∀ q ∈ custodyQueues s, (cqOf s q).tail.any (fun t => t.1 == page) = false ∧ (queueOf s q).tail.any (fun t => t.1 == page) = false) ∨ (∀ p ∈ usedOn s k, p ≠ page → (bufOf s .pages p).owner = 4 → (bufOf s .pages p).st ≠ .held)) ∧ grant s .pages 4 1 6 = (none, t)) ∧
    (∃ (s : State) (page : Nat) (k : Nat) (t : State) (new : Nat) (v : State), v = takePlace t (((bufOf s .pages page).tag.getD 0) % 1024) page new ∧ s.cust.draining = some k ∧ page % 16 = k ∧ (bufOf s .pages page).st = .held ∧ (bufOf s .pages page).owner = 4 ∧ ((∀ q ∈ custodyQueues s, (cqOf s q).tail.any (fun t => t.1 == page) = false ∧ (queueOf s q).tail.any (fun t => t.1 == page) = false) ∨ (∀ p ∈ usedOn s k, p ≠ page → (bufOf s .pages p).owner = 4 → (bufOf s .pages p).st ≠ .held)) ∧ grant s .pages 4 1 6 = (some new, t)) ∧
    (∃ (s : State) (page : Nat), ((∀ k, s.cust.draining = some k → page % 16 ≠ k) ∨ (bufOf s .pages page).st ≠ .held ∨ (bufOf s .pages page).owner ≠ 4)) ∧
    (∃ (s : State) (k : Nat), s.cust.draining = some k ∧ heldOn s k = 0) ∧
    (∃ (s : State), (∀ k, s.cust.draining = some k → heldOn s k ≠ 0)) ∧
    (∃ (s : State) (r : Requester) (k : Nat) (u : State) (v : State), u = written s cstPage 0x12C (rewritten s cstPage 0x12C 0x200 0x200) ∧ v = { u with cust := { u.cust with draining := none }, page := { u.page with closed := u.page.closed.filter (· != k) } } ∧ opened s r cstPage 0x12C = true ∧ s.cust.draining = some k) ∧
    (∃ (s : State) (r : Requester) (k : BitVec 4) (u : State), u = { written s cstPage 0x12C (rewritten s cstPage 0x12C 0xF k.toNat) with resp := .done } ∧ opened s r cstPage 0x12C = true ∧ (s.cust.draining ≠ none ∨ s.cust.readmitting ≠ none)) ∧
    (∃ (s : State) (r : Requester) (k : BitVec 4) (u : State), u = { written s cstPage 0x12C (rewritten s cstPage 0x12C 0xF k.toNat) with resp := .done } ∧ opened s r cstPage 0x12C = true ∧ s.cust.draining = none ∧ s.cust.readmitting = none ∧ ((channels s).contains k.toNat = true ∨ domOn s (89 + k.toNat) = false)) ∧
    (∃ (s : State) (r : Requester) (k : BitVec 4) (cap : Nat) (j : Nat) (u : State), u = { written s cstPage 0x12C (rewritten s cstPage 0x12C 0xF k.toNat) with resp := .done } ∧ opened s r cstPage 0x12C = true ∧ s.cust.draining = none ∧ s.cust.readmitting = none ∧ (channels s).contains k.toNat = false ∧ domOn s (89 + k.toNat) = true ∧ (channels s).head? = some j ∧ (dimmOf s j).capacity ≠ cap) ∧
    (∃ (s : State) (r : Requester) (k : BitVec 4) (cap : Nat) (u : State), u = { written s cstPage 0x12C (rewritten s cstPage 0x12C 0xF k.toNat) with resp := .done } ∧ opened s r cstPage 0x12C = true ∧ s.cust.draining = none ∧ s.cust.readmitting = none ∧ (channels s).contains k.toNat = false ∧ domOn s (89 + k.toNat) = true ∧ (∀ j, (channels s).head? = some j → (dimmOf s j).capacity = cap)) ∧
    (∃ (s : State) (k : Nat) (v : State), v = { s with cust := { s.cust with readmitting := none }, page := { s.page with closed := s.page.closed.filter (· != k) } } ∧ s.cust.readmitting = some k) ∧
    (∃ (s : State), s.cust.readmitting = none) :=
  ⟨⟨cstS, .host, 15, _, _, rfl, rfl, by decide +kernel⟩,
   ⟨S0, .host, 15, _, _, rfl, rfl, by decide +kernel⟩,
   ⟨two, by decide +kernel⟩,
   ⟨offC, 15, by decide +kernel⟩,
   ⟨wreg cstS ppmPage (0x140) 0xFFFFFFFF, 15, by decide +kernel⟩,
   ⟨cstS, 15, by decide +kernel⟩,
   ⟨setUsage (dr 15 { st := .held, owner := 4, chain := [15] }) .pages 4 0xFFFFFFFF, 15, 15, (grant (setUsage (dr 15 { st := .held, owner := 4, chain := [15] }) .pages 4 0xFFFFFFFF) .pages 4 1 6).2, by decide +kernel⟩,
   ⟨dr 15 { st := .held, owner := 4, chain := [15] }, 15, 15, (grant (dr 15 { st := .held, owner := 4, chain := [15] }) .pages 4 1 6).2, ((grant (dr 15 { st := .held, owner := 4, chain := [15] }) .pages 4 1 6).1).getD 0, _, rfl, by decide +kernel⟩,
   ⟨S0, 15, by decide +kernel⟩,
   ⟨{ S0 with cust := { draining := some 15 } }, 15, by decide +kernel⟩,
   ⟨S0, by decide +kernel⟩,
   ⟨{ S0 with cust := { draining := some 15 } }, .host, 15, _, _, rfl, rfl, by decide +kernel⟩,
   ⟨two, .host, 15, _, rfl, by decide +kernel⟩,
   ⟨S0, .host, 15, _, rfl, by decide +kernel⟩,
   ⟨offC, .host, 15, 5, 0, _, rfl, by decide +kernel⟩,
   ⟨offC, .host, 15, 4, _, rfl, by decide +kernel⟩,
   ⟨{ S0 with cust := { readmitting := some 15 } }, 15, _, rfl, by decide +kernel⟩,
   ⟨S0, by decide +kernel⟩⟩

end Custody

/-! ### Witnesses: spans -/

namespace Spans

def L7 (st : Nat) (x : SpanLink) : State := setLinkState (setLink (setLink' { S0 with span := { on := true, mac := 2 } } 63 2) 7 { x with port := some 63 }) 7 st
def J7 : State := L7 3 {}
def act (s : State) : State := setBit s (spnLinkPage 7) 0x114 3 true
def prim (s : State) (b : Bool) : State := setBit s spnPairPage 0x130 3 b
def pr (s : State) (st : Nat) : State := setFld s spnPairPage 0x130 2 0 st
def hd (rel : Bool) (sq : Word) : SpanHeader := { srcMac := 0, version := 1, ftype := 0, rel := rel, retx := false, tc := 7, trunc := false, colour := 0, destKind := 0, link := 7, src := 1, dest := 0, seq := sq, age := 0 }
def ev1 : LearnEvent := { kind := 0, pipe := 0, port := 63, fid := 1, mac := 0x100000000001, ts := 5 }
def full : State := setSpace (act J7) 7 8 { nxt := 65536 }
def ho (s : State) : State := { s with span := { s.span with handover := some 6 } }
def late (s : State) : State := { s with baseCount := 153600000000 * 100000 }
def P5 : State := wreg J7 (spnLinkPage 7) 0x118 5
def got (h : SpanHeader) : Option Nat × State := spanGrant { J7 with nextId := J7.nextId + 1 } (carried J7 63 (now J7) h (fr 60))
def cin (s : State) : State := ctrlIn s 7 (ctrlLen "RCV_CUM" [1,2,3,4,5,6,7,8,9])

/-- States and operands that meet the hypotheses of each clause of SpanLinksAndSessions. -/
theorem witness_SpanLinksAndSessions :
    (∃ (s : State) (r : Requester) (on : Bool) (u : State), u = written s spnPairPage 0x100 (rewritten s spnPairPage 0x100 1 (b2n on)) ∧ opened s r spnPairPage 0x100 = true ∧ bitAt s spnPairPage 0x100 0 = !on) ∧
    (∃ (s : State) (r : Requester) (l : BitVec 3) (cfg : Word) (u : State), u = written s (spnLinkPage l.toNat) 0x100 cfg.toNat ∧ opened s r (spnLinkPage l.toNat) 0x100 = true ∧ bitAt s (spnLinkPage l.toNat) 0x100 0 = !bitOf cfg.toNat 0) ∧
    (∃ (s : State) (l : BitVec 3), spanLinkState s l.toNat ≠ 0 ∧ spanPortUp s l.toNat = true ∧ s.span.on = true) ∧
    (∃ (s : State) (l : BitVec 3), (spanLinkState s l.toNat = 0 ∨ spanPortUp s l.toNat = false ∨ s.span.on = false)) ∧
    (∃ (s : State) (l : BitVec 3) (n : DWord) (mac : MacAddr) (x : Word) (u : State) (v : State) (w : State), u = (if partnerRestarted s l.toNat x.toNat then endSession s else s) ∧ v = (fresh u).2 ∧ w = setLink v l.toNat { linkOf v l.toNat with peer := n.toNat, peerMac := mac.toNat, peerSession := x.toNat, offered := false, lastHello := tb0Time u } ∧ (spanLinkState s l.toNat = 1 ∨ spanLinkState s l.toNat = 4) ∧ (pairState s = 0 ∨ partnerSerial s = n.toNat) ∧ (linkOf s l.toNat).retryAt ≤ tb0Time s) ∧
    (∃ (s : State) (l : BitVec 3) (n : DWord) (mac : MacAddr) (x : Word) (u : State) (v : State) (w : State), u = (if partnerRestarted s l.toNat x.toNat then endSession s else s) ∧ v = (fresh u).2 ∧ w = setLink v l.toNat { linkOf v l.toNat with peer := n.toNat, peerMac := mac.toNat, peerSession := x.toNat, offered := false, lastHello := tb0Time u } ∧ (spanLinkState s l.toNat = 1 ∨ spanLinkState s l.toNat = 4) ∧ (pairState s = 0 ∨ partnerSerial s = n.toNat) ∧ tb0Time s < (linkOf s l.toNat).retryAt) ∧
    (∃ (s : State) (l : BitVec 3) (n : DWord) (mac : MacAddr), spanLinkState s l.toNat = 3 ∧ (mac.toNat ≠ rd64 s (spnLinkPage l.toNat) 0x118 % 2 ^ 48 ∨ n.toNat ≠ (linkOf s l.toNat).peer)) ∧
    (∃ (s : State) (l : BitVec 3) (n : DWord) (mac : MacAddr) (x : Word), spanLinkState s l.toNat = 3 ∧ mac.toNat = rd64 s (spnLinkPage l.toNat) 0x118 % 2 ^ 48 ∧ n.toNat = (linkOf s l.toNat).peer ∧ session s = x.toNat ∧ pairState s ≠ 0) ∧
    (∃ (s : State) (l : BitVec 3) (n : DWord) (mac : MacAddr) (x : Word), spanLinkState s l.toNat = 3 ∧ mac.toNat = rd64 s (spnLinkPage l.toNat) 0x118 % 2 ^ 48 ∧ n.toNat = (linkOf s l.toNat).peer ∧ (partnerRestarted s l.toNat x.toNat = true ∨ pairState s = 0)) ∧
    (∃ (s : State) (l : BitVec 3) (n : DWord), (spanLinkState s l.toNat = 1 ∨ spanLinkState s l.toNat = 4) ∧ pairState s ≠ 0 ∧ partnerSerial s ≠ n.toNat) ∧
    (∃ (s : State) (l : BitVec 3), (spanLinkState s l.toNat = 0 ∨ spanLinkState s l.toNat = 2)) ∧
    (∃ (s : State) (l : BitVec 3) (n : DWord) (own : Bool) (u : State), u = setLink s l.toNat { linkOf s l.toNat with offered := true } ∧ spanLinkState s l.toNat = 2 ∧ n.toNat = (linkOf s l.toNat).peer ∧ (rd64 s spnPairPage 0x108 = 0 ∨ rd64 s spnPairPage 0x108 = n.toNat) ∧ (own = true ∨ bitAt s spnPairPage 0x100 2 = false)) ∧
    (∃ (s : State) (l : BitVec 3) (n : DWord) (chain : Bool) (own : Bool), spanLinkState s l.toNat = 2 ∧ (chain = false ∨ n.toNat ≠ (linkOf s l.toNat).peer ∨ (rd64 s spnPairPage 0x108 ≠ 0 ∧ rd64 s spnPairPage 0x108 ≠ n.toNat) ∨ (own = false ∧ bitAt s spnPairPage 0x100 2 = true))) ∧
    (∃ (s : State) (l : BitVec 3) (ok : Bool), spanLinkState s l.toNat = 2 ∧ ok = true ∧ (linkOf s l.toNat).offered = true) ∧
    (∃ (s : State) (l : BitVec 3) (ok : Bool), spanLinkState s l.toNat = 2 ∧ (ok = false ∨ (linkOf s l.toNat).offered = false)) ∧
    (∃ (s : State) (l : BitVec 3), spanLinkState s l.toNat = 2 ∧ (linkOf s l.toNat).lastHello + msTime 1000 ≤ tb0Time s) ∧
    (∃ (s : State) (l : BitVec 3), spanLinkState s l.toNat = 2 ∧ tb0Time s < (linkOf s l.toNat).lastHello + msTime 1000) ∧
    (∃ (l : Nat), l < 8) ∧
    (∃ (s : State) (l : BitVec 3) (ms : Nat), ms = max 1 (fld s spnPairPage 0x104 7 0) * max 1 (fld s spnPairPage 0x104 15 8) ∧ tb0Time s < (linkOf s l.toNat).lastHello + msTime ms) ∧
    (∃ (s : State) (l : BitVec 3) (p : Nat) (ms : Nat), ms = max 1 (fld s spnPairPage 0x104 7 0) * max 1 (fld s spnPairPage 0x104 15 8) ∧ joined s l.toNat = true ∧ (linkOf s l.toNat).lastHello + msTime ms ≤ tb0Time s ∧ (linkOf (spanLost s l.toNat) l.toNat).port = some p) ∧
    (∃ (s : State), pairState s = 2 ∧ isPrimary s = false ∧ bitAt s spnPairPage 0x130 7 = false ∧ s.span.splitSince + msTime (100 * fld s spnPairPage 0x100 15 8) ≤ tb0Time s) ∧
    (∃ (s : State), pairState s = 2 ∧ s.span.splitSince + msTime (1000 * fld s spnPairPage 0x104 31 16) ≤ tb0Time s) ∧
    (∃ (s : State), pairState s ≠ 2) ∧
    (∃ (s : State), (session s ≠ 0 ∨ pairState s ≠ 0)) :=
  ⟨⟨S0, .host, true, _, rfl, by decide +kernel⟩,
   ⟨S0, .host, 7, 0xF1, _, rfl, by decide +kernel⟩,
   ⟨L7 1 {}, 7, by decide +kernel⟩,
   ⟨L7 0 {}, 7, by decide +kernel⟩,
   ⟨L7 4 {}, 7, 9, 5, 3, _, _, _, rfl, rfl, rfl, by decide +kernel⟩,
   ⟨L7 1 { retryAt := 1 }, 7, 9, 5, 3, _, _, _, rfl, rfl, rfl, by decide +kernel⟩,
   ⟨wreg (L7 3 { peer := 9 }) (spnLinkPage 7) 0x118 6, 7, 9, 5, by decide +kernel⟩,
   ⟨pr (wreg (wreg (L7 3 { peer := 9 }) spnPairPage 0x140 3) (spnLinkPage 7) 0x118 5) 1, 7, 9, 5, 3, by decide +kernel⟩,
   ⟨pr (wreg (wreg (L7 3 { peer := 9 }) spnPairPage 0x140 4) (spnLinkPage 7) 0x118 5) 1, 7, 9, 5, 3, by decide +kernel⟩,
   ⟨pr (L7 1 {}) 1, 7, 9, by decide +kernel⟩,
   ⟨L7 0 {}, 7, by decide +kernel⟩,
   ⟨L7 2 { peer := 9 }, 7, 9, true, _, rfl, by decide +kernel⟩,
   ⟨L7 2 { peer := 9 }, 7, 9, false, true, by decide +kernel⟩,
   ⟨L7 2 { offered := true }, 7, true, by decide +kernel⟩,
   ⟨L7 2 { offered := true }, 7, false, by decide +kernel⟩,
   ⟨late (L7 2 { offered := true }), 7, by decide +kernel⟩,
   ⟨L7 2 {}, 7, by decide +kernel⟩,
   ⟨7, by decide +kernel⟩,
   ⟨J7, 7, _, rfl, by decide +kernel⟩,
   ⟨late J7, 7, 63, _, rfl, by decide +kernel⟩,
   ⟨late (prim (pr J7 2) false), by decide +kernel⟩,
   ⟨late (pr J7 2), by decide +kernel⟩,
   ⟨pr J7 1, by decide +kernel⟩,
   ⟨wreg J7 spnPairPage 0x140 3, by decide +kernel⟩⟩

/-- States and operands that meet the hypotheses of each clause of SpanSequenceSpaces. -/
theorem witness_SpanSequenceSpaces :
    (∃ (s : State) (l : BitVec 3) (p : Nat), (linkOf s l.toNat).port = some p ∧ joined s l.toNat = false) ∧
    (∃ (s : State) (l : BitVec 3) (h : SpanHeader) (p : Nat), (linkOf s l.toNat).port = some p ∧ joined s l.toNat = true ∧ h.srcMac.toNat ≠ rd64 s (spnLinkPage l.toNat) 0x118 % 2 ^ 48) ∧
    (∃ (s : State) (l : BitVec 3) (h : SpanHeader) (p : Nat), (linkOf s l.toNat).port = some p ∧ joined s l.toNat = true ∧ h.srcMac.toNat = rd64 s (spnLinkPage l.toNat) 0x118 % 2 ^ 48 ∧ (h.version ≠ 1 ∨ h.ftype ≠ 0 ∨ h.destKind = 3)) ∧
    (∃ (s : State) (l : BitVec 3) (h : SpanHeader) (bs : List Byte) (p : Nat) (x : SpanSpace) (f : Frame) (v : State), x = spaceOf s l.toNat h.tc.toNat ∧ f = carried s p (now s) h bs ∧ v = { s with nextId := s.nextId + 1 } ∧ (linkOf s l.toNat).port = some p ∧ joined s l.toNat = true ∧ h.srcMac.toNat = rd64 s (spnLinkPage l.toNat) 0x118 % 2 ^ 48 ∧ h.version = 1 ∧ h.ftype = 0 ∧ h.destKind ≠ 3 ∧ (linkOf s l.toNat).closed = true) ∧
    (∃ (s : State) (l : BitVec 3) (h : SpanHeader) (bs : List Byte) (p : Nat) (b : Nat) (t : State) (x : SpanSpace) (f : Frame) (v : State), x = spaceOf s l.toNat h.tc.toNat ∧ f = carried s p (now s) h bs ∧ v = { s with nextId := s.nextId + 1 } ∧ (linkOf s l.toNat).port = some p ∧ joined s l.toNat = true ∧ h.srcMac.toNat = rd64 s (spnLinkPage l.toNat) 0x118 % 2 ^ 48 ∧ h.version = 1 ∧ h.ftype = 0 ∧ h.destKind ≠ 3 ∧ (linkOf s l.toNat).closed = false ∧ h.rel = false ∧ spanGrant v f = (some b, t)) ∧
    (∃ (s : State) (l : BitVec 3) (h : SpanHeader) (bs : List Byte) (p : Nat) (x : SpanSpace) (f : Frame) (v : State), x = spaceOf s l.toNat h.tc.toNat ∧ f = carried s p (now s) h bs ∧ v = { s with nextId := s.nextId + 1 } ∧ (linkOf s l.toNat).port = some p ∧ joined s l.toNat = true ∧ h.srcMac.toNat = rd64 s (spnLinkPage l.toNat) 0x118 % 2 ^ 48 ∧ h.version = 1 ∧ h.ftype = 0 ∧ h.destKind ≠ 3 ∧ (linkOf s l.toNat).closed = false ∧ h.rel = true ∧ (seqLt h.seq x.rcvCum = true ∨ x.ooo.any (fun e => e.1 == h.seq) = true)) ∧
    (∃ (s : State) (l : BitVec 3) (h : SpanHeader) (bs : List Byte) (p : Nat) (x : SpanSpace) (f : Frame) (v : State), x = spaceOf s l.toNat h.tc.toNat ∧ f = carried s p (now s) h bs ∧ v = { s with nextId := s.nextId + 1 } ∧ (linkOf s l.toNat).port = some p ∧ joined s l.toNat = true ∧ h.srcMac.toNat = rd64 s (spnLinkPage l.toNat) 0x118 % 2 ^ 48 ∧ h.version = 1 ∧ h.ftype = 0 ∧ h.destKind ≠ 3 ∧ (linkOf s l.toNat).closed = false ∧ h.rel = true ∧ seqLt h.seq x.rcvCum = false ∧ (x.ooo.any (fun e => e.1 == h.seq) = false) ∧ x.oooLearn = [] ∧ 65536 ≤ (h.seq - x.rcvCum).toNat) ∧
    (∃ (s : State) (l : BitVec 3) (h : SpanHeader) (bs : List Byte) (p : Nat) (x : SpanSpace) (f : Frame) (v : State), x = spaceOf s l.toNat h.tc.toNat ∧ f = carried s p (now s) h bs ∧ v = { s with nextId := s.nextId + 1 } ∧ (linkOf s l.toNat).port = some p ∧ joined s l.toNat = true ∧ h.srcMac.toNat = rd64 s (spnLinkPage l.toNat) 0x118 % 2 ^ 48 ∧ h.version = 1 ∧ h.ftype = 0 ∧ h.destKind ≠ 3 ∧ (linkOf s l.toNat).closed = false ∧ h.rel = true ∧ seqLt h.seq x.rcvCum = false ∧ (x.ooo.any (fun e => e.1 == h.seq) = false) ∧ x.oooLearn = [] ∧ 0 < (h.seq - x.rcvCum).toNat ∧ (h.seq - x.rcvCum).toNat < 65536 ∧ fld s (spnLinkPage l.toNat) 0x100 31 16 * 16 < oooGranules s l.toNat + granulesOf f) ∧
    (∃ (s : State) (l : BitVec 3) (h : SpanHeader) (bs : List Byte) (p : Nat) (b : Nat) (t : State) (x : SpanSpace) (f : Frame) (v : State) (u : State), x = spaceOf s l.toNat h.tc.toNat ∧ f = carried s p (now s) h bs ∧ v = { s with nextId := s.nextId + 1 } ∧ u = setSpace t l.toNat h.tc.toNat { spaceOf t l.toNat h.tc.toNat with ooo := (spaceOf t l.toNat h.tc.toNat).ooo ++ [(h.seq, f, some b)] } ∧ (linkOf s l.toNat).port = some p ∧ joined s l.toNat = true ∧ h.srcMac.toNat = rd64 s (spnLinkPage l.toNat) 0x118 % 2 ^ 48 ∧ h.version = 1 ∧ h.ftype = 0 ∧ h.destKind ≠ 3 ∧ (linkOf s l.toNat).closed = false ∧ h.rel = true ∧ seqLt h.seq x.rcvCum = false ∧ (x.ooo.any (fun e => e.1 == h.seq) = false) ∧ x.oooLearn = [] ∧ 0 < (h.seq - x.rcvCum).toNat ∧ (h.seq - x.rcvCum).toNat < 65536 ∧ oooGranules s l.toNat + granulesOf f ≤ fld s (spnLinkPage l.toNat) 0x100 31 16 * 16 ∧ spanGrant v f = (some b, t)) ∧
    (∃ (s : State) (l : BitVec 3) (h : SpanHeader) (bs : List Byte) (p : Nat) (b : Nat) (t : State) (x : SpanSpace) (f : Frame) (v : State) (u : State), x = spaceOf s l.toNat h.tc.toNat ∧ f = carried s p (now s) h bs ∧ v = { s with nextId := s.nextId + 1 } ∧ u = setSpace (releaseIn t l.toNat h.tc.toNat f b) l.toNat h.tc.toNat { spaceOf (releaseIn t l.toNat h.tc.toNat f b) l.toNat h.tc.toNat with rcvCum := x.rcvCum + 1 } ∧ (linkOf s l.toNat).port = some p ∧ joined s l.toNat = true ∧ h.srcMac.toNat = rd64 s (spnLinkPage l.toNat) 0x118 % 2 ^ 48 ∧ h.version = 1 ∧ h.ftype = 0 ∧ h.destKind ≠ 3 ∧ (linkOf s l.toNat).closed = false ∧ h.rel = true ∧ seqLt h.seq x.rcvCum = false ∧ (x.ooo.any (fun e => e.1 == h.seq) = false) ∧ x.oooLearn = [] ∧ h.seq = x.rcvCum ∧ spanGrant v f = (some b, t)) ∧
    (∃ (s : State) (l : BitVec 3) (c : BitVec 4), c.toNat ≤ 8 ∧ joined s l.toNat = true ∧ 0 < (spaceOf s l.toNat c.toNat).sinceAck) ∧
    (∃ (s : State) (l : BitVec 3) (c : BitVec 4), c.toNat ≤ 8 ∧ joined s l.toNat = true ∧ (spaceOf s l.toNat c.toNat).sinceAck = 0) ∧
    (∃ (s : State) (l : BitVec 3) (c : BitVec 4) (cum : Word) (u : State), u = ackTo s l.toNat c.toNat cum ∧ c.toNat ≤ 8 ∧ joined s l.toNat = true) ∧
    (∃ (s : State) (l : Nat) (c : Nat) (cum : Word), seqLt (spaceOf s l c).una cum = true ∧ seqLt (spaceOf s l c).nxt cum = false) ∧
    (∃ (s : State) (l : BitVec 3) (c : BitVec 4) (x : SpanSpace), x = spaceOf s l.toNat c.toNat ∧ c.toNat ≤ 8 ∧ joined s l.toNat = true ∧ x.una ≠ x.nxt ∧ rtoOver s l.toNat c.toNat = false) ∧
    (∃ (s : State) (l : BitVec 3) (c : BitVec 4) (x : SpanSpace) (u : State), x = spaceOf s l.toNat c.toNat ∧ u = resend (raise (inc (setSpace s l.toNat c.toNat { x with backoff := x.backoff + 1, expiries := x.expiries + 1 }) (spnLinkPage l.toNat) 0x130) (spnLinkPage l.toNat) 2) l.toNat c.toNat x.una ∧ c.toNat ≤ 8 ∧ joined s l.toNat = true ∧ x.una ≠ x.nxt ∧ rtoOver s l.toNat c.toNat = true) :=
  ⟨⟨L7 4 {}, 7, 63, by decide +kernel⟩,
   ⟨P5, 7, hd true 0, 63, by decide +kernel⟩,
   ⟨J7, 7, { hd true 0 with version := 2 }, 63, by decide +kernel⟩,
   ⟨L7 3 { closed := true }, 7, hd true 0, fr 60, 63, _, _, _, rfl, rfl, rfl, by decide +kernel⟩,
   ⟨J7, 7, hd false 0, fr 60, 63, (got (hd false 0)).1.getD 0, (got (hd false 0)).2, _, _, _, rfl, rfl, rfl, by decide +kernel⟩,
   ⟨setSpace J7 7 7 { rcvCum := 1 }, 7, hd true 0, fr 60, 63, _, _, _, rfl, rfl, rfl, by decide +kernel⟩,
   ⟨J7, 7, hd true 65536, fr 60, 63, _, _, _, rfl, rfl, rfl, by decide +kernel⟩,
   ⟨wreg J7 (spnLinkPage 7) 0x100 0, 7, hd true 65535, fr 60, 63, _, _, _, rfl, rfl, rfl, by decide +kernel⟩,
   ⟨J7, 7, hd true 65535, fr 60, 63, (got (hd true 65535)).1.getD 0, (got (hd true 65535)).2, _, _, _, _, rfl, rfl, rfl, rfl, by decide +kernel⟩,
   ⟨J7, 7, hd true 0, fr 60, 63, (got (hd true 0)).1.getD 0, (got (hd true 0)).2, _, _, _, _, rfl, rfl, rfl, rfl, by decide +kernel⟩,
   ⟨setSpace J7 7 8 { sinceAck := 1 }, 7, 8, by decide +kernel⟩,
   ⟨J7, 7, 8, by decide +kernel⟩,
   ⟨setSpace J7 7 8 { nxt := 5 }, 7, 8, 3, _, rfl, by decide +kernel⟩,
   ⟨setSpace J7 7 8 { nxt := 5 }, 7, 8, 5, by decide +kernel⟩,
   ⟨setSpace J7 7 8 { nxt := 5 }, 7, 8, _, rfl, by decide +kernel⟩,
   ⟨late (setSpace J7 7 8 { nxt := 5, sent := [{ seq := 0, ctrl := some ("TIME", []), sentBc := 0 }] }), 7, 8, _, _, rfl, rfl, by decide +kernel⟩⟩

/-- States and operands that meet the hypotheses of each clause of SpanHandoverLearningAndTime. -/
theorem witness_SpanHandoverLearningAndTime :
    (∃ (s : State) (n : BitVec 3), joined s n.toNat = true) ∧
    (∃ (s : State) (o : BitVec 3) (n : BitVec 3), joined s n.toNat = true ∧ s.span.handover = some o.toNat) ∧
    (∃ (s : State) (o : BitVec 3) (n : BitVec 3), joined s n.toNat = true ∧ s.span.handover ≠ some o.toNat) ∧
    (∃ (o : Nat) (n : Nat), o ≠ n) ∧
    (∃ (s : State) (l : BitVec 3) (cums : List Word) (o : Nat) (v : State), v = ctrlIn s l.toNat (ctrlLen "RCV_CUM" (cums.map BitVec.toNat)) ∧ joined s l.toNat = true ∧ v.span.handover = some o ∧ activeLink v = some l.toNat ∧ o ≠ l.toNat) ∧
    (∃ (s : State) (l : BitVec 3) (cums : List Word) (v : State) (u : State), v = ctrlIn s l.toNat (ctrlLen "RCV_CUM" (cums.map BitVec.toNat)) ∧ u = setLink v l.toNat { linkOf v l.toNat with awaitCum := false } ∧ joined s l.toNat = true ∧ v.span.handover = none) ∧
    (∃ (s : State) (l : BitVec 3) (n : Word) (evs : List LearnEvent) (x : SpanSpace) (v : State) (u : State), x = spaceOf s l.toNat 8 ∧ v = forEach (countReleased s l.toNat 8 (ctrlLen "LEARN" (evs.map eventWord))) evs (fun s e => forEach s [0, 1, 2, 3, 4] (fun s k => applyEvent s k e true)) ∧ u = setSpace v l.toNat 8 { spaceOf v l.toNat 8 with rcvCum := n + 1 } ∧ joined s l.toNat = true ∧ x.rcvCum = n ∧ x.ooo = [] ∧ (x.oooLearn.any (fun e => e.1 == n) = false)) ∧
    (∃ (s : State) (l : BitVec 3), joined s l.toNat = false) ∧
    (∃ (s : State) (l : Nat), s.span.learn ≠ [] ∧ activeLink s = some l ∧ joined s l = true ∧ spanRoom s l 8 = true) ∧
    (∃ (s : State) (l : Nat), s.span.learn ≠ [] ∧ activeLink s = some l ∧ joined s l = true ∧ spanRoom s l 8 = false) ∧
    (∃ (s : State), s.span.learn = []) ∧
    (∃ (s : State) (l : BitVec 3), joined s l.toNat = true ∧ isPrimary s = false) ∧
    (∃ (s : State) (l : BitVec 3), (joined s l.toNat = false ∨ isPrimary s = true)) ∧
    (∃ (s : State) (l : BitVec 3), joined s l.toNat = true ∧ isPrimary s = true) ∧
    (∃ (s : State) (l : BitVec 3) (a : BitVec 96) (b : BitVec 96) (c : BitVec 96) (d : BitVec 96) (off : Int) (v : State), off = (((b.toNat : Int) - a.toNat) + ((c.toNat : Int) - d.toNat)) / 2 - signedOf 32 (rd s (spnLinkPage l.toNat) 0x110).toNat * 2 ^ 32 / 10 ∧ v = wr s spnPairPage 0x12C (BitVec.ofNat 32 (unsignedOf 32 (clampI (off / 2 ^ 32) (-(2 ^ 31)) (2 ^ 31 - 1)))) ∧ joined s l.toNat = true ∧ isPrimary s = false ∧ activeLink s = some l.toNat ∧ bitAt s spnPairPage 0x100 1 = false) ∧
    (∃ (s : State) (l : BitVec 3) (a : BitVec 96) (b : BitVec 96) (c : BitVec 96) (d : BitVec 96) (off : Int) (v : State), off = (((b.toNat : Int) - a.toNat) + ((c.toNat : Int) - d.toNat)) / 2 - signedOf 32 (rd s (spnLinkPage l.toNat) 0x110).toNat * 2 ^ 32 / 10 ∧ v = wr s spnPairPage 0x12C (BitVec.ofNat 32 (unsignedOf 32 (clampI (off / 2 ^ 32) (-(2 ^ 31)) (2 ^ 31 - 1)))) ∧ joined s l.toNat = true ∧ isPrimary s = false ∧ activeLink s = some l.toNat ∧ bitAt s spnPairPage 0x100 1 = true) ∧
    (∃ (s : State) (body : List Byte) (l : Nat), activeLink s = some l ∧ body.getD 3 0 ≠ 0x80 ∧ (body.getD 4 0).toNat % 2 = 0) ∧
    (∃ (s : State) (body : List Byte) (l : Nat), activeLink s = some l ∧ (body.getD 3 0 = 0x80 ∨ (body.getD 4 0).toNat % 2 = 1)) ∧
    (∃ (s : State) (l : Nat), (joined s l = false ∨ spanRoom s l 8 = false)) ∧
    (∃ (s : State) (l : Nat) (k : String) (fs : List Nat) (t : State), t = addCounter (addCounter (setSpace s l 8 { spaceOf s l 8 with nxt := (spaceOf s l 8).nxt + 1, sent := (spaceOf s l 8).sent ++ [{ seq := (spaceOf s l 8).nxt, ctrl := some (k, fs), sentBc := tb0Time s }] }) (spnLinkPage l) 1 8 0 1) (spnLinkPage l) 1 8 1 (ctrlLen k fs) ∧ joined s l = true ∧ spanRoom s l 8 = true) :=
  ⟨⟨J7, 7, by decide +kernel⟩,
   ⟨ho J7, 6, 7, by decide +kernel⟩,
   ⟨J7, 6, 7, by decide +kernel⟩,
   ⟨6, 7, by decide +kernel⟩,
   ⟨act (ho J7), 7, [1,2,3,4,5,6,7,8,9], 6, _, rfl, by decide +kernel⟩,
   ⟨J7, 7, [1,2,3,4,5,6,7,8,9], _, _, rfl, rfl, by decide +kernel⟩,
   ⟨J7, 7, 0, [ev1], _, _, _, rfl, rfl, rfl, by decide +kernel⟩,
   ⟨L7 1 {}, 7, by decide +kernel⟩,
   ⟨{ act J7 with span := { J7.span with learn := [ev1] } }, 7, by decide +kernel⟩,
   ⟨{ full with span := { full.span with learn := [ev1] } }, 7, by decide +kernel⟩,
   ⟨J7, by decide +kernel⟩,
   ⟨prim J7 false, 7, by decide +kernel⟩,
   ⟨prim J7 true, 7, by decide +kernel⟩,
   ⟨prim J7 true, 7, by decide +kernel⟩,
   ⟨setBit (act (prim J7 false)) spnPairPage 0x100 1 false, 7, 1, 2, 3, 4, _, _, rfl, rfl, by decide +kernel⟩,
   ⟨setBit (act (prim J7 false)) spnPairPage 0x100 1 true, 7, 1, 2, 3, 4, _, _, rfl, rfl, by decide +kernel⟩,
   ⟨act J7, [0,0,0,2,0], 7, by decide +kernel⟩,
   ⟨act J7, [0,0,0,2,1], 7, by decide +kernel⟩,
   ⟨full, 7, by decide +kernel⟩,
   ⟨act J7, 7, "HANDOVER", [1], _, rfl, by decide +kernel⟩⟩

end Spans

/-! ### Witnesses: time -/

namespace Time

def srv (k st : Nat) : State := setFld (setFld (wreg S0 (tbPage k) 0x100 1) (tbPage k) 0x104 6 4 st) pwrPage 0x108 1 0 0
def at1 (s : State) : State := { s with baseCount := 153600000000 }
def lately (s : State) (k : Nat) : State := setTb s k { tbOf s k with lastChange := some 153599999744 }
def e1 : TioCap := { bc := 7, time := 7, valid := true }
def held1 : State := setTb S0 15 { tbOf S0 15 with heldStep := some 5 }
def outP (st : Nat) (w : Nat) : State := wreg (wreg (wreg (setFld S0 tioPage (tioOff 3) 2 0 4) tioPage (tioOff 3 + 0x14) 100) tioPage (tioOff 3 + 0x18) w) tioPage (tioOff 3 + 0x10) st

/-- States and operands that meet the hypotheses of each clause of TimeBaseChanges. -/
theorem witness_TimeBaseChanges :
    (∃ (s : State) (r : Requester) (k : BitVec 4), opened s r (tbPage k.toNat) 0x128 = true) ∧
    (∃ (s : State) (r : Requester) (k : BitVec 4), opened s r (tbPage k.toNat) 0x138 = true ∧ servoMode s k.toNat = false) ∧
    (∃ (s : State) (k : BitVec 4) (any : Bool), any = ((tbOf s k.toNat).heldSet.isSome || (tbOf s k.toNat).heldSetNow.isSome || (tbOf s k.toNat).heldStep.isSome || (tbOf s k.toNat).heldRate.isSome || (tbOf s k.toNat).heldServo.isSome || (tbOf s k.toNat).heldSlew.isSome) ∧ any = true ∧ mayChange s k.toNat = true) ∧
    (∃ (s : State) (k : BitVec 4) (any : Bool), any = ((tbOf s k.toNat).heldSet.isSome || (tbOf s k.toNat).heldSetNow.isSome || (tbOf s k.toNat).heldStep.isSome || (tbOf s k.toNat).heldRate.isSome || (tbOf s k.toNat).heldServo.isSome || (tbOf s k.toNat).heldSlew.isSome) ∧ (any = false ∨ mayChange s k.toNat = false)) ∧
    (∃ (s : State) (k : BitVec 4), (tbOf s k.toNat).slewEnd ≤ now s) ∧
    (∃ (s : State) (k : BitVec 4), now s < (tbOf s k.toNat).slewEnd) ∧
    (∃ (s : State) (k : Nat), mayChange s k = false) ∧
    (∃ (s : State) (k : Nat), servoMode s k = true) ∧
    (∃ (s : State) (k : Nat), ((tbOf s k).slew = 0 ∨ now s < (tbOf s k).slewEnd)) ∧
    (∃ (s : State) (k : Nat), k < 16 ∧ stepLocked s k = false ∧ servoMode s k = false) ∧
    (∃ (s : State) (k : Nat), stepLocked s k = true) ∧
    (∃ (s : State) (k : Nat), k < 16 ∧ bitAt s (tbPage k) 0x104 7 = true) ∧
    (∃ (s : State) (k : Nat) (b : Nat), k < 16 ∧ 0 < b ∧ b ≤ now s ∧ (tbOf s k).slew ≠ 0 ∧ now s < (tbOf s k).slewEnd) ∧
    (∃ (s : State) (r : Requester) (k : BitVec 4), opened s r (tbPage k.toNat) 0x138 = true ∧ servoMode s k.toNat = true) :=
  ⟨⟨S0, .host, 15, by decide +kernel⟩,
   ⟨S0, .host, 15, by decide +kernel⟩,
   ⟨held1, 15, _, rfl, by decide +kernel⟩,
   ⟨lately (at1 held1) 15, 15, _, rfl, by decide +kernel⟩,
   ⟨S0, 15, by decide +kernel⟩,
   ⟨setTb S0 15 { tbOf S0 15 with slewEnd := 1 }, 15, by decide +kernel⟩,
   ⟨lately (at1 S0) 15, 15, by decide +kernel⟩,
   ⟨srv 15 1, 15, by decide +kernel⟩,
   ⟨S0, 15, by decide +kernel⟩,
   ⟨S0, 15, by decide +kernel⟩,
   ⟨setBit (setBit S0 (tbPage 15) 0x100 2 true) (tbPage 15) 0x104 1 true, 15, by decide +kernel⟩,
   ⟨setBit S0 (tbPage 15) 0x104 7 true, 15, by decide +kernel⟩,
   ⟨at1 (setTb S0 15 { tbOf S0 15 with slew := 5, slewEnd := 153600000001 }), 15, 153600000000, by decide +kernel⟩,
   ⟨srv 15 1, .host, 15, by decide +kernel⟩⟩

/-- States and operands that meet the hypotheses of each clause of ServoLaw. -/
theorem witness_ServoLaw :
    (∃ (s : State) (r : Requester) (k : BitVec 4), reach s r = true ∧ accKind s r (wordAddr (tbPage k.toNat) 0x160) 8 = 0 ∧ fld s (tbPage k.toNat) 0x100 7 5 = 0) ∧
    (∃ (s : State) (r : Requester) (k : BitVec 4), reach s r = true ∧ accKind s r (wordAddr (tbPage k.toNat) 0x160) 8 = 0 ∧ fld s (tbPage k.toNat) 0x100 7 5 ≠ 0) ∧
    (∃ (s : State) (k : Nat), (servoMode s k = false ∨ servoState s k = 0 ∨ refLost s = true)) ∧
    (∃ (s : State) (k : Nat) (b : Nat), servoMode s k = true ∧ (servoState s k = 1 ∨ servoState s k = 2 ∨ servoState s k = 3) ∧ refLost s = false ∧ (tbOf s k).fromHold = false ∧ (tbOf s k).lastSample = some b ∧ tb0Time s - b < 10000 * 2 ^ 32) ∧
    (∃ (s : State) (k : Nat) (th : Int), servoMode s k = true ∧ servoState s k = 1 ∧ refLost s = false ∧ (tbOf s k).fromHold = false ∧ (tbOf s k).lastSample = none ∧ fld s (tbPage k) 0x158 31 16 * 1000 * 2 ^ 16 < th.natAbs ∧ stepLocked s k = false ∧ mayChange s k = false) ∧
    (∃ (s : State) (k : Nat) (b : Nat) (th : Int) (tau : Nat) (i : Int) (y : Int), tau = tb0Time s - b ∧ i = (tbOf s k).integ + th * (2 ^ 16 * 10 ^ 9 * 256) / tau * (fld s (tbPage k) 0x150 15 8 : Nat) / 256 ∧ y = -(th * (2 ^ 16 * 10 ^ 9 * 256) / tau * (fld s (tbPage k) 0x150 7 0 : Nat) / 256 + i) ∧ k < 16 ∧ servoMode s k = true ∧ (servoState s k = 2 ∨ servoState s k = 3) ∧ refLost s = false ∧ (tbOf s k).fromHold = false ∧ (tbOf s k).lastSample = some b ∧ 10000 * 2 ^ 32 ≤ tau ∧ th.natAbs ≤ fld s (tbPage k) 0x158 31 16 * 1000 * 2 ^ 16 ∧ th.natAbs < fld s (tbPage k) 0x154 31 16 * 2 ^ 16 ∧ mayChange s k = false) ∧
    (∃ (s : State) (k : BitVec 4), servoMode s k.toNat = true ∧ 1 ≤ servoState s k.toNat ∧ servoState s k.toNat ≤ 3 ∧ refLost s = false) ∧
    (∃ (s : State) (k : BitVec 4), (servoMode s k.toNat = false ∨ servoState s k.toNat = 0 ∨ 3 < servoState s k.toNat ∨ refLost s = true)) :=
  ⟨⟨S0, .host, 15, by decide +kernel⟩,
   ⟨setFld S0 (tbPage 15) 0x100 7 5 7, .host, 15, by decide +kernel⟩,
   ⟨S0, 15, by decide +kernel⟩,
   ⟨at1 (setTb (srv 15 2) 15 { tbOf S0 15 with lastSample := some 4294967296000000000 }), 15, 4294967296000000000, by decide +kernel⟩,
   ⟨lately (at1 (srv 15 1)) 15, 15, 2^62, by decide +kernel⟩,
   ⟨at1 (setTb (srv 15 3) 15 { tbOf S0 15 with lastSample := some 0, lastChange := some 153599999744 }), 15, 0, 65536, _, _, _, rfl, rfl, rfl, by decide +kernel⟩,
   ⟨srv 15 3, 15, by decide +kernel⟩,
   ⟨srv 15 4, 15, by decide +kernel⟩⟩

/-- States and operands that meet the hypotheses of each clause of TimeCaptureAndPins. -/
theorem witness_TimeCaptureAndPins :
    (∃ (s : State) (bad : List Page) (l : List Nat), l = bad.map (·.toNat) ∧ serving s tdsPage = true) ∧
    (∃ (s : State) (bad : List Page) (l : List Nat), l = bad.map (·.toNat) ∧ serving s tdsPage = false) ∧
    (∃ (bad : List Nat) (p : Nat), p ∈ bad) ∧
    (∃ (s : State) (bad : List Nat) (p : Nat), p ∉ bad ∧ (mapGet (fun _ => 0) s.replicas p = 1)) ∧
    (∃ (s : State) (r : Requester) (k : BitVec 4) (u : State), u = written s tbsPage 0x128 (rewritten s tbsPage 0x128 0x10F (k.toNat + 0x100)) ∧ opened s r tbsPage 0x128 = true) ∧
    (∃ (s : State) (r : Requester) (u : State), u = written s tbsPage 0x100 1 ∧ opened s r tbsPage 0x100 = true) ∧
    (∃ (s : State) (n : BitVec 2) (rising : Bool) (b : Nat) (up : Bool), up = (rising != bitAt s tioPage (tioOff n.toNat) 8) ∧ serving s tioPage = true ∧ ((fld s tioPage (tioOff n.toNat) 2 0 = 1 ∧ up = true) ∨ (fld s tioPage (tioOff n.toNat) 2 0 = 2 ∧ up = false) ∨ fld s tioPage (tioOff n.toNat) 2 0 = 3) ∧ (mapGet (fun _ => none) s.tioLast n.toNat = some b) ∧ stampNow s - b < 3072) ∧
    (∃ (s : State) (n : BitVec 2) (rising : Bool) (up : Bool) (t : State) (v : State), up = (rising != bitAt s tioPage (tioOff n.toNat) 8) ∧ t = { s with tioLast := mapSet (fun _ => none) s.tioLast n.toNat (some (stampNow s)) } ∧ v = (if up then tioServo t n.toNat (stampNow s) else t) ∧ serving s tioPage = true ∧ ((fld s tioPage (tioOff n.toNat) 2 0 = 1 ∧ up = true) ∨ (fld s tioPage (tioOff n.toNat) 2 0 = 2 ∧ up = false) ∨ fld s tioPage (tioOff n.toNat) 2 0 = 3) ∧ (∀ b ∈ mapGet (fun _ => none) s.tioLast n.toNat, 3072 ≤ stampNow s - b) ∧ (tioList s n.toNat).length < 16) ∧
    (∃ (s : State) (n : BitVec 2) (rising : Bool) (up : Bool) (t : State) (v : State), up = (rising != bitAt s tioPage (tioOff n.toNat) 8) ∧ t = { s with tioLast := mapSet (fun _ => none) s.tioLast n.toNat (some (stampNow s)) } ∧ v = (if up then tioServo t n.toNat (stampNow s) else t) ∧ serving s tioPage = true ∧ ((fld s tioPage (tioOff n.toNat) 2 0 = 1 ∧ up = true) ∨ (fld s tioPage (tioOff n.toNat) 2 0 = 2 ∧ up = false) ∨ fld s tioPage (tioOff n.toNat) 2 0 = 3) ∧ (∀ b ∈ mapGet (fun _ => none) s.tioLast n.toNat, 3072 ≤ stampNow s - b) ∧ 16 ≤ (tioList s n.toNat).length) ∧
    (∃ (s : State) (n : BitVec 2), (serving s tioPage = false ∨ fld s tioPage (tioOff n.toNat) 2 0 = 0 ∨ 3 < fld s tioPage (tioOff n.toNat) 2 0)) ∧
    (∃ (s : State) (r : Requester) (n : BitVec 2) (t : State), t = tioPop s n.toNat ∧ opened s r tioPage (tioOff n.toNat + 0x20) = true) ∧
    (∃ (s : State) (n : Nat) (e : TioCap) (rest : List TioCap), n < 4 ∧ tioList s n = e :: rest) ∧
    (∃ (s : State) (n : BitVec 2), serving s tioPage = true ∧ fld s tioPage (tioOff n.toNat) 2 0 = 4 ∧ tioValid s n.toNat = true ∧ (tioStart s n.toNat : Int) ≤ tbAt s (fld s tioPage (tioOff n.toNat) 7 4) (now s)) ∧
    (∃ (s : State) (n : BitVec 2), serving s tioPage = true ∧ fld s tioPage (tioOff n.toNat) 2 0 = 4 ∧ tioValid s n.toNat = true ∧ tbAt s (fld s tioPage (tioOff n.toNat) 7 4) (now s) < (tioStart s n.toNat : Int)) ∧
    (∃ (s : State) (n : BitVec 2), serving s tioPage = true ∧ fld s tioPage (tioOff n.toNat) 2 0 = 4 ∧ tioValid s n.toNat = false) ∧
    (∃ (s : State) (n : BitVec 2), (serving s tioPage = false ∨ fld s tioPage (tioOff n.toNat) 2 0 ≠ 4)) ∧
    (∃ (s : State) (n : BitVec 1) (p : Nat), p ≤ fld s syePage (0x100 + 4 * n.toNat) 5 0 ∧ bitAt s (macPage p) 0x100 0 = true ∧ fld s syePage (0x100 + 4 * n.toNat) 5 0 < p + lanesOf s p ∧ (∀ q < fld s syePage (0x100 + 4 * n.toNat) 5 0 + 1, p < q → bitAt s (macPage q) 0x100 0 = false) ∧ linkState s p = 2) :=
  ⟨⟨S0, [0x9010], _, rfl, by decide +kernel⟩,
   ⟨{ S0 with holds := [(2 ^ 30 + blockKey tdsPage, 0)] }, [0x9010], _, rfl, by decide +kernel⟩,
   ⟨[tdsPage], tdsPage, by decide +kernel⟩,
   ⟨{ S0 with replicas := mapSet (fun _ => 0) S0.replicas 0x9010 1 }, [], 0x9010, by decide +kernel⟩,
   ⟨S0, .host, 15, _, rfl, by decide +kernel⟩,
   ⟨S0, .host, _, rfl, by decide +kernel⟩,
   ⟨{ at1 (setFld S0 tioPage (tioOff 3) 2 0 3) with tioLast := mapSet (fun _ => none) S0.tioLast 3 (some 153599997000) }, 3, true, 153599997000, _, rfl, by decide +kernel⟩,
   ⟨{ at1 (setFld S0 tioPage (tioOff 3) 2 0 3) with tioLast := mapSet (fun _ => none) S0.tioLast 3 (some 153599996928) }, 3, false, _, _, _, rfl, rfl, rfl, by decide +kernel⟩,
   ⟨setTio (at1 (setFld S0 tioPage (tioOff 3) 2 0 2)) 3 (List.replicate 16 e1), 3, false, _, _, _, rfl, rfl, rfl, by decide +kernel⟩,
   ⟨S0, 3, by decide +kernel⟩,
   ⟨S0, .host, 3, _, rfl, by decide +kernel⟩,
   ⟨setTio S0 3 [e1, e1], 3, e1, [e1], by decide +kernel⟩,
   ⟨outP 0 99, 3, by decide +kernel⟩,
   ⟨outP 5 99, 3, by decide +kernel⟩,
   ⟨wreg (setFld S0 tioPage (tioOff 3) 2 0 4) tioPage (tioOff 3 + 0x14) 99, 3, by decide +kernel⟩,
   ⟨S0, 3, by decide +kernel⟩,
   ⟨setFld (setLink' (wreg S0 (macPage 63) 0x100 1) 63 2) syePage 0x104 5 0 63, 1, 63, by decide +kernel⟩⟩

end Time

/-! ### Witnesses: lifts -/

namespace Lifts

def lrec (act tgt extra : Nat) : Entry := BitVec.ofNat 1920 (2^383 + act * 2^100 + tgt * 2^128 + extra)
def lft (s : State) (i st : Nat) (e : Entry) : State := tset (tset s bscPage 0 0 i e) bscPage 1 0 i (BitVec.ofNat 1920 st)
def bsc1 : State := setBit (setBit S0 bscPage 0x100 0 true) (tbPage 0) 0x104 0 true
def R0 : Entry := lrec 0 (macPage 0) (0x100 * 2^144)
def late (s : State) : State := setLiftX s 4095 { late := true }
def act7 (s : State) : State := setBit s (spnLinkPage 7) 0x114 3 true
def prim (s : State) (b : Bool) : State := setBit s spnPairPage 0x130 3 b
def co : Entry := lrec 0 (macPage 0) (0x100 * 2^144 + 2^106 + 9 * 2^112 + 50000 * 2^160 + 1000)
def J7 (s : State) : State := act7 (prim (setLinkState (setLink s 7 { port := some 63 }) 7 3) true)
def cf : CoordFields := { group := 9, tb := 0, lateDiscard := false, sec := 1000, ns := 0, period := 50000, repeats := 0 }
def grp (s : State) : State := lft s 4095 2 co
def full : State := { bsc1 with bscFifo := List.replicate 256 (1,0,0,0) }
def lk : State := setBit (setBit (lft bsc1 4095 3 (lrec 11 (tbPage 15) 0)) (tbPage 15) 0x100 2 true) (tbPage 15) 0x104 1 true
def wt : State := { setTb (lft bsc1 4095 3 (lrec 11 (tbPage 15) 0)) 15 { tbOf S0 15 with lastChange := some 999 } with baseCount := 1000 }
def pf (s : State) : State := (perform s 4095).2

/-- States and operands that meet the hypotheses of each clause of LiftsArmDispatchAndLaunch. -/
theorem witness_LiftsArmDispatchAndLaunch :
    (∃ (s : State) (r : Requester) (i : BitVec 12) (w : BitVec 384), (∀ o, 0xF00 ≤ o → o < 0xF40 → o % 4 = 0 → opened s r bscPage o = true) ∧ rd s bscPage 0xF0C = 0 ∧ (mapGet (fun _ => none) s.tblCmd bscPage = none) ∧ bitAt s bscPage 0xF08 0 = false ∧ liftLive s i.toNat = false ∧ ebit (w.setWidth 1920) 383 = true ∧ liftBad s i.toNat (w.setWidth 1920) = false) ∧
    (∃ (s : State) (r : Requester) (i : BitVec 12) (w : BitVec 384), (∀ o, 0xF00 ≤ o → o < 0xF40 → o % 4 = 0 → opened s r bscPage o = true) ∧ rd s bscPage 0xF0C = 0 ∧ (mapGet (fun _ => none) s.tblCmd bscPage = none) ∧ bitAt s bscPage 0xF08 0 = false ∧ liftLive s i.toNat = false ∧ ebit (w.setWidth 1920) 383 = true ∧ liftBad s i.toNat (w.setWidth 1920) = true) ∧
    (∃ (s : State) (r : Requester) (i : BitVec 12), (∀ o, 0xF00 ≤ o → o < 0xF40 → o % 4 = 0 → opened s r bscPage o = true) ∧ rd s bscPage 0xF0C = 0 ∧ (mapGet (fun _ => none) s.tblCmd bscPage = none) ∧ bitAt s bscPage 0xF08 0 = false ∧ liftLive s i.toNat = true) ∧
    (∃ (s : State) (i : BitVec 12) (e : Entry) (x : LiftX), e = liftRec s i.toNat ∧ x = liftX s i.toNat ∧ liftState s i.toNat = 1 ∧ bitAt s bscPage 0x100 0 = true ∧ tbValid s (liftTb e) = true ∧ x.launch ≤ now s + usUnits 2 ∧ s.mode = .run ∧ x.launch < now s ∧ ebit e 105 = true) ∧
    (∃ (s : State) (i : BitVec 12) (e : Entry) (x : LiftX), e = liftRec s i.toNat ∧ x = liftX s i.toNat ∧ liftState s i.toNat = 1 ∧ bitAt s bscPage 0x100 0 = true ∧ tbValid s (liftTb e) = true ∧ x.launch ≤ now s + usUnits 2 ∧ s.mode = .run ∧ (now s ≤ x.launch ∨ ebit e 105 = false) ∧ s.dispatchAt ≠ some (now s) ∧ (liftList s).any (dispatchedBefore s i.toNat) = false ∧ slotsUsed s (liftTarget e) < 16) ∧
    (∃ (s : State) (i : BitVec 12) (e : Entry) (x : LiftX), e = liftRec s i.toNat ∧ x = liftX s i.toNat ∧ liftState s i.toNat = 1 ∧ bitAt s bscPage 0x100 0 = true ∧ tbValid s (liftTb e) = true ∧ x.launch ≤ now s + usUnits 2 ∧ s.mode = .run ∧ (now s ≤ x.launch ∨ ebit e 105 = false) ∧ (s.dispatchAt = some (now s) ∨ (liftList s).any (dispatchedBefore s i.toNat) = true ∨ 16 ≤ slotsUsed s (liftTarget e))) ∧
    (∃ (s : State) (i : BitVec 12), liftState s i.toNat = 1 ∧ (bitAt s bscPage 0x100 0 = false ∨ tbValid s (liftTb (liftRec s i.toNat)) = false ∨ now s + usUnits 2 < (liftX s i.toNat).launch)) ∧
    (∃ (s : State) (i : BitVec 12), liftState s i.toNat = 2 ∧ isPrimary s = false ∧ dispatchDue s i.toNat = true) ∧
    (∃ (s : State) (i : BitVec 12) (e : Entry) (x : LiftX), e = liftRec s i.toNat ∧ x = liftX s i.toNat ∧ liftState s i.toNat = 3 ∧ x.waiting = false ∧ x.launch ≤ now s ∧ s.mode = .run ∧ noTarget s (liftTarget e) = true ∧ liftAction e ≠ 5) ∧
    (∃ (s : State) (i : BitVec 12) (e : Entry) (x : LiftX), e = liftRec s i.toNat ∧ x = liftX s i.toNat ∧ liftState s i.toNat = 3 ∧ x.waiting = false ∧ x.launch ≤ now s ∧ s.mode = .run ∧ noTarget s (liftTarget e) = false ∧ x.late = true ∧ ebit e 105 = true ∧ liftAction e ≠ 5) ∧
    (∃ (s : State) (i : BitVec 12) (t : State) (e : Entry) (x : LiftX), e = liftRec s i.toNat ∧ x = liftX s i.toNat ∧ liftState s i.toNat = 3 ∧ x.waiting = false ∧ x.launch ≤ now s ∧ s.mode = .run ∧ noTarget s (liftTarget e) = false ∧ (x.late = false ∨ ebit e 105 = false) ∧ liftAction e ≠ 5 ∧ perform s i.toNat = (some true, t)) ∧
    (∃ (s : State) (i : BitVec 12) (t : State) (e : Entry) (x : LiftX), e = liftRec s i.toNat ∧ x = liftX s i.toNat ∧ liftState s i.toNat = 3 ∧ x.waiting = false ∧ x.launch ≤ now s ∧ s.mode = .run ∧ noTarget s (liftTarget e) = false ∧ (x.late = false ∨ ebit e 105 = false) ∧ liftAction e ≠ 5 ∧ perform s i.toNat = (some false, t)) ∧
    (∃ (s : State) (i : BitVec 12) (t : State) (e : Entry) (x : LiftX), e = liftRec s i.toNat ∧ x = liftX s i.toNat ∧ liftState s i.toNat = 3 ∧ x.waiting = false ∧ x.launch ≤ now s ∧ s.mode = .run ∧ noTarget s (liftTarget e) = false ∧ (x.late = false ∨ ebit e 105 = false) ∧ liftAction e ≠ 5 ∧ perform s i.toNat = (none, t)) ∧
    (∃ (s : State) (i : BitVec 12) (c : Nat) (e : Entry) (x : LiftX) (t : State) (u : State), e = liftRec s i.toNat ∧ x = liftX s i.toNat ∧ t = tset s (liftTarget e) 0 0 c (esetFld (tget s (liftTarget e) 0 0 c) 78 78 (efld e 319 256 / 128)) ∧ u = occurred (launched t i.toNat) i.toNat 1 0 ∧ liftState s i.toNat = 3 ∧ x.waiting = false ∧ x.launch ≤ now s ∧ s.mode = .run ∧ noTarget s (liftTarget e) = false ∧ x.late = false ∧ liftAction e = 5 ∧ c = efld e 319 256 % 128) ∧
    (∃ (s : State) (i : Nat) (e : Entry) (p : Nat), e = liftRec s i ∧ p = liftTarget e ∧ liftAction e = 0) ∧
    (∃ (s : State) (i : Nat) (e : Entry) (p : Nat), e = liftRec s i ∧ p = liftTarget e ∧ (liftAction e = 2 ∨ liftAction e = 3 ∨ liftAction e = 4)) ∧
    (∃ (s : State) (i : Nat) (e : Entry) (p : Nat), e = liftRec s i ∧ p = liftTarget e ∧ liftAction e = 9 ∧ marked s (efld e 319 256 % 1024) = true) ∧
    (∃ (s : State) (i : Nat) (e : Entry) (p : Nat), e = liftRec s i ∧ p = liftTarget e ∧ liftAction e = 11 ∧ stepLocked s (p % 4096 - 0x10) = true) ∧
    (∃ (s : State) (i : Nat) (e : Entry) (p : Nat), e = liftRec s i ∧ p = liftTarget e ∧ liftAction e = 12 ∧ fld s tioPage (tioOff (efld e 319 256 % 4)) 2 0 ≠ 5) ∧
    (∃ (s : State) (i : Nat) (o : Nat), o < 16 ∧ liftPeriod (liftRec s i) = 0 ∧ (liftX s i).solo = false ∧ ebit (liftRec s i) 106 = false) ∧
    (∃ (s : State) (i : Nat), ebit (liftRec s i) 107 = true ∧ s.bscFifo.length < 256) ∧
    (∃ (s : State) (i : Nat), ebit (liftRec s i) 107 = true ∧ 256 ≤ s.bscFifo.length) ∧
    (∃ (s : State) (r : Requester), opened s r bscPage 0x110 = true) :=
  ⟨⟨S0, .host, 4095, (lrec 0 (macPage 0) (0x100 * 2^144)).setWidth 384, fun o h1 h2 h3 => bsc_words_open o h2 h1 h3, by decide +kernel⟩,
   ⟨S0, .host, 4095, (lrec 0 (macPage 0) (0x100 * 2^144 + 1000000000 * 2^64)).setWidth 384, fun o h1 h2 h3 => bsc_words_open o h2 h1 h3, by decide +kernel⟩,
   ⟨lft bsc1 4095 1 R0, .host, 4095, fun o h1 h2 h3 => bsc_words_open o h2 h1 h3, by decide +kernel⟩,
   ⟨{ lft bsc1 4095 1 (R0 ||| (BitVec.ofNat 1920 (2^105))) with baseCount := 1000 }, 4095, _, _, rfl, rfl, by decide +kernel⟩,
   ⟨lft bsc1 4095 1 R0, 4095, _, _, rfl, rfl, by decide +kernel⟩,
   ⟨{ lft bsc1 4095 1 R0 with dispatchAt := some 0 }, 4095, _, _, rfl, rfl, by decide +kernel⟩,
   ⟨lft (setBit bsc1 bscPage 0x100 0 false) 4095 1 R0, 4095, by decide +kernel⟩,
   ⟨prim (lft bsc1 4095 2 (BitVec.ofNat 1920 (2^383 + 2^106 + 9 * 2^112))) false, 4095, by decide +kernel⟩,
   ⟨setDom (lft bsc1 4095 3 R0) (pageDom (macPage 0)) { st := .off }, 4095, _, _, rfl, rfl, by decide +kernel⟩,
   ⟨late (lft bsc1 4095 3 (R0 ||| (BitVec.ofNat 1920 (2^105)))), 4095, _, _, rfl, rfl, by decide +kernel⟩,
   ⟨lft bsc1 4095 3 R0, 4095, pf (lft bsc1 4095 3 R0), _, _, rfl, rfl, by decide +kernel⟩,
   ⟨lk, 4095, pf lk, _, _, rfl, rfl, by decide +kernel⟩,
   ⟨wt, 4095, pf wt, _, _, rfl, rfl, by decide +kernel⟩,
   ⟨lft bsc1 4095 3 (lrec 5 (msecPage 0) (127 * 2^256 + 2^263)), 4095, 127, _, _, _, _, rfl, rfl, rfl, rfl, by decide +kernel⟩,
   ⟨lft bsc1 4095 3 R0, 4095, _, _, rfl, rfl, by decide +kernel⟩,
   ⟨lft bsc1 4095 3 (lrec 2 (rulPage 0) 0), 4095, _, _, rfl, rfl, by decide +kernel⟩,
   ⟨setCq (lft bsc1 4095 3 (lrec 9 cstPage (845 * 2^256))) 845 { en := true }, 4095, _, _, rfl, rfl, by decide +kernel⟩,
   ⟨lk, 4095, _, _, rfl, rfl, by decide +kernel⟩,
   ⟨lft bsc1 4095 3 (lrec 12 tioPage (3 * 2^256)), 4095, _, _, rfl, rfl, by decide +kernel⟩,
   ⟨lft bsc1 4095 3 R0, 4095, 15, by decide +kernel⟩,
   ⟨lft bsc1 4095 3 (lrec 0 (macPage 0) (2^107)), 4095, by decide +kernel⟩,
   ⟨lft full 4095 3 (lrec 0 (macPage 0) (2^107)), 4095, by decide +kernel⟩,
   ⟨S0, .host, by decide +kernel⟩⟩

/-- States and operands that meet the hypotheses of each clause of LiftCancellationAndAgreement. -/
theorem witness_LiftCancellationAndAgreement :
    (∃ (s : State) (r : Requester), opened s r bscPage 0x108 = true) ∧
    (∃ (s : State) (i : Nat), bitAt s bscPage 0x108 20 = false ∧ fld s bscPage 0x108 11 0 = i ∧ liftLive s i = false) ∧
    (∃ (s : State) (i : Nat), bitAt s bscPage 0x108 20 = false ∧ fld s bscPage 0x108 11 0 = i ∧ liftState s i = 1 ∧ ebit (liftRec s i) 106 = false) ∧
    (∃ (s : State) (i : Nat), bitAt s bscPage 0x108 20 = false ∧ fld s bscPage 0x108 11 0 = i ∧ liftState s i = 3 ∧ (liftX s i).waiting = false ∧ (liftX s i).launch < now s + 256) ∧
    (∃ (s : State) (r : Requester) (v : Word) (u : State), u = written s bscPage 0x124 (v.toNat ||| 2 ^ 31) ∧ opened s r bscPage 0x124 = true ∧ coordOf s (v.toNat % 256) = none) ∧
    (∃ (s : State) (r : Requester) (v : Word) (f : CoordFields) (u : State), u = written s bscPage 0x124 (v.toNat ||| 2 ^ 31) ∧ opened s r bscPage 0x124 = true ∧ coordOf s (v.toNat % 256) = some f) ∧
    (∃ (s : State) (l : Nat) (f : CoordFields) (t : State), t = ctrlIn s l (ctrlLen "" []) ∧ activeLink s = some l ∧ isPrimary t = true ∧ pastDeadline t f = true) ∧
    (∃ (s : State) (l : Nat) (f : CoordFields) (t : State), t = ctrlIn s l (ctrlLen "" []) ∧ activeLink s = some l ∧ (isPrimary t = false ∨ pastDeadline t f = false)) ∧
    (∃ (s : State) (g : Nat) (l : Nat) (mine : CoordFields) (his : CoordFields), coordOf s g = some mine ∧ (groupOf s g).partner = some his ∧ activeLink s = some l ∧ isPrimary s = true ∧ (groupOf s g).announced = true ∧ (groupOf s g).committed = false ∧ mine ≠ his) ∧
    (∃ (s : State) (g : Nat) (l : Nat) (mine : CoordFields) (his : CoordFields) (t : State), coordOf s g = some mine ∧ (groupOf s g).partner = some his ∧ activeLink s = some l ∧ isPrimary s = true ∧ (groupOf s g).announced = true ∧ (groupOf s g).committed = false ∧ mine = his ∧ pastDeadline s mine = false ∧ sendCtrl s l "COMMIT" (groupBody g 0 0) = (true, t)) ∧
    (∃ (s : State) (l : Nat) (g : BitVec 8) (t : State) (u : State), t = ctrlIn s l (ctrlLen "" []) ∧ u = tellPartner (setGroup t g.toNat { groupOf t g.toNat with committed := true, confirmed := true, partner := none }) "COMMITTED" (groupBody g.toNat 0 0) ∧ activeLink s = some l ∧ isPrimary t = false ∧ ((groupLifts t g.toNat).filter (fun i => liftState t i == 2)) ≠ [] ∧ (∀ i ∈ groupLifts t g.toNat, liftState t i = 2 → dispatchDue t i = false)) ∧
    (∃ (s : State) (l : Nat) (g : BitVec 8) (t : State), t = ctrlIn s l (ctrlLen "" []) ∧ activeLink s = some l ∧ isPrimary t = true ∧ (groupOf t g.toNat).committed = true) ∧
    (∃ (s : State) (l : Nat) (t : State), t = ctrlIn s l (ctrlLen "" []) ∧ activeLink s = some l ∧ isPrimary t = false) ∧
    (∃ (s : State) (l : Nat) (t : State), t = ctrlIn s l (ctrlLen "" []) ∧ activeLink s = some l ∧ isPrimary t = true) ∧
    (∃ (s : State) (l : Nat) (g : BitVec 8) (t : State), t = ctrlIn s l (ctrlLen "" []) ∧ activeLink s = some l ∧ (groupOf t g.toNat).committed = false) ∧
    (∃ (s : State) (l : Nat) (g : BitVec 8) (t : State), t = ctrlIn s l (ctrlLen "" []) ∧ activeLink s = some l ∧ (groupOf t g.toNat).committed = true ∧ (∀ i ∈ groupLifts t g.toNat, liftPeriod (liftRec t i) ≠ 0)) ∧
    (∃ (s : State) (l : Nat) (g : BitVec 8) (t : State), t = ctrlIn s l (ctrlLen "" []) ∧ activeLink s = some l ∧ (groupOf t g.toNat).committed = true) ∧
    (∃ (s : State) (l : Nat), activeLink s = some l ∧ isPrimary (ctrlIn s l (ctrlLen "" [])) = true) ∧
    (∃ (s : State) (g : BitVec 8) (f : CoordFields), coordOf s g.toNat = some f ∧ (groupOf s g.toNat).committed = false ∧ pastDeadline s f = true ∧ (isPrimary s = true ∨ (groupOf s g.toNat).partner ≠ some f)) ∧
    (∃ (s : State) (g : BitVec 8) (f : CoordFields), coordOf s g.toNat = some f ∧ ((groupOf s g.toNat).committed = true ∨ pastDeadline s f = false ∨ (isPrimary s = false ∧ (groupOf s g.toNat).partner = some f))) :=
  ⟨⟨S0, .host, by decide +kernel⟩,
   ⟨S0, 0, by decide +kernel⟩,
   ⟨setFld (lft bsc1 4095 1 R0) bscPage 0x108 11 0 4095, 4095, by decide +kernel⟩,
   ⟨setFld (lft bsc1 4095 3 R0) bscPage 0x108 11 0 4095, 4095, by decide +kernel⟩,
   ⟨S0, .host, 9, _, rfl, by decide +kernel⟩,
   ⟨grp bsc1, .host, 9, cf, _, rfl, by decide +kernel⟩,
   ⟨{ act7 (prim (grp bsc1) true) with baseCount := 153600000000 * 1000 }, 7, cf, _, rfl, by decide +kernel⟩,
   ⟨act7 (prim (grp bsc1) true), 7, cf, _, rfl, by decide +kernel⟩,
   ⟨setGroup (act7 (prim (grp bsc1) true)) 9 { announced := true, partner := some { cf with tb := 1 } }, 9, 7, cf, { cf with tb := 1 }, by decide +kernel⟩,
   ⟨setGroup (J7 (grp bsc1)) 9 { announced := true, partner := some cf }, 9, 7, cf, cf, (sendCtrl (setGroup (J7 (grp bsc1)) 9 { announced := true, partner := some cf }) 7 "COMMIT" (groupBody 9 0 0)).2, by decide +kernel⟩,
   ⟨setLiftX (act7 (prim (grp bsc1) false)) 4095 { inst := 10^22 }, 7, 9, _, _, rfl, rfl, by decide +kernel⟩,
   ⟨setGroup (act7 (prim (grp bsc1) true)) 9 { committed := true }, 7, 9, _, rfl, by decide +kernel⟩,
   ⟨act7 (prim (grp bsc1) false), 7, _, rfl, by decide +kernel⟩,
   ⟨setGroup (act7 (prim (grp bsc1) true)) 9 { committed := true }, 7, _, rfl, by decide +kernel⟩,
   ⟨act7 (prim (grp bsc1) false), 7, 9, _, rfl, by decide +kernel⟩,
   ⟨setGroup (act7 (prim (grp bsc1) true)) 9 { committed := true }, 7, 9, _, rfl, by decide +kernel⟩,
   ⟨setGroup (act7 (prim (grp bsc1) true)) 9 { committed := true }, 7, 9, _, rfl, by decide +kernel⟩,
   ⟨act7 (prim (grp bsc1) true), 7, by decide +kernel⟩,
   ⟨{ prim (grp bsc1) true with baseCount := 153600000000 * 1000 }, 9, cf, by decide +kernel⟩,
   ⟨setGroup (prim (grp bsc1) true) 9 { committed := true }, 9, cf, by decide +kernel⟩⟩

end Lifts

/-! ### Witnesses: engines -/

namespace Engines

def img (id : Nat) : BlockImg := { service := id, version := 1, stateVer := 1, stateMin := 1 }
def store (s : State) (k id : Nat) : State := tset s secPage 1 0 k (BitVec.ofNat 1920 (id + 256 + 2^24 + 2^32 + 2^40))
def loaded (s : State) (b id : Nat) : State := setBlkState (setImg s b (img id)) b 2
def req (id op : Nat) (b : List Byte) : SvcRequest := { service := BitVec.ofNat 8 id, opcode := BitVec.ofNat 8 op, noResp := false, tag := 1, key := 0, ring := none, body := b }
def onB (b id : Nat) : State := wreg (wreg (wreg S0 (ebkPage b) 0x108 (id + 256 + 3 * 2^16)) (ebkPage b) 0x104 0xFFFF) svcPage (0x120 + b / 8 * 4) (id * 2^(4 * (b % 8)))
def R (id : Nat) : State := onB 63 id
def I1 : Inspection := { id := 5, action := 1, page := macPage 0, cell := 0, windowed := true }
def mig5 (s : State) : State := loaded (wreg (setImg (wreg s (ebkPage 62) 0x108 0x30105) 62 (img 5)) svcPage (0x120 + 28) 0x05000000) 63 5
def off63 (s : State) : State := setDom s (106 + 63) { st := .off }
def R4c : State := { R 4 with svcCfg := mapSet (fun _ => []) S0.svcCfg 4 [1] }
def rg : SvcRequest := { req 4 0x10 [0x4D, 3] with ring := some 255 }
def ringed : State := setSq (wreg (R 4) (sqPage 255) 0x120 2) 255 { on := true, typ := 2 }

/-- States and operands that meet the hypotheses of each clause of ServiceLoadsAndMigration. -/
theorem witness_ServiceLoadsAndMigration :
    (∃ (s : State) (r : Requester) (v : Word) (b : Nat) (k : Nat) (u : State), u = written s svcPage 0x104 (v.toNat ||| 2 ^ 31) ∧ opened s r svcPage 0x104 = true ∧ b = v.toNat % 64 ∧ k = v.toNat / 256 % 32 ∧ loadCause s b k = 0) ∧
    (∃ (s : State) (r : Requester) (v : Word) (b : Nat) (k : Nat) (u : State), u = written s svcPage 0x104 (v.toNat ||| 2 ^ 31) ∧ opened s r svcPage 0x104 = true ∧ b = v.toNat % 64 ∧ k = v.toNat / 256 % 32 ∧ loadCause s b k ≠ 0) ∧
    (∃ (s : State), s.svcOp.isSome = true) ∧
    (∃ (s : State) (b : Nat), s.svcOp = none ∧ (blkState s b = 3 ∨ blkState s b = 4)) ∧
    (∃ (s : State) (b : Nat) (k : Nat), s.svcOp = none ∧ blkState s b ≠ 3 ∧ blkState s b ≠ 4 ∧ storeOk s k = true ∧ (((storeImg s k).service = 10 ∧ b ≠ 0) ∨ ((storeImg s k).service ≠ 10 ∧ b = 0))) ∧
    (∃ (s : State) (b : Nat) (k : Nat), s.svcOp = none ∧ blkState s b ≠ 3 ∧ blkState s b ≠ 4 ∧ storeOk s k = false) ∧
    (∃ (s : State) (b : Nat) (k : Nat), s.svcOp = none ∧ blkState s b ≠ 3 ∧ blkState s b ≠ 4 ∧ storeOk s k = true ∧ (((storeImg s k).service = 10 ∧ b = 0) ∨ ((storeImg s k).service ≠ 10 ∧ b ≠ 0))) ∧
    (∃ (cause : Nat) (src : Nat), cause < 16 ∧ src < 32) ∧
    (∃ (s : State) (b : Nat) (k : Nat), s.svcOp = some (.load b k)) ∧
    (∃ (b : Nat), b < 64) ∧
    (∃ (s : State) (r : Requester) (v : Word) (b : Nat) (u : State), u = written s svcPage 0x110 (v.toNat ||| 2 ^ 31) ∧ opened s r svcPage 0x110 = true ∧ b = v.toNat % 64 ∧ blkState s b = 2 ∧ svcBlocks s (imgOf s b).service = [] ∧ blkOn s b = true) ∧
    (∃ (s : State) (r : Requester) (v : Word) (a : Nat) (d : Nat) (u : State), u = written s svcPage 0x108 (v.toNat ||| 2 ^ 31) ∧ opened s r svcPage 0x108 = true ∧ a = v.toNat % 64 ∧ d = v.toNat / 256 % 64 ∧ migrateCause s a d = 0) ∧
    (∃ (s : State) (r : Requester) (v : Word) (a : Nat) (d : Nat) (u : State), u = written s svcPage 0x108 (v.toNat ||| 2 ^ 31) ∧ opened s r svcPage 0x108 = true ∧ a = v.toNat % 64 ∧ d = v.toNat / 256 % 64 ∧ migrateCause s a d ≠ 0) ∧
    (∃ (s : State) (a : Nat) (d : Nat), s.svcOp = none ∧ blkState s d = 2 ∧ blkState s a = 3 ∧ (imgOf s d).service = mapAt s a ∧ (imgOf s d).stateMin ≤ (imgOf s a).stateVer ∧ pairForbidden d (mapAt s a) = false ∧ blkOn s d = true) ∧
    (∃ (s : State), s.svcOp.isSome = true) ∧
    (∃ (s : State) (d : Nat), s.svcOp = none ∧ (blkState s d = 3 ∨ blkState s d = 4)) ∧
    (∃ (s : State) (a : Nat) (d : Nat), s.svcOp = none ∧ blkState s d = 2 ∧ pairForbidden d (mapAt s a) = true) ∧
    (∃ (s : State) (a : Nat) (d : Nat), s.svcOp = none ∧ blkState s d = 2 ∧ pairForbidden d (mapAt s a) = false ∧ blkOn s d = false) ∧
    (∃ (s : State) (a : Nat) (d : Nat), s.svcOp = none ∧ blkState s d = 2 ∧ pairForbidden d (mapAt s a) = false ∧ blkOn s d = true ∧ (blkState s a ≠ 3 ∨ (imgOf s d).service ≠ mapAt s a ∨ (imgOf s a).stateVer < (imgOf s d).stateMin)) ∧
    (∃ (s : State) (a : Nat) (d : Nat) (us : BitVec 16) (t : State) (u : State), t = migrateEnd s us.toNat ∧ u = forEach { t with redeliv := [] } t.redeliv (fun s e => embDeliver s e.1 e.2) ∧ s.svcOp = some (.migrate a d)) ∧
    (∃ (s : State) (r : Requester) (v : Word) (b : Nat) (u : State), u = written s svcPage 0x10C (v.toNat ||| 2 ^ 31) ∧ opened s r svcPage 0x10C = true ∧ b = v.toNat % 64 ∧ s.svcOp = none ∧ b ≠ 0 ∧ svcBlocks s (mapAt s b) ≠ [b] ∧ blkState s b = 3) ∧
    (∃ (s : State) (r : Requester) (v : Word) (b : Nat) (u : State), u = written s svcPage 0x10C (v.toNat ||| 2 ^ 31) ∧ opened s r svcPage 0x10C = true ∧ b = v.toNat % 64 ∧ s.svcOp = none ∧ (b = 0 ∨ svcBlocks s (mapAt s b) = [b])) ∧
    (∃ (s : State) (r : Requester) (v : Word) (b : Nat) (u : State), u = written s svcPage 0x10C (v.toNat ||| 2 ^ 31) ∧ opened s r svcPage 0x10C = true ∧ b = v.toNat % 64 ∧ s.svcOp.isSome = true) :=
  ⟨⟨store S0 31 5, .host, 0x1F3F, 63, 31, _, rfl, by decide +kernel⟩,
   ⟨S0, .host, 0x1F3F, 63, 31, _, rfl, by decide +kernel⟩,
   ⟨{ S0 with svcOp := some (.load 1 1) }, by decide +kernel⟩,
   ⟨setImg (R 5) 63 (img 5), 63, by decide +kernel⟩,
   ⟨store S0 31 10, 63, 31, by decide +kernel⟩,
   ⟨S0, 63, 31, by decide +kernel⟩,
   ⟨off63 (store S0 31 5), 63, 31, by decide +kernel⟩,
   ⟨15, 31, by decide +kernel⟩,
   ⟨{ store S0 31 5 with svcOp := some (.load 63 31) }, 63, 31, by decide +kernel⟩,
   ⟨63, by decide +kernel⟩,
   ⟨loaded S0 63 5, .host, 63, 63, _, rfl, by decide +kernel⟩,
   ⟨mig5 S0, .host, 0x3F3E, 62, 63, _, rfl, by decide +kernel⟩,
   ⟨S0, .host, 0x3F3E, 62, 63, _, rfl, by decide +kernel⟩,
   ⟨mig5 S0, 62, 63, by decide +kernel⟩,
   ⟨{ S0 with svcOp := some (.load 1 1) }, by decide +kernel⟩,
   ⟨setBlkState S0 63 4, 63, by decide +kernel⟩,
   ⟨wreg (loaded S0 63 5) svcPage (0x120 + 28) 0x0A000000, 62, 63, by decide +kernel⟩,
   ⟨off63 (mig5 S0), 62, 63, by decide +kernel⟩,
   ⟨setImg (mig5 S0) 62 { img 5 with stateVer := 0 }, 62, 63, by decide +kernel⟩,
   ⟨{ mig5 S0 with svcOp := some (.migrate 62 63) }, 62, 63, 300, _, _, rfl, rfl, by decide +kernel⟩,
   ⟨wreg (setImg (setImg (wreg (wreg S0 (ebkPage 62) 0x108 0x30105) (ebkPage 63) 0x108 0x30105) 62 (img 5)) 63 (img 5)) svcPage (0x120 + 28) 0x55000000, .host, 63, 63, _, rfl, by decide +kernel⟩,
   ⟨S0, .host, 0, 0, _, rfl, by decide +kernel⟩,
   ⟨{ S0 with svcOp := some (.load 1 1) }, .host, 1, 1, _, rfl, by decide +kernel⟩⟩

/-- States and operands that meet the hypotheses of each clause of EngineFaultsAndTimers. -/
theorem witness_EngineFaultsAndTimers :
    (∃ (s : State) (b : BitVec 6) (e : BitVec 4) (t : State) (u : State) (v : State) (w : State), t = setBit (setBit s (ebkPage b.toNat) 0x104 e.toNat false) (ebkPage b.toNat) 0x104 (16 + e.toNat) true ∧ u = takeBack (health (raise (wr t (ebkPage b.toNat) (0x140 + 4 * e.toNat) 0x13) (ebkPage b.toNat) 0 0 e.toNat e.toNat)) (fun h => h.at b.toNat e.toNat) ∧ v = takeBack (health (raise (wr t (ebkPage b.toNat) (0x140 + 4 * e.toNat) 0x33) (ebkPage b.toNat) 0 0 e.toNat e.toNat)) (fun h => h.at b.toNat e.toNat) ∧ w = takeBack (health (raise (addSat (wr t (ebkPage b.toNat) (0x140 + 4 * e.toNat) 0x23) (ebkPage b.toNat) 0x114 31 16 1) (ebkPage b.toNat) 0 0 e.toNat e.toNat)) (fun h => h.at b.toNat e.toNat) ∧ bitAt s (ebkPage b.toNat) 0x104 e.toNat = true ∧ fld t (ebkPage b.toNat) 0x104 15 0 ≠ 0) ∧
    (∃ (s : State) (b : BitVec 6) (e : BitVec 4) (t : State) (u : State) (v : State) (w : State), t = setBit (setBit s (ebkPage b.toNat) 0x104 e.toNat false) (ebkPage b.toNat) 0x104 (16 + e.toNat) true ∧ u = takeBack (health (raise (wr t (ebkPage b.toNat) (0x140 + 4 * e.toNat) 0x13) (ebkPage b.toNat) 0 0 e.toNat e.toNat)) (fun h => h.at b.toNat e.toNat) ∧ v = takeBack (health (raise (wr t (ebkPage b.toNat) (0x140 + 4 * e.toNat) 0x33) (ebkPage b.toNat) 0 0 e.toNat e.toNat)) (fun h => h.at b.toNat e.toNat) ∧ w = takeBack (health (raise (addSat (wr t (ebkPage b.toNat) (0x140 + 4 * e.toNat) 0x23) (ebkPage b.toNat) 0x114 31 16 1) (ebkPage b.toNat) 0 0 e.toNat e.toNat)) (fun h => h.at b.toNat e.toNat) ∧ bitAt s (ebkPage b.toNat) 0x104 e.toNat = true ∧ fld t (ebkPage b.toNat) 0x104 15 0 = 0) ∧
    (∃ (s : State) (b : BitVec 6) (e : BitVec 4), bitAt s (ebkPage b.toNat) 0x104 e.toNat = false) ∧
    (∃ (s : State) (r : Requester) (b : BitVec 6), opened s r (ebkPage b.toNat) 0x110 = true) ∧
    (∃ (b : Nat), b < 64) ∧
    (∃ (s : State) (b : Nat) (id : Nat) (t : State) (u : State) (lost : List Nat) (alone : Bool), id = mapAt s b ∧ t = takeBack (raise (setFld (setBlkState s b 5) (ebkPage b) 0x104 15 0 0) (ebkPage b) 1 0 0 0xFFFF) (fun h => h.block == b) ∧ u = setMapAt t b 0 ∧ lost = (List.range 64).filter (fun j => (mapGet (fun _ => []) t.buckets id)[j]? == some b) ∧ alone = (svcBlocks u id).isEmpty ∧ b < 64 ∧ blkState s b = 3 ∧ s.svcOp = none ∧ id ≠ 0x0B ∧ (bitAt u svcPage 0x100 0 = false ∨ id = 0x0A ∨ storeFor u id = none)) ∧
    (∃ (s : State) (b : Nat) (slot : Nat) (d : Nat) (id : Nat) (t : State) (u : State) (lost : List Nat) (alone : Bool), id = mapAt s b ∧ t = takeBack (raise (setFld (setBlkState s b 5) (ebkPage b) 0x104 15 0 0) (ebkPage b) 1 0 0 0xFFFF) (fun h => h.block == b) ∧ u = setMapAt t b 0 ∧ lost = (List.range 64).filter (fun j => (mapGet (fun _ => []) t.buckets id)[j]? == some b) ∧ alone = (svcBlocks u id).isEmpty ∧ b < 64 ∧ blkState s b = 3 ∧ s.svcOp = none ∧ id ≠ 0x0B ∧ bitAt u svcPage 0x100 0 = true ∧ id ≠ 0x0A ∧ storeFor u id = some slot ∧ (List.range 64).find? (fun d => mapAt u d == 0 && d != b && blkOn u d && (blkState u d == 0 || blkState u d == 2) && !held u (ebkPage d)) = some d) ∧
    (∃ (s : State) (p : BitVec 12), svcBlocks s 5 ≠ [] ∧ (∃ o ∈ s.svcObjs, o.1 = 5 ∧ o.2.1 = p.toNat)) ∧
    (∃ (s : State) (k : BitVec 16), svcBlocks s 6 ≠ [] ∧ (∃ o ∈ s.svcObjs, o.1 = 6 ∧ o.2.1 = k.toNat)) ∧
    (∃ (s : State) (p : BitVec 12), (svcBlocks s 5 = [] ∨ (∀ o ∈ s.svcObjs, o.1 = 5 → o.2.1 ≠ p.toNat))) ∧
    (∃ (s : State) (k : BitVec 16), (svcBlocks s 6 = [] ∨ (∀ o ∈ s.svcObjs, o.1 = 6 → o.2.1 ≠ k.toNat))) :=
  ⟨⟨setImg (R 5) 63 (img 5), 63, 15, _, _, _, _, rfl, rfl, rfl, rfl, by decide +kernel⟩,
   ⟨wreg (setImg (R 5) 63 (img 5)) (ebkPage 63) 0x104 0x8000, 63, 15, _, _, _, _, rfl, rfl, rfl, rfl, by decide +kernel⟩,
   ⟨S0, 63, 15, by decide +kernel⟩,
   ⟨S0, .host, 63, by decide +kernel⟩,
   ⟨63, by decide +kernel⟩,
   ⟨setBit (setImg (R 5) 63 (img 5)) svcPage 0x100 0 false, 63, _, _, _, _, _, rfl, rfl, rfl, rfl, rfl, by decide +kernel⟩,
   ⟨setMapAt (store (setBit (setImg (R 5) 63 (img 5)) svcPage 0x100 0 true) 31 5) 1 0, 63, 31, 1, _, _, _, _, _, rfl, rfl, rfl, rfl, rfl, by decide +kernel⟩,
   ⟨{ R 5 with svcObjs := [(5, 4095, [1])] }, 4095, by decide +kernel⟩,
   ⟨{ R 6 with svcObjs := [(6, 65535, [1])] }, 65535, by decide +kernel⟩,
   ⟨{ R 5 with svcObjs := [(5, 4094, [1])] }, 4095, by decide +kernel⟩,
   ⟨{ R 6 with svcObjs := [(5, 65535, [1])] }, 65535, by decide +kernel⟩⟩

/-- States and operands that meet the hypotheses of each clause of ServiceRequests. -/
theorem witness_ServiceRequests :
    (∃ (s : State) (m : SvcRequest), embTakes s m = false) ∧
    (∃ (s : State) (m : SvcRequest) (n : Nat) (k : Nat), embTakes s m = true ∧ m.ring = some (BitVec.ofNat 8 n) ∧ n < 256 ∧ k = 1 + (m.body.length + 15) / 16 ∧ sqReady s n 2 = true ∧ k ≤ slotsLeft s n ∧ k ≤ 16 ∧ slotsFit s n k = true) ∧
    (∃ (s : State) (m : SvcRequest) (n : Nat) (k : Nat), embTakes s m = true ∧ m.ring = some (BitVec.ofNat 8 n) ∧ n < 256 ∧ k = 1 + (m.body.length + 15) / 16 ∧ (sqReady s n 2 = false ∨ slotsLeft s n < k ∨ 16 < k ∨ slotsFit s n k = false)) ∧
    (∃ (s : State) (m : SvcRequest) (b : Nat) (e : Nat), b = blockFor s m.service.toNat m.key.toNat ∧ e = engineFor s b m.key.toNat ∧ m.ring = none ∧ serving s embPage = true ∧ m.service = 0xF0 ∧ svcBlocks s 0xF0 = []) ∧
    (∃ (s : State) (m : SvcRequest) (b : Nat) (e : Nat), b = blockFor s m.service.toNat m.key.toNat ∧ e = engineFor s b m.key.toNat ∧ m.ring = none ∧ serving s embPage = true ∧ m.service ≠ 0xF0 ∧ svcBlocks s m.service.toNat = []) ∧
    (∃ (s : State) (m : SvcRequest) (b : Nat) (e : Nat), b = blockFor s m.service.toNat m.key.toNat ∧ e = engineFor s b m.key.toNat ∧ m.ring = none ∧ serving s embPage = true ∧ m.service ≠ 0xF0 ∧ svcBlocks s m.service.toNat ≠ [] ∧ frozen s b = true ∧ s.embHold.length < 1024) ∧
    (∃ (s : State) (m : SvcRequest) (b : Nat) (e : Nat), b = blockFor s m.service.toNat m.key.toNat ∧ e = engineFor s b m.key.toNat ∧ m.ring = none ∧ serving s embPage = true ∧ m.service ≠ 0xF0 ∧ svcBlocks s m.service.toNat ≠ [] ∧ frozen s b = false ∧ engines s b ≠ 0 ∧ (m.busy ≠ 0 ∨ stalled s b e = true ∨ s.inHand.any (fun h => h.at b e) = true)) ∧
    (∃ (s : State) (m : SvcRequest) (b : Nat) (e : Nat), b = blockFor s m.service.toNat m.key.toNat ∧ e = engineFor s b m.key.toNat ∧ m.ring = none ∧ serving s embPage = true ∧ m.service ≠ 0xF0 ∧ svcBlocks s m.service.toNat ≠ [] ∧ frozen s b = false ∧ engines s b ≠ 0 ∧ m.busy = 0 ∧ stalled s b e = false ∧ (s.inHand.any (fun h => h.at b e) = false) ∧ 240 < m.body.length) ∧
    (∃ (s : State) (m : SvcRequest), answerable s m m.service.toNat = true) ∧
    (∃ (s : State) (m : SvcRequest), answerable s m m.service.toNat = true ∧ cfgOf s m.service.toNat ≠ []) ∧
    (∃ (s : State) (m : SvcRequest), answerable s m m.service.toNat = true ∧ cfgOf s m.service.toNat = []) ∧
    (∃ (s : State) (m : SvcRequest) (u : State), u = countedFor s m.service.toNat ∧ answerable s m m.service.toNat = true) ∧
    (∃ (s : State) (m : SvcRequest), answerable s m m.service.toNat = true ∧ 0x20 ≤ m.opcode.toNat) ∧
    (∃ (s : State) (m : SvcRequest) (k : Byte) (rest : List Byte), answerable s m 1 = true ∧ m.body = k :: rest ∧ k.toNat ≤ 4) ∧
    (∃ (s : State) (m : SvcRequest), answerable s m 1 = true ∧ (m.body = [] ∨ 4 < (m.body.headD 0).toNat)) ∧
    (∃ (s : State) (m : SvcRequest) (u : State), u = countedFor s 1 ∧ answerable s m 1 = true) ∧
    (∃ (s : State) (m : SvcRequest), answerable s m 2 = true) ∧
    (∃ (s : State) (m : SvcRequest) (a : State) (b : State), a = storeObj (countedFor s 3) 3 m.key.toNat m.body ∧ b = (fresh (fresh a).2).2 ∧ answerable s m 3 = true) ∧
    (∃ (s : State) (m : SvcRequest) (q : Nat) (t : Nat × Bool), answerable s m 4 = true ∧ q = leNat (m.body.take 2) ∧ 2 ≤ m.body.length ∧ queueNo q = true ∧ q < 1024 ∧ oldestRecord s q = some t) ∧
    (∃ (s : State) (m : SvcRequest), m.body.length < 2 ∧ answerable s m 4 = true) ∧
    (∃ (s : State) (m : SvcRequest), answerable s m 4 = true) ∧
    (∃ (s : State) (m : SvcRequest), answerable s m 7 = true) ∧
    (∃ (s : State) (m : SvcRequest), answerable s m 8 = true) ∧
    (∃ (s : State) (m : SvcRequest), answerable s m 9 = true) ∧
    (∃ (s : State) (m : SvcRequest), answerable s m 10 = true) ∧
    (∃ (s : State) (m : SvcRequest), answerable s m 12 = true) ∧
    (∃ (s : State) (m : SvcRequest), answerable s m 5 = true) ∧
    (∃ (s : State) (m : SvcRequest), answerable s m 6 = true) ∧
    (∃ (s : State) (m : SvcRequest), answerable s m 7 = true) ∧
    (∃ (s : State) (m : SvcRequest), answerable s m 8 = true) ∧
    (∃ (s : State) (m : SvcRequest), answerable s m 9 = true) ∧
    (∃ (s : State) (m : SvcRequest), answerable s m 12 = true) ∧
    (∃ (s : State) (m : SvcRequest), answerable s m 11 = true ∧ m.body.length = 32) ∧
    (∃ (s : State) (m : SvcRequest), answerable s m 11 = true ∧ m.body.length ≠ 32) ∧
    (∃ (s : State) (m : SvcRequest) (c : Nat), answerable s m 11 = true ∧ (inspCancel (countedFor s 11) (leNat (m.body.take 2))).1 = some c) ∧
    (∃ (s : State) (m : SvcRequest), answerable s m 11 = true ∧ (inspCancel (countedFor s 11) (leNat (m.body.take 2))).1 = none) :=
  ⟨⟨{ S0 with holds := [(2 ^ 30 + blockKey embPage, 0)] }, req 4 0 [7, 8], by decide +kernel⟩,
   ⟨ringed, rg, 255, 2, by decide +kernel⟩,
   ⟨R 4, rg, 255, 2, by decide +kernel⟩,
   ⟨S0, req 0xF0 0x10 [], _, _, rfl, rfl, by decide +kernel⟩,
   ⟨S0, req 4 0x10 [], _, _, rfl, rfl, by decide +kernel⟩,
   ⟨setBlkState (R 4) 63 4, req 4 0x20 [], _, _, rfl, rfl, by decide +kernel⟩,
   ⟨R 4, { req 4 0x20 [] with busy := 1 }, _, _, rfl, rfl, by decide +kernel⟩,
   ⟨R 4, req 4 0x20 (List.replicate 241 0), _, _, rfl, rfl, by decide +kernel⟩,
   ⟨R4c, req 4 0 [7, 8], by decide +kernel⟩,
   ⟨R4c, req 4 2 [], by decide +kernel⟩,
   ⟨R 4, req 4 2 [], by decide +kernel⟩,
   ⟨R 4, req 4 3 [7], _, rfl, by decide +kernel⟩,
   ⟨R 4, req 4 0x20 [], by decide +kernel⟩,
   ⟨R 1, req 1 0x10 [4, 1], 4, [1], by decide +kernel⟩,
   ⟨R 1, req 1 0x10 [5, 1], by decide +kernel⟩,
   ⟨R 1, req 1 0x11 [], _, rfl, by decide +kernel⟩,
   ⟨R 2, req 2 0x10 [1], by decide +kernel⟩,
   ⟨R 3, req 3 0x10 [1,2], _, _, rfl, rfl, by decide +kernel⟩,
   ⟨setCq (R 4) 845 { en := true, records := [{ frame := { id := 1, bytes := [], ingress := 0, ts := 0 }, cts := 7, untimed := false, pages := [] }] }, req 4 0x10 [0x4D, 3], 845, (7, false), by decide +kernel⟩,
   ⟨R 4, req 4 0x10 [1], by decide +kernel⟩,
   ⟨R 4, req 4 0x11 [], by decide +kernel⟩,
   ⟨R 7, req 7 0x11 [1], by decide +kernel⟩,
   ⟨R 8, req 8 0x11 [1], by decide +kernel⟩,
   ⟨R 9, req 9 0x11 [1], by decide +kernel⟩,
   ⟨onB 0 10, req 10 0x10 [], by decide +kernel⟩,
   ⟨R 12, req 12 0x10 [1], by decide +kernel⟩,
   ⟨R 5, req 5 0x10 [1,0,0,0], by decide +kernel⟩,
   ⟨R 6, req 6 0x10 [1,0,0,0], by decide +kernel⟩,
   ⟨R 7, req 7 0x10 [1,0,0,0], by decide +kernel⟩,
   ⟨R 8, req 8 0x10 [1,0,0,0], by decide +kernel⟩,
   ⟨R 9, req 9 0x10 [1,0,0,0], by decide +kernel⟩,
   ⟨R 12, req 12 0x11 [1,0,0,0], by decide +kernel⟩,
   ⟨R 11, req 11 0x10 (List.replicate 32 0), by decide +kernel⟩,
   ⟨R 11, req 11 0x10 (List.replicate 31 0), by decide +kernel⟩,
   ⟨{ R 11 with insp := [I1] }, req 11 0x11 [5, 0], 8, by decide +kernel⟩,
   ⟨R 11, req 11 0x11 [5, 0], by decide +kernel⟩⟩

end Engines

/-! ### Witnesses: rings -/

namespace Rings

def sq (typ : Nat) (x : SqRing) : State := setCqRing (setSq (wreg S0 (sqPage 255) 0x120 8) 255 { x with on := true, typ := typ, cq := 255 }) 255 { on := true }
def cq (x : CqRing) : State := setCqRing S0 255 { x with on := true }
def hdr : BitVec 128 := BitVec.ofNat 128 (1 + 60 * 2^32)
def gat : BitVec 128 := BitVec.ofNat 128 (60 * 2^64)
def F9 : Frame := { id := 1, bytes := fr 60, ingress := 0, ts := 0, hostCode := 200 }
def q1 : QFrame := { frame := F9, seq := 0, place := .sram, ready := true }
def inQ (s : State) : State := { s with queues := mapSet (fun _ => ({} : Queue)) s.queues 903 { frames := [q1] } }
def bind (s : State) : State := tset s rngPage 0 0 200 (BitVec.ofNat 1920 (0x100 + 255))
def ent (a b x : Nat) : ChanEntry := { ring := 255, waitLift := false, srcSpace := a, dstSpace := b, tag := 1, len := 4, xform := x, src := 0, dst := 0 }
def chS (e : ChanEntry) : State := setChan (sq 3 { inflight := 1 }) 15 { entries := [e] }
def dram : State := setBit S0 ppmPage 0x100 0 true
def capS (st : Nat) : State := setFld S0 capPage (capOff 3 + 0x10) 2 0 st
def nameCap (s : State) : State := setChan s 15 { entries := [{ ent 2 0 0 with src := 3 * 2^60 }] }
def quot : State := wreg dram ppmPage (0x140 + 4*5) 0x4000010
def quot6 : State := wreg dram ppmPage (0x140 + 4*6) 0x4000010
def c16 (s : State) : State := setFld s capPage (capOff 3 + 4) 27 0 16
def w16 (s : State) : State := written (c16 s) capPage (capOff 3) (rewritten (c16 s) capPage (capOff 3) 1 1)
def inf : CopyInfo := { session := 1, dir := 0, ts := 5, origLen := 60, trunc := false, cut := false, dropped := false, inPort := 1, outPort := 2, reason := 3, tc := 7, colour := 0 }
def fx (typ : Nat) (f : Fetched) : State := sq typ { fetched := [f] }
def fT (h : BitVec 128) (d : HostRead (List Byte)) : Fetched := { index := 3, count := 2, slots := [h, gat], data := d }
def dcl (typ : Nat) : State := setCqRing (setSq (wreg S0 (sqPage 255) 0x120 8) 255 { on := true, typ := typ, cq := 255, fetched := [fT hdr (.ok (fr 60))] }) 255 { on := true, reserved := 128 }
def uT (f : Fetched) (k : Nat) : State := forEach (startEntry (fx 0 f) 255 k) (f.slots.drop 1) (fun s g => emit s (.hostRead (sfld g 63 0) (sfld g 77 64) (sqOf (fx 0 f) 255).noSnoop))
def xT (f : Fetched) (k : Nat) : Frame := { id := (uT f k).nextId, bytes := fitBytes (max 60 (sfld (f.slots.headD 0) 45 32)) (fitBytes (sfld (f.slots.headD 0) 45 32) (fr 60)), ingress := 112, ts := stampNow (uT f k) % 2 ^ 64, tc := (if sfld (f.slots.headD 0) 4 4 = 1 then sfld (f.slots.headD 0) 18 16 else 0), tsTag := (if sfld (f.slots.headD 0) 6 5 = 1 then some (255, sfld (f.slots.headD 0) 95 64) else none), ptp := (if sfld (f.slots.headD 0) 6 5 = 2 then 1 else 0), parser := if sfld (f.slots.headD 0) 4 4 = 1 then some (sqOf (uT f k) 255).pipe else none }
def gT (f : Fetched) (k : Nat) : Option Nat × State := grant { uT f k with nextId := (uT f k).nextId + 1 } .granules 5 (granulesOf (xT f k)) 8
def hdrD : BitVec 128 := hdr + BitVec.ofNat 128 (16 + 63 * 256)
def hdrT : BitVec 128 := hdr + BitVec.ofNat 128 (16 + 32 + 63 * 256 + 5 * 2^64)
def run0 (a : Nat) : ChanEntry := { ent 0 0 0 with running := true, asked := a }
def run1' (a : Nat) : ChanEntry := { ent 1 0 0 with running := true, asked := a }
def due0 : ChanEntry := { ent 0 0 0 with running := true, due := true }
def due1 : ChanEntry := { ent 1 0 0 with running := true, due := true }
def rated (e : ChanEntry) (f : Int) : State := wreg (setChan (sq 3 { inflight := 1 }) 15 { entries := [e], fill := f }) dmaPage (0x140 + 16 * 15) 0x10001
def pg7 : State := setBuf dram .pages 0 { st := .held, owner := 4, chain := [0], gen := 0 }

/-- States and operands that meet the hypotheses of each clause of RingsAndDoorbells. -/
theorem witness_RingsAndDoorbells :
    (∃ (s : State) (r : Requester) (n : BitVec 8) (u : State) (x : SqRing), u = written s (sqPage n.toNat) 0x100 0 ∧ x = sqOf s n.toNat ∧ opened s r (sqPage n.toNat) 0x100 = true ∧ (x.on = false ∨ halted s = true)) ∧
    (∃ (s : State) (r : Requester) (n : BitVec 8) (u : State) (x : SqRing), u = written s (sqPage n.toNat) 0x100 0 ∧ x = sqOf s n.toNat ∧ opened s r (sqPage n.toNat) 0x100 = true ∧ x.on = true ∧ halted s = false ∧ x.reading = true) ∧
    (∃ (s : State) (r : Requester) (n : BitVec 8) (u : State) (x : SqRing), u = written s (sqPage n.toNat) 0x100 0 ∧ x = sqOf s n.toNat ∧ opened s r (sqPage n.toNat) 0x100 = true ∧ x.on = true ∧ halted s = false ∧ x.reading = false ∧ pcieLive s = true) ∧
    (∃ (s : State) (r : Requester) (n : BitVec 8) (u : State) (x : SqRing), u = written s (sqPage n.toNat) 0x100 0 ∧ x = sqOf s n.toNat ∧ opened s r (sqPage n.toNat) 0x100 = true ∧ x.on = true ∧ halted s = false ∧ x.reading = false ∧ pcieLive s = false) ∧
    (∃ (s : State) (n : BitVec 8) (x : SqRing), x = sqOf s n.toNat ∧ (hostLive s = false ∨ x.on = false ∨ x.reading = false ∨ x.readDue = true)) ∧
    (∃ (s : State) (n : BitVec 8) (x : SqRing), x = sqOf s n.toNat ∧ hostLive s = true ∧ x.on = true ∧ x.reading = true ∧ x.readDue = false) ∧
    (∃ (s : State) (n : BitVec 8) (v : Word) (x : SqRing), x = sqOf s n.toNat ∧ hostLive s = true ∧ x.on = true ∧ x.reading = true ∧ x.readDue = false ∧ x.size < (v - sqConsOf s n.toNat).toNat) ∧
    (∃ (s : State) (n : BitVec 8) (v : Word) (x : SqRing), x = sqOf s n.toNat ∧ hostLive s = true ∧ x.on = true ∧ x.reading = true ∧ x.readDue = false ∧ (v - sqConsOf s n.toNat).toNat ≤ x.size ∧ x.again = false) ∧
    (∃ (s : State) (n : BitVec 8) (v : Word) (x : SqRing), x = sqOf s n.toNat ∧ hostLive s = true ∧ x.on = true ∧ x.reading = true ∧ x.readDue = false ∧ (v - sqConsOf s n.toNat).toNat ≤ x.size ∧ x.again = true) ∧
    (∃ (s : State) (n : BitVec 8), (hostLive s = false ∨ (cqRing s n.toNat).on = false)) ∧
    (∃ (s : State) (n : BitVec 8), hostLive s = true ∧ (cqRing s n.toNat).on = true) ∧
    (∃ (s : State) (n : BitVec 8) (v : Word), hostLive s = true ∧ (cqRing s n.toNat).on = true ∧ (cqRing s n.toNat).size < (cqProd s n.toNat - v).toNat) ∧
    (∃ (s : State) (n : BitVec 8) (v : Word) (u : State), u = wr s (cqPage n.toNat) 0x124 v ∧ hostLive s = true ∧ (cqRing s n.toNat).on = true ∧ (cqProd s n.toNat - v).toNat ≤ (cqRing s n.toNat).size ∧ (cqRing s n.toNat).held = []) ∧
    (∃ (s : State) (n : BitVec 8) (v : Word) (c : Compl) (l : List Compl) (u : State), u = wr s (cqPage n.toNat) 0x124 v ∧ hostLive s = true ∧ (cqRing s n.toNat).on = true ∧ (cqProd s n.toNat - v).toNat ≤ (cqRing s n.toNat).size ∧ (cqRing s n.toNat).held = c :: l ∧ freeRecords u n.toNat < c.records) ∧
    (∃ (s : State) (n : BitVec 8) (v : Word) (c : Compl) (l : List Compl) (u : State), u = wr s (cqPage n.toNat) 0x124 v ∧ hostLive s = true ∧ (cqRing s n.toNat).on = true ∧ (cqProd s n.toNat - v).toNat ≤ (cqRing s n.toNat).size ∧ (cqRing s n.toNat).held = c :: l ∧ c.records ≤ freeRecords u n.toNat) ∧
    (∃ (s : State) (r : Requester) (n : BitVec 8) (u : State), u = written s (cqPage n.toNat) 0x100 0 ∧ opened s r (cqPage n.toNat) 0x100 = true) ∧
    (∃ (s : State) (r : Requester) (n : BitVec 8) (u : State), u = written s (cqPage n.toNat) 0x100 0 ∧ opened s r (cqPage n.toNat) 0x100 = true ∧ ((cqRing s n.toNat).on = false ∨ halted s = true)) ∧
    (∃ (s : State) (r : Requester) (n : BitVec 8) (u : State), u = written s (cqPage n.toNat) 0x100 0 ∧ opened s r (cqPage n.toNat) 0x100 = true ∧ (cqRing s n.toNat).on = true ∧ halted s = false ∧ pcieLive s = true) ∧
    (∃ (s : State) (r : Requester) (n : BitVec 8) (u : State), u = written s (cqPage n.toNat) 0x100 0 ∧ opened s r (cqPage n.toNat) 0x100 = true ∧ (cqRing s n.toNat).on = true ∧ halted s = false ∧ pcieLive s = false) ∧
    (∃ (s : State) (n : BitVec 8), (cqRing s n.toNat).since = none) ∧
    (∃ (s : State) (n : BitVec 8) (b : Nat), (cqRing s n.toNat).since = some b ∧ b + usUnits (fld s (cqPage n.toNat) 0x118 31 16) ≤ now s) ∧
    (∃ (s : State) (n : BitVec 8) (b : Nat), (cqRing s n.toNat).since = some b ∧ now s < b + usUnits (fld s (cqPage n.toNat) 0x118 31 16)) ∧
    (∃ (s : State) (r : Requester) (n : BitVec 8) (u : State) (v : State), u = written s (sqPage n.toNat) 0x104 (rewritten s (sqPage n.toNat) 0x104 1 1) ∧ v = sqEnable u n.toNat ∧ opened s r (sqPage n.toNat) 0x104 = true ∧ bitAt s (sqPage n.toNat) 0x104 0 = true) ∧
    (∃ (s : State) (r : Requester) (n : BitVec 8) (u : State) (v : State), u = written s (sqPage n.toNat) 0x104 (rewritten s (sqPage n.toNat) 0x104 1 1) ∧ v = sqEnable u n.toNat ∧ opened s r (sqPage n.toNat) 0x104 = true ∧ bitAt s (sqPage n.toNat) 0x104 0 = false) ∧
    (∃ (s : State) (r : Requester) (n : BitVec 8) (u : State) (v : State), u = written s (cqPage n.toNat) 0x104 (rewritten s (cqPage n.toNat) 0x104 1 1) ∧ v = cqEnable u n.toNat ∧ opened s r (cqPage n.toNat) 0x104 = true ∧ bitAt s (cqPage n.toNat) 0x104 0 = true) ∧
    (∃ (s : State) (r : Requester) (n : BitVec 8) (u : State) (v : State), u = written s (cqPage n.toNat) 0x104 (rewritten s (cqPage n.toNat) 0x104 1 1) ∧ v = cqEnable u n.toNat ∧ opened s r (cqPage n.toNat) 0x104 = true ∧ bitAt s (cqPage n.toNat) 0x104 0 = false) ∧
    (∃ (s : State) (r : Requester) (n : BitVec 8) (u : State) (v : State), u = written s (sqPage n.toNat) 0x104 (rewritten s (sqPage n.toNat) 0x104 1 0) ∧ v = sqDisable u n.toNat ∧ opened s r (sqPage n.toNat) 0x104 = true ∧ bitAt s (sqPage n.toNat) 0x104 0 = false) ∧
    (∃ (s : State) (r : Requester) (n : BitVec 8) (u : State) (v : State), u = written s (sqPage n.toNat) 0x104 (rewritten s (sqPage n.toNat) 0x104 1 0) ∧ v = sqDisable u n.toNat ∧ opened s r (sqPage n.toNat) 0x104 = true ∧ bitAt s (sqPage n.toNat) 0x104 0 = true) ∧
    (∃ (s : State) (r : Requester) (n : BitVec 8) (u : State) (v : State), u = written s (sqPage n.toNat) 0x104 (rewritten s (sqPage n.toNat) 0x104 1 0) ∧ v = sqDisable u n.toNat ∧ opened s r (sqPage n.toNat) 0x104 = true ∧ bitAt s (sqPage n.toNat) 0x104 0 = true ∧ (sqOf s n.toNat).inflight = 0) ∧
    (∃ (s : State) (r : Requester) (n : BitVec 8) (u : State) (v : State), u = written s (cqPage n.toNat) 0x104 (rewritten s (cqPage n.toNat) 0x104 1 0) ∧ v = cqDisable u n.toNat ∧ opened s r (cqPage n.toNat) 0x104 = true ∧ bitAt s (cqPage n.toNat) 0x104 0 = false) ∧
    (∃ (s : State) (r : Requester) (n : BitVec 8) (u : State) (v : State), u = written s (cqPage n.toNat) 0x104 (rewritten s (cqPage n.toNat) 0x104 1 0) ∧ v = cqDisable u n.toNat ∧ opened s r (cqPage n.toNat) 0x104 = true ∧ bitAt s (cqPage n.toNat) 0x104 0 = true) :=
  ⟨⟨setBit (sq 0 {}) rngPage 0x104 0 true, .host, 255, _, _, rfl, rfl, by decide +kernel⟩,
   ⟨sq 0 { reading := true }, .host, 255, _, _, rfl, rfl, by decide +kernel⟩,
   ⟨sq 0 {}, .host, 255, _, _, rfl, rfl, by decide +kernel⟩,
   ⟨{ sq 0 {} with pcie := { linkUp := true, bme := false } }, .host, 255, _, _, rfl, rfl, by decide +kernel⟩,
   ⟨sq 0 {}, 255, _, rfl, by decide +kernel⟩,
   ⟨sq 0 { reading := true }, 255, _, rfl, by decide +kernel⟩,
   ⟨sq 0 { reading := true }, 255, 65, _, rfl, by decide +kernel⟩,
   ⟨sq 0 { reading := true }, 255, 64, _, rfl, by decide +kernel⟩,
   ⟨sq 0 { reading := true, again := true }, 255, 64, _, rfl, by decide +kernel⟩,
   ⟨setCqRing S0 255 {}, 255, by decide +kernel⟩,
   ⟨cq {}, 255, by decide +kernel⟩,
   ⟨cq {}, 255, 1, by decide +kernel⟩,
   ⟨cq {}, 255, 0, _, rfl, by decide +kernel⟩,
   ⟨wreg (cq { held := [{ typ := 0, records := 2 }] }) (cqPage 255) 0x120 63, 255, 0, { typ := 0, records := 2 }, [], _, rfl, by decide +kernel⟩,
   ⟨wreg (cq { held := [{ typ := 0, records := 1 }] }) (cqPage 255) 0x120 63, 255, 0, { typ := 0, records := 1 }, [], _, rfl, by decide +kernel⟩,
   ⟨cq {}, .host, 255, _, rfl, by decide +kernel⟩,
   ⟨S0, .host, 255, _, rfl, by decide +kernel⟩,
   ⟨cq {}, .host, 255, _, rfl, by decide +kernel⟩,
   ⟨{ cq {} with pcie := { linkUp := true, bme := false } }, .host, 255, _, rfl, by decide +kernel⟩,
   ⟨cq {}, 255, by decide +kernel⟩,
   ⟨{ wreg (cq { since := some 0, count := 1 }) (cqPage 255) 0x118 0x00010005 with baseCount := 153600 }, 255, 0, by decide +kernel⟩,
   ⟨{ wreg (cq { since := some 0, count := 1 }) (cqPage 255) 0x118 0x00010005 with baseCount := 153599 }, 255, 0, by decide +kernel⟩,
   ⟨setBit (sq 0 {}) (sqPage 255) 0x104 0 true, .host, 255, _, _, rfl, rfl, by decide +kernel⟩,
   ⟨wreg S0 (sqPage 255) 0x104 0x000B_FFF2, .host, 255, _, _, rfl, rfl, by decide +kernel⟩,
   ⟨setBit (cq {}) (cqPage 255) 0x104 0 true, .host, 255, _, _, rfl, rfl, by decide +kernel⟩,
   ⟨wreg S0 (cqPage 255) 0x104 0x0007_FFF2, .host, 255, _, _, rfl, rfl, by decide +kernel⟩,
   ⟨S0, .host, 255, _, _, rfl, rfl, by decide +kernel⟩,
   ⟨setBit (fx 0 (fT hdr (.ok (fr 60)))) (sqPage 255) 0x104 0 true, .host, 255, _, _, rfl, rfl, by decide +kernel⟩,
   ⟨setBit (sq 0 {}) (sqPage 255) 0x104 0 true, .host, 255, _, _, rfl, rfl, by decide +kernel⟩,
   ⟨S0, .host, 255, _, _, rfl, rfl, by decide +kernel⟩,
   ⟨setBit (cq { held := [{ typ := 0, records := 2 }] }) (cqPage 255) 0x104 0 true, .host, 255, _, _, rfl, rfl, by decide +kernel⟩⟩

/-- States and operands that meet the hypotheses of each clause of RingEntriesAndHostFrames. -/
theorem witness_RingEntriesAndHostFrames :
    (∃ (s : State) (n : BitVec 8), sqReady s n.toNat 0 = false) ∧
    (∃ (s : State) (n : BitVec 8), sqReady s n.toNat 1 = false) ∧
    (∃ (s : State) (n : BitVec 8), sqReady s n.toNat 2 = false) ∧
    (∃ (s : State) (n : BitVec 8), sqReady s n.toNat 3 = false) ∧
    (∃ (s : State) (n : BitVec 8) (t : State), t = halt (askSlots s n.toNat 1) 10 n.toNat false (sqConsOf s n.toNat).toNat [] ∧ sqReady s n.toNat 0 = true) ∧
    (∃ (s : State) (n : BitVec 8) (t : State), t = halt (askSlots s n.toNat 1) 10 n.toNat false (sqConsOf s n.toNat).toNat [] ∧ sqReady s n.toNat 1 = true) ∧
    (∃ (s : State) (n : BitVec 8) (t : State), t = halt (askSlots s n.toNat 1) 10 n.toNat false (sqConsOf s n.toNat).toNat [] ∧ sqReady s n.toNat 2 = true) ∧
    (∃ (s : State) (n : BitVec 8) (t : State), t = halt (askSlots s n.toNat 1) 10 n.toNat false (sqConsOf s n.toNat).toNat [] ∧ sqReady s n.toNat 3 = true) ∧
    (∃ (s : State) (n : BitVec 8) (l : List (BitVec 128)) (h : BitVec 128) (k : Nat) (a : State) (idx : Nat), h = l.headD 0 ∧ k = sfld h 3 0 + 1 ∧ a = askSlots s n.toNat k ∧ idx = (sqConsOf s n.toNat).toNat ∧ sqReady s n.toNat 0 = true ∧ txCause s n.toNat h (l.drop 1) ≠ 0) ∧
    (∃ (s : State) (n : BitVec 8) (l : List (BitVec 128)) (h : BitVec 128) (k : Nat) (a : State) (idx : Nat), h = l.headD 0 ∧ k = sfld h 3 0 + 1 ∧ a = askSlots s n.toNat k ∧ idx = (sqConsOf s n.toNat).toNat ∧ sqReady s n.toNat 0 = true ∧ txCause s n.toNat h (l.drop 1) = 0 ∧ slotsFit s n.toNat k = false) ∧
    (∃ (s : State) (n : BitVec 8) (l : List (BitVec 128)) (h : BitVec 128) (k : Nat) (a : State) (idx : Nat), h = l.headD 0 ∧ k = sfld h 3 0 + 1 ∧ a = askSlots s n.toNat k ∧ idx = (sqConsOf s n.toNat).toNat ∧ sqReady s n.toNat 0 = true ∧ txCause s n.toNat h (l.drop 1) = 0 ∧ slotsFit s n.toNat k = true) ∧
    (∃ (s : State) (n : BitVec 8) (h : BitVec 128) (a : State) (idx : Nat), a = askSlots s n.toNat 1 ∧ idx = (sqConsOf s n.toNat).toNat ∧ sqReady s n.toNat 1 = true ∧ sfld h 3 0 ≠ 0) ∧
    (∃ (s : State) (n : BitVec 8) (h : BitVec 128) (a : State) (idx : Nat), a = askSlots s n.toNat 1 ∧ idx = (sqConsOf s n.toNat).toNat ∧ sqReady s n.toNat 1 = true ∧ sfld h 3 0 = 0 ∧ sfld h 31 18 ≠ 0) ∧
    (∃ (s : State) (n : BitVec 8) (h : BitVec 128) (a : State) (idx : Nat), a = askSlots s n.toNat 1 ∧ idx = (sqConsOf s n.toNat).toNat ∧ sqReady s n.toNat 1 = true ∧ sfld h 3 0 = 0 ∧ sfld h 31 18 = 0 ∧ sfld h 17 4 < 64) ∧
    (∃ (s : State) (n : BitVec 8) (h : BitVec 128) (a : State) (idx : Nat), a = askSlots s n.toNat 1 ∧ idx = (sqConsOf s n.toNat).toNat ∧ sqReady s n.toNat 1 = true ∧ sfld h 3 0 = 0 ∧ sfld h 31 18 = 0 ∧ 64 ≤ sfld h 17 4 ∧ slotsFit s n.toNat 1 = false) ∧
    (∃ (s : State) (n : BitVec 8) (h : BitVec 128) (a : State) (idx : Nat), a = askSlots s n.toNat 1 ∧ idx = (sqConsOf s n.toNat).toNat ∧ sqReady s n.toNat 1 = true ∧ sfld h 3 0 = 0 ∧ sfld h 31 18 = 0 ∧ 64 ≤ sfld h 17 4 ∧ slotsFit s n.toNat 1 = true) ∧
    (∃ (s : State) (n : BitVec 8) (l : List (BitVec 128)) (h : BitVec 128) (k : Nat) (a : State) (idx : Nat) (m : SvcRequest), h = l.headD 0 ∧ k = sfld h 23 20 + 1 ∧ a = askSlots s n.toNat k ∧ idx = (sqConsOf s n.toNat).toNat ∧ m = slotMsg n.toNat (l.take k) ∧ sqReady s n.toNat 2 = true ∧ slotsLeft s n.toNat < k) ∧
    (∃ (s : State) (n : BitVec 8) (l : List (BitVec 128)) (h : BitVec 128) (k : Nat) (a : State) (idx : Nat) (m : SvcRequest), h = l.headD 0 ∧ k = sfld h 23 20 + 1 ∧ a = askSlots s n.toNat k ∧ idx = (sqConsOf s n.toNat).toNat ∧ m = slotMsg n.toNat (l.take k) ∧ sqReady s n.toNat 2 = true ∧ k ≤ slotsLeft s n.toNat ∧ (sfld h 19 19 ≠ 0 ∨ sfld h 63 48 ≠ 0 ∨ sfld h 127 104 ≠ 0)) ∧
    (∃ (s : State) (n : BitVec 8) (l : List (BitVec 128)) (h : BitVec 128) (k : Nat) (a : State) (idx : Nat) (m : SvcRequest), h = l.headD 0 ∧ k = sfld h 23 20 + 1 ∧ a = askSlots s n.toNat k ∧ idx = (sqConsOf s n.toNat).toNat ∧ m = slotMsg n.toNat (l.take k) ∧ sqReady s n.toNat 2 = true ∧ k ≤ slotsLeft s n.toNat ∧ sfld h 19 19 = 0 ∧ sfld h 63 48 = 0 ∧ sfld h 127 104 = 0 ∧ 16 * (k - 1) < sfld h 103 96) ∧
    (∃ (s : State) (n : BitVec 8) (l : List (BitVec 128)) (h : BitVec 128) (k : Nat) (a : State) (idx : Nat) (m : SvcRequest), h = l.headD 0 ∧ k = sfld h 23 20 + 1 ∧ a = askSlots s n.toNat k ∧ idx = (sqConsOf s n.toNat).toNat ∧ m = slotMsg n.toNat (l.take k) ∧ sqReady s n.toNat 2 = true ∧ k ≤ slotsLeft s n.toNat ∧ sfld h 19 19 = 0 ∧ sfld h 63 48 = 0 ∧ sfld h 127 104 = 0 ∧ sfld h 103 96 ≤ 16 * (k - 1) ∧ (embTakes s m = false ∨ slotsFit s n.toNat k = false)) ∧
    (∃ (s : State) (n : BitVec 8) (l : List (BitVec 128)) (h : BitVec 128) (k : Nat) (a : State) (idx : Nat) (m : SvcRequest), h = l.headD 0 ∧ k = sfld h 23 20 + 1 ∧ a = askSlots s n.toNat k ∧ idx = (sqConsOf s n.toNat).toNat ∧ m = slotMsg n.toNat (l.take k) ∧ sqReady s n.toNat 2 = true ∧ k ≤ slotsLeft s n.toNat ∧ sfld h 19 19 = 0 ∧ sfld h 63 48 = 0 ∧ sfld h 127 104 = 0 ∧ sfld h 103 96 ≤ 16 * (k - 1) ∧ embTakes s m = true ∧ slotsFit s n.toNat k = true) ∧
    (∃ (s : State) (n : BitVec 8) (a : BitVec 128) (c : State) (idx : Nat), c = askSlots s n.toNat 2 ∧ idx = (sqConsOf s n.toNat).toNat ∧ sqReady s n.toNat 3 = true ∧ (sfld a 3 0 ≠ 1 ∨ sfld a 95 64 = 0)) ∧
    (∃ (s : State) (n : BitVec 8) (a : BitVec 128) (c : State) (idx : Nat), c = askSlots s n.toNat 2 ∧ idx = (sqConsOf s n.toNat).toNat ∧ sqReady s n.toNat 3 = true ∧ sfld a 3 0 = 1 ∧ sfld a 95 64 ≠ 0 ∧ slotsLeft s n.toNat < 2) ∧
    (∃ (s : State) (n : BitVec 8) (a : BitVec 128) (c : State) (idx : Nat), c = askSlots s n.toNat 2 ∧ idx = (sqConsOf s n.toNat).toNat ∧ sqReady s n.toNat 3 = true ∧ sfld a 3 0 = 1 ∧ sfld a 95 64 ≠ 0 ∧ 2 ≤ slotsLeft s n.toNat ∧ sfld a 31 15 ≠ 0) ∧
    (∃ (s : State) (n : BitVec 8) (a : BitVec 128) (c : State) (idx : Nat), c = askSlots s n.toNat 2 ∧ idx = (sqConsOf s n.toNat).toNat ∧ sqReady s n.toNat 3 = true ∧ sfld a 3 0 = 1 ∧ sfld a 95 64 ≠ 0 ∧ 2 ≤ slotsLeft s n.toNat ∧ sfld a 31 15 = 0 ∧ slotsFit s n.toNat 2 = false) ∧
    (∃ (s : State) (n : BitVec 8) (a : BitVec 128) (c : State) (idx : Nat), c = askSlots s n.toNat 2 ∧ idx = (sqConsOf s n.toNat).toNat ∧ sqReady s n.toNat 3 = true ∧ sfld a 3 0 = 1 ∧ sfld a 95 64 ≠ 0 ∧ 2 ≤ slotsLeft s n.toNat ∧ sfld a 31 15 = 0 ∧ slotsFit s n.toNat 2 = true) ∧
    (∃ (s : State), nextRing s = none) ∧
    (∃ (s : State) (n : Nat), nextRing s = some n) ∧
    (∃ (s : State) (n : Nat), nextRing s = some n ∧ entryMove s n = some true) ∧
    (∃ (s : State) (n : Nat), nextRing s = some n ∧ entryMove s n = some false) ∧
    (∃ (s : State) (n : Nat) (f : Fetched) (rest : List Fetched), nextRing s = some n ∧ (sqOf s n).fetched = f :: rest) ∧
    (∃ (s : State) (n : Nat) (f : Fetched) (rest : List Fetched), (sqOf s n).fetched = f :: rest ∧ (sqOf s n).typ = 0) ∧
    (∃ (s : State) (n : Nat) (f : Fetched) (rest : List Fetched) (m : SvcRequest), (sqOf s n).fetched = f :: rest ∧ (sqOf s n).typ = 2 ∧ f.msg = some m) ∧
    (∃ (s : State) (n : Nat) (f : Fetched) (rest : List Fetched), (sqOf s n).fetched = f :: rest ∧ (sqOf s n).typ = 3) ∧
    (∃ (s : State) (n : Nat) (f : Fetched) (h : BitVec 128) (k : Nat) (u : State) (c : Compl), h = f.slots.headD 0 ∧ k = (if sfld h 6 5 = 1 then 2 else 1) ∧ u = forEach (startEntry s n k) (f.slots.drop 1) (fun s g => emit s (.hostRead (sfld g 63 0) (sfld g 77 64) (sqOf s n).noSnoop)) ∧ c = { typ := 0, index := f.index, tag := sfld h 95 64, records := k } ∧ f.data = .error) ∧
    (∃ (s : State) (n : Nat) (f : Fetched) (bs : List Byte) (t : State) (h : BitVec 128) (k : Nat) (u : State) (c : Compl) (bytes : List Byte) (x : Frame), h = f.slots.headD 0 ∧ k = (if sfld h 6 5 = 1 then 2 else 1) ∧ u = forEach (startEntry s n k) (f.slots.drop 1) (fun s g => emit s (.hostRead (sfld g 63 0) (sfld g 77 64) (sqOf s n).noSnoop)) ∧ c = { typ := 0, index := f.index, tag := sfld h 95 64, records := k } ∧ bytes = fitBytes (max 60 (sfld h 45 32)) (fitBytes (sfld h 45 32) bs) ∧ x = { id := u.nextId, bytes := bytes, ingress := 112, ts := stampNow u % 2 ^ 64, tc := (if sfld h 4 4 = 1 then sfld h 18 16 else 0), tsTag := (if sfld h 6 5 = 1 then some (n, sfld h 95 64) else none), ptp := (if sfld h 6 5 = 2 then 1 else 0), parser := if sfld h 4 4 = 1 then some (sqOf u n).pipe else none } ∧ f.data = .ok bs ∧ grant { u with nextId := u.nextId + 1 } .granules 5 (granulesOf x) 8 = (none, t)) ∧
    (∃ (s : State) (n : Nat) (f : Fetched) (bs : List Byte) (b : Nat) (t : State) (h : BitVec 128) (k : Nat) (u : State) (c : Compl) (bytes : List Byte) (x : Frame), h = f.slots.headD 0 ∧ k = (if sfld h 6 5 = 1 then 2 else 1) ∧ u = forEach (startEntry s n k) (f.slots.drop 1) (fun s g => emit s (.hostRead (sfld g 63 0) (sfld g 77 64) (sqOf s n).noSnoop)) ∧ c = { typ := 0, index := f.index, tag := sfld h 95 64, records := k } ∧ bytes = fitBytes (max 60 (sfld h 45 32)) (fitBytes (sfld h 45 32) bs) ∧ x = { id := u.nextId, bytes := bytes, ingress := 112, ts := stampNow u % 2 ^ 64, tc := (if sfld h 4 4 = 1 then sfld h 18 16 else 0), tsTag := (if sfld h 6 5 = 1 then some (n, sfld h 95 64) else none), ptp := (if sfld h 6 5 = 2 then 1 else 0), parser := if sfld h 4 4 = 1 then some (sqOf u n).pipe else none } ∧ f.data = .ok bs ∧ grant { u with nextId := u.nextId + 1 } .granules 5 (granulesOf x) 8 = (some b, t) ∧ sfld h 4 4 = 0) ∧
    (∃ (s : State) (n : Nat) (f : Fetched) (bs : List Byte) (b : Nat) (t : State) (h : BitVec 128) (k : Nat) (u : State) (c : Compl) (bytes : List Byte) (x : Frame), h = f.slots.headD 0 ∧ k = (if sfld h 6 5 = 1 then 2 else 1) ∧ u = forEach (startEntry s n k) (f.slots.drop 1) (fun s g => emit s (.hostRead (sfld g 63 0) (sfld g 77 64) (sqOf s n).noSnoop)) ∧ c = { typ := 0, index := f.index, tag := sfld h 95 64, records := k } ∧ bytes = fitBytes (max 60 (sfld h 45 32)) (fitBytes (sfld h 45 32) bs) ∧ x = { id := u.nextId, bytes := bytes, ingress := 112, ts := stampNow u % 2 ^ 64, tc := (if sfld h 4 4 = 1 then sfld h 18 16 else 0), tsTag := (if sfld h 6 5 = 1 then some (n, sfld h 95 64) else none), ptp := (if sfld h 6 5 = 2 then 1 else 0), parser := if sfld h 4 4 = 1 then some (sqOf u n).pipe else none } ∧ f.data = .ok bs ∧ grant { u with nextId := u.nextId + 1 } .granules 5 (granulesOf x) 8 = (some b, t) ∧ sfld h 4 4 ≠ 0 ∧ sfld h 6 5 ≠ 1) ∧
    (∃ (s : State) (n : Nat) (f : Fetched) (bs : List Byte) (b : Nat) (t : State) (v : State) (h : BitVec 128) (k : Nat) (u : State) (c : Compl) (bytes : List Byte) (x : Frame), h = f.slots.headD 0 ∧ k = (if sfld h 6 5 = 1 then 2 else 1) ∧ u = forEach (startEntry s n k) (f.slots.drop 1) (fun s g => emit s (.hostRead (sfld g 63 0) (sfld g 77 64) (sqOf s n).noSnoop)) ∧ c = { typ := 0, index := f.index, tag := sfld h 95 64, records := k } ∧ bytes = fitBytes (max 60 (sfld h 45 32)) (fitBytes (sfld h 45 32) bs) ∧ x = { id := u.nextId, bytes := bytes, ingress := 112, ts := stampNow u % 2 ^ 64, tc := (if sfld h 4 4 = 1 then sfld h 18 16 else 0), tsTag := (if sfld h 6 5 = 1 then some (n, sfld h 95 64) else none), ptp := (if sfld h 6 5 = 2 then 1 else 0), parser := if sfld h 4 4 = 1 then some (sqOf u n).pipe else none } ∧ f.data = .ok bs ∧ grant { u with nextId := u.nextId + 1 } .granules 5 (granulesOf x) 8 = (some b, t) ∧ v = addCopy t { frame := x, port := sfld h 15 8, buf := b } ∧ sfld h 4 4 ≠ 0 ∧ sfld h 6 5 = 1) ∧
    (∃ (s : State) (t : State) (g : State) (tc : BitVec 3) (c : Nat) (tier : Nat) (f : QFrame), chooseNow s 112 = (some (c, tier, f), t, g) ∧ c ≠ tc.toNat) ∧
    (∃ (s : State) (t : State) (g : State) (tc : BitVec 3) (c : Nat) (tier : Nat) (f : QFrame) (n : Nat) (u : State) (q : Nat), u = chargeNow g 112 c tier f ∧ q = qIdx 112 c ∧ chooseNow s 112 = (some (c, tier, f), t, g) ∧ c = tc.toNat ∧ n = rxRing s f.frame ∧ hostBar s f.frame ≠ 0) ∧
    (∃ (s : State) (t : State) (g : State) (tc : BitVec 3) (c : Nat) (tier : Nat) (f : QFrame) (n : Nat) (u : State) (q : Nat), u = chargeNow g 112 c tier f ∧ q = qIdx 112 c ∧ chooseNow s 112 = (some (c, tier, f), t, g) ∧ c = tc.toNat ∧ n = rxRing s f.frame ∧ hostBar s f.frame = 0 ∧ (sqOf s n).posted = []) ∧
    (∃ (s : State) (t : State) (g : State) (tc : BitVec 3) (c : Nat) (tier : Nat) (f : QFrame) (n : Nat) (b : RxBuf) (rest : List RxBuf) (u : State) (q : Nat) (v : State) (w : State) (d : List Byte × State), u = chargeNow g 112 c tier f ∧ q = qIdx 112 c ∧ v = takeHead { u with rxWait := mapSet (fun _ => none) u.rxWait c none } q f ∧ w = emit (startEntry (setHeld v n { sqOf v n with posted := rest }) n 2) (.hostWrite b.addr (f.frame.bytes.take (min b.len f.frame.bytes.length)) (sqOf v n).noSnoop) ∧ d = rxData (if b.len < f.frame.bytes.length then countReason w 8 0xC4 else w) f.frame (min b.len f.frame.bytes.length) ∧ chooseNow s 112 = (some (c, tier, f), t, g) ∧ c = tc.toNat ∧ n = rxRing s f.frame ∧ hostBar s f.frame = 0 ∧ (sqOf s n).posted = b :: rest ∧ mayStart s n 2 = false) ∧
    (∃ (s : State) (t : State) (g : State) (tc : BitVec 3) (c : Nat) (tier : Nat) (f : QFrame) (n : Nat) (b : RxBuf) (rest : List RxBuf) (u : State) (q : Nat) (v : State) (w : State) (d : List Byte × State), u = chargeNow g 112 c tier f ∧ q = qIdx 112 c ∧ v = takeHead { u with rxWait := mapSet (fun _ => none) u.rxWait c none } q f ∧ w = emit (startEntry (setHeld v n { sqOf v n with posted := rest }) n 2) (.hostWrite b.addr (f.frame.bytes.take (min b.len f.frame.bytes.length)) (sqOf v n).noSnoop) ∧ d = rxData (if b.len < f.frame.bytes.length then countReason w 8 0xC4 else w) f.frame (min b.len f.frame.bytes.length) ∧ chooseNow s 112 = (some (c, tier, f), t, g) ∧ c = tc.toNat ∧ n = rxRing s f.frame ∧ hostBar s f.frame = 0 ∧ (sqOf s n).posted = b :: rest ∧ mayStart s n 2 = true) ∧
    (∃ (s : State) (t : State) (g : State), chooseNow s 112 = (none, t, g)) ∧
    (∃ (s : State), hostLive s = false) ∧
    (∃ (s : State) (f : Frame), hostLive s = true ∧ (ebit (tget s rngPage 0 0 f.hostCode) 8 = false ∨ (sqOf s (rxRing s f)).on = false ∨ (sqOf s (rxRing s f)).typ ≠ 1)) ∧
    (∃ (s : State) (f : Frame), hostLive s = true ∧ ebit (tget s rngPage 0 0 f.hostCode) 8 = true ∧ (sqOf s (rxRing s f)).on = true ∧ (sqOf s (rxRing s f)).typ = 1) ∧
    (∃ (s : State) (tc : BitVec 3), (headOf s (qIdx 112 tc.toNat) = none ∨ rxSince s tc.toNat = none)) ∧
    (∃ (s : State) (tc : BitVec 3) (f : QFrame) (b : Nat), headOf s (qIdx 112 tc.toNat) = some f ∧ rxSince s tc.toNat = some b ∧ b + usUnits (fld s rngPage 0x100 15 0) ≤ now s) ∧
    (∃ (s : State) (tc : BitVec 3) (f : QFrame) (b : Nat), headOf s (qIdx 112 tc.toNat) = some f ∧ rxSince s tc.toNat = some b ∧ now s < b + usUnits (fld s rngPage 0x100 15 0)) ∧
    (∃ (s : State) (tag : Word), (∀ w ∈ s.txWait, w.tag = tag.toNat → now s < w.since + msUnits 10)) ∧
    (∃ (s : State) (tag : Word) (w : TxWait) (rest : List TxWait), s.txWait = w :: rest ∧ w.tag = tag.toNat ∧ w.since + msUnits 10 ≤ now s) :=
  ⟨⟨S0, 255, by decide +kernel⟩,
   ⟨S0, 255, by decide +kernel⟩,
   ⟨S0, 255, by decide +kernel⟩,
   ⟨S0, 255, by decide +kernel⟩,
   ⟨sq 0 {}, 255, _, rfl, by decide +kernel⟩,
   ⟨sq 1 {}, 255, _, rfl, by decide +kernel⟩,
   ⟨sq 2 {}, 255, _, rfl, by decide +kernel⟩,
   ⟨sq 3 {}, 255, _, rfl, by decide +kernel⟩,
   ⟨sq 0 {}, 255, [hdr + BitVec.ofNat 128 (2^20), gat], _, _, _, _, rfl, rfl, rfl, rfl, by decide +kernel⟩,
   ⟨sq 0 { fetched := [{ index := 0, count := 63 }] }, 255, [hdr, gat], _, _, _, _, rfl, rfl, rfl, rfl, by decide +kernel⟩,
   ⟨sq 0 {}, 255, [hdr, gat], _, _, _, _, rfl, rfl, rfl, rfl, by decide +kernel⟩,
   ⟨sq 1 {}, 255, 1, _, _, rfl, rfl, by decide +kernel⟩,
   ⟨sq 1 {}, 255, BitVec.ofNat 128 (2^31), _, _, rfl, rfl, by decide +kernel⟩,
   ⟨sq 1 {}, 255, BitVec.ofNat 128 (63 * 16), _, _, rfl, rfl, by decide +kernel⟩,
   ⟨sq 1 { posted := List.replicate 64 { index := 0, tag := 1, len := 60, addr := 0x1000 } }, 255, BitVec.ofNat 128 (64 * 16), _, _, rfl, rfl, by decide +kernel⟩,
   ⟨sq 1 { posted := List.replicate 63 { index := 0, tag := 1, len := 60, addr := 0x1000 } }, 255, BitVec.ofNat 128 (64 * 16), _, _, rfl, rfl, by decide +kernel⟩,
   ⟨sq 2 {}, 255, [BitVec.ofNat 128 (4 + 0x1000 + 8 * 2^20)], _, _, _, _, _, rfl, rfl, rfl, rfl, rfl, by decide +kernel⟩,
   ⟨sq 2 {}, 255, [BitVec.ofNat 128 (4 + 0x1000 + 2^20 + 2^127), 0], _, _, _, _, _, rfl, rfl, rfl, rfl, rfl, by decide +kernel⟩,
   ⟨sq 2 {}, 255, [BitVec.ofNat 128 (4 + 0x1000 + 2^20 + 17 * 2^96), 0], _, _, _, _, _, rfl, rfl, rfl, rfl, rfl, by decide +kernel⟩,
   ⟨sq 2 { fetched := [{ index := 0, count := 63 }] }, 255, [BitVec.ofNat 128 (4 + 0x1000 + 2^20 + 16 * 2^96), 0], _, _, _, _, _, rfl, rfl, rfl, rfl, rfl, by decide +kernel⟩,
   ⟨sq 2 {}, 255, [BitVec.ofNat 128 (4 + 0x1000 + 2^20 + 16 * 2^96), 0], _, _, _, _, _, rfl, rfl, rfl, rfl, rfl, by decide +kernel⟩,
   ⟨sq 3 {}, 255, BitVec.ofNat 128 (1 + 15 * 16), _, _, rfl, rfl, by decide +kernel⟩,
   ⟨wreg (sq 3 {}) (sqPage 255) 0x120 1, 255, BitVec.ofNat 128 (1 + 15 * 16 + 64 * 2^64), _, _, rfl, rfl, by decide +kernel⟩,
   ⟨sq 3 {}, 255, BitVec.ofNat 128 (1 + 15 * 16 + 2^15 + 64 * 2^64), _, _, rfl, rfl, by decide +kernel⟩,
   ⟨sq 3 { fetched := [{ index := 0, count := 63 }] }, 255, BitVec.ofNat 128 (1 + 15 * 16 + 64 * 2^64), _, _, rfl, rfl, by decide +kernel⟩,
   ⟨sq 3 {}, 255, BitVec.ofNat 128 (1 + 15 * 16 + 64 * 2^64), _, _, rfl, rfl, by decide +kernel⟩,
   ⟨S0, by decide +kernel⟩,
   ⟨fx 0 (fT hdr (.ok (fr 60))), 255, by decide +kernel⟩,
   ⟨fx 0 (fT hdr (.ok (fr 60))), 255, by decide +kernel⟩,
   ⟨dcl 0, 255, by decide +kernel⟩,
   ⟨fx 0 (fT hdr (.ok (fr 60))), 255, fT hdr (.ok (fr 60)), [], by decide +kernel⟩,
   ⟨fx 0 (fT hdr (.ok (fr 60))), 255, fT hdr (.ok (fr 60)), [], by decide +kernel⟩,
   ⟨fx 2 { index := 3, count := 1, msg := some { service := 4, opcode := 0, noResp := true, tag := 1, key := 0, ring := some 255, body := [] } }, 255, { index := 3, count := 1, msg := some { service := 4, opcode := 0, noResp := true, tag := 1, key := 0, ring := some 255, body := [] } }, [], { service := 4, opcode := 0, noResp := true, tag := 1, key := 0, ring := some 255, body := [] }, by decide +kernel⟩,
   ⟨fx 3 { index := 3, count := 2, slots := [BitVec.ofNat 128 (1 + 15 * 16 + 64 * 2^64), 7] }, 255, { index := 3, count := 2, slots := [BitVec.ofNat 128 (1 + 15 * 16 + 64 * 2^64), 7] }, [], by decide +kernel⟩,
   ⟨fx 0 (fT hdr .error), 255, fT hdr .error, _, _, _, _, rfl, rfl, rfl, rfl, by decide +kernel⟩,
   ⟨setUsage (fx 0 (fT hdr (.ok (fr 60)))) .granules 5 0xFFFFFF, 255, fT hdr (.ok (fr 60)), fr 60, (grant { setUsage (uT (fT hdr (.ok (fr 60))) 1) .granules 5 0xFFFFFF with nextId := (uT (fT hdr (.ok (fr 60))) 1).nextId + 1 } .granules 5 1 8).2, _, _, _, _, _, _, rfl, rfl, rfl, rfl, rfl, rfl, by decide +kernel⟩,
   ⟨fx 0 (fT hdr (.ok (fr 60))), 255, fT hdr (.ok (fr 60)), fr 60, (gT (fT hdr (.ok (fr 60))) 1).1.getD 0, (gT (fT hdr (.ok (fr 60))) 1).2, _, _, _, _, _, _, rfl, rfl, rfl, rfl, rfl, rfl, by decide +kernel⟩,
   ⟨fx 0 (fT hdrD (.ok (fr 60))), 255, fT hdrD (.ok (fr 60)), fr 60, (gT (fT hdrD (.ok (fr 60))) 1).1.getD 0, (gT (fT hdrD (.ok (fr 60))) 1).2, _, _, _, _, _, _, rfl, rfl, rfl, rfl, rfl, rfl, by decide +kernel⟩,
   ⟨fx 0 (fT hdrT (.ok (fr 60))), 255, fT hdrT (.ok (fr 60)), fr 60, (gT (fT hdrT (.ok (fr 60))) 2).1.getD 0, (gT (fT hdrT (.ok (fr 60))) 2).2, addCopy (gT (fT hdrT (.ok (fr 60))) 2).2 { frame := xT (fT hdrT (.ok (fr 60))) 2, port := 63, buf := (gT (fT hdrT (.ok (fr 60))) 2).1.getD 0 }, _, _, _, _, _, _, rfl, rfl, rfl, rfl, rfl, rfl, by decide +kernel⟩,
   ⟨inQ (bind (sq 1 { posted := [{ index := 0, tag := 1, len := 60, addr := 0x1000 }] })), (chooseNow (inQ (bind (sq 1 { posted := [{ index := 0, tag := 1, len := 60, addr := 0x1000 }] }))) 112).2.1, (chooseNow (inQ (bind (sq 1 { posted := [{ index := 0, tag := 1, len := 60, addr := 0x1000 }] }))) 112).2.2, 6, 7, 2, q1, by decide +kernel⟩,
   ⟨inQ S0, (chooseNow (inQ S0) 112).2.1, (chooseNow (inQ S0) 112).2.2, 7, 7, 2, q1, 0, _, _, rfl, rfl, by decide +kernel⟩,
   ⟨inQ (bind (sq 1 {})), (chooseNow (inQ (bind (sq 1 {}))) 112).2.1, (chooseNow (inQ (bind (sq 1 {}))) 112).2.2, 7, 7, 2, q1, 255, _, _, rfl, rfl, by decide +kernel⟩,
   ⟨inQ (bind (setCqRing (setSq (wreg S0 (sqPage 255) 0x120 8) 255 { on := true, typ := 1, cq := 255, posted := [{ index := 0, tag := 1, len := 60, addr := 0x1000 }] }) 255 { on := true, reserved := 127 })), (chooseNow (inQ (bind (setCqRing (setSq (wreg S0 (sqPage 255) 0x120 8) 255 { on := true, typ := 1, cq := 255, posted := [{ index := 0, tag := 1, len := 60, addr := 0x1000 }] }) 255 { on := true, reserved := 127 }))) 112).2.1, (chooseNow (inQ (bind (setCqRing (setSq (wreg S0 (sqPage 255) 0x120 8) 255 { on := true, typ := 1, cq := 255, posted := [{ index := 0, tag := 1, len := 60, addr := 0x1000 }] }) 255 { on := true, reserved := 127 }))) 112).2.2, 7, 7, 2, q1, 255, { index := 0, tag := 1, len := 60, addr := 0x1000 }, [], _, _, _, _, _, rfl, rfl, rfl, rfl, rfl, by decide +kernel⟩,
   ⟨inQ (bind (setCqRing (setSq (wreg S0 (sqPage 255) 0x120 8) 255 { on := true, typ := 1, cq := 255, posted := [{ index := 0, tag := 1, len := 30, addr := 0x1000 }] }) 255 { on := true })), (chooseNow (inQ (bind (setCqRing (setSq (wreg S0 (sqPage 255) 0x120 8) 255 { on := true, typ := 1, cq := 255, posted := [{ index := 0, tag := 1, len := 30, addr := 0x1000 }] }) 255 { on := true }))) 112).2.1, (chooseNow (inQ (bind (setCqRing (setSq (wreg S0 (sqPage 255) 0x120 8) 255 { on := true, typ := 1, cq := 255, posted := [{ index := 0, tag := 1, len := 30, addr := 0x1000 }] }) 255 { on := true }))) 112).2.2, 7, 7, 2, q1, 255, { index := 0, tag := 1, len := 30, addr := 0x1000 }, [], _, _, _, _, _, rfl, rfl, rfl, rfl, rfl, by decide +kernel⟩,
   ⟨S0, (chooseNow (S0) 112).2.1, (chooseNow (S0) 112).2.2, by decide +kernel⟩,
   ⟨setBit S0 rngPage 0x104 0 true, by decide +kernel⟩,
   ⟨sq 1 {}, F9, by decide +kernel⟩,
   ⟨bind (sq 1 {}), F9, by decide +kernel⟩,
   ⟨S0, 7, by decide +kernel⟩,
   ⟨{ inQ { S0 with rxWait := mapSet (fun _ => none) S0.rxWait 7 (some (0, 0)) } with baseCount := 153600000000 }, 7, q1, 0, by decide +kernel⟩,
   ⟨wreg (inQ { S0 with rxWait := mapSet (fun _ => none) S0.rxWait 7 (some (0, 0)) }) rngPage 0x100 9, 7, q1, 0, by decide +kernel⟩,
   ⟨{ sq 0 {} with txWait := [{ ring := 255, tag := 9, index := 0, len := 60, sel := false, since := 0 }] }, 9, by decide +kernel⟩,
   ⟨{ sq 0 {} with txWait := [{ ring := 255, tag := 9, index := 0, len := 60, sel := true, since := 0 }], baseCount := 1536000000 }, 9, { ring := 255, tag := 9, index := 0, len := 60, sel := true, since := 0 }, [], by decide +kernel⟩⟩

/-- States and operands that meet the hypotheses of each clause of CopyChannelsAndScratch. -/
theorem witness_CopyChannelsAndScratch :
    (∃ (s : State) (c : BitVec 4), (chanOf s c.toNat).entries = []) ∧
    (∃ (s : State) (c : BitVec 4) (e : ChanEntry) (rest : List ChanEntry), (chanOf s c.toNat).entries = e :: rest ∧ (e.running = true ∨ e.waitLift = true ∨ halted s = true ∨ serving s dmaPage = false ∨ draining s dmaPage = true ∨ ((e.srcSpace = 0 ∨ e.dstSpace = 0) ∧ pcieLive s = false))) ∧
    (∃ (s : State) (c : BitVec 4) (e : ChanEntry) (rest : List ChanEntry), (chanOf s c.toNat).entries = e :: rest ∧ e.running = false ∧ e.waitLift = false ∧ halted s = false ∧ serving s dmaPage = true ∧ draining s dmaPage = false ∧ ((e.srcSpace ≠ 0 ∧ e.dstSpace ≠ 0) ∨ pcieLive s = true) ∧ copyVerdict s e ≠ 0) ∧
    (∃ (s : State) (c : BitVec 4) (e : ChanEntry) (rest : List ChanEntry), (chanOf s c.toNat).entries = e :: rest ∧ e.running = false ∧ e.waitLift = false ∧ halted s = false ∧ serving s dmaPage = true ∧ draining s dmaPage = false ∧ ((e.srcSpace ≠ 0 ∧ e.dstSpace ≠ 0) ∨ pcieLive s = true) ∧ copyVerdict s e = 0) ∧
    (∃ (e : ChanEntry), (3 < e.srcSpace ∨ 3 < e.dstSpace ∨ e.dstSpace = 1 ∨ e.dstSpace = 2)) ∧
    (∃ (e : ChanEntry), e.srcSpace = 0 ∧ e.dstSpace = 0 ∧ e.xform = 0) ∧
    (∃ (e : ChanEntry), e.srcSpace = 3 ∧ e.dstSpace = 3 ∧ e.xform = 0 ∧ e.src < e.dst + e.len ∧ e.dst < e.src + e.len) ∧
    (∃ (e : ChanEntry), e.srcSpace = 1 ∧ e.dstSpace = 0 ∧ e.xform = 0 ∧ e.src < 2 ^ 42 ∧ e.src % 4096 + e.len ≤ 4096 ∧ e.dst + e.len ≤ 2 ^ 64) ∧
    (∃ (s : State) (e : ChanEntry), e.srcSpace = 2 ∧ e.dstSpace = 0 ∧ e.xform = 0 ∧ e.src % 2 ^ 60 + e.len ≤ (capOf s (e.src / 2 ^ 60)).size * 4096 ∧ e.dst + e.len ≤ 2 ^ 64) ∧
    (∃ (s : State) (c : Nat) (e : ChanEntry) (rest : List ChanEntry), (chanOf s c).entries = e :: rest ∧ e.running = true ∧ e.due = true) ∧
    (∃ (s : State) (c : Nat) (e : ChanEntry) (rest : List ChanEntry), (chanOf s c).entries = e :: rest ∧ e.running = true ∧ e.due = true ∧ chanRate s c ≠ 0 ∧ (fillChan s c (chanRate s c)).fill ≤ 0) ∧
    (∃ (s : State) (c : Nat) (e : ChanEntry) (rest : List ChanEntry), (chanOf s c).entries = e :: rest ∧ e.running = true ∧ e.due = true ∧ chanRate s c ≠ 0) ∧
    (∃ (s : State) (c : Nat) (e : ChanEntry) (rest : List ChanEntry), (chanOf s c).entries = e :: rest ∧ e.running = true ∧ e.due = true ∧ e.srcSpace = 0) ∧
    (∃ (s : State) (c : Nat) (e : ChanEntry) (rest : List ChanEntry), (chanOf s c).entries = e :: rest ∧ e.running = true ∧ e.due = true ∧ e.srcSpace ≠ 0) ∧
    (∃ (s : State) (c : BitVec 4), (chanOf s c.toNat).entries = []) ∧
    (∃ (s : State) (c : BitVec 4) (e : ChanEntry) (rest : List ChanEntry), (chanOf s c.toNat).entries = e :: rest ∧ (e.running = false ∨ e.asked ≤ e.got.length)) ∧
    (∃ (s : State) (c : BitVec 4) (d : HostRead (List Byte)) (e : ChanEntry) (rest : List ChanEntry), (chanOf s c.toNat).entries = e :: rest ∧ e.running = true ∧ e.got.length < e.asked ∧ beatData s e d = .error ∧ halted s = true) ∧
    (∃ (s : State) (c : BitVec 4) (d : HostRead (List Byte)) (e : ChanEntry) (rest : List ChanEntry), (chanOf s c.toNat).entries = e :: rest ∧ e.running = true ∧ e.got.length < e.asked ∧ beatData s e d = .error ∧ halted s = false ∧ e.srcSpace = 0) ∧
    (∃ (s : State) (c : BitVec 4) (d : HostRead (List Byte)) (e : ChanEntry) (rest : List ChanEntry), (chanOf s c.toNat).entries = e :: rest ∧ e.running = true ∧ e.got.length < e.asked ∧ beatData s e d = .error ∧ halted s = false ∧ e.srcSpace ≠ 0) ∧
    (∃ (s : State) (c : BitVec 4) (d : HostRead (List Byte)) (e : ChanEntry) (rest : List ChanEntry) (bs : List Byte) (got : List Byte) (r : ChanEntry × State) (e' : ChanEntry), got = (numbered e.got.length (bs.take (e.asked - e.got.length))).map (fun b => srcByte s e b.1 b.2) ∧ r = writeOut s e (if (xformOf e.xform).op = 0 then numbered e.got.length got else (xformOf e.xform).output e.len e.got.length (e.got ++ got)) ∧ e' = { r.1 with got := r.1.got ++ got } ∧ (chanOf s c.toNat).entries = e :: rest ∧ e.running = true ∧ e.got.length < e.asked ∧ beatData s e d = .ok bs ∧ (e'.got.length < e.asked ∨ halted s = true)) ∧
    (∃ (s : State) (c : BitVec 4) (d : HostRead (List Byte)) (e : ChanEntry) (rest : List ChanEntry) (bs : List Byte) (got : List Byte) (r : ChanEntry × State) (e' : ChanEntry), got = (numbered e.got.length (bs.take (e.asked - e.got.length))).map (fun b => srcByte s e b.1 b.2) ∧ r = writeOut s e (if (xformOf e.xform).op = 0 then numbered e.got.length got else (xformOf e.xform).output e.len e.got.length (e.got ++ got)) ∧ e' = { r.1 with got := r.1.got ++ got } ∧ (chanOf s c.toNat).entries = e :: rest ∧ e.running = true ∧ e.got.length < e.asked ∧ beatData s e d = .ok bs ∧ e.asked ≤ e'.got.length ∧ halted s = false ∧ e.asked < e.len) ∧
    (∃ (s : State) (c : BitVec 4) (d : HostRead (List Byte)) (e : ChanEntry) (rest : List ChanEntry) (bs : List Byte) (got : List Byte) (r : ChanEntry × State) (e' : ChanEntry) (t : State), got = (numbered e.got.length (bs.take (e.asked - e.got.length))).map (fun b => srcByte s e b.1 b.2) ∧ r = writeOut s e (if (xformOf e.xform).op = 0 then numbered e.got.length got else (xformOf e.xform).output e.len e.got.length (e.got ++ got)) ∧ e' = { r.1 with got := r.1.got ++ got } ∧ t = setChan r.2 c.toNat { chanOf r.2 c.toNat with entries := e' :: rest } ∧ (chanOf s c.toNat).entries = e :: rest ∧ e.running = true ∧ e.got.length < e.asked ∧ beatData s e d = .ok bs ∧ e.asked ≤ e'.got.length ∧ halted s = false ∧ e.len ≤ e.asked ∧ e.srcSpace = 1 ∧ (pageReadable t (e.src / 4096) = false ∨ e.gen ≠ some (bufOf t .pages (e.src / 4096)).gen)) ∧
    (∃ (s : State) (c : BitVec 4) (d : HostRead (List Byte)) (e : ChanEntry) (rest : List ChanEntry) (bs : List Byte) (got : List Byte) (r : ChanEntry × State) (e' : ChanEntry) (t : State), got = (numbered e.got.length (bs.take (e.asked - e.got.length))).map (fun b => srcByte s e b.1 b.2) ∧ r = writeOut s e (if (xformOf e.xform).op = 0 then numbered e.got.length got else (xformOf e.xform).output e.len e.got.length (e.got ++ got)) ∧ e' = { r.1 with got := r.1.got ++ got } ∧ t = setChan r.2 c.toNat { chanOf r.2 c.toNat with entries := e' :: rest } ∧ (chanOf s c.toNat).entries = e :: rest ∧ e.running = true ∧ e.got.length < e.asked ∧ beatData s e d = .ok bs ∧ e.asked ≤ e'.got.length ∧ halted s = false ∧ e.len ≤ e.asked ∧ (e.srcSpace ≠ 1 ∨ (pageReadable t (e.src / 4096) = true ∧ e.gen = some (bufOf t .pages (e.src / 4096)).gen))) ∧
    (∃ (e : ChanEntry), e.srcSpace = 0) ∧
    (∃ (s : State), s.dramBad = []) ∧
    (∃ (e : ChanEntry), e.srcSpace = 0) ∧
    (∃ (s : State) (c : Nat) (e : ChanEntry) (rest : List ChanEntry), (chanOf s c).entries = e :: rest) ∧
    (∃ (s : State) (r : Requester) (v : Word) (u : State), u = written s dmaPage 0x104 (v.toNat ||| 2 ^ 31) ∧ opened s r dmaPage 0x104 = true ∧ s.scratchNew.isSome = true) ∧
    (∃ (s : State) (r : Requester) (v : Word) (u : State), u = written s dmaPage 0x104 (v.toNat ||| 2 ^ 31) ∧ opened s r dmaPage 0x104 = true ∧ s.scratchNew = none ∧ scratchNamed s = true) ∧
    (∃ (s : State) (r : Requester) (v : Word) (t : State) (u : State), u = written s dmaPage 0x104 (v.toNat ||| 2 ^ 31) ∧ opened s r dmaPage 0x104 = true ∧ s.scratchNew = none ∧ scratchNamed s = false ∧ grantPages u 6 8 none (v.toNat % 2 ^ 28) [] = (none, t)) ∧
    (∃ (s : State) (r : Requester) (v : Word) (l : List Nat) (t : State) (u : State), u = written s dmaPage 0x104 (v.toNat ||| 2 ^ 31) ∧ opened s r dmaPage 0x104 = true ∧ s.scratchNew = none ∧ scratchNamed s = false ∧ grantPages u 6 8 none (v.toNat % 2 ^ 28) [] = (some l, t)) ∧
    (∃ (s : State), s.scratchNew = none) ∧
    (∃ (s : State) (l : List Nat) (u : State), u = forEach s s.scratch (fun s p => opRelease s .pages p 6) ∧ s.scratchNew = some l) :=
  ⟨⟨S0, 15, by decide +kernel⟩,
   ⟨chS { ent 0 0 3 with waitLift := true }, 15, { ent 0 0 3 with waitLift := true }, [], by decide +kernel⟩,
   ⟨chS (ent 1 0 3), 15, ent 1 0 3, [], by decide +kernel⟩,
   ⟨chS (ent 0 0 0), 15, ent 0 0 0, [], by decide +kernel⟩,
   ⟨ent 4 0 0, by decide +kernel⟩,
   ⟨{ ent 0 0 0 with src := 2^64 - 4, dst := 2^64 - 3 }, by decide +kernel⟩,
   ⟨{ ent 3 3 0 with dst := 3 }, by decide +kernel⟩,
   ⟨ent 1 0 0, by decide +kernel⟩,
   ⟨setCap (capS 4) 3 { size := 16, pages := [] }, { ent 2 0 0 with src := 3 * 2^60 + 65532 }, by decide +kernel⟩,
   ⟨chS due0, 15, due0, [], by decide +kernel⟩,
   ⟨rated due0 0, 15, due0, [], by decide +kernel⟩,
   ⟨rated due0 5, 15, due0, [], by decide +kernel⟩,
   ⟨chS due0, 15, due0, [], by decide +kernel⟩,
   ⟨chS due1, 15, due1, [], by decide +kernel⟩,
   ⟨S0, 15, by decide +kernel⟩,
   ⟨chS (run0 0), 15, run0 0, [], by decide +kernel⟩,
   ⟨setBit (chS (run0 4)) rngPage 0x104 0 true, 15, .error, run0 4, [], by decide +kernel⟩,
   ⟨chS (run0 4), 15, .error, run0 4, [], by decide +kernel⟩,
   ⟨chS (run1' 4), 15, .error, run1' 4, [], by decide +kernel⟩,
   ⟨chS (run0 4), 15, .ok [1,2], run0 4, [], [1,2], _, _, _, rfl, rfl, rfl, by decide +kernel⟩,
   ⟨chS { run0 4 with len := 8 }, 15, .ok [1,2,3,4], { run0 4 with len := 8 }, [], [1,2,3,4], _, _, _, rfl, rfl, rfl, by decide +kernel⟩,
   ⟨chS (run1' 4), 15, .ok [1,2,3,4], run1' 4, [], [1,2,3,4], _, _, _, _, rfl, rfl, rfl, rfl, by decide +kernel⟩,
   ⟨chS (run0 4), 15, .ok [1,2,3,4], run0 4, [], [1,2,3,4], _, _, _, _, rfl, rfl, rfl, rfl, by decide +kernel⟩,
   ⟨ent 0 0 0, by decide +kernel⟩,
   ⟨S0, by decide +kernel⟩,
   ⟨ent 0 0 0, by decide +kernel⟩,
   ⟨chS (ent 0 0 0), 15, ent 0 0 0, [], by decide +kernel⟩,
   ⟨{ S0 with scratchNew := some [] }, .host, 8, _, rfl, by decide +kernel⟩,
   ⟨setChan S0 15 { entries := [ent 3 3 0] }, .host, 8, _, rfl, by decide +kernel⟩,
   ⟨setUsage dram .pages 6 0xFFFFFFFF, .host, 8, (grantPages (written (setUsage dram .pages 6 0xFFFFFFFF) dmaPage 0x104 (8 + 2^31)) 6 8 none 8 []).2, _, rfl, by decide +kernel⟩,
   ⟨quot6, .host, 8, (grantPages (written quot6 dmaPage 0x104 (8 + 2^31)) 6 8 none 8 []).1.getD [], (grantPages (written quot6 dmaPage 0x104 (8 + 2^31)) 6 8 none 8 []).2, _, rfl, by decide +kernel⟩,
   ⟨S0, by decide +kernel⟩,
   ⟨{ dram with scratchNew := some [] }, [], _, rfl, by decide +kernel⟩⟩

/-- States and operands that meet the hypotheses of each clause of CapturePartitions. -/
theorem witness_CapturePartitions :
    (∃ (s : State) (r : Requester) (n : BitVec 4) (u : State), u = written s capPage (capOff n.toNat) (rewritten s capPage (capOff n.toNat) 1 1) ∧ opened s r capPage (capOff n.toNat) = true ∧ bitAt s capPage (capOff n.toNat) 0 = true) ∧
    (∃ (s : State) (r : Requester) (n : BitVec 4) (u : State), u = written s capPage (capOff n.toNat) (rewritten s capPage (capOff n.toNat) 1 1) ∧ opened s r capPage (capOff n.toNat) = true ∧ bitAt s capPage (capOff n.toNat) 0 = false ∧ fld s capPage (capOff n.toNat + 4) 27 0 < 16) ∧
    (∃ (s : State) (r : Requester) (n : BitVec 4) (t : State) (u : State), u = written s capPage (capOff n.toNat) (rewritten s capPage (capOff n.toNat) 1 1) ∧ opened s r capPage (capOff n.toNat) = true ∧ bitAt s capPage (capOff n.toNat) 0 = false ∧ 16 ≤ fld s capPage (capOff n.toNat + 4) 27 0 ∧ grantPages u 5 6 none (fld s capPage (capOff n.toNat + 4) 27 0) [] = (none, t)) ∧
    (∃ (s : State) (r : Requester) (n : BitVec 4) (l : List Nat) (t : State) (u : State), u = written s capPage (capOff n.toNat) (rewritten s capPage (capOff n.toNat) 1 1) ∧ opened s r capPage (capOff n.toNat) = true ∧ bitAt s capPage (capOff n.toNat) 0 = false ∧ 16 ≤ fld s capPage (capOff n.toNat + 4) 27 0 ∧ grantPages u 5 6 none (fld s capPage (capOff n.toNat + 4) 27 0) [] = (some l, t)) ∧
    (∃ (s : State) (r : Requester) (n : BitVec 4) (u : State), u = written s capPage (capOff n.toNat) (rewritten s capPage (capOff n.toNat) 1 0) ∧ opened s r capPage (capOff n.toNat) = true ∧ bitAt s capPage (capOff n.toNat) 0 = false) ∧
    (∃ (s : State) (r : Requester) (n : BitVec 4) (u : State), u = written s capPage (capOff n.toNat) (rewritten s capPage (capOff n.toNat) 1 0) ∧ opened s r capPage (capOff n.toNat) = true ∧ bitAt s capPage (capOff n.toNat) 0 = true ∧ capNamed s n.toNat = true) ∧
    (∃ (s : State) (r : Requester) (n : BitVec 4) (u : State), u = written s capPage (capOff n.toNat) (rewritten s capPage (capOff n.toNat) 1 0) ∧ opened s r capPage (capOff n.toNat) = true ∧ bitAt s capPage (capOff n.toNat) 0 = true ∧ capNamed s n.toNat = false ∧ capState s n.toNat = 0) ∧
    (∃ (s : State) (r : Requester) (n : BitVec 4) (u : State), u = written s capPage (capOff n.toNat) (rewritten s capPage (capOff n.toNat) 1 0) ∧ opened s r capPage (capOff n.toNat) = true ∧ bitAt s capPage (capOff n.toNat) 0 = true ∧ capNamed s n.toNat = false ∧ capState s n.toNat ≠ 0) ∧
    (∃ (s : State) (r : Requester) (n : BitVec 4) (u : State), u = written s capPage (capOff n.toNat + 0x0C) 1 ∧ opened s r capPage (capOff n.toNat + 0x0C) = true ∧ capState s n.toNat ≠ 1 ∧ capState s n.toNat ≠ 4) ∧
    (∃ (s : State) (r : Requester) (n : BitVec 4) (u : State), u = written s capPage (capOff n.toNat + 0x0C) 1 ∧ opened s r capPage (capOff n.toNat + 0x0C) = true ∧ (capState s n.toNat = 1 ∨ capState s n.toNat = 4) ∧ capNamed s n.toNat = true) ∧
    (∃ (s : State) (r : Requester) (n : BitVec 4) (u : State), u = written s capPage (capOff n.toNat + 0x0C) 1 ∧ opened s r capPage (capOff n.toNat + 0x0C) = true ∧ (capState s n.toNat = 1 ∨ capState s n.toNat = 4) ∧ capNamed s n.toNat = false) ∧
    (∃ (s : State) (r : Requester) (n : BitVec 4) (u : State), u = written s capPage (capOff n.toNat + 0x0C) 2 ∧ opened s r capPage (capOff n.toNat + 0x0C) = true ∧ capState s n.toNat = 2) ∧
    (∃ (s : State) (r : Requester) (n : BitVec 4) (u : State), u = written s capPage (capOff n.toNat + 0x0C) 2 ∧ opened s r capPage (capOff n.toNat + 0x0C) = true ∧ (capState s n.toNat = 1 ∨ capState s n.toNat = 4)) ∧
    (∃ (s : State) (r : Requester) (n : BitVec 4) (u : State), u = written s capPage (capOff n.toNat + 0x0C) 2 ∧ opened s r capPage (capOff n.toNat + 0x0C) = true ∧ (capState s n.toNat = 0 ∨ capState s n.toNat = 3)) ∧
    (∃ (s : State) (r : Requester) (n : BitVec 4) (u : State), u = written s capPage (capOff n.toNat + 0x0C) 4 ∧ opened s r capPage (capOff n.toNat + 0x0C) = true ∧ (capState s n.toNat = 2 ∨ capState s n.toNat = 3)) ∧
    (∃ (s : State) (r : Requester) (n : BitVec 4) (u : State), u = written s capPage (capOff n.toNat + 0x0C) 4 ∧ opened s r capPage (capOff n.toNat + 0x0C) = true ∧ capState s n.toNat ≠ 2 ∧ capState s n.toNat ≠ 3) ∧
    (∃ (s : State) (n : BitVec 4), capState s n.toNat = 3 ∧ fld s capPage (capOff n.toNat + 8) 27 0 * 4096 ≤ (capOf s n.toNat).post) ∧
    (∃ (s : State) (n : BitVec 4), (capState s n.toNat ≠ 3 ∨ (capOf s n.toNat).post < fld s capPage (capOff n.toNat + 8) 27 0 * 4096)) ∧
    (∃ (s : State) (n : Nat), capState s n ≠ 2 ∧ capState s n ≠ 3) ∧
    (∃ (s : State) (n : Nat) (bytes : List Byte), capState s n = 3 ∧ serving s capPage = true ∧ fld s capPage (capOff n + 8) 27 0 * 4096 < (capOf s n).post + (32 + (bytes.length + 7) / 8 * 8)) :=
  ⟨⟨setBit S0 capPage (capOff 3) 0 true, .host, 3, _, rfl, by decide +kernel⟩,
   ⟨setFld S0 capPage (capOff 3 + 4) 27 0 15, .host, 3, _, rfl, by decide +kernel⟩,
   ⟨c16 (setUsage dram .pages 5 0xFFFFFFFF), .host, 3, (grantPages (w16 (setUsage dram .pages 5 0xFFFFFFFF)) 5 6 none 16 []).2, _, rfl, by decide +kernel⟩,
   ⟨c16 quot, .host, 3, (grantPages (w16 quot) 5 6 none 16 []).1.getD [], (grantPages (w16 quot) 5 6 none 16 []).2, _, rfl, by decide +kernel⟩,
   ⟨S0, .host, 3, _, rfl, by decide +kernel⟩,
   ⟨setBit (nameCap (capS 4)) capPage (capOff 3) 0 true, .host, 3, _, rfl, by decide +kernel⟩,
   ⟨setBit (capS 0) capPage (capOff 3) 0 true, .host, 3, _, rfl, by decide +kernel⟩,
   ⟨setBit (capS 4) capPage (capOff 3) 0 true, .host, 3, _, rfl, by decide +kernel⟩,
   ⟨capS 2, .host, 3, _, rfl, by decide +kernel⟩,
   ⟨nameCap (capS 4), .host, 3, _, rfl, by decide +kernel⟩,
   ⟨capS 1, .host, 3, _, rfl, by decide +kernel⟩,
   ⟨capS 2, .host, 3, _, rfl, by decide +kernel⟩,
   ⟨capS 4, .host, 3, _, rfl, by decide +kernel⟩,
   ⟨capS 3, .host, 3, _, rfl, by decide +kernel⟩,
   ⟨capS 3, .host, 3, _, rfl, by decide +kernel⟩,
   ⟨capS 1, .host, 3, _, rfl, by decide +kernel⟩,
   ⟨capS 3, 3, by decide +kernel⟩,
   ⟨capS 2, 3, by decide +kernel⟩,
   ⟨capS 1, 3, by decide +kernel⟩,
   ⟨setCap (capS 3) 3 { size := 16, pages := [] }, 3, fr 60, by decide +kernel⟩⟩

end Rings

/-! ### Witnesses: faults -/

namespace Faults

def U0 : State := setBit S0 unlockPage 0x10C 16 true
def at1 (s : State) : State := { s with baseCount := 153600000000 }
def I0 : Inspection := { id := 5, action := 1, page := ebkPage 3, cell := 0 }
def insS (i : Inspection) : State := { S0 with insp := [i] }
def lst (s : State) (i st : Nat) : State := tset s bscPage 1 0 i (BitVec.ofNat 1920 st)
def fwS (n : Nat) : State := setFld S0 fwPage 0x108 2 0 n
def slots (s : State) (l : List Nat) : State := (l.zip (List.range 16)).foldl (fun s e => tset s fwPage 0 0 e.2 (BitVec.ofNat 1920 (e.1 + 0x100))) s
def hot (s : State) (t : Int) : State := { s with therm := { s.therm with reported := t } }
def fe (x : Nat) : Entry := BitVec.ofNat 1920 x
def cmp (t g : Nat) : Component := { ctype := BitVec.ofNat 8 t, target := BitVec.ofNat 8 g, version := 1, svn := 0, counter := 0, stateVer := 1, stateMin := 1, digest := 0, digestOk := true }
def bun : Bundle := { generation := 1, manifestDigest := 0, signerSlot := some 0, sigAskineOk := true, sigOwnerOk := true, mib := 1, components := [cmp 1 0, cmp 3 0, cmp 4 0, cmp 2 10], fwSlots := [], fwTable := [], fwCfg := 0 }
def cmdS (c : SecCmd) : State := { S0 with boot := { S0.boot with cmd := some c } }
def spanB : State := setBlkState (setFld (setFld S0 (ebkPage 63) 0x108 7 0 2) (ebkPage 63) 0x108 15 8 1) 63 3
def I6 : Inspection := { id := 5, action := 6, page := sdqPage 0, cell := 3 }
def I7 : Inspection := { id := 5, action := 7, page := 0x5002, cell := 0 }
def I10 : Inspection := { id := 5, action := 10, page := ebkPage 60, cell := 0 }
def I13 : Inspection := { id := 5, action := 13, page := tmsPage 3, cell := 0, force := true }
def W6 : Inspection := { I6 with windowed := true, inst := 10 ^ 9, len := 100 }
def other (i : Inspection) : Inspection := { i with id := 6 }
def tbv : State := setBit S0 (tbPage 0) 0x104 0 true
def full7 : State := wreg S0 bpmPage 0x140 0xFFFFF
def inj (k p : Nat) : State := setFld (setFld U0 injPage 0x100 3 0 k) injPage 0x104 15 0 p
def lc : Nat × State := liftCommit tbv 4064 (markRecord 0 1 0)
def fwA (n : Nat) (l : List Nat) (es : List Entry) : State := { fwS n with fwTabs := es.foldl (fun m e => mapSet (fun _ => 0) m (tabKey fwPage 1 0 0) e) ((l.zip (List.range 16)).foldl (fun m e => mapSet (fun _ => 0) m (tabKey fwPage 0 0 e.2) (BitVec.ofNat 1920 (e.1 + 0x100))) []) }
def eK : Entry := fe (2^127 + 255 + 2^20 + 2^37 + 2^86 + 3 * 2^87)
def fF : Frame := { id := 0, bytes := List.replicate 60 0, ingress := 63, ts := rxStamp S0 63 }
def perm (s : State) : State := setBit { s with pins := { s.pins with footwayEn := true } } fwPage 0x100 8 true
def busy : State := cmdS { code := 1 }
def bun2 : Bundle := { bun with components := [cmp 1 0, cmp 3 0, cmp 4 0, { cmp 2 10 with digest := 5 }] }
def fullStore : State := (List.range 32).foldl (fun s k => tset s secPage 1 0 k (BitVec.ofNat 1920 (4 + 2^40))) S0
def stg (s : State) : State := { s with boot := { s.boot with aonLost := false, slotB := some bun } }
def spxS (n : Nat) : State := { spanB with boot := { spanB.boot with cmd := some { code := 5 }, asked := List.replicate n { block := 1, op := 0x10, args := [] } } }

/-- States and operands that meet the hypotheses of each clause of WatchdogInjectionAndFailover. -/
theorem witness_WatchdogInjectionAndFailover :
    (∃ (s : State), fld s inspPage 0x118 15 0 = 0) ∧
    (∃ (s : State), now s < s.wdogAt + msUnits (fld s inspPage 0x118 15 0)) ∧
    (∃ (s : State), fld s inspPage 0x118 15 0 ≠ 0 ∧ s.wdogAt + msUnits (fld s inspPage 0x118 15 0) ≤ now s) ∧
    (∃ (s : State) (r : Requester) (u : State), u = written s inspPage 0x118 (rewritten s inspPage 0x118 0x80000000 0x80000000) ∧ opened s r inspPage 0x118 = true) ∧
    (∃ (s : State) (t : State), t = drawNonce s ∧ opened s .host unlockPage 0x100 = true) ∧
    (∃ (s : State) (key : Word) (n : Nat) (t : Nat) (u : State), u = written s unlockPage 0x108 key.toNat ∧ opened s .host unlockPage 0x108 = true ∧ s.inj.nonce = some (n, t) ∧ bitAt s fusePage 0x108 1 = false ∧ key.toNat = (n % 2 ^ 32) ^^^ 0x5A5A5A5A ∧ now s ≤ t + msUnits 10) ∧
    (∃ (s : State) (key : Word) (n : Nat) (t : Nat) (u : State), u = written s unlockPage 0x108 key.toNat ∧ opened s .host unlockPage 0x108 = true ∧ s.inj.nonce = some (n, t) ∧ bitAt s fusePage 0x108 1 = false ∧ (key.toNat ≠ (n % 2 ^ 32) ^^^ 0x5A5A5A5A ∨ t + msUnits 10 < now s)) ∧
    (∃ (s : State) (key : Word) (u : State), u = written s unlockPage 0x108 key.toNat ∧ opened s .host unlockPage 0x108 = true ∧ (s.inj.nonce = none ∨ bitAt s fusePage 0x108 1 = true)) ∧
    (∃ (s : State) (m : BitVec 6) (t : Nat) (u : State) (v : State), u = written s unlockPage 0x10C (m.toNat + 0x100) ∧ v = { u with inj := { s.inj with keyAt := none, until' := now s + m.toNat * 60000 * 153600000 } } ∧ opened s .host unlockPage 0x10C = true ∧ s.inj.keyAt = some t ∧ now s ≤ t + msUnits 10 ∧ 1 ≤ m.toNat ∧ m.toNat ≤ 60) ∧
    (∃ (s : State) (m : BitVec 6) (u : State) (v : State), u = written s unlockPage 0x10C (m.toNat + 0x100) ∧ v = { u with inj := { s.inj with keyAt := none, until' := now s + m.toNat * 60000 * 153600000 } } ∧ opened s .host unlockPage 0x10C = true ∧ (s.inj.keyAt = none ∨ (∃ t ∈ s.inj.keyAt, t + msUnits 10 < now s) ∨ m.toNat = 0 ∨ 60 < m.toNat)) ∧
    (∃ (s : State) (u : State), u = written s unlockPage 0x10C (rewritten s unlockPage 0x10C 0x200 0x200) ∧ opened s .host unlockPage 0x10C = true) ∧
    (∃ (s : State), unlocked s = true ∧ s.inj.until' ≤ now s) ∧
    (∃ (s : State), (unlocked s = false ∨ now s < s.inj.until')) ∧
    (∃ (s : State) (r : Requester) (u : Nat → State), (∀ k, u k = written s injPage 0x100 (rewritten s injPage 0x100 0x8000000F (k + 2 ^ 31))) ∧ opened s r injPage 0x100 = true) ∧
    (∃ (s : State) (k : Nat) (p : Nat), k = fld s injPage 0x100 3 0 ∧ p = fld s injPage 0x104 15 0 ∧ unlocked s = false) ∧
    (∃ (s : State) (k : Nat) (p : Nat), k = fld s injPage 0x100 3 0 ∧ p = fld s injPage 0x104 15 0 ∧ unlocked s = true ∧ carries k p = false) ∧
    (∃ (s : State) (k : Nat) (p : Nat), k = fld s injPage 0x100 3 0 ∧ p = fld s injPage 0x104 15 0 ∧ unlocked s = true ∧ carries k p = true ∧ pageOn s p = false) ∧
    (∃ (s : State) (k : Nat) (p : Nat) (cell : Nat) (idx : Nat) (bit : Nat) (c : Nat) (dir : D2dDir), k = fld s injPage 0x100 3 0 ∧ p = fld s injPage 0x104 15 0 ∧ cell = fld s injPage 0x104 31 16 ∧ idx = fld s injPage 0x108 29 0 ∧ bit = fld s injPage 0x10C 9 0 ∧ c = fld s injPage 0x10C 31 16 ∧ dir = (if fld s injPage 0x108 31 30 = 0 then D2dDir.toCor else .toFld) ∧ unlocked s = true ∧ carries k p = true ∧ pageOn s p = true ∧ s.inj.faults = [] ∧ bitAt s injPage 0x100 4 = true) ∧
    (∃ (s : State) (k : Nat) (p : Nat) (cell : Nat) (idx : Nat) (bit : Nat) (c : Nat) (dir : D2dDir), k = fld s injPage 0x100 3 0 ∧ p = fld s injPage 0x104 15 0 ∧ cell = fld s injPage 0x104 31 16 ∧ idx = fld s injPage 0x108 29 0 ∧ bit = fld s injPage 0x10C 9 0 ∧ c = fld s injPage 0x10C 31 16 ∧ dir = (if fld s injPage 0x108 31 30 = 0 then D2dDir.toCor else .toFld) ∧ unlocked s = true ∧ carries k p = true ∧ pageOn s p = true ∧ s.inj.faults = [] ∧ bitAt s injPage 0x100 4 = false ∧ k = 7) ∧
    (∃ (s : State) (k : Nat) (p : Nat) (cell : Nat) (idx : Nat) (bit : Nat) (c : Nat) (dir : D2dDir), k = fld s injPage 0x100 3 0 ∧ p = fld s injPage 0x104 15 0 ∧ cell = fld s injPage 0x104 31 16 ∧ idx = fld s injPage 0x108 29 0 ∧ bit = fld s injPage 0x10C 9 0 ∧ c = fld s injPage 0x10C 31 16 ∧ dir = (if fld s injPage 0x108 31 30 = 0 then D2dDir.toCor else .toFld) ∧ unlocked s = true ∧ carries k p = true ∧ pageOn s p = true ∧ s.inj.faults = [] ∧ bitAt s injPage 0x100 4 = false ∧ k = 1) ∧
    (∃ (s : State) (k : Nat) (p : Nat) (cell : Nat) (idx : Nat) (bit : Nat) (c : Nat) (dir : D2dDir), k = fld s injPage 0x100 3 0 ∧ p = fld s injPage 0x104 15 0 ∧ cell = fld s injPage 0x104 31 16 ∧ idx = fld s injPage 0x108 29 0 ∧ bit = fld s injPage 0x10C 9 0 ∧ c = fld s injPage 0x10C 31 16 ∧ dir = (if fld s injPage 0x108 31 30 = 0 then D2dDir.toCor else .toFld) ∧ unlocked s = true ∧ carries k p = true ∧ pageOn s p = true ∧ s.inj.faults = [] ∧ bitAt s injPage 0x100 4 = false ∧ (k = 2 ∨ k = 3)) ∧
    (∃ (s : State) (k : Nat) (p : Nat) (cell : Nat) (idx : Nat) (bit : Nat) (c : Nat) (dir : D2dDir), k = fld s injPage 0x100 3 0 ∧ p = fld s injPage 0x104 15 0 ∧ cell = fld s injPage 0x104 31 16 ∧ idx = fld s injPage 0x108 29 0 ∧ bit = fld s injPage 0x10C 9 0 ∧ c = fld s injPage 0x10C 31 16 ∧ dir = (if fld s injPage 0x108 31 30 = 0 then D2dDir.toCor else .toFld) ∧ unlocked s = true ∧ carries k p = true ∧ pageOn s p = true ∧ s.inj.faults = [] ∧ bitAt s injPage 0x100 4 = false ∧ k = 4) ∧
    (∃ (s : State) (k : Nat) (p : Nat) (cell : Nat) (idx : Nat) (bit : Nat) (c : Nat) (dir : D2dDir), k = fld s injPage 0x100 3 0 ∧ p = fld s injPage 0x104 15 0 ∧ cell = fld s injPage 0x104 31 16 ∧ idx = fld s injPage 0x108 29 0 ∧ bit = fld s injPage 0x10C 9 0 ∧ c = fld s injPage 0x10C 31 16 ∧ dir = (if fld s injPage 0x108 31 30 = 0 then D2dDir.toCor else .toFld) ∧ unlocked s = true ∧ carries k p = true ∧ pageOn s p = true ∧ s.inj.faults = [] ∧ bitAt s injPage 0x100 4 = false ∧ k = 5) ∧
    (∃ (s : State) (k : Nat) (p : Nat) (cell : Nat) (idx : Nat) (bit : Nat) (c : Nat) (dir : D2dDir) (w : Nat × Nat), k = fld s injPage 0x100 3 0 ∧ p = fld s injPage 0x104 15 0 ∧ cell = fld s injPage 0x104 31 16 ∧ idx = fld s injPage 0x108 29 0 ∧ bit = fld s injPage 0x10C 9 0 ∧ c = fld s injPage 0x10C 31 16 ∧ dir = (if fld s injPage 0x108 31 30 = 0 then D2dDir.toCor else .toFld) ∧ w = (idx, (fresh s).1 % 512) ∧ unlocked s = true ∧ carries k p = true ∧ pageOn s p = true ∧ s.inj.faults = [] ∧ bitAt s injPage 0x100 4 = false ∧ k = 6) ∧
    (∃ (s : State) (k : Nat) (p : Nat) (cell : Nat) (idx : Nat) (bit : Nat) (c : Nat) (dir : D2dDir), k = fld s injPage 0x100 3 0 ∧ p = fld s injPage 0x104 15 0 ∧ cell = fld s injPage 0x104 31 16 ∧ idx = fld s injPage 0x108 29 0 ∧ bit = fld s injPage 0x10C 9 0 ∧ c = fld s injPage 0x10C 31 16 ∧ dir = (if fld s injPage 0x108 31 30 = 0 then D2dDir.toCor else .toFld) ∧ unlocked s = true ∧ carries k p = true ∧ pageOn s p = true ∧ s.inj.faults = [] ∧ bitAt s injPage 0x100 4 = false ∧ k = 8) ∧
    (∃ (s : State) (k : Nat) (p : Nat) (cell : Nat) (idx : Nat) (bit : Nat) (c : Nat) (dir : D2dDir), k = fld s injPage 0x100 3 0 ∧ p = fld s injPage 0x104 15 0 ∧ cell = fld s injPage 0x104 31 16 ∧ idx = fld s injPage 0x108 29 0 ∧ bit = fld s injPage 0x10C 9 0 ∧ c = fld s injPage 0x10C 31 16 ∧ dir = (if fld s injPage 0x108 31 30 = 0 then D2dDir.toCor else .toFld) ∧ unlocked s = true ∧ carries k p = true ∧ pageOn s p = true ∧ s.inj.faults = [] ∧ bitAt s injPage 0x100 4 = false ∧ k = 9) ∧
    (∃ (s : State) (p : Page) (cell : Nat) (idx : Nat) (bit : Nat) (sticky : Bool) (u : State), u = addSat s p.toNat 0x100 15 0 1 ∧ s.inj.faults = [(1, p.toNat, cell, idx, bit, sticky)] ∧ kindOf p.toNat = some .buf) ∧
    (∃ (s : State) (p : Page), (∀ f ∈ s.inj.faults, f.2.1 = p.toNat → f.1 ≠ 1 ∧ f.1 ≠ 2)) ∧
    (∃ (s : State) (r : Requester) (v : BitVec 8) (u : State), u = written s inspPage 0x110 v.toNat ∧ opened s r inspPage 0x110 = true ∧ v.toNat = (rd s inspPage 0x110).toNat % 256) ∧
    (∃ (s : State) (r : Requester) (v : BitVec 8) (g : Nat) (u : State), u = written s inspPage 0x110 v.toNat ∧ opened s r inspPage 0x110 = true ∧ g < 4 ∧ (∀ h < 4, h ≠ g → bitsOf v.toNat (2 * h + 1) (2 * h) = fld s inspPage 0x110 (2 * h + 1) (2 * h)) ∧ bitsOf v.toNat (2 * g + 1) (2 * g) ≠ fld s inspPage 0x110 (2 * g + 1) (2 * g) ∧ bitsOf v.toNat (2 * g + 1) (2 * g) = 2) ∧
    (∃ (s : State) (r : Requester) (v : BitVec 8) (g : Nat) (u : State), u = written s inspPage 0x110 v.toNat ∧ opened s r inspPage 0x110 = true ∧ g < 4 ∧ (∀ h < 4, h ≠ g → bitsOf v.toNat (2 * h + 1) (2 * h) = fld s inspPage 0x110 (2 * h + 1) (2 * h)) ∧ bitsOf v.toNat (2 * g + 1) (2 * g) ≠ fld s inspPage 0x110 (2 * g + 1) (2 * g) ∧ bitsOf v.toNat (2 * g + 1) (2 * g) = 0) ∧
    (∃ (s : State) (r : Requester) (v : BitVec 8) (g : Nat) (u : State), u = written s inspPage 0x110 v.toNat ∧ opened s r inspPage 0x110 = true ∧ g < 4 ∧ (∀ h < 4, h ≠ g → bitsOf v.toNat (2 * h + 1) (2 * h) = fld s inspPage 0x110 (2 * h + 1) (2 * h)) ∧ bitsOf v.toNat (2 * g + 1) (2 * g) ≠ fld s inspPage 0x110 (2 * g + 1) (2 * g) ∧ bitsOf v.toNat (2 * g + 1) (2 * g) % 2 = 1) :=
  ⟨⟨setFld S0 inspPage 0x118 15 0 0, by decide +kernel⟩,
   ⟨setFld S0 inspPage 0x118 15 0 65535, by decide +kernel⟩,
   ⟨at1 (setFld S0 inspPage 0x118 15 0 1), by decide +kernel⟩,
   ⟨S0, .host, _, rfl, by decide +kernel⟩,
   ⟨S0, _, rfl, by decide +kernel⟩,
   ⟨{ S0 with inj := { S0.inj with nonce := some (0, 0) } }, 0x5A5A5A5A, 0, 0, _, rfl, by decide +kernel⟩,
   ⟨{ S0 with inj := { S0.inj with nonce := some (0, 0) } }, 0x5A5A5A5B, 0, 0, _, rfl, by decide +kernel⟩,
   ⟨S0, 1, _, rfl, by decide +kernel⟩,
   ⟨{ S0 with inj := { S0.inj with keyAt := some 0 } }, 60, 0, _, _, rfl, rfl, by decide +kernel⟩,
   ⟨S0, 60, _, _, rfl, rfl, by decide +kernel⟩,
   ⟨S0, _, rfl, by decide +kernel⟩,
   ⟨U0, by decide +kernel⟩,
   ⟨{ U0 with inj := { S0.inj with until' := 5 } }, by decide +kernel⟩,
   ⟨S0, .host, fun k => written S0 injPage 0x100 (rewritten S0 injPage 0x100 0x8000000F (k + 2 ^ 31)), fun _ => rfl, by decide +kernel⟩,
   ⟨S0, _, _, rfl, rfl, by decide +kernel⟩,
   ⟨inj 9 0, _, _, rfl, rfl, by decide +kernel⟩,
   ⟨setDom (inj 7 (ebkPage 63)) (pageDom (ebkPage 63)) { st := .off }, _, _, rfl, rfl, by decide +kernel⟩,
   ⟨setBit (inj 1 (rulPage 0)) injPage 0x100 4 true, _, _, _, _, _, _, _, rfl, rfl, rfl, rfl, rfl, rfl, rfl, by decide +kernel⟩,
   ⟨inj 7 (ebkPage 63), _, _, _, _, _, _, _, rfl, rfl, rfl, rfl, rfl, rfl, rfl, by decide +kernel⟩,
   ⟨inj 1 (rulPage 0), _, _, _, _, _, _, _, rfl, rfl, rfl, rfl, rfl, rfl, rfl, by decide +kernel⟩,
   ⟨inj 3 bpmPage, _, _, _, _, _, _, _, rfl, rfl, rfl, rfl, rfl, rfl, rfl, by decide +kernel⟩,
   ⟨inj 4 d2dPage, _, _, _, _, _, _, _, rfl, rfl, rfl, rfl, rfl, rfl, rfl, by decide +kernel⟩,
   ⟨inj 5 ppmPage, _, _, _, _, _, _, _, rfl, rfl, rfl, rfl, rfl, rfl, rfl, by decide +kernel⟩,
   ⟨inj 6 ppmPage, _, _, _, _, _, _, _, _, rfl, rfl, rfl, rfl, rfl, rfl, rfl, rfl, by decide +kernel⟩,
   ⟨inj 8 (sdqPage 15), _, _, _, _, _, _, _, rfl, rfl, rfl, rfl, rfl, rfl, rfl, by decide +kernel⟩,
   ⟨inj 9 thermPage, _, _, _, _, _, _, _, rfl, rfl, rfl, rfl, rfl, rfl, rfl, by decide +kernel⟩,
   ⟨{ S0 with inj := { S0.inj with faults := [(1, 0x5002, 0, 5, 0, true)] } }, 0x5002, 0, 5, 0, true, _, rfl, by decide +kernel⟩,
   ⟨S0, 0x5002, by decide +kernel⟩,
   ⟨wreg S0 inspPage 0x110 1, .host, 1, _, rfl, by decide +kernel⟩,
   ⟨wreg S0 inspPage 0x110 1, .host, 2, 0, _, rfl, by decide +kernel⟩,
   ⟨wreg S0 inspPage 0x110 0x81, .host, 1, 3, _, rfl, by decide +kernel⟩,
   ⟨wreg S0 inspPage 0x110 0x81, .host, 0xC1, 3, _, rfl, by decide +kernel⟩⟩

/-- States and operands that meet the hypotheses of each clause of InspectionAndTestControls. -/
theorem witness_InspectionAndTestControls :
    (∃ (s : State) (i : Inspection) (ns : Nat), (inspTargetOk i.action i.page i.cell = false ∨ pageOn s i.page = false ∨ 999999999 < ns)) ∧
    (∃ (s : State) (i : Inspection) (ns : Nat), inspTargetOk i.action i.page i.cell = true ∧ pageOn s i.page = true ∧ ns ≤ 999999999 ∧ (underInsp s i = true ∨ 256 ≤ (s.insp.filter (fun j => j.phase == 0)).length)) ∧
    (∃ (s : State) (i : Inspection) (ns : Nat), inspTargetOk i.action i.page i.cell = true ∧ pageOn s i.page = true ∧ ns ≤ 999999999 ∧ underInsp s i = false ∧ (s.insp.filter (fun j => j.phase == 0)).length < 256 ∧ inspOnline s i = true) ∧
    (∃ (s : State) (i : Inspection) (ns : Nat), inspTargetOk i.action i.page i.cell = true ∧ pageOn s i.page = true ∧ ns ≤ 999999999 ∧ underInsp s i = false ∧ (s.insp.filter (fun j => j.phase == 0)).length < 256 ∧ inspOnline s i = false ∧ i.windowed = true ∧ i.inst ≤ (tbAt s i.tb (now s) / (2 ^ 32 : Nat)).toNat) ∧
    (∃ (s : State) (i : Inspection) (ns : Nat), inspTargetOk i.action i.page i.cell = true ∧ pageOn s i.page = true ∧ ns ≤ 999999999 ∧ underInsp s i = false ∧ (s.insp.filter (fun j => j.phase == 0)).length < 256 ∧ inspOnline s i = false ∧ i.windowed = true ∧ (tbAt s i.tb (now s) / (2 ^ 32 : Nat)).toNat < i.inst ∧ windowClash s i = true) ∧
    (∃ (s : State) (i : Inspection) (sec : Nat) (ns : Nat) (l : Nat) (t : State), inspTargetOk i.action i.page i.cell = true ∧ pageOn s i.page = true ∧ ns ≤ 999999999 ∧ underInsp s i = false ∧ (s.insp.filter (fun j => j.phase == 0)).length < 256 ∧ inspOnline s i = false ∧ i.windowed = true ∧ (tbAt s i.tb (now s) / (2 ^ 32 : Nat)).toNat < i.inst ∧ windowClash s i = false ∧ (s.insp.filter (fun j => j.phase == 0 && j.windowed)).length < 32 ∧ inspLift s = some l ∧ liftCommit s l (markRecord i.tb sec ns) = (0, t)) ∧
    (∃ (s : State) (i : Inspection) (ns : Nat), inspTargetOk i.action i.page i.cell = true ∧ pageOn s i.page = true ∧ ns ≤ 999999999 ∧ underInsp s i = false ∧ (s.insp.filter (fun j => j.phase == 0)).length < 256 ∧ inspOnline s i = false ∧ i.windowed = false ∧ i.force = true ∧ mayRun s i = true) ∧
    (∃ (s : State) (i : Inspection) (ns : Nat), inspTargetOk i.action i.page i.cell = true ∧ pageOn s i.page = true ∧ ns ≤ 999999999 ∧ underInsp s i = false ∧ (s.insp.filter (fun j => j.phase == 0)).length < 256 ∧ inspOnline s i = false ∧ i.windowed = false ∧ i.force = true ∧ mayRun s i = false) ∧
    (∃ (s : State) (i : Inspection) (ns : Nat), inspTargetOk i.action i.page i.cell = true ∧ pageOn s i.page = true ∧ ns ≤ 999999999 ∧ underInsp s i = false ∧ (s.insp.filter (fun j => j.phase == 0)).length < 256 ∧ inspOnline s i = false ∧ i.windowed = false ∧ i.force = false ∧ inspLossless i = false) ∧
    (∃ (s : State) (i : Inspection) (ns : Nat) (k : Nat) (t : State), inspTargetOk i.action i.page i.cell = true ∧ pageOn s i.page = true ∧ ns ≤ 999999999 ∧ underInsp s i = false ∧ (s.insp.filter (fun j => j.phase == 0)).length < 256 ∧ inspOnline s i = false ∧ i.windowed = false ∧ i.force = false ∧ inspLossless i = true ∧ prepStart s i = (k, t) ∧ k = 4) ∧
    (∃ (s : State) (i : Inspection) (ns : Nat) (k : Nat) (t : State), inspTargetOk i.action i.page i.cell = true ∧ pageOn s i.page = true ∧ ns ≤ 999999999 ∧ underInsp s i = false ∧ (s.insp.filter (fun j => j.phase == 0)).length < 256 ∧ inspOnline s i = false ∧ i.windowed = false ∧ i.force = false ∧ inspLossless i = true ∧ prepStart s i = (k, t) ∧ k ≠ 4) ∧
    (∃ (s : State) (id : BitVec 16), (s.insp.find? (fun j => j.id == id.toNat && j.phase == 0) = none)) ∧
    (∃ (s : State) (id : BitVec 16) (i : Inspection) (l : Nat), (s.insp.find? (fun j => j.id == id.toNat && j.phase == 0) = some i) ∧ i.lift = some l ∧ liftState s l ≠ 4) ∧
    (∃ (s : State) (id : BitVec 16) (i : Inspection) (l : Nat), (s.insp.find? (fun j => j.id == id.toNat && j.phase == 0) = some i) ∧ i.lift = some l ∧ liftState s l = 4 ∧ efld (liftStat s l) 7 4 ≠ 1) ∧
    (∃ (s : State) (id : BitVec 16) (i : Inspection) (l : Nat), (s.insp.find? (fun j => j.id == id.toNat && j.phase == 0) = some i) ∧ i.lift = some l ∧ liftState s l = 4 ∧ efld (liftStat s l) 7 4 = 1 ∧ mayRun s i = true) ∧
    (∃ (s : State) (id : BitVec 16) (i : Inspection), (s.insp.find? (fun j => j.id == id.toNat && j.phase == 0) = some i) ∧ mayRun s i = false ∧ (∀ l ∈ i.lift, efld (liftStat s l) 7 4 = 1)) ∧
    (∃ (s : State) (id : BitVec 16) (i : Inspection), (s.insp.find? (fun j => j.id == id.toNat && j.phase == 0) = some i) ∧ i.lift = none ∧ mayRun s i = true ∧ i.force = true) ∧
    (∃ (s : State) (id : BitVec 16) (i : Inspection), (s.insp.find? (fun j => j.id == id.toNat && j.phase == 0) = some i) ∧ i.lift = none ∧ mayRun s i = true ∧ i.force = false ∧ i.prep = true ∧ prepReady s i = true) ∧
    (∃ (s : State) (id : BitVec 16) (i : Inspection), (s.insp.find? (fun j => j.id == id.toNat && j.phase == 0) = some i) ∧ i.lift = none ∧ mayRun s i = true ∧ i.force = false ∧ i.prep = true ∧ prepReady s i = false) ∧
    (∃ (s : State) (id : BitVec 16) (i : Inspection) (k : Nat) (t : State), (s.insp.find? (fun j => j.id == id.toNat && j.phase == 0) = some i) ∧ i.lift = none ∧ mayRun s i = true ∧ i.force = false ∧ i.prep = false ∧ prepStart s i = (k, t) ∧ k = 4) ∧
    (∃ (s : State) (id : BitVec 16) (i : Inspection) (k : Nat) (t : State), (s.insp.find? (fun j => j.id == id.toNat && j.phase == 0) = some i) ∧ i.lift = none ∧ mayRun s i = true ∧ i.force = false ∧ i.prep = false ∧ prepStart s i = (k, t) ∧ k ≠ 4) ∧
    (∃ (s : State) (id : BitVec 16), (s.insp.find? (fun j => j.id == id.toNat && j.phase == 1) = none)) ∧
    (∃ (s : State) (id : BitVec 16) (e : Word) (a : Word) (i : Inspection) (t : State), t = dropInsp (testEnd s i e.toNat a.toNat true) id.toNat ∧ (s.insp.find? (fun j => j.id == id.toNat && j.phase == 1) = some i) ∧ e = 0) ∧
    (∃ (s : State) (id : BitVec 16) (e : Word) (a : Word) (i : Inspection) (t : State), t = dropInsp (testEnd s i e.toNat a.toNat true) id.toNat ∧ (s.insp.find? (fun j => j.id == id.toNat && j.phase == 1) = some i) ∧ e ≠ 0 ∧ i.action ≠ 7 ∧ i.action ≠ 8) ∧
    (∃ (s : State) (id : BitVec 16) (e : Word) (a : Word) (i : Inspection) (t : State), t = dropInsp (testEnd s i e.toNat a.toNat true) id.toNat ∧ (s.insp.find? (fun j => j.id == id.toNat && j.phase == 1) = some i) ∧ e ≠ 0 ∧ (i.action = 7 ∨ i.action = 8)) ∧
    (∃ (s : State) (id : BitVec 16), (s.insp.find? (fun j => j.id == id.toNat) = none)) ∧
    (∃ (s : State) (id : BitVec 16) (i : Inspection), (s.insp.find? (fun j => j.id == id.toNat) = some i) ∧ (i.deadline ≠ 0 ∨ (i.phase = 1 ∧ i.windowed = true))) ∧
    (∃ (s : State) (id : BitVec 16) (i : Inspection), (s.insp.find? (fun j => j.id == id.toNat) = some i) ∧ i.deadline = 0 ∧ (i.phase ≠ 1 ∨ i.windowed = false)) ∧
    (∃ (s : State) (r : Requester) (p : Page) (c1 : Word) (a : State), a = { testWrite (written s p.toNat 0x054 c1.toNat) r p.toNat 0x054 c1 with resp := .done } ∧ hasTest p.toNat = true ∧ opened s r p.toNat 0x054 = true ∧ opened a r p.toNat 0x050 = true) ∧
    (∃ (s : State) (p : Nat) (o : Nat) (v : Word), rd s p o = v) ∧
    (∃ (s : State) (r : Requester) (p : Nat) (o : Nat) (v : Word), rd s p o ≠ v ∧ mayTest s r = false) ∧
    (∃ (s : State) (r : Requester) (p : Nat) (o : Nat) (v : Word), rd s p o ≠ v ∧ mayTest s r = true ∧ (o ≠ 0x050 ∨ runsActions s r = true)) ∧
    (∃ (s : State) (r : Requester) (p : Nat) (v : Word), rd s p 0x050 ≠ v ∧ mayTest s r = true ∧ runsActions s r = false ∧ bitsOf v.toNat 4 0 ≠ fld s p 0x050 4 0 ∧ bitsOf v.toNat 4 0 = 0 ∧ (∀ i ∈ s.insp, i.page ≠ p)) ∧
    (∃ (s : State) (r : Requester) (p : Nat) (v : Word) (i : Inspection) (t : State), i = { id := s.nextId % 65536, action := bitsOf v.toNat 4 0, page := p, cell := bitsOf v.toNat 23 8, force := true, param := (rd (wr s p 0x050 v) p 0x054).toNat } ∧ t = wr s p 0x050 v ∧ rd s p 0x050 ≠ v ∧ mayTest s r = true ∧ runsActions s r = false ∧ bitsOf v.toNat 4 0 ≠ fld s p 0x050 4 0 ∧ bitsOf v.toNat 4 0 ≠ 0 ∧ inspTargetOk (bitsOf v.toNat 4 0) p (bitsOf v.toNat 23 8) = true ∧ (∀ j ∈ s.insp, j.page ≠ p)) :=
  ⟨⟨S0, { I6 with cell := 4 }, 0, by decide +kernel⟩,
   ⟨insS { other I6 with phase := 1 }, I6, 0, by decide +kernel⟩,
   ⟨S0, I0, 999999999, by decide +kernel⟩,
   ⟨tbv, { W6 with inst := 0 }, 0, by decide +kernel⟩,
   ⟨{ tbv with insp := [{ other W6 with lift := some 4064 }] }, W6, 0, by decide +kernel⟩,
   ⟨tbv, W6, 1, 0, 4064, lc.2, by decide +kernel⟩,
   ⟨S0, { I6 with force := true }, 0, by decide +kernel⟩,
   ⟨insS { I13 with phase := 1, id := 6, page := tmsPage 4 }, I13, 0, by decide +kernel⟩,
   ⟨S0, I6, 0, by decide +kernel⟩,
   ⟨full7, I7, 0, 4, (prepStart full7 I7).2, by decide +kernel⟩,
   ⟨S0, I7, 0, 0, (prepStart S0 I7).2, by decide +kernel⟩,
   ⟨S0, 5, by decide +kernel⟩,
   ⟨lst (insS { I0 with lift := some 4095 }) 4095 0x73, 5, { I0 with lift := some 4095 }, 4095, by decide +kernel⟩,
   ⟨lst (insS { I0 with lift := some 4095 }) 4095 0x74, 5, { I0 with lift := some 4095 }, 4095, by decide +kernel⟩,
   ⟨lst (insS { I0 with lift := some 4095 }) 4095 0x14, 5, { I0 with lift := some 4095 }, 4095, by decide +kernel⟩,
   ⟨{ S0 with insp := [I13, { I13 with phase := 1, id := 6, page := tmsPage 4 }] }, 5, I13, by decide +kernel⟩,
   ⟨insS { I0 with force := true }, 5, { I0 with force := true }, by decide +kernel⟩,
   ⟨insS { I10 with prep := true }, 5, { I10 with prep := true }, by decide +kernel⟩,
   ⟨insS { I7 with prep := true }, 5, { I7 with prep := true }, by decide +kernel⟩,
   ⟨{ full7 with insp := [I7] }, 5, I7, 4, (prepStart { full7 with insp := [I7] } I7).2, by decide +kernel⟩,
   ⟨insS I10, 5, I10, 0, (prepStart (insS I10) I10).2, by decide +kernel⟩,
   ⟨insS I0, 5, by decide +kernel⟩,
   ⟨insS { I0 with phase := 1 }, 5, 0, 9, { I0 with phase := 1 }, _, rfl, by decide +kernel⟩,
   ⟨insS { I0 with phase := 1 }, 5, 1, 9, { I0 with phase := 1 }, _, rfl, by decide +kernel⟩,
   ⟨insS { I7 with phase := 1 }, 5, 1, 9, { I7 with phase := 1 }, _, rfl, by decide +kernel⟩,
   ⟨S0, 5, by decide +kernel⟩,
   ⟨insS { I0 with phase := 1, windowed := true }, 5, { I0 with phase := 1, windowed := true }, by decide +kernel⟩,
   ⟨insS I0, 5, I0, by decide +kernel⟩,
   ⟨U0, .host, BitVec.ofNat 16 (ebkPage 3), 2, _, rfl, by decide +kernel⟩,
   ⟨S0, ebkPage 3, 0x050, 0, by decide +kernel⟩,
   ⟨S0, .host, ebkPage 3, 0x050, 1, by decide +kernel⟩,
   ⟨U0, .host, ebkPage 3, 0x05C, 1, by decide +kernel⟩,
   ⟨setFld U0 (ebkPage 3) 0x050 4 0 1, .host, ebkPage 3, 0, by decide +kernel⟩,
   ⟨U0, .host, ebkPage 3, 1, _, _, rfl, rfl, by decide +kernel⟩⟩

/-- States and operands that meet the hypotheses of each clause of FootwayMode. -/
theorem witness_FootwayMode :
    (∃ (s : State) (r : Requester) (u : State), u = setFld (written s fwPage 0x104 1) fwPage 0x108 31 16 (fwPower s) ∧ opened s r fwPage 0x104 = true ∧ fwState s = 0 ∧ commitCause s false = 0) ∧
    (∃ (s : State) (r : Requester) (u : State), u = setFld (written s fwPage 0x104 1) fwPage 0x108 31 16 (fwPower s) ∧ opened s r fwPage 0x104 = true ∧ fwState s = 0 ∧ commitCause s false ≠ 0) ∧
    (∃ (s : State) (r : Requester), opened s r fwPage 0x104 = true ∧ fwState s ≠ 0) ∧
    (∃ (s : State), 450 < fwPower s) ∧
    (∃ (s : State), 8 < ((writtenPorts s).filter (· < 64)).length) ∧
    (∃ (s : State) (c : BitVec 3), 1 ≤ c.toNat ∧ c.toNat ≤ 4 ∧ fwPermitted s = true ∧ (fwState s = 0 ∨ fwState s = 3)) ∧
    (∃ (s : State) (c : BitVec 3), 1 ≤ c.toNat ∧ c.toNat ≤ 4 ∧ (fwState s = 1 ∨ fwState s = 2)) ∧
    (∃ (s : State) (c : BitVec 3), 1 ≤ c.toNat ∧ c.toNat ≤ 4 ∧ fwPermitted s = false ∧ (fwState s = 0 ∨ fwState s = 3) ∧ c = 3) ∧
    (∃ (s : State) (c : BitVec 3), 1 ≤ c.toNat ∧ c.toNat ≤ 4 ∧ fwPermitted s = false ∧ (fwState s = 0 ∨ fwState s = 3) ∧ c = 1) ∧
    (∃ (s : State) (c : BitVec 3), 1 ≤ c.toNat ∧ c.toNat ≤ 4 ∧ fwPermitted s = false ∧ (fwState s = 0 ∨ fwState s = 3) ∧ c = 4) ∧
    (∃ (s : State) (c : BitVec 3), 1 ≤ c.toNat ∧ c.toNat ≤ 4 ∧ fwPermitted s = false ∧ (fwState s = 0 ∨ fwState s = 3) ∧ c = 2) ∧
    (∃ (c : BitVec 3), (c.toNat = 0 ∨ 4 < c.toNat)) ∧
    (∃ (s : State), 1150 ≤ s.therm.reported ∧ s.mode = .run ∧ fwState s ≠ 2) ∧
    (∃ (s : State), (s.therm.reported < 1150 ∨ s.mode ≠ .run ∨ fwState s = 2)) ∧
    (∃ (s : State) (p : Port), fwActive s p.toNat = false) ∧
    (∃ (s : State) (p : Port) (bs : List Byte), fwActive s p.toNat = true ∧ fwFind s p.toNat bs = none) ∧
    (∃ (s : State) (p : Port) (bs : List Byte) (e : Entry), fwActive s p.toNat = true ∧ fwFind s p.toNat bs = some e ∧ ebit e 103 = true) ∧
    (∃ (s : State) (p : Port) (bs : List Byte) (e : Entry) (t : State) (f : Frame) (l : List Nat), f = { id := 0, bytes := bs, ingress := p.toNat, ts := rxStamp s p.toNat } ∧ l = (onesOf 16 (efld e 102 87)).filter (fun i => (fwSlot s i).2.1 && (fwSlot s i).1 != p.toNat) ∧ fwActive s p.toNat = true ∧ fwFind s p.toNat bs = some e ∧ ebit e 103 = false ∧ fwTake s (ebit e 104) (frameLen f) = (false, t)) ∧
    (∃ (s : State) (p : Port) (bs : List Byte) (e : Entry) (t : State) (f : Frame) (l : List Nat), f = { id := 0, bytes := bs, ingress := p.toNat, ts := rxStamp s p.toNat } ∧ l = (onesOf 16 (efld e 102 87)).filter (fun i => (fwSlot s i).2.1 && (fwSlot s i).1 != p.toNat) ∧ fwActive s p.toNat = true ∧ fwFind s p.toNat bs = some e ∧ ebit e 103 = false ∧ fwTake s (ebit e 104) (frameLen f) = (true, t)) ∧
    (∃ (s : State) (f : Frame) (i : Nat), i < 16 ∧ 32768 < fifoBytes s i + frameLen f) ∧
    (∃ (s : State) (f : Frame) (i : Nat), i < 16 ∧ fifoBytes s i + frameLen f ≤ 32768) ∧
    (∃ (s : State), s.foot.slot = now s / msUnits 1) ∧
    (∃ (s : State) (r : Requester) (u : State), u = written s fwPage 0x104 4 ∧ opened s r fwPage 0x104 = true ∧ fwState s = 2 ∧ fwPersists s = true) ∧
    (∃ (s : State) (r : Requester) (u : State), u = written s fwPage 0x104 4 ∧ opened s r fwPage 0x104 = true ∧ fwState s = 2 ∧ fwPersists s = false) ∧
    (∃ (s : State) (r : Requester) (u : State), u = written s fwPage 0x104 4 ∧ opened s r fwPage 0x104 = true ∧ fwState s ≠ 2) ∧
    (∃ (s : State), fld s fwPage 0x108 6 4 = 2 ∧ bitAt s fwPage 0x100 0 = true ∧ s.therm.reported < 1050 ∧ fwState s = 2) ∧
    (∃ (s : State), (fld s fwPage 0x108 6 4 ≠ 2 ∨ bitAt s fwPage 0x100 0 = false ∨ 1050 ≤ s.therm.reported ∨ fwState s ≠ 2)) ∧
    (∃ (s : State) (r : Requester) (u : State), u = written s fwPage 0x104 8 ∧ opened s r fwPage 0x104 = true ∧ fwState s ≠ 3) ∧
    (∃ (s : State) (r : Requester) (u : State), u = written s fwPage 0x104 8 ∧ opened s r fwPage 0x104 = true ∧ fwState s = 3 ∧ (fwPorts s).all (fwReady s) = false) ∧
    (∃ (s : State) (r : Requester) (u : State), u = written s fwPage 0x104 8 ∧ opened s r fwPage 0x104 = true ∧ fwState s = 3 ∧ (fwPorts s).all (fwReady s) = true) :=
  ⟨⟨S0, .host, _, rfl, by decide +kernel⟩,
   ⟨slots S0 [200], .host, _, rfl, by decide +kernel⟩,
   ⟨fwS 2, .host, by decide +kernel⟩,
   ⟨slots S0 ((List.range 16).map (2 * ·)), by decide +kernel⟩,
   ⟨slots S0 [0,1,2,3,4,5,6,7,8], by decide +kernel⟩,
   ⟨perm (fwS 3), 3, by decide +kernel⟩,
   ⟨fwS 1, 3, by decide +kernel⟩,
   ⟨fwS 0, 3, by decide +kernel⟩,
   ⟨fwS 3, 1, by decide +kernel⟩,
   ⟨fwS 3, 4, by decide +kernel⟩,
   ⟨fwS 0, 2, by decide +kernel⟩,
   ⟨5, by decide +kernel⟩,
   ⟨perm (hot S0 1150), by decide +kernel⟩,
   ⟨hot S0 1149, by decide +kernel⟩,
   ⟨S0, 63, by decide +kernel⟩,
   ⟨fwA 2 [63] [], 63, List.replicate 60 0, by decide +kernel⟩,
   ⟨fwA 2 [63] [eK ||| fe (2^103)], 63, List.replicate 60 0, eK ||| fe (2^103), by decide +kernel⟩,
   ⟨{ fwA 2 [63, 62] [eK] with foot := { all := (2000, 0) } }, 63, List.replicate 60 0, eK, (fwTake { fwA 2 [63, 62] [eK] with foot := { all := (2000, 0) } } false (frameLen fF)).2, _, _, rfl, rfl, by decide +kernel⟩,
   ⟨{ fwA 2 [63, 62] [eK] with foot := { all := (1999, 0) } }, 63, List.replicate 60 0, eK, (fwTake { fwA 2 [63, 62] [eK] with foot := { all := (1999, 0) } } false (frameLen fF)).2, _, _, rfl, rfl, by decide +kernel⟩,
   ⟨{ S0 with foot := { low := mapSet (fun _ => []) [] 15 [{ fF with bytes := List.replicate 32701 0 }] } }, fF, 15, by decide +kernel⟩,
   ⟨{ S0 with foot := { low := mapSet (fun _ => []) [] 15 [{ fF with bytes := List.replicate 32700 0 }] } }, fF, 15, by decide +kernel⟩,
   ⟨{ S0 with foot := { urgent := (1999, 2499936) } }, by decide +kernel⟩,
   ⟨hot (fwS 2) 1100, .host, _, rfl, by decide +kernel⟩,
   ⟨fwS 2, .host, _, rfl, by decide +kernel⟩,
   ⟨fwS 1, .host, _, rfl, by decide +kernel⟩,
   ⟨setBit (setFld (fwS 2) fwPage 0x108 6 4 2) fwPage 0x100 0 true, by decide +kernel⟩,
   ⟨fwS 2, by decide +kernel⟩,
   ⟨fwS 2, .host, _, rfl, by decide +kernel⟩,
   ⟨setDom (fwA 3 [63] []) 46 { st := .off }, .host, _, rfl, by decide +kernel⟩,
   ⟨fwA 3 [63] [], .host, _, rfl, by decide +kernel⟩⟩

/-- States and operands that meet the hypotheses of each clause of SecurityCommandsAndBoot. -/
theorem witness_SecurityCommandsAndBoot :
    (∃ (s : State) (r : Requester) (w : Nat → State) (f : Nat → SecCmd → State), (∀ k, w k = written s secPage 0x100 (k + 2 ^ 31)) ∧ (∀ k c, f k c = { setBit { w k with boot := { s.boot with cmd := some c } } secPage 0x104 0 true with resp := .done }) ∧ opened s r secPage 0x100 = true ∧ s.boot.cmd = none) ∧
    (∃ (s : State) (r : Requester) (w : Nat → State) (f : Nat → SecCmd → State) (k : Bool), (∀ k, w k = written s secPage 0x100 (k + 2 ^ 31)) ∧ (∀ k c, f k c = { setBit { w k with boot := { s.boot with cmd := some c } } secPage 0x104 0 true with resp := .done }) ∧ opened s r secPage 0x100 = true ∧ s.boot.cmd = none) ∧
    (∃ (s : State) (r : Requester) (w : Nat → State) (f : Nat → SecCmd → State), (∀ k, w k = written s secPage 0x100 (k + 2 ^ 31)) ∧ (∀ k c, f k c = { setBit { w k with boot := { s.boot with cmd := some c } } secPage 0x104 0 true with resp := .done }) ∧ opened s r secPage 0x100 = true ∧ s.boot.cmd = none) ∧
    (∃ (s : State) (r : Requester) (f : Nat → State), (∀ k, f k = { setFld (wr (written s secPage 0x100 (k + 2 ^ 31)) secPage 0x100 (rd s secPage 0x100)) secPage 0x104 15 8 0x0C with resp := .done }) ∧ opened s r secPage 0x100 = true ∧ s.boot.cmd.isSome = true) ∧
    (∃ (s : State) (r : Requester) (f : Nat → State) (k : Bool), (∀ k, f k = { setFld (wr (written s secPage 0x100 (k + 2 ^ 31)) secPage 0x100 (rd s secPage 0x100)) secPage 0x104 15 8 0x0C with resp := .done }) ∧ opened s r secPage 0x100 = true ∧ s.boot.cmd.isSome = true) ∧
    (∃ (s : State) (r : Requester) (f : Nat → State), (∀ k, f k = { setFld (wr (written s secPage 0x100 (k + 2 ^ 31)) secPage 0x100 (rd s secPage 0x100)) secPage 0x104 15 8 0x0C with resp := .done }) ∧ opened s r secPage 0x100 = true ∧ s.boot.cmd.isSome = true) ∧
    (∃ (s : State), s.boot.cmd = none) ∧
    (∃ (s : State) (c : SecCmd) (x : Nat × State) (t : State), x = runSec { s with boot := { s.boot with cmd := none } } c ∧ t = raise (wr x.2 secPage 0x104 (BitVec.ofNat 32 (2 + x.1 * 256))) secPage 0 ∧ s.boot.cmd = some c) ∧
    (∃ (c : SecCmd), c.busError = true) ∧
    (∃ (c : SecCmd), c.busError = false ∧ 10 < c.code) ∧
    (∃ (s : State) (c : SecCmd), c.busError = false ∧ c.code = 1 ∧ s.boot.locked = true) ∧
    (∃ (s : State) (c : SecCmd), c.busError = false ∧ c.code = 1 ∧ s.boot.locked = false) ∧
    (∃ (s : State) (c : SecCmd), c.busError = false ∧ c.code = 2 ∧ 2 ^ 26 < (rd s secPage 0x110).toNat) ∧
    (∃ (s : State) (c : SecCmd) (t : State), t = toHost s (.hostRead (rd64 s secPage 0x108) (rd s secPage 0x110).toNat) ∧ c.busError = false ∧ c.code = 2 ∧ (rd s secPage 0x110).toNat ≤ 2 ^ 26 ∧ c.bundle = .error) ∧
    (∃ (s : State) (c : SecCmd) (b : Bundle) (t : State), t = toHost s (.hostRead (rd64 s secPage 0x108) (rd s secPage 0x110).toNat) ∧ c.busError = false ∧ c.code = 2 ∧ (rd s secPage 0x110).toNat ≤ 2 ^ 26 ∧ c.bundle = .ok b ∧ bundleCause t b ≠ 0) ∧
    (∃ (s : State) (c : SecCmd) (b : Bundle) (t : State), t = toHost s (.hostRead (rd64 s secPage 0x108) (rd s secPage 0x110).toNat) ∧ c.busError = false ∧ c.code = 2 ∧ (rd s secPage 0x110).toNat ≤ 2 ^ 26 ∧ c.bundle = .ok b ∧ bundleCause t b = 0 ∧ ((List.range 32).filter (fun k => !storeOk t k)).length < ((compsOf b 2).filter (fun c => (storedAs t c.digest.toNat).isNone)).length) ∧
    (∃ (s : State) (c : SecCmd) (b : Bundle) (t : State), t = toHost s (.hostRead (rd64 s secPage 0x108) (rd s secPage 0x110).toNat) ∧ c.busError = false ∧ c.code = 2 ∧ (rd s secPage 0x110).toNat ≤ 2 ^ 26 ∧ c.bundle = .ok b ∧ bundleCause t b = 0 ∧ ((compsOf b 2).filter (fun c => (storedAs t c.digest.toNat).isNone)).length ≤ ((List.range 32).filter (fun k => !storeOk t k)).length ∧ c.flashOk = false) ∧
    (∃ (s : State) (c : SecCmd) (b : Bundle) (t : State), t = toHost s (.hostRead (rd64 s secPage 0x108) (rd s secPage 0x110).toNat) ∧ c.busError = false ∧ c.code = 2 ∧ (rd s secPage 0x110).toNat ≤ 2 ^ 26 ∧ c.bundle = .ok b ∧ bundleCause t b = 0 ∧ ((compsOf b 2).filter (fun c => (storedAs t c.digest.toNat).isNone)).length ≤ ((List.range 32).filter (fun k => !storeOk t k)).length ∧ c.flashOk = true) ∧
    (∃ (s : State) (c : SecCmd), c.busError = false ∧ c.code = 3 ∧ (1 < (rd s secPage 0x108).toNat ∨ slotValid s (rd s secPage 0x108).toNat = false)) ∧
    (∃ (s : State) (c : SecCmd), c.busError = false ∧ c.code = 3 ∧ (rd s secPage 0x108).toNat ≤ 1 ∧ slotValid s (rd s secPage 0x108).toNat = true) ∧
    (∃ (s : State) (c : SecCmd) (d : Component), c.busError = false ∧ c.code = 5 ∧ (staged s).bind (compOf · 1) = some d) ∧
    (∃ (s : State) (c : SecCmd), c.busError = false ∧ c.code = 6 ∧ (((rd s secPage 0x108).toNat ≠ 3 ∧ (rd s secPage 0x108).toNat ≠ 4) ∨ 0xFFFF < (rd s secPage 0x10C).toNat)) ∧
    (∃ (s : State) (c : SecCmd) (d : Component), c.busError = false ∧ c.code = 6 ∧ (rd s secPage 0x10C).toNat ≤ 0xFFFF ∧ rd s secPage 0x10C ≠ 0 ∧ (staged s).bind (compOf · (rd s secPage 0x108).toNat) = some d ∧ rd s secPage 0x108 = 4) ∧
    (∃ (s : State) (c : SecCmd) (d : Component), c.busError = false ∧ c.code = 6 ∧ (rd s secPage 0x10C).toNat ≤ 0xFFFF ∧ rd s secPage 0x10C ≠ 0 ∧ (staged s).bind (compOf · (rd s secPage 0x108).toNat) = some d ∧ rd s secPage 0x108 = 3) ∧
    (∃ (s : State) (c : SecCmd), c.busError = false ∧ c.code = 7 ∧ 10 < (rd s secPage 0x108).toNat) ∧
    (∃ (s : State) (c : SecCmd), c.busError = false ∧ c.code = 7 ∧ rd s secPage 0x108 = 0) ∧
    (∃ (s : State) (c : SecCmd), c.busError = false ∧ c.code = 8 ∧ rd s secPage 0x108 = 0x4F574E52 ∧ ownerSet s = true) ∧
    (∃ (s : State) (c : SecCmd), c.busError = false ∧ c.code = 8 ∧ rd s secPage 0x108 ≠ 0x4F574E52) ∧
    (∃ (s : State) (c : SecCmd), c.busError = false ∧ c.code = 8 ∧ rd s secPage 0x108 = 0x4F574E52 ∧ ownerSet s = false) ∧
    (∃ (c : SecCmd), c.busError = false ∧ c.code = 9) ∧
    (∃ (s : State) (c : SecCmd), c.busError = false ∧ c.code = 9 ∧ (runSec s c).1 ≠ 0) ∧
    (∃ (c : SecCmd), c.busError = false ∧ c.code = 10) ∧
    (∃ (c : SecCmd), c.busError = false ∧ c.code = 4) ∧
    (∃ (s : State) (b : Bundle), sigOk s b = false) ∧
    (∃ (s : State) (b : Bundle), sigOk s b = true ∧ (∃ c ∈ b.components, c.digestOk = false)) ∧
    (∃ (s : State) (b : Bundle), sigOk s b = true ∧ (∀ c ∈ b.components, c.digestOk = true) ∧ bundleShape b = true ∧ (∃ c ∈ b.components, c.svn.toNat < counterOf s c.counter.toNat)) ∧
    (∃ (s : State) (r : Requester), opened s r bootPage 0x11C = true) ∧
    (∃ (s : State) (t : State), t = toHost s (.hostRead (rd64 s bootPage 0x110) (rd s bootPage 0x118).toNat) ∧ s.boot.stage = 0 ∧ s.pins.bootSrc ≠ 0) ∧
    (∃ (s : State), (s.boot.stage ≠ 0 ∨ s.pins.bootSrc = 0)) ∧
    (∃ (s : State), (s.mode ≠ .run ∨ domOn s 172 = false ∨ 2 < s.boot.stage ∨ (s.boot.stage ≠ 0 ∧ s.boot.running = none))) ∧
    (∃ (s : State), s.mode = .run ∧ domOn s 172 = true ∧ s.boot.stage = 0) ∧
    (∃ (s : State) (b : Bundle), s.mode = .run ∧ domOn s 172 = true ∧ s.boot.stage = 1 ∧ s.boot.running = some b) ∧
    (∃ (s : State) (b : Bundle), s.mode = .run ∧ domOn s 172 = true ∧ s.boot.stage = 2 ∧ s.boot.running = some b) ∧
    (∃ (s : State), slotValid s (fld s bootPage 0x104 0 0) = false ∧ slotValid s (1 - fld s bootPage 0x104 0 0) = false) ∧
    (∃ (s : State), slotValid s (fld s bootPage 0x104 0 0) = true ∧ slotValid s (1 - fld s bootPage 0x104 0 0) = false) ∧
    (∃ (s : State), slotValid s (fld s bootPage 0x104 0 0) = false ∧ slotValid s (1 - fld s bootPage 0x104 0 0) = true ∧ s.boot.aonLost = false) ∧
    (∃ (s : State), slotValid s (fld s bootPage 0x104 0 0) = true ∧ slotValid s (1 - fld s bootPage 0x104 0 0) = true ∧ s.boot.aonLost = false) ∧
    (∃ (s : State), slotValid s (fld s bootPage 0x104 0 0) = false ∧ slotValid s (1 - fld s bootPage 0x104 0 0) = true ∧ s.boot.aonLost = true) ∧
    (∃ (s : State) (a : Bundle) (b : Bundle), slotOf s (fld s bootPage 0x104 0 0) = some a ∧ slotOf s (1 - fld s bootPage 0x104 0 0) = some b ∧ slotValid s (fld s bootPage 0x104 0 0) = true ∧ slotValid s (1 - fld s bootPage 0x104 0 0) = true ∧ s.boot.aonLost = true) ∧
    (∃ (s : State), s.boot.dram ≠ 1) ∧
    (∃ (s : State), s.boot.dram ≠ 2) ∧
    (∃ (s : State), s.boot.dram = 1) ∧
    (∃ (s : State), s.boot.dram = 2) ∧
    (∃ (s : State) (b : BitVec 6), runsSpan s b.toNat = false) ∧
    (∃ (s : State) (b : BitVec 6), runsSpan s b.toNat = true ∧ (∀ k ∈ s.boot.cmd, k.code ≠ 5)) ∧
    (∃ (s : State) (b : BitVec 6), runsSpan s b.toNat = true ∧ (∀ k ∈ s.boot.cmd, k.code ≠ 5) ∧ s.boot.locked = true) ∧
    (∃ (s : State) (b : BitVec 6) (r : BitVec 4), runsSpan s b.toNat = true ∧ (∀ k ∈ s.boot.cmd, k.code ≠ 5) ∧ s.boot.locked = false ∧ (∀ l < 8, linkRegion l = r.toNat → bitAt s (spnLinkPage l) 0x100 0 = false)) ∧
    (∃ (s : State) (b : BitVec 6) (r : BitVec 4) (l : Nat), runsSpan s b.toNat = true ∧ (∀ k ∈ s.boot.cmd, k.code ≠ 5) ∧ s.boot.locked = false ∧ l < 8 ∧ linkRegion l = r.toNat ∧ bitAt s (spnLinkPage l) 0x100 0 = true) ∧
    (∃ (s : State) (b : BitVec 6) (k : SecCmd), runsSpan s b.toNat = true ∧ s.boot.cmd = some k ∧ k.code = 5 ∧ 64 ≤ s.boot.asked.length) ∧
    (∃ (s : State) (b : BitVec 6) (k : SecCmd), runsSpan s b.toNat = true ∧ s.boot.cmd = some k ∧ k.code = 5 ∧ s.boot.asked.length < 64) :=
  ⟨⟨S0, .host, fun k => written S0 secPage 0x100 (k + 2 ^ 31), fun k c => { setBit { written S0 secPage 0x100 (k + 2 ^ 31) with boot := { S0.boot with cmd := some c } } secPage 0x104 0 true with resp := .done }, fun _ => rfl, fun _ _ => rfl, by decide +kernel⟩,
   ⟨S0, .host, fun k => written S0 secPage 0x100 (k + 2 ^ 31), fun k c => { setBit { written S0 secPage 0x100 (k + 2 ^ 31) with boot := { S0.boot with cmd := some c } } secPage 0x104 0 true with resp := .done }, true, fun _ => rfl, fun _ _ => rfl, by decide +kernel⟩,
   ⟨S0, .host, fun k => written S0 secPage 0x100 (k + 2 ^ 31), fun k c => { setBit { written S0 secPage 0x100 (k + 2 ^ 31) with boot := { S0.boot with cmd := some c } } secPage 0x104 0 true with resp := .done }, fun _ => rfl, fun _ _ => rfl, by decide +kernel⟩,
   ⟨busy, .host, fun k => { setFld (wr (written busy secPage 0x100 (k + 2 ^ 31)) secPage 0x100 (rd busy secPage 0x100)) secPage 0x104 15 8 0x0C with resp := .done }, fun _ => rfl, by decide +kernel⟩,
   ⟨busy, .host, fun k => { setFld (wr (written busy secPage 0x100 (k + 2 ^ 31)) secPage 0x100 (rd busy secPage 0x100)) secPage 0x104 15 8 0x0C with resp := .done }, true, fun _ => rfl, by decide +kernel⟩,
   ⟨busy, .host, fun k => { setFld (wr (written busy secPage 0x100 (k + 2 ^ 31)) secPage 0x100 (rd busy secPage 0x100)) secPage 0x104 15 8 0x0C with resp := .done }, fun _ => rfl, by decide +kernel⟩,
   ⟨S0, by decide +kernel⟩,
   ⟨cmdS { code := 4 }, { code := 4 }, _, _, rfl, rfl, by decide +kernel⟩,
   ⟨{ code := 4, busError := true }, by decide +kernel⟩,
   ⟨{ code := 11 }, by decide +kernel⟩,
   ⟨{ S0 with boot := { S0.boot with locked := true } }, { code := 1 }, by decide +kernel⟩,
   ⟨S0, { code := 1 }, by decide +kernel⟩,
   ⟨wreg S0 secPage 0x110 (2^26 + 1), { code := 2 }, by decide +kernel⟩,
   ⟨S0, { code := 2 }, _, rfl, by decide +kernel⟩,
   ⟨S0, { code := 2, bundle := .ok { bun with sigAskineOk := false } }, { bun with sigAskineOk := false }, _, rfl, by decide +kernel⟩,
   ⟨fullStore, { code := 2, bundle := .ok bun2 }, bun2, _, rfl, by decide +kernel⟩,
   ⟨wreg S0 secPage 0x110 (2^26), { code := 2, bundle := .ok bun2, flashOk := false }, bun2, _, rfl, by decide +kernel⟩,
   ⟨S0, { code := 2, bundle := .ok bun2 }, bun2, _, rfl, by decide +kernel⟩,
   ⟨wreg S0 secPage 0x108 2, { code := 3 }, by decide +kernel⟩,
   ⟨stg (wreg S0 secPage 0x108 1), { code := 3 }, by decide +kernel⟩,
   ⟨stg S0, { code := 5 }, cmp 1 0, by decide +kernel⟩,
   ⟨stg (wreg S0 secPage 0x108 5), { code := 6 }, by decide +kernel⟩,
   ⟨wreg (stg (wreg S0 secPage 0x108 4)) secPage 0x10C 0xFFFF, { code := 6 }, cmp 4 0, by decide +kernel⟩,
   ⟨wreg (stg (wreg S0 secPage 0x108 3)) secPage 0x10C 0x1001, { code := 6 }, cmp 3 0, by decide +kernel⟩,
   ⟨wreg S0 secPage 0x108 11, { code := 7 }, by decide +kernel⟩,
   ⟨S0, { code := 7 }, by decide +kernel⟩,
   ⟨setBit (wreg S0 secPage 0x108 0x4F574E52) fusePage 0x108 0 true, { code := 8 }, by decide +kernel⟩,
   ⟨S0, { code := 8 }, by decide +kernel⟩,
   ⟨wreg S0 secPage 0x108 0x4F574E52, { code := 8 }, by decide +kernel⟩,
   ⟨{ code := 9 }, by decide +kernel⟩,
   ⟨S0, { code := 9 }, by decide +kernel⟩,
   ⟨{ code := 10 }, by decide +kernel⟩,
   ⟨{ code := 4 }, by decide +kernel⟩,
   ⟨S0, { bun with signerSlot := none }, by decide +kernel⟩,
   ⟨S0, { bun with components := [{ cmp 1 0 with digestOk := false }] }, by decide +kernel⟩,
   ⟨setFld S0 fusePage 0x180 6 0 1, bun, by decide +kernel⟩,
   ⟨S0, .host, by decide +kernel⟩,
   ⟨{ S0 with pins := { bootSrc := 2 } }, _, rfl, by decide +kernel⟩,
   ⟨{ S0 with pins := { bootSrc := 0 } }, by decide +kernel⟩,
   ⟨{ S0 with boot := { S0.boot with stage := 1 } }, by decide +kernel⟩,
   ⟨S0, by decide +kernel⟩,
   ⟨{ S0 with boot := { S0.boot with stage := 1, running := some bun } }, bun, by decide +kernel⟩,
   ⟨{ S0 with boot := { S0.boot with stage := 2, running := some bun } }, bun, by decide +kernel⟩,
   ⟨S0, by decide +kernel⟩,
   ⟨{ S0 with boot := { S0.boot with slotA := some bun } }, by decide +kernel⟩,
   ⟨stg S0, by decide +kernel⟩,
   ⟨{ S0 with boot := { S0.boot with aonLost := false, slotA := some bun, slotB := some bun } }, by decide +kernel⟩,
   ⟨{ S0 with boot := { S0.boot with slotB := some bun } }, by decide +kernel⟩,
   ⟨{ S0 with boot := { S0.boot with slotA := some bun, slotB := some { bun with generation := 2 } } }, bun, { bun with generation := 2 }, by decide +kernel⟩,
   ⟨S0, by decide +kernel⟩,
   ⟨S0, by decide +kernel⟩,
   ⟨{ S0 with boot := { S0.boot with dram := 1 } }, by decide +kernel⟩,
   ⟨{ S0 with boot := { S0.boot with dram := 2 } }, by decide +kernel⟩,
   ⟨S0, 63, by decide +kernel⟩,
   ⟨spanB, 63, by decide +kernel⟩,
   ⟨{ spanB with boot := { spanB.boot with locked := true } }, 63, by decide +kernel⟩,
   ⟨spanB, 63, 3, by decide +kernel⟩,
   ⟨wreg spanB (spnLinkPage 7) 0x100 1, 63, 3, 7, by decide +kernel⟩,
   ⟨spxS 64, 63, { code := 5 }, by decide +kernel⟩,
   ⟨spxS 63, 63, { code := 5 }, by decide +kernel⟩⟩

/-- States and operands that meet the hypotheses of each clause of ResetPinSuppliesAndTemperature. -/
theorem witness_ResetPinSuppliesAndTemperature :
    (∃ (s : State) (u : State), u = { s with pins := { s.pins with resetN := true } } ∧ s.pins.resetN = false ∧ s.mode = .run) ∧
    (∃ (s : State) (u : State), u = { s with pins := { s.pins with resetN := true } } ∧ s.pins.resetN = false ∧ s.mode ≠ .run) ∧
    (∃ (s : State), s.pins.resetN = true) ∧
    (∃ (s : State) (u : State), u = { s with pins := { s.pins with resetN := false } } ∧ s.pins.resetN = true ∧ s.mode = .run) ∧
    (∃ (s : State), s.pins.resetN = false) ∧
    (∃ (s : State) (u : State), u = { s with pins := { s.pins with resetN := false } } ∧ s.pins.resetN = true ∧ s.mode ≠ .run) ∧
    (∃ (s : State) (k : Bool), k = (s.mode == .custodyHold || (s.mode == .inReset && s.boot.kept)) ∧ (aonWarm s = false ∨ (fld s pwrPage 0x10C 2 0 = 4 ∧ aonCool s = false))) ∧
    (∃ (s : State) (k : Bool), k = (s.mode == .custodyHold || (s.mode == .inReset && s.boot.kept)) ∧ aonWarm s = true ∧ (fld s pwrPage 0x10C 2 0 ≠ 4 ∨ aonCool s = true)) ∧
    (∃ (k : Bool), k = false) ∧
    (∃ (s : State) (a : BitVec 8) (b : BitVec 8) (u : State), u = { s with therm := { s.therm with aonDeck := signedOf 8 a.toNat, aonAbut := signedOf 8 b.toNat } } ∧ s.mode = .run ∧ domOn s 173 = false) ∧
    (∃ (s : State), s.mode = .run ∧ domOn s 173 = true ∧ s.therm.forced = none ∧ s.therm.reported < 1200 ∧ fwState s = 0) ∧
    (∃ (s : State) (l : List (BitVec 16 × Bool)), s.mode = .run ∧ domOn s 173 = true ∧ s.therm.forced = none ∧ (hottest (l.take 30)).1 < 1200) ∧
    (∃ (s : State), s.mode ≠ .run ∧ (s.pins.resetN = false ∨ s.mode = .custodyHold)) ∧
    (∃ (s : State) (t : Int), 1200 ≤ t ∧ s.mode = .run) ∧
    (∃ (s : State), throttled s = false ∧ 1100 ≤ s.therm.reported ∧ domOn s 173 = true) ∧
    (∃ (s : State), (throttled s = true ∨ s.therm.reported < 1100 ∨ domOn s 173 = false)) ∧
    (∃ (s : State), throttled s = false) ∧
    (∃ (s : State), throttled s = true ∧ s.therm.reported < 1050) ∧
    (∃ (s : State), throttled s = true ∧ 1050 ≤ s.therm.reported) :=
  ⟨⟨{ S0 with pins := { S0.pins with resetN := false } }, _, rfl, by decide +kernel⟩,
   ⟨{ S0 with pins := { S0.pins with resetN := false }, mode := .inReset }, _, rfl, by decide +kernel⟩,
   ⟨S0, by decide +kernel⟩,
   ⟨S0, _, rfl, by decide +kernel⟩,
   ⟨{ S0 with pins := { S0.pins with resetN := false } }, by decide +kernel⟩,
   ⟨{ S0 with mode := .custodyHold }, _, rfl, by decide +kernel⟩,
   ⟨{ S0 with therm := { S0.therm with aonDeck := -46 }, mode := .custodyHold }, _, rfl, by decide +kernel⟩,
   ⟨{ S0 with mode := .custodyHold }, _, rfl, by decide +kernel⟩,
   ⟨false, by decide +kernel⟩,
   ⟨setDom S0 173 { st := .off }, 0x80, 0xFF, _, rfl, by decide +kernel⟩,
   ⟨S0, by decide +kernel⟩,
   ⟨S0, [(100, true), (1199, true), (0x8000, true)] ++ List.replicate 27 (300, true), by decide +kernel⟩,
   ⟨{ S0 with mode := .custodyHold }, by decide +kernel⟩,
   ⟨S0, 1200, by decide +kernel⟩,
   ⟨hot S0 1100, by decide +kernel⟩,
   ⟨hot S0 1099, by decide +kernel⟩,
   ⟨S0, by decide +kernel⟩,
   ⟨setBit (hot S0 1049) thermPage 0x10C 0 true, by decide +kernel⟩,
   ⟨setBit (hot S0 1050) thermPage 0x10C 0 true, by decide +kernel⟩⟩

end Faults

end Sys2Proof.Tests
end

section
/-! PROOFS. The tests at the MAC (R82, R575): what a frame that is received whole, begins or ends comes to, by the verdict of the tests. -/

namespace Sys2Proof.Machine

/-! ### What the counts of a received frame leave unchanged -/

/-- Steps that each leave the registers leave them together. -/
theorem forEach_regs {α : Type} {f : State → α → State} (h : ∀ s a, (f s a).regs = s.regs) (s : State) (l : List α) :
    (forEach s l f).regs = s.regs := by
  induction l generalizing s with
  | nil => rfl
  | cons a l ih => exact (ih (f s a)).trans (h s a)
@[simp] theorem creditQueue_regs (s : State) (port c : Nat) : (creditQueue s port c).regs = s.regs := by
  unfold creditQueue
  split
  · rfl
  · simp
@[simp] theorem creditTick_regs (s : State) (port : Nat) : (creditTick s port).regs = s.regs :=
  forEach_regs (fun s c => creditQueue_regs s port c) s _
@[simp] theorem portCount_regs (s : State) (port k n : Nat) : (portCount s port k n).regs = s.regs := by simp [portCount]
@[simp] theorem countRx_regs (s : State) (port : Nat) (bs : List Byte) (len : Nat) : (countRx s port bs len).regs = s.regs := by
  unfold countRx
  dsimp only
  split
  · simp
  · split <;> simp

/-- A frame noted as oversize fires a source of its port's page: the registers above the capture words stay. -/
theorem rd_noteLong (s : State) (port : Nat) (bs : List Byte) (len w : Nat) (hw : 0x044 < w) :
    rd (noteLong s port bs len) (portPage port) w = rd s (portPage port) w := by
  unfold noteLong
  split
  · exact (rd_congr (portCount_regs _ port 7 1) _ _).trans (rd_raise _ _ _ _ _ _ _ _ (Or.inr (by omega)))
  · rfl
theorem noteLong_of_fits {s : State} {port : Nat} {bs : List Byte} {len : Nat} (h : oversize s port bs len = false) :
    noteLong s port bs len = s := by
  simp [noteLong, h]

theorem portPage_line {port : Nat} (h : port < 64) : portPage port = macPage port := if_pos h
theorem linkState_congr {s t : State} {port : Nat} (h : rd t (portPage port) 0x114 = rd s (portPage port) 0x114) :
    linkState t port = linkState s port := by
  unfold linkState fld; rw [h]
theorem isSpanFrame_of_not_isSpanPort {s : State} {port : Nat} (bs : List Byte) (h : isSpanPort s port = false) :
    isSpanFrame s port bs = false := by
  simp [isSpanFrame, h]

/-! ### The verdict of the tests (R575), the first that fails -/

section
variable (s : State) (port : Nat) {len : Nat} {fcsOk symErr : Bool}

theorem macVerdict_runt (h : len < 64) : macVerdict s port len fcsOk symErr = 0x02 := if_pos h
theorem macVerdict_symErr (h : 64 ≤ len) : macVerdict s port len fcsOk true = 0x04 := by
  simp [macVerdict, h]
theorem macVerdict_badFcs (h : 64 ≤ len) : macVerdict s port len false false = 0x01 := by
  simp [macVerdict, h]
theorem macVerdict_notUp (h : 64 ≤ len) (hl : linkState s port ≠ 2) : macVerdict s port len true false = 0x05 := by
  simp [macVerdict, h, hl]
theorem macVerdict_pass (h : 64 ≤ len) (hl : linkState s port = 2) : macVerdict s port len true false = 0 := by
  simp [macVerdict, h, hl]

end

/-! ### A frame received whole -/

/-- What the MAC counts of a frame received whole, whatever its tests say (R79, R81, R472). -/
def macCounts (s : State) (port : Nat) (bs : List Byte) (fcsOk symErr : Bool) : State :=
  let s0 := if 64 ≤ bs.length + 4 ∧ fcsOk ∧ !symErr then countRx s port bs (bs.length + 4) else s
  noteLong (if symErr then countFec s0 port 1 0 1 else s0) port bs (bs.length + 4)

/-- Without a symbol error the counts leave the configuration and the link state of the port's page. -/
theorem rd_macCounts (s : State) (port : Nat) (bs : List Byte) (fcsOk : Bool) (w : Nat) (hw : 0x044 < w) :
    rd (macCounts s port bs fcsOk false) (portPage port) w = rd s (portPage port) w := by
  unfold macCounts
  dsimp only
  rw [rd_noteLong _ _ _ _ _ hw, if_neg Bool.false_ne_true]
  split
  · exact rd_congr (countRx_regs s port bs _) _ _
  · rfl

/-- What becomes of a frame that has passed the tests, in the state `u` with its counts: flow control, MACsec, the span or the pipeline. -/
def afterTests (rx : SpanRx) (u : State) (port ts : Nat) (bs : List Byte) (icvOk : Bool) : State :=
  if isMacControl bs then macControl u port (controlOf bs)
  else if msecOn u port then
    if oversize u port bs (bs.length + 4) ∧ (tagSize u port bs).isSome then passOn u port ts bs false true true
    else
      let r := msecReceive u port bs icvOk
      match r.bytes with
      | none => macDrop u port r.reason
      | some b =>
        let t := msecPassed u port r
        if isSpanFrame t port b then rx t port ts b else passOn t port ts b r.held false true
  else if isSpanFrame u port bs then rx u port ts bs
  else passOn u port ts bs false false true

/-- The port's page takes work: powered, not in reset, not isolated. -/
def PortTakes (s : State) (port : Nat) : Prop :=
  pageOn s (portPage port) = true ∧ inReset s (portPage port) = false ∧ isolated s (portPage port) = false

/-- R575 at a port that takes work: the frame is counted, then dropped under the verdict of the tests, or goes on. -/
theorem receiveWhole_of_takes (rx : SpanRx) {s : State} {port : Nat} (ht : PortTakes s port) (ts : Nat) (bs : List Byte) (fcsOk symErr icvOk : Bool) :
    receiveWhole rx s port ts bs fcsOk symErr icvOk =
      if macVerdict s port (bs.length + 4) fcsOk symErr ≠ 0 then
        macDrop (macCounts s port bs fcsOk symErr) port (macReason port (macVerdict s port (bs.length + 4) fcsOk symErr))
      else afterTests rx (macCounts s port bs fcsOk symErr) port ts bs icvOk := by
  obtain ⟨hon, hres, hiso⟩ := ht
  unfold receiveWhole
  rw [if_neg (by simp [hon, hres]), if_neg (by simp [hiso])]
  rfl

section
variable (rx : SpanRx) {u : State} {port : Nat} (ts : Nat) {bs : List Byte} {icvOk : Bool}

theorem afterTests_control (hc : isMacControl bs = true) : afterTests rx u port ts bs icvOk = macControl u port (controlOf bs) := if_pos hc

/-- Without MACsec the frame goes on as it is. -/
theorem afterTests_plain (hc : isMacControl bs = false) (hm : msecOn u port = false) (hs : isSpanPort u port = false) :
    afterTests rx u port ts bs icvOk = passOn u port ts bs false false true := by
  simp [afterTests, hc, hm, isSpanFrame_of_not_isSpanPort bs hs]

/-- A frame that MACsec rejects is dropped under MACsec's reason. -/
theorem afterTests_msec_drop (hc : isMacControl bs = false) (hm : msecOn u port = true)
    (hl : oversize u port bs (bs.length + 4) = false ∨ tagSize u port bs = none) (hb : (msecReceive u port bs icvOk).bytes = none) :
    afterTests rx u port ts bs icvOk = macDrop u port (msecReceive u port bs icvOk).reason := by
  rcases hl with h | h <;> simp [afterTests, hc, hm, h, hb]

/-- A frame that MACsec accepts goes on with the bytes MACsec leaves. -/
theorem afterTests_msec_pass (hc : isMacControl bs = false) (hm : msecOn u port = true)
    (hl : oversize u port bs (bs.length + 4) = false ∨ tagSize u port bs = none) {b : List Byte}
    (hb : (msecReceive u port bs icvOk).bytes = some b) (hs : isSpanPort (msecPassed u port (msecReceive u port bs icvOk)) port = false) :
    afterTests rx u port ts bs icvOk =
      passOn (msecPassed u port (msecReceive u port bs icvOk)) port ts b (msecReceive u port bs icvOk).held false true := by
  rcases hl with h | h <;> simp [afterTests, hc, hm, h, hb, isSpanFrame_of_not_isSpanPort b hs]

end

/-- A control frame that the port does not honour is dropped under its reason (R84, R112), its credits brought up to now first. -/
theorem macControl_drop {s : State} {port : Nat} {mc : MacControl} (hup : linkState s port = 2)
    (h : 64 ≤ port ∨ bitAt s (macPage port) 0x108 2 = false ∨
      (∀ q, mc = .pause q → fcMode s port ≠ 1) ∧ (∀ v q, mc = .pfc v q → fcMode s port ≠ 2)) :
    macControl s port mc = macDrop (creditTick (portCount s port 6 1) port) port (macReason port 0x06) := by
  have hr : (creditTick (portCount s port 6 1) port).regs = s.regs := by simp
  have hup' := (linkState_congr (rd_congr hr (portPage port) 0x114)).trans hup
  have hen : bitAt (creditTick (portCount s port 6 1) port) (macPage port) 0x108 2 = bitAt s (macPage port) 0x108 2 := by
    unfold bitAt; rw [rd_congr hr]
  have hfc : fcMode (creditTick (portCount s port 6 1) port) port = fcMode s port := by
    unfold fcMode fld; rw [rd_congr hr]
  rw [← hen, ← hfc] at h
  unfold macControl
  dsimp only
  rw [if_neg (fun hdown => hdown hup')]
  split
  · rfl
  · next hline =>
    have h := h.resolve_left hline
    cases mc with
    | pause q => exact if_neg fun ⟨hmode, hon⟩ => h.elim (fun hoff => by simp [hoff] at hon) (fun h => h.1 q rfl hmode)
    | pfc v q => exact if_neg fun ⟨hmode, hon⟩ => h.elim (fun hoff => by simp [hoff] at hon) (fun h => h.2 v q rfl hmode)
    | other => rfl

/-- The counts of a control frame do not decide whether it is honoured: the port's state before them does. -/
theorem macControl_macCounts_drop {s : State} {port : Nat} (bs : List Byte) (fcsOk : Bool) {mc : MacControl} (hup : linkState s port = 2)
    (h : 64 ≤ port ∨ bitAt s (macPage port) 0x108 2 = false ∨
      (∀ q, mc = .pause q → fcMode s port ≠ 1) ∧ (∀ v q, mc = .pfc v q → fcMode s port ≠ 2)) :
    macControl (macCounts s port bs fcsOk false) port mc =
      macDrop (creditTick (portCount (macCounts s port bs fcsOk false) port 6 1) port) port (macReason port 0x06) := by
  have hup' := (linkState_congr (rd_macCounts s port bs fcsOk 0x114 (by decide))).trans hup
  refine macControl_drop hup' ?_
  rcases Nat.lt_or_ge port 64 with hline | hfield
  · have hcfg := rd_macCounts s port bs fcsOk 0x108 (by decide)
    rw [portPage_line hline] at hcfg
    simpa only [bitAt, fcMode, fld, hcfg] using h
  · exact Or.inl hfield

/-! ### A frame that begins, and its end -/

/-- A frame of a line port without MACsec goes on when it begins (R240), and is remembered until its end. -/
theorem receiveBegin_plain {s : State} {port : Nat} {bs : List Byte} (hp : port < 64) (hfw : fwActive s port = false)
    (hserve : serving s (macPage port) = true) (hup : linkState s port = 2) (hc : isMacControl bs = false)
    (hm : msecOn s port = false) (hs : isSpanPort s port = false) {u : State}
    (hu : u = passOn (noteLong s port bs (bs.length + 4)) port (rxStamp s port) bs false false false) :
    receiveBegin s port bs = { u with
      rxOpen := mapSet (fun _ => none) u.rxOpen port (some { frame := { id := s.nextId, bytes := bs, ingress := port, ts := rxStamp s port }, buf := 0 }) } := by
  have hearly : msecEarly s port bs = some bs := by simp [msecEarly, hm]
  subst hu
  simp [receiveBegin, hfw, hserve, hup, hc, hearly, isSpanFrame_of_not_isSpanPort bs hs, Nat.not_le.mpr hp]

/-- What waited for its end is judged whole, under the stamp of its start. -/
theorem receiveEnd_waited (rx : SpanRx) {s : State} {port : Nat} {pf : PFrame} (len : Nat) (fcsOk symErr icvOk : Bool)
    (hopen : mapGet (fun _ => none) s.rxOpen port = some pf) (hid : pf.frame.id = 0) :
    receiveEnd rx s port len fcsOk symErr icvOk =
      receiveWhole rx { s with rxOpen := mapSet (fun _ => none) s.rxOpen port none } port pf.frame.ts pf.frame.bytes fcsOk symErr icvOk := by
  simp [receiveEnd, hopen, hid]

/-- The end of a frame within max_frame that went on when it began: the tests give the verdict, and the copies learn it. -/
theorem receiveEnd_fits (rx : SpanRx) {s u u0 : State} {port : Nat} {pf : PFrame} {len v : Nat} {fcsOk : Bool} (icvOk : Bool)
    (hopen : mapGet (fun _ => none) s.rxOpen port = some pf) (hid : pf.frame.id ≠ 0)
    (hu : u = { s with rxOpen := mapSet (fun _ => none) s.rxOpen port none })
    (hfits : oversize u port pf.frame.bytes len = false) (hv : v = macVerdict u port len fcsOk false)
    (hu0 : u0 = if 64 ≤ len ∧ fcsOk then countRx u port pf.frame.bytes len else u)
    (hfits0 : oversize u0 port pf.frame.bytes len = false) (hm : v ≠ 0 ∨ msecOn u0 port = false) :
    receiveEnd rx s port len fcsOk false icvOk =
      endMirror (endCopies (if v = 0 then u0 else macDrop u0 port v) pf.frame.id (ended (v != 0))) pf.frame.id (ended (v != 0)) := by
  have hcount : (if 64 ≤ len ∧ fcsOk = true ∧ (!false) = true then countRx u port pf.frame.bytes len else u) = u0 := by
    simp [hu0]
  have hnote : (if oversize u0 port pf.frame.bytes (pf.frame.bytes.length + 4) = true then u0
      else noteLong u0 port pf.frame.bytes len) = u0 := by
    rw [noteLong_of_fits hfits0, ite_self]
  have hjudge : (if v ≠ 0 then macDrop u0 port v
      else if msecOn u0 port = true ∧ (!false) = true then msecPassed u0 port (msecReceive u0 port pf.frame.bytes icvOk) else u0) =
      if v = 0 then u0 else macDrop u0 port v := by
    by_cases h0 : v = 0
    · simp [h0, hm.resolve_left (fun hv0 => hv0 h0)]
    · simp [h0]
  simp only [receiveEnd, hopen, if_neg hid]
  rw [← hu, ← hv, hcount, if_neg Bool.false_ne_true, hnote, hfits, hjudge]
  rfl

/-! ### FRAME_RECEIVE -/

theorem exec_frameReceive (port : Port) (rx : RxEvent) (s : State) :
    exec (.frameReceive port rx) s = .next (closed s (frameIn s port.toNat rx)) := rfl
theorem rxRefused_of_not_draining {s : State} {port : Nat} (bs : List Byte) (h : draining s (portPage port) = false) :
    rxRefused s port bs = false := by
  simp [rxRefused, h]
theorem frameIn_whole {s : State} {port : Nat} (hp : port ≤ 105) (hd : draining s (portPage port) = false) (bs : List Byte) (fcsOk symErr icvOk : Bool) :
    frameIn s port (.whole bs fcsOk symErr icvOk) = receiveWhole spanRx s port (rxStamp s port) bs fcsOk symErr icvOk := by
  simp [frameIn, Nat.not_lt.mpr hp, rxRefused_of_not_draining bs hd]
theorem frameIn_begins {s : State} {port : Nat} (hp : port ≤ 105) (hd : draining s (portPage port) = false) (bs : List Byte) :
    frameIn s port (.begins bs) = receiveBegin s port bs := by
  simp [frameIn, Nat.not_lt.mpr hp, rxRefused_of_not_draining bs hd]
theorem frameIn_ends (s : State) {port : Nat} (hp : port ≤ 105) (len : Nat) (fcsOk symErr icvOk : Bool) :
    frameIn s port (.ends len fcsOk symErr icvOk) = receiveEnd spanRx s port len fcsOk symErr icvOk := by
  simp [frameIn, Nat.not_lt.mpr hp]

end Sys2Proof.Machine

namespace Sys2Proof
open Sys2Proof.Machine

section
variable {s : State} {port : Port} {bs : List Byte} {fcsOk symErr icvOk : Bool}

/-- A frame received whole whose tests have a verdict is dropped under it. -/
theorem exec_whole_drop {v : Nat} (hp : port.toNat ≤ 105) (hd : draining s (portPage port.toNat) = false) (ht : PortTakes s port.toNat)
    (hv : macVerdict s port.toNat (bs.length + 4) fcsOk symErr = v) (h0 : v ≠ 0) :
    exec (.frameReceive port (.whole bs fcsOk symErr icvOk)) s =
      .next (closed s (macDrop (macCounts s port.toNat bs fcsOk symErr) port.toNat (macReason port.toNat v))) := by
  rw [exec_frameReceive, frameIn_whole hp hd, receiveWhole_of_takes spanRx ht, hv, if_pos h0]

/-- A frame received whole that passes every test goes on. -/
theorem exec_whole_pass (hp : port.toNat ≤ 105) (hd : draining s (portPage port.toNat) = false) (ht : PortTakes s port.toNat)
    (hlen : 64 ≤ bs.length + 4) (hup : linkState s port.toNat = 2) :
    exec (.frameReceive port (.whole bs true false icvOk)) s =
      .next (closed s (afterTests spanRx (macCounts s port.toNat bs true false) port.toNat (rxStamp s port.toNat) bs icvOk)) := by
  rw [exec_frameReceive, frameIn_whole hp hd, receiveWhole_of_takes spanRx ht, macVerdict_pass s _ hlen hup, if_neg (fun h => h rfl)]

end

/-- Settles O24: the verdict of the tests decides what a frame received whole comes to, and what the end of a frame that went on
before it comes to; a frame that waited for its end is received whole. -/
theorem macTestsInOrder : Obligations.MacTestsInOrder := by
  unfold Obligations.MacTestsInOrder
  refine ⟨fun s s0 s1 port bs fcsOk symErr icvOk hp _ hd hon hres hiso hs0 hs1 => ?_,
    fun s u port bs hp hfw hd hserve hup hc hm hs hu => ?_,
    fun s u u0 port pf len v fcsOk icvOk hp hopen hid hu hfits hv hu0 hfits0 hm => ?_,
    fun s port pf len fcsOk symErr icvOk hp hopen hid => ?_⟩
  · have ht : PortTakes s port.toNat := ⟨hon, hres, hiso⟩
    obtain rfl : s1 = macCounts s port.toNat bs fcsOk symErr := by rw [hs1, hs0]; rfl
    refine ⟨fun hlen => ?_, fun hlen hsym => ?_, fun hlen hsym hfcs => ?_, fun hlen hsym hfcs hdown => ?_,
      fun hlen hsym hfcs hup hc hno => ?_, fun hlen hsym hfcs hup hc hm hl _ => ⟨fun x hb hx => ?_, fun b hb hs => ?_⟩,
      fun hlen hsym hfcs hup hc hm hs => ?_⟩
    · exact exec_whole_drop hp hd ht (macVerdict_runt s _ hlen) (by decide)
    · subst hsym
      exact exec_whole_drop hp hd ht (macVerdict_symErr s _ hlen) (by decide)
    · subst hsym hfcs
      exact exec_whole_drop hp hd ht (macVerdict_badFcs s _ hlen) (by decide)
    · subst hsym hfcs
      exact exec_whole_drop hp hd ht (macVerdict_notUp s _ hlen hdown) (by decide)
    · subst hsym hfcs
      rw [exec_whole_pass hp hd ht hlen hup, afterTests_control spanRx _ hc, macControl_macCounts_drop bs true hup]
      refine hno.imp_right (Or.imp_right fun h => ⟨fun q hq => ?_, fun v q hq => ?_⟩)
      · simpa [hq] using h
      · simpa [hq] using h
    · subst hsym hfcs hx
      rw [exec_whole_pass hp hd ht hlen hup, afterTests_msec_drop spanRx _ hc hm hl hb]
    · subst hsym hfcs
      rw [exec_whole_pass hp hd ht hlen hup, afterTests_msec_pass spanRx _ hc hm hl hb hs]
    · subst hsym hfcs
      rw [exec_whole_pass hp hd ht hlen hup, afterTests_plain spanRx _ hc hm hs]
  · rw [exec_frameReceive, frameIn_begins (by omega) (portPage_line hp ▸ hd), receiveBegin_plain hp hfw hserve hup hc hm hs hu]
  · rw [exec_frameReceive, frameIn_ends s hp, receiveEnd_fits spanRx icvOk hopen hid hu hfits hv hu0 hfits0 hm]
  · rw [exec_frameReceive, frameIn_ends s hp, receiveEnd_waited spanRx len fcsOk symErr icvOk hopen hid]

end Sys2Proof
end

section
/-! PROOFS. The quotas of the pools (R206, R576): how a grant of one buffer and a HANDOVER are judged, and what each does to the pool. -/

namespace Sys2Proof.Machine

/-! ### The state of a pool after an update -/

section
variable (s : State) (q : Pool)

@[simp] theorem poolSt_setPool (x : PoolSt) : poolSt (setPool s q x) q = x := by cases q <;> rfl
@[simp] theorem setPool_regs (x : PoolSt) : (setPool s q x).regs = s.regs := by cases q <;> rfl
@[simp] theorem setPool_tabs (x : PoolSt) : (setPool s q x).tabs = s.tabs := by cases q <;> rfl
@[simp] theorem setBuf_regs (b : Nat) (x : Buf) : (setBuf s q b x).regs = s.regs := setPool_regs ..
@[simp] theorem setBuf_tabs (b : Nat) (x : Buf) : (setBuf s q b x).tabs = s.tabs := setPool_tabs ..
@[simp] theorem setUsage_regs (i u : Nat) : (setUsage s q i u).regs = s.regs := setPool_regs ..
@[simp] theorem setUsage_tabs (i u : Nat) : (setUsage s q i u).tabs = s.tabs := setPool_tabs ..
@[simp] theorem usageOf_setBuf (b i : Nat) (x : Buf) : usageOf (setBuf s q b x) q i = usageOf s q i := by
  simp [usageOf, setBuf]

end

/-- The words mended are those of the DRAM alone. -/
theorem rewriteMeta_only (s : State) (p : Nat) : ∃ bad, rewriteMeta s p = { s with dramBad := bad } := by
  unfold rewriteMeta mendWords
  split
  · exact ⟨s.dramBad, rfl⟩
  · exact ⟨_, rfl⟩
@[simp] theorem poolSt_rewriteMeta (s : State) (p : Nat) (q : Pool) : poolSt (rewriteMeta s p) q = poolSt s q := by
  obtain ⟨bad, h⟩ := rewriteMeta_only s p
  rw [h]
  cases q <;> rfl
@[simp] theorem rewriteMeta_regs (s : State) (p : Nat) : (rewriteMeta s p).regs = s.regs := by
  obtain ⟨bad, h⟩ := rewriteMeta_only s p
  rw [h]
@[simp] theorem rewriteMeta_tabs (s : State) (p : Nat) : (rewriteMeta s p).tabs = s.tabs := by
  obtain ⟨bad, h⟩ := rewriteMeta_only s p
  rw [h]

/-! ### The buffer that a grant makes -/

section
variable (s : State) (q : Pool) (i size : Nat)

/-- The buffer granted is HELD by the requester with no reference. -/
theorem bufOf_grantBuf : (bufOf (grantBuf s q i size).2 q (grantBuf s q i size).1).st = .held ∧
    (bufOf (grantBuf s q i size).2 q (grantBuf s q i size).1).owner = i ∧
    (bufOf (grantBuf s q i size).2 q (grantBuf s q i size).1).refs = 0 := by
  cases q <;> simp [grantBuf, setUsage, setBuf, bufOf]
/-- A grant adds its size to the usage of the requester. -/
theorem usage_grantBuf : (poolSt (grantBuf s q i size).2 q).usage =
    mapSet (fun _ => 0) (poolSt s q).usage i (usageOf s q i + grantSize q size) := by
  cases q <;> simp [grantBuf, setUsage, setBuf, usageOf]
/-- It writes no register and no table. -/
theorem grantBuf_regs_tabs : (grantBuf s q i size).2.regs = s.regs ∧ (grantBuf s q i size).2.tabs = s.tabs := by
  cases q <;> simp [grantBuf]

theorem usageOf_grantBuf_same : usageOf (grantBuf s q i size).2 q i = usageOf s q i + grantSize q size := by
  rw [usageOf, usage_grantBuf, mapGet_mapSet_same]
theorem usageOf_grantBuf_other {j : Nat} (h : j ≠ i) : usageOf (grantBuf s q i size).2 q j = usageOf s q j := by
  rw [usageOf, usage_grantBuf, mapGet_mapSet_other _ _ _ h]
  rfl

end

/-- A failure is counted and raised: both pools stay as they are. -/
theorem grantFailed_pools (s : State) (q : Pool) (reason region : Nat) (as : Option Nat) :
    (grantFailed s q reason region as).gran = s.gran ∧ (grantFailed s q reason region as).page = s.page := by
  unfold grantFailed
  dsimp only
  split <;> simp

/-! ### The verdict on one buffer (R206) -/

section
variable {s : State} {q : Pool} {i : Nat}

@[simp] theorem grantSize_one (q : Pool) : grantSize q 1 = 1 := by cases q <;> rfl
/-- Below its minimum a requester takes one buffer from its reserve. -/
theorem sharedNeed_one_below (h : usageOf s q i < minOf s q i) : sharedNeed s q i 1 = 0 := by
  unfold sharedNeed; omega
/-- From its minimum on it needs the shared part. -/
theorem sharedNeed_one_above (h : minOf s q i ≤ usageOf s q i) : sharedNeed s q i 1 = 1 := by
  unfold sharedNeed; omega

/-- The test of PPM_STAT.ready passes. -/
theorem not_unready (hready : q = .pages → ppmReady s = true) : ¬(q = .pages ∧ (!ppmReady s) = true) :=
  fun ⟨hq, hn⟩ => by simp [hready hq] at hn
/-- Below the minimum no test but reach holds a grant back. -/
theorem grantVerdict_reserve (hready : q = .pages → ppmReady s = true) (h : usageOf s q i < minOf s q i) :
    grantVerdict s q i 1 = if inReach s q 1 = true then 0 else 0x60 := by
  simp only [grantVerdict, grantSize_one, sharedNeed_one_below h, if_neg (not_unready hready)]
  cases inReach s q 1 <;> rfl

/-- From the minimum on the maximum holds a grant back first, then the shared free count, then reach. -/
theorem grantVerdict_shared (hready : q = .pages → ppmReady s = true) (h : minOf s q i ≤ usageOf s q i) :
    grantVerdict s q i 1 = if maxOf s q i ≤ usageOf s q i then 0x61 else if freeShared s q ≤ 0 then 0x60
      else if inReach s q 1 = true then 0 else 0x60 := by
  have hfree : freeShared s q < ((1 : Nat) : Int) ↔ freeShared s q ≤ 0 := by omega
  simp only [grantVerdict, grantSize_one, sharedNeed_one_above h, if_neg (not_unready hready), Nat.lt_succ_iff, hfree, ne_eq,
    Nat.one_ne_zero, not_false_eq_true, true_and]
  cases inReach s q 1 <;> rfl

end

/-! ### A request that stands alone in its cycle -/

/-- Where one element of a list without repeats yields anything, the list yields what that one does. -/
theorem flatMap_eq_of_only {α β : Type} {f : α → List β} {k : α} :
    ∀ {l : List α}, l.Nodup → k ∈ l → (∀ j ∈ l, j ≠ k → f j = []) → l.flatMap f = f k
  | a :: l, hl, hk, hf => by
    obtain ⟨ha, hl⟩ := List.nodup_cons.mp hl
    rw [List.flatMap_cons]
    rcases List.mem_cons.mp hk with rfl | hk
    · rw [List.flatMap_eq_nil_iff.mpr fun j hj => hf j (List.mem_cons_of_mem _ hj) fun h => ha (h ▸ hj), List.append_nil]
    · rw [hf a List.mem_cons_self fun h => ha (h ▸ hk), List.nil_append,
        flatMap_eq_of_only hl hk fun j hj => hf j (List.mem_cons_of_mem _ hj)]

/-- The turn of the shared part comes to each requester once (R207), so a cycle of one request is that grant. -/
theorem grantCycle_single (s : State) (q : Pool) {i : Nat} (n region : Nat) (hi : i < 16) :
    grantCycle s q [(i, n)] region = (grant s q i n region).2 := by
  unfold grantCycle
  dsimp only
  cases hneed : sharedNeed s q i (grantSize q n) != 0 with
  | false =>
    rw [List.flatMap_eq_nil_iff.mpr fun j _ => by simp [hneed]]
    simp [hneed, forEach]
  | true =>
    rw [flatMap_eq_of_only (k := (i + 15 - (poolSt s q).lastShared % 16) % 16) List.nodup_range
      (List.mem_range.mpr (Nat.mod_lt _ (by decide)))]
    · have hturn : i = ((poolSt s q).lastShared + 1 + (i + 15 - (poolSt s q).lastShared % 16) % 16) % 16 := by omega
      simp [hneed, forEach, ← hturn]
    · intro j hj hne
      have hlt := List.mem_range.mp hj
      have hturn : i ≠ ((poolSt s q).lastShared + 1 + j) % 16 := by omega
      simp [hturn]

theorem exec_grant_one (q : Pool) (i : BitVec 4) (s : State) :
    exec (.grant q i 1) s = .next (closed s (grant s q i.toNat 1 (poolRegion q)).2) :=
  congrArg (fun t => Host.Outcome.next (closed s t)) (grantCycle_single s q 1 (poolRegion q) i.isLt)
theorem exec_grant_made {q : Pool} {i : BitVec 4} {s : State} (h : grantVerdict s q i.toNat 1 = 0) :
    exec (.grant q i 1) s = .next (closed s (grantBuf s q i.toNat 1).2) := by
  simp [exec_grant_one, grant, h]
theorem exec_grant_failed {q : Pool} {i : BitVec 4} {s : State} {v : Nat} (h : grantVerdict s q i.toNat 1 = v) (hv : v ≠ 0) :
    exec (.grant q i 1) s = .next (closed s (grantFailed s q v (poolRegion q))) := by
  simp [exec_grant_one, grant, h, hv]

/-! ### HANDOVER (R576) -/

/-- Only a buffer of the pool is HELD. -/
theorem recordOf_of_held {s : State} {q : Pool} {b : Nat} (h : (recordOf s q b).st = .held) : recordOf s q b = bufOf s q b := by
  unfold recordOf at h ⊢
  split
  · next hout => simp [hout] at h
  · rfl

section
variable {s s' : State} {q : Pool} {b i j g u : Nat}
  (hs' : s' = setUsage s q i (usageOf s q i - g)) (hu : u = usageOf s' q j + g)
include hs' hu

theorem handoverVerdict_quotaFull (h : maxOf s q j < u) : handoverVerdict s q i j g = 0x61 := by
  subst hs' hu
  exact if_pos h
theorem handoverVerdict_accepted (hmax : u ≤ maxOf s q j) (h : u ≤ minOf s q j ∨ 0 ≤ freeShared (setUsage s' q j u) q) :
    handoverVerdict s q i j g = 0 := by
  subst hs' hu
  rcases h with hmin | hfree
  · exact (if_neg (Nat.not_lt.mpr hmax)).trans (if_pos hmin)
  · exact (if_neg (Nat.not_lt.mpr hmax)).trans (ite_eq_left_iff.mpr fun _ => if_pos hfree)
theorem handoverVerdict_poolEmpty (hmax : u ≤ maxOf s q j) (hmin : minOf s q j < u) (hfree : freeShared (setUsage s' q j u) q < 0) :
    handoverVerdict s q i j g = 0x60 := by
  subst hs' hu
  exact (if_neg (Nat.not_lt.mpr hmax)).trans ((if_neg (Nat.not_le.mpr hmin)).trans (if_neg (Int.not_le.mpr hfree)))

/-- The buffer leaves its owner's usage before it enters the new owner's. -/
theorem moveOwner_eq (howner : (bufOf s q b).owner = i) (hg : g = (bufOf s q b).size) :
    moveOwner s q b j = setBuf (setUsage s' q j u) q b { bufOf s q b with owner := j } := by
  subst hs' hu hg howner
  rfl

end

section
variable {s : State} {q : Pool} {b h : Nat} {i j : BitVec 4}
  (hh : h = bufHead s q b) (hst : (recordOf s q h).st = .held) (howner : (recordOf s q h).owner = i.toNat)
include hh hst howner

theorem exec_handover_accepted (hv : handoverVerdict s q i.toNat j.toNat (recordOf s q h).size = 0) :
    exec (.handover q b i j) s = .next (closed s (moveOwner s q h j.toNat)) := by
  have hop : opHandover s q h i.toNat j.toNat = moveOwner s q h j.toNat := by simp [opHandover, hst, howner, hv]
  rw [← hop, hh]
  rfl
theorem exec_handover_failed {v : Nat} (hv : handoverVerdict s q i.toNat j.toNat (recordOf s q h).size = v) (h0 : v ≠ 0) :
    exec (.handover q b i j) s = .next (closed s (grantFailed s q v (poolRegion q))) := by
  have hop : opHandover s q h i.toNat j.toNat = grantFailed s q v (poolRegion q) := by simp [opHandover, hst, howner, hv, h0]
  rw [← hop, hh]
  rfl

end

end Sys2Proof.Machine

namespace Sys2Proof
open Sys2Proof.Machine

/-- Settles O32: the minimum decides whether a request is judged by reach alone or by the maximum, the shared free count and reach. -/
theorem grantsFollowTheQuotas : Obligations.GrantsFollowTheQuotas := by
  unfold Obligations.GrantsFollowTheQuotas
  refine ⟨fun s q => rfl, fun s q => rfl, fun s q i hready hreach h => ?_, fun s q i hready hmin hmax => ?_,
    fun s q i hready hmin hmax hfree => ?_, fun s q i hready hreach h => ?_, fun s q i size => ?_,
    fun s q reason region => grantFailed_pools s q reason region none⟩
  · refine exec_grant_made ?_
    rcases h with hmin | ⟨hmin, hmax, hfree⟩
    · rw [grantVerdict_reserve hready hmin, if_pos hreach]
    · rw [grantVerdict_shared hready hmin, if_neg (Nat.not_le.mpr hmax), if_neg (Int.not_le.mpr hfree), if_pos hreach]
  · exact exec_grant_failed ((grantVerdict_shared hready hmin).trans (if_pos hmax)) (by decide)
  · refine exec_grant_failed ?_ (by decide)
    rw [grantVerdict_shared hready hmin, if_neg (Nat.not_le.mpr hmax), if_pos hfree]
  · refine exec_grant_failed ?_ (by decide)
    rcases Nat.lt_or_ge (usageOf s q i.toNat) (minOf s q i.toNat) with hbelow | habove
    · simp [grantVerdict_reserve hready hbelow, hreach]
    · have hmax := Nat.not_le.mpr (h.resolve_left (Nat.not_lt.mpr habove))
      simp [grantVerdict_shared hready habove, hmax, hreach]
  · obtain ⟨hst, howner, hrefs⟩ := bufOf_grantBuf s q i size
    exact ⟨hst, howner, hrefs, usageOf_grantBuf_same s q i size, fun j hj => usageOf_grantBuf_other s q i size hj, grantBuf_regs_tabs s q i size⟩

/-- Settles O33: the verdict is taken with the buffer out of the old owner's usage and in the new owner's. -/
theorem handoverJudgement : Obligations.HandoverJudgement := by
  unfold Obligations.HandoverJudgement
  intro s s' q b h g u i j hh hst howner hg hs' hu
  have hrec := recordOf_of_held hst
  subst hg
  refine ⟨fun hmax => ?_, fun hmax hin => ?_, fun hmax hmin hfree => ?_⟩
  · exact exec_handover_failed hh hst howner (handoverVerdict_quotaFull hs' hu hmax) (by decide)
  · rw [exec_handover_accepted hh hst howner (handoverVerdict_accepted hs' hu hmax hin),
      moveOwner_eq hs' hu (hrec ▸ howner) (congrArg Buf.size hrec)]
  · exact exec_handover_failed hh hst howner (handoverVerdict_poolEmpty hs' hu hmax hmin hfree) (by decide)

end Sys2Proof
end

section
/-! PROOFS. The queue of commands, and what follows every command: the interrupt messages that are sent, the window locks that are
released, and what is left of both where nothing stands over. -/

namespace Sys2Proof.Machine

/-! ### A small number, case by case -/

theorem lt_two_cases {motive : (n : Nat) → n < 2 → Prop} (h0 : motive 0 (by decide)) (h1 : motive 1 (by decide)) (n : Nat) (h : n < 2) : motive n h :=
  match n, h with
  | 0, _ => h0
  | 1, _ => h1

theorem lt_four_cases {motive : (n : Nat) → n < 4 → Prop} (h0 : motive 0 (by decide)) (h1 : motive 1 (by decide)) (h2 : motive 2 (by decide))
    (h3 : motive 3 (by decide)) (n : Nat) (h : n < 4) : motive n h :=
  match n, h with
  | 0, _ => h0
  | 1, _ => h1
  | 2, _ => h2
  | 3, _ => h3

theorem lt_eight_cases {motive : (n : Nat) → n < 8 → Prop} (h0 : motive 0 (by decide)) (h1 : motive 1 (by decide)) (h2 : motive 2 (by decide))
    (h3 : motive 3 (by decide)) (h4 : motive 4 (by decide)) (h5 : motive 5 (by decide)) (h6 : motive 6 (by decide)) (h7 : motive 7 (by decide))
    (n : Nat) (h : n < 8) : motive n h :=
  match n, h with
  | 0, _ => h0
  | 1, _ => h1
  | 2, _ => h2
  | 3, _ => h3
  | 4, _ => h4
  | 5, _ => h5
  | 6, _ => h6
  | 7, _ => h7

/-! ### Every command ends alike -/

/-- A command's outcome is what its own effect leaves, closed. -/
theorem exec_eq_closed (c : Instr) (s : State) : ∃ u, exec c s = .next (closed s u) := by
  cases c <;> exact ⟨_, rfl⟩
theorem step_nil {s : State} (h : s.pending = []) : step s = .next (idle s) := by
  simp [step, h]
theorem step_cons {c : Instr} {rest : List Instr} {s : State} (h : s.pending = c :: rest) :
    step s = exec c { s with pending := rest } := by
  simp [step, h]
/-- A step is a cycle of CK_TIME, or ends like every command. -/
theorem step_cases {s t : State} (h : step s = .next t) : t = idle s ∨ ∃ r u, t = closed r u := by
  cases hp : s.pending with
  | nil => exact .inl (by simpa [step_nil hp] using h.symm)
  | cons c rest =>
    obtain ⟨u, hu⟩ := exec_eq_closed c { s with pending := rest }
    exact .inr ⟨_, u, by simpa [step_cons hp, hu] using h.symm⟩

theorem closed_pending (s u : State) : (closed s u).pending = s.pending := by rw [closed]
/-- A cycle of CK_TIME moves the base count alone. -/
theorem idle_eq (s : State) : idle s = { s with baseCount := if domOn s 174 then s.baseCount + 256 else s.baseCount } := by
  unfold idle
  split <;> rfl

/-! ### What the power, isolation and service of a page rest on -/

section
variable {s t : State} (hctl : ∀ q, rd t q 0x010 = rd s q 0x010) (hholds : t.holds = s.holds)
include hctl hholds

/-- A page is isolated by the PG_CTL words and the HOLDs alone. -/
theorem isolated_congr (p : Nat) : isolated t p = isolated s p := by
  simp only [isolated, ctlStops, held, bitAt, hctl, hholds]
/-- A page serves by its isolation, the domains, the resets and the die-to-die link alone. -/
theorem serving_congr (hdoms : t.doms = s.doms) (hresets : t.resets = s.resets) (hd2d : t.d2d = s.d2d) (p : Nat) :
    serving t p = serving s p := by
  simp only [serving, pageOn, domOn, domOf, inReset, isolated_congr hctl hholds, hdoms, hresets, hd2d]

end

/-! ### Sparse maps and filters by key -/

section
variable {α : Type} {f : Nat × α → Bool} {k : Nat} (hk : ∀ v, f (k, v) = false)
include hk

theorem filter_mapErase (m : SMap α) : (mapErase m k).filter f = m.filter f := by
  induction m with
  | nil => rfl
  | cons e m ih =>
    obtain ⟨j, v⟩ := e
    rw [mapErase]
    split
    · next hj =>
      obtain rfl : j = k := hj
      rw [ih, List.filter_cons, hk]
      rfl
    · rw [List.filter_cons, List.filter_cons, ih]
theorem filter_mapInsert (m : SMap α) (v : α) : (mapInsert m k v).filter f = m.filter f := by
  induction m with
  | nil => simp [mapInsert, hk]
  | cons e m ih =>
    rw [mapInsert]
    split
    · rw [List.filter_cons, hk]
      rfl
    · rw [List.filter_cons, List.filter_cons, ih]
/-- A write to a key that a filter takes no entry of is not seen by the filter. -/
theorem filter_mapSet [DecidableEq α] (d : Nat → α) (m : SMap α) (v : α) : (mapSet d m k v).filter f = m.filter f := by
  unfold mapSet
  split
  · exact filter_mapErase hk m
  · rw [filter_mapInsert hk, filter_mapErase hk]

end

/-! ### Messages (R69, R70) -/

/-- `t` is `s` after messages: the causes stand as they stood, and arm bits of vectors have only fallen. -/
structure Messaged (s t : State) : Prop where
  only : OnlySignalled s t
  causes : causePages t = causePages s
  falls : ∀ v < 512, armed t v = true → armed s v = true

theorem Messaged.refl (s : State) : Messaged s s :=
  ⟨⟨s.regs, s.pcie.pend, [], rfl, fun _ _ _ => rfl⟩, rfl, fun _ _ h => h⟩
theorem Messaged.trans {s t u : State} (h : Messaged s t) (g : Messaged t u) : Messaged s u := by
  obtain ⟨⟨r, p, o, rfl, hrd⟩, hc, hf⟩ := h
  obtain ⟨⟨r', p', o', rfl, hrd'⟩, hc', hf'⟩ := g
  exact ⟨⟨r', p', o' ++ o, by simp, fun q w hw => (hrd' q w hw).trans (hrd q w hw)⟩, hc'.trans hc,
    fun v hv h => hf v hv (hf' v hv h)⟩

section
variable {s t : State} (h : Messaged s t)
include h

theorem Messaged.rd_low (q : Nat) {w : Nat} (hw : w < 0x140) : rd t q w = rd s q w := by
  obtain ⟨_, _, _, _, hrd⟩ := h.only
  exact hrd q w (by omega)
theorem Messaged.rd_high (q : Nat) {w : Nat} (hw : 0x180 ≤ w) (hw' : w < 4096) : rd t q w = rd s q w := by
  obtain ⟨_, _, _, _, hrd⟩ := h.only
  exact hrd q w (by omega)
theorem Messaged.isolated (p : Nat) : isolated t p = Machine.isolated s p :=
  isolated_congr (fun q => h.rd_low q (by decide)) (by obtain ⟨_, _, _, rfl, _⟩ := h.only; rfl) p
theorem Messaged.serving (p : Nat) : serving t p = Machine.serving s p :=
  serving_congr (fun q => h.rd_low q (by decide)) (by obtain ⟨_, _, _, rfl, _⟩ := h.only; rfl)
    (by obtain ⟨_, _, _, rfl, _⟩ := h.only; rfl) (by obtain ⟨_, _, _, rfl, _⟩ := h.only; rfl)
    (by obtain ⟨_, _, _, rfl, _⟩ := h.only; rfl) p
theorem Messaged.pcieLive : pcieLive t = Machine.pcieLive s := by
  unfold Machine.pcieLive
  rw [h.serving]
  obtain ⟨_, _, _, rfl, _⟩ := h.only
  rfl
theorem Messaged.tget (p sel bank i : Nat) : tget t p sel bank i = Machine.tget s p sel bank i := by
  obtain ⟨_, _, _, rfl, _⟩ := h.only
  rfl
theorem Messaged.heardSums : heardSums t = Machine.heardSums s := by
  have hsig : ∀ p, signalling t p = signalling s p := fun p => by
    simp only [signalling, sevOf, fld, h.rd_low p (w := 0x020) (by decide), h.rd_low p (w := 0x024) (by decide),
      h.rd_low p (w := 0x028) (by decide), h.rd_low p (w := 0x02C) (by decide)]
  simp only [Machine.heardSums, summaries, h.causes, hsig]
  obtain ⟨_, _, _, rfl, _⟩ := h.only
  rfl

end

/-- A message of a vector that exists falls on its arm bit alone. -/
theorem messaged_sendVector (s : State) {v : Nat} (hv : v < 512) : Messaged s (sendVector s v) ∧ armed (sendVector s v) v = false := by
  have hbit : ∀ j, armed (setBit s intcPage (0x140 + v / 32 * 4) (v % 32) false) j = if j = v then false else armed s j := fun j => by
    unfold armed
    rw [bitAt_setBit _ _ _ _ _ _ _ _ (Nat.mod_lt _ (by decide))]
    by_cases hj : j = v
    · simp [hj]
    · rw [if_neg (by omega), if_neg hj]
  have harm : Messaged s (setBit s intcPage (0x140 + v / 32 * 4) (v % 32) false) := by
    refine ⟨⟨_, s.pcie.pend, [], rfl, fun q w hw => rd_setBit_key _ _ _ _ _ _ _ (by omega)⟩, ?_, fun j _ hj => ?_⟩
    · exact congrArg (List.map _) (filter_mapSet (fun _ => by simp; omega) _ _ _)
    · rw [hbit] at hj
      split at hj
      · cases hj
      · exact hj
  have hsent : ∀ u : State, Messaged u { u with pcie := { u.pcie with pend := u.pcie.pend ||| 2 ^ v } } ∧ Messaged u (emit u (.msix v)) :=
    fun u => ⟨⟨⟨u.regs, _, [], rfl, fun _ _ _ => rfl⟩, rfl, fun _ _ h => h⟩, ⟨⟨u.regs, u.pcie.pend, [.msix v], rfl, fun _ _ _ => rfl⟩, rfl, fun _ _ h => h⟩⟩
  unfold sendVector
  dsimp only
  split
  · exact ⟨harm.trans (hsent _).1, (hbit v).trans (if_pos rfl)⟩
  · exact ⟨harm.trans (hsent _).2, (hbit v).trans (if_pos rfl)⟩

theorem messaged_sendPending (s : State) : Messaged s (sendPending s) := by
  unfold sendPending
  split
  · exact .refl s
  · exact ⟨⟨s.regs, _, _, rfl, fun _ _ _ => rfl⟩, rfl, fun _ _ h => h⟩

theorem vector_lt (e : Entry) : efld e 8 0 < 512 := bitsOf_lt _ _ _

/-- The messages of a list of summary bits leave none of them owed. -/
theorem sendSummaries_settles (s : State) (l : List Nat) : Messaged s (sendSummaries s l) ∧
    (pcieLive (sendSummaries s l) = true → serving (sendSummaries s l) intcPage = true → ∀ b ∈ l,
      ebit (tget (sendSummaries s l) intcPage 0 0 b) 15 = true →
        armed (sendSummaries s l) (efld (tget (sendSummaries s l) intcPage 0 0 b) 8 0) = false) := by
  induction l generalizing s with
  | nil => exact ⟨.refl s, fun _ _ b hb => nomatch hb⟩
  | cons b l ih =>
    rw [sendSummaries]
    have hv := vector_lt (tget s intcPage 0 0 b)
    split
    · obtain ⟨hm, hoff⟩ := messaged_sendVector s hv
      obtain ⟨hl, hsettled⟩ := ih (sendVector s (efld (tget s intcPage 0 0 b) 8 0))
      refine ⟨hm.trans hl, fun hlive hserve j hj hen => ?_⟩
      rcases List.mem_cons.mp hj with rfl | hj
      · rw [(hm.trans hl).tget]
        exact Bool.eq_false_iff.mpr fun h => Bool.false_ne_true (hoff.symm.trans (hl.falls _ hv h))
      · exact hsettled hlive hserve j hj hen
    · next hno =>
      obtain ⟨hl, hsettled⟩ := ih s
      refine ⟨hl, fun hlive hserve j hj hen => ?_⟩
      rcases List.mem_cons.mp hj with rfl | hj
      · rw [hl.tget] at hen ⊢
        rw [hl.pcieLive] at hlive
        rw [hl.serving] at hserve
        refine Bool.eq_false_iff.mpr fun h => hno ?_
        simp [hen, hlive, hserve, hl.falls _ hv h]
      · exact hsettled hlive hserve j hj hen

theorem messaged_signal (s : State) : Messaged s (signal s) :=
  (messaged_sendPending s).trans (sendSummaries_settles _ _).1
theorem msiSettled_pending {s : State} (h : MsiSettled s) (l : List Instr) : MsiSettled { s with pending := l } := h
theorem msiSettled_baseCount {s : State} (h : MsiSettled s) (b : BitVec 96) : MsiSettled { s with baseCount := b } := h
/-- R70: the messages due after a command leave none owed. -/
theorem msiSettled_signal (s : State) : MsiSettled (signal s) := by
  obtain ⟨hm, hsettled⟩ := sendSummaries_settles (sendPending s) (heardSums (sendPending s))
  intro hlive hserve b hb
  exact hsettled hlive hserve b (hm.heardSums ▸ hb)

/-! ### Where nothing stands over -/

theorem forEach_nil {α : Type} (s : State) (f : State → α → State) : forEach s [] f = s := rfl
/-- Steps that leave the state alone leave it alone together. -/
theorem forEach_fixed {α : Type} {s : State} {l : List α} {f : State → α → State} (h : ∀ a ∈ l, f s a = s) : forEach s l f = s := by
  induction l with
  | nil => rfl
  | cons a l ih =>
    show forEach (f s a) l f = s
    rw [h a List.mem_cons_self]
    exact ih fun b hb => h b (List.mem_cons_of_mem _ hb)
/-- What holds of the default and of every value listed holds of what a key reads. -/
theorem mapGet_all {α : Type} {d : Nat → α} {m : SMap α} {P : α → Prop} (hd : ∀ k, P (d k)) (hm : ∀ e ∈ m, P e.2) (k : Nat) :
    P (mapGet d m k) := by
  induction m with
  | nil => exact hd k
  | cons e m ih =>
    rw [mapGet]
    split
    · exact hm e List.mem_cons_self
    · exact ih fun x hx => hm x (List.mem_cons_of_mem _ hx)

theorem filter_eq_nil_of_all_not {α : Type} {f : α → Bool} {l : List α} (h : l.all (fun a => !f a) = true) : l.filter f = [] :=
  List.filter_eq_nil_iff.mpr fun a ha => by simpa using List.all_eq_true.mp h a ha

theorem bscSettle_of_quiet {s : State} (h : Quiet s) : bscSettle s = s := by
  obtain ⟨hstepped, -, -, -, -, -, -, -, -, -, -, -, -, -, -, hlifts, -⟩ := h
  have hs : { s with stepped := [] } = s := by rw [← hstepped]
  have hnone : (liftList s).filter (fun i => liftState s i == 1 || liftState s i == 3) = [] := by
    rw [List.filter_eq_nil_iff]
    intro i hi
    have := List.all_eq_true.mp hlifts i hi
    simp only [Bool.and_eq_true, bne_iff_ne] at this
    simp [this.1, this.2]
  simp only [bscSettle, hstepped, hs, forEach_nil, hnone]
theorem ringsSettle_of_quiet {s : State} (h : Quiet s) : ringsSettle s = s := by
  obtain ⟨-, -, -, -, -, -, -, -, -, -, -, -, hsqs, hchans, -⟩ := h
  simp only [ringsSettle, hsqs, hchans, if_true]
theorem embSettle_of_quiet {s : State} (h : Quiet s) : embSettle s = s := by
  obtain ⟨-, -, -, -, -, -, -, -, -, hhold, hhand, hredeliv, -⟩ := h
  have hs : { s with redeliv := [] } = s := by rw [← hredeliv]
  have hagain : embAgain s = s := by rw [embAgain, hredeliv, forEach_nil, hs]
  simp only [embSettle, hhand, List.isEmpty_nil, if_true, hagain, hhold, true_or]
theorem hostStamps_of_quiet {s : State} (h : Quiet s) : hostStamps s = s := by
  obtain ⟨-, hstamps, -⟩ := h
  have hs : { s with stamps := [] } = s := by rw [← hstamps]
  simp only [hostStamps, hstamps, hs, forEach_nil]
theorem hostLost_of_quiet {s : State} (h : Quiet s) : hostLost s = s := by
  obtain ⟨-, -, hlost, -, -, -, -, hreason, -⟩ := h
  have hs : { s with lostTx := [], lastReason := 0 } = s := by rw [← hlost, ← hreason]
  simp only [hostLost, hlost, hs, forEach_nil]
theorem resyncSettle_of_quiet {s : State} (h : Quiet s) : resyncSettle s = s := by
  obtain ⟨-, -, -, -, -, -, -, -, -, -, -, -, -, -, hpipes, -⟩ := h
  refine forEach_fixed fun k _ => ?_
  have hk : (pipeOf s k).resyncing = false := by
    refine mapGet_all (P := fun p : Pipe => p.resyncing = false) (fun _ => rfl) (fun e he => ?_) k
    have := List.all_eq_true.mp hpipes e he
    simp only [Bool.and_eq_true, Bool.not_eq_true'] at this
    exact this.2
  simp [resendLearns, hk]
theorem slotStalls_of_quiet {s : State} (h : Quiet s) : slotStalls s = s := by
  obtain ⟨-, -, -, -, -, -, -, -, -, -, -, -, -, -, hpipes, -⟩ := h
  have hnone : s.pipes.filter (fun e => decide (e.1 < 4) && !(e.2.arrivals.isEmpty && e.2.recirc.isEmpty) &&
      decide (e.2.waitFrom + usUnits 1 ≤ now s)) = [] := by
    rw [List.filter_eq_nil_iff]
    intro e he
    have := List.all_eq_true.mp hpipes e he
    simp only [Bool.and_eq_true] at this
    simp [this.1.1, this.1.2]
  simp only [slotStalls, hnone, List.map_nil, forEach_nil]
theorem d2dSignals_of_quiet {s : State} (h : Quiet s) : d2dSignals s = s := by
  obtain ⟨-, -, -, -, -, -, -, -, hsignals, -⟩ := h
  simp [d2dSignals, hsignals]
theorem escalateAll_of_quiet {s : State} (h : Quiet s) : escalateAll 64 s = s := by
  obtain ⟨-, -, -, hescal, -⟩ := h
  rw [escalateAll, hescal]
theorem failoverAll_of_quiet {s : State} (h : Quiet s) : failoverAll s = s := by
  obtain ⟨-, -, -, -, hholds, hresets, -⟩ := h
  simp [failoverAll, hholds, hresets]
theorem holdGroups_of_quiet {s : State} (h : Quiet s) : holdGroups s = s := by
  obtain ⟨-, -, -, -, hholds, -⟩ := h
  simp [holdGroups, hholds]
theorem releaseLocks_of_quiet {s : State} (h : Quiet s) : releaseLocks s = s := by
  obtain ⟨-, -, -, -, -, -, -, -, -, -, -, -, -, -, -, -, hlocks⟩ := h
  exact congrArg (fun l : SMap Word => forEach s (l.map fun e => e.1 / 4096) fun s p => wr s p 0xF0C 0) (filter_eq_nil_of_all_not hlocks)
theorem signalRings_of_quiet {s : State} (h : Quiet s) : signalRings s = s := by
  obtain ⟨-, -, -, -, -, -, hcqs, -⟩ := h
  simp only [signalRings, hcqs, List.map_nil, forEach_nil]
/-- Where nothing stands over, the messages are all that follows a command. -/
theorem finish_of_quiet {s : State} (h : Quiet s) : finish s = signal s := by
  unfold finish
  rw [bscSettle_of_quiet h, ringsSettle_of_quiet h, embSettle_of_quiet h, hostStamps_of_quiet h, hostLost_of_quiet h,
    resyncSettle_of_quiet h, slotStalls_of_quiet h, d2dSignals_of_quiet h, escalateAll_of_quiet h, failoverAll_of_quiet h,
    holdGroups_of_quiet h, releaseLocks_of_quiet h, signalRings_of_quiet h]

/-! ### At reset -/

/-- R65: no window lock is held at reset. -/
theorem regReset_lock (p : Nat) : regReset (p * 4096 + 0xF0C) = 0 := by
  have hat : regResetAt p 0xF0C = 0 := by
    unfold regResetAt
    cases hp : pageInfo p with
    | none => rfl
    | some i =>
      have hrow : findRow windowRows 0xF0C = some (rowRO 0xF0C) := by decide
      cases hw : i.kind.window <;> simp [regRow, hp, hw, hrow, rowRO]
  unfold regReset
  rw [addr_page p _ (by decide), addr_off p _ (by decide), hat]
  rfl
theorem rd_reset_lock (p : Nat) : rd State.reset p 0xF0C = 0 := regReset_lock p
theorem quiet_reset : Quiet State.reset := by
  unfold Quiet
  decide

/-! ### A vector that HST.INTC does not have -/

/-- A completion ring has a message due for vector 0x6E60, which no vector of HST.INTC has: its arm bit would be bit 0 of HST.INTC's
TBL_LOCK. That lock is held by engine block 1, which works; block 0 is isolated. -/
def strayVector : State :=
  { pending := [.d2dRetrain]
    pcie := { bme := true, linkUp := true }
    cqs := [(0, { on := true, irq := true, due := true, vector := 0x6E60 })]
    regs := [(ebkPage 0 * 4096 + 0x010, 0), (intcPage * 4096 + 0xF0C, 0x141)] }

/-- Block 1 alone holds a lock, and is not isolated. -/
theorem locksLive_strayVector : LocksLive strayVector := by
  intro p k hk
  by_cases hp : p = intcPage
  · subst hp
    obtain rfl : 1 = k := Option.some.inj (Eq.trans (by decide +kernel) hk)
    decide +kernel
  · have hr : rd strayVector p 0xF0C = 0 := by
      refine Eq.trans ?_ (regReset_lock p)
      simp only [rd, strayVector, mapGet]
      rw [if_neg (by unfold ebkPage; omega), if_neg (by omega)]
    rw [hr] at hk
    cases hk
/-- The state that the command leaves: it finds nothing to retrain, so what settles after every command is all it does. -/
def afterStrayVector : State := closed { strayVector with pending := [] } (retrain { strayVector with pending := [] })
theorem step_strayVector : step strayVector = .next afterStrayVector := (step_cons (c := .d2dRetrain) (rest := []) rfl).trans rfl
/-- The message has cleared bit 0 of the lock, whose holder is now block 0. -/
theorem lock_afterStrayVector : lockBlock (rd afterStrayVector intcPage 0xF0C).toNat = some 0 := by decide +kernel
theorem isolated_afterStrayVector : isolated afterStrayVector (ebkPage 0) = true := by decide +kernel

end Sys2Proof.Machine

namespace Sys2Proof
open Sys2Proof.Machine

/-- Settles O1. -/
theorem stepRunsTheFrontCommand : Obligations.StepRunsTheFrontCommand := fun _ _ _ h => step_cons h

/-- Settles O2: the base count is the one field that a cycle of CK_TIME can change. -/
theorem idleStepAdvancesBaseCount : Obligations.IdleStepAdvancesBaseCount := by
  intro s h
  refine ⟨idle s, step_nil h, ?_⟩
  rw [idle_eq]
  exact ⟨rfl, rfl⟩

/-- Settles O3: every command ends by closing over its own effect, and `closed` takes the queue as the command found it. -/
theorem commandsNeverStop : Obligations.CommandsNeverStop := by
  intro c s
  obtain ⟨u, hu⟩ := exec_eq_closed c s
  exact ⟨closed s u, hu, closed_pending s u⟩

/-- Settles O4, by induction on the number of steps: each takes the front command off the queue and puts nothing into it. -/
theorem commandsServedInOrder : Obligations.CommandsServedInOrder := by
  intro s n
  induction n generalizing s with
  | zero => exact fun _ => ⟨s, rfl, rfl, fun c rest h => step_cons h⟩
  | succ n ih =>
    intro hn
    obtain ⟨c, rest, hp⟩ := List.exists_cons_of_length_pos (Nat.lt_of_lt_of_le n.succ_pos hn)
    obtain ⟨u, hu, hq⟩ := commandsNeverStop c { s with pending := rest }
    have hq : u.pending = rest := hq
    obtain ⟨t, ht, hrest, hnext⟩ := ih u (by rw [hq]; rw [hp] at hn; exact Nat.le_of_succ_le_succ hn)
    have hstep : Host.Core.step Sys2Proof.core s = .next u := (step_cons hp).trans hu
    have hdrop : s.pending.drop (n + 1) = u.pending.drop n := by rw [hp, hq]; rfl
    refine ⟨t, ?_, hrest.trans hdrop.symm, fun c rest h => hnext c rest (hdrop ▸ h)⟩
    simp only [Host.Core.run, hstep]
    exact ht

/-- Settles O5: a cycle of CK_TIME reaches nothing that a message rests on, and every command ends by sending what is due. -/
theorem noMessageIsOwed : Obligations.NoMessageIsOwed := by
  intro s t hs hstep
  rcases step_cases hstep with rfl | ⟨r, u, rfl⟩
  · rw [idle_eq]
    exact msiSettled_baseCount hs _
  · exact msiSettled_pending (msiSettled_signal _) _

/-- Refutes O6: the state gives a completion ring's vector any width, and the message of a vector beyond the 512 of HST.INTC clears a
bit of another register, here of a window lock that then names an isolated block. Locks are released before messages are sent. -/
theorem not_isolatedBlocksHoldNoLock : ¬ Obligations.IsolatedBlocksHoldNoLock := by
  intro h
  have hlive := h strayVector afterStrayVector locksLive_strayVector step_strayVector intcPage 0 lock_afterStrayVector
  exact Bool.false_ne_true (hlive.symm.trans isolated_afterStrayVector)

/-- Settles O7: no cause bit is set at reset, and no window lock has a holder. -/
theorem invariantsHoldAtReset : Obligations.InvariantsHoldAtReset := by
  unfold Obligations.InvariantsHoldAtReset
  refine ⟨fun _ _ b hb => (nomatch hb), fun p k hk => ?_, rd_reset_lock, quiet_reset⟩
  rw [rd_reset_lock] at hk
  cases hk

/-- Settles O8: each of the other things that follow a command finds nothing to do. -/
theorem quietCommandsOnlySignal : Obligations.QuietCommandsOnlySignal := by
  intro s u h
  exact ⟨by rw [closed, finish_of_quiet h], (messaged_signal u).only⟩

end Sys2Proof
end

section
/-! PROOFS. What a reset in progress takes over (R35), what a register write stores (R42), and the order of the scheduler's tiers
(R241 to R243, R246). -/

namespace Sys2Proof.Machine

/-! ### Resets inside resets (R35) -/

theorem absorbed_of_mem {s : State} {a b : ResetScope} (hb : b ∈ s.resets) (h : scopeInside a b = true) : absorbed s a = true :=
  List.any_eq_true.mpr ⟨b, hb, h⟩
theorem not_absorbed {s : State} {a : ResetScope} (h : ∀ b ∈ s.resets, scopeInside a b = false) : absorbed s a = false :=
  List.any_eq_false.mpr fun b hb => by simp [h b hb]
/-- A reset that starts stands among the resets in progress, and no narrower one does. -/
theorem resets_addReset (s : State) (a : ResetScope) :
    a ∈ (addReset s a).resets ∧ ∀ b ∈ (addReset s a).resets, b = a ∨ scopeInside b a = false := by
  refine ⟨List.mem_cons_self, fun b hb => ?_⟩
  rcases List.mem_cons.mp hb with rfl | hb
  · exact .inl rfl
  · exact .inr (by simpa using (List.mem_filter.mp hb).2)
/-- A reset that is neither absorbed nor line sensing's own ends by standing among the resets in progress. -/
theorem resetScope_starts {s : State} {a : ResetScope} (hin : absorbed s a = false) (hsense : senseScope a = false) :
    ∃ u, resetScope s a = addReset u a := by
  unfold resetScope
  rw [if_neg (by simp [hin, hsense])]
  exact ⟨_, rfl⟩

/-! ### The stored word by access code (R42) -/

theorem testBit_all32 {b : Nat} (h : b < 32) : all32.testBit b = true := by
  rw [show all32 = 2 ^ 32 - 1 from rfl, Nat.testBit_two_pow_sub_one]
  simpa using h
theorem bitAt_of_rd {s : State} {p o n : Nat} (h : rd s p o = BitVec.ofNat 32 n) {b : Nat} (hb : b < 32) : bitAt s p o b = n.testBit b := by
  unfold bitAt
  rw [h, BitVec.toNat_ofNat, Nat.testBit_mod_two_pow]
  simp [hb]
/-- A bit of the stored word, by the access codes of its row. -/
theorem testBit_storedWord (r : RegRow) (old v mask : Nat) (arms : Bool) {b : Nat} (hb : b < 32) :
    (storedWord r old v mask arms).testBit b =
      (((old.testBit b && !((r.rw ||| r.rws).testBit b && mask.testBit b) || v.testBit b && ((r.rw ||| r.rws).testBit b && mask.testBit b)) &&
        !(v.testBit b && mask.testBit b && r.w1c.testBit b)) || (arms && (v.testBit b && mask.testBit b && r.w1s.testBit b))) := by
  have hall := testBit_all32 hb
  cases arms <;> simp [storedWord, Nat.testBit_xor, hall, - Nat.testBit_and, Nat.testBit_and]
/-- No bit of a row that is stored as written is also cleared or set by a 1. -/
theorem codes_exclude {r : RegRow} (h : codesApart r = true) {b : Nat} :
    ((r.rw ||| r.rws).testBit b = true → r.w1c.testBit b = false ∧ r.w1s.testBit b = false) ∧
    (r.w1c.testBit b = true → r.w1s.testBit b = false) := by
  simp only [codesApart, Bool.and_eq_true, beq_iff_eq] at h
  have h1 := congrArg (fun n => Nat.testBit n b) h.1
  have h2 := congrArg (fun n => Nat.testBit n b) h.2
  simp only [Nat.testBit_and, Nat.testBit_or, Nat.zero_testBit] at h1 h2 ⊢
  constructor
  · intro hw
    simpa [hw] using h1
  · intro hc
    simpa [hc] using h2

/-! ### What a class would send (R241) -/

theorem eligible_paused {s : State} {port c : Nat} (h : (eportOf s port).paused.testBit c = true) : eligible s port c = none := if_pos h
theorem nextOf_head {s : State} {port c : Nat} {f : QFrame} (h : nextOf s port c = some f) (hnew : f.again = none) :
    headOf s (qIdx port c) = some f := by
  unfold nextOf at h
  split at h
  · obtain ⟨g, -, rfl⟩ := Option.map_eq_some_iff.mp h
    cases hnew
  · split at h
    · cases h
    · exact h

/-! ### The tiers (R242, R243, R246) -/

/-- No class is passed over where none has a starve limit (R246). -/
theorem passedOver_no_limit {s : State} {port : Nat} (h : ∀ d < 8, fld s (schPage port) (0x140 + 16 * d) 31 20 = 0) (choice : Option Nat) :
    passedOver s port choice = none := by
  have hnone : ∀ c ∈ List.range 8, (if fld s (schPage port) (0x140 + 16 * c) 31 20 = 0 ∨ choice = some c ∨ (!shaperAllows s port) = true then none
      else eligible s port c) = none := fun c hc => if_pos (.inl (h c (List.mem_range.mp hc)))
  unfold passedOver
  dsimp only
  rw [List.filterMap_eq_nil_iff.mpr fun c hc => by rw [hnone c hc]]
  rfl
/-- No class is passed over where none is eligible. -/
theorem passedOver_no_eligible {s : State} {port : Nat} (h : ∀ d < 8, eligible s port d = none) (choice : Option Nat) :
    passedOver s port choice = none := by
  unfold passedOver
  dsimp only
  rw [List.filterMap_eq_nil_iff.mpr fun c hc => by rw [h c (List.mem_range.mp hc), ite_self]]
  rfl

theorem tier2_eq_none {s : State} {port : Nat} (h : ∀ d < 8, eligible s port d = none) : tier2 s port = none := by
  unfold tier2
  rw [List.find?_eq_none]
  intro c hc
  have hc8 : c < 8 := by
    simp only [List.mem_cons, List.not_mem_nil, or_false] at hc
    omega
  simp [h c hc8]
/-- Tier 2 takes an eligible strict class above which none is eligible. -/
theorem tier2_strict {s : State} {port c : Nat} (hc : c < 8) (hshaper : shaperAllows s port = true) (hel : (eligible s port c).isSome = true)
    (hmode : schMode s port c = 0) (habove : ∀ d < 8, c < d → eligible s port d = none) : tier2 s port = some c := by
  unfold tier2
  cases c, hc using lt_eight_cases <;> simp [hshaper, hel, hmode, habove]

/-- Without gates, and with no class passed over, the pick is tier 2's choice, or what tier 3 answers. -/
theorem pick_ungated {s : State} {port : Nat} (hgates : bitAt s (gatPage port) 0x100 0 = false) (hpass : ∀ choice, passedOver s port choice = none) :
    pick s port = match tier2 s port with
      | some c => (some (c, 2), s)
      | none =>
        let d := if hasDwrr s port then
          dwrrGo s port 8 (if schMode s port (eportOf s port).rr = 1 then (eportOf s port).rr else nextDwrr s port (eportOf s port).rr) else (none, s)
        (d.1.map (fun c => (c, 3)), d.2) := by
  unfold pick
  simp only [hgates, Bool.false_and, Bool.false_eq_true, if_false, hpass, ite_self] <;> cases tier2 s port <;> rfl

/-! ### Every class paused -/

theorem nextDwrr_lt (s : State) (port : Nat) {rr : Nat} (h : rr < 8) : nextDwrr s port rr < 8 := by
  unfold nextDwrr
  cases hf : List.find? (fun c => schMode s port c == 1) ((List.range 8).map (fun i => (rr + 7 - i) % 8)) with
  | none => exact h
  | some c =>
    obtain ⟨i, -, rfl⟩ := List.mem_map.mp (List.mem_of_find?_eq_some hf)
    exact Nat.mod_lt _ (by decide)
/-- Tier 3 picks nothing while every class is paused. -/
theorem dwrrGo_paused {port : Nat} (fuel : Nat) {s : State} {rr : Nat} (hrr : rr < 8)
    (h : ∀ d < 8, (eportOf s port).paused.testBit d = true) : (dwrrGo s port fuel rr).1 = none := by
  induction fuel generalizing s rr with
  | zero => rfl
  | succ fuel ih =>
    rw [dwrrGo]
    simp only [eligible_paused (h rr hrr), ite_self]
    exact ih (nextDwrr_lt s port hrr) h
theorem pick_paused {s : State} {port : Nat} (hrr : (eportOf s port).rr < 8) (h : ∀ d < 8, (eportOf s port).paused.testBit d = true) :
    (pick s port).1 = none := by
  have hel : ∀ d < 8, eligible s port d = none := fun d hd => eligible_paused (h d hd)
  have hr : (if schMode s port (eportOf s port).rr = 1 then (eportOf s port).rr else nextDwrr s port (eportOf s port).rr) < 8 := by
    split
    · exact hrr
    · exact nextDwrr_lt s port hrr
  unfold pick
  simp only [hel 7 (by decide), Option.isSome_none, Bool.and_false, Bool.false_eq_true, if_false, tier2_eq_none hel,
    passedOver_no_eligible hel, ite_self]
  split
  · rw [dwrrGo_paused 8 hr h]
    rfl
  · rfl

end Sys2Proof.Machine

namespace Sys2Proof
open Sys2Proof.Machine

/-- Settles O14: what starts is put in front of the resets in progress, from which what it covers has been taken. -/
theorem innerResetAbsorbed : Obligations.InnerResetAbsorbed := by
  unfold Obligations.InnerResetAbsorbed
  refine ⟨fun s a b hb h => if_pos (.inl (absorbed_of_mem hb h)), fun s a h => if_pos (.inr h), fun s a hsense h => ?_⟩
  obtain ⟨u, hu⟩ := resetScope_starts (not_absorbed h) hsense
  rw [hu]
  exact resets_addReset u a

/-- Settles O15: bit by bit, the access codes of a row exclude each other. -/
theorem writesStoreByAccessCode : Obligations.WritesStoreByAccessCode := by
  unfold Obligations.WritesStoreByAccessCode
  intro s p o v b row hrow hb
  refine ⟨?_, fun q w h => rd_storeWord_other s p o q w v all32 h⟩
  obtain ⟨hw, hc⟩ := codes_exclude (b := b) (codesApart_regRow hrow)
  rw [bitAt_of_rd (rd_storeWord hrow s v all32) hb, testBit_storedWord _ _ _ _ _ hb, testBit_all32 hb]
  unfold bitAt
  generalize (decide (kindOf p = some .intc) && decide (0x140 ≤ o) && decide (o < 0x180)) = arms
  cases hrw : (row.rw ||| row.rws).testBit b
  · cases hw1c : row.w1c.testBit b
    · cases arms <;> cases row.w1s.testBit b <;> simp
    · simp [hc hw1c]
  · simp [hw hrw]

/-- Settles O37: what the tiers look at in turn. -/
theorem schedulerTiers : Obligations.SchedulerTiers := by
  unfold Obligations.SchedulerTiers
  refine ⟨fun s port hp hg hopen hel => ?_, fun s port c _ hg hc hshaper hel hmode habove hlimit => ?_,
    fun s port r _ hg htier hdwrr hlimit hr => ?_, fun s port c tier t hrr h hpick => ?_, fun s port c f h => ?_⟩
  · unfold pick
    simp only [hg, hopen, hel, hp, decide_true, Bool.and_self, if_true]
  · rw [pick_ungated hg (passedOver_no_limit hlimit), tier2_strict hc hshaper hel hmode habove]
  · rw [pick_ungated hg (passedOver_no_limit hlimit), htier, hr]
    simp only [hdwrr, if_true]
  · have hnone := pick_paused hrr h
    rw [hpick] at hnone
    cases hnone
  · unfold eligible at h
    split at h
    · cases h
    · next hpaused =>
      split at h
      · cases h
      · next g hnext =>
        split at h
        · next hfits =>
          cases h
          simp only [Bool.and_eq_true] at hfits
          obtain ⟨⟨hready, hgate⟩, hroom⟩ := hfits
          exact ⟨hnext, hready, by simpa using hpaused, hgate, hroom, nextOf_head hnext⟩
        · cases h

end Sys2Proof
end

section
/-! PROOFS. The commands that are one register access: what a 4-byte write that goes through comes to, by the row of its register. -/

namespace Sys2Proof.Machine

/-- A command whose own effect is `u` completes with `u` closed. -/
theorem completes {s t u : State} (h : t = u) : (.next (closed s t) : Host.Outcome State Fault Refusal) = .next (closed s u) := by rw [h]

/-- A requester's access is answered beside what it does. -/
theorem responds {t u : State} (h : t = u) (x : Response) : { t with resp := x } = { u with resp := x } := by rw [h]

/-! ### A page that answers exists -/

theorem pageInfo_of_opened {s : State} {r : Requester} {p o : Nat} (ho : o < 4096) (h : opened s r p o = true) : ∃ i, pageInfo p = some i := by
  have hk := accKind_of_opened h
  cases hp : pageInfo p with
  | some i => exact ⟨i, rfl⟩
  | none =>
    unfold accKind at hk
    simp only [addr_page p o ho, hp, Option.isNone_none, if_true] at hk
    split at hk <;> cases hk
/-- The common header's rows are those of every page that exists. -/
theorem regRow_header {p o : Nat} {i : PageInfo} (hp : pageInfo p = some i) (ho : o < 0x50) : regRow p o = findRow headerRows o := by
  simp [regRow, hp, ho]

/-! ### Words and masks -/

theorem and_all32 {n : Nat} (h : n < 2 ^ 32) : n &&& all32 = n := by
  rw [show all32 = 2 ^ 32 - 1 from rfl, Nat.and_two_pow_sub_one_eq_mod, Nat.mod_eq_of_lt h]
/-- What software writes back fits a word. -/
theorem rewritten_lt (s : State) (p o : Nat) {mask : Nat} (v : Nat) (hm : mask < 2 ^ 32) : rewritten s p o mask v < 2 ^ 32 := by
  unfold rewritten
  split
  · exact Nat.and_lt_two_pow _ hm
  · refine Nat.or_lt_two_pow (Nat.lt_of_le_of_lt Nat.and_le_left ?_) (Nat.and_lt_two_pow _ hm)
    exact Nat.lt_of_le_of_lt Nat.and_le_left (rd s p o).isLt

/-! ### A write that goes through -/

/-- The bits that a write of `v` can reach by the access codes of the row. -/
def reached (row : RegRow) (v : Nat) : Nat := v &&& all32 &&& (row.rw ||| row.rws ||| row.w1c ||| row.w1s ||| row.wo)

theorem bitOf_reached {row : RegRow} {v b : Nat} (hv : v < 2 ^ 32) :
    bitOf (reached row v) b = (v.testBit b && (row.rw ||| row.rws ||| row.w1c ||| row.w1s ||| row.wo).testBit b) := by
  rw [bitOf, reached, and_all32 hv, Nat.testBit_and]
theorem reached_of_wo {row : RegRow} {v : Nat} (hv : v < 2 ^ 32) (h : row.rw ||| row.rws ||| row.w1c ||| row.w1s ||| row.wo = all32) :
    reached row v = v := by
  rw [reached, h, and_all32 hv, and_all32 hv]

section
variable {s : State} {r : Requester} {p o v : Nat} {row : RegRow}

/-- R50: a 4-byte write to a register below the window that no shadow holds back is stored by its row and acted on. -/
theorem regWrite_row (hopen : opened s r p o = true) (hrow : regRow p o = some row) (ho : o < 0xF00) (htest : ¬(0x050 ≤ o ∧ o < 0x060))
    (hlow : row.wide = false) (hhigh : isHigh p o = false) (hv : v < 2 ^ 32) :
    regWrite s r p o v = { effect s (written s p o v) r p o (rd s p o).toNat (reached row v) with resp := .done } := by
  have hl : (isLow p o && writable p o) = false := by simp [isLow, hrow, hlow]
  rw [regWrite_opened v (by omega) hopen (lockedOut_low s r p o ho) (by omega) hl hhigh, Nat.mod_eq_of_lt hv, putWord_row hrow, if_neg htest]
  rfl

theorem effect_block {s0 : State} {i : PageInfo} (hp : pageInfo p = some i) (ho : 0x100 ≤ o) (ho' : o < 0xF00) (old w : Nat) :
    effect s0 s r p o old w = blockEffect s0 s r p i o old w (rd s p o).toNat := by
  unfold effect
  simp only [hp, if_neg (Nat.not_lt.mpr ho), if_neg (show o ≠ 0xF04 by omega)]
theorem effect_head {s0 : State} (ho : o < 0x100) (old w : Nat) :
    effect s0 s r p o old w = headEffect s r p o old w (rd s p o).toNat := by
  unfold effect
  simp only [if_pos ho]

/-- A bit of the register as a write has left it. -/
theorem bitOf_written (hrow : regRow p o = some row) (v : Nat) {b : Nat} (hb : b < 32) (hrw : (row.rw ||| row.rws).testBit b = true) :
    bitOf (rd (written s p o v) p o).toNat b = v.testBit b := by
  have h : bitAt (written s p o v) p o b = v.testBit b := by
    simpa [hrw] using (Sys2Proof.writesStoreByAccessCode s p o v b row hrow hb).1
  exact h

end

end Sys2Proof.Machine
end

section
/-! PROOFS. Structure, clocks and power (chapter 01). -/

namespace Sys2Proof.Machine

/-! ### The die-to-die link (R13, R14) -/

section
variable {s : State} {seq : BitVec 16}

/-- While the link carries or replays, a flit is judged by the receiver of its direction. -/
theorem flit_of_carrying (h : s.d2d.st ≠ .retrain ∧ s.d2d.st ≠ .down) (dir : D2dDir) (ok : Bool) :
    flit s dir seq ok =
      if ok ∧ seq = (match dir with | .toCor => s.d2d.expToCor | .toFld => s.d2d.expToFld) then
        if (flitGood s.d2d dir).st = .replay ∧ !(flitGood s.d2d dir).repCor ∧ !(flitGood s.d2d dir).repFld then
          d2dResume { s with d2d := flitGood s.d2d dir } else { s with d2d := flitGood s.d2d dir }
      else { s with d2d := flitBad s.d2d dir } := by
  unfold flit
  exact if_neg (by simp [h])

end

theorem holds_addHold (s : State) (k : Nat × Nat) : (addHold s k).holds.contains k = true := by
  unfold addHold
  split
  · assumption
  · simp

theorem d2dDown_of_retrain {s : State} (h : s.d2d.st = .retrain) :
    (d2dDown s).d2d.st = .down ∧ (d2dDown s).holds.contains (scopeKey (4 * 4096), 0) = true := by
  unfold d2dDown
  rw [if_neg (by simp [h])]
  exact ⟨by simp, holds_addHold _ _⟩

end Sys2Proof.Machine

namespace Sys2Proof
open Sys2Proof.Machine

/-- Settles O9: by the state of the link and by which receivers replay. -/
theorem dieToDieLink : Obligations.DieToDieLink := by
  unfold Obligations.DieToDieLink
  refine ⟨fun s seq e hst hseq => completes ?_, fun s seq e hst hseq => completes ?_,
    fun s seq e hst hrep hseq => completes ?_, fun s seq ok e hst hrep hbad => completes ?_,
    fun s seq ok e hst hrep hbad => completes ?_, fun s seq ok e hst hrep hbad => completes ?_,
    fun s seq ok e hst hrep hbad => completes ?_, fun s hst hf => ?_, fun s hst => ?_, fun s hst => ?_, fun s hst => ?_⟩
  · have hc : s.d2d.st ≠ .retrain ∧ s.d2d.st ≠ .down := by rcases hst with h | ⟨h, -⟩ <;> simp [h]
    rw [flit_of_carrying hc]
    rcases hst with h | ⟨h, h'⟩ <;> simp [flitGood, hseq, h]
    simp [h']
  · have hc : s.d2d.st ≠ .retrain ∧ s.d2d.st ≠ .down := by rcases hst with h | ⟨h, -⟩ <;> simp [h]
    rw [flit_of_carrying hc]
    rcases hst with h | ⟨h, h'⟩ <;> simp [flitGood, hseq, h]
    simp [h']
  · rw [flit_of_carrying (by simp [hst])]
    simp [flitGood, hseq, hst, hrep, d2dResume]
  · have hc : s.d2d.st ≠ .retrain ∧ s.d2d.st ≠ .down := by rcases hst with h | h <;> simp [h]
    rw [flit_of_carrying hc, if_neg (by rcases hbad with h | h <;> simp [h])]
    simp [flitBad, hrep]
  · have hc : s.d2d.st ≠ .retrain ∧ s.d2d.st ≠ .down := by rcases hst with h | h <;> simp [h]
    rw [flit_of_carrying hc, if_neg (by rcases hbad with h | h <;> simp [h])]
    simp [flitBad, hrep]
  · rw [flit_of_carrying (by simp [hst]), if_neg (by rcases hbad with h | h <;> simp [h])]
    simp [flitBad, hrep]
  · rw [flit_of_carrying (by simp [hst]), if_neg (by rcases hbad with h | h <;> simp [h])]
    simp [flitBad, hrep]
  · have h : retrain s = { s with d2d := { s.d2d with st := .retrain } } := if_pos ⟨hst, hf⟩
    exact completes h
  · have h : retrainDone s = d2dResume s := if_pos hst
    exact completes h
  · exact ⟨rfl, d2dDown_of_retrain hst⟩
  · have h : d2dReturn s = resetScope { s with d2d := {} } (.region 4) := if_neg (by simp [hst])
    exact completes h

end Sys2Proof
end

section
/-! PROOFS. The reference clock, and the PCIe link (R24, R25, R34). -/

namespace Sys2Proof.Machine

/-! ### Fields of two and three bits -/

theorem bitsOf_1_0 (n : Nat) : bitsOf n 1 0 = b2n (n.testBit 0) + 2 * b2n (n.testBit 1) := by
  simp only [bitsOf, Nat.testBit_eq_decide_div_mod_eq, b2n, Nat.shiftRight_zero]
  split <;> split <;> simp_all <;> omega
theorem bitsOf_2_0 (n : Nat) : bitsOf n 2 0 = b2n (n.testBit 0) + 2 * b2n (n.testBit 1) + 4 * b2n (n.testBit 2) := by
  simp only [bitsOf, Nat.testBit_eq_decide_div_mod_eq, b2n, Nat.shiftRight_zero]
  split <;> split <;> split <;> simp_all <;> omega
theorem fld_1_0 (s : State) (p o : Nat) : fld s p o 1 0 = b2n (bitAt s p o 0) + 2 * b2n (bitAt s p o 1) := bitsOf_1_0 _
theorem fld_2_0 (s : State) (p o : Nat) :
    fld s p o 2 0 = b2n (bitAt s p o 0) + 2 * b2n (bitAt s p o 1) + 4 * b2n (bitAt s p o 2) := bitsOf_2_0 _
theorem bitAt_congr {s t : State} {p o : Nat} (h : rd t p o = rd s p o) (b : Nat) : bitAt t p o b = bitAt s p o b := by
  unfold bitAt; rw [h]

/-! ### The reference clock (R24) -/

theorem rd_freezeServos (s : State) (p o : Nat) : rd (freezeServos s) p o = rd s p o :=
  rd_congr (by unfold freezeServos; exact forEach_regs (fun s k => by simp) s _) p o
/-- An escalation that reaches chip level writes the INSP page's notes alone. -/
theorem rd_chipNote (s : State) (region unit src code : Nat) {q w : Nat}
    (h : q * 4096 + w < inspPage * 4096 + 0x104 ∨ inspPage * 4096 + 0x124 < q * 4096 + w) :
    rd (chipNote s region unit src code) q w = rd s q w := by
  have hnote : rd (setBit (inc s inspPage 0x120) inspPage 0x124 region true) q w = rd s q w :=
    (rd_setBit_key _ _ _ _ _ _ _ (by omega)).trans (rd_inc_key _ _ _ _ _ (by omega))
  unfold chipNote wr64
  dsimp only
  split
  · exact hnote
  · rw [rd_wr_key _ _ _ _ _ _ (by omega), rd_wr_key _ _ _ _ _ _ (by omega), rd_wr_key _ _ _ _ _ _ (by omega)]
    exact hnote
/-- The escalation's region is marked as seen. -/
theorem bitAt_chipNote (s : State) {region : Nat} (unit src code : Nat) (h : region < 32) :
    bitAt (chipNote s region unit src code) inspPage 0x124 region = true := by
  have hnote : bitAt (setBit (inc s inspPage 0x120) inspPage 0x124 region true) inspPage 0x124 region = true := by
    rw [bitAt_setBit _ _ _ _ _ _ _ _ h, if_pos ⟨rfl, rfl⟩]
  unfold chipNote wr64
  dsimp only
  split
  · exact hnote
  · refine (bitAt_congr ?_ region).trans hnote
    rw [rd_wr_off _ _ _ _ _ (by decide), rd_wr_off _ _ _ _ _ (by decide), rd_wr_off _ _ _ _ _ (by decide)]

/-- The words of CK_REF's state, as its loss and its return set them. -/
theorem ckLost_eq {s : State} (h : bitAt s pwrPage 0x108 0 = false) : ∃ unit code, ckLost s = chipNote
    (raise (freezeServos (setBit (setBit s pwrPage 0x108 0 true) pwrPage 0x108 1 true)) pwrPage 0) 8 unit 0 code := by
  unfold ckLost
  rw [if_neg (by simp [h])]
  exact ⟨_, _, rfl⟩
theorem ckRelock_eq {s : State} (h : bitAt s pwrPage 0x108 1 = true) : ckRelock s =
    raise (setBit (setBit (setBit s pwrPage 0x108 0 false) pwrPage 0x108 1 false) pwrPage 0x108 2 true) pwrPage 1 :=
  if_neg (by simp [h])
theorem ckLost_shows {s : State} (h : bitAt s pwrPage 0x108 0 = false) :
    fld (ckLost s) pwrPage 0x108 1 0 = 3 ∧ bitAt (ckLost s) pwrPage 0x020 0 = true ∧ bitAt (ckLost s) inspPage 0x124 8 = true := by
  obtain ⟨unit, code, he⟩ := ckLost_eq h
  rw [he]
  refine ⟨?_, ?_, bitAt_chipNote _ _ _ _ (by decide)⟩
  · have hrd := fun b => bitAt_congr ((rd_chipNote (raise (freezeServos (setBit (setBit s pwrPage 0x108 0 true) pwrPage 0x108 1 true)) pwrPage 0)
      8 unit 0 code (q := pwrPage) (w := 0x108) (by decide)).trans ((rd_raise _ _ _ _ _ _ _ _ (by decide)).trans (rd_freezeServos _ _ _))) b
    rw [fld_1_0, hrd, hrd]
    simp [bitAt_setBit, b2n]
  · rw [bitAt_congr (rd_chipNote _ _ _ _ _ (by decide)), bitAt_raise_cause _ _ _ _ _ _ _ (by decide)]
    rfl
theorem ckRelock_shows {s : State} (h : bitAt s pwrPage 0x108 1 = true) :
    fld (ckRelock s) pwrPage 0x108 2 0 = 4 ∧ bitAt (ckRelock s) pwrPage 0x020 1 = true := by
  rw [ckRelock_eq h]
  refine ⟨?_, by rw [bitAt_raise_cause _ _ _ _ _ _ _ (by decide)]; rfl⟩
  have hrd := fun b => bitAt_congr (rd_raise (setBit (setBit (setBit s pwrPage 0x108 0 false) pwrPage 0x108 1 false) pwrPage 0x108 2 true)
    pwrPage 1 0 0 0 pwrPage 0x108 (by decide)) b
  rw [fld_2_0, hrd, hrd, hrd]
  simp [bitAt_setBit, b2n]

/-- Custody hold stands with its cause, and the CUSTODY_HOLD pin is driven (R287). -/
theorem enterHold_holds (s : State) (cause : Nat) : (enterHold s cause).mode = .custodyHold ∧
    rd (enterHold s cause) pwrPage 0x10C = BitVec.ofNat 32 cause ∧ (enterHold s cause).pins.custodyHold = true :=
  ⟨rfl, rd_wr_same _ _ _ _, rfl⟩
theorem powerFail_enters (s : State) (journal hold : Nat) : ∃ u, powerFail s journal hold = enterHold u hold := ⟨_, rfl⟩
theorem ckGone_holds {s : State} (h : bitAt s pwrPage 0x108 1 = true) (hrun : s.mode = .run) : ∃ u, ckGone s = enterHold u 2 := by
  unfold ckGone
  rw [if_neg (by simp [h, hrun])]
  dsimp only
  split
  · exact ⟨_, rfl⟩
  · exact powerFail_enters _ _ _

/-! ### PCIe (R25, R34, R424) -/

theorem hostReset_run {s : State} (h : s.mode = .run) : hostReset s = resetScope s (.region 8) := if_pos h
/-- Where no ring index waits to be read, PCIe coming to life reads none. -/
theorem hostResume_of_none {s : State} (hcq : ∀ e ∈ s.cqs, e.2.readDue = false) (hsq : ∀ e ∈ s.sqs, e.2.readDue = false) : hostResume s = s := by
  have hs : s.sqs.filter (fun e => e.2.readDue) = [] := List.filter_eq_nil_iff.mpr fun e he => by simp [hsq e he]
  have hc : s.cqs.filter (fun e => e.2.readDue) = [] := List.filter_eq_nil_iff.mpr fun e he => by simp [hcq e he]
  simp only [hostResume, hs, List.map_nil, forEach_nil, hc, ite_self]
/-- Where no completion is held and no ring index waits, the host's settings change nothing else. -/
theorem configPower_of_none {s : State} (bme d3hot : Bool) (hup : s.pcie.linkUp = true) (hon : domOn s 170 = true)
    (hcq : ∀ e ∈ s.cqs, (cqRing s e.1).held = [] ∧ e.2.readDue = false) (hsq : ∀ e ∈ s.sqs, e.2.readDue = false) :
    configPower s bme d3hot = { s with pcie := { s.pcie with bme := bme, d3hot := d3hot } } := by
  unfold configPower
  rw [if_pos (by simp [hup, hon])]
  have hdrain : forEach { s with pcie := { s.pcie with bme := bme, d3hot := d3hot } } (s.cqs.map (·.1)) (fun s n => drainCq s n (cqRing s n).held.length) =
      { s with pcie := { s.pcie with bme := bme, d3hot := d3hot } } := by
    refine forEach_fixed fun n hn => ?_
    obtain ⟨e, he, rfl⟩ := List.mem_map.mp hn
    have hheld : (cqRing { s with pcie := { s.pcie with bme := bme, d3hot := d3hot } } e.1).held = [] := (hcq e he).1
    rw [hheld]
    rfl
  dsimp only
  rw [hdrain]
  exact hostResume_of_none (fun e he => (hcq e he).2) hsq

end Sys2Proof.Machine

namespace Sys2Proof
open Sys2Proof.Machine

/-- Settles O10. -/
theorem referenceClock : Obligations.ReferenceClock := by
  unfold Obligations.ReferenceClock
  refine ⟨fun s h => ⟨rfl, ckLost_shows h⟩, fun s h => ⟨rfl, ckRelock_shows h⟩, fun s h hrun => ⟨rfl, ?_⟩⟩
  obtain ⟨u, hu⟩ := ckGone_holds h hrun
  rw [hu]
  exact enterHold_holds u 2

/-- Settles O11. -/
theorem pcieLinkAndHostReset : Obligations.PcieLinkAndHostReset := by
  unfold Obligations.PcieLinkAndHostReset
  refine ⟨fun s => rfl, fun s speed width => rfl, fun s speed width h => ?_, fun s h => ?_, fun s h hup hon => ?_,
    fun s bme d3hot hup hon hcq hsq => completes (configPower_of_none bme d3hot hup hon hcq hsq)⟩
  · exact completes (hostReset_run h)
  · exact completes (hostReset_run h)
  · exact completes ((if_pos (by simp [hup, hon])).trans (hostReset_run h))

end Sys2Proof
end

section
/-! PROOFS. Power domains (R27 to R31, R573). -/

namespace Sys2Proof.Machine

/-! ### Domains (R27 to R31, R573) -/

@[simp] theorem domOf_setDom_same (s : State) (d : Nat) (x : Dom) : domOf (setDom s d x) d = x := mapGet_mapSet_same _ _ _ _
theorem domOf_setDom_other (s : State) {d e : Nat} (x : Dom) (h : e ≠ d) : domOf (setDom s d x) e = domOf s e := mapGet_mapSet_other _ _ _ h
theorem domOf_setDom (s : State) (d e : Nat) (x : Dom) : domOf (setDom s d x) e = if e = d then x else domOf s e := by
  split
  · next h => rw [h, domOf_setDom_same]
  · next h => exact domOf_setDom_other s x h
/-- What a domain waits for has no part in whether it stays ON. -/
theorem staysOn_setDom_pending (s : State) (d : Nat) (t : Option PwrState) (e : Nat) :
    staysOn (setDom s d { domOf s d with pending := t }) e = staysOn s e := by
  unfold staysOn domOn
  rw [domOf_setDom]
  split
  · next h => rw [h]
  · rfl

section
variable {s : State} {p d : Nat} {t : PwrState} (hd : d < 176)
include hd

theorem powerReq_in_transition {u : PwrState} (h : (domOf s d).going = some u) :
    powerReq s p d t = setDom s d { domOf s d with pending := some t, reqPage := p } := by
  unfold powerReq
  rw [if_neg (Nat.not_le.mpr hd), h]
theorem powerReq_at_rest (h : (domOf s d).going = none) : powerReq s p d t = carryPower s p d t := by
  unfold powerReq
  rw [if_neg (Nat.not_le.mpr hd), h]

end

section
variable {s : State} {p d : Nat} {t : PwrState} (hst : (domOf s d).st = .on) (hne : (domOf s d).st ≠ t)
include hst hne

/-- A domain that is ON and free to go starts on its way; one that is not refuses. -/
theorem carryPower_on : carryPower s p d t =
    if domDrained (setDom s d { domOf s d with pending := none }) d ∧ !neededBy (setDom s d { domOf s d with pending := none }) d then
      setDom (setDom s d { domOf s d with pending := none }) d { domOf s d with pending := none, going := some t }
    else pwrRefuse (setDom s d { domOf s d with pending := none }) p := by
  unfold carryPower
  dsimp only
  rw [if_neg, if_pos hst]
  rintro (h | ⟨h, -⟩)
  · exact hne h.symm
  · rw [hst] at h
    cases h

end

/-- A request for ON is taken up in a GATED domain whose supporters stay ON. -/
theorem powerGo_gated_on {s : State} {d : Nat} (hgoing : (domOf s d).going = none) (hpend : (domOf s d).pending = some .on)
    (hst : (domOf s d).st = .gated) (hneeds : (domNeeds d).all (staysOn s) = true) : powerGo s d =
      setDom (setDom s d { domOf s d with pending := none }) d { domOf s d with pending := none, going := some .on } := by
  have hneeds' : (domNeeds d).all (staysOn (setDom s d { domOf s d with pending := none })) = true := by
    rw [← hneeds]
    exact congrArg _ (funext (staysOn_setDom_pending s d none))
  have hcarry : powerGo s d = carryPower s (domOf s d).reqPage d .on := by simp only [powerGo, hgoing, hpend]
  rw [hcarry, carryPower]
  dsimp only
  rw [if_neg (by simp [hst]), if_neg (by simp [hst]), if_pos (.inl rfl), if_neg (by simp [hneeds']), if_neg (by simp [hst, raises])]

/-- The end of a transition outside the pipeline halves and OFF. -/
theorem powerDone_eq {s : State} {d : Nat} {t : PwrState} (hpipe : d < 48 → d % 12 < 10) (hgoing : (domOf s d).going = some t)
    (ht : t = .gated ∨ t = .on) (hst : (domOf s d).st ≠ .off) : powerDone s d =
      let u := if (domOf s d).st = .on then fieldLower s d else s
      let v := setDom u d { domOf u d with st := t, going := none }
      if t = .on then fieldRetry (senseRestore v) else v := by
  have hp : ¬(d < 48 ∧ 10 ≤ d % 12) := fun ⟨h, h'⟩ => absurd (hpipe h) (by omega)
  rcases ht with rfl | rfl <;> simp only [powerDone, hgoing, if_neg hp, if_neg hst, if_true, reduceCtorEq, if_false]

/-! ### Power requests (R28, R48) -/

theorem pwrCode_lt (t : PwrState) : pwrCode t < 4 := by cases t <;> decide
theorem pwrOf_pwrCode (t : PwrState) {v : Nat} (h : v % 4 = pwrCode t) : pwrOf v = t := by
  unfold pwrOf
  rw [h]
  cases t <;> rfl

section
variable {s : State} {r : Requester} {p o : Nat} {row : RegRow} (hopen : opened s r p o = true) (hrow : regRow p o = some row)
  (hrw : row.rw = 3) (hrws : row.rws = 0)
include hrow hrw hrws

/-- The request is the whole of what the register stores. -/
theorem rewritten_request (t : PwrState) : rewritten s p o 3 (pwrCode t) = pwrCode t := by
  have h3 : ∀ n : Nat, n &&& 3 &&& (all32 ^^^ 3) = 0 := fun n => by rw [Nat.and_assoc]; exact Nat.and_zero n
  simp only [rewritten, hrow, hrw, hrws, Nat.or_zero, h3, Nat.zero_or]
  cases t <;> rfl
/-- The request as it then stands. -/
theorem pwrOf_written (t : PwrState) : pwrOf (rd (written s p o (pwrCode t)) p o).toNat = t := by
  have hbit : ∀ b < 2, bitOf (rd (written s p o (pwrCode t)) p o).toNat b = (pwrCode t).testBit b := fun b hb =>
    bitOf_written hrow _ (by omega) (by rw [hrw, hrws]; cases b, hb using lt_two_cases <;> rfl)
  refine pwrOf_pwrCode t ?_
  have h := bitsOf_1_0 (rd (written s p o (pwrCode t)) p o).toNat
  rw [show (rd (written s p o (pwrCode t)) p o).toNat.testBit 0 = _ from hbit 0 (by decide),
    show (rd (written s p o (pwrCode t)) p o).toNat.testBit 1 = _ from hbit 1 (by decide)] at h
  refine Eq.trans h ?_
  cases t <;> rfl
include hopen

theorem regUpdate_request (ho : o < 0xF00) (htest : ¬(0x050 ≤ o ∧ o < 0x060)) (hlow : row.wide = false) (hhigh : isHigh p o = false) (t : PwrState) :
    regUpdate s r p o 3 (pwrCode t) = { effect s (written s p o (pwrCode t)) r p o (rd s p o).toNat (reached row (pwrCode t)) with resp := .done } := by
  rw [regUpdate, rewritten_request hrow hrw hrws,
    regWrite_row hopen hrow ho htest hlow hhigh (Nat.lt_trans (pwrCode_lt t) (by decide))]

end

/-- The rows of the header and of the domain words of a region header page. -/
theorem isHigh_of_row {p o : Nat} {row : RegRow} (h : regRow p (o - 4) = some row) (hw : row.wide = false) : isHigh p o = false := by
  simp [isHigh, isLow, h, hw]
theorem header_domain {g : Nat} (hg : g < 10) : ∃ i, pageInfo (g * 4096) = some i ∧ i.kind = .header ∧ i.region = g := by
  have hkind : ∀ g < 10, (pageInfo (g * 4096)).map (fun i => (i.kind, i.region)) = some (.header, g) := by decide +kernel
  obtain ⟨i, hi, hkind⟩ := Option.map_eq_some_iff.mp (hkind g hg)
  exact ⟨i, hi, congrArg Prod.fst hkind, congrArg Prod.snd hkind⟩
theorem regRow_domain {g k : Nat} (hg : g < 10) (hk : k < (regionDomains g).2) :
    ∃ row, regRow (g * 4096) (0x100 + 4 * k) = some row ∧ row.rw = 3 ∧ row.rws = 0 ∧ row.wide = false ∧ isHigh (g * 4096) (0x100 + 4 * k) = false := by
  have h : ∀ g < 10, ∀ k < (regionDomains g).2, ((regRow (g * 4096) (0x100 + 4 * k)).any fun row => row.rw == 3 && row.rws == 0 && !row.wide) &&
      !isHigh (g * 4096) (0x100 + 4 * k) := by decide +kernel
  have h := h g hg k hk
  simp only [Bool.and_eq_true, Option.any_eq_true, beq_iff_eq, Bool.not_eq_true'] at h
  obtain ⟨⟨row, hrow, ⟨hrw, hrws⟩, hw⟩, hh⟩ := h
  exact ⟨row, hrow, hrw, hrws, hw, hh⟩

end Sys2Proof.Machine

namespace Sys2Proof
open Sys2Proof.Machine

/-- Settles O12. -/
theorem powerTransitions : Obligations.PowerTransitions := by
  unfold Obligations.PowerTransitions
  refine ⟨fun s r p t h => ?_, fun s r g k t hg hk h => ?_, fun s p d t hd hgoing hne hst hdrain hneed => ?_,
    fun s p d t hd hgoing hne hst h => ?_, fun s p d t u hd h => powerReq_in_transition hd h,
    fun s d hd hgoing hpend hst hneeds => ?_, fun s d hd hpipe hgoing hst => ?_, fun s d hd hpipe hgoing hst => ?_,
    fun s d hd hpipe hgoing hst => ?_⟩
  · obtain ⟨i, hi⟩ := pageInfo_of_opened (by decide) h
    have hrow : regRow p.toNat 0x00C = some { off := 0x00C, rw := 0x3, reset := 0x33 } := regRow_header hi (by decide)
    have hhigh : isHigh p.toNat 0x00C = false := isHigh_of_row (regRow_header hi (by decide)) rfl
    refine completes ?_
    rw [regUpdate_request h hrow rfl rfl (by decide) (by decide) rfl hhigh, effect_head (by decide)]
    exact congrArg (fun t => { powerReq (written s p.toNat 0x00C _) p.toNat (pageDom p.toNat) t with resp := .done }) (pwrOf_written hrow rfl rfl t)
  · obtain ⟨row, hrow, hrw, hrws, hwide, hhigh⟩ := regRow_domain hg hk
    obtain ⟨i, hi, hkind, hregion⟩ := header_domain hg
    have hp : (BitVec.ofNat 16 (g * 4096)).toNat = g * 4096 := by rw [BitVec.toNat_ofNat]; omega
    have hk64 := k.isLt
    refine completes ?_
    rw [hp, regUpdate_request h hrow hrw hrws (by omega) (by omega) hwide hhigh, effect_block hi (by omega) (by omega)]
    have hidx : (0x100 + 4 * k.toNat - 0x100) / 4 = k.toNat := by omega
    have hin : 0x100 ≤ 0x100 + 4 * k.toNat ∧ 0x100 + 4 * k.toNat < 0x200 ∧ k.toNat < (regionDomains g).2 := ⟨by omega, by omega, hk⟩
    simp only [blockEffect, hkind, hregion, hidx, if_pos hin, pwrOf_written hrow hrw hrws]
  · rw [powerReq_at_rest hd hgoing, carryPower_on hst hne, if_pos ⟨hdrain, by simp [hneed]⟩]
    exact ⟨domOf_setDom_same _ _ _, rfl⟩
  · rw [powerReq_at_rest hd hgoing, carryPower_on hst hne, if_neg]
    · rfl
    · rcases h with h | h <;> simp [h]
  · have h := powerGo_gated_on hgoing hpend hst hneeds
    refine ⟨completes (if_pos (by simpa using hd)), ?_, ?_⟩
    · rw [h]; rfl
    · rw [h, domOf_setDom_same]
  · refine completes ((if_pos (by simpa using hd)).trans ?_)
    rw [powerDone_eq hpipe hgoing (.inl rfl) (by simp [hst])]
    simp [hst]
  · refine completes ((if_pos (by simpa using hd)).trans ?_)
    rw [powerDone_eq hpipe hgoing (.inr rfl) (by simp [hst])]
    simp [hst]
  · refine completes ((if_pos (by simpa using hd)).trans ?_)
    rw [powerDone_eq hpipe hgoing (.inl rfl) (by simp [hst])]
    simp [hst]

end Sys2Proof
end

section
/-! PROOFS. PG_CTL and the resets that it starts (R33, R45, R67). -/

namespace Sys2Proof.Machine

/-! ### PG_CTL (R33, R45, R67) -/

/-- The row of PG_CTL: enable, drain, isolate, soft_reset and hold_release. -/
abbrev ctlRow : RegRow := { off := 0x010, rw := 0x7, w1s := 0x18, reset := 0x1 }

/-- The three bits of PG_CTL that stay as written. -/
theorem ctl_low_bits (n : Nat) : ∃ m < 8, n &&& (7 ||| 0) = m ∧ bitsOf n 2 0 = m ∧ bitsOf n 2 1 = m / 2 := by
  refine ⟨n % 8, Nat.mod_lt _ (by decide), Nat.and_two_pow_sub_one_eq_mod n 3, rfl, ?_⟩
  simp only [bitsOf, Nat.shiftRight_eq_div_pow]
  omega

section
variable {s : State} {r : Requester} {p : Nat} (h : opened s r p 0x010 = true)
include h

theorem regRow_ctl : regRow p 0x010 = some ctlRow := by
  obtain ⟨i, hi⟩ := pageInfo_of_opened (by decide) h
  exact regRow_header hi (by decide)
/-- What software writes back to PG_CTL, from the three bits that it reads there. -/
theorem rewritten_ctl (mask v : Nat) : rewritten s p 0x010 mask v = (bitsOf (rd s p 0x010).toNat 2 0 &&& (all32 ^^^ mask)) ||| (v &&& mask) := by
  obtain ⟨m, -, hand, hlow, -⟩ := ctl_low_bits (rd s p 0x010).toNat
  simp only [rewritten, regRow_ctl h, hand, hlow]
/-- R45: PG_CTL written: a datapath that stops loses its frames, hold_release and soft_reset act. -/
theorem regWrite_ctl {v : Nat} (hv : v < 2 ^ 32) : regWrite s r p 0x010 v =
    { (let hit (q : Nat) : Bool := if ((pageInfo p).map (fun i => i.kind.cellPage)).getD false then q == p else (siblings p).contains q
       let u := if bitAt s p 0x010 0 ∧ !v.testBit 0 then discardWork (written s p 0x010 v) 0xE1 hit else written s p 0x010 v
       let u := if v.testBit 4 then holdEnds u p else u
       if v.testBit 3 then resetScope u (softScope p) else u) with resp := .done } := by
  have hrow := regRow_ctl h
  obtain ⟨i, hi⟩ := pageInfo_of_opened (by decide) h
  have hhigh : isHigh p 0x010 = false := isHigh_of_row (regRow_header hi (by decide)) rfl
  have hon : bitOf (rd (written s p 0x010 v) p 0x010).toNat 0 = v.testBit 0 := bitOf_written hrow v (by decide) rfl
  have hhold : bitOf (reached ctlRow v) 4 = v.testBit 4 := by rw [bitOf_reached hv]; exact Bool.and_true _
  have hreset : bitOf (reached ctlRow v) 3 = v.testBit 3 := by rw [bitOf_reached hv]; exact Bool.and_true _
  rw [regWrite_row h hrow (by decide) (by decide) rfl hhigh hv, effect_head (by decide)]
  simp only [headEffect, ctlEffect, hon, hhold, hreset]
  rfl
theorem regUpdate_ctl {mask v : Nat} (hm : mask < 2 ^ 32) {n : Nat}
    (hn : (bitsOf (rd s p 0x010).toNat 2 0 &&& (all32 ^^^ mask)) ||| (v &&& mask) = n) : regUpdate s r p 0x010 mask v = regWrite s r p 0x010 n ∧ n < 2 ^ 32 := by
  rw [← rewritten_ctl h] at hn
  exact ⟨congrArg (regWrite s r p 0x010) hn, hn ▸ rewritten_lt s p 0x010 v hm⟩
/-- A write that does not stop the datapath. -/
theorem regWrite_ctl_running {v : Nat} (hv : v < 2 ^ 32) (hon : bitAt s p 0x010 0 = true → v.testBit 0 = true) : regWrite s r p 0x010 v =
    { (let u := if v.testBit 4 then holdEnds (written s p 0x010 v) p else written s p 0x010 v
       if v.testBit 3 then resetScope u (softScope p) else u) with resp := .done } := by
  have hgo : ¬(bitAt s p 0x010 0 = true ∧ (!v.testBit 0) = true) := fun ⟨h0, h1⟩ => by simp [hon h0] at h1
  rw [regWrite_ctl h hv]
  simp only [if_neg hgo]
theorem regWrite_ctl_plain {v : Nat} (hv : v < 2 ^ 32) (hon : bitAt s p 0x010 0 = true → v.testBit 0 = true) (h3 : v.testBit 3 = false)
    (h4 : v.testBit 4 = false) : regWrite s r p 0x010 v = { written s p 0x010 v with resp := .done } := by
  rw [regWrite_ctl_running h hv hon]
  simp only [h3, h4, Bool.false_eq_true, if_false]

end

theorem bitAt_ctl (s : State) (p : Nat) {b : Nat} (hb : b < 3) : bitAt s p 0x010 b = (bitsOf (rd s p 0x010).toNat 2 0).testBit b := by
  rw [testBit_bitsOf, Nat.zero_add]
  simp [bitAt, hb]

/-! ### The end of HOLD (R67) -/

theorem mem_onesFrom {w i n b : Nat} : b ∈ onesFrom w i n ↔ i ≤ b ∧ b < i + w ∧ n.testBit (b - i) = true := by
  induction w generalizing i n with
  | zero => simp only [onesFrom, List.not_mem_nil, false_iff]; omega
  | succ w ih =>
    have hstep : b ∈ onesFrom (w + 1) i n ↔ (b = i ∧ n % 2 = 1) ∨ b ∈ onesFrom w (i + 1) (n / 2) := by
      rw [onesFrom]
      split
      · next h => simp [h]
      · next h => simp [h]
    rw [hstep, ih]
    rcases Nat.lt_trichotomy b i with h | rfl | h
    · simp only [Nat.ne_of_lt h, false_and, false_or]; omega
    · rw [Nat.sub_self, Nat.testBit_zero, decide_eq_true_iff]
      exact ⟨fun h => h.elim (fun h => ⟨Nat.le_refl b, by omega, h.2⟩) (fun h => absurd h.1 (by omega)), fun h => .inl ⟨rfl, h.2.2⟩⟩
    · obtain ⟨k, rfl⟩ := Nat.exists_eq_add_of_lt h
      rw [show i + k + 1 - i = k + 1 by omega, show i + k + 1 - (i + 1) = k by omega, Nat.testBit_succ]
      constructor
      · rintro (⟨h, -⟩ | ⟨-, h, hb⟩)
        · omega
        · exact ⟨by omega, by omega, hb⟩
      · rintro ⟨-, h, hb⟩
        exact .inr ⟨by omega, by omega, hb⟩
theorem mem_onesOf {w n b : Nat} : b ∈ onesOf w n ↔ b < w ∧ n.testBit b = true := by
  simp [onesOf, mem_onesFrom]

/-- R67: HOLD ends where no unmasked cause of severity HOLD is left. -/
theorem holdEnds_of_none {s : State} {p : Nat} (h : ∀ b < 32, bitAt s p 0x020 b = true → bitAt s p 0x024 b = true ∨ sevOf s p b ≠ 2) :
    holdEnds s p = { s with holds := s.holds.filter (fun k => k.1 != scopeKey p) } := by
  unfold holdEnds
  dsimp only
  rw [if_neg]
  rw [Bool.not_eq_true, List.any_eq_false]
  intro b hb
  obtain ⟨hb32, hset⟩ := mem_onesOf.mp hb
  rcases h b hb32 hset with hm | hs
  · have hm : (rd s p 0x024).toNat.testBit b = true := hm
    simp [hm]
  · simp [hs]

/-! ### PWR_WARM (R37) -/

theorem regWrite_warm {s : State} {r : Requester} (h : opened s r pwrPage 0x100 = true) (v : Word) :
    regWrite s r pwrPage 0x100 v.toNat = { warmEffect (written s pwrPage 0x100 v.toNat) v.toNat with resp := .done } := by
  have hrow : regRow pwrPage 0x100 = some { off := 0x100, wo := all32 } := by decide +kernel
  rw [regWrite_row h hrow (by decide) (by decide) rfl (by decide +kernel) v.isLt, reached_of_wo v.isLt rfl]
  rfl

end Sys2Proof.Machine

namespace Sys2Proof
open Sys2Proof.Machine

/-- Settles O13. -/
theorem pageControl : Obligations.PageControl := by
  unfold Obligations.PageControl
  refine ⟨fun s r p h hon => completes ?_, fun s r p h => completes ?_, fun s r p on h => completes ?_, fun s r p on h => completes ?_,
    fun s r p h => completes ?_, fun s r p h => completes ?_, fun s p h => holdEnds_of_none h, fun s r v h hv => completes ?_,
    fun s r v h hv => completes ?_, fun s c hc => ⟨rfl, ?_⟩⟩
  · obtain ⟨m, hm8, -, hlow, hhigh⟩ := ctl_low_bits (rd s p.toNat 0x010).toNat
    obtain ⟨hw, hv⟩ := regUpdate_ctl (mask := 1) (v := b2n false) (n := bitsOf (rd s p.toNat 0x010).toNat 2 1 * 2) h (by decide)
      (by rw [hlow, hhigh]; cases m, hm8 using lt_eight_cases <;> rfl)
    rw [hw, regWrite_ctl h hv, hhigh]
    have h0 : (m / 2 * 2).testBit 0 = false ∧ (m / 2 * 2).testBit 3 = false ∧ (m / 2 * 2).testBit 4 = false := by cases m, hm8 using lt_eight_cases <;> decide
    simp [hon, h0]
  · obtain ⟨m, hm8, -, hlow, hhigh⟩ := ctl_low_bits (rd s p.toNat 0x010).toNat
    obtain ⟨hw, hv⟩ := regUpdate_ctl (mask := 1) (v := b2n true) (n := bitsOf (rd s p.toNat 0x010).toNat 2 1 * 2 + 1) h (by decide)
      (by rw [hlow, hhigh]; cases m, hm8 using lt_eight_cases <;> rfl)
    have h0 : (m / 2 * 2 + 1).testBit 0 = true ∧ (m / 2 * 2 + 1).testBit 3 = false ∧ (m / 2 * 2 + 1).testBit 4 = false := by
      cases m, hm8 using lt_eight_cases <;> decide
    rw [hw]
    rw [hhigh] at hv ⊢
    exact regWrite_ctl_plain h hv (fun _ => h0.1) h0.2.1 h0.2.2
  · obtain ⟨m, hm8, -, hlow, -⟩ := ctl_low_bits (rd s p.toNat 0x010).toNat
    obtain ⟨hw, hv⟩ := regUpdate_ctl (mask := 2) (v := b2n on * 2) (n := withBits (bitsOf (rd s p.toNat 0x010).toNat 2 0) 1 1 (b2n on)) h (by decide)
      (by rw [hlow]; cases on <;> cases m, hm8 using lt_eight_cases <;> rfl)
    rw [hw]
    refine regWrite_ctl_plain h hv (fun h0 => ?_) ?_ ?_
    · rw [bitAt_ctl _ _ (by decide)] at h0
      rw [testBit_withBits _ _ _ _ _ (by decide), if_neg (by decide)]
      exact h0
    · rw [hlow]; cases on <;> cases m, hm8 using lt_eight_cases <;> rfl
    · rw [hlow]; cases on <;> cases m, hm8 using lt_eight_cases <;> rfl
  · obtain ⟨m, hm8, -, hlow, -⟩ := ctl_low_bits (rd s p.toNat 0x010).toNat
    obtain ⟨hw, hv⟩ := regUpdate_ctl (mask := 4) (v := b2n on * 4) (n := withBits (bitsOf (rd s p.toNat 0x010).toNat 2 0) 2 2 (b2n on)) h (by decide)
      (by rw [hlow]; cases on <;> cases m, hm8 using lt_eight_cases <;> rfl)
    rw [hw]
    refine regWrite_ctl_plain h hv (fun h0 => ?_) ?_ ?_
    · rw [bitAt_ctl _ _ (by decide)] at h0
      rw [testBit_withBits _ _ _ _ _ (by decide), if_neg (by decide)]
      exact h0
    · rw [hlow]; cases on <;> cases m, hm8 using lt_eight_cases <;> rfl
    · rw [hlow]; cases on <;> cases m, hm8 using lt_eight_cases <;> rfl
  · obtain ⟨m, hm8, -, hlow, -⟩ := ctl_low_bits (rd s p.toNat 0x010).toNat
    obtain ⟨hw, hv⟩ := regUpdate_ctl (mask := 8) (v := 8) (n := bitsOf (rd s p.toNat 0x010).toNat 2 0 + 8) h (by decide)
      (by rw [hlow]; cases m, hm8 using lt_eight_cases <;> rfl)
    have h0 : (m + 8).testBit 0 = m.testBit 0 ∧ (m + 8).testBit 3 = true ∧ (m + 8).testBit 4 = false := by cases m, hm8 using lt_eight_cases <;> decide
    have hon := bitAt_ctl s p.toNat (b := 0) (by decide)
    rw [hlow] at hon hv
    rw [hw, hlow, regWrite_ctl_running h hv (fun h' => by rw [h0.1, ← hon]; exact h')]
    simp only [h0, Bool.false_eq_true, if_false, if_true]
  · obtain ⟨m, hm8, -, hlow, -⟩ := ctl_low_bits (rd s p.toNat 0x010).toNat
    obtain ⟨hw, hv⟩ := regUpdate_ctl (mask := 16) (v := 16) (n := bitsOf (rd s p.toNat 0x010).toNat 2 0 + 16) h (by decide)
      (by rw [hlow]; cases m, hm8 using lt_eight_cases <;> rfl)
    have h0 : (m + 16).testBit 0 = m.testBit 0 ∧ (m + 16).testBit 3 = false ∧ (m + 16).testBit 4 = true := by cases m, hm8 using lt_eight_cases <;> decide
    have hon := bitAt_ctl s p.toNat (b := 0) (by decide)
    rw [hlow] at hon hv
    rw [hw, hlow, regWrite_ctl_running h hv (fun h' => by rw [h0.1, ← hon]; exact h')]
    simp only [h0, Bool.false_eq_true, if_false, if_true]
  · have hkey : v.toNat = 0x57525354 := congrArg BitVec.toNat hv
    rw [regWrite_warm h, hkey]
    exact responds (if_pos rfl) _
  · have hkey : v.toNat ≠ 0x57525354 := fun h' => hv (BitVec.eq_of_toNat_eq h')
    rw [regWrite_warm h]
    exact responds (if_neg hkey) _
  · rintro q rfl
    exact if_neg (by rw [hc]; decide)

end Sys2Proof
end

section
/-! PROOFS. Register reads and writes of a requester, the bit aliases, and accesses that do not go through (R40, R50 to R56, R61). -/

namespace Sys2Proof.Machine

/-! ### Accesses that go through -/

section
variable {s : State} {r : Requester} {a p o : Nat} (hr : reach s r = true)
include hr

theorem busWrite_through {size : Nat} (hk : accKind s r a size = 0) (v : DWord) :
    busWrite s r a size v = { writeWords s r (a / 4096) (a % 4096) size v with resp := .done } := by
  unfold busWrite
  simp only [hr, Bool.not_true, Bool.false_eq_true, if_false, hk, ne_eq, not_true_eq_false]
theorem busRead_through {size : Nat} (hk : accKind s r a size = 0) :
    busRead s r a size = { (readWords s (regId r) (a / 4096) (a % 4096) size).2 with
      resp := .value (readWords s (regId r) (a / 4096) (a % 4096) size).1 } := by
  unfold busRead
  simp only [hr, Bool.not_true, Bool.false_eq_true, if_false, hk, ne_eq, not_true_eq_false]
theorem busWrite_refused {size k : Nat} (hk : accKind s r a size = k) (h0 : k ≠ 0) (v : DWord) : busWrite s r a size v = refuseAcc s r k a true := by
  unfold busWrite
  simp only [hr, Bool.not_true, Bool.false_eq_true, if_false, hk, ne_eq, h0, not_false_eq_true, if_true]
theorem busRead_refused {size k : Nat} (hk : accKind s r a size = k) (h0 : k ≠ 0) : busRead s r a size = refuseAcc s r k a false size := by
  unfold busRead
  simp only [hr, Bool.not_true, Bool.false_eq_true, if_false, hk, ne_eq, h0, not_false_eq_true, if_true]

end

section
variable {s : State} {r : Requester} {a p o : Nat} (ha : a = p * 4096 + o) (ho : o < 4096) (h : opened s r p o = true)
include ha ho h

theorem busWrite_opened (v : DWord) : busWrite s r a 4 v = { writeWord s r p o (v.toNat % 2 ^ 32) with resp := .done } := by
  subst ha
  rw [busWrite_through (reach_of_opened h) (accKind_of_opened h), addr_page p o ho, addr_off p o ho]
  rfl
theorem busRead_opened : busRead s r a 4 = { (readWord s (regId r) p o).2 with resp := .value ((readWord s (regId r) p o).1.setWidth 64) } := by
  subst ha
  rw [busRead_through (reach_of_opened h) (accKind_of_opened h), addr_page p o ho, addr_off p o ho]
  rfl

end

/-! ### Words written (R50, R52) -/

section
variable {s : State} {r : Requester} {p o v : Nat}

theorem writeWord_plain (ho : o < 0xF00) (hlow : isLow p o = false) (hhigh : isHigh p o = false) :
    writeWord s r p o v = putWord s r p o v all32 := by
  unfold writeWord
  rw [if_neg (by rw [lockedOut_low s r p o ho]; decide), if_neg (by omega), if_neg (by simp [hlow]), if_neg (by simp [hhigh])]
/-- R52: the low word waits in the shadow. -/
theorem writeWord_low (ho : o < 0xF00) (hlow : isLow p o = true) (hw : writable p o = true) :
    writeWord s r p o v = setWrShadow s (regId r) p (some (o + p * 4096, BitVec.ofNat 32 v)) := by
  unfold writeWord
  rw [if_neg (by rw [lockedOut_low s r p o ho]; decide), if_neg (by omega), if_pos ⟨hlow, hw⟩]
theorem commitPair_of_not_tb (hk : kindOf p ≠ some .tb) (lo hi : Nat) :
    commitPair s r p o lo hi = putWord (putWord s r p o lo all32) r p (o + 4) hi all32 := by
  unfold commitPair
  split
  · next h => exact absurd h hk
  · rfl

section
variable (ho : o + 4 < 0xF00) (hlow : isLow p o = true) (hnext : isLow p (o + 4) = false) (hw : writable p o = true)
include ho hlow hnext hw

/-- R52: the high word commits the low word that is held and itself. -/
theorem writeWord_high_held {low : Word} (hheld : wrShadowOf s (regId r) p = some (p * 4096 + o, low)) :
    writeWord s r p (o + 4) v = commitPair (setWrShadow s (regId r) p none) r p o low.toNat v := by
  unfold writeWord
  rw [if_neg (by rw [lockedOut_low s r p _ ho]; decide), if_neg (by omega), if_neg (by simp [hnext]), if_pos ⟨by simp [isHigh, hlow], .inr hw⟩, hheld]
  exact if_pos rfl
/-- R52: with no low word held it commits beside the live one. -/
theorem writeWord_high_none (hnone : wrShadowOf s (regId r) p = none) :
    writeWord s r p (o + 4) v = commitPair (logMiss s (regId r) (p * 4096 + (o + 4))) r p o (rd s p o).toNat v := by
  unfold writeWord
  rw [if_neg (by rw [lockedOut_low s r p _ ho]; decide), if_neg (by omega), if_neg (by simp [hnext]), if_pos ⟨by simp [isHigh, hlow], .inr hw⟩, hnone]
  exact congrArg (fun w => commitPair (logMiss s (regId r) (p * 4096 + (o + 4))) r p o w v) rfl

end
end

theorem data_low (v : DWord) : v.toNat % 2 ^ 32 < 2 ^ 32 := Nat.mod_lt _ (by decide)
theorem word_as_data (v : Word) : (v.setWidth 64).toNat % 2 ^ 32 = v.toNat := by
  rw [BitVec.toNat_setWidth]
  omega

/-! ### The MSI-X table and configuration space (R3, R423) -/

section
variable {s : State} {a : Nat} (ha : a % 4 = 0)
include ha

theorem spaceWrite_bar4 (h : spaceReach s .host .bar4 = true) (v : DWord) :
    spaceWrite s .host .bar4 a 4 v = { msixPut s a (v.toNat % 2 ^ 32) with resp := .done } := by
  unfold spaceWrite
  rw [if_neg (by decide), if_neg (by simp [h]), if_neg (by simp [spaceOpen, ha])]
  rfl
theorem spaceRead_config (h : spaceReach s .host .config = true) : spaceRead s .host .config a 4 =
    { (configWord s a).2 with resp := .value (BitVec.ofNat 64 ((configWord s a).1 % 2 ^ 32)) } := by
  unfold spaceRead
  rw [if_neg (by decide), if_neg (by simp [h]), if_neg (by simp [spaceOpen, ha])]
  rfl
theorem spaceRead_bar4 (h : spaceReach s .host .bar4 = true) : spaceRead s .host .bar4 a 4 =
    { s with resp := .value (BitVec.ofNat 64 (msixWord s a % 2 ^ 32)) } := by
  unfold spaceRead
  rw [if_neg (by decide), if_neg (by simp [h]), if_neg (by simp [spaceOpen, ha])]
  rfl

end

/-! ### Words read (R42, R51) -/

theorem parCheck_good {s : State} {p o : Nat} (h : s.parBad.contains (p * 1024 + o / 4) = false) : parCheck s p o = s := by
  unfold parCheck
  rw [h, Bool.and_false, if_neg Bool.false_ne_true]
theorem readPop_plain {s : State} {p o : Nat} (hinj : kindOf p ≠ some .injUnlock ∨ o < 0x100) (htio : kindOf p ≠ some .tio) : readPop s p o = s := by
  unfold readPop
  split
  · next h => exact if_neg (fun ho => by exact hinj.elim (fun h' => h' h) (fun h' => by omega))
  · next h => exact absurd h htio
  · rfl
theorem look_plain {s : State} {p o : Nat} (hipl : kindOf p ≠ some .ipl ∨ o ≠ 0x10C) (hfree : freeBits p o = none) : look s p o = (view s p o, s) := by
  unfold look
  rw [if_neg (fun h => hipl.elim (· h.1) (· h.2))]
  dsimp only
  rw [hfree]

/-- The row of a 64-bit register's low word is among its page's block rows. -/
theorem wide_blockRow {p o : Nat} {k : PageKind} (h : isLow p o = true) (hlo : 0x100 ≤ o) (hhi : o < 0xEF8) (hk : kindOf p = some k) :
    ∃ i : PageInfo, i.kind = k ∧ (findRow (blockRows i) o).any (·.wide) = true := by
  obtain ⟨i, hi, hik⟩ := Option.map_eq_some_iff.mp hk
  unfold isLow regRow at h
  simp only [hi] at h
  rw [if_neg (by omega), if_neg (by omega), if_neg (by omega), if_neg (by omega), if_pos hhi] at h
  refine ⟨i, hik, ?_⟩
  cases hf : findRow (blockRows i) o with
  | none => simp [hf] at h
  | some row => simpa [hf] using h
theorem not_isLow_of_rows {p o off : Nat} {k : PageKind} (h : isLow p o = true)
    (hrow : ∀ i : PageInfo, i.kind = k → (findRow (blockRows i) off).any (·.wide) = false) (hlo : 0x100 ≤ off) (hhi : off < 0xEF8)
    (hk : kindOf p = some k) : o ≠ off := by
  rintro rfl
  obtain ⟨i, hik, hw⟩ := wide_blockRow h hlo hhi hk
  rw [hrow i hik] at hw
  cases hw
theorem ipl_not_isLow {p o off : Nat} (h : isLow p o = true) (hoff : off = 0x100 ∨ off = 0x108 ∨ off = 0x10C) (hk : kindOf p = some .ipl) : o ≠ off :=
  not_isLow_of_rows h (fun i hi => by rcases hoff with rfl | rfl | rfl <;> simp only [blockRows, hi] <;> decide) (by omega) (by omega) hk
/-- The registers whose reads do more than answer are no 64-bit registers. -/
theorem plain_of_isLow {p o : Nat} (h : isLow p o = true) :
    (kindOf p ≠ some .ipl ∨ o ≠ 0x10C) ∧ freeBits p o = none ∧ (kindOf p ≠ some .bsc ∨ o ≠ 0x110) := by
  have hebk : kindOf p = some .ebk → o ≠ 0x11C :=
    not_isLow_of_rows h (fun i hi => by simp only [blockRows, hi]; decide) (by decide) (by decide)
  have hbsc : kindOf p = some .bsc → o ≠ 0x110 :=
    not_isLow_of_rows h (fun i hi => by simp only [blockRows, hi]; decide) (by decide) (by decide)
  refine ⟨Classical.or_iff_not_imp_left.mpr fun hk => ipl_not_isLow h (.inr (.inr rfl)) (Classical.not_not.mp hk), ?_,
    Classical.or_iff_not_imp_left.mpr fun hk => hbsc (Classical.not_not.mp hk)⟩
  unfold freeBits
  split
  · next hk => exact absurd rfl (ipl_not_isLow h (.inl rfl) hk)
  · next hk => exact absurd rfl (hebk hk)
  · rfl
theorem ipl_of_isLow {p o : Nat} (h : isLow p o = true) : kindOf p ≠ some .ipl ∨ o + 4 ≠ 0x10C :=
  Classical.or_iff_not_imp_left.mpr fun hk => fun ho => ipl_not_isLow h (.inr (.inl rfl)) (Classical.not_not.mp hk) (by omega)

section
variable {s : State} {p o id mask : Nat} (hpar : s.parBad.contains (p * 1024 + o / 4) = false)
  (hinj : kindOf p ≠ some .injUnlock ∨ o < 0x100) (htio : kindOf p ≠ some .tio)
include hpar hinj htio

/-- A word whose reading does nothing else answers, and its RC bits are cleared; a low word captures the high word. -/
theorem readWord_of_not_high (hhigh : isHigh p o = false) (ho : o < 0xF00) (hbsc : kindOf p ≠ some .bsc ∨ o ≠ 0x110)
    (hipl : kindOf p ≠ some .ipl ∨ o ≠ 0x10C) (hfree : freeBits p o = none) :
    readWord s id p o mask = (view s p o, if isLow p o then
      setRdShadow (clearRC s p o mask) id p (some (p * 4096 + o, view (clearRC s p o mask) p (o + 4))) else clearRC s p o mask) := by
  have htake : take s id p o = (view s p o, s) := by
    unfold take
    rw [if_neg (fun h => hbsc.elim (· h.1) (· h.2)), if_neg (by omega), look_plain hipl hfree]
  unfold readWord
  rw [parCheck_good hpar, readPop_plain hinj htio]
  dsimp only
  rw [if_neg (by simp [hhigh]), htake]
  split <;> rfl
/-- R51: the high word that was captured. -/
theorem readWord_high_held (hhigh : isHigh p o = true) {v : Word} (hheld : rdShadowOf s id p = some (p * 4096 + (o - 4), v)) :
    readWord s id p o mask = (v, s) := by
  unfold readWord
  rw [parCheck_good hpar, readPop_plain hinj htio]
  dsimp only
  rw [if_pos hhigh, hheld]
  exact if_pos rfl
theorem readWord_high_none (hhigh : isHigh p o = true) (hipl : kindOf p ≠ some .ipl ∨ o ≠ 0x10C) (hfree : freeBits p o = none)
    (hnone : rdShadowOf s id p = none) : readWord s id p o mask = (view s p o, logMiss s id (p * 4096 + o)) := by
  unfold readWord
  rw [parCheck_good hpar, readPop_plain hinj htio]
  dsimp only
  rw [if_pos hhigh, hnone, look_plain hipl hfree]
  rfl

end

theorem readsPlain_iff {p o : Nat} : readsPlain p o = true ↔ o < 0xF00 ∧ freeBits p o = none ∧ isLow p o = false ∧ isHigh p o = false ∧
    kindOf p ≠ some .injUnlock ∧ kindOf p ≠ some .tio ∧ kindOf p ≠ some .bsc ∧ (kindOf p ≠ some .ipl ∨ o ≠ 0x10C) := by
  simp only [readsPlain, Bool.and_eq_true, decide_eq_true_eq, Option.isNone_iff_eq_none, Bool.not_eq_true', and_assoc]

/-- R42: an RC bit that a read clears. -/
theorem bitAt_clearRC {s : State} {p o b mask : Nat} {row : RegRow} (hrow : regRow p o = some row) (hb : b < 32) :
    bitAt (clearRC s p o mask) p o b = (bitAt s p o b && !(row.rc.testBit b && mask.testBit b)) := by
  have hzero : row.rc &&& mask = 0 → (row.rc.testBit b && mask.testBit b) = false := fun h => by
    rw [← Nat.testBit_and, h, Nat.zero_testBit]
  unfold clearRC
  simp only [hrow]
  split
  · next h => simp [hzero h]
  · rw [bitAt_of_rd (rd_wr_same _ _ _ _) hb]
    simp only [Nat.testBit_and, Nat.testBit_xor, testBit_all32 hb, bitAt, Bool.true_xor]

/-! ### The access log (R54) -/

theorem fld_setFld_same (s : State) (p o hi lo n : Nat) (h : lo ≤ hi) (hw : hi < 32) : fld (setFld s p o hi lo n) p o hi lo = n % 2 ^ (hi + 1 - lo) := by
  refine Nat.eq_of_testBit_eq fun i => ?_
  rw [fld, testBit_bitsOf, Nat.testBit_mod_two_pow]
  by_cases hi' : i < hi + 1 - lo
  · have hb : bitAt (setFld s p o hi lo n) p o (lo + i) = n.testBit (lo + i - lo) := by
      rw [bitAt_setFld _ _ _ _ _ _ _ _ _ h hw, if_pos ⟨rfl, by omega, by omega⟩]
    rw [Nat.add_sub_cancel_left] at hb
    simp only [hi', decide_true, Bool.true_and]
    exact hb
  · simp [hi']
/-- A field whose bits all stay, stays. -/
theorem fld_congr_bits {s t : State} {p o q w hi lo : Nat} (h : ∀ i < hi + 1 - lo, bitAt t p o (lo + i) = bitAt s q w (lo + i)) :
    fld t p o hi lo = fld s q w hi lo := by
  refine Nat.eq_of_testBit_eq fun i => ?_
  rw [fld, fld, testBit_bitsOf, testBit_bitsOf]
  by_cases hi' : i < hi + 1 - lo
  · simp only [hi', decide_true, Bool.true_and]
    exact h i hi'
  · simp [hi']
theorem fld_congr {s t : State} {p o : Nat} (h : rd t p o = rd s p o) (hi lo : Nat) : fld t p o hi lo = fld s p o hi lo := by
  unfold fld; rw [h]

/-- The log writes registers alone. -/
theorem logAcc_only (s : State) (kind id addr : Nat) : ∃ r, logAcc s kind id addr = { s with regs := r } := by
  unfold logAcc
  split
  · exact ⟨s.regs, rfl⟩
  · dsimp only
    split
    · exact ⟨_, rfl⟩
    · exact ⟨_, rfl⟩
theorem logAcc_boot (s : State) (kind id addr : Nat) : (logAcc s kind id addr).boot = s.boot := by
  obtain ⟨r, h⟩ := logAcc_only s kind id addr
  rw [h]

section
variable {s : State} (hon : domOn s 173 = true)
include hon

theorem logAcc_first (hfree : bitAt s intcPage 0x104 0 = false) (kind id addr : Nat) : logAcc s kind id addr =
    wr (setFld (setFld (inc s intcPage 0x10C) intcPage 0x104 3 0 (1 + 2 * kind)) intcPage 0x104 15 8 id) intcPage 0x108 (BitVec.ofNat 32 addr) := by
  have hinc : bitAt (inc s intcPage 0x10C) intcPage 0x104 0 = false := (bitAt_congr (rd_inc_key _ _ _ _ _ (by decide)) 0).trans hfree
  unfold logAcc
  rw [if_neg (by simp [hon])]
  dsimp only
  rw [if_neg (by simp [hinc])]
theorem logAcc_later (hheld : bitAt s intcPage 0x104 0 = true) (kind id addr : Nat) : logAcc s kind id addr =
    setBit (inc s intcPage 0x10C) intcPage 0x104 4 true := by
  have hinc : bitAt (inc s intcPage 0x10C) intcPage 0x104 0 = true := (bitAt_congr (rd_inc_key _ _ _ _ _ (by decide)) 0).trans hheld
  unfold logAcc
  rw [if_neg (by simp [hon])]
  dsimp only
  rw [if_pos hinc]

end

/-- What a refused access comes to, by its kind. -/
theorem refuseAcc_write {s : State} {r : Requester} {k : Nat} (h : k ≠ 4) (a size : Nat) :
    refuseAcc s r k a true size = { logAcc s k (regId r) a with resp := .done } := if_neg h
theorem refuseAcc_read_abort {s : State} {r : Requester} {k : Nat} (h : k = 5 ∨ k = 7) (a size : Nat) :
    refuseAcc s r k a false size = { logAcc s k (regId r) a with resp := .completerAbort } := by
  unfold refuseAcc
  dsimp only
  rw [if_neg (by omega), if_neg Bool.false_ne_true, if_pos h]
theorem refuseAcc_read_ones {s : State} {r : Requester} {k : Nat} (h : k ≠ 4 ∧ k ≠ 5 ∧ k ≠ 7) (a size : Nat) :
    refuseAcc s r k a false size = { logAcc s k (regId r) a with resp := .value (BitVec.ofNat 64 (2 ^ (8 * size) - 1)) } := by
  unfold refuseAcc
  dsimp only
  rw [if_neg h.1, if_neg Bool.false_ne_true, if_neg (by omega)]
theorem refuseAcc_busError {s : State} {r : Requester} (a size : Nat) (write : Bool) :
    refuseAcc s r 4 a write size = busError (logAcc s 4 (regId r) a) r write := by
  unfold refuseAcc
  exact if_pos rfl

theorem accKind_bad_size {s : State} {r : Requester} {a size : Nat} (h : ¬(size = 4 ∨ size = 8) ∨ a % size ≠ 0) : accKind s r a size = 5 := if_pos h

/-! ### The bit aliases (R55, R56) -/

theorem aliasOff_lt (a : Nat) : aliasOff a < 0x100 := by unfold aliasOff; omega
theorem aliasBit_lt (a : Nat) : aliasBit a < 32 := Nat.mod_lt _ (by decide)

section
variable {s : State} {r : Requester} {a : Nat} (hr : reach s r = true) (hk : aliasKind s r a 4 = 0)
include hr hk

theorem aliasWr_through (v : Nat) : aliasWr s r a 4 v = { aliasPut s r (aliasPage a) (aliasOff a) (aliasBit a) v with resp := .done } := by
  unfold aliasWr
  simp only [hr, Bool.not_true, Bool.false_eq_true, if_false, hk, ne_eq, not_true_eq_false]
theorem aliasRd_through : aliasRd s r a 4 =
    { (readWord s (regId r) (aliasPage a) (aliasOff a) (2 ^ aliasBit a)).2 with resp := .value (BitVec.ofNat 64 (b2n
      ((readWord s (regId r) (aliasPage a) (aliasOff a) (2 ^ aliasBit a)).1.toNat.testBit (aliasBit a)))) } := by
  unfold aliasRd
  simp only [hr, Bool.not_true, Bool.false_eq_true, if_false, hk, ne_eq, not_true_eq_false]
  rfl

end

theorem aliasKind_priv {s : State} {r : Requester} {a : Nat} (ha : a % 4 = 0) (hp : (pageInfo (aliasPage a)).isNone = false)
    (hpriv : privPage (aliasPage a) = true) : aliasKind s r a 4 = 7 := by
  unfold aliasKind
  dsimp only
  rw [if_neg (by simp [ha]), if_neg (by simp [hp]), if_pos hpriv]
theorem aliasRefused {s : State} {r : Requester} {a k : Nat} (hr : reach s r = true) (hk : aliasKind s r a 4 = k) (h0 : k ≠ 0) (v : Nat) :
    aliasRd s r a 4 = refuseAcc s r k (wordAddr (aliasPage a) (aliasOff a)) false ∧
    aliasWr s r a 4 v = refuseAcc s r k (wordAddr (aliasPage a) (aliasOff a)) true := by
  unfold aliasRd aliasWr
  simp only [hr, Bool.not_true, Bool.false_eq_true, if_false, hk, ne_eq, h0, not_false_eq_true, if_true, and_self]

end Sys2Proof.Machine
end

section
/-! PROOFS. The obligations about register accesses. -/

namespace Sys2Proof.Machine

/-- R45, R58: the severity, mask and parity control words store what is written and do no more. -/
theorem regRow_stores {p o : Nat} {i : PageInfo} (hp : pageInfo p = some i) (ho : o = 0x024 ∨ o = 0x028 ∨ o = 0x02C ∨ o = 0x048) :
    ∃ row, regRow p o = some row ∧ row.wide = false ∧ isHigh p o = false := by
  have hrow : ∀ row, findRow headerRows o = some row → row.wide = false → isHigh p o = false →
      ∃ row, regRow p o = some row ∧ row.wide = false ∧ isHigh p o = false :=
    fun row h hw hh => ⟨row, (regRow_header hp (by omega)).trans h, hw, hh⟩
  have hplain : ∀ row, findRow headerRows (o - 4) = some row → row.wide = false → isHigh p o = false := fun row h hw =>
    isHigh_of_row ((regRow_header hp (by omega)).trans h) hw
  rcases ho with rfl | rfl | rfl | rfl
  · exact hrow _ rfl rfl (hplain _ rfl rfl)
  · exact hrow _ rfl rfl (hplain _ rfl rfl)
  · exact hrow _ rfl rfl (hplain _ rfl rfl)
  · exact hrow _ rfl rfl (hplain _ rfl rfl)
theorem headEffect_stores {s : State} {r : Requester} {p o : Nat} (ho : o = 0x024 ∨ o = 0x028 ∨ o = 0x02C ∨ o = 0x048) (old w n : Nat) :
    headEffect s r p o old w n = s := by
  rcases ho with rfl | rfl | rfl | rfl <;> rfl
theorem putWord_stores {s : State} {r : Requester} {p o : Nat} {row : RegRow} (hrow : regRow p o = some row)
    (ho : o = 0x024 ∨ o = 0x028 ∨ o = 0x02C ∨ o = 0x048) (v : Nat) : putWord s r p o v all32 = written s p o v := by
  rw [putWord_row hrow, effect_head (by omega)]
  exact headEffect_stores ho _ _ _

/-- The word after the low word of a 64-bit register is never a low word of the interrupt block's kind that a read acts on. -/
theorem high_of_isLow {p o : Nat} (h : isLow p o = true) : isHigh p (o + 4) = true := by simp [isHigh, h]

theorem msixWord_mask {s : State} {a : Nat} (ha : a < 0x2000) (hmod : a % 16 = 12) : msixWord s a = b2n (s.pcie.mask.testBit (a / 16)) := by
  unfold msixWord
  rw [if_pos ha, if_pos hmod]
theorem msixPut_mask {s : State} {a : Nat} (ha : a < 0x2000) (hmod : a % 16 = 12) (v : Nat) :
    msixPut s a v = { s with pcie := { s.pcie with mask := withBits s.pcie.mask (a / 16) (a / 16) v } } := by
  unfold msixPut
  rw [if_neg (by omega), if_pos hmod]
theorem b2n_mod (b : Bool) : b2n b % 2 ^ 32 = b2n b := by cases b <;> rfl

end Sys2Proof.Machine

namespace Sys2Proof
open Machine

/-- Settles O16: a word that no shadow holds back, the two words of a 64-bit register, and the MSI-X table. -/
theorem registerWrites : Obligations.RegisterWrites := by
  unfold Obligations.RegisterWrites
  refine ⟨fun s r a data p o row ha hlo ho h hrow hl hh => completes ?_, fun s r a data p o ha ho h => completes ?_,
    fun s r a data p o ha ho h hl hw => completes ?_, fun s r a data low p o ha ho h hl hn hw hk hheld => completes ?_,
    fun s r a data p o ha ho h hl hn hw hk hnone => completes ?_, fun s r a data p o ha hr hk hl hw htb ho => completes ?_,
    fun s a data h ha hmod => completes ?_⟩
  · refine (busWrite_opened ha (by omega) h data).trans (responds ?_ _)
    rw [writeWord_plain ho hl hh, putWord_row hrow, if_neg (by omega)]
  · obtain ⟨i, hi⟩ := pageInfo_of_opened (by omega) h
    obtain ⟨row, hrow, hw, hh⟩ := regRow_stores hi ho
    refine (busWrite_opened ha (by omega) h data).trans (responds ?_ _)
    rw [writeWord_plain (by omega) (by simp [isLow, hrow, hw]) hh, putWord_stores hrow ho]
  · refine (busWrite_opened ha (by omega) h _).trans (responds ?_ _)
    rw [word_as_data, writeWord_low ho hl hw, BitVec.ofNat_toNat, BitVec.setWidth_eq]
  · refine (busWrite_opened ha (by omega) h _).trans (responds ?_ _)
    rw [word_as_data, writeWord_high_held ho hl hn hw hheld, commitPair_of_not_tb hk]
  · refine (busWrite_opened ha (by omega) h _).trans (responds ?_ _)
    rw [word_as_data, writeWord_high_none ho hl hn hw hnone, commitPair_of_not_tb hk]
  · refine (busWrite_through hr hk data).trans (responds ?_ _)
    rw [ha, addr_page p o ho, addr_off p o ho]
    unfold writeWords
    dsimp only
    rw [if_neg (by decide), if_pos ⟨hl, hw⟩, commitPair_of_not_tb htb]
  · refine (spaceWrite_bar4 (by omega) h data).trans ?_
    rw [msixPut_mask ha hmod]

/-- Settles O17: what a read answers, what it clears, and what the read shadow holds. -/
theorem registerReads : Obligations.RegisterReads := by
  unfold Obligations.RegisterReads
  refine ⟨fun s r a p o ha h hplain hpar => completes ?_, fun s p o b row hrow hb => ?_, fun s r a p o ha ho h hl hh hinj htio hpar => completes ?_,
    fun s r a p o v ha ho h hl hinj htio hpar hheld => completes ?_, fun s r a p o ha ho h hl hfree hinj htio hpar hnone => completes ?_,
    fun s a h ha => completes ?_, fun s a h ha hmod => completes ?_⟩
  · obtain ⟨ho, hfree, hl, hh, hinj, htio, hbsc, hipl⟩ := readsPlain_iff.mp hplain
    refine (busRead_opened ha (by omega) h).trans ?_
    rw [readWord_of_not_high hpar (.inl hinj) htio hh ho (.inl hbsc) hipl hfree, hl]
    rfl
  · rw [bitAt_clearRC hrow hb, testBit_all32 hb, Bool.and_true]
  · obtain ⟨hipl, hfree, hbsc⟩ := plain_of_isLow hl
    refine (busRead_opened ha (by omega) h).trans ?_
    rw [readWord_of_not_high hpar (.inl hinj) htio hh (by omega) hbsc hipl hfree, hl]
    rfl
  · refine (busRead_opened ha (by omega) h).trans ?_
    rw [readWord_high_held hpar (.inl hinj) htio (high_of_isLow hl) hheld]
  · refine (busRead_opened ha (by omega) h).trans ?_
    rw [readWord_high_none hpar (.inl hinj) htio (high_of_isLow hl) (ipl_of_isLow hl) hfree hnone]
  · refine (spaceRead_config (by omega) h).trans ?_
    rw [ha]
    rfl
  · refine (spaceRead_bar4 (by omega) h).trans ?_
    rw [msixWord_mask ha hmod, b2n_mod]

/-- Settles O18: the kind of an access that does not go through, its answer and its log. -/
theorem refusedAccessesAreLogged : Obligations.RefusedAccessesAreLogged := by
  unfold Obligations.RefusedAccessesAreLogged
  have hok : ∀ {a size : Nat}, size = 4 ∨ size = 8 → a % size = 0 → ¬(¬(size = 4 ∨ size = 8) ∨ a % size ≠ 0) := fun h1 h2 h =>
    h.elim (· h1) (· h2)
  refine ⟨fun s r a size hs ha hp => ?_, fun s r a size hs ha hp hd => ?_, fun s r a size k hr _ hk h => completes ?_,
    fun s r a size k v hr hk h => completes ?_, fun s r a size hr h => completes ?_, fun s r a size v hr => ⟨completes ?_, completes ?_⟩,
    fun s a v hr hk => ⟨completes ?_, completes ?_⟩, fun s a v t hr hk ht => ⟨completes ?_, completes ?_⟩,
    fun s k a v t hr hk ht => ⟨completes ?_, completes ?_⟩, fun s r a v hr ha hp hpriv => ⟨completes ?_, completes ?_⟩,
    fun s r a write hr hk => completes ?_, fun s kind id addr hon hfree hkind hid haddr => ?_, fun s kind id addr hon hheld => ?_⟩
  · unfold accKind
    rw [if_neg (hok hs ha), if_pos hp]
  · unfold accKind
    rw [if_neg (hok hs ha), if_neg (by simp [hp]), if_pos (by simp [answers, pageOn, hd])]
  · exact (busRead_refused hr hk (by omega)).trans (refuseAcc_read_ones (by omega) _ _)
  · exact (busWrite_refused hr hk (by omega) v).trans (refuseAcc_write (by omega) _ _)
  · exact (busRead_refused hr (accKind_bad_size h) (by decide)).trans (refuseAcc_read_abort (.inl rfl) _ _)
  · exact (busRead_refused hr (accKind_bad_size (.inl (by simp [enabled]))) (by decide)).trans (refuseAcc_read_abort (.inl rfl) _ _)
  · exact (busWrite_refused hr (accKind_bad_size (.inl (by simp [enabled]))) (by decide) v).trans (refuseAcc_write (by decide) _ _)
  · exact (busRead_refused hr hk (by decide)).trans (refuseAcc_busError _ _ _)
  · exact (busWrite_refused hr hk (by decide) v).trans (refuseAcc_busError _ _ _)
  · refine (busRead_refused hr hk (by decide)).trans ((refuseAcc_busError _ _ _).trans ?_)
    rw [ht, ← logAcc_boot s 4 1 a.toNat]
    rfl
  · refine (busWrite_refused hr hk (by decide) v).trans ((refuseAcc_busError _ _ _).trans ?_)
    rw [ht, ← logAcc_boot s 4 1 a.toNat]
    rfl
  · exact (busRead_refused hr hk (by decide)).trans ((refuseAcc_busError _ _ _).trans ht.symm)
  · exact (busWrite_refused hr hk (by decide) v).trans ((refuseAcc_busError _ _ _).trans ht.symm)
  · exact (aliasRefused hr (aliasKind_priv ha hp hpriv) (by decide) 0).1.trans (refuseAcc_read_abort (.inr rfl) _ _)
  · exact (aliasRefused hr (aliasKind_priv ha hp hpriv) (by decide) v.toNat).2.trans (refuseAcc_write (by decide) _ _)
  · refine (if_neg (by simp [hr, hk])).trans ?_
    cases write
    · exact refuseAcc_read_ones (by decide) _ _
    · exact refuseAcc_write (by decide) _ _
  · have hlog := logAcc_first hon hfree kind id addr
    have hkey : intcPage * 4096 + 0x104 ≠ intcPage * 4096 + 0x108 := by decide
    rw [hlog, rd_wr_same, bitAt_congr (rd_wr_key _ _ _ _ _ _ hkey), fld_congr (rd_wr_key _ _ _ _ _ _ hkey), fld_congr (rd_wr_key _ _ _ _ _ _ hkey),
      fld_setFld_same _ _ _ _ _ _ (by decide) (by decide)]
    have hbit : ∀ (u : State) b, b < 4 → bitAt (setFld (setFld u intcPage 0x104 3 0 (1 + 2 * kind)) intcPage 0x104 15 8 id) intcPage 0x104 b =
        (1 + 2 * kind).testBit b := fun u b hb => by
      rw [bitAt_setFld _ _ _ _ _ _ _ _ _ (by decide) (by decide), if_neg (by omega), bitAt_setFld _ _ _ _ _ _ _ _ _ (by decide) (by decide),
        if_pos ⟨rfl, by omega, by omega⟩]
      rfl
    refine ⟨?_, ?_, Nat.mod_eq_of_lt (by omega), rfl⟩
    · rw [hbit _ 0 (by decide)]
      simp
    · refine Nat.eq_of_testBit_eq fun i => ?_
      rw [fld, testBit_bitsOf]
      by_cases hi : i < 3
      · have h := hbit (inc s intcPage 0x10C) (1 + i) (by omega)
        unfold bitAt at h
        rw [h, Nat.add_comm 1 i, Nat.testBit_add_one, show (1 + 2 * kind) / 2 = kind from by omega]
        simp [hi]
      · rw [Nat.testBit_lt_two_pow (Nat.lt_of_lt_of_le hkind (Nat.pow_le_pow_right (n := 2) (i := 3) (by decide) (by omega)))]
        simp [hi]
  · rw [logAcc_later hon hheld, bitAt_setBit _ _ _ _ _ _ _ _ (by decide), rd_setBit_key _ _ _ _ _ _ _ (by decide), rd_inc_key _ _ _ _ _ (by decide)]
    exact ⟨if_pos ⟨rfl, rfl⟩, rfl⟩

/-- Settles O19: an access to a bit goes by the access code of that bit, and shares the shadow of its word. -/
theorem aliasAccesses : Obligations.AliasAccesses := by
  unfold Obligations.AliasAccesses
  refine ⟨fun s r a data row hr hk hrow hb => completes ?_, fun s r a data row hr hk hrow hb => completes ?_,
    fun s r a hr hk hplain hpar => completes ?_, fun s r a p o t hp ho hr hk hl hh htio hpar ht => completes ?_,
    fun s r a p o v hp ho hr hk hh htio hpar hheld => completes ?_, fun s p o b v row hrow hb hlt c hc => ?_⟩
  · refine (aliasWr_through hr hk _).trans (responds ?_ _)
    unfold aliasPut
    simp only [hrow, bitOf, hb, if_true]
  · refine (aliasWr_through hr hk _).trans (responds ?_ _)
    unfold aliasPut
    simp only [hrow, bitOf, hb, Bool.false_eq_true, if_false]
  · obtain ⟨ho, hfree, hl, hh, hinj, htio, hbsc, hipl⟩ := readsPlain_iff.mp hplain
    refine (aliasRd_through hr hk).trans ?_
    rw [readWord_of_not_high hpar (.inl hinj) htio hh ho (.inl hbsc) hipl hfree, hl]
    rfl
  · subst hp ho ht
    have hoff := aliasOff_lt a.toNat
    obtain ⟨hipl, hfree, hbsc⟩ := plain_of_isLow hl
    refine (aliasRd_through hr hk).trans ?_
    rw [readWord_of_not_high hpar (.inr hoff) htio hh (by omega) hbsc hipl hfree, hl]
    rfl
  · subst hp ho
    refine (aliasRd_through hr hk).trans ?_
    rw [readWord_high_held hpar (.inr (aliasOff_lt _)) htio hh hheld]
  · obtain ⟨hw, _⟩ := codes_exclude (b := b) (codesApart_regRow hrow)
    obtain ⟨hw1c, hw1s⟩ := hw hb
    rw [bitAt_of_rd (rd_storeWord hrow s _ _) hc, testBit_storedWord _ _ _ _ _ hc]
    by_cases hcb : c = b
    · subst hcb
      rw [if_pos rfl, Nat.testBit_mul_two_pow]
      rcases Nat.mod_two_eq_zero_or_one v with hv | hv <;> simp [hb, hw1c, hw1s, hv]
    · have hmask : (2 ^ b).testBit c = false := by simpa [Nat.testBit_two_pow] using Ne.symm hcb
      simp [hmask, hcb, bitAt]

end Sys2Proof
end

section
/-! PROOFS. Configuration parity, interrupt sources and the arm bits of the vectors (R47, R58, R59, R66, R70). -/

namespace Sys2Proof.Machine

/-! ### Triggers of the common header -/

/-- A write to a word of the header whose neighbour below is no low word either. -/
theorem regWrite_header {s : State} {r : Requester} {p o v : Nat} {row below : RegRow} (h : opened s r p o = true) (ho : o < 0x50)
    (hrow : findRow headerRows o = some row) (hw : row.wide = false) (hbelow : findRow headerRows (o - 4) = some below) (hb : below.wide = false)
    (hv : v < 2 ^ 32) : regWrite s r p o v =
      { headEffect (written s p o v) r p o (rd s p o).toNat (reached row v) (rd (written s p o v) p o).toNat with resp := .done } := by
  obtain ⟨i, hi⟩ := pageInfo_of_opened (by omega) h
  rw [regWrite_row h ((regRow_header hi ho).trans hrow) (by omega) (by omega) hw (isHigh_of_row ((regRow_header hi (by omega)).trans hbelow) hb) hv,
    effect_head (by omega)]

theorem bitAt_setBit_same (s : State) (p o : Nat) {b : Nat} (v : Bool) (hb : b < 32) : bitAt (setBit s p o b v) p o b = v := by
  rw [bitAt_setBit _ _ _ _ _ _ _ _ hb]
  exact if_pos ⟨rfl, rfl⟩
theorem b2n_le (b : Bool) : b2n b ≤ 1 := by cases b <;> decide

/-! ### Sorted lists -/

theorem mem_putRising (k j : Nat) : ∀ l : List Nat, j ∈ putRising k l ↔ j = k ∨ j ∈ l
  | [] => by simp [putRising]
  | i :: l => by
    unfold putRising
    split
    · simp
    · rw [List.mem_cons, mem_putRising k j l, List.mem_cons]
      exact or_left_comm
theorem pairwise_putRising {k : Nat} : ∀ {l : List Nat}, l.Pairwise (· < ·) → k ∉ l → (putRising k l).Pairwise (· < ·)
  | [], _, _ => List.pairwise_singleton _ _
  | i :: l, hl, hk => by
    obtain ⟨hi, hl'⟩ := List.pairwise_cons.mp hl
    have hne : k ≠ i := fun h => hk (h ▸ List.mem_cons_self)
    unfold putRising
    split
    · next hle =>
      have hlt : k < i := Nat.lt_of_le_of_ne hle hne
      exact List.pairwise_cons.mpr ⟨fun j hj => (List.mem_cons.mp hj).elim (· ▸ hlt) fun hj => Nat.lt_trans hlt (hi j hj), hl⟩
    · refine List.pairwise_cons.mpr ⟨fun j hj => ?_, pairwise_putRising hl' fun h => hk (List.mem_cons_of_mem _ h)⟩
      rcases (mem_putRising k j l).mp hj with rfl | hj
      · omega
      · exact hi j hj

/-! ### Sources that fire (R66) -/

theorem bitAt_raise_off (s : State) (p src reason detail cell : Nat) {q o : Nat}
    (h : q * 4096 + o < p * 4096 + 0x020 ∨ p * 4096 + 0x044 < q * 4096 + o) (b : Nat) :
    bitAt (raise s p src reason detail cell) q o b = bitAt s q o b := bitAt_congr (rd_raise _ _ _ _ _ _ _ _ h) b
/-- A cause bit that is set stays set while other sources fire. -/
theorem bitAt_forEach_raise {f : State → Nat → State} {p b : Nat} (hf : ∀ s c, ∃ t, t.regs = s.regs ∧ f s c = raise t p c) :
    ∀ (l : List Nat) (s : State), (∀ c ∈ l, c < 32) → b ∈ l ∨ bitAt s p 0x020 b = true → bitAt (forEach s l f) p 0x020 b = true
  | [], _, _, h => h.elim (nomatch ·) id
  | c :: l, s, hl, h => by
    refine bitAt_forEach_raise hf l (f s c) (fun d hd => hl d (List.mem_cons_of_mem _ hd)) ?_
    obtain ⟨t, ht, hft⟩ := hf s c
    have hst : bitAt t p 0x020 b = bitAt s p 0x020 b := by unfold bitAt rd; rw [ht]
    rw [hft, bitAt_raise_cause _ _ _ _ _ _ _ (hl c List.mem_cons_self), hst]
    rcases h with h | h
    · rcases List.mem_cons.mp h with rfl | h
      · exact .inr (by simp)
      · exact .inl h
    · exact .inr (by simp [h])
theorem bitAt_injectSources {s : State} {p v b : Nat} (hb : b < 32) (hv : v.testBit b = true) : bitAt (injectSources s p v) p 0x020 b = true :=
  bitAt_forEach_raise (fun s b => ⟨{ s with inj := { s.inj with srcs := (p, b) :: s.inj.srcs.erase (p, b) } }, rfl, rfl⟩) _ s (fun _ hc => (mem_onesOf.mp hc).1) (.inl (mem_onesOf.mpr ⟨hb, hv⟩))
/-- The first event that is captured leaves itself in ERR_CAPT0. -/
theorem capture_first {s : State} {p : Nat} (hfree : bitAt s p 0x038 0 = false) {src sev : Nat} (hsrc : src < 32) (hsev : sev < 4) (cell reason detail : Nat) :
    bitAt (capture s p src sev cell reason detail) p 0x038 0 = true ∧ fld (capture s p src sev cell reason detail) p 0x038 5 1 = src ∧
    fld (capture s p src sev cell reason detail) p 0x038 7 6 = sev := by
  have hrd : rd (capture s p src sev cell reason detail) p 0x038 =
      BitVec.ofNat 32 (1 + src * 2 + sev * 64 + (cell % 65536) * 256 + (reason % 256) * 2 ^ 24) := by
    unfold capture
    rw [if_neg (by simp [hfree])]
    exact (rd_wr_key _ p 0x044 p 0x038 _ (by omega)).trans ((rd_wr_key _ p (0x03C + 4) p 0x038 _ (by omega)).trans
      ((rd_wr_key _ p 0x03C p 0x038 _ (by omega)).trans (rd_wr_same _ _ _ _)))
  rw [bitAt_of_rd hrd (by decide)]
  unfold fld bitsOf
  rw [hrd, BitVec.toNat_ofNat]
  refine ⟨?_, ?_, ?_⟩
  · rw [Nat.testBit_zero]
    simp
    omega
  · rw [Nat.shiftRight_eq_div_pow]
    omega
  · rw [Nat.shiftRight_eq_div_pow]
    omega
theorem sevOf_lt (s : State) (p src : Nat) : sevOf s p src < 4 := by
  have h : ∀ o k, fld s p o (k + 1) k < 4 := fun o k => by
    have hk : k + 1 + 1 - k = 2 := by omega
    unfold fld bitsOf
    rw [hk]
    exact Nat.mod_lt _ (by decide)
  unfold sevOf
  split
  · exact h _ _
  · exact h _ _
section
variable (s : State) (p src reason detail cell : Nat)

theorem raise_holds {s : State} {p src : Nat} (h : sevOf s p src = 2) (hcell : cellSource p src = false) :
    (raise s p src reason detail cell).holds.contains (scopeKey p, 0) = true := by
  unfold raise
  simp only [h, if_true, hcell, Bool.false_eq_true, if_false]
  exact holds_addHold _ _
theorem raise_escal {s : State} {p src : Nat} (h : sevOf s p src = 3) : (raise s p src reason detail cell).escal = s.escal ++ [(p, src)] := by
  unfold raise
  obtain ⟨a, ha⟩ := setBit_only s p 32 src true
  obtain ⟨r, hr⟩ := capture_regs (setBit s p 32 src true) p src 3 cell reason detail
  dsimp only
  rw [h, if_neg (by decide), if_pos rfl, hr, ha]
theorem raise_quiet {s : State} {p src : Nat} (h : sevOf s p src < 2) :
    (raise s p src reason detail cell).holds = s.holds ∧ (raise s p src reason detail cell).escal = s.escal := by
  unfold raise
  obtain ⟨a, ha⟩ := setBit_only s p 32 src true
  obtain ⟨r, hr⟩ := capture_regs (setBit s p 32 src true) p src (sevOf s p src) cell reason detail
  dsimp only
  rw [if_neg (by omega), if_neg (by omega), hr, ha]
  exact ⟨rfl, rfl⟩

end

/-! ### Configuration parity (R58, R59) -/

theorem parCheck_bad {s : State} {p o : Nat} (hc : hasConfig p o = true) (hb : s.parBad.contains (p * 1024 + o / 4) = true)
    (hfirst : bitAt s p 0x048 1 = false) : parCheck s p o = raise (setFld (setBit s p 0x048 1 true) p 0x048 13 4 (o / 4)) p 31 := by
  unfold parCheck
  rw [if_pos (by rw [hc, hb]; rfl)]
  dsimp only
  rw [if_neg (by simp [hfirst])]

/-- CFG_PAR_INJ as written: the word in its low bits, arm in bit 31. -/
theorem parInj_word_lt (w : BitVec 10) (arm : Bool) : w.toNat + b2n arm * 2 ^ 31 < 2 ^ 32 := by
  have hw := w.isLt
  have harm := b2n_le arm
  omega
theorem parInj_reached (w : BitVec 10) : bitOf (reached { off := 0x04C, wo := 0x800003FF } (w.toNat + b2n true * 2 ^ 31)) 31 = true ∧
    reached { off := 0x04C, wo := 0x800003FF } (w.toNat + b2n true * 2 ^ 31) % 1024 = w.toNat := by
  have h : ∀ n < 1024, bitOf (reached { off := 0x04C, wo := 0x800003FF } (n + b2n true * 2 ^ 31)) 31 = true ∧
      reached { off := 0x04C, wo := 0x800003FF } (n + b2n true * 2 ^ 31) % 1024 = n := by decide +kernel
  exact h w.toNat w.isLt
/-- A write elsewhere leaves injection locked or unlocked as it was. -/
theorem unlocked_written {s : State} {p o v : Nat} (h : unlockPage * 4096 + 0x10C ≠ p * 4096 + o) : unlocked (written s p o v) = unlocked s :=
  bitAt_congr (rd_storeWord_other _ _ _ _ _ _ _ h) 16

/-! ### The vectors' arm bits (R70) -/

theorem regRow_arm : ∀ w < 16, regRow intcPage (0x140 + 4 * w) = some { off := 0x140, n := 16, w1s := all32, reset := all32 } ∧
    isHigh intcPage (0x140 + 4 * w) = false := by decide +kernel
theorem kindOf_intc : kindOf intcPage = some .intc := rfl
theorem armed_written {s : State} {w n : Nat} (hw : w < 16) (v : Nat) :
    armed (written s intcPage (0x140 + 4 * w) v) n = (armed s n || (decide (n / 32 = w) && v.testBit (n % 32))) := by
  obtain ⟨hrow, -⟩ := regRow_arm w hw
  obtain ⟨hbit, hother⟩ := Sys2Proof.writesStoreByAccessCode s intcPage (0x140 + 4 * w) v (n % 32) _ hrow (Nat.mod_lt _ (by decide))
  unfold armed
  by_cases hn : n / 32 = w
  · have harm : (decide (kindOf intcPage = some .intc) && decide (0x140 ≤ 0x140 + 4 * w) && decide (0x140 + 4 * w < 0x180)) = true := by
      simp [kindOf_intc]
      omega
    rw [harm] at hbit
    rw [hn, Nat.mul_comm w 4, hbit]
    simp [testBit_all32 (Nat.mod_lt n (by decide : 0 < 32))]
  · rw [bitAt_congr (hother intcPage (0x140 + n / 32 * 4) (by omega))]
    simp [hn]

end Sys2Proof.Machine

namespace Sys2Proof
open Machine

/-- Settles O20. -/
theorem sourcesParityAndArming : Obligations.SourcesParityAndArming := by
  unfold Obligations.SourcesParityAndArming
  refine ⟨fun s p hp hb => completes ?_, fun k l hl hk => ⟨pairwise_putRising hl hk, fun j => mem_putRising k j l⟩,
    fun s p o hc hb hfirst ho => ?_, fun s r p w h hu hc => ⟨completes ?_, fun hb => ?_, fun hb => ?_⟩, fun s r p w arm h hu => completes ?_,
    fun s r p v h hu => completes ?_, fun s p v b hb hv => bitAt_injectSources hb hv, fun s r p v h hu => completes ?_,
    fun s p src reason detail cell hsrc => ?_, fun s r w v h => ⟨completes ?_, fun n _ => armed_written w.isLt _⟩⟩
  · exact if_pos (by simp [hp, hb])
  · rw [parCheck_bad hc hb hfirst]
    refine ⟨?_, ?_, ?_⟩
    · rw [bitAt_raise_cause _ _ _ _ _ _ _ (by decide)]
      rfl
    · rw [bitAt_raise_off _ _ _ _ _ _ (.inr (by omega)), bitAt_setFld _ _ _ _ _ _ _ _ _ (by decide) (by decide), if_neg (by omega),
        bitAt_setBit_same _ _ _ _ (by decide)]
    · rw [fld_congr (rd_raise _ _ _ _ _ _ _ _ (.inr (by omega))), fld_setFld_same _ _ _ _ _ _ (by decide) (by decide)]
      exact Nat.mod_eq_of_lt (by omega)
  · refine (regWrite_header h (by decide) rfl rfl rfl rfl (parInj_word_lt w true)).trans (responds ?_ _)
    obtain ⟨h31, hlow⟩ := parInj_reached w
    exact (if_neg (by rw [unlocked_written (by omega)]; simp [hu])).trans ((if_pos h31).trans (by rw [hlow]; rfl))
  · unfold parInject
    simp only [hc, Bool.not_true, Bool.false_eq_true, if_false, hb]
  · unfold parInject
    simp only [hc, Bool.not_true, Bool.false_eq_true, if_false, hb, if_true]
  · refine (regWrite_header h (by decide) rfl rfl rfl rfl (parInj_word_lt w arm)).trans (responds ?_ _)
    exact if_pos (by rw [hu]; rfl)
  · refine (regWrite_header h (by decide) rfl rfl rfl rfl v.isLt).trans (responds ?_ _)
    rw [reached_of_wo v.isLt rfl]
    exact if_pos hu
  · refine (regWrite_header h (by decide) rfl rfl rfl rfl v.isLt).trans (responds ?_ _)
    exact if_neg (by simp [hu])
  · refine ⟨fun b => bitAt_raise_cause _ _ _ _ _ _ _ hsrc, fun q w hne hout => ?_, fun hfree => ?_, fun h hcell => raise_holds _ _ _ h hcell,
      fun h => raise_escal _ _ _ h, fun h => raise_quiet _ _ _ h⟩
    · rw [rd_raise_capture, rd_capture _ _ _ _ _ _ _ _ _ hout, rd_setBit_key _ _ _ _ _ _ _ hne]
    · have hfree' : bitAt (setBit s p 0x020 src true) p 0x038 0 = false := (bitAt_congr (rd_setBit_key _ _ _ _ _ _ _ (by omega)) 0).trans hfree
      rw [bitAt_congr (rd_raise_capture _ _ _ _ _ _ _ _), fld_congr (rd_raise_capture _ _ _ _ _ _ _ _), fld_congr (rd_raise_capture _ _ _ _ _ _ _ _)]
      exact capture_first hfree' hsrc (sevOf_lt _ _ _) _ _ _
  · obtain ⟨hrow, hhigh⟩ := regRow_arm w.toNat w.isLt
    refine (regWrite_row h hrow (by have := w.isLt; omega) (by omega) rfl hhigh v.isLt).trans (responds ?_ _)
    rw [effect_block (i := { kind := .intc, region := 8, btype := 9, domain := 173 }) rfl (by omega) (by have := w.isLt; omega)]
    rfl

end Sys2Proof
end

section
/-! PROOFS. The window commands, the window lock and snapshots (R64, R65, R475). -/

namespace Sys2Proof.Machine

/-! ### A window command on a page without a window -/

/-- A running machine whose host reaches the pages of the line ports. -/
def hostUp : State := { pcie := { linkUp := true } }

/-- A line port's page has no window, so the write that is the command finds no register. -/
theorem tblRead_without_window : exec (.tblRead .host (BitVec.ofNat 16 (macPage 0))) hostUp = .next (closed hostUp { hostUp with resp := .done }) := by
  refine completes ?_
  have h : opened hostUp .host (macPage 0) 0xF04 = true := by decide +kernel
  refine (regWrite_opened 1 (by decide) h (by decide +kernel) (by decide) (by decide +kernel) (by decide +kernel)).trans (responds ?_ _)
  unfold putWord
  rw [show regRow (macPage 0) 0xF04 = none by decide +kernel]

/-! ### The window lock (R65) -/

theorem regRow_window {p o : Nat} (hw : ((kindOf p).map PageKind.window) = some true) (ho : 0xF00 ≤ o) : regRow p o = findRow windowRows o := by
  obtain ⟨k, hk, hwin⟩ := Option.map_eq_some_iff.mp hw
  obtain ⟨i, hi, rfl⟩ := Option.map_eq_some_iff.mp hk
  unfold regRow
  simp only [hi]
  rw [if_neg (by omega), if_neg (by omega), if_neg (by omega), if_neg (by omega), if_neg (by omega), if_neg (by omega), if_pos hwin]

section
variable {s : State} {r : Requester} {p : Nat} (hw : ((kindOf p).map PageKind.window) = some true)
include hw

theorem regRow_lock : regRow p 0xF0C = some (rowRO 0xF0C) := regRow_window hw (by decide)
omit hw in
theorem lockedOut_lock : lockedOut s r p 0xF0C = false := by simp [lockedOut]
theorem readWord_lock {id : Nat} (hfree : rd s p 0xF0C = 0) : readWord s id p 0xF0C = (0, wr s p 0xF0C (BitVec.ofNat 32 (0x100 + id))) := by
  have hrow := regRow_lock hw
  have hpar : parCheck s p 0xF0C = s := by
    unfold parCheck hasConfig
    simp [hrow, rowRO]
  have hpop : readPop s p 0xF0C = s := by
    unfold readPop
    split
    · exact if_neg (by decide)
    · exact if_neg (by decide)
    · rfl
  have hhigh : isHigh p 0xF0C = false := isHigh_of_row (row := { off := 0xF08, w1c := 0x6 }) (regRow_window hw (by decide)) rfl
  have hlow : isLow p 0xF0C = false := by simp [isLow, hrow, rowRO]
  have htake : take s id p 0xF0C = (0, wr s p 0xF0C (BitVec.ofNat 32 (0x100 + id))) := by
    unfold take lockTake
    rw [if_neg (by simp), if_pos ⟨rfl, by rw [hrow]; rfl⟩, if_pos hfree]
  have hclear : ∀ t, clearRC t p 0xF0C all32 = t := fun t => by
    unfold clearRC
    simp [hrow, rowRO]
  unfold readWord
  rw [hpar, hpop]
  simp only [hhigh, Bool.false_eq_true, if_false, htake, hclear, hlow]
theorem regWrite_lock (h : opened s r p 0xF0C = true) (v : Nat) (hv : v < 2 ^ 32) :
    regWrite s r p 0xF0C v = { lockEffect s r p v with resp := .done } := by
  refine (busWrite_opened rfl (by decide) h _).trans (responds ?_ _)
  have hval : (BitVec.ofNat 64 (v % 2 ^ 32)).toNat % 2 ^ 32 = v := by
    rw [BitVec.toNat_ofNat]
    omega
  unfold writeWord
  rw [if_neg (by rw [lockedOut_lock]; decide), if_pos ⟨rfl, by rw [regRow_lock hw]; rfl⟩, hval]

end

/-! ### Snapshots (R475, R476) -/

section
variable {α : Type}

theorem mapGet_congr_default {d e : Nat → α} {k : Nat} (h : d k = e k) (m : SMap α) : mapGet d m k = mapGet e m k := by
  induction m with
  | nil => exact h
  | cons x m ih => simp only [mapGet, ih]
/-- A filter by keys keeps what is stored under a key that it takes, and leaves nothing under one that it does not. -/
theorem mapGet_filter_keys (d : Nat → α) (f : Nat → Bool) (m : SMap α) (k : Nat) :
    mapGet d (m.filter (fun e => f e.1)) k = if f k then mapGet d m k else d k := by
  induction m with
  | nil => simp [mapGet]
  | cons x m ih =>
    obtain ⟨j, v⟩ := x
    rw [List.filter_cons]
    by_cases hj : j = k
    · subst hj
      cases hf : f j with
      | true => simp [mapGet]
      | false => simpa [hf] using ih
    · cases hf : f j with
      | true => simpa [mapGet, hj] using ih
      | false => simpa [mapGet, hj] using ih
/-- No key at or below the bound is stored. -/
theorem mapGet_below [DecidableEq α] {d e : Nat → α} {l k : Nat} (h : k ≤ l) : ∀ {m : SMap α} {j : Nat}, mapWfFrom d (some j) m = true → l ≤ j →
    mapGet e m k = e k
  | [], _, _, _ => rfl
  | (i, v) :: m, j, hm, hj => by
    rw [mapWfFrom_cons] at hm
    simp only [Bool.and_eq_true, keyAbove, decide_eq_true_eq] at hm
    obtain ⟨⟨hji, -⟩, hm⟩ := hm
    rw [mapGet, if_neg (by omega), mapGet_below h hm (by omega)]
end

/-- The entries of a snapshot, stored one after another. -/
theorem mapGet_captured {l : SMap Entry} {lo : Option Nat} (h : mapWfFrom tabReset lo l = true) (s : State) (k : Nat) :
    mapGet (fun _ => (0 : Entry)) (forEach s l (fun s e => { s with snaps := mapSet (fun _ => 0) s.snaps e.1 e.2 })).snaps k =
      mapGet (mapGet (fun _ => 0) s.snaps) l k := by
  induction l generalizing s lo with
  | nil => rfl
  | cons e l ih =>
    obtain ⟨j, v⟩ := e
    rw [mapWfFrom_cons] at h
    simp only [Bool.and_eq_true] at h
    obtain ⟨-, h⟩ := h
    refine (ih h _).trans ?_
    by_cases hj : j = k
    · subst hj
      rw [mapGet_below (Nat.le_refl j) h (Nat.le_refl j), mapGet_mapSet_same, mapGet, if_pos rfl]
    · rw [mapGet, if_neg hj]
      exact mapGet_congr_default (mapGet_mapSet_other _ _ _ (Ne.symm hj)) l
theorem captured_tabs (l : SMap Entry) (s : State) :
    (forEach s l (fun s e => { s with snaps := mapSet (fun _ => 0) s.snaps e.1 e.2 })).tabs = s.tabs := by
  induction l generalizing s with
  | nil => rfl
  | cons e l ih => exact ih _

/-- The entries of page `p` that a snapshot takes. -/
theorem snapGo_taken {s : State} {p : Nat} (hfree : bitAt s p 0x064 0 = false) (clear : Bool) :
    (snapGo s p clear).1 = true ∧
    (snapGo s p clear).2.snaps = (forEach { s with snaps := s.snaps.filter (fun e => keyPage e.1 != p) } (s.tabs.filter (fun e => counterKey p e.1))
      (fun s e => { s with snaps := mapSet (fun _ => 0) s.snaps e.1 e.2 })).snaps ∧
    (snapGo s p clear).2.tabs = if clear then s.tabs.filter (fun e => !counterKey p e.1) else s.tabs := by
  unfold snapGo
  rw [if_neg (by simp [hfree])]
  have htabs := captured_tabs (s.tabs.filter (fun e => counterKey p e.1)) { s with snaps := s.snaps.filter (fun e => keyPage e.1 != p) }
  cases clear with
  | true => exact ⟨rfl, rfl, congrArg (List.filter (fun e : Nat × Entry => !counterKey p e.1)) htabs⟩
  | false => exact ⟨rfl, rfl, htabs⟩

theorem regRow_snap {p : Nat} (h : ((kindOf p).map PageKind.snap) = some true) : regRow p 0x060 = some { off := 0x060, w1s := 0x1, rw := 0x2 } := by
  obtain ⟨k, hk, hsnap⟩ := Option.map_eq_some_iff.mp h
  obtain ⟨i, hi, rfl⟩ := Option.map_eq_some_iff.mp hk
  unfold regRow
  simp only [hi]
  rw [if_neg (by decide), if_neg (by decide), if_pos (by decide), if_pos hsnap]
  rfl
theorem isHigh_snap (p : Nat) : isHigh p 0x060 = false := by
  unfold isHigh isLow regRow
  cases pageInfo p with
  | none => rfl
  | some i => cases h : i.kind.test <;> simp [h, findRow, testRows, rowsRO]
theorem snap_word : ∀ clear, 1 + b2n clear * 2 < 2 ^ 32 ∧ (1 + b2n clear * 2).testBit 1 = clear ∧
    bitOf (reached { off := 0x060, w1s := 0x1, rw := 0x2 } (1 + b2n clear * 2)) 0 = true := by decide

end Sys2Proof.Machine

namespace Sys2Proof
open Machine

/-- Refutes O21: the first clause asks no window of its page. A line port's page has none: the write to 0xF04 is dropped there, and no
refusal is reported, where `tblGo` would refuse with cause 4 and raise source 30. -/
theorem not_windowCommands : ¬ Obligations.WindowCommands := by
  intro h
  obtain ⟨hread, -, -⟩ := h.1 hostUp .host (BitVec.ofNat 16 (macPage 0)) (by decide +kernel) (by decide +kernel)
  have heq := Host.Outcome.next.inj (tblRead_without_window.symm.trans hread)
  have hbit := congrArg (fun u => bitAt u (macPage 0) 0x020 30) heq
  exact absurd hbit (by decide +kernel)

/-- Settles O22. -/
theorem windowLockAndSnapshots : Obligations.WindowLockAndSnapshots := by
  unfold Obligations.WindowLockAndSnapshots
  refine ⟨fun s r p h hw hfree => completes ?_, fun s r p h hw hheld => completes ?_, fun s r p h hw => completes ?_,
    fun s r p o v h hl ho => ?_, fun s r p clear h hsnap => completes ?_, fun s p sel idx clear hfree hwf hkey hzero => ?_,
    fun s p clear hbusy => if_pos hbusy, fun s p hbusy => completes (if_pos hbusy)⟩
  · refine (busRead_opened rfl (by decide) h).trans ?_
    rw [readWord_lock hw hfree]
    rfl
  · refine (regWrite_lock hw h 0 (by decide)).trans (responds ?_ _)
    unfold lockEffect
    rw [if_neg (by decide), if_pos ⟨rfl, hheld⟩]
  · refine (regWrite_lock hw h (2 ^ 31) (by decide)).trans (responds ?_ _)
    exact if_pos (by decide)
  · refine (busWrite_opened rfl ho h _).trans (responds ?_ _)
    exact if_pos hl
  · obtain ⟨hv, h1, h0⟩ := snap_word clear
    have hrow := regRow_snap hsnap
    have hclear : bitAt (written s p.toNat 0x060 (1 + b2n clear * 2)) p.toNat 0x060 1 = clear :=
      (bitOf_written hrow _ (by decide) rfl).trans h1
    refine (regWrite_row h hrow (by decide) (by decide) rfl (isHigh_snap _) hv).trans (responds ?_ _)
    rw [effect_head (by decide)]
    refine (if_pos h0).trans ?_
    rw [hclear]
  · obtain ⟨hdone, hsnaps, htabs⟩ := snapGo_taken hfree clear
    have hpage : keyPage (tabKey p sel 0 idx) = p := by
      simp only [counterKey, Bool.and_eq_true, beq_iff_eq] at hkey
      exact hkey.1
    refine ⟨hdone, ?_, ?_⟩
    · rw [hsnaps, mapGet_captured (mapFilter_wf tabReset _ none _ hwf), mapGet_filter_keys, if_pos hkey]
      refine mapGet_congr_default ?_ s.tabs
      rw [mapGet_filter_keys _ (fun j => keyPage j != p), if_neg (by simp [hpage]), hzero]
    · unfold tget
      rw [htabs]
      cases clear with
      | true =>
        rw [if_pos rfl, if_pos rfl, mapGet_filter_keys _ (fun j => !counterKey p j), if_neg (by simp [hkey]), hzero]
      | false => rfl

end Sys2Proof
end

section
/-! PROOFS. The link states of line ports (R73 to R75, R90). -/

namespace Sys2Proof.Machine

/-! ### A write to a block register -/

section
variable {s : State} {r : Requester} {p o v : Nat} {row : RegRow} {i : PageInfo}

theorem regWrite_block (h : opened s r p o = true) (hi : pageInfo p = some i) (hrow : regRow p o = some row) (hlo : 0x100 ≤ o) (hhi : o < 0xF00)
    (hw : row.wide = false) (hh : isHigh p o = false) (hv : v < 2 ^ 32) : regWrite s r p o v =
      { blockEffect s (written s p o v) r p i o (rd s p o).toNat (reached row v) (rd (written s p o v) p o).toNat with resp := .done } := by
  rw [regWrite_row h hrow hhi (by omega) hw hh hv, effect_block hi hlo hhi]

/-- A bit of the word that software writes back. -/
theorem testBit_rewritten (hrow : regRow p o = some row) (mask v : Nat) {b : Nat} (hb : b < 32) : (rewritten s p o mask v).testBit b =
    if mask.testBit b then v.testBit b else bitAt s p o b && (row.rw ||| row.rws).testBit b := by
  unfold rewritten
  simp only [hrow, Nat.testBit_or, Nat.testBit_and, Nat.testBit_xor, testBit_all32 hb, bitAt]
  cases mask.testBit b <;> simp

end

/-! ### The page of a line port -/

/-- MAC_PORT_CFG's page and row. -/
theorem mac_rows : ∀ k < 64, (pageInfo (macPage k)).any (fun i => i.kind == .mac && i.region * 16 + i.sub == k) = true ∧
    regRow (macPage k) 0x100 = some (rowRW 0x100 0x1FF) ∧ isHigh (macPage k) 0x100 = false := by decide +kernel
theorem mac_info {k : Nat} (hk : k < 64) : ∃ i, pageInfo (macPage k) = some i ∧ i.kind = .mac ∧ i.region * 16 + i.sub = k := by
  obtain ⟨h, -, -⟩ := mac_rows k hk
  obtain ⟨i, hi, h⟩ := (Option.any_eq_true _ _).mp h
  simp only [Bool.and_eq_true, beq_iff_eq] at h
  exact ⟨i, hi, h.1, h.2⟩

section
variable {s : State} {r : Requester} {k v : Nat} (hk : k < 64) (h : opened s r (macPage k) 0x100 = true) (hv : v < 2 ^ 32)
include hk h hv

/-- A write of MAC_PORT_CFG acts by what it does to `enable`. -/
theorem regWrite_macCfg : regWrite s r (macPage k) 0x100 v =
    { portEffect (written s (macPage k) 0x100 v) k (rd s (macPage k) 0x100).toNat (rd (written s (macPage k) 0x100 v) (macPage k) 0x100).toNat with
      resp := .done } := by
  obtain ⟨i, hi, hkind, hport⟩ := mac_info hk
  obtain ⟨-, hrow, hhigh⟩ := mac_rows k hk
  rw [regWrite_block h hi hrow (by decide) (by decide) rfl hhigh hv]
  simp only [blockEffect, hkind, if_true, hport]
theorem regWrite_mac_enable (hoff : bitAt s (macPage k) 0x100 0 = false) (hon : v.testBit 0 = true) :
    regWrite s r (macPage k) 0x100 v = { lineEnable (written s (macPage k) 0x100 v) k with resp := .done } := by
  have hnow : bitOf (rd (written s (macPage k) 0x100 v) (macPage k) 0x100).toNat 0 = true := (bitOf_written (mac_rows k hk).2.1 v (by decide) rfl).trans hon
  have hwas : bitOf (rd s (macPage k) 0x100).toNat 0 = false := hoff
  rw [regWrite_macCfg hk h hv]
  simp only [portEffect, hnow, hwas, Bool.not_false, and_self, if_true, hk]
theorem regWrite_mac_disable (hon : bitAt s (macPage k) 0x100 0 = true) (hoff : v.testBit 0 = false) :
    regWrite s r (macPage k) 0x100 v = { linkDisable (written s (macPage k) 0x100 v) k with resp := .done } := by
  have hnow : bitOf (rd (written s (macPage k) 0x100 v) (macPage k) 0x100).toNat 0 = false := (bitOf_written (mac_rows k hk).2.1 v (by decide) rfl).trans hoff
  have hwas : bitOf (rd s (macPage k) 0x100).toNat 0 = true := hon
  rw [regWrite_macCfg hk h hv]
  simp [portEffect, hnow, hwas]

end

theorem enabled_word (cfg : Word) : cfg.toNat ||| 1 < 2 ^ 32 ∧ (cfg.toNat ||| 1).testBit 0 = true :=
  ⟨Nat.or_lt_two_pow cfg.isLt (by decide), by simp⟩

/-! ### A good link comes up -/

section
variable {s : State} {port : Nat} {l m rev : Bool} (hrev : rev = false ∨ bitAt s (portPage port) 0x100 6 = true ∨ port < 64 ∨ 96 ≤ port)
  (hgood : linkGood s port = true) (hserve : serving s (portPage port) = true) (hspan : ∀ l, spanLinkOf s port = some l → spanLinkState s l ≠ 4)
include hrev hgood hserve hspan

theorem linkUp_goes : linkUp s port l m rev =
    if linkState s port = 1 ∨ linkState s port = 4 then
      portReturn (setLink' (raise (linkTraits (trainEnd s port) port l m rev) (portPage port) 0) port 2) port
    else if linkState s port = 3 then setLink' (linkTraits s port l m rev) port 2 else s := by
  have hreversed : (decide (64 ≤ port) && decide (port < 96) && rev && !bitAt s (portPage port) 0x100 6) = false := by
    rcases hrev with rfl | h | h | h
    · simp
    · simp [h]
    · simp; omega
    · simp; omega
  have hlost : ∀ x, spanLinkOf s port = x → (match x with | some l => spanLinkState s l == 4 | none => false) = false := fun x hx => by
    cases x with
    | none => rfl
    | some l => simpa using hspan l hx
  unfold linkUp
  dsimp only
  exact if_neg (by
    simp only [hgood, hserve, hreversed, Bool.not_true, Bool.false_or, Bool.or_false]
    exact Bool.eq_false_iff.mp (hlost _ rfl))

end

/-! ### What the PCS reports -/

section
variable {s : State} {port : Nat} (c : LinkCond)

theorem linkConds_lit (hlit : darkLane s port = none) : linkConds s port c =
    (let t := setCond (countFec s port c.codewords c.corrected c.uncorrectable) port c
     let t := if port < 64 ∧ bitAt t (portPage port) 0x114 7 ∧ !bitAt s (portPage port) 0x114 7 then raise t (portPage port) 3 else t
     let t := if port < 64 ∧ c.remoteFault ∧ !bitAt s (portPage port) 0x114 6 then raise t (portPage port) 5 else t
     if linkGood t port then t else linkNotGood t port) := by
  unfold linkConds
  rw [hlit]

theorem not_good_of_ber (hline : port < 64) {t : State} (h : bitAt t (macPage port) 0x114 7 = true) : linkGood t port = false := by
  simp [linkGood, hline, portPage_line hline, h]
theorem not_good_of_fault (hline : port < 64) {t : State} (h : bitAt t (macPage port) 0x114 6 = true) : linkGood t port = false := by
  simp [linkGood, hline, portPage_line hline, h]
/-- The remote fault reported is the one shown. -/
theorem bitAt_setCond_fault (hline : port < 64) (t : State) : bitAt (setCond t port c) (macPage port) 0x114 6 = c.remoteFault := by
  unfold setCond
  simp only [hline, if_true, portPage_line hline]
  rw [bitAt_setBit _ _ _ _ _ _ _ _ (by decide), if_neg (by simp), bitAt_setBit _ _ _ _ _ _ _ _ (by decide), if_neg (by simp),
    bitAt_setBit_same _ _ _ _ (by decide)]

end

end Sys2Proof.Machine

namespace Sys2Proof
open Machine

/-- Settles O23. -/
theorem portLinkStates : Obligations.PortLinkStates := by
  unfold Obligations.PortLinkStates
  refine ⟨fun s r k cfg h hoff hc => completes ?_, fun s r k cfg c h hoff hc hne => completes ?_, fun s r k h hon => completes ?_,
    fun s port l m rev hp hrev hgood hserve hspan hst => completes ?_, fun s port l m rev hp hrev hgood hserve hspan hst => completes ?_,
    fun s u port c hp hlit hu hquiet => completes ?_, fun s u port c hp hlit hu hber hnew hrf => completes ?_,
    fun s u port c hp hlit hu hber hrf hnew => completes ?_, fun s port hst hhold => ?_, fun s port hst hhold => ?_,
    fun s port hst => if_pos hst, fun s port hp hst => completes ?_⟩
  · obtain ⟨hv, h0⟩ := enabled_word cfg
    refine (regWrite_mac_enable k.isLt h hv hoff h0).trans (responds ?_ _)
    exact if_pos hc
  · obtain ⟨hv, h0⟩ := enabled_word cfg
    refine (regWrite_mac_enable k.isLt h hv hoff h0).trans (responds ?_ _)
    unfold lineEnable
    simp only [hc, if_neg hne]
  · exact regWrite_mac_disable k.isLt h (rewritten_lt _ _ _ _ (by decide)) hon (by rw [testBit_rewritten (mac_rows _ k.isLt).2.1 _ _ (by decide)]; rfl)
  · exact (if_pos (by simpa [macPort] using hp)).trans ((linkUp_goes hrev hgood hserve hspan).trans (if_pos hst))
  · exact (if_pos (by simpa [macPort] using hp)).trans ((linkUp_goes hrev hgood hserve hspan).trans
      ((if_neg (by omega)).trans (if_pos hst)))
  · refine (if_pos (by simpa [macPort] using hp)).trans ((linkConds_lit c hlit).trans ?_)
    dsimp only
    rw [← hu]
    have h3 : ¬(port.toNat < 64 ∧ bitAt u (portPage port.toNat) 0x114 7 = true ∧ (!bitAt s (portPage port.toNat) 0x114 7) = true) := by
      rintro ⟨hl, hb, hn⟩
      rw [portPage_line hl] at hb hn
      rcases hquiet with h | ⟨h | h, -⟩
      · omega
      · simp [h] at hb
      · simp [h] at hn
    have h5 : ¬(port.toNat < 64 ∧ c.remoteFault = true ∧ (!bitAt s (portPage port.toNat) 0x114 6) = true) := by
      rintro ⟨hl, hb, hn⟩
      rw [portPage_line hl] at hn
      rcases hquiet with h | ⟨-, h | h⟩
      · omega
      · simp [h] at hb
      · simp [h] at hn
    rw [if_neg h3, if_neg h5]
  · have h3 : port.toNat < 64 ∧ bitAt u (macPage port.toNat) 0x114 7 = true ∧ (!bitAt s (macPage port.toNat) 0x114 7) = true :=
      ⟨hp, hber, by rw [hnew]; rfl⟩
    have h5 : ¬(port.toNat < 64 ∧ c.remoteFault = true ∧ (!bitAt s (macPage port.toNat) 0x114 6) = true) := fun h => by
      rcases hrf with hr | hr <;> simp [hr] at h
    refine (if_pos (by simp [macPort]; omega)).trans ((linkConds_lit c hlit).trans ?_)
    dsimp only
    rw [← hu, portPage_line hp, if_pos h3, if_neg h5, if_neg]
    rw [not_good_of_ber hp ((bitAt_raise_off _ _ _ _ _ _ (.inr (by omega)) 7).trans hber)]
    decide
  · have h3 : ¬(port.toNat < 64 ∧ bitAt u (macPage port.toNat) 0x114 7 = true ∧ (!bitAt s (macPage port.toNat) 0x114 7) = true) := fun h => by
      rcases hber with hb | hb <;> simp [hb] at h
    have h5 : port.toNat < 64 ∧ c.remoteFault = true ∧ (!bitAt s (macPage port.toNat) 0x114 6) = true := ⟨hp, hrf, by rw [hnew]; rfl⟩
    have h6 : bitAt u (macPage port.toNat) 0x114 6 = true := by rw [hu, bitAt_setCond_fault c hp, hrf]
    refine (if_pos (by simp [macPort]; omega)).trans ((linkConds_lit c hlit).trans ?_)
    dsimp only
    rw [← hu, portPage_line hp, if_neg h3, if_pos h5, if_neg]
    rw [not_good_of_fault hp ((bitAt_raise_off _ _ _ _ _ _ (.inr (by omega)) 6).trans h6)]
    decide
  · exact (if_neg (by simp [hst])).trans (if_pos hhold)
  · exact (if_neg (by simp [hst])).trans (if_neg (by omega))
  · exact (if_pos (by simpa [macPort] using hp)).trans (if_pos hst)

end Sys2Proof
end

section
/-! PROOFS. Flow control and low-power idle (R84 to R88). -/

namespace Sys2Proof.Machine

/-! ### Sums of flags -/

theorem flags_lt (f : Nat → Bool) : ∀ n, ((List.range n).map (fun c => if f c then 2 ^ c else 0)).sum < 2 ^ n
  | 0 => by simp
  | n + 1 => by
    have h := flags_lt f n
    rw [List.range_succ, List.map_append, List.sum_append, Nat.pow_succ]
    simp only [List.map_cons, List.map_nil, List.sum_cons, List.sum_nil]
    split <;> omega
theorem testBit_flags (f : Nat → Bool) : ∀ {n c : Nat}, c < n → ((List.range n).map (fun c => if f c then 2 ^ c else 0)).sum.testBit c = f c
  | n + 1, c, h => by
    rw [List.range_succ, List.map_append, List.sum_append]
    simp only [List.map_cons, List.map_nil, List.sum_cons, List.sum_nil, Nat.add_zero]
    rcases Nat.lt_or_eq_of_le (Nat.le_of_lt_succ h) with hc | rfl
    · have ih := testBit_flags f hc
      split
      · rw [Nat.add_comm, Nat.testBit_two_pow_add_gt hc, ih]
      · rw [Nat.add_zero, ih]
    · have hlow : (((List.range c).map (fun c => if f c then 2 ^ c else 0)).sum).testBit c = false := Nat.testBit_lt_two_pow (flags_lt f c)
      split
      · next hf => rw [Nat.add_comm, Nat.testBit_two_pow_add_eq, hlow, hf]; rfl
      · next hf => rw [Nat.add_zero, hlow, Bool.eq_false_iff.mpr hf]

/-! ### Pause and PFC (R84) -/

theorem testBit_pfcClasses {q : List (BitVec 16)} {v c : Nat} {stop : Bool} (hc : c < 8) :
    (pfcClasses q v stop).testBit c = (v.testBit c && ((q.getD c 0 != 0) == stop)) := by
  unfold pfcClasses
  exact testBit_flags (fun c => v.testBit c && ((q.getD c 0 != 0) == stop)) hc
theorem pfcClasses_lt (q : List (BitVec 16)) (v : Nat) (stop : Bool) : pfcClasses q v stop < 2 ^ 8 := by
  unfold pfcClasses
  exact flags_lt (fun c => v.testBit c && ((q.getD c 0 != 0) == stop)) 8
/-- A class that is named stops or goes by its quanta; any other stays. -/
theorem testBit_pfc {q : List (BitVec 16)} {v c paused : Nat} (hc : c < 8) :
    ((paused ||| pfcClasses q v true) &&& (0xFF - pfcClasses q v false)).testBit c =
      if v.testBit c then q.getD c 0 != 0 else paused.testBit c := by
  have hoff : (0xFF - pfcClasses q v false).testBit c = !(pfcClasses q v false).testBit c := by
    have h := Nat.testBit_two_pow_sub_succ (pfcClasses_lt q v false) c
    rw [show 2 ^ 8 - (pfcClasses q v false + 1) = 0xFF - pfcClasses q v false by omega] at h
    simpa [hc] using h
  rw [Nat.testBit_and, Nat.testBit_or, hoff, testBit_pfcClasses hc, testBit_pfcClasses hc]
  cases v.testBit c <;> cases (q.getD c 0 != 0) <;> simp

section
variable {s : State} {port : Nat}

theorem countControl_regs (s : State) (port : Nat) : (countControl s port).regs = s.regs := by simp [countControl]
/-- What a control frame of a port that is UP finds: the counts and the credits leave the registers as they were. -/
theorem honoured_regs (s : State) (port : Nat) : (creditTick (portCount (countControl s port) port 6 1) port).regs = s.regs := by
  simp [countControl_regs]
theorem fcMode_congr {t : State} (h : t.regs = s.regs) : fcMode t port = fcMode s port := fld_congr (rd_congr h _ _) _ _

theorem controlIn_serving (hon : pageOn s (portPage port) = true) (hres : inReset s (portPage port) = false)
    (hiso : isolated s (portPage port) = false) (mc : MacControl) : controlIn s port mc = macControl (countControl s port) port mc := by
  unfold controlIn
  rw [if_neg (by simp [hon, hres]), if_neg (by simp [hiso])]

variable (hline : port < 64) (hup : linkState s port = 2) (hen : bitAt s (macPage port) 0x108 2 = true)
include hline hup hen

theorem macControl_pause (hmode : fcMode s port = 1) (q : BitVec 16) :
    macControl (countControl s port) port (.pause q) =
      setEport (creditTick (portCount (countControl s port) port 6 1) port) port
        { eportOf (creditTick (portCount (countControl s port) port 6 1) port) port with paused := if q = 0 then 0 else 0xFF } := by
  have hr := honoured_regs s port
  unfold macControl
  dsimp only
  rw [if_neg (by rw [linkState_congr (rd_congr hr _ _)]; simp [hup]), if_neg (by omega)]
  exact if_pos ⟨(fcMode_congr hr).trans hmode, (bitAt_congr (rd_congr hr _ _) 2).trans hen⟩
theorem macControl_pfc (hmode : fcMode s port = 2) (v : BitVec 8) (q : List (BitVec 16)) :
    macControl (countControl s port) port (.pfc v q) =
      setEport (creditTick (portCount (countControl s port) port 6 1) port) port
        { eportOf (creditTick (portCount (countControl s port) port 6 1) port) port with
          paused := ((eportOf (creditTick (portCount (countControl s port) port 6 1) port) port).paused |||
            pfcClasses q (v.toNat &&& fld s (macPage port) 0x108 15 8) true) &&& (0xFF - pfcClasses q (v.toNat &&& fld s (macPage port) 0x108 15 8) false) } := by
  have hr := honoured_regs s port
  unfold macControl
  dsimp only
  rw [if_neg (by rw [linkState_congr (rd_congr hr _ _)]; simp [hup]), if_neg (by omega), fld_congr (rd_congr hr _ _)]
  exact if_pos ⟨(fcMode_congr hr).trans hmode, (bitAt_congr (rd_congr hr _ _) 2).trans hen⟩

end

/-! ### Refresh (R85) -/

theorem signalXoff_class {s : State} {port c : Nat} (h : fcMode s port ≠ 2) (on : Bool) : signalXoff s port (some c) on = s := by
  unfold signalXoff
  dsimp only
  split
  · rfl
  · exact if_neg fun hm => h hm.1
theorem pauseAgain_pause {s : State} {port : Nat} (htx : fcTx s port = true) (hmode : fcMode s port = 1)
    (hoff : ebit (tget s bpmInPage 1 0 (512 + port)) 31 = true) :
    pauseAgain s port = addCounter (emit s (.pause port 0x100 (fld s (macPage port) 0x11C 15 0))) (cntPage (port / 16)) 1 (port % 16) 13 1 := by
  have htotal : signalXoff s port none true =
      addCounter (emit s (.pause port 0x100 (fld s (macPage port) 0x11C 15 0))) (cntPage (port / 16)) 1 (port % 16) 13 1 := by
    unfold signalXoff
    simp only [htx, Bool.not_true, Bool.false_eq_true, if_false, hmode, if_true]
  unfold pauseAgain
  simp only [inIdx, hoff, if_true, htotal]
  refine forEach_fixed fun c _ => ?_
  exact ite_eq_right_iff.mpr fun _ => signalXoff_class (by rw [fcMode_congr (s := s) (by simp)]; omega) true

/-! ### Low-power idle (R87, R88) -/

@[simp] theorem eportOf_setEport_same (s : State) (port : Nat) (e : EPort) : eportOf (setEport s port e) port = e := mapGet_mapSet_same _ _ _ _

theorem eportOf_portCount (s : State) (port k n q : Nat) : eportOf (portCount s port k n) q = eportOf s q := by
  have h : (portCount s port k n).eports = s.eports := by simp [portCount]
  unfold eportOf
  rw [h]
theorem lpiIn_idle {s : State} {port : Nat} (heee : eeeOn s port = true) (hup : linkState s port = 2) (htx : (eportOf s port).tx = none)
    (hq : ∀ c < 8, (queueOf s (qIdx port c)).frames = []) (hlpi : (eportOf s port).lpi = false) :
    lpiIn s port = setLpi (portCount s port 15 1) port true := by
  have hidle : (List.range 8).all (fun c => (queueOf s (qIdx port c)).frames.isEmpty) = true :=
    List.all_eq_true.mpr fun c hc => by rw [hq c (List.mem_range.mp hc)]; rfl
  exact if_pos ⟨heee, hup, by rw [htx]; rfl, hidle, by rw [hlpi]; rfl⟩

end Sys2Proof.Machine

namespace Sys2Proof
open Machine

/-- Settles O25. -/
theorem flowControlAndIdle : Obligations.FlowControlAndIdle := by
  unfold Obligations.FlowControlAndIdle
  have hport : ∀ {p : Nat}, p ≤ 105 → macPort p = true := fun h => by simpa [macPort] using h
  refine ⟨fun s u port q hl hon hres hiso hup hu hmode hen => completes ?_, fun s u port v q hl hon hres hiso hup hu hmode hen => ?_,
    fun s u port mc hp hon hres hiso hup hu h => completes ?_, fun s u port cs hp hu => completes ?_,
    fun s port hl htx hmode hoff => completes ?_, fun s port hp heee hup htx hq hlpi => ⟨completes ?_, ?_, ?_⟩,
    fun s port hp hlpi => ⟨completes ?_, ?_⟩⟩
  · rw [hu]
    exact (if_pos (hport (by omega))).trans ((controlIn_serving hon hres hiso _).trans (macControl_pause hl hup hen hmode q))
  · rw [hu]
    refine ⟨_, completes ((if_pos (hport (by omega))).trans
      ((controlIn_serving hon hres hiso _).trans (macControl_pfc hl hup hen hmode v q))), rfl, fun c hc => ?_⟩
    refine (testBit_pfc hc).trans ?_
    rw [Nat.testBit_and, fld, testBit_bitsOf]
    simp [hc, bitAt]
  · have hr := countControl_regs s port.toNat
    rw [hu]
    refine (if_pos (hport hp)).trans ((controlIn_serving hon hres hiso _).trans (macControl_drop ((linkState_congr (rd_congr hr _ _)).trans hup) ?_))
    exact h.imp_right fun h => .inl ((bitAt_congr (rd_congr hr _ _) 2).trans h)
  · rw [hu]
    exact if_pos (hport hp)
  · exact (if_pos (hport (by omega))).trans (pauseAgain_pause htx hmode hoff)
  · exact (if_pos (hport hp)).trans (lpiIn_idle heee hup htx hq hlpi)
  · rw [setLpi, eportOf_setEport_same]
  · rw [setLpi, eportOf_setEport_same]
    simp only [Bool.true_and, eportOf_portCount]
  · exact (if_pos (hport hp)).trans (if_pos hlpi)
  · rw [setLpi, eportOf_setEport_same]

end Sys2Proof
end

section
/-! PROOFS. SerDes scans and adaptation, and pluggable modules (R80, R91 to R93). -/

namespace Sys2Proof.Machine

/-- Storing a word changes the registers and their parity alone. -/
theorem storeWord_only (s : State) (p o v mask : Nat) : ∃ r b, storeWord s p o v mask = { s with regs := r, parBad := b } := by
  unfold storeWord
  split
  · exact ⟨s.regs, s.parBad, rfl⟩
  · split
    · exact ⟨_, s.parBad, rfl⟩
    · exact ⟨_, _, rfl⟩
theorem bitOf_written_of_row {s : State} {p o v b : Nat} {row : RegRow} (hrow : regRow p o = some row) (hb : b < 32)
    (hw : (row.rw ||| row.rws).testBit b = false) (hc : row.w1c.testBit b = false) (hs : row.w1s.testBit b = false) :
    bitAt (written s p o v) p o b = bitAt s p o b := by
  simpa [hw, hc, hs] using (Sys2Proof.writesStoreByAccessCode s p o v b row hrow hb).1

/-! ### The pages of a quad and of a cage -/

theorem sdq_rows : ∀ q < 16, ∀ l < 4, (pageInfo (sdqPage q)).any (fun i => i.kind == .sdq && i.region * 4 + i.sub == q) = true ∧
    regRow (sdqPage q) 0x110 = some { off := 0x110, rw := 0x3, w1s := 0x100, w1c := 0xC00 } ∧ isHigh (sdqPage q) 0x110 = false ∧
    regRow (sdqPage q) (0x148 + 0x20 * l) = some { off := 0x148, n := 4, stride := 0x20, rw := 0x2, w1s := 0x1 } ∧
    isHigh (sdqPage q) (0x148 + 0x20 * l) = false := by decide +kernel
theorem mod_rows : ∀ c < 16, (pageInfo (modPage c)).any (fun i => i.kind == .mod && i.region * 4 + i.sub == c) = true ∧
    regRow (modPage c) 0x100 = some { off := 0x100, rw := 0x1F, w1s := 0x100 } ∧ isHigh (modPage c) 0x100 = false ∧
    regRow (modPage c) 0x108 = some (rowRW 0x108) ∧ isHigh (modPage c) 0x108 = false := by decide +kernel
theorem info_of_any {p : Nat} {k : PageKind} {f : PageInfo → Nat} {n : Nat}
    (h : (pageInfo p).any (fun i => i.kind == k && f i == n) = true) : ∃ i, pageInfo p = some i ∧ i.kind = k ∧ f i = n := by
  obtain ⟨i, hi, h⟩ := (Option.any_eq_true _ _).mp h
  simp only [Bool.and_eq_true, beq_iff_eq] at h
  exact ⟨i, hi, h.1, h.2⟩

/-! ### Eye scans -/

section
variable {s : State} {r : Requester} {q l : Nat} (hq : q < 16) (hl : l < 4)
include hq hl

omit hq in
theorem eye_word : l + 0x100 < 2 ^ 32 ∧
    bitOf (reached { off := 0x110, rw := 0x3, w1s := 0x100, w1c := 0xC00 } (l + 0x100)) 8 = true ∧ (l + 0x100) % 4 = l := by
  have h : ∀ l < 4, bitOf (reached { off := 0x110, rw := 0x3, w1s := 0x100, w1c := 0xC00 } (l + 0x100)) 8 = true := by decide +kernel
  exact ⟨by omega, h l hl, by omega⟩
theorem regWrite_eye (h : opened s r (sdqPage q) 0x110 = true) :
    regWrite s r (sdqPage q) 0x110 (l + 0x100) = { eyeStart (written s (sdqPage q) 0x110 (l + 0x100)) q with resp := .done } := by
  obtain ⟨hinfo, hrow, hhigh, -, -⟩ := sdq_rows q hq l hl
  obtain ⟨i, hi, hkind, hquad⟩ := info_of_any hinfo
  obtain ⟨hv, h8, -⟩ := eye_word hl
  rw [regWrite_block h hi hrow (by decide) (by decide) rfl hhigh hv]
  simp only [blockEffect, hkind, sdqEffect, if_true, h8, hquad]
theorem fld_eye_lane : fld (written s (sdqPage q) 0x110 (l + 0x100)) (sdqPage q) 0x110 1 0 = l := by
  obtain ⟨-, hrow, -, -, -⟩ := sdq_rows q hq l hl
  have hbit : ∀ b < 2, bitAt (written s (sdqPage q) 0x110 (l + 0x100)) (sdqPage q) 0x110 b = (l + 0x100).testBit b := fun b hb =>
    bitOf_written hrow _ (by omega) (by cases b, hb using lt_two_cases <;> rfl)
  rw [fld_1_0, hbit 0 (by decide), hbit 1 (by decide)]
  cases l, hl using lt_four_cases <;> rfl
theorem busy_written : bitAt (written s (sdqPage q) 0x110 (l + 0x100)) (sdqPage q) 0x110 9 = bitAt s (sdqPage q) 0x110 9 :=
  bitOf_written_of_row (sdq_rows q hq l hl).2.1 (by decide) rfl rfl rfl

/-! ### Adaptation -/

theorem adaptWith_one {snr : Nat} (h : opened s r (sdqPage q) (0x148 + 0x20 * l) = true) (hfree : bitAt s (sdqPage q) (0x148 + 0x20 * l) 1 = false) :
    adaptWith s r q l snr = setFld { adaptNow
      { written s (sdqPage q) (0x148 + 0x20 * l) (rewritten s (sdqPage q) (0x148 + 0x20 * l) 1 1) with freeCtr := s.freeCtr + 1 } q l
        (Config.freeValue s.freeCtr % 256) with resp := .done } (sdqPage q) (0x14C + 0x20 * l) 15 8 snr := by
  obtain ⟨hinfo, -, -, hrow, hhigh⟩ := sdq_rows q hq l hl
  obtain ⟨i, hi, hkind, hquad⟩ := info_of_any hinfo
  have hv := rewritten_lt s (sdqPage q) (0x148 + 0x20 * l) (mask := 1) 1 (by decide)
  have hgo : bitOf (reached { off := 0x148, n := 4, stride := 0x20, rw := 0x2, w1s := 0x1 } (rewritten s (sdqPage q) (0x148 + 0x20 * l) 1 1)) 0 = true := by
    rw [bitOf_reached hv, testBit_rewritten hrow _ _ (by decide)]
    rfl
  have hstill : bitAt (written s (sdqPage q) (0x148 + 0x20 * l) (rewritten s (sdqPage q) (0x148 + 0x20 * l) 1 1)) (sdqPage q) (0x148 + 0x20 * l) 1 = false := by
    refine (bitOf_written hrow _ (by decide) rfl).trans ?_
    rw [testBit_rewritten hrow _ _ (by decide), hfree]
    rfl
  have hctr : (written s (sdqPage q) (0x148 + 0x20 * l) (rewritten s (sdqPage q) (0x148 + 0x20 * l) 1 1)).freeCtr = s.freeCtr := by
    obtain ⟨x, y, hx⟩ := storeWord_only s (sdqPage q) (0x148 + 0x20 * l) (rewritten s (sdqPage q) (0x148 + 0x20 * l) 1 1) all32
    rw [written, hx]
  unfold adaptWith
  simp only [h, hfree, Bool.not_false, Bool.and_self, if_true]
  rw [regUpdate, regWrite_block h hi hrow (by omega) (by omega) rfl hhigh hv]
  simp only [blockEffect, hkind, sdqEffect, hquad]
  rw [if_neg (by omega), if_pos ⟨by omega, by omega⟩, if_pos (by omega), if_pos ⟨hgo, by rw [hstill]; rfl⟩, show (0x148 + 0x20 * l - 0x140) / 0x20 = l by omega,
    fresh, hctr]

end

/-! ### A cage -/

section
variable {s : State} {c : Nat}

theorem cageState_setBit (s : State) (c : Nat) {b : Nat} (v : Bool) (hb : 4 ≤ b) (hb' : b < 32) :
    cageState (setBit s (modPage c) 0x104 b v) c = cageState s c :=
  fld_congr_bits fun i hi => by rw [bitAt_setBit _ _ _ _ _ _ _ _ hb', if_neg (by omega)]
theorem cageManual_setBit (s : State) (c b : Nat) (v : Bool) : cageManual (setBit s (modPage c) 0x104 b v) c = cageManual s c :=
  bitAt_congr (rd_setBit_key _ _ _ _ _ _ _ (by omega)) 0
theorem laneOff_lt (lane : Nat) : laneOff 0x14C lane < 4096 := by unfold laneOff; omega
/-- A lane's status stands on the page of its quad. -/
theorem rd_setLane (s : State) (lane bit src : Nat) (v : Bool) {p o : Nat} (hp : p ≠ sdqPage (lane / 4)) (ho : o < 4096) :
    rd (setLane s lane bit src v) p o = rd s p o := by
  have hoff := laneOff_lt lane
  have hset : rd (setBit s (sdqPage (lane / 4)) (laneOff 0x14C lane) bit v) p o = rd s p o := rd_setBit_key _ _ _ _ _ _ _ (by omega)
  unfold setLane
  dsimp only
  split
  · exact (rd_raise _ _ _ _ _ _ _ _ (by omega)).trans hset
  · exact hset
theorem rd_cageDark (s : State) (c : Nat) {p o : Nat} (hp : p ≠ sdqPage c) (ho : o < 4096) : rd (cageDark s c) p o = rd s p o := by
  have hq : ∀ l < 4, (4 * c + l) / 4 = c := fun l hl => by omega
  show rd (setLane (setLane (setLane (setLane (emit s (.i2c c "lanes squelched")) (4 * c + 0) 0 1 false) (4 * c + 1) 0 1 false) (4 * c + 2) 0 1 false)
    (4 * c + 3) 0 1 false) p o = rd s p o
  rw [rd_setLane _ _ _ _ _ (by rwa [hq 3 (by decide)]) ho, rd_setLane _ _ _ _ _ (by rwa [hq 2 (by decide)]) ho,
    rd_setLane _ _ _ _ _ (by rwa [hq 1 (by decide)]) ho, rd_setLane _ _ _ _ _ (by rwa [hq 0 (by decide)]) ho]
  rfl
/-- The cage whose ports are all disabled is left EMPTY. -/
theorem modOut_quiet (hc : c < 16) (hman : cageManual s c = false) (hoff : ∀ l < 4, linkState s (4 * c + l) = 0) : modOut s c =
    setFld (raise (setBit (setBit (cageDark s c) (modPage c) 0x104 8 true) (modPage c) 0x104 9 true) (modPage c) 0) (modPage c) 0x104 3 0 0 := by
  have hmod : modPage c ≠ sdqPage c := by unfold modPage sdqPage; omega
  have hmac : ∀ l < 4, portPage (4 * c + l) = macPage (4 * c + l) ∧ macPage (4 * c + l) ≠ sdqPage c ∧ macPage (4 * c + l) ≠ modPage c := fun l hl => by
    refine ⟨portPage_line (by omega), ?_, ?_⟩
    · unfold macPage sdqPage; omega
    · unfold macPage modPage; omega
  have hlink : ∀ l < 4, linkState (setBit (setBit (cageDark s c) (modPage c) 0x104 8 true) (modPage c) 0x104 9 true) (4 * c + l) = 0 := fun l hl => by
    obtain ⟨hp, hs, hm⟩ := hmac l hl
    rw [linkState_congr (s := s), hoff l hl]
    rw [hp, rd_setBit_key _ _ _ _ _ _ _ (by omega), rd_setBit_key _ _ _ _ _ _ _ (by omega), rd_cageDark _ _ hs (by decide)]
  have hman' : cageManual (setBit (setBit (cageDark s c) (modPage c) 0x104 8 true) (modPage c) 0x104 9 true) c = false := by
    rw [cageManual_setBit, cageManual_setBit]
    exact (bitAt_congr (rd_cageDark _ _ hmod (by decide)) 0).trans hman
  have hports : forEach (setBit (setBit (cageDark s c) (modPage c) 0x104 8 true) (modPage c) 0x104 9 true) [0, 1, 2, 3] (fun s l =>
      if linkState s (4 * c + l) = 0 then s else linkNotGood (setBit s (macPage (4 * c + l)) oLinkStat 3 false) (4 * c + l)) =
      setBit (setBit (cageDark s c) (modPage c) 0x104 8 true) (modPage c) 0x104 9 true :=
    forEach_fixed fun l hl => if_pos (hlink l (by simp at hl; omega))
  unfold modOut
  dsimp only
  rw [hports, hman', if_neg Bool.false_ne_true]
  rfl

section
variable {r : Requester} (hc : c < 16)
include hc

theorem regUpdate_retry (h : opened s r (modPage c) 0x100 = true) (hman : cageManual s c = false) (hst : cageState s c = 6 ∨ cageState s c = 7) :
    regUpdate s r (modPage c) 0x100 0x100 0x100 = { setFld { written s (modPage c) 0x100 (rewritten s (modPage c) 0x100 0x100 0x100) with
      modRetry := s.modRetry.erase c } (modPage c) 0x104 3 0 1 with resp := .done } := by
  obtain ⟨hinfo, hrow, hhigh, -, -⟩ := mod_rows c hc
  obtain ⟨i, hi, hkind, hcage⟩ := info_of_any hinfo
  have hv := rewritten_lt s (modPage c) 0x100 (mask := 0x100) 0x100 (by decide)
  have hgo : bitOf (reached { off := 0x100, rw := 0x1F, w1s := 0x100 } (rewritten s (modPage c) 0x100 0x100 0x100)) 8 = true := by
    rw [bitOf_reached hv, testBit_rewritten hrow _ _ (by decide)]
    rfl
  have hman' : bitAt (written s (modPage c) 0x100 (rewritten s (modPage c) 0x100 0x100 0x100)) (modPage c) 0x100 0 = false := by
    have h0 : bitAt s (modPage c) 0x100 0 = false := hman
    refine (bitOf_written hrow _ (by decide) rfl).trans ?_
    rw [testBit_rewritten hrow _ _ (by decide), h0]
    rfl
  have hst' : cageState (written s (modPage c) 0x100 (rewritten s (modPage c) 0x100 0x100 0x100)) c = cageState s c :=
    fld_congr (rd_storeWord_other _ _ _ _ _ _ _ (by omega)) _ _
  have hretry : (written s (modPage c) 0x100 (rewritten s (modPage c) 0x100 0x100 0x100)).modRetry = s.modRetry := by
    obtain ⟨x, y, hx⟩ := storeWord_only s (modPage c) 0x100 (rewritten s (modPage c) 0x100 0x100 0x100) all32
    rw [written, hx]
  have hlevels : ∀ old, cageLevels (written s (modPage c) 0x100 (rewritten s (modPage c) 0x100 0x100 0x100)) c old
      (rd (written s (modPage c) 0x100 (rewritten s (modPage c) 0x100 0x100 0x100)) (modPage c) 0x100).toNat =
      written s (modPage c) 0x100 (rewritten s (modPage c) 0x100 0x100 0x100) := fun old => if_pos (by
    rw [show bitOf (rd (written s (modPage c) 0x100 (rewritten s (modPage c) 0x100 0x100 0x100)) (modPage c) 0x100).toNat 0 = false from hman']
    rfl)
  rw [regUpdate, regWrite_block h hi hrow (by decide) (by decide) rfl hhigh hv]
  refine responds ?_ _
  simp only [blockEffect, hkind, hcage, if_true, hlevels, hgo]
  refine (if_neg ?_).trans ?_
  · rw [hst', show cageManual (written s (modPage c) 0x100 (rewritten s (modPage c) 0x100 0x100 0x100)) c = false from hman']
    rcases hst with hst | hst <;> simp [hst]
  · rw [hretry]
    rfl
theorem regWrite_xfer (h : opened s r (modPage c) 0x108 = true) (hfree : bitAt s (modPage c) 0x10C 0 = false) (v : Word) :
    regWrite s r (modPage c) 0x108 v.toNat = { (let w := written s (modPage c) 0x108 v.toNat
      let cmd := (rd w (modPage c) 0x108).toNat
      let u := setBit { w with xferCmd := mapSet (fun _ => 0) w.xferCmd c cmd } (modPage c) 0x10C 0 true
      emit u (.i2cXfer c cmd (busKhz u c) (if bitOf cmd 31 then xferData u c (bitsOf cmd 30 24 + 1) else []))) with resp := .done } := by
  obtain ⟨hinfo, -, -, hrow, hhigh⟩ := mod_rows c hc
  obtain ⟨i, hi, hkind, hcage⟩ := info_of_any hinfo
  have hfree' : bitAt (written s (modPage c) 0x108 v.toNat) (modPage c) 0x10C 0 = false :=
    (bitAt_congr (rd_storeWord_other _ _ _ _ _ _ _ (by omega)) 0).trans hfree
  rw [regWrite_block h hi hrow (by decide) (by decide) rfl hhigh v.isLt]
  refine responds ?_ _
  simp only [blockEffect, hkind, hcage]
  rw [if_neg (by decide), if_pos trivial]
  exact if_neg (by rw [hfree']; decide)

end
end

end Sys2Proof.Machine

namespace Sys2Proof
open Machine

/-- Settles O26. -/
theorem serdesAndModules : Obligations.SerdesAndModules := by
  unfold Obligations.SerdesAndModules
  refine ⟨fun s r q l h hfree => completes ?_, fun s r q l h hbusy => completes ?_, fun s q h w hbusy => completes ?_,
    fun s r q l snr h hfree => completes (adaptWith_one q.isLt l.isLt h hfree), fun s c hman hst => completes ?_, fun s c hman hst => completes ?_,
    fun s u c id ok judged hman hst hu => completes ?_, fun s c id ok judged hman hst => completes ?_, fun s c hman hst => completes ?_,
    fun s c hman hst => completes ?_, fun s c hman hst => completes ?_, fun s u c hman hoff hu => ⟨rfl, ?_⟩,
    fun s r c h hman hst => completes (regUpdate_retry c.isLt h hman hst), fun s u r c v h hfree hu => completes ?_,
    fun s u c data cmd hbusy hcmd hu => completes ?_, fun s c data hbusy => completes ?_⟩
  · refine (regWrite_eye q.isLt l.isLt h).trans (responds ?_ _)
    have hlane : (written s (sdqPage q.toNat) 0x110 (l.toNat + 0x100)).eyeLane = s.eyeLane := by
      obtain ⟨x, y, hx⟩ := storeWord_only s (sdqPage q.toNat) 0x110 (l.toNat + 0x100) all32
      rw [written, hx]
    refine (if_neg (by rw [busy_written q.isLt l.isLt, hfree]; decide)).trans ?_
    rw [fld_eye_lane q.isLt l.isLt, hlane]
  · exact (regWrite_eye q.isLt l.isLt h).trans (responds (if_pos ((busy_written q.isLt l.isLt).trans hbusy)) _)
  · exact if_neg (by simp [hbusy])
  · refine if_neg ?_
    rw [cageManual_setBit, cageManual_setBit, cageState_setBit _ _ _ (by decide) (by decide), cageState_setBit _ _ _ (by decide) (by decide), hman, hst]
    decide
  · exact if_neg (by simp [hman, hst])
  · have h3 : ¬cageState s c.toNat = 3 := by omega
    refine (if_neg (by simp [hman, hst])).trans ?_
    simp only [Bool.not_true, Bool.false_eq_true, if_false, h3]
    rw [hu]
    rfl
  · exact (if_neg (by rcases hst with hst | hst <;> simp [hman, hst])).trans (if_pos rfl)
  · exact if_neg (by simp [hman, hst])
  · exact if_neg (by simp [hman, hst])
  · refine (if_neg ?_).trans (if_neg (by decide))
    rw [cageManual_setBit, cageState_setBit _ _ _ (by decide) (by decide), hman, hst]
    decide
  · rw [hu, modOut_quiet c.isLt hman hoff]
  · refine (regWrite_xfer c.isLt h hfree v).trans (responds ?_ _)
    have hcmd : rd u (modPage c.toNat) 0x108 = rd (written s (modPage c.toNat) 0x108 v.toNat) (modPage c.toNat) 0x108 := by
      rw [hu]
      exact rd_setBit_key _ _ _ _ _ _ _ (by omega)
    have hx : (written s (modPage c.toNat) 0x108 v.toNat).xferCmd = s.xferCmd := by
      obtain ⟨x, y, hx⟩ := storeWord_only s (modPage c.toNat) 0x108 v.toNat all32
      rw [written, hx]
    unfold fld
    rw [hcmd]
    dsimp only
    rw [hx, ← hu]
  · refine (if_neg (by simp [hbusy])).trans ?_
    rw [hu, hcmd]
    rfl
  · exact (if_neg (by simp [hbusy])).trans rfl

end Sys2Proof
end

section
/-! PROOFS. Field ports, T1S segments, SGMII and MDIO (R103, R107 to R111). -/

namespace Sys2Proof.Machine

/-! ### The page of a field port -/

theorem field_rows : ∀ k < 42, (regRow (fpPage (64 + k)) 0x100).any (fun row => row.rw.testBit 0 && decide (row.rw < 2 ^ 32) && !row.wide) = true ∧
    isHigh (fpPage (64 + k)) 0x100 = false ∧
    ((pageInfo (fpPage (64 + k))).any (fun i => i.kind == .t1l && i.sub == 64 + k) || (pageInfo (fpPage (64 + k))).any (fun i => i.kind == .t1s && i.sub == 64 + k) ||
      (pageInfo (fpPage (64 + k))).any (fun i => i.kind == .mgt && i.sub == 64 + k)) = true := by decide +kernel
theorem blockEffect_fieldCfg {s0 s : State} {r : Requester} {p : Nat} {i : PageInfo} (h : i.kind = .t1l ∨ i.kind = .t1s ∨ i.kind = .mgt) (old w n : Nat) :
    blockEffect s0 s r p i 0x100 old w n = portEffect s i.sub old n := by
  rcases h with h | h | h <;> simp [blockEffect, h]
section
variable {s : State} {r : Requester} {k v : Nat} (hk : 64 ≤ k) (hk' : k ≤ 105)
include hk hk'

theorem field_info : ∃ i, pageInfo (fpPage k) = some i ∧ (i.kind = .t1l ∨ i.kind = .t1s ∨ i.kind = .mgt) ∧ i.sub = k := by
  obtain ⟨-, -, h⟩ := field_rows (k - 64) (by omega)
  rw [show 64 + (k - 64) = k by omega] at h
  simp only [Bool.or_eq_true] at h
  rcases h with (h | h) | h
  · obtain ⟨i, hi, hkind, hsub⟩ := info_of_any h
    exact ⟨i, hi, .inl hkind, hsub⟩
  · obtain ⟨i, hi, hkind, hsub⟩ := info_of_any h
    exact ⟨i, hi, .inr (.inl hkind), hsub⟩
  · obtain ⟨i, hi, hkind, hsub⟩ := info_of_any h
    exact ⟨i, hi, .inr (.inr hkind), hsub⟩
theorem regWrite_field_enable (h : opened s r (fpPage k) 0x100 = true) (hv : v < 2 ^ 32) (hoff : bitAt s (fpPage k) 0x100 0 = false)
    (hon : v.testBit 0 = true) : regWrite s r (fpPage k) 0x100 v = { fieldEnable (written s (fpPage k) 0x100 v) k with resp := .done } := by
  obtain ⟨hrow, hhigh, -⟩ := field_rows (k - 64) (by omega)
  rw [show 64 + (k - 64) = k by omega] at hrow hhigh
  obtain ⟨row, hrow, hcodes⟩ := (Option.any_eq_true _ _).mp hrow
  simp only [Bool.and_eq_true, Bool.not_eq_true', decide_eq_true_eq] at hcodes
  obtain ⟨⟨hrw, -⟩, hwide⟩ := hcodes
  obtain ⟨i, hi, hkind, hsub⟩ := field_info hk hk'
  have hnow : bitOf (rd (written s (fpPage k) 0x100 v) (fpPage k) 0x100).toNat 0 = true :=
    (bitOf_written hrow v (by decide) (by rw [Nat.testBit_or, hrw]; rfl)).trans hon
  have hwas : bitOf (rd s (fpPage k) 0x100).toNat 0 = false := hoff
  rw [regWrite_block h hi hrow (by decide) (by decide) hwide hhigh hv, blockEffect_fieldCfg hkind, hsub]
  simp only [portEffect, hnow, hwas, Bool.not_false, and_self, if_true, if_neg (Nat.not_lt.mpr hk)]

end

theorem domOn_written (s : State) (p o v d : Nat) : domOn (written s p o v) d = domOn s d := by
  obtain ⟨x, y, hx⟩ := storeWord_only s p o v all32
  rw [written, hx]
  rfl

/-! ### Collisions (R109, R110) -/

@[simp] theorem collOf_setColl_same (s : State) (k : Nat) (x : Coll) : collOf (setColl s k x) k = x := mapGet_mapSet_same _ _ _ _

section
variable {s : State} {k : Nat} (hlo : 96 ≤ k) (hhi : k < 104)
include hlo hhi

theorem isT1s_of_range : isT1s k = true := by simp [isT1s, hlo, hhi]

section
variable (htx : (eportOf s k).tx.isSome = true) (hwait : (collOf s k).waiting = false)
include htx hwait

theorem collide_goes (late : Bool) : collide s k late =
    (let t := setEport s k { eportOf s k with burst := 0 }
     if late && !plcaLive s k then dropTx (raise (addSat t (fpPage k) 0x128 31 16 1) (fpPage k) 6) k 0x16
     else if 16 ≤ (collOf s k).attempts + 1 then dropTx (raise (addSat t (fpPage k) 0x128 15 0 1) (fpPage k) 5) k 0x15
     else setColl { addSat t (fpPage k) 0x128 15 0 1 with freeCtr := s.freeCtr + 1 } k
       { attempts := (collOf s k).attempts + 1, waiting := true
         slots := if plcaLive s k then 0 else Config.freeValue s.freeCtr % 2 ^ min ((collOf s k).attempts + 1) 10 }) := by
  have hlive : ∀ u : State, u.regs = s.regs → (eportOf u k).plca = (eportOf s k).plca → plcaLive u k = plcaLive s k := fun u hr hp => by
    unfold plcaLive plcaOn
    rw [hp, bitAt_congr (rd_congr hr _ _)]
  have hburst : plcaLive (setEport s k { eportOf s k with burst := 0 }) k = plcaLive s k := hlive _ rfl (by rw [eportOf_setEport_same])
  have hcount : plcaLive (addSat (setEport s k { eportOf s k with burst := 0 }) (fpPage k) 0x128 15 0 1) k = plcaLive s k := by
    rw [← hburst]
    unfold plcaLive
    rw [bitAt_congr (rd_addSat_key _ _ _ _ _ _ _ _ (by omega))]
    rfl
  unfold collide
  have htx' : (eportOf s k).tx.isNone = false := by
    cases h : (eportOf s k).tx with
    | none => simp [h] at htx
    | some t => rfl
  rw [if_neg (by simp [isT1s_of_range hlo hhi, htx', hwait])]
  dsimp only
  rw [hburst]
  split
  · rfl
  · split
    · next h => exact (if_pos h).symm
    · next h =>
      refine Eq.trans ?_ (if_neg h).symm
      exact congrArg (fun live : Bool => setColl { addSat (setEport s k { eportOf s k with burst := 0 }) (fpPage k) 0x128 15 0 1 with freeCtr := s.freeCtr + 1 } k
        { attempts := (collOf s k).attempts + 1, waiting := true
          slots := if live then 0 else Config.freeValue s.freeCtr % 2 ^ min ((collOf s k).attempts + 1) 10 }) hcount

end

end

/-! ### MDIO (R111) -/

theorem mdioWord_lt (cmd op : Nat) : mdioWord cmd op < 2 ^ 32 ∧ (mdioWord cmd op).testBit 31 = true := by
  have h : withBits (cmd % 2 ^ 14) 12 11 op < 2 ^ 14 := withBits_lt _ _ _ _ _ (by decide) (by decide) (Nat.mod_lt _ (by decide))
  unfold mdioWord
  refine ⟨by omega, ?_⟩
  rw [Nat.add_comm, Nat.testBit_two_pow_add_eq, Nat.testBit_lt_two_pow (Nat.lt_of_lt_of_le h (by decide))]
  rfl
theorem mdio_row : regRow (fpPage 104) 0x140 = some { off := 0x140, rw := 0x3FFF, w1s := 0x80000000 } ∧ isHigh (fpPage 104) 0x140 = false ∧
    (pageInfo (fpPage 104)).any (fun i => i.kind == .mgt && i.sub == 104) = true := by decide +kernel
theorem regWrite_mdio {s : State} {r : Requester} (h : opened s r (fpPage 104) 0x140 = true) (hfree : bitAt s (fpPage 104) 0x140 31 = false) (cmd op : Nat) :
    regWrite s r (fpPage 104) 0x140 (mdioWord cmd op) =
      { mdioStart (setBit (written s (fpPage 104) 0x140 (mdioWord cmd op)) (fpPage 104) 0x140 31 true) with resp := .done } := by
  obtain ⟨hrow, hhigh, hinfo⟩ := mdio_row
  obtain ⟨i, hi, hkind, -⟩ := info_of_any hinfo
  obtain ⟨hv, h31⟩ := mdioWord_lt cmd op
  have hgo : bitOf (reached { off := 0x140, rw := 0x3FFF, w1s := 0x80000000 } (mdioWord cmd op)) 31 = true := by
    rw [bitOf_reached hv, h31]
    rfl
  have hold : bitOf (rd s (fpPage 104) 0x140).toNat 31 = false := hfree
  rw [regWrite_block h hi hrow (by decide) (by decide) rfl hhigh hv]
  refine responds ?_ _
  simp only [blockEffect, hkind, mdioEffect, hgo, hold, if_true]
  rw [if_neg (by decide), if_neg Bool.false_ne_true]

end Sys2Proof.Machine

namespace Sys2Proof
open Machine

/-- Settles O27. -/
theorem fieldPortsAndSegments : Obligations.FieldPortsAndSegments := by
  unfold Obligations.FieldPortsAndSegments
  refine ⟨fun s r k cfg hlo hhi h hoff h1 h2 h3 => completes ?_, fun s u v k late x hlo hhi htx hwait hfew hlate hu hx hv => completes ?_,
    fun s u k hlo hhi htx hwait hlive hu => ⟨fun hmany => completes ?_, completes ?_⟩, fun s u k t e hlo hhi hwait hlive htx hu he => completes ?_,
    fun s k hlo hhi hen hplca => completes ?_, fun s u k hlo hhi hlive hu => completes ?_, fun s u k hlo hhi hu => completes ?_,
    fun s k v hk => ⟨completes ?_, completes ?_⟩, fun s u r cmd op c h hfree hc hu => ?_, fun s u d hbusy hu => completes ?_⟩
  · obtain ⟨hv, h0⟩ := enabled_word cfg
    refine (if_pos (by simp [fieldPort, hlo, hhi])).trans ((regWrite_field_enable hlo hhi h hv hoff h0).trans (responds ?_ _))
    exact if_pos (by simp only [domOn_written]; exact ⟨h1, h2, h3⟩)
  · have hsoft : (late && !plcaLive s k.toNat) = false := by rcases hlate with h | h <;> simp [h]
    have hgo : collide s k.toNat late = v := by
      rw [collide_goes hlo hhi htx hwait, hv, hu, hx]
      dsimp only
      rw [if_neg (by rw [hsoft]; decide), if_neg (by omega)]
    have hcoll : collOf v k.toNat = x := by rw [hv, collOf_setColl_same]
    unfold collision
    dsimp only
    rw [hgo, hcoll]
    simp only [Bool.and_eq_true, beq_iff_eq]
  · unfold collision
    rw [collide_goes hlo hhi htx hwait]
    dsimp only
    rw [hlive, if_neg (by simp), if_neg (by decide), if_pos (by omega), ← hu]
  · unfold collision
    rw [collide_goes hlo hhi htx hwait]
    dsimp only
    rw [hlive, if_neg (by simp), if_pos (by decide), ← hu]
  · refine (if_pos (isT1s_of_range hlo hhi)).trans ((if_pos ⟨hwait, by rw [hlive]; rfl⟩).trans ?_)
    unfold restartTx
    rw [htx, he, hu]
    rfl
  · exact (if_pos (isT1s_of_range hlo hhi)).trans (if_pos ⟨isT1s_of_range hlo hhi, hen, hplca⟩)
  · have hcoll : collOf (beaconOut s k.toNat) k.toNat = collOf s k.toNat := by
      unfold beaconOut
      dsimp only
      split <;> rfl
    refine (if_pos (isT1s_of_range hlo hhi)).trans ((if_neg (by simp [isT1s_of_range hlo hhi, hlive])).trans ?_)
    dsimp only
    rw [hcoll, ← hu]
  · refine (if_pos (isT1s_of_range hlo hhi)).trans ((if_pos (isT1s_of_range hlo hhi)).trans ?_)
    rw [hu]
  · refine (if_pos (by rcases hk with hk | hk <;> simp [mgtPort, hk])).trans ((if_neg (by simp [hk])).trans ?_)
    exact if_pos rfl
  · refine (if_pos (by rcases hk with hk | hk <;> simp [mgtPort, hk])).trans ((if_neg (by simp [hk])).trans ?_)
    exact if_neg Bool.false_ne_true
  · have hgo : regWrite s r (fpPage 104) 0x140 (mdioWord cmd.toNat op) =
        { emit u (.mdio ((rd u (fpPage 104) 0x140).toNat % 2 ^ 14) (fld u (fpPage 104) 0x144 15 0)) with resp := .done } := by
      rw [regWrite_mdio h hfree, ← hu]
      rfl
    rcases hc with ⟨rfl, rfl⟩ | ⟨rfl, rfl⟩ | ⟨rfl, rfl⟩ | ⟨rfl, rfl⟩ <;> exact completes hgo
  · have hop : fld (setBit s (fpPage 104) 0x140 31 false) (fpPage 104) 0x140 12 11 = fld s (fpPage 104) 0x140 12 11 :=
      fld_congr_bits fun i hi => by rw [bitAt_setBit _ _ _ _ _ _ _ _ (by decide), if_neg (by omega)]
    refine (if_neg (by simp [hbusy])).trans ?_
    rw [hop, hu]

end Sys2Proof
end

section
/-! PROOFS. Line sensing (R122 to R131). -/

namespace Sys2Proof.Machine

/-! ### Pairs -/

@[simp] theorem senseOf_setSense_same (s : State) (k : Nat) (x : Sense) : senseOf (setSense s k x) k = x := mapGet_mapSet_same _ _ _ _
/-- The stored word of `v` keeps everything of the machine but registers and parity. -/
theorem senseOf_written (s : State) (p o v k : Nat) : senseOf (written s p o v) k = senseOf s k := by
  obtain ⟨x, y, hx⟩ := storeWord_only s p o v all32
  rw [written, hx]
  rfl
theorem fpPage_of_pair {k : Nat} (hk : k < 40) : fpPage (pairPort k) < 4 * 4096 + 0x38 := by
  unfold fpPage pairPort
  split
  · rw [if_pos (by omega)]
    omega
  · rw [if_neg (by omega), if_pos (by omega)]
    omega
theorem pairPort_page {k : Nat} (hk : k < 40) : portPage (pairPort k) = fpPage (pairPort k) ∧ pairPort k ≤ 105 ∧ fpPage (pairPort k) ≠ snsPage ∧
    fpPage (pairPort k) ≠ pairPage := by
  have hpair : pairPort k = 64 + k ∧ k < 32 ∨ pairPort k = 96 + (k - 32) ∧ 32 ≤ k := by
    unfold pairPort
    split
    · exact .inl ⟨rfl, by omega⟩
    · exact .inr ⟨rfl, by omega⟩
  have hpage : portPage (pairPort k) = fpPage (pairPort k) := if_neg (by omega)
  refine ⟨hpage, by omega, ?_, ?_⟩
  · have hpage := fpPage_of_pair hk
    have : snsPage = 4 * 4096 + 0x50 := rfl
    omega
  · have hpage := fpPage_of_pair hk
    have : pairPage = 4 * 4096 + 0x51 := rfl
    omega
/-- What stands on the sense pages has no part in a port's link state. -/
theorem linkState_written_sns {s : State} {k o v : Nat} (hk : k < 40) (ho : o < 4096) : linkState (written s snsPage o v) (pairPort k) = linkState s (pairPort k) := by
  obtain ⟨hpage, -, hsns, -⟩ := pairPort_page hk
  exact linkState_congr (rd_storeWord_other _ _ _ _ _ _ _ (by rw [hpage]; omega))
theorem fld_setFld_apart (s : State) (p o hi lo n hi' lo' : Nat) (h : lo ≤ hi) (hw : hi < 32) (hd : hi' < lo ∨ hi < lo') :
    fld (setFld s p o hi lo n) p o hi' lo' = fld s p o hi' lo' :=
  fld_congr_bits fun i hi => by rw [bitAt_setFld _ _ _ _ _ _ _ _ _ h hw, if_neg (by omega)]
theorem fld_setBit_apart (s : State) (p o b : Nat) (v : Bool) {hi lo : Nat} (hb : b < 32) (hd : hi < b ∨ b < lo) :
    fld (setBit s p o b v) p o hi lo = fld s p o hi lo :=
  fld_congr_bits fun i hi => by rw [bitAt_setBit _ _ _ _ _ _ _ _ hb, if_neg (by omega)]

/-! ### Samples (R123) -/

/-- Samples in a row that gave the class of this one, which is `c`. -/
def runAfter (x : Sense) (c : Nat) : Nat := if x.run ≠ 0 ∧ x.cand = c then min (x.run + 1) 8 else 1
theorem runAfter_new {x : Sense} {c : Nat} (h : x.run = 0 ∨ x.cand ≠ c) : runAfter x c = 1 :=
  if_neg fun ⟨hr, hc⟩ => h.elim hr (· hc)
theorem runAfter_same {x : Sense} {c : Nat} (h0 : 0 < x.run) (h8 : x.run < 8) (hc : x.cand = c) : runAfter x c = x.run + 1 := by
  refine (if_pos ⟨by omega, hc⟩).trans ?_
  omega

section
variable {s : State} {k vp vn : Nat} {beyond : Bool} {c : Nat} (hon : pairOn s k = true) (hclamp : afterClamp s (senseOf s k) = false)
  (hcal : bitAt s pairPage (pairStat k) 3 = false)
include hon hclamp hcal

theorem senseTake_goes
    (hc : c = rawClass (setFld (setFld s pairPage (pairStat k) 19 8 vp) pairPage (pairStat k) 31 20 vn) k (signedOf 12 vp) (signedOf 12 vn) beyond
      (senseOf s k).echo) : senseTake s k vp vn beyond =
    (let u := setFld (setFld s pairPage (pairStat k) 19 8 vp) pairPage (pairStat k) 31 20 vn
     let t := setSense u k { senseOf s k with cand := c, run := runAfter (senseOf s k) c }
     if runAfter (senseOf s k) c = 8 then settleRaw t k c else t) := by
  have hcal' : bitAt (setFld (setFld s pairPage (pairStat k) 19 8 vp) pairPage (pairStat k) 31 20 vn) pairPage (pairStat k) 3 = false := by
    rw [bitAt_setFld _ _ _ _ _ _ _ _ _ (by decide) (by decide), if_neg (by omega), bitAt_setFld _ _ _ _ _ _ _ _ _ (by decide) (by decide),
      if_neg (by omega), hcal]
  unfold senseTake
  dsimp only
  rw [if_neg (by simp [hon, hclamp]), if_neg (by rw [hcal']; decide), ← hc]
  rfl

end

theorem sensePair_of_on {s : State} {k : Nat} (h : pairOn s k = true) : sensePair k = true := by
  simp only [pairOn, Bool.and_eq_true, decide_eq_true_eq] at h
  simp [sensePair, h]

/-! ### Classes (R127) -/

section
variable {s : State} {k c : Nat}

theorem senseAct_setStat (s : State) (k c n : Nat) (hk : k < 40) : senseAct (setFld s pairPage (pairStat k) 2 0 n) c = senseAct s c := by
  unfold senseAct
  rw [fld_congr (rd_setFld_key _ _ _ _ _ _ _ _ (by simp only [pairStat]; omega))]
theorem commitClass_quiet (hk : k < 40) (hne : c ≠ pairClass s k) (hact : senseAct s c = 0) (hold : senseAct s (pairClass s k) = 0) :
    commitClass s k c = setFld s pairPage (pairStat k) 2 0 c := by
  unfold commitClass
  dsimp only
  rw [if_neg hne, senseAct_setStat _ _ _ _ hk, senseAct_setStat _ _ _ _ hk, hact, hold, if_neg (by omega), if_neg (by omega),
    if_neg (by omega)]
theorem commitClass_holds (hk : k < 40) (hne : c ≠ pairClass s k) (hact : senseAct s c = 2 ∨ senseAct s c = 3) :
    commitClass s k c = (let u := raise (setFld s pairPage (pairStat k) 2 0 c) snsPage 0 0 (k + c * 64)
      senseDown (setBit (if senseAct s c = 3 then setSense u k { senseOf u k with latched := true } else u) pairPage (pairStat k) 4 true) (pairPort k)) := by
  unfold commitClass
  dsimp only
  rw [if_neg hne, senseAct_setStat _ _ _ _ hk, if_pos (show 0 < senseAct s c ∨ _ by omega), if_pos (by omega)]

end

/-! ### Echo tests -/

theorem echoResult_goes (s : State) (k : Nat) (r : Echo) : echoResult s k r =
    (let u := setSense s k { senseOf s k with echo := r, testing := false }
     let c := rawClass u k (pairVolt s k).1 (pairVolt s k).2 false r
     if bitAt s pairPage (pairStat k) 3 = false ∧ bitAt s pairPage (pairCfg k) 1 = true ∧ (c = 1 ∨ (c = 2 ∧ bitAt s pairPage (pairCfg k) 0 = false)) then
       settleRaw u k c else u) := by
  unfold echoResult
  simp only [Bool.not_eq_true']
  rfl

/-! ### Clamp events (R124) -/

section
variable {s : State} {k : Nat} {neg : Bool} (hk : k < 40) (hwas : (if neg then (senseOf s k).clampedN else (senseOf s k).clamped) = false)
  (hrun : snsRuns s = true)
include hk hwas hrun

theorem clampEdge_new (h : (senseOf s k).clampAt = none ∨ ∃ b, (senseOf s k).clampAt = some b ∧ b + msUnits 1 ≤ now s) :
    clampEdge s k neg true = raise (addSat (setSense s k (if neg then { senseOf s k with clampedN := true, clampAt := some (now s) }
      else { senseOf s k with clamped := true, clampAt := some (now s) })) pairPage (pairClamp k) 15 0 1) snsPage 1 0 k := by
  unfold clampEdge
  dsimp only
  rw [hwas, if_neg (by simp; omega), if_pos rfl]
  refine (if_neg (by rw [show snsRuns (setSense s k _) = true from hrun]; decide)).trans ((if_neg ?_).trans ?_)
  · rcases h with h | ⟨b, h, hlate⟩
    · rw [h]
      exact Bool.false_ne_true
    · rw [h]
      simpa using hlate
  · cases neg <;> rfl
theorem clampEdge_again {b : Nat} (h : (senseOf s k).clampAt = some b) (hsoon : now s < b + msUnits 1) :
    clampEdge s k neg true = setSense s k (if neg then { senseOf s k with clampedN := true, clampAt := some (now s) }
      else { senseOf s k with clamped := true, clampAt := some (now s) }) := by
  unfold clampEdge
  dsimp only
  rw [hwas, if_neg (by simp; omega), if_pos rfl]
  refine (if_neg (by rw [show snsRuns (setSense s k _) = true from hrun]; decide)).trans ((if_pos ?_).trans ?_)
  · rw [h]
    simpa using hsoon
  · cases neg <;> rfl

end

/-! ### The SNS pages' rows -/

theorem sns_rows : (pageInfo snsPage).any (fun i => i.kind == .sns) = true ∧ regRow snsPage 0x100 = some { off := 0x100, rw := 0xFF01, w1s := 0x2, reset := 0xA01 } ∧
    isHigh snsPage 0x100 = false ∧ regRow snsPage 0x110 = some { off := 0x110, rw := 0xFFFF023F, w1s := 0x100, reset := 0x02A40000 } ∧
    isHigh snsPage 0x110 = false := by decide +kernel
theorem pair_rows : (pageInfo pairPage).any (fun i => i.kind == .snsPair) = true ∧ ∀ k < 40,
    regRow pairPage (0x100 + 4 * k) = some { off := 0x100, n := 40, rw := 0x3, w1s := 0x100, reset := 0x2 } ∧
    isHigh pairPage (0x100 + 4 * k) = false := by decide +kernel
theorem info_of_kind {p : Nat} {k : PageKind} (h : (pageInfo p).any (fun i => i.kind == k) = true) : ∃ i, pageInfo p = some i ∧ i.kind = k := by
  obtain ⟨i, hi, h⟩ := (Option.any_eq_true _ _).mp h
  exact ⟨i, hi, beq_iff_eq.mp h⟩

section
variable {s : State} {r : Requester}

theorem regUpdate_calAll (h : opened s r snsPage 0x100 = true) :
    regUpdate s r snsPage 0x100 2 2 = { calAll (written s snsPage 0x100 (rewritten s snsPage 0x100 2 2)) with resp := .done } := by
  obtain ⟨hinfo, hrow, hhigh, -, -⟩ := sns_rows
  obtain ⟨i, hi, hkind⟩ := info_of_kind hinfo
  have hv := rewritten_lt s snsPage 0x100 (mask := 2) 2 (by decide)
  have hgo : bitOf (reached { off := 0x100, rw := 0xFF01, w1s := 0x2, reset := 0xA01 } (rewritten s snsPage 0x100 2 2)) 1 = true := by
    rw [bitOf_reached hv, testBit_rewritten hrow _ _ (by decide)]
    rfl
  rw [regUpdate, regWrite_block h hi hrow (by decide) (by decide) rfl hhigh hv]
  refine responds ?_ _
  simp only [blockEffect, hkind]
  exact if_pos ⟨rfl, hgo⟩
/-- The word that starts a diagnostic. -/
theorem diag_word (v : Word) : v.toNat ||| 0x100 < 2 ^ 32 ∧
    bitOf (reached { off := 0x110, rw := 0xFFFF023F, w1s := 0x100, reset := 0x02A40000 } (v.toNat ||| 0x100)) 8 = true ∧
    ∀ b, b ≠ 8 → (v.toNat ||| 0x100).testBit b = v.toNat.testBit b := by
  have hv : v.toNat ||| 0x100 < 2 ^ 32 := Nat.or_lt_two_pow v.isLt (by decide)
  refine ⟨hv, ?_, fun b hb => ?_⟩
  · rw [bitOf_reached hv, Nat.testBit_or, show Nat.testBit 0x100 8 = true from rfl, Bool.or_true]
    rfl
  · rw [Nat.testBit_or, show (0x100 : Nat) = 2 ^ 8 from rfl, Nat.testBit_two_pow]
    simp [Ne.symm hb]
theorem regWrite_diag (h : opened s r snsPage 0x110 = true) (v : Word) :
    regWrite s r snsPage 0x110 (v.toNat ||| 0x100) = { diagStart (written s snsPage 0x110 (v.toNat ||| 0x100)) with resp := .done } := by
  obtain ⟨hinfo, -, -, hrow, hhigh⟩ := sns_rows
  obtain ⟨i, hi, hkind⟩ := info_of_kind hinfo
  obtain ⟨hv, h8, -⟩ := diag_word v
  rw [regWrite_block h hi hrow (by decide) (by decide) rfl hhigh hv]
  refine responds ?_ _
  simp only [blockEffect, hkind]
  exact (if_neg fun h => absurd h.1 (by decide)).trans (if_pos ⟨rfl, h8⟩)
/-- The pair and `force` as the diagnostic's command names them. -/
theorem diag_fields (s : State) (v : Word) : fld (written s snsPage 0x110 (v.toNat ||| 0x100)) snsPage 0x110 5 0 = v.toNat % 64 ∧
    bitAt (written s snsPage 0x110 (v.toNat ||| 0x100)) snsPage 0x110 9 = v.toNat.testBit 9 := by
  obtain ⟨-, -, -, hrow, -⟩ := sns_rows
  obtain ⟨-, -, hbit⟩ := diag_word v
  refine ⟨Nat.eq_of_testBit_eq fun i => ?_, (bitOf_written hrow _ (by decide) rfl).trans (hbit 9 (by decide))⟩
  rw [fld, testBit_bitsOf, show (64 : Nat) = 2 ^ 6 from rfl, Nat.testBit_mod_two_pow]
  by_cases hi : i < 6
  · have h : bitAt (written s snsPage 0x110 (v.toNat ||| 0x100)) snsPage 0x110 i = v.toNat.testBit i :=
      (bitOf_written hrow _ (by omega) ((by decide : ∀ i < 6, (0xFF02023F ||| 0xFFFF023F : Nat).testBit i = true) i hi)).trans (hbit i (by omega))
    unfold bitAt at h
    simpa [hi] using h
  · simp [hi]
theorem regUpdate_release {k : Nat} (hk : k < 40) (h : opened s r pairPage (0x100 + 4 * k) = true) (hst : bitAt s pairPage (pairStat k) 4 = true)
    (hclass : pairClass s k = 0) (hen : bitAt s pairPage (pairCfg k) 1 = true) (hcal : (senseOf s k).calBad = false) :
    regUpdate s r pairPage (0x100 + 4 * k) 0x100 0x100 =
      { endHold (written s pairPage (0x100 + 4 * k) (rewritten s pairPage (0x100 + 4 * k) 0x100 0x100)) k with resp := .done } := by
  obtain ⟨hinfo, hrows⟩ := pair_rows
  obtain ⟨hrow, hhigh⟩ := hrows k hk
  obtain ⟨i, hi, hkind⟩ := info_of_kind hinfo
  have hv := rewritten_lt s pairPage (0x100 + 4 * k) (mask := 0x100) 0x100 (by decide)
  have hgo : bitOf (reached { off := 0x100, n := 40, rw := 0x3, w1s := 0x100, reset := 0x2 } (rewritten s pairPage (0x100 + 4 * k) 0x100 0x100)) 8 = true := by
    rw [bitOf_reached hv, testBit_rewritten hrow _ _ (by decide)]
    rfl
  have hen' : bitAt (written s pairPage (0x100 + 4 * k) (rewritten s pairPage (0x100 + 4 * k) 0x100 0x100)) pairPage (pairCfg k) 1 = true := by
    have hen : bitAt s pairPage (0x100 + 4 * k) 1 = true := hen
    refine (bitOf_written hrow _ (by decide) rfl).trans ?_
    rw [testBit_rewritten hrow _ _ (by decide), hen]
    rfl
  have hstat : rd (written s pairPage (0x100 + 4 * k) (rewritten s pairPage (0x100 + 4 * k) 0x100 0x100)) pairPage (pairStat k) = rd s pairPage (pairStat k) :=
    rd_storeWord_other _ _ _ _ _ _ _ (by simp only [pairStat]; omega)
  have hclass' : pairClass (written s pairPage (0x100 + 4 * k) (rewritten s pairPage (0x100 + 4 * k) 0x100 0x100)) k = 0 := (fld_congr hstat 2 0).trans hclass
  rw [regUpdate, regWrite_block h hi hrow (by omega) (by omega) rfl hhigh hv]
  refine responds ?_ _
  simp only [blockEffect, hkind, snsPairEffect]
  rw [if_pos ⟨by omega, by omega⟩, show (0x100 + 4 * k - 0x100) / 4 = k by omega]
  have hcfg : pairCfgEffect (written s pairPage (0x100 + 4 * k) (rewritten s pairPage (0x100 + 4 * k) 0x100 0x100)) k =
      written s pairPage (0x100 + 4 * k) (rewritten s pairPage (0x100 + 4 * k) 0x100 0x100) :=
    (if_pos hen').trans (if_neg (by rw [senseOf_written, hcal]; decide))
  rw [hcfg, if_pos hgo]
  exact if_pos ⟨hk, (bitAt_congr hstat 4).trans hst, hclass'⟩

end

end Sys2Proof.Machine

namespace Sys2Proof
open Machine

/-- Settles O28. -/
theorem lineSensing : Obligations.LineSensing := by
  unfold Obligations.LineSensing
  have hpair : ∀ {k : Nat}, k < 40 → sensePair k = true := fun h => by simpa [sensePair] using h
  refine ⟨fun s u k vp vn beyond c hon hclamp hcal hu hc => ?_, fun s k c hk hc hne hact hold => ?_, fun s u k c hk hc hne hu hact => ?_,
    fun s k hk hon hen hup hlatch => completes ?_, fun s u k r c hk htest hrun hcal hcfg hu hc => ?_, fun s u k neg x hk hx hwas hrun hu => ?_,
    fun s k neg x hk hx hwas => completes ?_, fun s k hk hrun => completes ?_, fun s r h => completes (regUpdate_calAll h),
    fun s k hk hcal hrun => completes ?_, fun s u k hk hcal hrun hu => completes ?_, fun s u r v k h hu hk hlt hbusy hlatch hup => completes ?_,
    fun s u r v k h hu hk hrefuse => completes ?_, fun s res n k d hbusy hrun hk hd hlt => completes ?_,
    fun s k hk hst hclass => ⟨fun hlatch => completes ?_, fun hlatch => completes ?_⟩,
    fun s u r k hk h hst hclass hen hcal hu => completes ?_⟩
  · subst hu
    have hgo := senseTake_goes hon hclamp hcal hc
    have hon' := sensePair_of_on hon
    refine ⟨fun hnew => completes ((if_pos hon').trans (hgo.trans ?_)), fun h0 h7 hcand => completes ((if_pos hon').trans (hgo.trans ?_)),
      fun h7 hcand => completes ((if_pos hon').trans (hgo.trans ?_))⟩
    · rw [runAfter_new hnew]
      rfl
    · rw [runAfter_same h0 (by omega) hcand]
      refine (if_neg (by omega)).trans ?_
      rw [← hcand]
    · rw [runAfter_same (by omega) (by omega) hcand, h7]
      rfl
  · have h := commitClass_quiet hk hne hact hold
    exact ⟨h, by rw [h]; exact (fld_setFld_same _ _ _ _ _ _ (by decide) (by decide)).trans (Nat.mod_eq_of_lt hc)⟩
  · rw [commitClass_holds hk hne hact, hu]
  · have hport : pairPort k.toNat = 64 + k.toNat := if_pos hk
    refine (if_pos (hpair (by omega))).trans (if_neg ?_)
    simp only [hport, hon, hen, hlatch]
    simp [hup]
    omega
  · subst hu
    have hgo : echoEnd s k.toNat r = echoResult s k.toNat r := if_pos (by rw [htest, hrun]; rfl)
    refine ⟨fun hset => completes ((if_pos (hpair hk)).trans (hgo.trans ((echoResult_goes _ _ _).trans ?_))),
      fun hset => completes ((if_pos (hpair hk)).trans (hgo.trans ((echoResult_goes _ _ _).trans ?_)))⟩
    · dsimp only
      rw [← hc, if_pos ⟨hcal, hcfg, hset⟩]
    · dsimp only
      rw [← hc, if_neg]
      rintro ⟨-, -, h⟩
      rcases hset with h' | h' | ⟨h', h''⟩
      · omega
      · omega
      · simp [h', h''] at h
  · subst hx hu
    exact ⟨fun hnone => completes ((if_pos (hpair hk)).trans (clampEdge_new hk hwas hrun (.inl hnone))),
      fun b hb hlate => completes ((if_pos (hpair hk)).trans (clampEdge_new hk hwas hrun (.inr ⟨b, hb, hlate⟩))),
      fun b hb hsoon => completes ((if_pos (hpair hk)).trans (clampEdge_again hk hwas hrun hb hsoon))⟩
  · subst hx
    refine (if_pos (hpair hk)).trans ((if_neg (by rw [hwas]; simp; omega)).trans ((if_neg Bool.false_ne_true).trans ?_))
    cases neg <;> rfl
  · exact (if_pos (hpair hk)).trans (if_pos ⟨hk, hrun⟩)
  · refine (if_pos (hpair hk)).trans ((if_neg (by simp [hcal, hrun])).trans ((if_pos rfl).trans ?_))
    exact congrArg (commitClass _ _) (fld_setBit_apart s pairPage (pairStat k.toNat) 3 false (by decide) (.inr (by decide)))
  · have hpages : pairPage = snsPage + 1 := rfl
    have hcfg : bitAt u pairPage (pairCfg k.toNat) 1 = bitAt s pairPage (pairCfg k.toNat) 1 := by
      rw [hu, bitAt_raise_off _ _ _ _ _ _ (.inr (by simp only [pairCfg]; omega))]
      exact bitAt_congr (rd_setBit_key s _ _ _ _ _ _ (by simp only [pairCfg, pairStat]; omega)) 1
    refine (if_pos (hpair hk)).trans ((if_neg (by simp [hcal, hrun])).trans ((if_neg Bool.false_ne_true).trans ?_))
    rw [← hcfg, hu]
    rfl
  · obtain ⟨hfld, -⟩ := diag_fields s v
    refine (regWrite_diag h v).trans (responds ?_ _)
    have hbusy' : bitAt u snsPage 0x114 0 = false := by rw [hu]; exact (bitAt_congr (rd_storeWord_other _ _ _ _ _ _ _ (by decide)) 0).trans hbusy
    have hlink : linkState u (pairPort k) ≠ 2 := by rw [hu, linkState_written_sns hlt (by decide)]; exact hup
    have hsense : (senseOf u k).latched = false := by rw [hu, senseOf_written, hlatch]
    rw [← hu] at hfld ⊢
    unfold diagStart
    dsimp only
    rw [hfld, ← hk, if_neg (by simp [hbusy', hlink, hsense]; omega)]
    exact congrArg (fun t => setBit t snsPage 0x114 0 true) (if_neg hlink)
  · obtain ⟨hfld, hforce⟩ := diag_fields s v
    refine (regWrite_diag h v).trans (responds ?_ _)
    have hbusy' : bitAt u snsPage 0x114 0 = bitAt s snsPage 0x114 0 := by rw [hu]; exact bitAt_congr (rd_storeWord_other _ _ _ _ _ _ _ (by decide)) 0
    have hsense : senseOf u k = senseOf s k := by rw [hu, senseOf_written]
    rw [← hu] at hfld hforce ⊢
    unfold diagStart
    dsimp only
    rw [hfld, ← hk, hbusy', hsense, hforce]
    refine if_pos ?_
    by_cases hk40 : 40 ≤ k
    · exact .inl hk40
    · have hlink : linkState u (pairPort k) = linkState s (pairPort k) := by rw [hu, linkState_written_sns (by omega) (by decide)]
      rw [hlink]
      rcases hrefuse with h | h | h | ⟨h, h9⟩
      · exact .inl h
      · exact .inr (.inl h)
      · exact .inr (.inr (.inl h))
      · exact .inr (.inr (.inr ⟨h, by rw [h9]; rfl⟩))
  · refine (if_neg (by simp [hbusy, hrun])).trans ?_
    subst hk hd
    dsimp only
    rw [if_pos hlt] <;> rfl
  · exact (if_pos (hpair hk)).trans (if_pos ⟨hk, hst, by rw [hlatch]; rfl, hclass⟩)
  · exact (if_pos (hpair hk)).trans (if_neg (by simp [hlatch]))
  · rw [hu]
    exact (if_pos (hpair hk)).trans (regUpdate_release hk h hst hclass hen hcal)

end Sys2Proof
end

section
/-! PROOFS. Passes of a pipeline, and swaps of its rule banks (R153 to R157). -/

namespace Sys2Proof.Machine

/-! ### Passes -/

section
variable {s t : State} {k : Nat} {pf : PFrame} {rest : List PFrame}

theorem pipelinePass_cons (h : (pipeOf s k).arrivals = pf :: rest) : pipelinePass s k =
    if pipeServing s k then runPass (setPipe s k { pipeOf s k with arrivals := rest }) k 0 pf
    else pipeShut (setPipe s k { pipeOf s k with arrivals := rest }) k pf := by
  unfold pipelinePass
  simp only [h]
theorem pipelinePass_nil (h : (pipeOf s k).arrivals = []) : pipelinePass s k = s := by
  unfold pipelinePass
  simp only [h]
theorem recircIssue_cons (h : (pipeOf s k).recirc = pf :: rest) : recircIssue s k =
    if pipeServing s k then runPass (popRecirc s k pf rest) k 1 pf else pipeShut (popRecirc s k pf rest) k pf := by
  unfold recircIssue
  simp only [h]
theorem recircStale_cons (h : (pipeOf s k).recirc = pf :: rest) :
    recircStale s k = pipeDrop (raise (popRecirc s k pf rest) (prsPage k) 3 0x2F) k pf 0x2F := by
  unfold recircStale
  simp only [h]

end

/-! ### What a rule decides (R174) -/

section
variable {s : State} {k pass act : Nat} {pf : PFrame} {p : Parsed} {f : Frame} (hit : act.testBit 127 = true)
  (hf : f = { pf.frame with vid := some (frameVid s k pf.frame p) })
include hit hf

theorem passForward_drop (hround : act.testBit 75 = false ∨ pass = 0) (hv : bitsOf act 1 0 = 1) :
    passForward s k pass pf p act = deliver (ingressMirror s k f 0x20) k { pf with frame := f } f (.drop 0x20) (copyOf act) := by
  have hno : ¬(act.testBit 75 = true ∧ pass = 1) := fun ⟨h, hp⟩ => by rcases hround with h' | h' <;> simp_all
  unfold passForward
  simp only [bitOf, hit, hv, hno, if_true, true_and, ne_eq, not_true_eq_false, false_and, and_false, if_false, hf]
theorem passForward_trap (hround : act.testBit 75 = false ∨ pass = 0) (hv : bitsOf act 1 0 = 3) :
    passForward s k pass pf p act = deliver (ingressMirror s k f 0) k { pf with frame := f } f (.host (bitsOf act 27 20) 0x21) (copyOf act) := by
  have hno : ¬(act.testBit 75 = true ∧ pass = 1) := fun ⟨h, hp⟩ => by rcases hround with h' | h' <;> simp_all
  unfold passForward
  simp only [bitOf, hit, hv, hno, if_true, true_and, ne_eq, not_true_eq_false, false_and, and_false, if_false, hf]
  rfl
theorem passForward_again (hround : act.testBit 75 = true) (hp : pass = 1) : passForward s k pass pf p act =
    deliver (ingressMirror (raise s (prsPage k) 1 0x2D) k f 0x2D) k { pf with frame := f } f (.drop 0x2D) (copyOf act) := by
  unfold passForward
  simp only [bitOf, hit, hround, hp, true_and, if_true, Nat.one_ne_zero, false_and, if_false, hf]
theorem passForward_round (hround : act.testBit 75 = true) (hp : pass = 0) (h76 : act.testBit 76 = true) (hv : bitsOf act 1 0 = 2) :
    passForward s k pass pf p act = recirculate (copyAhead s f (copyOf act)) k { pf with frame := f, stage := 1, arg := 0 } := by
  unfold passForward
  simp only [bitOf, hit, hround, h76, hv, hp, if_true, true_and, Bool.and_self, Bool.not_true, Bool.false_eq_true, false_and, and_false, if_false, hf]
  rfl

end

/-! ### Banks (R153 to R156) -/

@[simp] theorem pipeOf_setPipe_same (s : State) (k : Nat) (x : Pipe) : pipeOf (setPipe s k x) k = x := mapGet_mapSet_same _ _ _ _

theorem rul_rows : ∀ k < 5, regRow (rulPage k) 0x120 = some (swapRow 0x120) ∧ isHigh (rulPage k) 0x120 = false ∧ pipeOfPage (rulPage k) = k ∧
    (kindOf (rulPage k) = some .rul ∨ kindOf (rulPage k) = some .fplRul) := by decide +kernel

section
variable {s : State} {k : Nat} (hk : k < 5)
include hk

theorem bankOfPage_rul : bankOfPage s (rulPage k) = (pipeOf s k).rul := by
  obtain ⟨-, -, hpipe, hkind⟩ := rul_rows k hk
  unfold bankOfPage
  rcases hkind with h | h <;> simp only [h, hpipe]
theorem swapReg_rul : swapReg (rulPage k) = (0x120, 4, 5) := by
  obtain ⟨-, -, -, hkind⟩ := rul_rows k hk
  unfold swapReg
  rcases hkind with h | h <;> simp only [h]
theorem putBank_rul (b : Bank) : putBank s (rulPage k) b = setPipe s k { pipeOf s k with rul := b } := by
  obtain ⟨-, -, hpipe, hkind⟩ := rul_rows k hk
  unfold putBank
  rcases hkind with h | h <;> simp only [h, hpipe]
theorem swapMade_rul (hidle : mapGet (fun _ => none) s.tblCmd (rulPage k) = none) : swapMade s (rulPage k) =
    raise (setBit (setPipe s k { pipeOf s k with rul := (pipeOf s k).rul.swap }) (rulPage k) 0x120 3 true) (rulPage k) 4 := by
  obtain ⟨-, -, -, hkind⟩ := rul_rows k hk
  have htbl : tblDone s (rulPage k) = s := by
    unfold tblDone
    rw [hidle]
  have hgat : kindOf (rulPage k) ≠ some .gat := by rcases hkind with h | h <;> rw [h] <;> decide
  have hover : ∀ t, gateOverrun t (rulPage k) = t := fun t => if_pos hgat
  unfold swapMade
  rw [htbl, swapReg_rul hk]
  rcases hkind with h | h <;>
    simp only [h, bankOfPage_rul hk, putBank_rul hk, hover, Option.some.injEq, reduceCtorEq, if_false]

variable {r : Requester} (h : opened s r (rulPage k) 0x120 = true)
include h

theorem regUpdate_rulSwap : regUpdate s r (rulPage k) 0x120 1 1 =
    { swapGo (written s (rulPage k) 0x120 (rewritten s (rulPage k) 0x120 1 1)) (rulPage k) with resp := .done } := by
  obtain ⟨hrow, hhigh, -, hkind⟩ := rul_rows k hk
  obtain ⟨i, hi⟩ := pageInfo_of_opened (by decide) h
  have hv := rewritten_lt s (rulPage k) 0x120 (mask := 1) 1 (by decide)
  have hgo : bitOf (reached (swapRow 0x120) (rewritten s (rulPage k) 0x120 1 1)) 0 = true := by
    rw [bitOf_reached hv, testBit_rewritten hrow _ _ (by decide)]
    rfl
  have hik : i.kind = .rul ∨ i.kind = .fplRul := by simpa [kindOf, hi] using hkind
  rw [regUpdate, regWrite_block h hi hrow (by decide) (by decide) rfl hhigh hv]
  refine responds ?_ _
  rcases hik with hik | hik <;> simp only [blockEffect, hik, hgo, and_self, if_true]
omit h in
theorem bank_written (v : Nat) : bankOfPage (written s (rulPage k) 0x120 v) (rulPage k) = (pipeOf s k).rul := by
  rw [bankOfPage_rul hk]
  obtain ⟨x, y, hx⟩ := storeWord_only s (rulPage k) 0x120 v all32
  rw [written, hx]
  rfl

end

/-- R153, R154, R156: what a swap makes of a bank. -/
theorem bank_swap {b : Bank} (h : b.active < 2) : b.swap.retiring = true ↔ 0 < if b.active = 0 then b.inflight0 else b.inflight1 := by
  have hact : b.swap.retiring = decide (0 < if 1 - b.active = 0 then b.inflight1 else b.inflight0) := rfl
  rw [hact, decide_eq_true_eq]
  by_cases h0 : b.active = 0
  · rw [if_pos h0, if_neg (by omega)]
  · rw [if_neg h0, if_pos (by omega)]

end Sys2Proof.Machine

namespace Sys2Proof
open Machine

/-- Settles O29. -/
theorem pipelinePasses : Obligations.PipelinePasses := by
  unfold Obligations.PipelinePasses
  have hno : ∀ {k : Nat}, k ≤ 4 → pipeNo k = true := fun h => by simpa [pipeNo] using h
  refine ⟨fun s t k pf rest hk harr ht => ⟨fun hserve => completes ?_, fun hserve => completes ?_⟩, fun s k hk harr => completes ?_,
    fun s t k pf rest hk hrec ht => ⟨fun hserve => completes ?_, fun hserve => completes ?_⟩, fun s k pf rest hk hrec => completes ?_,
    fun s u k pass c pf hu hc hne hdrop => ?_, fun s k pass act pf p f hit hf => ⟨fun hround hv => passForward_drop hit hf hround hv,
      fun hround hv => passForward_trap hit hf hround hv, fun hround hp => passForward_again hit hf hround hp,
      fun hround hp h76 hv => passForward_round hit hf hround hp h76 hv⟩⟩
  · rw [ht]
    exact (if_pos (hno hk)).trans ((pipelinePass_cons harr).trans (if_pos hserve))
  · rw [ht]
    exact (if_pos (hno hk)).trans ((pipelinePass_cons harr).trans (if_neg (by simp [hserve])))
  · exact (if_pos (hno (by omega))).trans (pipelinePass_nil harr)
  · rw [ht]
    exact (if_pos (hno hk)).trans ((recircIssue_cons hrec).trans (if_pos hserve))
  · rw [ht]
    exact (if_pos (hno hk)).trans ((recircIssue_cons hrec).trans (if_neg (by simp [hserve])))
  · exact (if_pos (hno hk)).trans (recircStale_cons hrec)
  · subst hu hc
    exact if_pos ⟨hne, hdrop⟩

/-- Settles O30. -/
theorem bankSwaps : Obligations.BankSwaps := by
  unfold Obligations.BankSwaps
  have hno : ∀ {k : Nat}, k ≤ 4 → pipeNo k = true := fun h => by simpa [pipeNo] using h
  refine ⟨fun s u r k hk h hu => ⟨fun hret hguard => completes ?_, fun hheld => completes ?_⟩, fun s k hk hidle => ?_,
    fun b hb => ⟨rfl, rfl, rfl, rfl, rfl, bank_swap hb⟩, fun s k => ⟨completes rfl, completes rfl⟩, fun s p htx => completes ?_,
    fun b => ⟨fun h => if_pos h, fun h => if_neg h⟩, fun s i hst hlate hsoon => completes ?_, fun s p => completes rfl⟩
  · refine (if_pos (hno hk)).trans ((regUpdate_rulSwap (by omega) h).trans (responds ?_ _))
    unfold swapGo
    rw [bank_written (by omega), if_neg (by simp [hret, hguard]), hu]
  · refine (if_pos (hno hk)).trans ((regUpdate_rulSwap (by omega) h).trans (responds ?_ _))
    unfold swapGo
    rw [bank_written (by omega), if_pos hheld, swapRefused, swapReg_rul (by omega), hu]
  · rw [swapMade_rul (by omega) hidle]
    refine ⟨?_, ?_⟩
    · obtain ⟨x, y, z, hx⟩ := raise_only (setBit (setPipe s k { pipeOf s k with rul := (pipeOf s k).rul.swap }) (rulPage k) 0x120 3 true) (rulPage k) 4 0 0 0
      rw [hx]
      exact congrArg Pipe.rul (pipeOf_setPipe_same s k _)
    · rw [bitAt_raise_cause _ _ _ _ _ _ _ (by decide)]
      rfl
  · exact if_pos (by rw [htx]; rfl)
  · exact if_pos ⟨hst, by rw [hlate]; rfl, hsoon⟩

end Sys2Proof
end

section
/-! PROOFS. The upkeep of the FDB: walker, flushes and learn events (R181 to R188). -/

namespace Sys2Proof.Machine

theorem fdb_rows : ∀ k < 5, regRow (fdbPage k) 0x10C = some { off := 0x10C, rw := 0x07FFFFFF, w1s := 0x80000000 } ∧
    isHigh (fdbPage k) 0x10C = false ∧ pipeOfPage (fdbPage k) = k ∧ (kindOf (fdbPage k) = some .fdb ∨ kindOf (fdbPage k) = some .fplFdb) := by decide +kernel

section
variable {s : State} {k : Nat}

theorem pipeOf_written (s : State) (p o v k : Nat) : pipeOf (written s p o v) k = pipeOf s k := by
  obtain ⟨x, y, hx⟩ := storeWord_only s p o v all32
  rw [written, hx]
  rfl
/-- R184: a flush asked for while none waits. -/
theorem regWrite_flush {r : Requester} (hk : k < 5) (h : opened s r (fdbPage k) 0x10C = true) (hnone : (pipeOf s k).flushes = []) (v : Word) :
    regWrite s r (fdbPage k) 0x10C (v.toNat ||| 2 ^ 31) = { (let u := written s (fdbPage k) 0x10C (v.toNat ||| 2 ^ 31)
      flushRequest u k ((rd u (fdbPage k) 0x10C).toNat % 2 ^ 27)) with resp := .done } := by
  obtain ⟨hrow, hhigh, hpipe, hkind⟩ := fdb_rows k hk
  obtain ⟨i, hi⟩ := pageInfo_of_opened (by decide) h
  have hv : v.toNat ||| 2 ^ 31 < 2 ^ 32 := Nat.or_lt_two_pow v.isLt (by decide)
  have hgo : bitOf (reached { off := 0x10C, rw := 0x07FFFFFF, w1s := 0x80000000 } (v.toNat ||| 2 ^ 31)) 31 = true := by
    rw [bitOf_reached hv, Nat.testBit_or, Nat.testBit_two_pow_self, Bool.or_true]
    rfl
  have hik : i.kind = .fdb ∨ i.kind = .fplFdb := by simpa [kindOf, hi] using hkind
  have hempty : (pipeOf (written s (fdbPage k) 0x10C (v.toNat ||| 2 ^ 31)) k).flushes.isEmpty = true := by
    rw [pipeOf_written, hnone]
    rfl
  rw [regWrite_block h hi hrow (by decide) (by decide) rfl hhigh hv]
  refine responds ?_ _
  have heffect : ∀ t old w n, blockEffect s t r (fdbPage k) i 0x10C old w n = fdbEffect t k 0x10C old w n := fun t old w n => by
    rcases hik with hik | hik <;> simp only [blockEffect, hik, hpipe]
  rw [heffect]
  exact (if_pos rfl).trans (if_pos ⟨hgo, hempty⟩)
theorem flushOver_cons {f : Flush} {rest : List Flush} (h : (pipeOf s k).flushes = f :: rest) : flushOver s k =
    raise (setPipe (fdbFlushNow s k f.value) k { pipeOf (fdbFlushNow s k f.value) k with flushes := rest }) (fdbPage k) 6 := by
  unfold flushOver
  simp only [h]
theorem eventApply_cons {e : LearnEvent} {rest : List LearnEvent} (h : (pipeOf s k).events = e :: rest) : eventApply s k =
    learnOut (forEach (setFld (setPipe s k { pipeOf s k with events := rest }) (fdbPage k) 0x128 12 0 rest.length) (otherPipes k)
      (fun t j => applyEvent t j e false)) e := by
  unfold eventApply
  simp only [h]

end

end Sys2Proof.Machine

namespace Sys2Proof
open Machine

/-- Settles O31. -/
theorem fdbUpkeep : Obligations.FdbUpkeep := by
  unfold Obligations.FdbUpkeep
  have hno : ∀ {k : Nat}, k ≤ 4 → pipeNo k = true := fun h => by simpa [pipeNo] using h
  refine ⟨fun s u k b hk hserve hb hu => completes ?_, fun s k hk hserve => completes ?_, fun s u r k v hk h hnone hu => completes ?_,
    fun s u k f rest hk hf hu => completes ?_, fun s k e rest hk he => completes ?_, fun s u k hk hlost hidle hu => completes ?_,
    fun s u k hsync hout hu => ?_⟩
  · subst hb
    rw [hu]
    exact (if_pos (hno hk)).trans (if_neg (by simp [hserve]))
  · exact (if_pos (hno hk)).trans (if_pos (by simp [hserve]))
  · rw [hu]
    exact (if_pos (hno hk)).trans (regWrite_flush (by omega) h hnone v)
  · rw [hu]
    exact (if_pos (hno hk)).trans (flushOver_cons hf)
  · exact (if_pos (hno hk)).trans (eventApply_cons he)
  · rw [hu]
    exact (if_pos (hno hk)).trans ((if_pos hlost).trans (if_neg (by simp [hidle])))
  · rw [hu]
    exact if_pos (by simp [hsync, hout])

end Sys2Proof
end

section
/-! PROOFS. The operations on buffers (R207 to R220), the quotas, admission, spill and the fences of bank groups (chapter 07). -/

namespace Sys2Proof.Machine

/-! ### The record of a buffer -/

section
variable {s : State} {q : Pool} {b : Nat}

/-- A page that is not in the pool counts as FENCED with owner 15. -/
theorem recordOf_of_pool (h : (recordOf s q b).st ≠ .fenced ∨ (recordOf s q b).owner ≠ 15) : recordOf s q b = bufOf s q b := by
  unfold recordOf at h ⊢
  split
  · next hout => simp [hout] at h
  · rfl
@[simp] theorem bufOf_setBuf_same (s : State) (q : Pool) (b : Nat) (x : Buf) : bufOf (setBuf s q b x) q b = x := by simp [bufOf, setBuf]
@[simp] theorem bufOf_setUsage (s : State) (q : Pool) (i u b : Nat) : bufOf (setUsage s q i u) q b = bufOf s q b := by
  cases q <;> rfl

/-- A page without damage goes back to the pool with its generation. -/
theorem freeBuf_page (h : (bufOf s .pages b).bad = false) :
    freeBuf s .pages b = rewriteMeta (setBuf s .pages b { gen := (bufOf s .pages b).gen }) b := by
  simp only [freeBuf, h, Bool.false_eq_true, if_false]
/-- So does a granule chain that no class was charged for. -/
theorem freeBuf_granules (hbad : (bufOf s .granules b).badGran = []) (hfree : (bufOf s .granules b).charge = none) :
    freeBuf s .granules b = setBuf s .granules b { gen := (bufOf s .granules b).gen } := by
  simp only [freeBuf, uncharge, hbad, hfree, forEach_nil]

end

/-! ### What each operation does -/

section
variable {s : State} {q : Pool} {h i k : Nat}

theorem opAddref_held (hst : (recordOf s q h).st = .held) (howner : (recordOf s q h).owner = i) (hroom : (recordOf s q h).refs + k ≤ 511) :
    opAddref s q h i k = setBuf s q h { bufOf s q h with refs := (bufOf s q h).refs + k } := by
  have hrec := recordOf_of_held hst
  rw [hrec] at hst howner hroom
  simp [opAddref, hrec, hst, howner, Nat.not_lt.mpr hroom]
theorem opDrop_more (hkeep : (recordOf s q h).st = .held ∨ 2 ≤ (recordOf s q h).refs) (hfree : (recordOf s q h).st ≠ .free)
    (hfence : (recordOf s q h).st ≠ .fenced) (href : 1 ≤ (recordOf s q h).refs) :
    opDrop s q h i = setBuf s q h { bufOf s q h with refs := (bufOf s q h).refs - 1 } := by
  have hrec := recordOf_of_pool (.inl hfence)
  rw [hrec] at hkeep hfree hfence href
  have hlast : ¬((bufOf s q h).refs = 1 ∧ (bufOf s q h).st = .released) := by
    rintro ⟨hone, hrel⟩
    rcases hkeep with hheld | htwo
    · rw [hrel] at hheld
      exact nomatch hheld
    · omega
  simp only [opDrop, hrec, hfree, hfence, or_self, if_false, Nat.ne_of_gt href, hlast]
theorem opDrop_last (hst : (recordOf s q h).st = .released) (href : (recordOf s q h).refs = 1) :
    opDrop s q h i = freeBuf (setBuf s q h { bufOf s q h with refs := 0 }) q h := by
  have hrec : recordOf s q h = bufOf s q h := recordOf_of_pool (.inl (by simp [hst]))
  rw [hrec] at hst href
  simp [opDrop, hrec, hst, href]
/-- The usage of the owner falls whether references are left or not. -/
theorem opRelease_held (hst : (recordOf s q h).st = .held) (howner : (recordOf s q h).owner = i) :
    opRelease s q h i = if (bufOf s q h).refs = 0 then freeBuf (setUsage s q i (usageOf s q i - (bufOf s q h).size)) q h
      else setBuf (setUsage s q i (usageOf s q i - (bufOf s q h).size)) q h { bufOf s q h with st := .released, tag := none } := by
  have hrec := recordOf_of_held hst
  rw [hrec] at hst howner
  simp [opRelease, hrec, hst, howner]
theorem opFence_free (hi : i = inspOf q) (hst : (recordOf s q h).st = .free) :
    opFence s q h i = setBuf s q h { bufOf s q h with st := .fenced, owner := i, size := 1, chain := [h] } := by
  have hrec : recordOf s q h = bufOf s q h := recordOf_of_pool (.inl (by simp [hst]))
  rw [hrec] at hst
  simp [opFence, hrec, hst, hi]
theorem opUnfence_fenced (hi : i = inspOf q) (hst : (recordOf s q h).st = .fenced) (howner : (recordOf s q h).owner ≠ 15)
    (hbad : q = .pages ∨ (recordOf s q h).bad = false) : opUnfence s q h i = setBuf s q h { gen := (bufOf s q h).gen } := by
  have hrec := recordOf_of_pool (.inr howner)
  rw [hrec] at hst howner hbad
  have hcharge : ¬(q = .granules ∧ (bufOf s q h).bad = true) := by
    rintro ⟨rfl, hb⟩
    simp [hb] at hbad
  simp only [opUnfence, hrec, hst, hi, howner, not_true_eq_false, ne_eq, or_self, if_false, hcharge]

/-- An operation refused leaves both pools as they are. -/
theorem badOp_pools (s : State) (q : Pool) (b op i reason : Nat) :
    (badOp s q b op i reason).gran = s.gran ∧ (badOp s q b op i reason).page = s.page := by
  unfold badOp
  cases q <;> dsimp only <;> split <;> simp

end

/-! ### What the work on buffers leaves alone: the queues, the custody queues, the egress ports and the span -/

/-- Queues, custody queues, egress ports and span state are the same in both states. -/
structure SameTraffic (s t : State) : Prop where
  queues : t.queues = s.queues
  cqueues : t.cqueues = s.cqueues
  eports : t.eports = s.eports
  span : t.span = s.span

namespace SameTraffic

theorem here (s : State) : SameTraffic s s := ⟨rfl, rfl, rfl, rfl⟩
theorem trans {s t u : State} (h : SameTraffic s t) (h' : SameTraffic t u) : SameTraffic s u :=
  ⟨h'.queues.trans h.queues, h'.cqueues.trans h.cqueues, h'.eports.trans h.eports, h'.span.trans h.span⟩
theorem queueOf {s t : State} (h : SameTraffic s t) (q : Nat) : queueOf t q = queueOf s q := congrArg (mapGet queueDflt · q) h.queues
theorem cqOf {s t : State} (h : SameTraffic s t) (q : Nat) : cqOf t q = cqOf s q := congrArg (mapGet cqDflt · q) h.cqueues
theorem marked {s t : State} (h : SameTraffic s t) (q : Nat) : marked t q = marked s q := by rw [Machine.marked, h.cqOf]; rfl
theorem ite {s t u : State} {c : Prop} [Decidable c] (ht : SameTraffic s t) (hu : SameTraffic s u) : SameTraffic s (if c then t else u) := by
  split
  · exact ht
  · exact hu

section
variable {r s : State} (h : SameTraffic r s)
include h

theorem forEach {α : Type} {f : State → α → State} (hf : ∀ s a, SameTraffic s (f s a)) (l : List α) : SameTraffic r (forEach s l f) := by
  induction l generalizing s with
  | nil => exact h
  | cons a l ih => exact ih (h.trans (hf s a))
theorem setPool (q : Pool) (x : PoolSt) : SameTraffic r (setPool s q x) := h.trans (by cases q <;> exact ⟨rfl, rfl, rfl, rfl⟩)
theorem setBuf (q : Pool) (b : Nat) (x : Buf) : SameTraffic r (setBuf s q b x) := h.setPool ..
theorem setUsage (q : Pool) (i u : Nat) : SameTraffic r (setUsage s q i u) := h.setPool ..
theorem rewriteMeta (p : Nat) : SameTraffic r (rewriteMeta s p) := by
  obtain ⟨bad, hbad⟩ := rewriteMeta_only s p
  rw [hbad]
  exact h.trans ⟨rfl, rfl, rfl, rfl⟩
theorem countReason (region code : Nat) : SameTraffic r (countReason s region code) := h.trans (by constructor <;> simp)
theorem inc (p o : Nat) : SameTraffic r (inc s p o) := h.trans (by constructor <;> simp)
theorem wr (p o : Nat) (v : Word) : SameTraffic r (wr s p o v) := h.trans (by constructor <;> simp)
theorem tset (p t k i : Nat) (e : Entry) : SameTraffic r (tset s p t k i e) := h.trans (by constructor <;> simp)
theorem addCounter (p sel idx c k : Nat) : SameTraffic r (addCounter s p sel idx c k) := h.trans (by constructor <;> simp)
theorem emit (o : Output) : SameTraffic r (emit s o) := h.trans (by constructor <;> simp)
theorem raise (p n reason detail : Nat) : SameTraffic r (raise s p n reason detail) := h.trans (by constructor <;> simp)

theorem signalXoff (port : Nat) (cls : Option Nat) (on : Bool) : SameTraffic r (signalXoff s port cls on) := by
  unfold Machine.signalXoff
  refine h.ite ?_
  cases cls with
  | none => exact ite ((h.emit _).addCounter ..) h
  | some c => exact ite ((h.emit _).addCounter ..) h
theorem moveCount (port : Nat) (cls : Option Nat) (up : Bool) (g : Nat) : SameTraffic r (moveCount s port cls up g) := by
  unfold Machine.moveCount
  exact ite (h.tset ..) ((h.tset ..).signalXoff ..)
theorem uncharge (x : Buf) : SameTraffic r (uncharge s x) := by
  unfold Machine.uncharge
  split
  · exact h
  · exact ite ((h.moveCount ..).moveCount ..) (h.moveCount ..)
theorem freeBuf (q : Pool) (b : Nat) : SameTraffic r (freeBuf s q b) := by
  unfold Machine.freeBuf
  cases q with
  | granules => exact ((h.uncharge _).setBuf ..).forEach (f := fenceGranule) (fun u a => ⟨rfl, rfl, rfl, rfl⟩) _
  | pages => exact (ite (h.setBuf ..) (h.setBuf ..)).rewriteMeta _
theorem badOp (q : Pool) (b op i reason : Nat) : SameTraffic r (badOp s q b op i reason) := by
  unfold Machine.badOp
  have hc := (h.countReason (poolRegion q) reason)
  exact (ite (hc.inc ..) (((hc.inc ..).wr ..).wr ..)).raise ..
theorem opRelease (q : Pool) (b i : Nat) : SameTraffic r (opRelease s q b i) := by
  unfold Machine.opRelease
  exact ite (h.badOp ..) (ite (h.badOp ..) (ite ((h.setUsage ..).freeBuf ..) ((h.setUsage ..).setBuf ..)))
theorem opDrop (q : Pool) (b i : Nat) : SameTraffic r (opDrop s q b i) := by
  unfold Machine.opDrop
  exact ite (h.badOp ..) (ite (h.badOp ..) (ite ((h.setBuf ..).freeBuf ..) (h.setBuf ..)))
theorem moveOwner (q : Pool) (b j : Nat) : SameTraffic r (moveOwner s q b j) := ((h.setUsage ..).setUsage ..).setBuf ..
theorem rxDrop (port : Nat) : SameTraffic r (rxDrop s port) := by
  unfold Machine.rxDrop
  exact ite (h.addCounter ..) h
theorem jobDone (job : Option Nat) (admitted : Bool) : SameTraffic r (jobDone s job admitted) := by
  unfold Machine.jobDone
  split
  · exact h
  · split
    · exact h
    · have hjobs (jobs : List McJob) : SameTraffic r { s with jobs := jobs } := h.trans ⟨rfl, rfl, rfl, rfl⟩
      refine ite (hjobs _) ?_
      have hrel (jobs : List McJob) (b i : Nat) : SameTraffic r (Machine.opRelease { s with jobs := jobs } .granules b i) :=
        (hjobs jobs).opRelease ..
      refine ite ?_ (ite ?_ (hrel ..))
      · exact (((hrel ..).countReason ..).inc ..).raise ..
      · exact (((hrel ..).countReason ..).inc ..).rxDrop _
theorem grantFailed (q : Pool) (reason region : Nat) (as : Option Nat) : SameTraffic r (grantFailed s q reason region as) := by
  unfold Machine.grantFailed
  exact ite (((h.countReason ..).inc ..).raise ..) ((h.countReason ..).raise ..)
theorem grantBuf (q : Pool) (i size : Nat) : SameTraffic r (grantBuf s q i size).2 := by
  unfold Machine.grantBuf
  cases q with
  | granules =>
    dsimp only
    exact ((h.setBuf ..).setUsage ..).setPool ..
  | pages =>
    dsimp only
    exact (((h.setBuf ..).setUsage ..).setPool ..).rewriteMeta _
theorem grant (q : Pool) (i size region : Nat) (as : Option Nat) : SameTraffic r (grant s q i size region as).2 := by
  unfold Machine.grant
  dsimp only
  split
  · exact h.grantBuf ..
  · exact h.grantFailed ..

end

end SameTraffic

end Sys2Proof.Machine

namespace Sys2Proof
open Sys2Proof.Machine

/-- Settles O34: each operation reads the record of the buffer, judges state, owner and references in turn, and writes that record alone. -/
theorem bufferOperations : Obligations.BufferOperations := by
  unfold Obligations.BufferOperations
  refine ⟨fun s q i size rivals => rfl, ?_, ?_, ?_, ?_, ?_, ?_, ?_, ?_, ?_, ?_, ?_, ?_, ?_, badOp_pools⟩
  · rintro s q b h k i rfl hst howner hroom
    exact completes (opAddref_held hst howner hroom)
  · rintro s q b h i rfl hkeep hfree hfence href
    exact completes (opDrop_more hkeep hfree hfence href)
  · intro s b i hst href hbad
    rw [recordOf_of_pool (.inl (by simp [hst]))] at hbad
    refine completes ((opDrop_last hst href).trans ((freeBuf_page ?_).trans ?_)) <;> rw [bufOf_setBuf_same]
    exact hbad
  · rintro s q b h i rfl hst howner href
    rw [recordOf_of_held hst] at href
    exact completes ((opRelease_held hst howner).trans (if_neg (Nat.ne_of_gt href)))
  · intro s b i hst howner href hbad
    rw [recordOf_of_held hst] at href hbad
    refine completes ((opRelease_held hst howner).trans ((if_pos href).trans ((freeBuf_page ?_).trans ?_))) <;> rw [bufOf_setUsage]
    exact hbad
  · rintro s b h i rfl hst howner href hbad hcharge
    refine completes ((opRelease_held ?_ ?_).trans ((if_pos href).trans ((freeBuf_granules ?_ ?_).trans ?_)))
    · simpa [recordOf] using hst
    · simpa [recordOf] using howner
    all_goals rw [bufOf_setUsage]
    · exact hbad
    · exact hcharge
  · rintro s q b h i rfl hi hst
    exact completes (opFence_free hi hst)
  · rintro s q b h i rfl hi hst howner hbad
    exact completes (opUnfence_fenced hi hst howner hbad)
  · rintro s q b h k i j rfl hst
    have hheld : (recordOf s q (bufHead s q b)).st ≠ .held := by rcases hst with hst | hst <;> simp [hst]
    exact ⟨completes (if_pos hst), completes (if_pos hst), completes (if_pos hst), completes (if_pos hheld)⟩
  · rintro s q b h i rfl hst hi howner
    have hfree : (recordOf s q (bufHead s q b)).st ≠ .free := by rcases hst with hst | hst <;> simp [hst]
    have hfence : (recordOf s q (bufHead s q b)).st ≠ .fenced := by rcases hst with hst | hst <;> simp [hst]
    exact ⟨completes ((if_neg (not_not_intro hi)).trans (if_pos hfree)),
      completes ((if_neg (not_or.mpr ⟨not_not_intro hi, howner⟩)).trans (if_pos hfence))⟩
  · rintro s q b h k i j rfl hst howner
    have hin : ¬((recordOf s q (bufHead s q b)).st = .free ∨ (recordOf s q (bufHead s q b)).st = .fenced) := by simp [hst]
    exact ⟨completes ((if_neg hin).trans (if_pos howner)), completes ((if_neg hin).trans (if_pos howner)),
      completes ((if_neg (not_not_intro hst)).trans (if_pos howner))⟩
  · rintro s q b h i rfl hi
    exact ⟨completes (if_pos hi), completes (if_pos (.inl hi))⟩
  · rintro s q b h k i rfl hst howner
    have hin : ¬((recordOf s q (bufHead s q b)).st = .free ∨ (recordOf s q (bufHead s q b)).st = .fenced) := by simp [hst]
    exact ⟨fun href => completes ((if_neg hin).trans (if_pos href)), fun hfull => completes
      ((if_neg hin).trans ((if_neg (not_not_intro howner)).trans ((if_neg (not_not_intro hst)).trans (if_pos hfull))))⟩

end Sys2Proof
end

section
/-! PROOFS. Quotas, admission, spill and the fences of bank groups (R206, R213 to R232). -/

namespace Sys2Proof.Machine

theorem quota_rows : ∀ k < 16, ∀ o ∈ [0x140 + 8 * k, 0x140 + 8 * k + 4],
    (regRow bpmPage o).any (fun row => !row.wide) = true ∧ isHigh bpmPage o = false := by decide +kernel
theorem quota_row {k o : Nat} (hk : k < 16) (ho : o = 0x140 + 8 * k ∨ o = 0x140 + 8 * k + 4) :
    ∃ row, regRow bpmPage o = some row ∧ row.wide = false ∧ isHigh bpmPage o = false := by
  obtain ⟨hrow, hhigh⟩ := quota_rows k hk o (by simpa using ho)
  obtain ⟨row, hrow, hwide⟩ := (Option.any_eq_true _ _).mp hrow
  exact ⟨row, hrow, by simpa using hwide, hhigh⟩
theorem kindOf_bpm {i : PageInfo} (h : pageInfo bpmPage = some i) : i.kind = .bpm := by
  have hk : (pageInfo bpmPage).map (·.kind) = some .bpm := by decide +kernel
  simpa [h] using hk

section
variable {s : State} {r : Requester} {v k : Nat}

/-- R206: a minimum of granules is stored, and judged after it. -/
theorem regWrite_quotaMin (hk : k < 16) (h : opened s r bpmPage (0x140 + 8 * k) = true) (hv : v < 2 ^ 32) :
    regWrite s r bpmPage (0x140 + 8 * k) v = { quotaEffect (written s bpmPage (0x140 + 8 * k) v) .granules bpmPage (0x140 + 8 * k)
      (rd s bpmPage (0x140 + 8 * k)).toNat with resp := .done } := by
  obtain ⟨row, hrow, hwide, hhigh⟩ := quota_row hk (.inl rfl)
  obtain ⟨i, hi⟩ := pageInfo_of_opened (by omega) h
  refine (regWrite_block h hi hrow (by omega) (by omega) hwide hhigh hv).trans (responds ?_ _)
  simp only [blockEffect, kindOf_bpm hi]
  exact (if_neg (by omega)).trans (if_pos (by omega))
/-- A maximum is stored and no more. -/
theorem regWrite_quotaMax (hk : k < 16) (h : opened s r bpmPage (0x140 + 8 * k + 4) = true) (hv : v < 2 ^ 32) :
    regWrite s r bpmPage (0x140 + 8 * k + 4) v = { written s bpmPage (0x140 + 8 * k + 4) v with resp := .done } := by
  obtain ⟨row, hrow, hwide, hhigh⟩ := quota_row hk (.inr rfl)
  obtain ⟨i, hi⟩ := pageInfo_of_opened (by omega) h
  refine (regWrite_block h hi hrow (by omega) (by omega) hwide hhigh hv).trans (responds ?_ _)
  simp only [blockEffect, kindOf_bpm hi]
  exact (if_neg (by omega)).trans (if_neg (by omega))

end

/-! ### Admission -/

section
variable {s : State} {c : Copy}

@[simp] theorem queueOf_setQueue_same (s : State) (q : Nat) (x : Queue) : queueOf (setQueue s q x) q = x := by simp [queueOf, setQueue]

/-- The credit that a queue gains moves none of its frames and no number. -/
theorem queueOf_creditQueue (s : State) (port c : Nat) : ∃ cr bc,
    queueOf (creditQueue s port c) (qIdx port c) = { queueOf s (qIdx port c) with credit := cr, creditBc := bc } := by
  unfold creditQueue
  split
  · exact ⟨_, _, rfl⟩
  · exact ⟨_, _, queueOf_setQueue_same ..⟩
theorem qIdx_parts (q : Nat) : qIdx (qPort q) (qTc q) = q := by unfold qIdx qPort qTc; omega
theorem queueOf_setFrames (s : State) (q : Nat) (l : List QFrame) :
    (queueOf (setFrames s q l) q).frames = l ∧ (queueOf (setFrames s q l) q).seqCtr = (queueOf s q).seqCtr := by
  obtain ⟨cr, bc, h⟩ := queueOf_creditQueue s (qPort q) (qTc q)
  rw [qIdx_parts] at h
  unfold setFrames
  dsimp only
  rw [queueOf_setQueue_same, h]
  exact ⟨rfl, rfl⟩
theorem SameTraffic.countEnq {r s : State} (h : SameTraffic r s) (q : Nat) (f : Frame) : SameTraffic r (countEnq s q f) :=
  (h.addCounter ..).addCounter ..

/-- R217: the copy comes last in its queue with the queue's next number. -/
theorem queueOf_enqueue (s : State) (c : Copy) : ∃ n,
    (queueOf (enqueue s c .sram (0, false)) (qIdx c.port c.frame.tc)).frames = (queueOf s (qIdx c.port c.frame.tc)).frames ++ [n] ∧
    n.seq = (queueOf s (qIdx c.port c.frame.tc)).seqCtr ∧ n.place = .sram ∧
    (queueOf (enqueue s c .sram (0, false)) (qIdx c.port c.frame.tc)).seqCtr = (queueOf s (qIdx c.port c.frame.tc)).seqCtr + 1 := by
  have hplace : ¬(Place.sram = Place.staged ∧ (!false) = true) := by simp
  unfold enqueue
  dsimp only
  rw [if_neg hplace, if_neg Bool.false_ne_true, if_neg Bool.false_ne_true]
  rw [(((SameTraffic.here _).countEnq ..).jobDone ..).queueOf, queueOf_setQueue_same]
  exact ⟨_, (queueOf_setFrames ..).1, rfl, rfl, rfl⟩
theorem admitSram_plain (hpush : pushout s = false) (htake : takeOver s c = 0) :
    admitSram s c = enqueue (doTakeOver s c) c .sram (0, false) := by
  unfold admitSram
  rw [hpush, if_neg Bool.false_ne_true, htake]
  exact if_neg (not_not_intro rfl)

end

/-! ### Spill -/

theorem readChain_good {s : State} : ∀ {l : List Nat}, (∀ p ∈ l, wordBad s (descWord s p) = false) → readChain s l = (true, s)
  | [], _ => rfl
  | p :: l, h => by
    obtain ⟨hp, hl⟩ := List.forall_mem_cons.mp h
    rw [readChain, hp]
    exact readChain_good hl

end Sys2Proof.Machine

namespace Sys2Proof
open Sys2Proof.Machine

/-- Settles O35: each test of a path is decided by its own premise, in the order in which the path takes them. -/
theorem admissionSpillAndFencing : Obligations.AdmissionSpillAndFencing := by
  unfold Obligations.AdmissionSpillAndFencing
  refine ⟨?_, fun s r i v h => completes (regWrite_quotaMax i.isLt h v.isLt), fun s c rest hw => ?_, fun s c he hp hm hcs => ?_,
    fun s c he hp hm hsp => ?_, fun s c he hp hm hsp hdr hpo hfit ht => ?_, queueOf_enqueue, fun s k q f hf hm => ?_,
    fun s q f hq hf hch hbad hun hm hr => ?_, fun s g hout hin => ?_, fun s g hin hnone => ?_⟩
  · rintro s u r i v h rfl
    have hmin := regWrite_quotaMin i.isLt h v.isLt
    refine ⟨fun hfit => completes (hmin.trans (responds (if_neg (by omega)) _)), fun hover => completes (hmin.trans (responds ?_ _))⟩
    refine (if_pos (by omega)).trans ?_
    rw [BitVec.ofNat_toNat, BitVec.setWidth_eq]
  · refine completes ?_
    rw [admitNext, hw]
  · unfold admitCopy
    dsimp only
    rw [if_neg (by simp [he]), if_pos (by simp [hp, hm, hcs])]
  · unfold admitCopy
    dsimp only
    rw [if_neg (by simp [he]), if_neg (by simp [hp]), if_neg (by simp [hp]), if_neg (by simp [hm]), if_neg (by simp [hm]), if_pos (by simp [hm, hsp])]
  · unfold admitCopy
    dsimp only
    rw [if_neg (by simp [he]), if_neg (by simp [hp]), if_neg (by simp [hp]), if_neg (by simp [hm]), if_neg (by simp [hm]),
      if_neg (by simp [hsp]), if_neg (by simp [hdr]), if_neg (by simp [hpo]), if_pos hfit]
    exact admitSram_plain hpo ht
  · refine completes ?_
    unfold spillOne
    rw [hf]
    dsimp only
    refine (if_neg (by simp [hm])).trans ?_
    rcases appendRecord s (spillReq q) 5 (queueOf s q).tail (recSize f.frame) (some 0x60) with ⟨_ | ⟨pages, tail⟩, t⟩ <;> rfl
  · refine completes ((if_pos hq).trans ?_)
    have hgrant := ((SameTraffic.here s).grant .granules (tmsReq q.toNat) (granulesOf f.frame) 5 none).marked q.toNat
    unfold refillOne
    rw [hf]
    dsimp only
    rw [readChain_good hch]
    dsimp only
    rw [if_neg (by decide), if_neg (by simp [hun, hbad]), if_neg (by simp [hm]), if_neg (by simp [hr])]
    rcases hg : grant s .granules (tmsReq q.toNat) (granulesOf f.frame) 5 with ⟨_ | b, t⟩
    · rfl
    · rw [hg] at hgrant
      have hkeep : (isSpanPort t (qPort q.toNat) && marked t q.toNat) = false := by rw [hgrant, hm, Bool.and_false]
      dsimp only
      rw [hkeep]
      exact congrArg (fun u => spillDone (releaseRecord u q.toNat f.pages) q.toNat) (if_neg (ne_true_of_eq_false (hgrant.trans hm)))
  · have hnot : ¬((s.gran.fencing.contains g.toNat : Bool) = true ∨ (s.gran.fencedGroups.contains g.toNat : Bool) = true) := by simp_all
    refine ⟨fun hnone hroom => completes ?_, fun hno => completes ?_⟩
    · unfold fenceGroup
      rw [if_neg hnot, if_neg (by rw [hnone]; simp; omega)]
    · unfold fenceGroup
      rw [if_neg hnot, if_pos hno]
  · refine completes (if_pos ⟨hin, ?_⟩)
    rw [hnone]
    rfl

end Sys2Proof
end

section
/-! PROOFS. Readiness, selection, transmission and the banks of the gates and meters (R239 to R256). -/

namespace Sys2Proof.Machine

/-! ### Readiness (R237 to R239) -/

section
variable {s : State} {q : Nat} {n : Word} {f : QFrame} (hf : (queueOf s q).frames.find? (fun f => f.seq == n) = some f)
include hf

theorem readyNow_skipped (hskip : (queueOf s q).skipped.contains n = true) :
    readyNow s q n = raise (inc (discard s q f 5 0x83) rsqPage 0x108) rsqPage 1 0x83 q := by
  unfold readyNow
  simp only [hf, hskip, if_true]

variable (hskip : (queueOf s q).skipped.contains n = false) (hplace : f.place = .sram ∨ f.place = .refill)
include hskip

theorem readyNow_far (hfar : 4096 ≤ (n - (queueOf s q).nextSeq).toNat) : readyNow s q n = s := by
  unfold readyNow
  simp only [hf, hskip, hfar, true_or, if_true, Bool.false_eq_true, if_false]

variable (hnear : (n - (queueOf s q).nextSeq).toNat < 4096)
include hplace hnear

/-- A frame in SRAM within the window is judged by itself. -/
theorem readyNow_near : readyNow s q n =
    if f.frame.complete = true ∧ f.frame.bad = true then qDrop (discard s q f 5 0) q f.frame
    else if f.frame.complete = true then setFrame s q n (fun f => { f with ready := true })
    else if mayCutThrough s (qPort q) (qTc q) f = true then
      if (pick (fillTokens (setFrame s q n (fun f => { f with ready := true, cutThrough := true })) (qPort q)) (qPort q)).1.map (·.1) = some (qTc q)
      then setFrame s q n (fun f => { f with ready := true, cutThrough := true }) else s
    else s := by
  have hdram : f.place ≠ .dram := by rcases hplace with h | h <;> simp [h]
  have hstaged : f.place ≠ .staged := by rcases hplace with h | h <;> simp [h]
  unfold readyNow
  simp only [hf, hskip, Nat.not_le.mpr hnear, hdram, hstaged, or_self, if_false, Bool.false_eq_true]
  rcases (pick (fillTokens (setFrame s q n (fun f => { f with ready := true, cutThrough := true })) (qPort q)) (qPort q)).1 with _ | ⟨c, tier⟩
  · simp
  · simp

end

theorem seqSkipNow_skips {s : State} {q : Nat} {y : Queue} (hhead : ∀ f, headOf s q = some f → f.ready = false)
    (hrep : (queueOf s q).reported.contains (queueOf s q).nextSeq = false) (hlater : (queueOf s q).frames.any (fun f => f.ready) = true)
    (hy : y = { queueOf s q with skipped := (queueOf s q).skipped ++ [(queueOf s q).nextSeq], nextSeq := (queueOf s q).nextSeq + 1 }) :
    seqSkipNow s q = raise (inc (countReason (setQueue s q (advance y.reported.length y)) 5 0x82) rsqPage 0x104) rsqPage 0 0x82 q := by
  subst hy
  unfold seqSkipNow
  cases hh : headOf s q with
  | none => simp only [hrep, hlater, Bool.false_eq_true, Bool.not_true, or_self, if_false]
  | some f => simp only [hhead f hh, hrep, hlater, Bool.false_eq_true, Bool.not_true, or_self, if_false]

/-! ### Selection (R242 to R246) -/

section
variable {s u v : State} {port : Nat}

theorem selectAt_plain (hfw : fwActive s port = false) (h112 : port ≠ 112) (h113 : port ≠ 113) : selectAt s port = schedSelect s port := by
  unfold selectAt
  rw [if_neg (by simp [hfw]), if_neg h112, if_neg h113]
theorem selectNow_busy (hu : u = gateOversize (fillTokens (creditTick s port) port) port) (hfree : portFree u port = false) :
    selectNow s port = u := by
  subst hu
  unfold selectNow
  exact if_pos (by simp [hfree])
section
variable (hu : u = gateOversize (fillTokens (creditTick s port) port) port) (hfree : portFree u port = true)
include hu hfree

theorem selectNow_none (hpick : pick u port = (none, v)) : selectNow s port = v := by
  subst hu
  unfold selectNow
  simp only [hfree, hpick, Bool.not_true, Bool.false_eq_true, if_false]
theorem selectNow_some {c tier : Nat} {f : QFrame} (hpick : pick u port = (some (c, tier), v)) (hnext : nextOf v port c = some f) :
    selectNow s port = startTx (if tier = 1 then promoted v port c else v) port c f := by
  subst hu
  unfold selectNow
  simp only [hfree, hpick, hnext, Bool.not_true, Bool.false_eq_true, if_false]

end
end

/-! ### Transmission -/

@[simp] theorem setQueue_colls (s : State) (q : Nat) (x : Queue) : (setQueue s q x).colls = s.colls := rfl
theorem creditQueue_colls (s : State) (port c : Nat) : (creditQueue s port c).colls = s.colls := by
  unfold creditQueue
  split <;> rfl
/-- What no step of a loop changes, the loop does not change. -/
theorem forEach_keeps {α β : Type} (g : State → β) {f : State → α → State} (h : ∀ s a, g (f s a) = g s) (l : List α) (s : State) :
    g (forEach s l f) = g s := by
  induction l generalizing s with
  | nil => rfl
  | cons a l ih => exact (ih (f s a)).trans (h s a)
theorem creditTick_colls (s : State) (port : Nat) : (creditTick s port).colls = s.colls :=
  forEach_keeps State.colls (fun s c => creditQueue_colls s port c) _ s

section
variable {s u : State} {port : Nat} {t : Tx} (ht1s : isT1s port = false) (hwait : (collOf s port).waiting = false)
  (htx : (eportOf (creditTick s port) port).tx = some t) (hagain : t.qf.again = none) (hheld : t.held = false)
include ht1s hwait htx hagain hheld

theorem completeTx_whole (hct : t.qf.cutThrough = false) (hstomp : t.stomp = false) (hmir : t.mirror = 0)
    (hu : u = gatFree (burstTimer (setColl (setEport (creditEnd (creditTick s port) port t) port
      { eportOf (creditTick s port) port with tx := none }) port {}) port) port) :
    completeTx s port = emit (countTx (releaseRecord (dropBuf u t.queue t.qf) t.queue t.qf.pages) port t.wire false) (.tx port t.wire false) := by
  have hcoll : (collOf (creditTick s port) port).waiting = false := by rw [← hwait, collOf, creditTick_colls]; rfl
  subst hu
  unfold completeTx
  simp only [hcoll, htx, hct, hstomp, hmir, hheld, hagain, ht1s, Bool.false_and, Bool.false_or, Bool.false_eq_true, if_false, if_true, false_and,
    Option.isSome_none]
theorem completeTx_dry (hct : t.qf.cutThrough = true) (hpart : t.qf.frame.complete = false)
    (hu : u = gatFree (burstTimer (setColl (setEport (creditEnd (countReason (creditTick s port) (portRegion port) 0x0E) port t) port
      { eportOf (creditTick s port) port with tx := none }) port {}) port) port) :
    completeTx s port = emit (countTx (mirrorAbort (releaseRecord (dropBuf u t.queue t.qf) t.queue t.qf.pages) t.mirror) port t.wire true)
      (.tx port t.wire true) := by
  have hcoll : (collOf (creditTick s port) port).waiting = false := by rw [← hwait, collOf, creditTick_colls]; rfl
  subst hu
  unfold completeTx
  simp only [hcoll, htx, hct, hpart, hheld, hagain, ht1s, Bool.false_eq_true, if_false, if_true, false_and, Option.isSome_none, Bool.not_false,
    Bool.and_self, Bool.or_true, Bool.true_or]

end

theorem completeTx_idle {s : State} {port : Nat} (h : (eportOf (creditTick s port) port).tx = none) : completeTx s port = creditTick s port := by
  unfold completeTx
  simp only [h, ite_self]

/-! ### The banks of the gate lists and of the meters (R253, R256) -/

theorem gat_rows : ∀ k < 106, regRow (gatPage k) 0x104 = some (swapRow 0x104) ∧ isHigh (gatPage k) 0x104 = false ∧
    kindOf (gatPage k) = some .gat ∧ gatPage k % 4096 - 0x300 = k := by decide +kernel
theorem mtr_rows : ∀ k < 5, regRow (mtrPage k) 0x100 = some (swapRow 0x100) ∧ isHigh (mtrPage k) 0x100 = false ∧
    pipeOfPage (mtrPage k) = k ∧ (kindOf (mtrPage k) = some .mtr ∨ kindOf (mtrPage k) = some .fplMtr) := by decide +kernel

section
variable {s : State} {r : Requester} {p o : Nat} {i : PageInfo}

/-- The go bit of a swap register that is written starts the swap. -/
theorem regUpdate_swap (h : opened s r p o = true) (hi : pageInfo p = some i) (hrow : regRow p o = some (swapRow o)) (hhigh : isHigh p o = false)
    (hlo : 0x100 ≤ o) (hhi : o < 0xF00)
    (hgo : ∀ (s0 s : State) (old w new : Nat), bitOf w 0 = true → blockEffect s0 s r p i o old w new = swapGo s p) :
    regUpdate s r p o 1 1 = { swapGo (written s p o (rewritten s p o 1 1)) p with resp := .done } := by
  have hv := rewritten_lt s p o (mask := 1) 1 (by decide)
  have hbit : bitOf (reached (swapRow o) (rewritten s p o 1 1)) 0 = true := by
    rw [bitOf_reached hv, testBit_rewritten hrow _ _ (by decide)]
    simp [swapRow]
  rw [regUpdate, regWrite_block h hi hrow hlo hhi rfl hhigh hv]
  exact responds (hgo _ _ _ _ _ hbit) _
theorem gatBank_written (v port : Nat) : gatBank (written s p o v) port = gatBank s port := by
  obtain ⟨x, y, hx⟩ := storeWord_only s p o v all32
  rw [written, hx]
  rfl

end

section
variable {s : State} {r : Requester} {k : Nat}

theorem regUpdate_gatSwap (hk : k < 106) (h : opened s r (gatPage k) 0x104 = true) : regUpdate s r (gatPage k) 0x104 1 1 =
    { swapGo (written s (gatPage k) 0x104 (rewritten s (gatPage k) 0x104 1 1)) (gatPage k) with resp := .done } := by
  obtain ⟨hrow, hhigh, hkind, -⟩ := gat_rows k hk
  obtain ⟨i, hi⟩ := pageInfo_of_opened (by decide) h
  have hik : i.kind = .gat := by simpa [kindOf, hi] using hkind
  exact regUpdate_swap h hi hrow hhigh (by decide) (by decide) fun s0 s old w new hw => by simp only [blockEffect, hik, hw, and_self, if_true]
theorem regUpdate_mtrSwap (hk : k < 5) (h : opened s r (mtrPage k) 0x100 = true) : regUpdate s r (mtrPage k) 0x100 1 1 =
    { swapGo (written s (mtrPage k) 0x100 (rewritten s (mtrPage k) 0x100 1 1)) (mtrPage k) with resp := .done } := by
  obtain ⟨hrow, hhigh, -, hkind⟩ := mtr_rows k hk
  obtain ⟨i, hi⟩ := pageInfo_of_opened (by decide) h
  have hik : i.kind = .mtr ∨ i.kind = .fplMtr := by simpa [kindOf, hi] using hkind
  refine regUpdate_swap h hi hrow hhigh (by decide) (by decide) fun s0 s old w new hw => ?_
  rcases hik with hik | hik <;> simp only [blockEffect, hik, hw, and_self, if_true]
theorem bankOfPage_gat (hk : k < 106) : bankOfPage s (gatPage k) = gatBank s k := by
  obtain ⟨-, -, hkind, hoff⟩ := gat_rows k hk
  unfold bankOfPage
  simp only [hkind, hoff]
theorem swapReg_gat (hk : k < 106) : swapReg (gatPage k) = (0x104, 0, 1) := by
  obtain ⟨-, -, hkind, -⟩ := gat_rows k hk
  unfold swapReg
  simp only [hkind]
theorem bankOfPage_mtr (hk : k < 5) : bankOfPage s (mtrPage k) = (pipeOf s k).mtr := by
  obtain ⟨-, -, hpipe, hkind⟩ := mtr_rows k hk
  unfold bankOfPage
  rcases hkind with h | h <;> simp only [h, hpipe]
theorem swapReg_mtr (hk : k < 5) : swapReg (mtrPage k) = (0x100, 3, 4) := by
  obtain ⟨-, -, -, hkind⟩ := mtr_rows k hk
  unfold swapReg
  rcases hkind with h | h <;> simp only [h]

end

end Sys2Proof.Machine

namespace Sys2Proof
open Sys2Proof.Machine

/-- Settles O36: each path is chosen by the state of the frame, of the port or of the bank that the premises name. -/
theorem queuesAndGates : Obligations.QueuesAndGates := by
  unfold Obligations.QueuesAndGates
  refine ⟨fun s q n f hq hf hskip hplace => ⟨fun hfar => completes ?_, fun hnear hc => ⟨fun hb => completes ?_, fun hb => completes ?_⟩,
      fun hnear hc => ⟨fun hno => completes ?_, fun u hu hyes => ⟨fun hp => completes ?_, fun hp => completes ?_⟩⟩⟩,
    fun s q n f hq hf hskip => completes ((if_pos hq).trans (readyNow_skipped hf hskip)),
    fun s q y hq hh hrep hl hy => completes ((if_pos hq).trans (seqSkipNow_skips hh hrep hl hy)),
    fun s q hq hno => completes ((if_pos hq).trans (if_pos (.inr (.inr (by simp [hno]))))),
    fun s u v port hq h112 h113 hfw hpl hu => ?_, fun s port hlo hhi hfw hpl => completes ?_,
    fun s port hq hfw => completes ((if_pos hq).trans (if_pos hfw)),
    fun s => ⟨fun hfw => completes ((if_pos (by decide)).trans ((if_neg (ne_true_of_eq_false hfw)).trans (if_pos (by decide)))),
      fun hfw => completes ((if_pos (by decide)).trans ((if_neg (ne_true_of_eq_false hfw)).trans ((if_neg (by decide)).trans (if_pos (by decide)))))⟩,
    fun s u port t hq ht1s hwait htx hct hst hheld hag hmir hu =>
      completes ((if_pos hq).trans (congrArg stampNotes (completeTx_whole ht1s hwait htx hag hheld hct hst hmir hu))),
    fun s u port t hq ht1s hwait htx hct hpart hheld hag hu =>
      completes ((if_pos hq).trans (congrArg stampNotes (completeTx_dry ht1s hwait htx hag hheld hct hpart hu))),
    fun s port hq htx => completes ((if_pos hq).trans (congrArg stampNotes (completeTx_idle htx))),
    fun s port hp hrun => completes ((if_pos (by simpa [macPort] using hp)).trans (if_pos (by simp [hrun]))),
    fun s port g hp hrun hg => completes ((if_pos (by simpa [macPort] using hp)).trans ?_),
    fun s u r port hp h hu => ⟨fun hret hguard => completes ?_, fun hheld => completes ?_⟩,
    fun s u r k hk h hu => ⟨fun hret hguard => completes ?_, fun hheld => completes ?_⟩⟩
  · exact (if_pos hq).trans (readyNow_far hf hskip hfar)
  · exact (if_pos hq).trans ((readyNow_near hf hskip hplace hnear).trans ((if_neg (by simp [hb])).trans (if_pos hc)))
  · exact (if_pos hq).trans ((readyNow_near hf hskip hplace hnear).trans (if_pos ⟨hc, hb⟩))
  · exact (if_pos hq).trans ((readyNow_near hf hskip hplace hnear).trans
      ((if_neg (by simp [hc])).trans ((if_neg (by simp [hc])).trans (if_neg (by simp [hno])))))
  · subst hu
    exact (if_pos hq).trans ((readyNow_near hf hskip hplace hnear).trans
      ((if_neg (by simp [hc])).trans ((if_neg (by simp [hc])).trans ((if_pos hyes).trans (if_pos hp)))))
  · subst hu
    exact (if_pos hq).trans ((readyNow_near hf hskip hplace hnear).trans
      ((if_neg (by simp [hc])).trans ((if_neg (by simp [hc])).trans ((if_pos hyes).trans (if_neg hp)))))
  · have hsel : onlyIf (isQueuePort port.toNat) s (selectAt s port.toNat) = selectNow s port.toNat :=
      (if_pos hq).trans ((selectAt_plain hfw h112 h113).trans (if_neg (by simpa using hpl)))
    exact ⟨fun hbusy => completes (hsel.trans (selectNow_busy hu hbusy)),
      fun hfree hpick => completes (hsel.trans (selectNow_none hu hfree hpick)),
      fun c tier f hfree hpick hnext => completes (hsel.trans (selectNow_some hu hfree hpick hnext))⟩
  · have hq : isQueuePort port.toNat = true := by simp [isQueuePort]; omega
    refine (if_pos hq).trans ((selectAt_plain hfw (by omega) (by omega)).trans (if_pos ⟨?_, hpl⟩))
    simp [isT1s, hlo, hhi]
  · unfold gateOversize
    simp only [hrun, hg, Bool.not_true, Bool.false_eq_true, if_false] <;> rfl
  · refine (if_pos (by simpa [macPort] using hp)).trans ((regUpdate_gatSwap (by omega) h).trans (responds ?_ _))
    unfold swapGo
    rw [bankOfPage_gat (by omega), gatBank_written, if_neg (by simp [hret, hguard]), hu]
  · refine (if_pos (by simpa [macPort] using hp)).trans ((regUpdate_gatSwap (by omega) h).trans (responds ?_ _))
    unfold swapGo
    rw [bankOfPage_gat (by omega), gatBank_written, if_pos hheld, swapRefused, swapReg_gat (by omega), hu]
  · refine (if_pos (by simpa [pipeNo] using hk)).trans ((regUpdate_mtrSwap (by omega) h).trans (responds ?_ _))
    unfold swapGo
    rw [bankOfPage_mtr (by omega), pipeOf_written, if_neg (by simp [hret, hguard]), hu]
  · refine (if_pos (by simpa [pipeNo] using hk)).trans ((regUpdate_mtrSwap (by omega) h).trans (responds ?_ _))
    unfold swapGo
    rw [bankOfPage_mtr (by omega), pipeOf_written, if_pos hheld, swapRefused, swapReg_mtr (by omega), hu]

end Sys2Proof
end

section
/-! PROOFS. Custody queues: settle, replay, expiry, flush (R279 to R286). -/

namespace Sys2Proof.Machine

/-! ### A field of a register as a write has left it -/

section
variable {s : State} {p o : Nat} {row : RegRow} (hrow : regRow p o = some row)
include hrow

theorem fld_written (v : Nat) {hi lo : Nat} (hhi : hi < 32) (hrw : ∀ b < 32, lo ≤ b → b ≤ hi → (row.rw ||| row.rws).testBit b = true) :
    fld (written s p o v) p o hi lo = bitsOf v hi lo := by
  refine Nat.eq_of_testBit_eq fun j => ?_
  rw [fld, testBit_bitsOf, testBit_bitsOf]
  by_cases hj : j < hi + 1 - lo
  · have h := bitOf_written (s := s) hrow v (b := lo + j) (by omega) (hrw _ (by omega) (by omega) (by omega))
    rw [bitOf] at h
    rw [h]
  · simp [hj]
theorem rd_written_mod (v : Nat) {n : Nat} (hn : n ≤ 32) (hrw : ∀ b < 32, b < n → (row.rw ||| row.rws).testBit b = true) :
    (rd (written s p o v) p o).toNat % 2 ^ n = v % 2 ^ n := by
  refine Nat.eq_of_testBit_eq fun j => ?_
  rw [Nat.testBit_mod_two_pow, Nat.testBit_mod_two_pow]
  by_cases hj : j < n
  · have h := bitOf_written (s := s) hrow v (b := j) (by omega) (hrw _ (by omega) hj)
    rw [bitOf] at h
    rw [h]
  · simp [hj]

end

/-! ### Settle and expiry -/

section
variable {s : State} {q : Nat}

theorem settleDone_ready (hst : (cqOf s q).st = 3) (hready : cstReady s = true) : settleDone s q =
    if (cqOf s q).records.isEmpty = true ∧ (queueOf s q).frames.all (fun f => f.place != .staged) = true then setCq s q { cqOf s q with st := 0 }
    else if (!tbValid s 0) = true ∧ (!bitAt s cstPage 0x100 1) = true then s
    else setCq s q { cqOf s q with st := 4, bucket := 0, bucketBc := now s } := by
  unfold settleDone
  exact if_neg (by simp [hst, hready])
theorem isEmpty_false_of_ne_nil {α : Type} {l : List α} (h : l ≠ []) : l.isEmpty = false := by
  cases l with
  | nil => exact absurd rfl h
  | cons a l => rfl

/-! ### Replay (R284, R285) -/

variable {r : Record} {rest : List Record} (hrec : (cqOf s q).records = r :: rest)
include hrec

theorem replayOne_waits (hwait : (cqOf s q).st ≠ 4) : replayOne s q = s := by
  have hrec' : (fillBucket s q).records = r :: rest := hrec
  unfold replayOne
  simp only [hrec']
  exact if_pos (.inl hwait)

variable (hst : (cqOf s q).st = 4) (hready : cstReady s = true) (hwalk : (cqOf s q).walkTill ≤ now s)
  (hspan : spanBlocked s (qPort q) (qTc q) true = false)
include hst hready hwalk hspan

theorem replayOne_broken (hchain : (readChain s r.pages).1 = false) :
    replayOne s q = replayDone (recordsLost (readChain s r.pages).2 q) q := by
  have hrec' : (fillBucket s q).records = r :: rest := hrec
  have hst' : (fillBucket s q).st = 4 := hst
  have hwalk' : (fillBucket s q).walkTill ≤ now s := hwalk
  unfold replayOne
  simp only [hrec']
  exact (if_neg (by simp [hst', hready, hspan, Nat.not_lt.mpr hwalk'])).trans (if_pos (by simp [hchain]))

variable (hchain : ∀ p ∈ r.pages, wordBad s (descWord s p) = false)
include hchain

/-- A head record whose chain is whole goes by its pages, its age, its bucket and what it is granted. -/
theorem replayOne_whole : ∀ u, u = replayOne s q →
    (unreadable s r.pages = true ∨ badWords s r.pages r.off (recSize r.frame) ≠ [] →
      u = replayDone (dropAll 0xA6 (max 1 (headLost s q r)) (markBad s (badWords s r.pages r.off (recSize r.frame))) q) q) ∧
    (unreadable s r.pages = false → badWords s r.pages r.off (recSize r.frame) = [] →
      (expired s q r.cts r.untimed = true → u = replayDone (dropHead s q 0xA1) q) ∧
      (expired s q r.cts r.untimed = false →
        ((fillBucket s q).bucket < 0 ∨
            (refillGran (queueOf s q) ≠ 0 ∧ refillWindow s (qPort q) < refillGran (queueOf s q) + granulesOf r.frame) →
          u = setCq s q (fillBucket s q)) ∧
        (¬((fillBucket s q).bucket < 0 ∨
            (refillGran (queueOf s q) ≠ 0 ∧ refillWindow s (qPort q) < refillGran (queueOf s q) + granulesOf r.frame)) →
          (∀ t, grant (setCq s q (fillBucket s q)) .granules (tmsReq q) (granulesOf r.frame) 5 = (none, t) → u = t) ∧
          (∀ t b v w, grant (setCq s q (fillBucket s q)) .granules (tmsReq q) (granulesOf r.frame) 5 = (some b, t) →
            v = setCq t q { cqOf t q with records := rest, bucket := (fillBucket s q).bucket - (schedLen t (qPort q) r.frame : Nat) } →
            w = enqueue v { frame := { r.frame with tc := qTc q, complete := true }, port := qPort q, buf := b, replay := true } .refill
              (r.cts, r.untimed) →
            u = replayDone (if isSpanPort v (qPort q) then setFrame w q ((queueOf w q).seqCtr - 1) (fun f => { f with pages := r.pages })
              else releaseRecord w q r.pages) q)))) := by
  rintro u rfl
  have hrec' : (fillBucket s q).records = r :: rest := hrec
  have hst' : (fillBucket s q).st = 4 := hst
  have hwalk' : (fillBucket s q).walkTill ≤ now s := hwalk
  have hgo : ¬((fillBucket s q).st ≠ 4 ∨ (!cstReady s) = true ∨ now s < (fillBucket s q).walkTill ∨ spanBlocked s (qPort q) (qTc q) true = true) := by
    simp [hst', hready, hspan, Nat.not_lt.mpr hwalk']
  unfold replayOne
  simp only [hrec', readChain_good hchain, if_neg hgo, Bool.not_true, Bool.false_eq_true, if_false]
  refine ⟨fun hbad => if_pos ?_, fun hun hbad => ?_⟩
  · rcases hbad with h | h
    · exact .inl h
    · exact .inr (by rw [isEmpty_false_of_ne_nil h]; rfl)
  · simp only [hun, hbad, Bool.false_eq_true, List.isEmpty_nil, Bool.not_true, or_self, if_false]
    refine ⟨fun he => if_pos he, fun he => ?_⟩
    simp only [he, Bool.false_eq_true, if_false]
    refine ⟨fun hwait => if_pos hwait, fun hgo => ⟨fun t hg => ?_, fun t b v w hg hv hw => ?_⟩⟩
    · simp only [if_neg hgo, hg]
    · subst hv hw
      simp only [if_neg hgo, hg]

end

/-! ### Flush (R286) -/

theorem cst_flush_row : regRow cstPage 0x128 = some { off := 0x128, rw := 0x3FF, w1s := 0x80000000 } ∧ isHigh cstPage 0x128 = false ∧
    (pageInfo cstPage).map (·.kind) = some .cst := by decide +kernel

/-- A write of CST_FLUSH with go flushes the queue named. -/
theorem regWrite_custodyFlush {s : State} {r : Requester} {v : Nat} (h : opened s r cstPage 0x128 = true) (hv : v < 2 ^ 32) :
    regWrite s r cstPage 0x128 (v ||| 2 ^ 31) = { flushCustody (written s cstPage 0x128 (v ||| 2 ^ 31)) (v % 1024) with resp := .done } := by
  obtain ⟨hrow, hhigh, hkind⟩ := cst_flush_row
  obtain ⟨i, hi⟩ := pageInfo_of_opened (by decide) h
  have hik : i.kind = .cst := by simpa [hi] using hkind
  have hv' : v ||| 2 ^ 31 < 2 ^ 32 := Nat.or_lt_two_pow hv (by decide)
  have hgo : bitOf (reached { off := 0x128, rw := 0x3FF, w1s := 0x80000000 } (v ||| 2 ^ 31)) 31 = true := by
    rw [bitOf_reached hv', Nat.testBit_or, Nat.testBit_two_pow_self, Bool.or_true]
    rfl
  have hq : (rd (written s cstPage 0x128 (v ||| 2 ^ 31)) cstPage 0x128).toNat % 1024 = v % 1024 := by
    refine (rd_written_mod hrow _ (n := 10) (by decide) (by decide)).trans ?_
    rw [Nat.or_mod_two_pow]
    exact Nat.or_zero _
  rw [regWrite_block h hi hrow (by decide) (by decide) rfl hhigh hv']
  refine responds ?_ _
  simp only [blockEffect, hik]
  refine (if_pos rfl).trans ((if_pos hgo).trans ?_)
  rw [hq]

end Sys2Proof.Machine

namespace Sys2Proof
open Sys2Proof.Machine

/-- Settles O38: a custody queue goes by its state, its records and the queue it feeds. -/
theorem custodyQueues : Obligations.CustodyQueues := by
  unfold Obligations.CustodyQueues
  refine ⟨fun s q hq => ⟨fun hno => completes ((if_pos hq).trans ?_), fun hbusy => completes ((if_pos hq).trans ?_),
      fun v hv hempty => completes ((if_pos hq).trans ?_)⟩,
    fun s q hq hst hready => ⟨fun hrec hstaged => completes ((if_pos hq).trans ((settleDone_ready hst hready).trans (if_pos ?_))),
      fun hrec htb hcfg => completes ((if_pos hq).trans ((settleDone_ready hst hready).trans ((if_neg ?_).trans (if_pos ?_)))),
      fun hrec hgo => completes ((if_pos hq).trans ((settleDone_ready hst hready).trans ((if_neg ?_).trans (if_neg ?_))))⟩,
    fun s q hq hst => completes ((if_pos hq).trans (if_pos (.inl hst))), fun s q r rest hq hrec hst hready hwalk hspan => ?_,
    fun s q r rest hq hrec hst => completes ((if_pos hq).trans (replayOne_waits hrec hst)),
    fun s u q hq hm hu => completes ((if_pos hq).trans ?_), fun s q n t ht => ?_, fun s q t htb => ?_,
    fun s u t r v q h hu hq hm ht => ?_⟩
  · unfold custodyEnNow
    simp only [hno]
  · unfold custodyEnNow
    dsimp only
    split
    · rfl
    · exact if_neg (by simp [hbusy])
  · unfold custodyEnNow
    simp only [hv]
    exact if_pos hempty
  · exact ⟨by simp [hrec], by simpa using hstaged⟩
  · simp [hrec]
  · simp [htb, hcfg]
  · simp [hrec]
  · rcases hgo with h | h <;> simp [h]
  · refine ⟨fun hchain => completes ((if_pos hq).trans (replayOne_broken hrec hst hready hwalk hspan hchain)), fun hchain => ?_⟩
    obtain ⟨hdamaged, hgood⟩ := replayOne_whole hrec hst hready hwalk hspan hchain _ rfl
    refine ⟨fun hbad => completes ((if_pos hq).trans (hdamaged hbad)), fun hun hbad hold => completes ((if_pos hq).trans ((hgood hun hbad).1 hold)),
      fun hun hbad hnew => ?_⟩
    obtain ⟨hwait, hgo⟩ := (hgood hun hbad).2 hnew
    refine ⟨fun hw => completes ((if_pos hq).trans (hwait hw)), fun hbucket hwindow => ?_⟩
    obtain ⟨hnone, hsome⟩ := hgo (not_or.mpr ⟨by omega, by omega⟩)
    refine ⟨fun t hg => completes ((if_pos hq).trans (hnone t hg)), fun t v u w b hg hv hu hw => completes ((if_pos hq).trans ?_)⟩
    rw [hw]
    exact hsome t b v u hg hv hu
  · unfold expireNow
    rw [hu]
    exact if_neg (by simp [hm])
  · rw [expireHead, ht]
  · simp only [expired, htb, Bool.true_and, Bool.false_eq_true, if_false]
  · have hm' : marked u q = true := by
      obtain ⟨x, y, hx⟩ := storeWord_only s cstPage 0x128 (v.toNat ||| 2 ^ 31) all32
      rw [hu, written, hx]
      exact hm
    have hflush : flushCustody u q = if (cqOf t q).st = 2 ∨ portQ t (qPort q) = 2 then setCq t q { cqOf t q with st := 2 }
        else if (queueOf t q).frames.any (fun f => f.place == .staged) = true then t else setCq t q { cqOf t q with st := 0 } := by
      rw [ht]
      unfold flushCustody
      exact if_neg (by simp [hm'])
    have hreg : regWrite s r cstPage 0x128 (v.toNat ||| 2 ^ 31) = { flushCustody u q with resp := .done } := by
      rw [hu, hq]
      exact regWrite_custodyFlush h v.isLt
    refine ⟨fun hlost => completes (hreg.trans (responds (hflush.trans (if_pos hlost)) _)),
      fun hst hport hnone => completes (hreg.trans (responds (hflush.trans ((if_neg (not_or.mpr ⟨hst, hport⟩)).trans (if_neg ?_))) _)),
      fun hst hport hany => completes (hreg.trans (responds (hflush.trans ((if_neg (not_or.mpr ⟨hst, hport⟩)).trans (if_pos hany))) _))⟩
    simpa using hnone

end Sys2Proof
end

section
/-! PROOFS. Power failure, custody hold, journals and the rebuild (R287 to R293). -/

namespace Sys2Proof.Machine

/-! ### Entry to custody hold (R287 to R289) -/

theorem pfwAccept_run {s : State} (h : s.mode = .run) : pfwAccept s =
    if fwState s ≠ 0 then enterHold { s with pins := { s.pins with pfwN := false } } 1
    else powerFail { s with pins := { s.pins with pfwN := false } } 1 1 := by
  unfold pfwAccept
  exact if_neg (not_not_intro h)

theorem domOf_presets (st : PwrState) {d : Nat} (l : List Nat) (s : State) (h : d ∈ l) : domOf (forEach s l (presetDom st)) d = { st := st } := by
  have hkeep : ∀ (l : List Nat) (s : State), domOf s d = { st := st } → domOf (forEach s l (presetDom st)) d = { st := st } := fun l => by
    induction l with
    | nil => exact fun s h => h
    | cons a l ih =>
      intro s h
      refine ih _ ?_
      by_cases ha : d = a
      · subst ha
        exact mapGet_mapSet_same _ _ _ _
      · exact (mapGet_mapSet_other _ _ _ ha).trans h
  induction l generalizing s with
  | nil => exact absurd h List.not_mem_nil
  | cons a l ih =>
    rcases List.mem_cons.mp h with rfl | h
    · exact hkeep l _ (mapGet_mapSet_same _ _ _ _)
    · exact ih (presetDom st s a) h
/-- What custody hold keeps of the state, beside the domains that it switches off. -/
theorem enterHold_keeps (s : State) (c : Nat) : (enterHold s c).mode = .custodyHold ∧ (enterHold s c).pins.custodyHold = true ∧
    (enterHold s c).cust.slots = s.cust.slots ∧ (enterHold s c).cust.anchors = s.cust.anchors ∧ (enterHold s c).cqueues = s.cqueues ∧
    ∀ d < 176, domOf (enterHold s c) d = { st := .off } := by
  have hoff : ∀ d < 176, domOf (forEach (goOff (stageCut s) 0 (fun p => decide (pageDom p < 176))) (List.range 176) (presetDom .off)) d =
      { st := .off } := fun d hd => domOf_presets .off _ _ (List.mem_range.mpr hd)
  unfold enterHold
  dsimp only
  generalize forEach (goOff (stageCut s) 0 (fun p => decide (pageDom p < 176))) (List.range 176) (presetDom .off) = t at hoff ⊢
  simpa [domOf] using hoff
theorem domOn_enterHold (s : State) (c : Nat) {d : Nat} (hd : d < 176) : domOn (enterHold s c) d = false := by
  obtain ⟨-, -, -, -, -, hoff⟩ := enterHold_keeps s c
  rw [domOn, hoff d hd, decide_eq_false (Nat.not_le.mpr hd)]
  rfl

/-! ### The commands of CST_HOLD_CTL and JRN_CTL -/

theorem hold_rows : regRow cstPage 0x138 = some { off := 0x138, w1s := 0x3 } ∧ isHigh cstPage 0x138 = false ∧
    (pageInfo cstPage).map (·.kind) = some .cst ∧ regRow jrnPage 0x104 = some { off := 0x104, w1s := 0x1 } ∧ isHigh jrnPage 0x104 = false ∧
    (pageInfo jrnPage).map (·.kind) = some .jrn := by decide +kernel

section
variable {s : State} {r : Requester}

theorem regWrite_holdCtl (h : opened s r cstPage 0x138 = true) {v : Nat} (hv : v < 4) :
    regWrite s r cstPage 0x138 v = { (let u := written s cstPage 0x138 v
      let t := if bitOf v 1 then { u with pins := { u.pins with custodyHold := false } } else u
      if bitOf v 0 then powerFail t 4 3 else t) with resp := .done } := by
  obtain ⟨hrow, hhigh, hkind, -, -, -⟩ := hold_rows
  obtain ⟨i, hi⟩ := pageInfo_of_opened (by decide) h
  have hik : i.kind = .cst := by simpa [hi] using hkind
  have hw : reached { off := 0x138, w1s := 0x3 } v = v := by revert v; decide
  rw [regWrite_block h hi hrow (by decide) (by decide) rfl hhigh (by omega), hw]
  refine responds ?_ _
  simp only [blockEffect, hik]
  exact (if_neg (by decide)).trans ((if_neg (by decide)).trans (if_pos rfl))
theorem regWrite_journalNow (h : opened s r jrnPage 0x104 = true) :
    regWrite s r jrnPage 0x104 1 = { checkpoint (written s jrnPage 0x104 1) with resp := .done } := by
  obtain ⟨-, -, -, hrow, hhigh, hkind⟩ := hold_rows
  obtain ⟨i, hi⟩ := pageInfo_of_opened (by decide) h
  have hik : i.kind = .jrn := by simpa [hi] using hkind
  rw [regWrite_block h hi hrow (by decide) (by decide) rfl hhigh (by decide)]
  refine responds ?_ _
  simp only [blockEffect, hik]
  exact if_pos ⟨trivial, by decide⟩

end

/-! ### Journals (R290, R291) -/

section
variable (j : Journal) (s : State) (k : Nat)

theorem mendWords_only (which : Nat × Nat → Bool) : ∃ bad, mendWords s which = { s with dramBad := bad } := by
  unfold mendWords
  split
  · exact ⟨s.dramBad, rfl⟩
  · exact ⟨_, rfl⟩
theorem putJournal_only : ∃ bad, putJournal j s k =
    { s with cust := { s.cust with slots := mapSet (fun _ => none) s.cust.slots k (some j) }, dramBad := bad } := by
  obtain ⟨bad, h⟩ := mendWords_only { s with cust := { s.cust with slots := mapSet (fun _ => none) s.cust.slots k (some j) } }
    (inSlot { s with cust := { s.cust with slots := mapSet (fun _ => none) s.cust.slots k (some j) } } k (journalBytes j).length)
  exact ⟨bad, h⟩
theorem slot_putJournal_same : mapGet (fun _ => (none : Option Journal)) (putJournal j s k).cust.slots k = some j := by
  obtain ⟨bad, h⟩ := putJournal_only j s k
  rw [h]
  exact mapGet_mapSet_same (fun _ => none) s.cust.slots k (some j)
theorem slot_putJournal_other {i : Nat} (hi : i ≠ k) :
    mapGet (fun _ => (none : Option Journal)) (putJournal j s k).cust.slots i = mapGet (fun _ => none) s.cust.slots i := by
  obtain ⟨bad, h⟩ := putJournal_only j s k
  rw [h]
  exact mapGet_mapSet_other (fun _ => none) s.cust.slots (some j) hi

end

theorem rd64_wr64 (s : State) (p o v : Nat) : rd64 (wr64 s p o v) p o = v % 2 ^ 64 := by
  have hlow : rd (wr (wr s p o (BitVec.ofNat 32 v)) p (o + 4) (BitVec.ofNat 32 (v / 2 ^ 32))) p o = BitVec.ofNat 32 v := by
    rw [rd_wr_off _ _ _ _ _ (by omega), rd_wr_same]
  rw [rd64, wr64, hlow, rd_wr_same, BitVec.toNat_ofNat, BitVec.toNat_ofNat]
  omega
theorem rd64_setBit_off (s : State) (p o w b : Nat) (v : Bool) (h : o ≠ w) (h4 : o + 4 ≠ w) : rd64 (setBit s p w b v) p o = rd64 s p o := by
  rw [rd64, rd_setBit_key, rd_setBit_key]
  · rfl
  all_goals omega
/-- R290: with both channels 0 and 8 in service the journal goes to both of their slots. -/
theorem writeJournal_both {s : State} {c l k : Nat} (h0 : (channels s).contains 0 = true) (h8 : (channels s).contains 8 = true)
    (hk : k = (newestJournal s).elim 0 (fun e => 1 - e.1 % 2)) : writeJournal s c l =
      setBit (wr64 (putJournal (journalNow s c l) (putJournal (journalNow s c l) s k) (2 + k)) jrnPage 0x110 (journalNow s c l).generation)
        jrnPage 0x108 6 true := by
  have hon : [0, 8].filter (fun k => (channels s).contains k) = [0, 8] := by
    rw [List.filter_cons_of_pos h0, List.filter_cons_of_pos h8, List.filter_nil]
  unfold writeJournal
  simp only [hon, List.isEmpty_cons, Bool.false_eq_true, if_false, List.length_cons, List.length_nil, if_true, List.map_cons, List.map_nil, hk]
  cases hnew : newestJournal s <;> simp [forEach]
theorem writeJournal_none {s : State} (h0 : (channels s).contains 0 = false) (h8 : (channels s).contains 8 = false) (c l : Nat) :
    writeJournal s c l = raise s jrnPage 1 := by
  have hon : [0, 8].filter (fun k => (channels s).contains k) = [] := by
    rw [List.filter_cons_of_neg (ne_true_of_eq_false h0), List.filter_cons_of_neg (ne_true_of_eq_false h8), List.filter_nil]
  unfold writeJournal
  simp only [hon, List.isEmpty_nil, if_true]

/-! ### The end of custody hold (R292) -/

theorem coldStart_held {s : State} (h : s.mode = .custodyHold) : coldStart s false =
    if (!aonWarm s) = true ∨ (holdCause s = 4 ∧ (!aonCool s) = true) then { s with mode := .inReset, boot := { s.boot with kept := true } }
    else coldReset (setBit s pwrPage 0x10C 8 false) true := by
  unfold coldStart
  simp only [h, beq_self_eq_true, Bool.true_or, Bool.false_and]

section
variable {s : State} (hmode : s.mode = .custodyHold) (hreset : s.pins.resetN = true)
  (hcause : (holdCause s = 1 ∨ holdCause s = 2 ∨ holdCause s = 5) ∨ (holdCause s = 4 ∧ aonCool s = true))
include hmode hreset hcause

theorem holdExit_starts : holdExit s = coldStart { s with pins := { s.pins with pfwN := true } } false := by
  refine if_neg ?_
  rcases hcause with (h | h | h) | ⟨h, hcool⟩ <;> simp [hmode, hreset, h]
  exact hcool
omit hmode hreset in
theorem not_hot : ¬(holdCause s = 4 ∧ (!aonCool s) = true) := by
  rcases hcause with (h | h | h) | ⟨h, hcool⟩ <;> simp [h]
  exact hcool

end

end Sys2Proof.Machine

namespace Sys2Proof
open Sys2Proof.Machine

/-- Settles O39: the journal goes to the slots of channels 0 and 8, and custody hold is built over what it keeps. -/
theorem custodyHoldAndRebuild : Obligations.CustodyHoldAndRebuild := by
  unfold Obligations.CustodyHoldAndRebuild
  refine ⟨fun s hmode hfw => completes ?_, fun s hmode hfw => completes ?_, fun s hmode => completes (if_pos hmode), fun s c hc => ?_,
    fun s r h => completes ?_, fun s r h => completes ?_, fun s h0 hper => completes ?_,
    fun s hno => completes ?_, fun s r h hcst => completes ?_, fun s c l k h0 h8 hk => ?_, fun s c l => ⟨rfl, rfl, rfl, rfl⟩,
    fun s c l h0 h8 => writeJournal_none h0 h8 c l, fun s hmode hreset hwarm hcause => completes ?_,
    fun s hmode hreset hwarm hcause => completes ?_, fun s hno => completes (if_pos ?_),
    fun s => ⟨fun h => completes ?_, fun h => completes ?_, fun h => completes ?_, fun h => completes ?_⟩⟩
  · exact (pfwAccept_run hmode).trans (if_neg (not_not_intro hfw))
  · exact (pfwAccept_run hmode).trans (if_pos hfw)
  · obtain ⟨hm, hp, hslots, hanch, hcq, -⟩ := enterHold_keeps s c
    exact ⟨hm, hp, rd_wr_same .., hslots, hanch, hcq, fun d hd => domOn_enterHold s c hd⟩
  · exact (regWrite_holdCtl h (by decide)).trans (responds ((if_pos rfl).trans (congrArg (powerFail · 4 3) (if_neg (by decide)))) _)
  · refine (regWrite_holdCtl h (by decide)).trans ?_
    obtain ⟨x, y, hx⟩ := storeWord_only s cstPage 0x138 2 all32
    rw [written, hx]
    rfl
  · exact (if_neg (by omega)).trans (if_pos h0)
  · rcases hno with h | h
    · unfold checkpointDue checkpoint
      rw [h, if_neg Bool.false_ne_true, ite_self]
    · exact if_pos h
  · refine (regWrite_journalNow h).trans (responds (if_pos ?_) _)
    rw [bitAt_congr (s := s) (rd_storeWord_other _ _ _ _ _ _ _ (by decide))]
    exact hcst
  · rw [writeJournal_both h0 h8 (hk.trans (by cases newestJournal s <;> rfl))]
    refine ⟨?_, ?_, ?_⟩
    · rw [rd64_setBit_off _ _ _ _ _ _ (by decide) (by decide), rd64_wr64]
      rfl
    · simp only [setBit_frame4, wr64_frame4]
      exact (slot_putJournal_other _ _ _ (by omega)).trans (slot_putJournal_same ..)
    · simp only [setBit_frame4, wr64_frame4]
      exact slot_putJournal_same ..
  · refine (holdExit_starts hmode hreset hcause).trans ((coldStart_held (by exact hmode)).trans (if_neg (not_or.mpr ⟨?_, not_hot hcause⟩)))
    have hw : aonWarm { s with pins := { s.pins with pfwN := true } } = true := hwarm
    simp [hw]
  · refine (holdExit_starts hmode hreset hcause).trans ((coldStart_held (by exact hmode)).trans (if_pos (.inl ?_)))
    have hw : aonWarm { s with pins := { s.pins with pfwN := true } } = false := hwarm
    simp [hw]
  · rcases hno with h | h | h | ⟨h, hcool⟩
    · exact .inl h
    · exact .inr (.inl (by simp [h]))
    · exact .inr (.inr (.inl (by simp [h])))
    · exact .inr (.inr (.inr ⟨h, by simp [hcool]⟩))
  all_goals
    unfold rebuildNext
    simp only [h]

end Sys2Proof
end

section
/-! PROOFS. A memory channel is drained and readmitted (R295 to R297). -/

namespace Sys2Proof.Machine

theorem drain_row : regRow cstPage 0x12C = some { off := 0x12C, rw := 0xF, w1s := 0x700, w1c := 0x60000 } ∧ isHigh cstPage 0x12C = false ∧
    (pageInfo cstPage).map (·.kind) = some .cst := by decide +kernel

/-- A field that is written back under a mask. -/
theorem fld_updated {s : State} {p o : Nat} {row : RegRow} (hrow : regRow p o = some row) (mask v : Nat) {hi lo : Nat} (hhi : hi < 32)
    (hrw : ∀ b < 32, lo ≤ b → b ≤ hi → (row.rw ||| row.rws).testBit b = true ∧ mask.testBit b = true) :
    fld (written s p o (rewritten s p o mask v)) p o hi lo = bitsOf v hi lo := by
  rw [fld_written hrow _ hhi fun b hb hl hh => (hrw b hb hl hh).1]
  refine Nat.eq_of_testBit_eq fun j => ?_
  rw [testBit_bitsOf, testBit_bitsOf]
  by_cases hj : j < hi + 1 - lo
  · rw [testBit_rewritten hrow _ _ (by omega), if_pos (hrw (lo + j) (by omega) (by omega) (by omega)).2]
  · simp [hj]

section
variable {s : State} {r : Requester} (h : opened s r cstPage 0x12C = true)
include h

/-- CST_DRAIN written back: abort, go and readmit act in this order. -/
theorem regUpdate_drain {mask v : Nat} (hm : mask < 2 ^ 32) (hmask : mask.testBit 10 = false) : regUpdate s r cstPage 0x12C mask v =
    { (let u := written s cstPage 0x12C (rewritten s cstPage 0x12C mask v)
      let t := if (mask.testBit 9 && v.testBit 9) = true then abortDrain u else u
      if (mask.testBit 8 && v.testBit 8) = true then drainStart t else t) with resp := .done } := by
  obtain ⟨hrow, hhigh, hkind⟩ := drain_row
  obtain ⟨i, hi⟩ := pageInfo_of_opened (by decide) h
  have hik : i.kind = .cst := by simpa [hi] using hkind
  have hv := rewritten_lt s cstPage 0x12C (mask := mask) v hm
  have hbit : ∀ b < 32, 8 ≤ b → b ≤ 10 →
      bitOf (reached { off := 0x12C, rw := 0xF, w1s := 0x700, w1c := 0x60000 } (rewritten s cstPage 0x12C mask v)) b =
        (mask.testBit b && v.testBit b) := fun b hb hl hh => by
    have hcodes : ∀ b < 32, 8 ≤ b → b ≤ 10 → Nat.testBit (0xF ||| 0 ||| 0x60000 ||| 0x700 ||| 0) b = true ∧ Nat.testBit (0xF ||| 0) b = false := by
      decide
    rw [bitOf_reached hv, testBit_rewritten hrow _ _ hb, (hcodes b hb hl hh).1, (hcodes b hb hl hh).2]
    cases mask.testBit b <;> simp
  have h10 := hbit 10 (by decide) (by decide) (by decide)
  rw [hmask, Bool.false_and] at h10
  rw [regUpdate, regWrite_block h hi hrow (by decide) (by decide) rfl hhigh hv]
  refine responds ?_ _
  simp only [blockEffect, hik]
  refine (if_neg (by decide)).trans ((if_pos rfl).trans ?_)
  rw [hbit 9 (by decide) (by decide) (by decide), hbit 8 (by decide) (by decide) (by decide), h10]
  rfl
theorem regUpdate_drainGo {k : Nat} (hk : k < 16) : regUpdate s r cstPage 0x12C 0x10F (k + 0x100) =
    { drainStart (written s cstPage 0x12C (rewritten s cstPage 0x12C 0x10F (k + 0x100))) with resp := .done } := by
  have h8 : Nat.testBit (k + 0x100) 8 = true := by revert k; decide
  refine (regUpdate_drain h (by decide) (by decide)).trans (responds ?_ _)
  exact (if_pos (by rw [h8]; rfl)).trans (congrArg drainStart (if_neg Bool.false_ne_true))
theorem regUpdate_drainAbort : regUpdate s r cstPage 0x12C 0x200 0x200 =
    { abortDrain (written s cstPage 0x12C (rewritten s cstPage 0x12C 0x200 0x200)) with resp := .done } :=
  (regUpdate_drain h (by decide) (by decide)).trans (responds ((if_neg (by decide)).trans (if_pos (by decide))) _)
theorem regUpdate_drainChannel (k : Nat) : regUpdate s r cstPage 0x12C 0xF k =
    { written s cstPage 0x12C (rewritten s cstPage 0x12C 0xF k) with resp := .done } :=
  (regUpdate_drain h (by decide) (by decide)).trans (responds ((if_neg Bool.false_ne_true).trans (if_neg Bool.false_ne_true)) _)

end

theorem drainCause_free {s : State} {k : Nat} (hd : s.cust.draining = none) (hr : s.cust.readmitting = none) : drainCause s k =
    if (!(channels s).contains k) = true then 2 else if freeElsewhere s k < heldOn s k + sumMin s .pages then 3
    else if (!bitAt s cstPage 0x104 0) = true then 4 else 0 :=
  if_neg (by simp [hd, hr])

/-! ### The move of a page (R296) -/

theorem migrate_stays {s : State} {page : Nat} (h : (∀ k, s.cust.draining = some k → page % 16 ≠ k) ∨ (bufOf s .pages page).st ≠ .held ∨
    (bufOf s .pages page).owner ≠ 4) : migrate s page = s := by
  unfold migrate
  split
  · rfl
  · next k hk => exact if_pos (h.imp (fun h => h k hk) fun h => h.imp id .inl)

section
variable {s : State} {page k : Nat} (hdrain : s.cust.draining = some k) (hpage : page % 16 = k) (hst : (bufOf s .pages page).st = .held)
  (howner : (bufOf s .pages page).owner = 4)
  (hmay : (∀ q ∈ custodyQueues s, (cqOf s q).tail.any (fun t => t.1 == page) = false ∧ (queueOf s q).tail.any (fun t => t.1 == page) = false) ∨
      (∀ p ∈ usedOn s k, p ≠ page → (bufOf s .pages p).owner = 4 → (bufOf s .pages p).st ≠ .held))
include hdrain hpage hst howner hmay

/-- A custody page of the channel that no queue's tail holds back moves as far as a page is granted. -/
theorem migrate_moves : (∀ t, grant s .pages 4 1 6 = (none, t) → migrate s page = t) ∧
    (∀ t v new, grant s .pages 4 1 6 = (some new, t) → v = takePlace t (((bufOf s .pages page).tag.getD 0) % 1024) page new →
      migrate s page = opRelease { v with
        cqueues := mapUpdate cqDflt (fun _ c => { c with records := c.records.map (fun r => { r with pages := swapPage page new r.pages }), tail := c.tail.bind (fun x => if x.1 = page then none else some x) }) v.cqueues,
        queues := mapUpdate queueDflt (fun _ x => { x with frames := x.frames.map (fun f => { f with pages := swapPage page new f.pages }), tail := x.tail.bind (fun x => if x.1 = page then none else some x) }) v.queues }
        .pages page 4) := by
  have hgo : ¬(page % 16 ≠ k ∨ (bufOf s .pages page).st ≠ .held ∨ (bufOf s .pages page).owner ≠ 4 ∨
      ((custodyQueues s).any (fun q => (cqOf s q).tail.any (fun t => t.1 == page) || (queueOf s q).tail.any (fun t => t.1 == page)) = true ∧
        (usedOn s k).any (fun p => p != page && (bufOf s .pages p).owner == 4 && (bufOf s .pages p).st == .held) = true)) := by
    simp only [hpage, hst, howner, ne_eq, not_true_eq_false, false_or]
    rintro ⟨htail, hothers⟩
    rcases hmay with hno | hno
    · obtain ⟨q, hq, hq'⟩ := List.any_eq_true.mp htail
      obtain ⟨hc, hx⟩ := hno q hq
      rw [hc, hx] at hq'
      exact nomatch hq'
    · obtain ⟨p, hp, hp'⟩ := List.any_eq_true.mp hothers
      simp only [Bool.and_eq_true, bne_iff_ne, beq_iff_eq] at hp'
      exact hno p hp hp'.1.1 hp'.1.2 hp'.2
  unfold migrate
  simp only [hdrain, if_neg hgo]
  refine ⟨fun t hg => ?_, fun t v new hg hv => ?_⟩
  · simp only [hg]
  · subst hv
    simp only [hg]

end

/-! ### Readmission (R297) -/

/-- What the checks of a readmission come to. -/
theorem readmitStart_eq {u : State} {k serial cap : Nat} (hk : fld u cstPage 0x12C 3 0 = k) : readmitStart u serial cap =
    if u.cust.draining.isSome = true ∨ u.cust.readmitting.isSome = true then drainRefuse u 1
    else if (channels u).contains k = true ∨ (!domOn u (89 + k)) = true then drainRefuse u 2
    else if ((channels u).filter (· != k)).head?.any (fun j => (dimmOf u j).capacity != cap) = true then drainRefuse u 5
    else setBit (setDimm (blankChannel { u with cust := { u.cust with readmitting := some k } } k) k
      { serial := serial, capacity := cap, inService := false }) cstPage 0x12C 16 true := by
  subst hk
  rfl
theorem filter_ne_of_not_mem {l : List Nat} {k : Nat} (h : l.contains k = false) : l.filter (· != k) = l := by
  refine List.filter_eq_self.mpr fun a ha => bne_iff_ne.mpr ?_
  rintro rfl
  rw [List.contains_iff_mem.mpr ha] at h
  exact nomatch h

end Sys2Proof.Machine

namespace Sys2Proof
open Sys2Proof.Machine

/-- Settles O40: a drain or readmission is refused by the first of its causes, and moves pages by the tails of the queues. -/
theorem channelDrainAndReadmit : Obligations.ChannelDrainAndReadmit := by
  unfold Obligations.ChannelDrainAndReadmit
  have hsome : ∀ {α : Type} {o : Option α}, o ≠ none → o.isSome = true := fun h => Option.isSome_iff_ne_none.mpr h
  refine ⟨?_, fun s k => ⟨fun hbusy => if_pos (hbusy.imp hsome hsome), fun hd hr => ?_⟩, fun s page k hdrain hpage hst howner hmay => ?_,
    fun s page hno => completes (migrate_stays hno), fun s k hk hheld => completes ?_, fun s hheld => completes ?_, ?_, ?_,
    fun s v k hk hv => completes ?_, fun s hno => completes ?_⟩
  · rintro s u v r k h rfl rfl
    have hk : fld (written s cstPage 0x12C (rewritten s cstPage 0x12C 0x10F (k.toNat + 0x100))) cstPage 0x12C 3 0 = k.toNat := by
      have hbits : ∀ k < 16, bitsOf (k + 0x100) 3 0 = k := by decide
      exact (fld_updated drain_row.1 _ _ (by decide) (by decide)).trans (hbits _ k.isLt)
    refine ⟨fun hgo => completes ((regUpdate_drainGo h k.isLt).trans (responds ?_ _)),
      fun hno => completes ((regUpdate_drainGo h k.isLt).trans (responds ?_ _))⟩ <;> unfold drainStart <;> dsimp only <;> rw [hk]
    · exact if_neg (not_not_intro hgo)
    · exact if_pos hno
  · refine ⟨fun hout => ?_, fun hin hfew => ?_, fun hin hroom => ?_⟩ <;> rw [drainCause_free hd hr]
    · exact if_pos (by rw [hout]; rfl)
    · exact (if_neg (by rw [hin]; exact Bool.false_ne_true)).trans (if_pos hfew)
    · refine (if_neg (by rw [hin]; exact Bool.false_ne_true)).trans ((if_neg (Nat.not_lt.mpr hroom)).trans ?_)
      cases bitAt s cstPage 0x104 0 <;> rfl
  · obtain ⟨hnone, hnew⟩ := migrate_moves hdrain hpage hst howner hmay
    exact ⟨fun t hg => completes (hnone t hg), fun t v new hg hv => completes (hnew t v new hg hv)⟩
  · unfold drainEnd
    simp only [hk]
    exact if_neg (not_not_intro hheld)
  · unfold drainEnd
    split
    · rfl
    · next k hk => exact if_pos (hheld k hk)
  · rintro s u v r k h hk rfl rfl
    refine completes ((regUpdate_drainAbort h).trans (responds ?_ _))
    have hk' : (written s cstPage 0x12C (rewritten s cstPage 0x12C 0x200 0x200)).cust.draining = some k := by
      obtain ⟨x, y, hx⟩ := storeWord_only s cstPage 0x12C (rewritten s cstPage 0x12C 0x200 0x200) all32
      rw [written, hx]
      exact hk
    unfold abortDrain
    simp only [hk']
  · rintro s u r k serial cap h rfl
    obtain ⟨x, y, hx⟩ := storeWord_only s cstPage 0x12C (rewritten s cstPage 0x12C 0xF k.toNat) all32
    have hk : fld { written s cstPage 0x12C (rewritten s cstPage 0x12C 0xF k.toNat) with resp := .done } cstPage 0x12C 3 0 = k.toNat := by
      have hbits : ∀ k < 16, bitsOf k 3 0 = k := by decide
      exact (fld_updated drain_row.1 _ _ (by decide) (by decide)).trans (hbits _ k.isLt)
    have hgo : readmit s r k.toNat serial.toNat cap =
        readmitStart { written s cstPage 0x12C (rewritten s cstPage 0x12C 0xF k.toNat) with resp := .done } serial.toNat cap := by
      unfold readmit
      rw [h, regUpdate_drainChannel h]
      rfl
    have hcust : (written s cstPage 0x12C (rewritten s cstPage 0x12C 0xF k.toNat)).cust = s.cust := by rw [written, hx]
    have hchan : channels { written s cstPage 0x12C (rewritten s cstPage 0x12C 0xF k.toNat) with resp := .done } = channels s := by rw [written, hx]; rfl
    have hdom : domOn { written s cstPage 0x12C (rewritten s cstPage 0x12C 0xF k.toNat) with resp := .done } (89 + k.toNat) = domOn s (89 + k.toNat) := by
      rw [written, hx]; rfl
    have hdimm : ∀ j, dimmOf { written s cstPage 0x12C (rewritten s cstPage 0x12C 0xF k.toNat) with resp := .done } j = dimmOf s j := fun j => by
      rw [written, hx]; rfl
    refine ⟨fun hbusy => completes (hgo.trans ((readmitStart_eq hk).trans ?_)),
      fun hd hr hin => completes (hgo.trans ((readmitStart_eq hk).trans ?_)),
      fun hd hr hout hon => ⟨fun j hj hcap => completes (hgo.trans ((readmitStart_eq hk).trans ?_)),
        fun hcap => completes (hgo.trans ((readmitStart_eq hk).trans ?_))⟩⟩
    · exact if_pos (by simpa [hcust] using hbusy.imp hsome hsome)
    · refine (if_neg (by simp [hcust, hd, hr])).trans (if_pos ?_)
      rw [hchan, hdom]
      exact hin.imp id (fun h => by simp [h])
    · refine (if_neg (by simp [hcust, hd, hr])).trans ((if_neg (by rw [hchan, hdom, hout, hon]; simp)).trans (if_pos ?_))
      rw [hchan, filter_ne_of_not_mem hout, hj]
      simpa [hdimm] using hcap
    · refine (if_neg (by simp [hcust, hd, hr])).trans ((if_neg (by rw [hchan, hdom, hout, hon]; simp)).trans (if_neg ?_))
      rw [hchan, filter_ne_of_not_mem hout]
      cases hj : (channels s).head? with
      | none => simp
      | some j => simp [hdimm, hcap j hj]
  · unfold readmitOver
    simp only [hk]
    subst hv
    unfold readmitEnd
    simp only [hk]
  · unfold readmitOver
    simp only [hno]

end Sys2Proof
end

section
/-! PROOFS. Span links and sessions (R305 to R329). -/

namespace Sys2Proof.Machine

theorem spn_pair_row : regRow spnPairPage 0x100 = some { off := 0x100, rw := 0xFF07, reset := 0x1402 } ∧ isHigh spnPairPage 0x100 = false ∧
    (pageInfo spnPairPage).map (·.kind) = some .spnPair := by decide +kernel
theorem spn_link_rows : ∀ l < 8, regRow (spnLinkPage l) 0x100 = some { off := 0x100, rw := 0xFFFF01FF, reset := 0x04000100 } ∧
    isHigh (spnLinkPage l) 0x100 = false ∧ (pageInfo (spnLinkPage l)).any (fun i => i.kind == .spnLink && i.sub == l) = true := by decide +kernel

/-! ### Enable -/

section
variable {s : State} {r : Requester}

/-- The enable bit of the pair, where it changes. -/
theorem regUpdate_pairEnable {on : Bool} (h : opened s r spnPairPage 0x100 = true) (hold : bitAt s spnPairPage 0x100 0 = !on) :
    regUpdate s r spnPairPage 0x100 1 (b2n on) = { (if on then pairStart (written s spnPairPage 0x100 (rewritten s spnPairPage 0x100 1 (b2n on)))
      else pairStop (written s spnPairPage 0x100 (rewritten s spnPairPage 0x100 1 (b2n on)))) with resp := .done } := by
  obtain ⟨hrow, hhigh, hkind⟩ := spn_pair_row
  obtain ⟨i, hi⟩ := pageInfo_of_opened (by decide) h
  have hik : i.kind = .spnPair := by simpa [hi] using hkind
  have hv := rewritten_lt s spnPairPage 0x100 (mask := 1) (b2n on) (by decide)
  have hnew : bitOf (rd (written s spnPairPage 0x100 (rewritten s spnPairPage 0x100 1 (b2n on))) spnPairPage 0x100).toNat 0 = on := by
    rw [bitOf_written hrow _ (by decide) (by decide), testBit_rewritten hrow _ _ (by decide)]
    cases on <;> rfl
  have hwas : bitOf (rd s spnPairPage 0x100).toNat 0 = !on := hold
  rw [regUpdate, regWrite_block h hi hrow (by decide) (by decide) rfl hhigh hv]
  refine responds ?_ _
  simp only [blockEffect, hik]
  refine (if_neg (by decide)).trans ((if_neg (by decide)).trans ?_)
  rw [hnew, hwas]
  cases on <;> simp
/-- The enable bit of a link, where it changes. -/
theorem regWrite_linkEnable {l cfg : Nat} (hl : l < 8) (hcfg : cfg < 2 ^ 32) (h : opened s r (spnLinkPage l) 0x100 = true)
    (hold : bitAt s (spnLinkPage l) 0x100 0 = !bitOf cfg 0) : regWrite s r (spnLinkPage l) 0x100 cfg =
      { (if bitOf cfg 0 then linkOn (written s (spnLinkPage l) 0x100 cfg) l else linkOff (written s (spnLinkPage l) 0x100 cfg) l) with
        resp := .done } := by
  obtain ⟨hrow, hhigh, hkind⟩ := spn_link_rows l hl
  obtain ⟨i, hi⟩ := pageInfo_of_opened (by decide) h
  obtain ⟨hik, hsub⟩ : i.kind = .spnLink ∧ i.sub = l := by simpa [hi] using hkind
  have hnew : bitOf (rd (written s (spnLinkPage l) 0x100 cfg) (spnLinkPage l) 0x100).toNat 0 = bitOf cfg 0 :=
    bitOf_written hrow _ (by decide) (by decide)
  have hwas : bitOf (rd s (spnLinkPage l) 0x100).toNat 0 = !bitOf cfg 0 := hold
  rw [regWrite_block h hi hrow (by decide) (by decide) rfl hhigh hcfg]
  refine responds ?_ _
  simp only [blockEffect, hik, hsub]
  refine (if_neg (by decide)).trans ?_
  rw [hnew, hwas]
  cases bitOf cfg 0 <;> simp

end

/-! ### HELLO (R307, R310) -/

section
variable {s : State} {l serial mac sess : Nat}

@[simp] theorem pairNote_same (s : State) : pairNote (spanStat s) s = s := if_pos rfl
/-- A HELLO that finds no session of its own and no retry time running starts an exchange. -/
theorem helloIn_waiting (hst : spanLinkState s l = 1 ∨ spanLinkState s l = 4) : helloIn s l serial mac sess =
    if pairState s ≠ 0 ∧ partnerSerial s ≠ serial then countReason s (linkRegion l) 0xB8
    else if tb0Time s < (linkOf s l).retryAt then s
    else startAuth (if partnerRestarted s l sess then endSession s else s) l serial mac sess := by
  have h3 : spanLinkState s l ≠ 3 := by omega
  have h14 : ¬(spanLinkState s l ≠ 1 ∧ spanLinkState s l ≠ 4) := by omega
  exact (if_neg h3).trans (if_neg h14)
theorem helloIn_joined (hst : spanLinkState s l = 3) : helloIn s l serial mac sess =
    if mac ≠ rd64 s (spnLinkPage l) 0x118 % 2 ^ 48 ∨ serial ≠ (linkOf s l).peer then countReason s (linkRegion l) 0xB8
    else if partnerRestarted s l sess = true ∨ pairState s = 0 then startAuth (endSession (updateActive (setLinkState s l 1))) l serial mac sess
    else if session (setLink s l { linkOf s l with lastHello := tb0Time s, peerSession := sess }) = 0 ∧ sess ≠ 0 then
      wr (setLink s l { linkOf s l with lastHello := tb0Time s, peerSession := sess }) spnPairPage 0x140 (BitVec.ofNat 32 sess)
    else setLink s l { linkOf s l with lastHello := tb0Time s, peerSession := sess } :=
  if_pos hst
theorem helloIn_off (hst : spanLinkState s l = 0 ∨ spanLinkState s l = 2) : helloIn s l serial mac sess = s := by
  have h3 : spanLinkState s l ≠ 3 := by omega
  have h14 : spanLinkState s l ≠ 1 ∧ spanLinkState s l ≠ 4 := by omega
  exact (if_neg h3).trans (if_pos h14)
/-- A partner of the same session has not restarted. -/
theorem partnerRestarted_same (h : session s = sess) : partnerRestarted s l sess = false := by
  simp [partnerRestarted, h]

end

/-! ### The exchange (R308) -/

section
variable {s : State} {l : Nat}

@[simp] theorem linkOf_setLink_same (s : State) (l : Nat) (x : SpanLink) : linkOf (setLink s l x) l = x := mapGet_mapSet_same _ _ _ _

/-- What an offer is judged by. -/
theorem offerIn_exchange {serial : Nat} {chain own : Bool} (hst : spanLinkState s l = 2) : offerIn s l serial chain own =
    if (chain && (rd64 s spnPairPage 0x108 == 0 || rd64 s spnPairPage 0x108 == serial) && serial == (linkOf s l).peer &&
      (own || !bitAt s spnPairPage 0x100 2)) = true
    then emit (setLink s l { linkOf s l with offered := true }) (ctrlFrame s l "AUTH_PROOF" [mySerial]) else authFail s l :=
  if_neg (not_not_intro hst)
theorem proofIn_exchange {ok : Bool} (hst : spanLinkState s l = 2) :
    proofIn s l ok = if ok = true ∧ (linkOf s l).offered = true then joinLink s l else authFail s l :=
  if_neg (not_not_intro hst)
/-- A frame's header does not show what the link keeps of its partner beside the registers. -/
theorem ctrlFrame_setLink (x : SpanLink) (k : Nat) (kind : String) (fields : List Nat) :
    ctrlFrame (setLink s l x) k kind fields = ctrlFrame s k kind fields := rfl

theorem spnLinkPage_apart (hl : l < 8) : spnLinkPage l ≠ spnPairPage := by
  unfold spnLinkPage spnPairPage
  omega
/-- R308: a failed exchange leaves the link in HELLO. -/
theorem spanLinkState_authFail (hl : l < 8) : spanLinkState (authFail s l) l = 1 := by
  have hapart := spnLinkPage_apart hl
  have hrd : rd (authFail s l) (spnLinkPage l) 0x114 =
      rd (setFld (setLink s l { linkOf s l with offered := false, retryAt := tb0Time s + msTime 1000 }) (spnLinkPage l) 0x114 2 0 1)
        (spnLinkPage l) 0x114 := by
    unfold authFail
    rw [rd_raise _ _ _ _ _ _ _ _ (by omega), rd_congr (countReason_frame1 _ _ _).2.1, setLinkState, rd_setFld_key _ _ _ _ _ _ _ _ (by omega)]
  exact (fld_congr hrd 2 0).trans (fld_setFld_same _ _ _ _ _ _ (by decide) (by decide))
theorem retryAt_authFail : (linkOf (authFail s l) l).retryAt = tb0Time s + msTime 1000 := by
  have hspan : (authFail s l).span = (setLink s l { linkOf s l with offered := false, retryAt := tb0Time s + msTime 1000 }).span := by
    simp [authFail, setLinkState]
  rw [linkOf, hspan]
  exact congrArg SpanLink.retryAt (linkOf_setLink_same s l _)

end

/-! ### The end of a session (R329) -/

theorem endSession_ends {s : State} (h : session s ≠ 0 ∨ pairState s ≠ 0) : session (endSession s) = 0 ∧ pairState (endSession s) = 0 ∧
    partnerSerial (endSession s) = 0 ∧ (endSession s).span.handover = none := by
  unfold endSession
  rw [if_neg (by omega)]
  dsimp only
  generalize flushPartner _ = t
  have hkept : ∀ {u : State} {o : Nat}, 0x044 < o → o ≠ 0x130 →
      rd (setPairState (raise (setBit u spnPairPage 0x130 7 false) spnPairPage 3) 0) spnPairPage o = rd u spnPairPage o := fun {u o} ho h130 => by
    rw [setPairState, rd_setFld_key _ _ _ _ _ _ _ _ (by omega), rd_raise _ _ _ _ _ _ _ _ (by omega), rd_setBit_key _ _ _ _ _ _ _ (by omega)]
  have hserial : ∀ o, o = 0x138 ∨ o = 0x13C → rd (wr (wr64 { t with span := { t.span with learn := [], bulk := false, handover := none } }
      spnPairPage 0x138 0) spnPairPage 0x140 0) spnPairPage o = 0 := by
    rintro o (rfl | rfl)
    · rw [rd_wr_off _ _ _ _ _ (by decide), wr64, rd_wr_off _ _ _ _ _ (by decide), rd_wr_same]
      rfl
    · rw [rd_wr_off _ _ _ _ _ (by decide)]
      exact rd_wr_same ..
  refine ⟨?_, ?_, ?_, ?_⟩
  · rw [session, hkept (by decide) (by decide), rd_wr_same]
    rfl
  · exact fld_setFld_same _ _ _ _ _ _ (by decide) (by decide)
  · rw [partnerSerial, rd64, hkept (by decide) (by decide), hkept (by decide) (by decide), hserial _ (.inl rfl), hserial _ (.inr rfl)]
    rfl
  · simp [setPairState]

end Sys2Proof.Machine

namespace Sys2Proof
open Sys2Proof.Machine

/-- Settles O41: a link goes by its state, and a HELLO by what it names of the session. -/
theorem spanLinksAndSessions : Obligations.SpanLinksAndSessions := by
  unfold Obligations.SpanLinksAndSessions
  refine ⟨fun s u r on h hold hu => completes ?_, fun s u r l cfg h hold hu => completes ?_, fun s l => ⟨fun hst hup hon => completes (if_neg ?_),
      fun hno => completes (if_pos ?_)⟩,
    fun s u v w l n mac x hst hpair hu hv hw => ?_, fun s l n mac x hst => ?_, fun s l n mac x hst hpair hserial => completes ?_,
    fun s l n mac x hst => completes ?_, fun s u l n own hst hpeer hwant hown hu => completes ?_, fun s l n chain own hst hbad => completes ?_,
    fun s l ok hst => ⟨fun hok hoff => completes ?_, fun hno => completes ?_, fun hlate => completes (if_pos ⟨hst, hlate⟩),
      fun hsoon => completes (if_neg fun h => absurd h.2 (by omega))⟩,
    fun s l hl => ⟨spanLinkState_authFail hl, retryAt_authFail, ?_⟩, fun s l ms hms => ⟨fun hsoon => completes ?_, fun p hj hlate hp => completes ?_⟩,
    fun s hst hprim hbit hlate => completes ?_, fun s hst hlate => completes ?_, fun s hst => ⟨completes ?_, completes ?_⟩, fun s h => endSession_ends h⟩
  · rw [hu]
    exact regUpdate_pairEnable h hold
  · rw [hu]
    exact regWrite_linkEnable l.isLt cfg.isLt h hold
  · simp [hst, hup, hon]
  · rcases hno with h | h | h <;> simp [h]
  · have hgo := helloIn_waiting (serial := n.toNat) (mac := mac.toNat) (sess := x.toNat) hst
    rw [if_neg (by omega)] at hgo
    refine ⟨fun htime => completes (congrArg (pairNote (spanStat s)) ?_), fun htime => completes ?_⟩
    · rw [hgo, if_neg (by omega), hw, hv, hu]
      rfl
    · rw [hgo, if_pos htime]
      exact pairNote_same s
  · have hgo := helloIn_joined (serial := n.toNat) (mac := mac.toNat) (sess := x.toNat) hst
    refine ⟨fun hbad => completes (congrArg (pairNote (spanStat s)) (hgo.trans (if_pos hbad))), fun hmac hpeer => ?_⟩
    have hid : ¬(mac.toNat ≠ rd64 s (spnLinkPage l.toNat) 0x118 % 2 ^ 48 ∨ n.toNat ≠ (linkOf s l.toNat).peer) := by omega
    refine ⟨fun hsame hpair => completes (congrArg (pairNote (spanStat s)) (hgo.trans ((if_neg hid).trans ((if_neg ?_).trans (if_neg ?_))))),
      fun hnew => completes (congrArg (pairNote (spanStat s)) (hgo.trans ((if_neg hid).trans (if_pos hnew))))⟩
    · rw [partnerRestarted_same hsame]
      simp [hpair]
    · rintro ⟨h0, hx⟩
      exact hx (hsame.symm.trans h0)
  · refine congrArg (pairNote (spanStat s)) ((helloIn_waiting hst).trans (if_pos ⟨hpair, hserial⟩))
  · rw [helloIn_off hst]
    exact pairNote_same s
  · rw [hu]
    refine (offerIn_exchange hst).trans (if_pos ?_)
    rw [Bool.true_and, Bool.and_eq_true, Bool.and_eq_true]
    refine ⟨⟨?_, by simpa using hpeer⟩, ?_⟩
    · rcases hwant with h | h <;> simp [h]
    · rcases hown with h | h <;> simp [h]
  · refine (offerIn_exchange hst).trans (if_neg ?_)
    simp only [Bool.and_eq_true, Bool.or_eq_true, beq_iff_eq, Bool.not_eq_true']
    rintro ⟨⟨⟨hchain, hwant⟩, hpeer⟩, hown⟩
    rcases hbad with h | h | ⟨h0, h1⟩ | ⟨h0, h1⟩
    · rw [h] at hchain
      exact nomatch hchain
    · exact h hpeer
    · exact hwant.elim h0 h1
    · rw [h0, h1] at hown
      rcases hown with h | h <;> exact nomatch h
  · exact congrArg (pairNote (spanStat s)) ((proofIn_exchange hst).trans (if_pos ⟨hok, hoff⟩))
  · refine congrArg (pairNote (spanStat s)) ((proofIn_exchange hst).trans (if_neg ?_))
    rcases hno with h | h <;> simp [h]
  · rw [authFail, bitAt_raise_cause _ _ _ _ _ _ _ (by decide)]
    rfl
  · subst hms
    have hdead : helloDead s l.toNat = s := if_neg (by omega)
    rw [hdead]
    exact pairNote_same s
  · subst hms
    refine congrArg (pairNote (spanStat s)) ((if_pos hlate).trans ((if_neg (by simp [hj])).trans ?_))
    simp only [hp]
  · refine congrArg (pairNote (spanStat s)) (if_pos ⟨hst, hlate, ?_, ?_⟩)
    · rw [hprim]
      rfl
    · rw [hbit]
      rfl
  · exact congrArg (pairNote (spanStat s)) (if_pos ⟨hst, hlate⟩)
  · have hsplit : splitHold s = s := if_neg fun h => hst h.1
    rw [hsplit]
    exact pairNote_same s
  · have hgone : sessionGone s = s := if_neg fun h => hst h.1
    rw [hgone]
    exact pairNote_same s

end Sys2Proof
end

section
/-! PROOFS. The sequence spaces of a span link (R315 to R323). -/

namespace Sys2Proof.Machine

/-! ### A frame in sequence (R318) -/

section
variable {s : State} {l c gran : Nat} {n : Word} {hold take : State → Bool × State}

theorem sequenced_again (h : seqLt n (spaceOf s l c).rcvCum = true ∨ (spaceOf s l c).ooo.any (fun e => e.1 == n) = true) :
    sequenced s l c n gran hold take = sendAck (inc (countReason s (linkRegion l) 0xB2) (spnLinkPage l) 0x128) l c :=
  if_pos (h.imp id fun h => by simp only [h, Bool.true_or])

variable (hnew : seqLt n (spaceOf s l c).rcvCum = false) (hooo : (spaceOf s l c).ooo.any (fun e => e.1 == n) = false)
  (hlearn : (spaceOf s l c).oooLearn = [])
include hnew hooo hlearn

/-- A number that is new goes by its distance from the one expected. -/
theorem sequenced_new : sequenced s l c n gran hold take =
    if 65536 ≤ (n - (spaceOf s l c).rcvCum).toNat then inc (countReason s (linkRegion l) 0xB4) (spnLinkPage l) 0x12C
    else if 0 < (n - (spaceOf s l c).rcvCum).toNat then
      if fld s (spnLinkPage l) 0x100 31 16 * 16 < oooGranules s l + gran then
        raise (inc (countReason s (linkRegion l) 0xB3) (spnLinkPage l) 0x12C) (spnLinkPage l) 3 0xB3
      else if (hold s).1 = true then
        if (spaceOf s l c).ooo.any (fun e => e.1 == n - 1) = true ∨ (spaceOf s l c).ooo.any (fun e => e.1 == n + 1) = true
        then noteArrival (hold s).2 l c else sendAck (hold s).2 l c
      else (hold s).2
    else if (take s).1 = true then
      let u := setSpace (take s).2 l c { spaceOf (take s).2 l c with rcvCum := (spaceOf s l c).rcvCum + 1 }
      if (releaseHeld l c 65536 u).1 = true then sendAck (releaseHeld l c 65536 u).2 l c else noteArrival (releaseHeld l c 65536 u).2 l c
    else (take s).2 := by
  unfold sequenced
  simp only [hnew, hooo, hlearn, List.any_nil, Bool.or_false, Bool.false_eq_true, or_self, if_false]
  rcases hold s with ⟨_ | _, t⟩ <;> rcases take s with ⟨_ | _, u⟩ <;> rfl

end

/-! ### A DATA frame (R306, R318) -/

/-- A buffer for the frame, and what is done with it. -/
def withBuffer (f : Frame) (k : State → Nat → State) (s : State) : Bool × State :=
  match spanGrant s f with
  | (none, s) => (false, s)
  | (some b, s) => (true, k s b)

theorem withBuffer_granted {s t : State} {f : Frame} {k : State → Nat → State} {b : Nat} (h : spanGrant s f = (some b, t)) :
    withBuffer f k s = (true, k t b) := by
  unfold withBuffer
  rw [h]

section
variable {s v : State} {l at' p : Nat} {h : SpanHeader} {bs : List Byte} {f : Frame} (hport : (linkOf s l).port = some p)
  (hf : f = carried s p at' h bs) (hv : v = { s with nextId := s.nextId + 1 })
include hport

theorem dataIn_port : dataIn s l at' h bs =
    if (!joined s l) = true then countReason s (linkRegion l) 0xB0
    else if h.srcMac.toNat ≠ rd64 s (spnLinkPage l) 0x118 % 2 ^ 48 then countReason s (linkRegion l) 0xB8
    else if h.version ≠ 1 ∨ h.ftype ≠ 0 ∨ h.destKind = 3 then countReason s (linkRegion l) 0xB1
    else dataIn s l at' h bs := by
  unfold dataIn
  simp only [hport]
  split
  · rfl
  · split
    · rfl
    · split <;> rfl

variable (hj : joined s l = true) (hmac : h.srcMac.toNat = rd64 s (spnLinkPage l) 0x118 % 2 ^ 48) (hver : h.version = 1) (hft : h.ftype = 0)
  (hdk : h.destKind ≠ 3)
include hj hmac hver hft hdk

theorem dataIn_closed (hcl : (linkOf s l).closed = true) :
    dataIn s l at' h bs = inc (countReason s (linkRegion l) 0xB2) (spnLinkPage l) 0x128 := by
  unfold dataIn
  simp only [hport, hj, ← hmac, hver, hft, hdk, hcl, Bool.not_true, Bool.false_eq_true, ne_eq, not_true_eq_false, or_self, if_false, if_true]

variable (hcl : (linkOf s l).closed = false)
include hf hv hcl

theorem dataIn_unsequenced (hrel : h.rel = false) : dataIn s l at' h bs = (withBuffer f (fun t b => releaseIn t l 9 f b) v).2 := by
  subst hf hv
  unfold dataIn withBuffer
  simp only [hport, hj, ← hmac, hver, hft, hdk, hcl, hrel, Bool.not_true, Bool.not_false, Bool.false_eq_true, ne_eq, not_true_eq_false, or_self,
    if_false, if_true]
  rcases spanGrant { s with nextId := s.nextId + 1 } (carried s p at' h bs) with ⟨_ | b, t⟩ <;> rfl
theorem dataIn_sequenced (hrel : h.rel = true) : dataIn s l at' h bs = sequenced v l h.tc.toNat h.seq (granulesOf f)
    (withBuffer f (fun t b => setSpace t l h.tc.toNat { spaceOf t l h.tc.toNat with ooo := (spaceOf t l h.tc.toNat).ooo ++ [(h.seq, f, some b)] }))
    (withBuffer f (fun t b => releaseIn t l h.tc.toNat f b)) := by
  subst hf hv
  unfold dataIn
  simp only [hport, hj, ← hmac, hver, hft, hdk, hcl, hrel, Bool.not_true, Bool.false_eq_true, ne_eq, not_true_eq_false, or_self, if_false]
  rfl

end

/-! ### Acknowledgement (R319, R320) -/

section
variable {s : State} {l c : Nat}

@[simp] theorem spaceOf_setSpace_same (s : State) (l c : Nat) (x : SpanSpace) : spaceOf (setSpace s l c x) l c = x := by
  simp [spaceOf, setSpace]
theorem spaceOf_congr {s t : State} (h : t.span = s.span) (l c : Nat) : spaceOf t l c = spaceOf s l c := by rw [spaceOf, linkOf, h]; rfl

/-- R317: a sample of the round trip changes the space's estimate alone. -/
theorem spaceOf_addSample (s : State) (l c r : Nat) : spaceOf (addSample s l c r) l c = (if (spaceOf s l c).sampled then
    { spaceOf s l c with rttvar := (3 * (spaceOf s l c).rttvar + (max (spaceOf s l c).srtt r - min (spaceOf s l c).srtt r)) / 4, srtt := (7 * (spaceOf s l c).srtt + r) / 8 }
    else { spaceOf s l c with sampled := true, srtt := r, rttvar := r / 2 }) := by
  unfold addSample
  exact (spaceOf_congr ((SameTraffic.here _).wr ..).span l c).trans (spaceOf_setSpace_same ..)

/-- What an acknowledgement settles of a space: the oldest number, the frames out, and the timer's state. -/
def settled (x : SpanSpace) : Word × List SpanSent × Nat × Nat := (x.una, x.sent, x.backoff, x.expiries)

theorem settled_addSample (s : State) (l c r : Nat) : settled (spaceOf (addSample s l c r) l c) = settled (spaceOf s l c) := by
  rw [spaceOf_addSample]
  split <;> rfl
theorem SameTraffic.releaseSent {r s : State} (h : SameTraffic r s) (l : Nat) (x : SpanSent) : SameTraffic r (releaseSent s l x) := by
  unfold Machine.releaseSent
  have hbuf : SameTraffic r (match x.buf with | none => s | some b => Machine.opDrop s .granules b (8 + linkRegion l)) := by
    split
    · exact h
    · exact h.opDrop ..
  exact ite hbuf (hbuf.forEach (fun u p => (here u).opDrop ..) _)
theorem settled_freeOwn (s : State) (l c : Nat) (gone : List SpanSent) : settled (spaceOf (freeOwn s l gone) l c) = settled (spaceOf s l c) := by
  unfold freeOwn
  dsimp only
  rw [spaceOf_congr ((SameTraffic.here _).forEach (fun u p => (SameTraffic.here u).opRelease ..) _).span]
  split
  · rw [spaceOf, linkOf_setLink_same]
    rfl
  · rfl
/-- R320: what a cumulative number that is ahead leaves of the space. -/
theorem settled_ackTo {cum : Word} (hahead : seqLt (spaceOf s l c).una cum = true) (hsent : seqLt (spaceOf s l c).nxt cum = false) :
    settled (spaceOf (ackTo s l c cum) l c) = (cum, (spaceOf s l c).sent.filter (fun e => !seqLt e.seq cum), 0, 0) := by
  unfold ackTo
  rw [if_neg (by simp [hahead, hsent])]
  dsimp only
  rw [forEach_keeps (fun s => settled (spaceOf s l c)) (fun s e => settled_addSample s l c _), settled_freeOwn,
    spaceOf_congr ((SameTraffic.here _).forEach (fun u e => (SameTraffic.here u).releaseSent ..) _).span, spaceOf_setSpace_same]
  rfl

end

end Sys2Proof.Machine

namespace Sys2Proof
open Sys2Proof.Machine

/-- Settles O42: a frame goes by its link, its number's distance and the room for it; an acknowledgement by what it leaves out. -/
theorem spanSequenceSpaces : Obligations.SpanSequenceSpaces := by
  unfold Obligations.SpanSequenceSpaces
  refine ⟨fun s l h bs p hport => ⟨fun hj => completes ((dataIn_port hport).trans (if_pos ?_)), fun hj hmac => completes ((dataIn_port hport).trans
      ((if_neg ?_).trans (if_pos hmac))), fun hj hmac hbad => completes ((dataIn_port hport).trans
      ((if_neg ?_).trans ((if_neg (not_not_intro hmac)).trans (if_pos hbad))))⟩,
    ?_, fun s l c hc hj => ⟨fun hack => completes ((if_pos (by simpa [spaceNo] using hc)).trans (if_pos ⟨hj, hack⟩)),
      fun hack => completes ((if_pos (by simpa [spaceNo] using hc)).trans (if_neg (by omega)))⟩,
    fun s u l c cum sacks hc hj hu => completes ((if_pos (by simpa [spaceNo] using hc)).trans ?_), fun s l c cum hahead hsent => ?_, spaceOf_addSample,
    fun s u l c x hc hj hx hne => ⟨fun hno => completes ((if_pos (by simpa [spaceNo] using hc)).trans ?_),
      fun hover hu => completes ((if_pos (by simpa [spaceNo] using hc)).trans ?_)⟩⟩
  · rw [hj]
    rfl
  · rw [hj]
    decide
  · rw [hj]
    decide
  · rintro s v l h bs p x f hport hj hmac hver hft hdk hx hf hv
    refine ⟨fun hcl => completes (dataIn_closed hport hj hmac hver hft hdk hcl), fun hcl hrel b t hg => completes ?_, fun hcl hrel => ?_⟩
    · rw [dataIn_unsequenced hport hf hv hj hmac hver hft hdk hcl hrel, withBuffer_granted hg]
    · have hseq := dataIn_sequenced hport hf hv hj hmac hver hft hdk hcl hrel
      have hxv : x = spaceOf v l.toNat h.tc.toNat := by rw [hx, hv]; rfl
      have hroom : fld v (spnLinkPage l.toNat) 0x100 31 16 = fld s (spnLinkPage l.toNat) 0x100 31 16 ∧ oooGranules v l.toNat = oooGranules s l.toNat := by
        rw [hv]; exact ⟨rfl, rfl⟩
      obtain ⟨hmax, hheld⟩ := hroom
      subst hxv
      refine ⟨fun hold => completes (hseq.trans (sequenced_again hold)), fun hnew hooo hlearn => ?_⟩
      rw [sequenced_new hnew hooo hlearn, hmax, hheld] at hseq
      refine ⟨fun hfar => completes (hseq.trans (if_pos hfar)),
        fun hlo hhi => ⟨fun hfull => completes (hseq.trans ?_), fun hroom b t u hg hu => completes (hseq.trans ?_)⟩,
        fun heq b t u hg hu => completes (hseq.trans ?_)⟩
      · exact (if_neg (by omega)).trans ((if_pos hlo).trans (if_pos hfull))
      · refine (if_neg (by omega)).trans ((if_pos hlo).trans ((if_neg (Nat.not_lt.mpr hroom)).trans ?_))
        rw [withBuffer_granted hg, if_pos rfl, hu]
      · have h0 : (h.seq - (spaceOf v l.toNat h.tc.toNat).rcvCum).toNat = 0 := by rw [heq, BitVec.sub_self]; rfl
        refine (if_neg (by omega)).trans ((if_neg (by omega)).trans ?_)
        rw [withBuffer_granted hg, if_pos rfl, hu]
  · subst hu
    unfold ackIn
    rw [if_neg (by rw [hj]; decide)]
    simp only [List.map_map, List.any_map, Function.comp_def]
  · have h := settled_ackTo hahead hsent
    simp only [settled, Prod.mk.injEq] at h
    exact h
  · exact if_pos (.inr (.inr (by rw [hno]; rfl)))
  · subst hx hu
    exact if_neg (by rw [hj, hover]; simp [hne])

end Sys2Proof
end

section
/-! PROOFS. Handover, learning and time between the partners of a span (R324 to R335). -/

namespace Sys2Proof.Machine

/-! ### CTRL frames (R315) -/

section
variable {s t : State} {l : Nat} {k : String} {fs : List Nat}

theorem sendCtrl_refused (h : joined s l = false ∨ spanRoom s l 8 = false) : sendCtrl s l k fs = (false, s) :=
  if_pos (by rcases h with h | h <;> simp [h])
theorem sendCtrl_sent (hj : joined s l = true) (hroom : spanRoom s l 8 = true)
    (ht : t = addCounter (addCounter (setSpace s l 8 { spaceOf s l 8 with
      nxt := (spaceOf s l 8).nxt + 1, sent := (spaceOf s l 8).sent ++ [{ seq := (spaceOf s l 8).nxt, ctrl := some (k, fs), sentBc := tb0Time s }] })
      (spnLinkPage l) 1 8 0 1) (spnLinkPage l) 1 8 1 (ctrlLen k fs)) :
    sendCtrl s l k fs = (true, emit t (ctrlFrame t l k fs (spaceOf s l 8).nxt)) := by
  subst ht
  exact if_neg (by simp [hj, hroom])
theorem linkOf_setLink_other (s : State) {l j : Nat} (x : SpanLink) (h : j ≠ l) : linkOf (setLink s l x) j = linkOf s j :=
  mapGet_mapSet_other _ _ _ h
theorem linkOf_setSpace_other (s : State) {l j : Nat} (c : Nat) (x : SpanSpace) (h : j ≠ l) : linkOf (setSpace s l c x) j = linkOf s j :=
  linkOf_setLink_other s _ h
theorem linkOf_congr {s t : State} (h : t.span = s.span) (l : Nat) : linkOf t l = linkOf s l := by rw [linkOf, h]; rfl
/-- A CTRL frame joins the space of its own link. -/
theorem linkOf_sendCtrl_other {j : Nat} (h : j ≠ l) : linkOf (sendCtrl s l k fs).2 j = linkOf s j := by
  cases hgo : joined s l && spanRoom s l 8 with
  | false =>
    rw [sendCtrl_refused (Bool.and_eq_false_iff.mp hgo)]
  | true =>
    obtain ⟨hj, hroom⟩ := Bool.and_eq_true_iff.mp hgo
    rw [sendCtrl_sent hj hroom rfl]
    exact (linkOf_congr ((((SameTraffic.here _).addCounter ..).addCounter ..).emit _).span j).trans (linkOf_setSpace_other s 8 _ h)
/-- R325: the old link is closed. -/
theorem handoverIn_closes {o n : Nat} (h : o ≠ n) : (linkOf (handoverIn s o n) o).closed = true := by
  unfold handoverIn
  dsimp only
  rw [linkOf_congr ((SameTraffic.here _).raise ..).span, linkOf_sendCtrl_other h, linkOf_setLink_other _ _ h, linkOf_setLink_same]

end

/-! ### LEARN frames (R330, R332) -/

section
variable {s : State} {l : Nat}

/-- The frame expected is taken at once. -/
theorem sequenced_next {c gran : Nat} {n : Word} {hold take : State → Bool × State} (hn : (spaceOf s l c).rcvCum = n)
    (hooo : (spaceOf s l c).ooo.any (fun e => e.1 == n) = false) (hlearn : (spaceOf s l c).oooLearn.any (fun e => e.1 == n) = false)
    (htake : (take s).1 = true) : sequenced s l c n gran hold take =
      let u := setSpace (take s).2 l c { spaceOf (take s).2 l c with rcvCum := n + 1 }
      if (releaseHeld l c 65536 u).1 = true then sendAck (releaseHeld l c 65536 u).2 l c else noteArrival (releaseHeld l c 65536 u).2 l c := by
  have hlt : seqLt n n = false := by simp [seqLt]
  have h0 : (n - n).toNat = 0 := by rw [BitVec.sub_self]; rfl
  have ht : take s = (true, (take s).2) := by rw [← htake]
  unfold sequenced
  simp only [hn, hooo, hlearn, hlt, h0, Bool.or_self, Bool.false_eq_true, or_self, if_false, Nat.lt_irrefl, (by decide : ¬65536 ≤ 0)]
  rw [ht]
theorem learnIn_joined (hj : joined s l = true) (n : Word) (evs : List LearnEvent) : learnIn s l n evs = sequenced s l 8 n 0
    (fun s => (true, setSpace s l 8 { spaceOf s l 8 with oooLearn := (spaceOf s l 8).oooLearn ++ [(n, evs)] }))
    (fun s => (true, releaseLearn s l evs)) :=
  if_neg (by simp [hj])
/-- The frame that is filling goes out on the active link. -/
theorem learnFlush_active (hlearn : s.span.learn ≠ []) (hact : activeLink s = some l) : learnFlush s =
    let r := sendCtrl { s with span := { s.span with learn := [] } } l "LEARN" (s.span.learn.map eventWord)
    if r.1 = true then r.2
    else raise { countReason r.2 0 0xBB with span := { (countReason r.2 0 0xBB).span with bulk := true } } spnPairPage 5 0xBB := by
  have hact' : activeLink { s with span := { s.span with learn := [] } } = some l := hact
  unfold learnFlush
  rw [if_neg (by simp [hlearn])]
  simp only [hact']

end

/-! ### TIME frames (R333) -/

/-- What the offset comes to on the secondary. -/
theorem timeIn_offset {s : State} {l t1 t2 t3 t4 : Nat} {off : Int} {v : State} (hj : joined s l = true) (hprim : isPrimary s = false)
    (hact : activeLink s = some l)
    (hoff : off = (((t2 : Int) - t1) + ((t3 : Int) - t4)) / 2 - signedOf 32 (rd s (spnLinkPage l) 0x110).toNat * 2 ^ 32 / 10)
    (hv : v = wr s spnPairPage 0x12C (BitVec.ofNat 32 (unsignedOf 32 (clampI (off / 2 ^ 32) (-(2 ^ 31)) (2 ^ 31 - 1))))) :
    timeIn s l t1 t2 t3 t4 = if (!bitAt v spnPairPage 0x100 1) = true then v else forEach v (onesOf 16 (fld v spnPairPage 0x128 15 0))
      (fun s k => if fld s (tbPage k) 0x100 7 5 = 0 then servoTake s k (-off / 2 ^ 16) else s) := by
  subst hv hoff
  unfold timeIn
  rw [if_neg (by simp [hj]), if_neg (by simp [hprim])]
  exact if_neg (not_not_intro hact)

end Sys2Proof.Machine

namespace Sys2Proof
open Sys2Proof.Machine

/-- Settles O43: CTRL frames cross in space 8, and what they carry is applied as it is released. -/
theorem spanHandoverLearningAndTime : Obligations.SpanHandoverLearningAndTime := by
  unfold Obligations.SpanHandoverLearningAndTime
  refine ⟨fun s o n cums hj => ?_, fun s o n cums => ?_, fun s o n h => handoverIn_closes h, fun s v l cums o hj hv hh hact hne => completes ?_,
    fun s u v l cums hj hv hh hu => completes ?_, fun s u v l n evs x hj hx hn hooo hlearn hv hu => completes ?_,
    fun s l n evs hj => completes (if_pos (by simp [hj])), fun s l hlearn hact hj => ⟨fun hroom => completes ?_, fun hroom => completes ?_⟩,
    fun s hlearn => completes (if_pos (by simp [hlearn])), fun s l => ⟨fun hj hprim => completes (if_pos ⟨hj, by simp [hprim]⟩),
      fun hno => completes (if_neg ?_)⟩,
    fun s l a b c d hj hprim => completes ((if_neg (by simp [hj])).trans (if_pos hprim)),
    fun s v l a b c d off hj hprim hact hoff hv => ?_, fun s p body l hact => ?_,
    fun s t l k fs => ⟨sendCtrl_refused, sendCtrl_sent⟩⟩
  · have hgo : ¬(!joined s n.toNat) = true := by simp [hj]
    exact ⟨completes ((if_neg hgo).trans (if_pos rfl)), fun hh => completes ((if_neg hgo).trans ((if_neg (by decide)).trans (if_pos hh))),
      fun hh => completes ((if_neg hgo).trans ((if_neg (by decide)).trans (if_neg hh)))⟩
  · unfold handoverDone
    dsimp only
    rw [((SameTraffic.here _).raise ..).span]
  · unfold cumsIn
    rw [if_neg (by simp [hj])]
    dsimp only
    rw [← hv, hh]
    exact if_pos ⟨hact, hne⟩
  · unfold cumsIn
    rw [if_neg (by simp [hj])]
    dsimp only
    rw [← hv, hh, hu]
  · subst hx
    have hooo' : (spaceOf s l.toNat 8).ooo.any (fun e => e.1 == n) = false := by rw [hooo]; rfl
    rw [learnIn_joined hj, sequenced_next hn hooo' hlearn rfl, hu, hv]
    rfl
  · have hsent : (sendCtrl { s with span := { s.span with learn := [] } } l "LEARN" (s.span.learn.map eventWord)).1 = true :=
      congrArg Prod.fst (sendCtrl_sent (s := { s with span := { s.span with learn := [] } }) hj hroom rfl)
    rw [learnFlush_active hlearn hact]
    exact if_pos hsent
  · have hlost : sendCtrl { s with span := { s.span with learn := [] } } l "LEARN" (s.span.learn.map eventWord) =
        (false, { s with span := { s.span with learn := [] } }) := sendCtrl_refused (.inr hroom)
    rw [learnFlush_active hlearn hact, hlost]
    rfl
  · rcases hno with h | h <;> simp [h]
  · have hgo := timeIn_offset hj hprim hact hoff hv
    have hbit : bitAt v spnPairPage 0x100 1 = bitAt s spnPairPage 0x100 1 := by
      rw [hv]
      exact bitAt_congr (rd_wr_off _ _ _ _ _ (by decide)) 1
    rw [hbit] at hgo
    exact ⟨fun hoff => completes (hgo.trans (if_pos (by simp [hoff]))), fun hon => completes (hgo.trans (if_neg (by simp [hon])))⟩
  · have hout : bpdu s true p.toNat body = (sendCtrl s l "BPDU" (p.toNat :: body.map BitVec.toNat)).2 := by
      refine (if_pos rfl).trans ?_
      unfold tellPartner
      rw [hact]
    have hin : bpdu s false p.toNat body = ctrlIn s l (ctrlLen "BPDU" (p.toNat :: body.map BitVec.toNat)) := by
      unfold bpdu
      rw [if_neg (by decide), hact]
    have hgo : ∀ out, bpduRelayed s out p.toNat body = if (body.getD 3 0 == 0x80 || (body.getD 4 0).toNat % 2 == 1) = true
        then tell (bpdu s out p.toNat body) 8 0x80 [p.toNat] else bpdu s out p.toNat body := fun out => rfl
    refine ⟨fun h3 h4 => ?_, fun htc => ?_⟩
    · have hno : ¬(body.getD 3 0 == 0x80 || (body.getD 4 0).toNat % 2 == 1) = true := by
        rw [Bool.or_eq_true, beq_iff_eq, beq_iff_eq]
        exact not_or.mpr ⟨h3, by omega⟩
      exact ⟨completes ((hgo true).trans ((if_neg hno).trans hout)), completes ((hgo false).trans ((if_neg hno).trans hin))⟩
    · have hyes : (body.getD 3 0 == 0x80 || (body.getD 4 0).toNat % 2 == 1) = true := by
        rw [Bool.or_eq_true, beq_iff_eq, beq_iff_eq]
        exact htc
      exact ⟨completes ((hgo true).trans ((if_pos hyes).trans (by rw [hout]))), completes ((hgo false).trans ((if_pos hyes).trans (by rw [hin])))⟩

end Sys2Proof
end

section
/-! PROOFS. Changes of a time base and their spacing (R341 to R349). -/

namespace Sys2Proof.Machine

theorem tb_rows : ∀ k < 16, regRow (tbPage k) 0x128 = some { off := 0x128, w1s := 0x1F } ∧ isHigh (tbPage k) 0x128 = false ∧
    regRow (tbPage k) 0x138 = some { off := 0x138, rw := all32 } ∧ isHigh (tbPage k) 0x138 = false ∧
    (pageInfo (tbPage k)).any (fun i => i.kind == .tb && i.sub == k) = true := by decide +kernel

/-! ### The registers that ask for changes (R345) -/

section
variable {s : State} {r : Requester} {k v : Nat} (hk : k < 16)
include hk

theorem regWrite_tbCmd (h : opened s r (tbPage k) 0x128 = true) (hv : v < 32) : regWrite s r (tbPage k) 0x128 v =
    { (let s := written s (tbPage k) 0x128 v
      let s := if bitOf v 0 then reqSet s k else s
      let s := if bitOf v 1 then reqSetNow s k else s
      let s := if bitOf v 2 then reqStep s k (signedOf 64 (rd64 s (tbPage k) 0x130)) else s
      let s := if bitOf v 3 then reqSlew s k else s
      if bitOf v 4 then abortSlew s k else s) with resp := .done } := by
  obtain ⟨hrow, hhigh, -, -, hkind⟩ := tb_rows k hk
  obtain ⟨i, hi⟩ := pageInfo_of_opened (by decide) h
  obtain ⟨hik, hsub⟩ : i.kind = .tb ∧ i.sub = k := by simpa [hi] using hkind
  have hw : reached { off := 0x128, w1s := 0x1F } v = v := by revert v; decide
  rw [regWrite_block h hi hrow (by decide) (by decide) rfl hhigh (by omega), hw]
  refine responds ?_ _
  simp only [blockEffect, hik, hsub]
  exact (if_neg (by decide)).trans ((if_neg (by decide)).trans (if_pos rfl))
theorem regWrite_tbFreq (h : opened s r (tbPage k) 0x138 = true) (hv : v < 2 ^ 32) : regWrite s r (tbPage k) 0x138 v =
    { reqRate (if servoMode (written s (tbPage k) 0x138 v) k then wr (written s (tbPage k) 0x138 v) (tbPage k) 0x138 (rd s (tbPage k) 0x138)
      else written s (tbPage k) 0x138 v) k with resp := .done } := by
  obtain ⟨-, -, hrow, hhigh, hkind⟩ := tb_rows k hk
  obtain ⟨i, hi⟩ := pageInfo_of_opened (by decide) h
  obtain ⟨hik, hsub⟩ : i.kind = .tb ∧ i.sub = k := by simpa [hi] using hkind
  rw [regWrite_block h hi hrow (by decide) (by decide) rfl hhigh hv]
  refine responds ?_ _
  simp only [blockEffect, hik, hsub]
  refine (if_neg (by decide)).trans ((if_pos rfl).trans ?_)
  rw [BitVec.ofNat_toNat, BitVec.setWidth_eq]

end

theorem rd_written_off {s : State} (p o v : Nat) {w : Nat} (h : w ≠ o) : rd (written s p o v) p w = rd s p w :=
  rd_storeWord_other _ _ _ _ _ _ _ (by omega)
theorem servoMode_congr {s t : State} {k : Nat} (h : rd t (tbPage k) 0x100 = rd s (tbPage k) 0x100) : servoMode t k = servoMode s k := by
  rw [servoMode, fld_congr h]
  rfl

/-! ### What a change notes (R343, R371) -/

section
variable (s : State) (k : Nat) (f : Int) (on : Bool)

theorem noteF_beside : (noteF s k f on).tbs = s.tbs ∧ (noteF s k f on).baseCount = s.baseCount := by
  unfold noteF
  dsimp only
  split <;> simp
theorem slewing_noteF : bitAt (noteF s k f on) (tbPage k) 0x104 7 = on := by
  unfold noteF
  dsimp only
  rw [bitAt_congr (rd_wr_off _ _ _ _ _ (by decide)), bitAt_setBit_same _ _ _ _ (by decide)]
theorem rd_noteF {o : Nat} (ho : o = 0x100 ∨ o = 0x120) : rd (noteF s k f on) (tbPage k) o = rd s (tbPage k) o := by
  unfold noteF
  dsimp only
  rw [rd_wr_off _ _ _ _ _ (by omega), rd_setBit_key _ _ _ _ _ _ _ (by omega)]
  split
  · rw [rd_raise _ _ _ _ _ _ _ _ (by omega), rd_setBit_key _ _ _ _ _ _ _ (by omega)]
  · rw [rd_setBit_key _ _ _ _ _ _ _ (by omega)]

end

/-! ### A change that applies (R345 to R347) -/

section
variable (s : State) (k : Nat)

@[simp] theorem tbOf_setTb_same (t : TimeBase) : tbOf (setTb s k t) k = t := mapGet_mapSet_same _ _ _ _
theorem tbOf_congr {s t : State} (h : t.tbs = s.tbs) (k : Nat) : tbOf t k = tbOf s k := by rw [tbOf, h]; rfl

/-- The parameters that a change leaves. -/
theorem tbOf_applyChange (g : TimeBase → TimeBase) : tbOf (applyChange s k g) k =
    { refix (g (reanchor (tbOf s k) (now s))) with
      lastChange := some (now s)
      gens := (((tbOf s k).lastChange.getD 0, (tbOf s k).ta, (tbOf s k).ba, (tbOf s k).rate, rateWord (tbOf s k).f,
        if (tbOf s k).slew = 0 then 0 else (tbOf s k).slewEnd) :: (tbOf s k).gens).take 7 } := by
  unfold applyChange
  dsimp only
  rw [tbOf_congr (setFld_frame5 ..).2.2.1, tbOf_congr (noteF_beside ..).1, tbOf_setTb_same]

/-- The rate follows the sum of R343; the anchor and the rates themselves stay. -/
theorem refix_parts (t : TimeBase) : (refix t).f = t.f ∧ (refix t).ta = t.ta ∧ (refix t).ba = t.ba ∧ (refix t).rate = rateWord (fSum t) := by
  unfold refix
  dsimp only
  split <;> exact ⟨rfl, rfl, rfl, rfl⟩
/-- A slew that has not ended by `b` goes on. -/
theorem reanchor_slew {t : TimeBase} {b : Nat} (h : t.slew = 0 ∨ b < t.slewEnd) : (reanchor t b).slew = t.slew := by
  by_cases hpast : t.slewEnd ≤ b
  · have h0 : t.slew = 0 := by omega
    simp [reanchor, h0]
  · simp [reanchor, hpast]

end

/-! ### A set that is accepted (R346) -/

section
variable {s : State} {k : Nat}

theorem markStepped_beside : (markStepped s k).tbs = s.tbs := by
  unfold markStepped
  dsimp only
  split <;> simp
theorem markStepped_bits : bitAt (markStepped s k) (tbPage k) 0x104 0 = true ∧ bitAt (markStepped s k) (tbPage k) 0x104 1 = true := by
  unfold markStepped
  dsimp only
  rw [bitAt_raise_off _ _ _ _ _ _ (by omega), bitAt_raise_off _ _ _ _ _ _ (by omega), bitAt_setBit_same _ _ _ _ (by decide),
    bitAt_setBit _ _ _ _ _ _ _ _ (by decide), if_neg (by omega), bitAt_setBit_same _ _ _ _ (by decide)]
  exact ⟨rfl, rfl⟩
theorem rd_markStepped : rd (markStepped s k) (tbPage k) 0x100 = rd s (tbPage k) 0x100 := by
  unfold markStepped
  dsimp only
  rw [rd_raise _ _ _ _ _ _ _ _ (by omega), rd_setBit_key _ _ _ _ _ _ _ (by omega), rd_setBit_key _ _ _ _ _ _ _ (by omega)]
  split <;> rfl
theorem rd_applyChange (g : TimeBase → TimeBase) : rd (applyChange s k g) (tbPage k) 0x100 = rd s (tbPage k) 0x100 := by
  unfold applyChange
  dsimp only
  rw [rd_setFld_key _ _ _ _ _ _ _ _ (by omega), rd_noteF _ _ _ _ (.inl rfl)]
  rfl
/-- Outside SERVO mode an accepted set is the change and its marks. -/
theorem applySet_accepted (hlock : stepLocked s k = false) (hmode : servoMode s k = false) (g : TimeBase → TimeBase) :
    applySet s k g = (true, markStepped (applyChange s k g) k) := by
  have hm : servoMode (markStepped (applyChange s k g) k) k = false :=
    (servoMode_congr (rd_markStepped.trans (rd_applyChange g))).trans hmode
  have hagain : servoAgain (markStepped (applyChange s k g) k) k = markStepped (applyChange s k g) k := if_neg (by simp [hm])
  unfold applySet
  rw [if_neg (by simp [hlock]), hagain]

/-! ### Slews (R347) -/

theorem endSlew_beside : (endSlew s k).tbs = s.tbs ∧ (endSlew s k).baseCount = s.baseCount := by
  unfold endSlew
  split
  · exact noteF_beside ..
  · exact ⟨rfl, rfl⟩
/-- An abort ends the slew now. -/
theorem tbOf_abortSlew (hslew : (tbOf s k).slew ≠ 0) (hnow : 0 < now s) (hend : now s < (tbOf s k).slewEnd) :
    tbOf (abortSlew s k) k = { tbOf s k with heldSlew := none, slewEnd := now s } := by
  have hmin : min (tbOf s k).slewEnd (max 1 (now s)) = now s := by omega
  unfold abortSlew
  rw [tbOf_congr endSlew_beside.1, tbOf_setTb_same, if_neg hslew, hmin]
theorem now_abortSlew : now (abortSlew s k) = now s := congrArg BitVec.toNat endSlew_beside.2
/-- A slew that ends at or after `b` reads the same at `b` wherever its end is. -/
theorem setAt_before {ta ba rate rate0 e b : Nat} (h : b ≤ e) (hb : 0 < b) : setAt ta ba rate rate0 e b = lineAt ta ba rate b := by
  unfold setAt
  rcases Nat.lt_or_eq_of_le h with hlt | rfl
  · exact if_neg (by omega)
  · rw [if_pos ⟨by omega, Nat.le_refl _⟩]
    simp

end

/-! ### Changes asked for -/

section
variable {s : State} {k : Nat}

theorem requestChange_held {hold : TimeBase → TimeBase} (h : mayChange s k = false) (hlast : (hold (tbOf s k)).lastChange = (tbOf s k).lastChange) :
    requestChange s k hold = setTb s k (hold (tbOf s k)) := by
  have hmay : mayChange (setTb s k (hold (tbOf s k))) k = false := by
    rw [← h, mayChange, mayChange, tbOf_setTb_same, hlast]
    rfl
  unfold requestChange
  exact if_neg (by simp [hmay])
theorem reqRate_servo (h : servoMode s k = true) : reqRate s k = setBit s (tbPage k) 0x104 3 true := if_pos h

end

end Sys2Proof.Machine

namespace Sys2Proof
open Sys2Proof.Machine

/-- Settles O44: a change re-anchors at the present and keeps the rest of its base; what is refused or held changes no parameter. -/
theorem timeBaseChanges : Obligations.TimeBaseChanges := by
  unfold Obligations.TimeBaseChanges
  refine ⟨fun s r k h => ?_, fun s r k v h hm => completes ((regWrite_tbFreq k.isLt h v.isLt).trans (responds ?_ _)),
    fun s k any hany => ⟨fun ha hmay => completes ?_, fun hno => completes ?_⟩,
    fun s k => ⟨fun h => completes (if_pos h), fun h => completes (if_neg (Nat.not_le.mpr h))⟩,
    fun s k d h => requestChange_held h rfl, fun s k h => ⟨reqRate_servo h, if_pos h⟩, fun s k f hslew => ?_, fun s k v hk hlock hm => ?_,
    fun s k g hlock => if_pos hlock, fun s k hk h => ⟨?_, endSlew_beside⟩, fun s k b hk hb hnow hslew hend => ?_,
    fun s r k v h hm => completes ((regWrite_tbFreq k.isLt h v.isLt).trans (responds ?_ _))⟩
  · have hamt : rd64 (written s (tbPage k.toNat) 0x128 4) (tbPage k.toNat) 0x130 = rd64 s (tbPage k.toNat) 0x130 := by
      rw [rd64, rd_written_off _ _ _ (by decide), rd_written_off _ _ _ (by decide)]
      rfl
    refine ⟨completes ((regWrite_tbCmd k.isLt h (by decide)).trans (responds ?_ _)), completes ((regWrite_tbCmd k.isLt h (by decide)).trans (responds ?_ _)),
      completes ((regWrite_tbCmd k.isLt h (by decide)).trans (responds ?_ _)), completes ((regWrite_tbCmd k.isLt h (by decide)).trans (responds ?_ _)),
      completes ((regWrite_tbCmd k.isLt h (by decide)).trans (responds ?_ _))⟩
    · rfl
    · rfl
    · rw [← hamt]
      rfl
    · rfl
    · rfl
  · rw [servoMode_congr (rd_written_off _ _ _ (by decide)), hm]
    rfl
  · subst hany
    exact if_pos (by rw [ha, hmay]; rfl)
  · subst hany
    refine if_neg ?_
    rcases hno with h | h
    · rw [h]
      exact Bool.false_ne_true
    · rw [h, Bool.and_false]
      exact Bool.false_ne_true
  · obtain ⟨hf, hta, hba, hrate⟩ := refix_parts { reanchor (tbOf s k) (now s) with f := f }
    rw [tbOf_applyChange]
    refine ⟨hf, hta, hba, hrate.trans ?_⟩
    rw [fSum, reanchor_slew hslew]
  · obtain ⟨-, hta, hba, -⟩ := refix_parts { reanchor (tbOf s k) (now s) with ta := v }
    rw [applySet_accepted hlock hm]
    refine ⟨rfl, ?_, ?_, markStepped_bits⟩
    · rw [tbOf_congr markStepped_beside, tbOf_applyChange]
      exact hta
    · rw [tbOf_congr markStepped_beside, tbOf_applyChange]
      exact hba
  · unfold endSlew
    rw [if_pos h]
    exact slewing_noteF ..
  · have ht := tbOf_abortSlew hslew (by omega) hend
    refine ⟨?_, ?_, ?_⟩
    · rw [tbAt, tbAt, ht, tbLinear, tbLinear, if_neg hslew, if_neg hslew, setAt_before hnow hb, setAt_before (by omega) hb]
    · rw [ht]
    · unfold rateOf
      rw [ht, now_abortSlew]
      exact if_pos ⟨hslew, Nat.le_refl _⟩
  · have hm' : servoMode (written s (tbPage k.toNat) 0x138 v.toNat) k.toNat = true := (servoMode_congr (rd_written_off _ _ _ (by decide))).trans hm
    rw [hm']
    exact reqRate_servo ((servoMode_congr (rd_wr_off _ _ _ _ _ (by decide))).trans hm')

end Sys2Proof
end

section
/-! PROOFS. The PI servo of a time base (R352 to R354). -/

namespace Sys2Proof.Machine

/-! ### SRV_SAMPLE (R352, R371) -/

theorem srv_rows : ∀ k < 16, isLow (tbPage k) 0x160 = true ∧ writable (tbPage k) 0x160 = true ∧ kindOf (tbPage k) = some .tb ∧
    tbPage k % 4096 - 0x10 = k ∧ wordAddr (tbPage k) 0x160 / 4096 = tbPage k ∧ wordAddr (tbPage k) 0x160 % 4096 = 0x160 := by decide +kernel

theorem busWrite_sample {s : State} {r : Requester} {k : Nat} (hk : k < 16) (hr : reach s r = true)
    (hacc : accKind s r (wordAddr (tbPage k) 0x160) 8 = 0) (th : DWord) : busWrite s r (wordAddr (tbPage k) 0x160) 8 th =
      { (if fld s (tbPage k) 0x100 7 5 = 0 then servoTake s k (signedOf 64 th.toNat) else s) with resp := .done } := by
  obtain ⟨hlow, hw, hkind, hsub, hpage, hoff⟩ := srv_rows k hk
  have hth : th.toNat % 2 ^ 32 + th.toNat / 2 ^ 32 * 2 ^ 32 = th.toNat := by omega
  rw [busWrite_through hr hacc, hpage, hoff]
  refine responds ?_ _
  unfold writeWords
  rw [if_neg (by decide), if_pos ⟨hlow, hw⟩]
  unfold commitPair
  rw [hkind]
  refine (congrArg (fun j => sampleIn s j _ _) hsub).trans ?_
  rw [sampleIn, hth]

/-! ### Where the servo stands -/

section
variable {s : State} {k : Nat}

theorem setServo_tbs (s : State) (k st : Nat) : (setServo s k st).tbs = s.tbs ∧ (setServo s k st).baseCount = s.baseCount := by
  unfold setServo
  dsimp only
  split <;> split <;> split <;> simp
theorem servoState_setServo (s : State) (k : Nat) {st : Nat} (hst : st < 8) : servoState (setServo s k st) k = st := by
  have hrd : rd (setServo s k st) (tbPage k) 0x104 = rd (setFld s (tbPage k) 0x104 6 4 st) (tbPage k) 0x104 := by
    unfold setServo
    dsimp only
    have hraise : ∀ (t : State) (n : Nat), rd (raise t (tbPage k) n) (tbPage k) 0x104 = rd t (tbPage k) 0x104 := fun t n =>
      rd_raise _ _ _ _ _ _ _ _ (by omega)
    split <;> split <;> split <;> simp only [hraise]
  exact (fld_congr hrd 6 4).trans ((fld_setFld_same _ _ _ _ _ _ (by decide) (by decide)).trans (Nat.mod_eq_of_lt hst))
theorem mayChange_congr (s t : State) {k : Nat} (hlast : (tbOf t k).lastChange = (tbOf s k).lastChange) (hbc : t.baseCount = s.baseCount) :
    mayChange t k = mayChange s k := by
  rw [mayChange, mayChange, hlast, now, now, hbc]
theorem tbOf_servo (t : State) (st : Nat) : tbOf (setServo (showInt t k) k st) k = tbOf t k := tbOf_congr (setServo_tbs ..).1 k
/-- An output that may not apply yet is held. -/
theorem servoOut_held (h : mayChange s k = false) (y : Int) : servoOut s k y = setTb s k { tbOf s k with heldServo := some y } :=
  requestChange_held h rfl
/-- The output asked for while no change may apply, with the state the servo goes to. -/
theorem servo_output {x y : TimeBase} (h : mayChange s k = false) (hx : x.lastChange = (tbOf s k).lastChange) (hy : y.lastChange = x.lastChange)
    {st : Nat} (hst : st < 8) (out : Int) :
    tbOf (servoOut (setServo (showInt (setTb (setTb s k x) k y) k) k st) k out) k = { y with heldServo := some out } ∧
      servoState (servoOut (setServo (showInt (setTb (setTb s k x) k y) k) k st) k out) k = st := by
  have htb : tbOf (setServo (showInt (setTb (setTb s k x) k y) k) k st) k = y := by rw [tbOf_servo, tbOf_setTb_same]
  have hbc : (setServo (showInt (setTb (setTb s k x) k y) k) k st).baseCount = s.baseCount := by
    rw [(setServo_tbs ..).2, showInt, (wr_frame1 ..).1]
    rfl
  have hmay : mayChange (setServo (showInt (setTb (setTb s k x) k y) k) k st) k = false := by
    rw [mayChange_congr s _ (by rw [htb, hy, hx]) hbc, h]
  rw [servoOut_held hmay, htb]
  exact ⟨tbOf_setTb_same .., servoState_setServo _ _ hst⟩

end

/-! ### A sample (R353, R354) -/

/-- What SRV_OFFSET shows of a sample. -/
def offsetWord (th : Int) : Word :=
  BitVec.ofNat 32 (unsignedOf 32 (if th < 0 then -(min (th.natAbs / 2 ^ 16) (2 ^ 31) : Nat) else (min (th.natAbs / 2 ^ 16) (2 ^ 31 - 1) : Nat)))

section
variable {s : State} {k : Nat} {th : Int}

theorem servoTake_idle (h : servoMode s k = false ∨ servoState s k = 0 ∨ refLost s = true) : servoTake s k th = s :=
  if_pos (h.imp (fun h => by rw [h]; rfl) id)

variable (hmode : servoMode s k = true) (hst : servoState s k = 1 ∨ servoState s k = 2 ∨ servoState s k = 3) (href : refLost s = false)
  (hhold : (tbOf s k).fromHold = false)
include hmode hst href hhold

omit hhold in
/-- A servo that runs takes the sample. -/
theorem servo_runs : ¬((!servoMode s k) = true ∨ servoState s k = 0 ∨ refLost s = true) := by
  rw [hmode, href]
  simp only [Bool.not_true, Bool.false_eq_true, false_or, or_false]
  omega
omit hmode href in
theorem servo_goes_on : ((tbOf s k).fromHold || servoState s k == 4) = false := by
  rw [hhold, Bool.false_or]
  exact beq_eq_false_iff_ne.mpr (by omega)
theorem servoTake_soon {b : Nat} (hlast : (tbOf s k).lastSample = some b) (hsoon : tb0Time s - b < 10000 * 2 ^ 32) :
    servoTake s k th = setBit s (tbPage k) 0x104 10 true := by
  unfold servoTake
  dsimp only
  rw [if_neg (servo_runs hmode hst href), servo_goes_on hst hhold, if_neg Bool.false_ne_true, hlast]
  refine if_pos ⟨rfl, ?_⟩
  show (tb0Time s : Int) - b < 10000 * 2 ^ 32
  omega

omit hst in
/-- One that is beyond the step threshold asks for a step and starts again. -/
theorem servoTake_beyond (hst : servoState s k = 1) (hlast : (tbOf s k).lastSample = none)
    (hfar : fld s (tbPage k) 0x158 31 16 * 1000 * 2 ^ 16 < th.natAbs) (hlock : stepLocked s k = false) :
    servoTake s k th = setServo (setTb (reqStep (wr s (tbPage k) 0x16C (offsetWord th)) k (-th)) k
      { tbOf (reqStep (wr s (tbPage k) 0x16C (offsetWord th)) k (-th)) k with
        lastSample := some (tb0Time s), thetaPrev := th, haveTheta := false, haveEst := false, fromHold := false, locks := 0 }) k 1 := by
  have hlock' : stepLocked (wr s (tbPage k) 0x16C (offsetWord th)) k = false := by
    rw [stepLocked, bitAt_congr (rd_wr_off _ _ _ _ _ (by decide)), bitAt_congr (rd_wr_off _ _ _ _ _ (by decide))]
    exact hlock
  unfold servoTake
  dsimp only
  rw [if_neg (servo_runs hmode (.inl hst) href), servo_goes_on (.inl hst) hhold, if_neg Bool.false_ne_true, hlast,
    if_neg (by simp)]
  exact if_pos ⟨decide_eq_true hfar, by rw [Bool.not_eq_true']; exact hlock'⟩

omit hst in
/-- One within the thresholds integrates, asks for the output and counts toward LOCKED. -/
theorem servoTake_tracks {b tau n : Nat} {u : State} {i y : Int} (hst : servoState s k = 2 ∨ servoState s k = 3)
    (hlast : (tbOf s k).lastSample = some b) (htau : tau = tb0Time s - b)
    (hlate : 10000 * 2 ^ 32 ≤ tau) (hnear : th.natAbs ≤ fld s (tbPage k) 0x158 31 16 * 1000 * 2 ^ 16)
    (hacq : th.natAbs < fld s (tbPage k) 0x154 31 16 * 2 ^ 16) (hu : u = wr s (tbPage k) 0x16C (offsetWord th))
    (hn : n = if th.natAbs ≤ fld s (tbPage k) 0x154 15 0 * 2 ^ 16 then (tbOf s k).locks + 1 else 0)
    (hi : i = (tbOf s k).integ + th * (2 ^ 16 * 10 ^ 9 * 256) / tau * (fld s (tbPage k) 0x150 15 8 : Nat) / 256)
    (hy : y = -(th * (2 ^ 16 * 10 ^ 9 * 256) / tau * (fld s (tbPage k) 0x150 7 0 : Nat) / 256 + i)) :
    servoTake s k th = servoOut (setServo (showInt (setTb (setTb u k { tbOf s k with locks := n }) k
      { tbOf s k with locks := n, lastSample := some (tb0Time s), thetaPrev := th, haveTheta := true, fromHold := false, integ := i, haveEst := true }) k) k
      (if max 1 (fld s (tbPage k) 0x158 7 0) ≤ n then 3 else 2)) k y := by
  have hst' : servoState s k = 1 ∨ servoState s k = 2 ∨ servoState s k = 3 := .inr hst
  have h1 : servoState s k ≠ 1 := by omega
  have hper : (tb0Time s : Int) - b = (tau : Nat) := by omega
  have hpos : (tau : Int) ≠ 0 := by omega
  have hfld : ∀ x, fld (wr s (tbPage k) 0x16C x) (tbPage k) 0x150 7 0 = fld s (tbPage k) 0x150 7 0 ∧
      fld (wr s (tbPage k) 0x16C x) (tbPage k) 0x150 15 8 = fld s (tbPage k) 0x150 15 8 ∧
      fld (wr s (tbPage k) 0x16C x) (tbPage k) 0x154 15 0 = fld s (tbPage k) 0x154 15 0 ∧
      fld (wr s (tbPage k) 0x16C x) (tbPage k) 0x158 7 0 = fld s (tbPage k) 0x158 7 0 := fun x =>
    ⟨fld_congr (rd_wr_off _ _ _ _ _ (by decide)) _ _, fld_congr (rd_wr_off _ _ _ _ _ (by decide)) _ _,
      fld_congr (rd_wr_off _ _ _ _ _ (by decide)) _ _, fld_congr (rd_wr_off _ _ _ _ _ (by decide)) _ _⟩
  have hset : ∀ (t : State) (x : TimeBase) (o hi lo : Nat), fld (setTb t k x) (tbPage k) o hi lo = fld t (tbPage k) o hi lo := fun _ _ _ _ _ => rfl
  have hbase : ∀ x, tbOf (wr s (tbPage k) 0x16C x) k = tbOf s k := fun _ => rfl
  have hgain : ((2 ^ 16 * 10 ^ 9 * 256 : Nat) : Int) = 2 ^ 16 * 10 ^ 9 * 256 := rfl
  subst hu hn hi hy
  unfold servoTake
  refine (if_neg (servo_runs hmode hst' href)).trans ?_
  dsimp only
  rw [servo_goes_on hst' hhold, if_neg Bool.false_ne_true, hlast]
  refine (if_neg fun h => ?_).trans ?_
  · exact absurd (show (tb0Time s : Int) - b < 10000 * 2 ^ 32 from h.2) (by omega)
  refine (if_neg fun h => absurd (of_decide_eq_true h.1) (by omega)).trans ((if_neg Bool.false_ne_true).trans ((if_neg fun h => h1 h.1).trans
    ((if_neg fun h => h1 h.1).trans ((if_neg fun h => absurd (of_decide_eq_true h) (by omega)).trans ?_))))
  simp only [hper, if_neg hpos, hset, hfld, hbase, tbOf_setTb_same, decide_eq_true_eq, hlast, hgain]
  rfl

end

end Sys2Proof.Machine

namespace Sys2Proof
open Sys2Proof.Machine

/-- Settles O45: a sample is dropped, refused as too early, answered by a step, or integrated. -/
theorem servoLaw : Obligations.ServoLaw := by
  unfold Obligations.ServoLaw
  refine ⟨fun s r k th hr hacc hsrc => completes ((busWrite_sample k.isLt hr hacc th).trans (responds (if_pos hsrc) _)),
    fun s r k th hr hacc hsrc => completes ((busWrite_sample k.isLt hr hacc th).trans (responds (if_neg hsrc) _)),
    fun s k th h => servoTake_idle h, fun s k b th hm hst href hhold hlast hsoon => servoTake_soon hm hst href hhold hlast hsoon,
    fun s k th hm hst href hhold hlast hfar hlock hmay => ?_,
    fun s k b tau th i y hk hm hst href hhold hlast htau hlate hnear hacq hmay hi hy => ?_,
    fun s k hm hlo hhi href => completes (if_pos ⟨hm, hlo, hhi, by rw [href]; rfl⟩), fun s k hno => completes (if_neg ?_)⟩
  · have hstep : reqStep (wr s (tbPage k) 0x16C (offsetWord th)) k (-th) = setTb (wr s (tbPage k) 0x16C (offsetWord th)) k
        { tbOf s k with heldStep := some ((tbOf s k).heldStep.getD 0 + -th) } := requestChange_held hmay rfl
    rw [servoTake_beyond hm href hhold hst hlast hfar hlock, hstep, tbOf_congr (setServo_tbs ..).1, tbOf_setTb_same, tbOf_setTb_same]
    exact ⟨congrArg some (Int.sub_eq_add_neg ..).symm, servoState_setServo _ _ (by decide), rfl⟩
  · have hlt : ∀ (c : Prop) [Decidable c], (if c then 3 else 2) < 8 := fun c _ => by split <;> decide
    have hu : mayChange (wr s (tbPage k) 0x16C (offsetWord th)) k = false := hmay
    obtain ⟨htb, hstate⟩ := servo_output hu (x := { tbOf s k with
        locks := if th.natAbs ≤ fld s (tbPage k) 0x154 15 0 * 2 ^ 16 then (tbOf s k).locks + 1 else 0 }) rfl
      (y := { tbOf s k with
        locks := if th.natAbs ≤ fld s (tbPage k) 0x154 15 0 * 2 ^ 16 then (tbOf s k).locks + 1 else 0, lastSample := some (tb0Time s)
        thetaPrev := th, haveTheta := true, fromHold := false, integ := i, haveEst := true }) rfl (hlt (max 1 (fld s (tbPage k) 0x158 7 0) ≤
          if th.natAbs ≤ fld s (tbPage k) 0x154 15 0 * 2 ^ 16 then (tbOf s k).locks + 1 else 0)) y
    rw [servoTake_tracks hm href hhold hst hlast htau hlate hnear hacq rfl rfl hi hy, htb, hstate]
    refine ⟨rfl, rfl, rfl, ?_⟩
    by_cases hclose : th.natAbs ≤ fld s (tbPage k) 0x154 15 0 * 2 ^ 16
    · simp only [hclose, if_true, true_and]
    · simp only [hclose, if_false, false_and]
      exact if_neg (by omega)
  · rintro ⟨hm, hlo, hhi, href⟩
    rcases hno with h | h | h | h
    · rw [h] at hm
      exact nomatch hm
    · omega
    · omega
    · rw [h] at href
      exact nomatch href

end Sys2Proof
end

section
/-! PROOFS. Markers, conversion, capture, time pins and SyncE (R356 to R370). -/

namespace Sys2Proof.Machine

/-! ### Time words (R342) -/

theorem nsOf_lt (v : Int) : nsOf v < 2 ^ 30 := by
  have h : v / ((2 ^ 32 : Nat) : Int) % ((10 ^ 9 : Nat) : Int) < 10 ^ 9 := Int.emod_lt_of_pos _ (by decide)
  unfold nsOf
  omega
theorem secOf_mod (v : Int) : secOf v % 2 ^ 64 = secOf v := Nat.mod_mod ..
/-- A word of nanoseconds with a valid bit above. -/
theorem ns_word {x : Nat} (hx : x < 2 ^ 30) (b : Bool) : bitsOf (BitVec.ofNat 32 (x + b2n b * 2 ^ 31)).toNat 29 0 = x ∧
    bitOf (BitVec.ofNat 32 (x + b2n b * 2 ^ 31)).toNat 31 = b := by
  rw [BitVec.toNat_ofNat]
  unfold bitsOf bitOf
  constructor
  · cases b <;> simp only [b2n] <;> omega
  · rw [Nat.testBit_eq_decide_div_mod_eq]
    cases b with
    | false => exact decide_eq_false (by rw [b2n, if_neg Bool.false_ne_true]; omega)
    | true => exact decide_eq_true (by rw [b2n, if_pos rfl]; omega)
theorem rd64_wr_off (s : State) (p o w : Nat) (v : Word) (h : o ≠ w) (h4 : o + 4 ≠ w) : rd64 (wr s p w v) p o = rd64 s p o := by
  rw [rd64, rd_wr_off _ _ _ _ _ h, rd_wr_off _ _ _ _ _ h4]
  rfl
theorem rd64_wr64_off (s : State) (p o w v : Nat) (h : o + 4 < w ∨ w + 4 < o) : rd64 (wr64 s p w v) p o = rd64 s p o := by
  rw [wr64, rd64_wr_off _ _ _ _ _ (by omega) (by omega), rd64_wr_off _ _ _ _ _ (by omega) (by omega)]

/-! ### Markers (R356) -/

theorem markReplica_bad {s : State} {bad : List Nat} {p : Nat} (h : p ∈ bad) :
    markReplica bad s p = { raise (inc s tdsPage 0x100) tdsPage 0 0 p with replicas := mapSet (fun _ => 0) s.replicas p 1 } := by
  unfold markReplica
  dsimp only
  rw [if_pos (List.contains_iff_mem.mpr h)]
  simp
theorem markReplica_again {s : State} {bad : List Nat} {p : Nat} (h : p ∉ bad) (hfail : mapGet (fun _ => 0) s.replicas p = 1) :
    markReplica bad s p = { raise s tdsPage 0 0 p with replicas := mapSet (fun _ => 0) s.replicas p 2 } := by
  unfold markReplica
  dsimp only
  rw [if_neg (fun hc => h (List.contains_iff_mem.mp hc)), if_pos hfail]
  simp

/-! ### Conversion and capture (R360, R370) -/

theorem tbs_rows : regRow tbsPage 0x100 = some { off := 0x100, w1s := 0x1, w1c := 0x2 } ∧ isHigh tbsPage 0x100 = false ∧
    regRow tbsPage 0x128 = some { off := 0x128, rw := 0xF, w1s := 0x100, w1c := 0x200 } ∧ isHigh tbsPage 0x128 = false ∧
    (pageInfo tbsPage).map (·.kind) = some .tbs := by decide +kernel

section
variable {s : State} {r : Requester}

theorem regWrite_timeCap (h : opened s r tbsPage 0x100 = true) :
    regWrite s r tbsPage 0x100 1 = { timeCap (written s tbsPage 0x100 1) with resp := .done } := by
  obtain ⟨hrow, hhigh, -, -, hkind⟩ := tbs_rows
  obtain ⟨i, hi⟩ := pageInfo_of_opened (by decide) h
  have hik : i.kind = .tbs := by simpa [hi] using hkind
  rw [regWrite_block h hi hrow (by decide) (by decide) rfl hhigh (by decide)]
  refine responds ?_ _
  simp only [blockEffect, hik]
  exact (if_pos trivial).trans (if_pos (by decide))
theorem regUpdate_convert (h : opened s r tbsPage 0x128 = true) {k : Nat} (hk : k < 16) : regUpdate s r tbsPage 0x128 0x10F (k + 0x100) =
    { timeConv (written s tbsPage 0x128 (rewritten s tbsPage 0x128 0x10F (k + 0x100))) with resp := .done } := by
  obtain ⟨-, -, hrow, hhigh, hkind⟩ := tbs_rows
  obtain ⟨i, hi⟩ := pageInfo_of_opened (by decide) h
  have hik : i.kind = .tbs := by simpa [hi] using hkind
  have hv := rewritten_lt s tbsPage 0x128 (mask := 0x10F) (k + 0x100) (by decide)
  have hgo : bitOf (reached { off := 0x128, rw := 0xF, w1s := 0x100, w1c := 0x200 } (rewritten s tbsPage 0x128 0x10F (k + 0x100))) 8 = true := by
    have h8 : ∀ k < 16, Nat.testBit (k + 0x100) 8 = true := by decide
    rw [bitOf_reached hv, testBit_rewritten hrow _ _ (by decide), if_pos (by decide), h8 k hk]
    rfl
  rw [regUpdate, regWrite_block h hi hrow (by decide) (by decide) rfl hhigh hv]
  refine responds ?_ _
  simp only [blockEffect, hik]
  exact (if_neg (by decide)).trans (if_pos ⟨trivial, hgo⟩)

/-- What a conversion answers. -/
theorem timeConv_answers {k : Nat} (hk : fld s tbsPage 0x128 3 0 = k) (hk16 : k < 16) :
    rd64 (timeConv s) tbsPage 0x130 = secOf (tbAt s k (restore s (rd64 s tbsPage 0x120))) ∧
    fld (timeConv s) tbsPage 0x138 29 0 = nsOf (tbAt s k (restore s (rd64 s tbsPage 0x120))) ∧
    bitAt (timeConv s) tbsPage 0x138 31 = tbValid s k ∧ bitAt (timeConv s) tbsPage 0x128 9 = true := by
  subst hk
  unfold timeConv
  dsimp only
  have hvalid : ∀ v, tbValid (wr64 s tbsPage 0x130 v) (fld s tbsPage 0x128 3 0) = tbValid s (fld s tbsPage 0x128 3 0) := fun v => by
    have hpage : tbPage (fld s tbsPage 0x128 3 0) ≠ tbsPage := by unfold tbPage tbsPage; omega
    refine bitAt_congr ?_ 0
    rw [wr64, rd_wr_key _ _ _ _ _ _ (by omega), rd_wr_key _ _ _ _ _ _ (by omega)]
  have hns : ∀ (t : State) (x : Word), rd (setBit (wr (wr t tbsPage 0x138 x) tbsPage 0x13C (BitVec.ofNat 32 (fracOf (tbAt s (fld s tbsPage 0x128 3 0)
      (restore s (rd64 s tbsPage 0x120)))))) tbsPage 0x128 9 true) tbsPage 0x138 = x := fun t x => by
    rw [rd_setBit_key _ _ _ _ _ _ _ (by decide), rd_wr_off _ _ _ _ _ (by decide), rd_wr_same]
  refine ⟨?_, ?_, ?_, bitAt_setBit_same _ _ _ _ (by decide)⟩
  · rw [rd64_setBit_off _ _ _ _ _ _ (by decide) (by decide), rd64_wr_off _ _ _ _ _ (by decide) (by decide), rd64_wr_off _ _ _ _ _ (by decide) (by decide),
      rd64_wr64, secOf_mod]
  · rw [fld, hns]
    exact (ns_word (nsOf_lt _) _).1
  · rw [bitAt, hns, hvalid]
    exact (ns_word (nsOf_lt _) _).2

end

/-- One time base of a capture of all. -/
def capOne (b : Nat) (s : State) (k : Nat) : State :=
  wr (wr (wr64 s (tbPage k) 0x180 (secOf (tbAt s k b))) (tbPage k) 0x188 (BitVec.ofNat 32 (nsOf (tbAt s k b)))) (tbPage k) 0x18C
    (BitVec.ofNat 32 (fracOf (tbAt s k b)))

section
variable (b : Nat) (s : State)

theorem capOne_tbAt (k j : Nat) : tbAt (capOne b s k) j b = tbAt s j b := by
  have h : (capOne b s k).tbs = s.tbs := by simp [capOne]
  rw [tbAt, tbOf_congr h]
  rfl
theorem rd_capOne_page (k : Nat) {p o : Nat} (h : p ≠ tbPage k) (ho : o < 4096) : rd (capOne b s k) p o = rd s p o := by
  unfold capOne
  rw [rd_wr_page _ _ _ _ _ _ h (by decide) ho, rd_wr_page _ _ _ _ _ _ h (by decide) ho, wr64, rd_wr_page _ _ _ _ _ _ h (by decide) ho,
    rd_wr_page _ _ _ _ _ _ h (by decide) ho]
theorem capOne_shows (k : Nat) : rd64 (capOne b s k) (tbPage k) 0x180 = secOf (tbAt s k b) ∧
    (rd (capOne b s k) (tbPage k) 0x188).toNat = nsOf (tbAt s k b) := by
  unfold capOne
  constructor
  · rw [rd64_wr_off _ _ _ _ _ (by decide) (by decide), rd64_wr_off _ _ _ _ _ (by decide) (by decide), rd64_wr64, secOf_mod]
  · rw [rd_wr_off _ _ _ _ _ (by decide), rd_wr_same, BitVec.toNat_ofNat]
    exact Nat.mod_eq_of_lt (Nat.lt_trans (nsOf_lt _) (by decide))
theorem rd_captures_page {p o : Nat} (ho : o < 4096) (l : List Nat) (h : ∀ k ∈ l, p ≠ tbPage k) : rd (forEach s l (capOne b)) p o = rd s p o := by
  induction l generalizing s with
  | nil => rfl
  | cons a l ih =>
    exact (ih (capOne b s a) fun k hk => h k (List.mem_cons_of_mem _ hk)).trans (rd_capOne_page b s a (h a List.mem_cons_self) ho)
/-- Each base of the list shows its time at the count captured. -/
theorem captures_show {k : Nat} (l : List Nat) (hl : l.Nodup) (h : k ∈ l) : rd64 (forEach s l (capOne b)) (tbPage k) 0x180 = secOf (tbAt s k b) ∧
    (rd (forEach s l (capOne b)) (tbPage k) 0x188).toNat = nsOf (tbAt s k b) := by
  induction l generalizing s with
  | nil => exact absurd h List.not_mem_nil
  | cons a l ih =>
    obtain ⟨ha, hl⟩ := List.nodup_cons.mp hl
    rcases List.mem_cons.mp h with rfl | h
    · have hoff : ∀ j ∈ l, tbPage k ≠ tbPage j := fun j hj hp => ha (by
        have : k = j := by unfold tbPage at hp; omega
        exact this ▸ hj)
      obtain ⟨hsec, hns⟩ := capOne_shows b s k
      have hkeep : ∀ o < 4096, rd (forEach s (k :: l) (capOne b)) (tbPage k) o = rd (capOne b s k) (tbPage k) o := fun o ho =>
        rd_captures_page b _ ho l hoff
      exact ⟨by rw [← hsec, rd64, hkeep _ (by decide), hkeep _ (by decide)]; rfl, by rw [← hns, hkeep _ (by decide)]⟩
    · obtain ⟨hsec, hns⟩ := ih (capOne b s a) hl h
      rw [capOne_tbAt] at hsec hns
      exact ⟨hsec, hns⟩

end

theorem timeCap_shows (s : State) : rd64 (timeCap s) tbsPage 0x108 = now s % 2 ^ 64 ∧
    ∀ k < 16, rd64 (timeCap s) (tbPage k) 0x180 = secOf (tbAt s k (now s)) ∧ (rd (timeCap s) (tbPage k) 0x188).toNat = nsOf (tbAt s k (now s)) := by
  have hcap : timeCap s = setBit (forEach (wr (wr64 s tbsPage 0x108 (now s % 2 ^ 64)) tbsPage 0x110 (BitVec.ofNat 32 (now s / 2 ^ 64)))
      (List.range 16) (capOne (now s))) tbsPage 0x100 1 true := rfl
  have hpage : ∀ k, tbPage k ≠ tbsPage := fun k => by unfold tbPage tbsPage; omega
  rw [hcap]
  refine ⟨?_, fun k hk => ?_⟩
  · have hkeep : ∀ (t : State), ∀ o < 4096, rd (forEach t (List.range 16) (capOne (now s))) tbsPage o = rd t tbsPage o := fun t o ho =>
      rd_captures_page _ t ho _ fun k _ => (hpage k).symm
    rw [rd64_setBit_off _ _ _ _ _ _ (by decide) (by decide), rd64, hkeep _ _ (by decide), hkeep _ _ (by decide)]
    refine (rd64_wr_off _ _ _ _ _ (by decide) (by decide)).trans ((rd64_wr64 ..).trans (Nat.mod_mod ..))
  · obtain ⟨hsec, hns⟩ := captures_show (now s) (wr (wr64 s tbsPage 0x108 (now s % 2 ^ 64)) tbsPage 0x110 (BitVec.ofNat 32 (now s / 2 ^ 64)))
      (List.range 16) List.nodup_range (List.mem_range.mpr hk)
    have hbit : ∀ (t : State), ∀ o < 4096, rd (setBit t tbsPage 0x100 1 true) (tbPage k) o = rd t (tbPage k) o := fun t o ho =>
      rd_setBit_key _ _ _ _ _ _ _ (by have := hpage k; omega)
    refine ⟨?_, ?_⟩
    · rw [rd64, hbit _ _ (by decide), hbit _ _ (by decide)]
      exact hsec
    · rw [hbit _ _ (by decide)]
      exact hns

/-! ### The time pins (R365, R366) -/

section
variable {s : State} {n : Nat} {rising up : Bool}

theorem tioEdge_ignored (h : serving s tioPage = false ∨ fld s tioPage (tioOff n) 2 0 = 0 ∨ 3 < fld s tioPage (tioOff n) 2 0) :
    tioEdge s n rising = s :=
  if_pos (by rcases h with h | h | h <;> simp [h])
/-- An edge that the mode takes. -/
theorem tioEdge_taken (hserve : serving s tioPage = true) (hup : up = (rising != bitAt s tioPage (tioOff n) 8))
    (hmode : (fld s tioPage (tioOff n) 2 0 = 1 ∧ up = true) ∨ (fld s tioPage (tioOff n) 2 0 = 2 ∧ up = false) ∨ fld s tioPage (tioOff n) 2 0 = 3) :
    tioEdge s n rising = if (mapGet (fun _ => none) s.tioLast n).any (fun x => decide (stampNow s - x < 3072)) = true then s
      else
        let t := { s with tioLast := mapSet (fun _ => none) s.tioLast n (some (stampNow s)) }
        let v := if up then tioServo t n (stampNow s) else t
        if 16 ≤ (tioList s n).length then raise (setBit v tioPage (tioOff n + 0x1C) 8 true) tioPage n
        else setTio v n (tioList s n ++ [tioCap v n (stampNow s)]) := by
  unfold tioEdge
  dsimp only
  rw [← hup, if_neg (by rcases hmode with ⟨h, hu⟩ | ⟨h, hu⟩ | h <;> simp [hserve, h] <;> simp [hu])]
  rcases hmode with ⟨h, hu⟩ | ⟨h, hu⟩ | h
  · simp [h, hu]
  · simp [h, hu]
  · simp [h]

theorem tio_rows : ∀ n < 4, isHigh tioPage (tioOff n + 0x20) = false ∧ isLow tioPage (tioOff n + 0x20) = true ∧
    hasConfig tioPage (tioOff n + 0x20) = false ∧ (regRow tioPage (tioOff n + 0x20)).map (·.rc) = some 0 ∧ kindOf tioPage = some .tio := by
  decide +kernel
/-- R366: a read of the low word takes the oldest capture out first. -/
theorem readWord_tioCap (hn : n < 4) (id : Nat) : readWord s id tioPage (tioOff n + 0x20) = (view (tioPop s n) tioPage (tioOff n + 0x20),
    setRdShadow (tioPop s n) id tioPage (some (tioPage * 4096 + (tioOff n + 0x20), view (tioPop s n) tioPage (tioOff n + 0x24)))) := by
  obtain ⟨hhigh, hlow, hcfg, hrc, hkind⟩ := tio_rows n hn
  obtain ⟨row, hrow, hrc⟩ := Option.map_eq_some_iff.mp hrc
  have hpar : parCheck s tioPage (tioOff n + 0x20) = s := by
    unfold parCheck
    rw [hcfg, Bool.false_and, if_neg Bool.false_ne_true]
  have hpop : readPop s tioPage (tioOff n + 0x20) = tioPop s n := by
    have hidx : (tioOff n + 0x20 - 0x100) / 0x40 = n := by unfold tioOff; omega
    unfold readPop
    rw [hkind]
    refine (if_pos ?_).trans (congrArg (tioPop s) hidx)
    unfold tioOff
    omega
  have htake : ∀ t, take t id tioPage (tioOff n + 0x20) = (view t tioPage (tioOff n + 0x20), t) := fun t => by
    unfold take
    rw [if_neg (by rw [hkind]; simp), if_neg (by unfold tioOff; omega), look_plain (.inl (by rw [hkind]; decide)) (plain_of_isLow hlow).2.1]
  have hclear : ∀ t, clearRC t tioPage (tioOff n + 0x20) all32 = t := fun t => by
    unfold clearRC
    simp only [hrow, hrc, Nat.zero_and, if_true]
  unfold readWord
  rw [hpar, hpop]
  dsimp only
  rw [hhigh, if_neg Bool.false_ne_true, htake, hclear, if_pos hlow]
  rfl

/-- The oldest capture shows in the registers of its pin. -/
theorem tioPop_shows {e : TioCap} {rest : List TioCap} (h : tioList s n = e :: rest) : tioList (tioPop s n) n = rest ∧
    rd64 (tioPop s n) tioPage (tioOff n + 0x20) = e.bc % 2 ^ 64 ∧ rd64 (tioPop s n) tioPage (tioOff n + 0x28) = secOf e.time ∧
    fld (tioPop s n) tioPage (tioOff n + 0x30) 29 0 = nsOf e.time ∧ bitAt (tioPop s n) tioPage (tioOff n + 0x30) 31 = e.valid := by
  unfold tioPop
  rw [h]
  dsimp only
  refine ⟨?_, ?_, ?_, ?_, ?_⟩
  · have hfifo : (setTio s n rest).tioFifo = mapSet (fun _ => []) s.tioFifo n rest := by simp [setTio]
    rw [tioList, (wr_frame6 ..).2.2.1, wr64, (wr_frame6 ..).2.2.1, (wr_frame6 ..).2.2.1, wr64, (wr_frame6 ..).2.2.1, (wr_frame6 ..).2.2.1, hfifo]
    exact mapGet_mapSet_same ..
  · rw [rd64_wr_off _ _ _ _ _ (by omega) (by omega), rd64_wr64_off _ _ _ _ _ (by omega), rd64_wr64, Nat.mod_mod]
  · rw [rd64_wr_off _ _ _ _ _ (by omega) (by omega), rd64_wr64, secOf_mod]
  · rw [fld, rd_wr_same]
    exact (ns_word (nsOf_lt _) _).1
  · rw [bitAt, rd_wr_same]
    exact (ns_word (nsOf_lt _) _).2

end

/-! ### SyncE (R367) -/

/-- The highest number below `m` that passes is found first from above. -/
theorem find_from_above {f : Nat → Bool} {p : Nat} (hp : f p = true) : ∀ {m : Nat}, p < m → (∀ q < m, p < q → f q = false) →
    (List.range m).reverse.find? f = some p
  | m + 1, hlt, hnone => by
    rw [List.range_succ, List.reverse_append, List.reverse_singleton, List.singleton_append, List.find?_cons]
    rcases Nat.lt_succ_iff_lt_or_eq.mp hlt with h | rfl
    · rw [hnone m (Nat.lt_succ_self m) h]
      exact find_from_above hp h fun q hq => hnone q (Nat.lt_succ_of_lt hq)
    · rw [hp]

end Sys2Proof.Machine

namespace Sys2Proof
open Sys2Proof.Machine

/-- Settles O46: the pin's mode, its last edge and its FIFO decide an edge; captures and conversions read the parameters in force. -/
theorem timeCaptureAndPins : Obligations.TimeCaptureAndPins := by
  unfold Obligations.TimeCaptureAndPins
  refine ⟨?_, fun s bad p h => markReplica_bad h, fun s bad p h hfail => markReplica_again h hfail, fun s u r k h hu => ?_, fun s u r h hu => ?_,
    fun s t v n rising up hserve hup hmode => ?_, fun s n rising h => completes (tioEdge_ignored h), fun s t r n h ht => ?_,
    fun s n e rest hn h => tioPop_shows h, fun s n hserve hmode => ?_, fun s n h => completes (if_pos ?_),
    fun s n p hp hen hlane hnone hup => completes ?_⟩
  · rintro s bad l rfl
    exact ⟨fun h => completes (if_neg (by simp [h])), fun h => completes (if_pos (by simp [h]))⟩
  · have hk : fld u tbsPage 0x128 3 0 = k.toNat := by
      have hbits : ∀ k < 16, bitsOf (k + 0x100) 3 0 = k := by decide
      rw [hu]
      exact (fld_updated tbs_rows.2.2.1 _ _ (by decide) (by decide)).trans (hbits _ k.isLt)
    have hregs : ∀ (o w v : Nat), o ≠ w → rd (written s tbsPage o v) tbsPage w = rd s tbsPage w := fun o w v hne => rd_written_off _ _ _ hne.symm
    have hparts : u.tbs = s.tbs ∧ u.baseCount = s.baseCount := by
      obtain ⟨g, b, hstore⟩ := storeWord_only s tbsPage 0x128 (rewritten s tbsPage 0x128 0x10F (k.toNat + 0x100)) all32
      rw [hu]
      exact ⟨by rw [written, hstore], by rw [written, hstore]⟩
    have hpage : tbPage k.toNat ≠ tbsPage := by unfold tbPage tbsPage; omega
    have hrest : restore u (rd64 u tbsPage 0x120) = restore s (rd64 s tbsPage 0x120) := by
      rw [restore, now, hparts.2, rd64, hu, hregs _ _ _ (by decide), hregs _ _ _ (by decide)]
      rfl
    have htb : ∀ b, tbAt u k.toNat b = tbAt s k.toNat b := fun b => by rw [tbAt, tbOf_congr hparts.1]; rfl
    have hvalid : tbValid u k.toNat = tbValid s k.toNat := bitAt_congr (by
      rw [hu]
      exact rd_storeWord_other _ _ _ _ _ _ _ (by omega)) 0
    have hshow := timeConv_answers hk k.isLt
    rw [hrest, htb, hvalid] at hshow
    exact ⟨completes (hu ▸ regUpdate_convert h k.isLt), hshow⟩
  · have hparts : u.tbs = s.tbs ∧ u.baseCount = s.baseCount := by
      obtain ⟨g, b, hstore⟩ := storeWord_only s tbsPage 0x100 1 all32
      rw [hu]
      exact ⟨by rw [written, hstore], by rw [written, hstore]⟩
    have hnow : now u = now s := by rw [now, hparts.2]; rfl
    have htb : ∀ k b, tbAt u k b = tbAt s k b := fun k b => by rw [tbAt, tbOf_congr hparts.1]; rfl
    have hshow := timeCap_shows u
    simp only [hnow, htb] at hshow
    exact ⟨completes (hu ▸ regWrite_timeCap h), hshow⟩
  · have htaken := tioEdge_taken hserve hup hmode
    refine ⟨fun b hb hclose => completes (htaken.trans (if_pos ?_)), fun hfar ht hv => ?_⟩
    · rw [hb]
      exact decide_eq_true hclose
    · have hopen : ¬ (mapGet (fun _ => none) s.tioLast n.toNat).any (fun x => decide (stampNow s - x < 3072)) = true := fun hany => by
        obtain ⟨b, hb, hlt⟩ := (Option.any_eq_true ..).mp hany
        exact absurd (of_decide_eq_true hlt) (Nat.not_lt.mpr (hfar b hb))
      subst ht hv
      exact ⟨fun hroom => completes (htaken.trans ((if_neg hopen).trans (if_neg (Nat.not_le.mpr hroom)))),
        fun hfull => completes (htaken.trans ((if_neg hopen).trans (if_pos hfull)))⟩
  · subst ht
    refine completes ((busRead_opened rfl ?_ h).trans ?_)
    · unfold tioOff; omega
    · rw [readWord_tioCap n.isLt]
  · have hgo : ¬ ((!serving s tioPage) = true ∨ fld s tioPage (tioOff n.toNat) 2 0 ≠ 4) := by simp [hserve, hmode]
    refine ⟨fun hvalid hstart => completes ?_, fun hvalid hearly => completes ?_, fun hbad => completes ?_⟩
    · exact (if_neg hgo).trans ((if_neg (by simp [hvalid])).trans (if_neg (Int.not_lt.mpr hstart)))
    · exact (if_neg hgo).trans ((if_neg (by simp [hvalid])).trans (if_pos hearly))
    · exact (if_neg hgo).trans (if_pos (by simp [hbad]))
  · rcases h with h | h
    · exact .inl (by simp [h])
    · exact .inr h
  · have hfind := find_from_above (f := fun q => bitAt s (macPage q) 0x100 0 &&
        decide (fld s syePage (0x100 + 4 * n.toNat) 5 0 < q + lanesOf s q)) (p := p)
      (by rw [hen]; exact decide_eq_true hlane) (Nat.lt_succ_of_le hp) fun q hq hlt => by rw [hnone q hq hlt]; rfl
    unfold synceUp
    dsimp only
    rw [hfind]
    exact if_pos hup

end Sys2Proof
end

section
/-! PROOFS. Lifts: their entries, arming, dispatch, launch and outcomes (R375 to R387, R396). -/

namespace Sys2Proof.Machine

/-! ### Fields of an entry -/

theorem ebit_esetFld (e : Entry) {hi lo : Nat} (n b : Nat) (h : lo ≤ hi) (hw : hi < 1920) :
    ebit (esetFld e hi lo n) b = if lo ≤ b ∧ b ≤ hi then n.testBit (b - lo) else ebit e b := by
  unfold ebit esetFld
  rw [BitVec.testBit_toNat, BitVec.getLsbD_ofNat, testBit_withBits _ _ _ _ _ h]
  by_cases hb : b < 1920
  · rw [decide_eq_true hb, Bool.true_and]
  · rw [if_neg (by omega), decide_eq_false hb, BitVec.testBit_toNat, BitVec.getLsbD_of_ge _ _ (Nat.not_lt.mp hb)]
    rfl
theorem efld_esetFld_same (e : Entry) {hi lo : Nat} (n : Nat) (h : lo ≤ hi) (hw : hi < 1920) :
    efld (esetFld e hi lo n) hi lo = n % 2 ^ (hi + 1 - lo) := by
  refine Nat.eq_of_testBit_eq fun j => ?_
  rw [efld, testBit_bitsOf, Nat.testBit_mod_two_pow]
  by_cases hj : j < hi + 1 - lo
  · have hb := ebit_esetFld e n (lo + j) h hw
    rw [if_pos (by omega), Nat.add_sub_cancel_left] at hb
    rw [← hb]
    rfl
  · simp [hj]
theorem efld_esetFld_apart (e : Entry) {hi lo hi' lo' : Nat} (n : Nat) (h : lo ≤ hi) (hw : hi < 1920) (hd : hi' < lo ∨ hi < lo') :
    efld (esetFld e hi lo n) hi' lo' = efld e hi' lo' := by
  refine Nat.eq_of_testBit_eq fun j => ?_
  rw [efld, efld, testBit_bitsOf, testBit_bitsOf]
  by_cases hj : j < hi' + 1 - lo'
  · have hb := ebit_esetFld e n (lo' + j) h hw
    rw [if_neg (by omega)] at hb
    exact congrArg _ hb
  · simp [hj]

/-! ### The tables of the lifts (R375, R397) -/

section
variable {s t : State} {i : Nat}

theorem liftRec_congr (h : t.tabs = s.tabs) (i : Nat) : liftRec t i = liftRec s i := by rw [liftRec, tget, h]; rfl
theorem liftStat_congr (h : t.tabs = s.tabs) (i : Nat) : liftStat t i = liftStat s i := by rw [liftStat, tget, h]; rfl
theorem liftState_congr (h : t.tabs = s.tabs) (i : Nat) : liftState t i = liftState s i := by rw [liftState, liftStat_congr h]; rfl
theorem liftX_congr (h : t.lifts = s.lifts) (i : Nat) : liftX t i = liftX s i := by rw [liftX, h]; rfl
theorem liftX_setLiftX (x : LiftX) : liftX (setLiftX s i x) i = x := mapGet_mapSet_same ..
theorem liftStat_tset (e : Entry) : liftStat (tset s bscPage 1 0 i e) i = e := mapGet_mapSet_same ..
theorem liftRec_tset (e : Entry) : liftRec (tset s bscPage 0 0 i e) i = e := mapGet_mapSet_same ..
/-- A status is no record. -/
theorem liftRec_tset_status (e : Entry) : liftRec (tset s bscPage 1 0 i e) i = liftRec s i :=
  mapGet_mapSet_other _ _ _ (by unfold tabKey; omega)
theorem liftStat_setLiftStat (hi lo n : Nat) : liftStat (setLiftStat s i hi lo n) i = esetFld (liftStat s i) hi lo n := liftStat_tset _
theorem liftRec_setLiftStat (hi lo n : Nat) : liftRec (setLiftStat s i hi lo n) i = liftRec s i := liftRec_tset_status _
theorem setLiftStat_lifts (hi lo n : Nat) : (setLiftStat s i hi lo n).lifts = s.lifts := rfl
/-- A status field outside a lift's state leaves the state. -/
theorem liftState_setLiftStat {hi lo : Nat} (n : Nat) (h : lo ≤ hi) (hw : hi < 1920) (hd : 2 < lo) : liftState (setLiftStat s i hi lo n) i = liftState s i := by
  rw [liftState, liftStat_setLiftStat, efld_esetFld_apart _ _ h hw (.inl hd)]
  rfl
theorem setLiftState_parts (n : Nat) (h : n < 8) : liftState (setLiftState s i n) i = n ∧ liftRec (setLiftState s i n) i = liftRec s i ∧
    liftX (setLiftState s i n) i = liftX s i ∧ efld (liftStat (setLiftState s i n) i) 7 4 = efld (liftStat s i) 7 4 := by
  unfold setLiftState
  refine ⟨?_, ?_, liftX_congr ((setLiftStat_lifts ..).trans (setLiftStat_lifts ..)) i, ?_⟩
  · rw [liftState_setLiftStat _ (by decide) (by decide) (by decide), liftState, liftStat_setLiftStat, efld_esetFld_same _ _ (by decide) (by decide)]
    exact Nat.mod_eq_of_lt h
  · rw [liftRec_setLiftStat, liftRec_setLiftStat]
  · rw [liftStat_setLiftStat, efld_esetFld_apart _ _ (by decide) (by decide) (by decide), liftStat_setLiftStat,
      efld_esetFld_apart _ _ (by decide) (by decide) (by decide)]
/-- The launch count of a lift changes neither its record nor its state nor its instant. -/
theorem aim_parts : liftState (aim s i) i = liftState s i ∧ liftRec (aim s i) i = liftRec s i ∧ (liftX (aim s i) i).inst = (liftX s i).inst := by
  unfold aim
  dsimp only
  by_cases h : tbValid s (liftTb (liftRec s i)) = true
  · rw [if_neg (by simp [h])]
    exact ⟨liftState_setLiftStat _ (by decide) (by decide) (by decide), liftRec_setLiftStat ..,
      (congrArg LiftX.inst ((liftX_congr (setLiftStat_lifts ..) i).trans (liftX_setLiftX _))).trans rfl⟩
  · rw [if_pos (by simpa using h)]
    exact ⟨rfl, rfl, rfl⟩

/-! ### Outcomes (R377, R396) -/

theorem pushDone_unasked {o late : Nat} (h : ebit (liftRec s i) 107 = false) : pushDone s i o late = s := if_pos (by simp [h])
theorem pushDone_room {o late : Nat} (h : ebit (liftRec s i) 107 = true) (hroom : s.bscFifo.length < 256) : pushDone s i o late =
    raise (setFld { s with bscFifo := s.bscFifo ++ [(i, o, liftGroup (liftRec s i), late)] } bscPage 0x118 8 0 (s.bscFifo.length + 1)) bscPage 0 := by
  unfold pushDone
  dsimp only
  rw [if_neg (by simp [h]), if_neg (Nat.not_le.mpr hroom)]
theorem pushDone_full {o late : Nat} (h : ebit (liftRec s i) 107 = true) (hfull : 256 ≤ s.bscFifo.length) :
    pushDone s i o late = raise (raise (setBit s bscPage 0x118 16 true) bscPage 5) bscPage 0 := by
  unfold pushDone
  dsimp only
  rw [if_neg (by simp [h]), if_pos hfull]
theorem pushDone_tabs {o late : Nat} : (pushDone s i o late).tabs = s.tabs := by
  cases h : ebit (liftRec s i) 107 with
  | false => rw [pushDone_unasked h]
  | true =>
    by_cases hroom : s.bscFifo.length < 256
    · rw [pushDone_room h hroom]
      simp
    · rw [pushDone_full h (Nat.not_lt.mp hroom)]
      simp

/-- What an outcome records of a lift in its status. -/
def noted (s : State) (i o late : Nat) : State :=
  let s := setLiftStat s i 7 4 o
  let s := if [1, 2, 4, 5, 8, 9].contains o then setLiftStat s i 23 8 (satAdd 16 (efld (liftStat s i) 23 8) 1) else s
  if o ≤ 3 then setLiftStat s i 55 24 (min late (2 ^ 32 - 1)) else s
theorem raised_tabs (c : Prop) [Decidable c] (p n src : Nat) : (if c then raise (inc t p n) p src else t).tabs = t.tabs := by
  split <;> simp
theorem raised_only_tabs (c : Prop) [Decidable c] (p src : Nat) : (if c then raise t p src else t).tabs = t.tabs := by
  split <;> simp
theorem outcome_tabs (o late : Nat) : (outcome s i o late).tabs = (noted s i o late).tabs := by
  unfold outcome
  dsimp only
  rw [pushDone_tabs, raised_only_tabs, raised_only_tabs, raised_only_tabs, raised_tabs, raised_tabs]
  rfl
theorem setLiftStat_if (c : Prop) [Decidable c] {hi lo : Nat} (n : Nat) (h : lo ≤ hi) (hw : hi < 1920) (hd : 7 < lo) :
    liftRec (if c then setLiftStat t i hi lo n else t) i = liftRec t i ∧ liftState (if c then setLiftStat t i hi lo n else t) i = liftState t i ∧
    efld (liftStat (if c then setLiftStat t i hi lo n else t) i) 7 4 = efld (liftStat t i) 7 4 := by
  split
  · refine ⟨liftRec_setLiftStat .., liftState_setLiftStat _ h hw (by omega), ?_⟩
    rw [liftStat_setLiftStat, efld_esetFld_apart _ _ h hw (.inl hd)]
  · exact ⟨rfl, rfl, rfl⟩
theorem outcome_shows {o : Nat} (late : Nat) (h : o < 16) : liftRec (outcome s i o late) i = liftRec s i ∧
    efld (liftStat (outcome s i o late) i) 7 4 = o := by
  rw [liftRec_congr (outcome_tabs o late), liftStat_congr (outcome_tabs o late)]
  unfold noted
  dsimp only
  obtain ⟨hrec, -, hout⟩ := setLiftStat_if (t := if ([1, 2, 4, 5, 8, 9].contains o) = true then setLiftStat (setLiftStat s i 7 4 o) i 23 8
      (satAdd 16 (efld (liftStat (setLiftStat s i 7 4 o) i) 23 8) 1) else setLiftStat s i 7 4 o) (i := i) (o ≤ 3) (hi := 55) (lo := 24)
      (min late (2 ^ 32 - 1)) (by decide) (by decide) (by decide)
  obtain ⟨hrec', -, hout'⟩ := setLiftStat_if (t := setLiftStat s i 7 4 o) (i := i) (([1, 2, 4, 5, 8, 9].contains o) = true) (hi := 23) (lo := 8)
      (satAdd 16 (efld (liftStat (setLiftStat s i 7 4 o) i) 23 8) 1) (by decide) (by decide) (by decide)
  constructor
  · rw [hrec, hrec', liftRec_setLiftStat]
  · rw [hout, hout', liftStat_setLiftStat, efld_esetFld_same _ _ (by decide) (by decide)]
    exact Nat.mod_eq_of_lt h

/-- R377: an occurrence of a single lift that stands for itself ends it. -/
theorem occurred_single {o : Nat} (late : Nat) (ho : o < 16) (hper : liftPeriod (liftRec s i) = 0) (hsolo : (liftX s i).solo = false)
    (hco : ebit (liftRec s i) 106 = false) :
    liftState (occurred s i o late) i = 4 ∧ efld (liftStat (occurred s i o late) i) 7 4 = o ∧ liftRec (occurred s i o late) i = liftRec s i := by
  have hown : (if o ≠ 1 then o else if (liftX s i).solo = true then 8 else if ebit (liftRec s i) 106 = true ∧ isPrimary s = true ∧
      (!(mapGet (fun _ => ({} : CoordGroup)) s.groups (liftGroup (liftRec s i))).confirmed) = true then 9 else 1) = o := by
    by_cases h : o = 1
    · rw [if_neg (not_not_intro h), if_neg (by simp [hsolo]), if_neg (by simp [hco]), h]
    · exact if_pos h
  have hocc : occurred s i o late = setLiftState (outcome s i o late) i 4 := by
    unfold occurred
    dsimp only
    rw [hown]
    unfold nextOccurrence
    dsimp only
    exact if_pos (.inl ((congrArg liftPeriod (outcome_shows late ho).1).trans hper))
  obtain ⟨hst, hrec, -, hout⟩ := setLiftState_parts (s := outcome s i o late) (i := i) 4 (by decide)
  rw [hocc, hst, hrec, hout, (outcome_shows late ho).1, (outcome_shows late ho).2]
  exact ⟨rfl, rfl, rfl⟩

end

end Sys2Proof.Machine
end

section
/-! PROOFS. A lift record committed through the table window (R64, R376). -/

namespace Sys2Proof.Machine

/-! ### Words of an entry -/

section
variable (x : Nat)

theorem sum_words (n : Nat) : ((List.range n).map (fun i => x / 2 ^ (32 * i) % 2 ^ 32 * 2 ^ (32 * i))).sum = x % 2 ^ (32 * n) := by
  induction n with
  | zero => simp [Nat.mod_one]
  | succ n ih =>
    rw [List.range_succ, List.map_append, List.sum_append, ih, List.map_singleton, List.sum_singleton, Nat.mul_succ, Nat.pow_add, Nat.mod_mul,
      Nat.mul_comm (x / 2 ^ (32 * n) % 2 ^ 32)]
/-- The words from the `n`th on lie above what the first `n` hold. -/
theorem sum_words_above (f : Nat → Nat) (n m : Nat) : ∃ k, ((List.range (n + m)).map (fun i => f i * 2 ^ (32 * i))).sum =
    ((List.range n).map (fun i => f i * 2 ^ (32 * i))).sum + 2 ^ (32 * n) * k := by
  induction m with
  | zero => exact ⟨0, rfl⟩
  | succ m ih =>
    obtain ⟨k, hk⟩ := ih
    refine ⟨k + f (n + m) * 2 ^ (32 * m), ?_⟩
    rw [← Nat.add_assoc n m 1, List.range_succ, List.map_append, List.sum_append, hk, List.map_singleton, List.sum_singleton, Nat.mul_add (2 ^ (32 * n)),
      Nat.add_assoc, Nat.mul_add 32, Nat.pow_add, Nat.mul_left_comm (2 ^ (32 * n))]
theorem testBit_words {f : Nat → Nat} {n m b : Nat} (h : ∀ i < n, f i = x / 2 ^ (32 * i) % 2 ^ 32) (hb : b < 32 * n) :
    (((List.range (n + m)).map (fun i => f i * 2 ^ (32 * i))).sum).testBit b = x.testBit b := by
  obtain ⟨k, hk⟩ := sum_words_above f n m
  have hlow : (List.range n).map (fun i => f i * 2 ^ (32 * i)) = (List.range n).map (fun i => x / 2 ^ (32 * i) % 2 ^ 32 * 2 ^ (32 * i)) :=
    List.map_congr_left fun i hi => by rw [h i (List.mem_range.mp hi)]
  rw [hk, hlow, sum_words, Nat.add_comm, Nat.testBit_two_pow_mul_add _ (Nat.mod_lt _ (Nat.two_pow_pos _)), if_pos hb, Nat.testBit_mod_two_pow,
    decide_eq_true hb, Bool.true_and]

end

theorem efld_congr {d e : Entry} {n : Nat} (h : ∀ b < n, ebit d b = ebit e b) {hi lo : Nat} (hhi : hi < n) : efld d hi lo = efld e hi lo := by
  refine Nat.eq_of_testBit_eq fun j => ?_
  rw [efld, efld, testBit_bitsOf, testBit_bitsOf]
  by_cases hj : j < hi + 1 - lo
  · exact congrArg _ (h (lo + j) (by omega))
  · simp [hj]

/-! ### A word of the window -/

theorem bsc_window : ∀ j < 12, regRow bscPage (0xF10 + 4 * j) = some (rowsRW 0xF10 60) ∧ isHigh bscPage (0xF10 + 4 * j) = false ∧
    isLow bscPage (0xF10 + 4 * j) = false := by decide +kernel
theorem bsc_command : regRow bscPage 0xF00 = some (rowRW 0xF00 0x1FFFFFFF) ∧ isHigh bscPage 0xF00 = false ∧ isLow bscPage 0xF00 = false ∧
    regRow bscPage 0xF04 = some { off := 0xF04, wo := 0x7 } ∧ isHigh bscPage 0xF04 = false ∧ isLow bscPage 0xF04 = false ∧
    (pageInfo bscPage).map (·.kind) = some .bsc := by decide +kernel
theorem bsc_tab : descOf bscPage 0 = some { n := 4096, width := 384, single := false } ∧ kindOf bscPage = some .bsc := by decide +kernel

section
variable {s : State} {r : Requester}

theorem lockedOut_free {p o : Nat} (h : rd s p 0xF0C = 0) : lockedOut s r p o = false := by simp [lockedOut, h]
/-- A word of the window that is no command is stored and does no more. -/
theorem regWrite_windowWord {o v : Nat} {row : RegRow} (h : opened s r bscPage o = true) (hfree : rd s bscPage 0xF0C = 0) (hlo : 0xF00 ≤ o)
    (hhi : o < 4096) (h4 : o ≠ 0xF04) (hC : o ≠ 0xF0C) (hrow : regRow bscPage o = some row) (hhigh : isHigh bscPage o = false)
    (hlow : isLow bscPage o = false) (hv : v < 2 ^ 32) : regWrite s r bscPage o v = { written s bscPage o v with resp := .done } := by
  obtain ⟨i, hi, hkind⟩ := Option.map_eq_some_iff.mp bsc_command.2.2.2.2.2.2
  rw [regWrite_opened v hhi h (lockedOut_free hfree) hC (by rw [hlow, Bool.false_and]) hhigh, Nat.mod_eq_of_lt hv, putWord_row hrow]
  refine responds ?_ _
  unfold effect
  dsimp only
  rw [if_neg (by omega), if_neg h4]
  simp only [hi, blockEffect, hkind]
  unfold bscEffect
  rw [if_neg (by omega), if_neg (by omega), if_neg (by omega)]
theorem regWrite_command {op : Nat} (h : opened s r bscPage 0xF04 = true) (hfree : rd s bscPage 0xF0C = 0) (hop : op < 8) :
    regWrite s r bscPage 0xF04 op = { tblGo (written s bscPage 0xF04 op) bscPage op with resp := .done } := by
  obtain ⟨-, -, -, hrow, hhigh, hlow, -⟩ := bsc_command
  rw [regWrite_opened op (by decide) h (lockedOut_free hfree) (by decide) (by rw [hlow, Bool.false_and]) hhigh, Nat.mod_eq_of_lt (by omega), putWord_row hrow]
  refine responds ?_ _
  unfold effect
  dsimp only
  rw [if_neg (by decide), if_pos rfl, if_neg (by decide)]
  refine congrArg (tblGo _ _) ?_
  have hw : ∀ op < 8, (op &&& all32 &&& (0 ||| 0 ||| 0 ||| 0 ||| 0x7)) % 8 = op := by decide
  exact hw op hop

/-- `t` is `s` but for the words of the window from `o` on. -/
structure WindowOnly (s t : State) (lo : Nat) : Prop where
  only : ∃ g b x, t = { s with regs := g, parBad := b, resp := x }
  keep : ∀ p o, o < 4096 → p ≠ bscPage ∨ o < lo → rd t p o = rd s p o

namespace WindowOnly
variable {t u : State} {lo : Nat}

theorem opens (h : WindowOnly s t lo) (p o : Nat) : opened t r p o = opened s r p o := by
  obtain ⟨g, b, x, rfl⟩ := h.only
  rfl
theorem parts (h : WindowOnly s t lo) : t.tabs = s.tabs ∧ t.lifts = s.lifts ∧ t.tblCmd = s.tblCmd := by
  obtain ⟨g, b, x, rfl⟩ := h.only
  exact ⟨rfl, rfl, rfl⟩
theorem trans (h : WindowOnly s t lo) (h' : WindowOnly t u lo) : WindowOnly s u lo := by
  obtain ⟨g, b, x, rfl⟩ := h.only
  obtain ⟨g', b', x', rfl⟩ := h'.only
  exact ⟨⟨g', b', x', rfl⟩, fun p o ho hp => (h'.keep p o ho hp).trans (h.keep p o ho hp)⟩
theorem answered (h : WindowOnly s t lo) (x : Response) : WindowOnly s { t with resp := x } lo := by
  obtain ⟨g, b, x', rfl⟩ := h.only
  exact ⟨⟨g, b, x, rfl⟩, h.keep⟩
end WindowOnly

theorem windowOnly_written {o lo : Nat} (v : Nat) (h : lo ≤ o) (ho : o < 4096) : WindowOnly s (written s bscPage o v) lo := by
  obtain ⟨g, b, hstore⟩ := storeWord_only s bscPage o v all32
  exact ⟨⟨g, b, s.resp, hstore⟩, fun p w hw hp => rd_storeWord_other _ _ _ _ _ _ _ (by omega)⟩

/-! ### The record is loaded -/

/-- The words of a record that a requester writes, one by one. -/
def loadWord (r : Requester) (x : Nat) (s : State) (i : Nat) : State := regWrite s r bscPage (0xF10 + 4 * i) (x / 2 ^ (32 * i) % 2 ^ 32)

theorem loadWords_hold {x : Nat} (hopen : ∀ o, 0xF00 ≤ o → o < 0xF40 → o % 4 = 0 → opened s r bscPage o = true) (hfree : rd s bscPage 0xF0C = 0) :
    ∀ {n : Nat}, n ≤ 12 → WindowOnly s (forEach s (List.range n) (loadWord r x)) 0xF10 ∧
      ∀ j < n, (rd (forEach s (List.range n) (loadWord r x)) bscPage (0xF10 + 4 * j)).toNat = x / 2 ^ (32 * j) % 2 ^ 32
  | 0, _ => ⟨⟨⟨s.regs, s.parBad, s.resp, rfl⟩, fun _ _ _ _ => rfl⟩, fun j hj => absurd hj (Nat.not_lt_zero j)⟩
  | n + 1, hn => by
    obtain ⟨honly, hword⟩ := loadWords_hold (x := x) hopen hfree (n := n) (by omega)
    obtain ⟨hrow, hhigh, hlow⟩ := bsc_window n (by omega)
    have hlt : x / 2 ^ (32 * n) % 2 ^ 32 < 2 ^ 32 := Nat.mod_lt _ (by decide)
    have hopen' : opened (forEach s (List.range n) (loadWord r x)) r bscPage (0xF10 + 4 * n) = true := by
      rw [honly.opens]
      exact hopen _ (by omega) (by omega) (by omega)
    have hstep : forEach s (List.range (n + 1)) (loadWord r x) = { written (forEach s (List.range n) (loadWord r x)) bscPage (0xF10 + 4 * n)
        (x / 2 ^ (32 * n) % 2 ^ 32) with resp := .done } := by
      unfold forEach
      rw [List.range_succ, List.foldl_append]
      exact regWrite_windowWord hopen' ((honly.keep _ _ (by decide) (.inr (by decide))).trans hfree)
        (by omega) (by omega) (by omega) (by omega) hrow hhigh hlow hlt
    rw [hstep]
    refine ⟨(honly.trans (windowOnly_written _ (by omega) (by omega))).answered _, fun j hj => ?_⟩
    by_cases hjn : j = n
    · subst hjn
      have hmod := rd_written_mod (s := forEach s (List.range j) (loadWord r x)) hrow (x / 2 ^ (32 * j) % 2 ^ 32) (Nat.le_refl 32)
        (by decide : ∀ b < 32, b < 32 → ((rowsRW 0xF10 60).rw ||| (rowsRW 0xF10 60).rws).testBit b = true)
      rw [Nat.mod_eq_of_lt (BitVec.isLt _), Nat.mod_eq_of_lt hlt] at hmod
      exact hmod
    · exact (congrArg BitVec.toNat (rd_written_off _ _ _ (by omega))).trans (hword j (by omega))

/-! ### The command (R376) -/

/-- The record's words as the window holds them. -/
theorem tblData_bits {x : Nat} (h : ∀ j < 12, (rd s bscPage (0xF10 + 4 * j)).toNat = x / 2 ^ (32 * j) % 2 ^ 32) {b : Nat} (hb : b < 384) :
    ebit (tblData s bscPage) b = x.testBit b := by
  unfold ebit tblData
  rw [BitVec.testBit_toNat, BitVec.getLsbD_ofNat, decide_eq_true (by omega), Bool.true_and]
  exact testBit_words x (n := 12) (m := 48) h hb
theorem ofNat_low {d : Entry} {w : BitVec 384} (h : ∀ b < 384, ebit d b = ebit (w.setWidth 1920) b) :
    BitVec.ofNat 1920 (d.toNat % 2 ^ 384) = w.setWidth 1920 := by
  refine BitVec.eq_of_getLsbD_eq fun b hb => ?_
  rw [BitVec.getLsbD_ofNat, decide_eq_true hb, Bool.true_and, Nat.testBit_mod_two_pow]
  by_cases hw : b < 384
  · rw [decide_eq_true hw, Bool.true_and]
    exact (h b hw).trans (BitVec.testBit_toNat _)
  · rw [decide_eq_false hw, Bool.false_and, BitVec.getLsbD_setWidth, BitVec.getLsbD_of_ge _ _ (Nat.not_lt.mp hw), Bool.and_false]

theorem groupLifts_congr {t : State} (h : t.tabs = s.tabs) (g : Nat) : groupLifts t g = groupLifts s g := by
  have hst : (fun i => liftLive t i && liftGroup (liftRec t i) == g) = fun i => liftLive s i && liftGroup (liftRec s i) == g :=
    funext fun i => by rw [liftLive, liftState_congr h, liftRec_congr h]; rfl
  rw [groupLifts, liftList, h, hst]
  rfl
theorem liftBad_congr {t : State} {d e : Entry} (htabs : t.tabs = s.tabs) (hpair : ∀ o < 4096, rd t spnPairPage o = rd s spnPairPage o)
    (h : ∀ b < 384, ebit d b = ebit e b) (i : Nat) : liftBad t i d = liftBad s i e := by
  have hf : ∀ hi lo, hi < 384 → efld d hi lo = efld e hi lo := fun hi lo hhi => efld_congr h hhi
  have hfields : groupFields d = groupFields e := by
    simp only [groupFields, liftTb, liftPeriod, hf 93 0 (by decide), hf 99 96 (by decide), hf 105 105 (by decide), hf 106 106 (by decide),
      hf 191 160 (by decide), hf 207 192 (by decide)]
  simp only [liftBad, groupLifts_congr htabs, liftRec_congr htabs, hfields, bitAt_congr (hpair 0x100 (by decide)), bitAt_congr (hpair 0x128 (by decide)),
    liftGroup, liftPeriod, liftAction, liftTarget, liftTb, hf 119 112 (by decide), hf 93 64 (by decide), hf 191 160 (by decide), hf 104 100 (by decide),
    hf 143 128 (by decide), hf 155 144 (by decide), hf 99 96 (by decide), h 106 (by decide)]
  rfl

/-- The machine as the command finds it: the record's words stand in the window. -/
structure Asked (s u : State) (i : Nat) (e : Entry) : Prop where
  only : WindowOnly s u 0xF00
  addr : (rd u bscPage 0xF00).toNat % 2 ^ 29 = i
  data : ∀ b < 384, ebit (tblData u bscPage) b = ebit e b
  idle : bitAt u bscPage 0xF08 0 = false

end

section
variable {s u : State} {i : Nat} {e : Entry} (h : Asked s u i e)
include h

theorem Asked.parts : tblIndex u bscPage (rd u bscPage 0xF00).toNat = i % 2 ^ 24 ∧ tblSel (rd u bscPage 0xF00).toNat = i / 2 ^ 24 % 16 ∧
    tblBank (rd u bscPage 0xF00).toNat = i / 2 ^ 28 % 2 := by
  have haddr := h.addr
  unfold tblIndex tblSel tblBank
  rw [if_neg (by rw [bsc_tab.2]; decide)]
  omega
/-- Why the command is refused. -/
theorem Asked.cause (hi : i < 4096) : tblCause u bscPage 2 (rd u bscPage 0xF00).toNat (tblData u bscPage) =
    if liftLive s i = true then 2 else if ebit e 383 = true ∧ liftBad s i e = true then 4 else 0 := by
  obtain ⟨hidx, hsel, hbank⟩ := h.parts
  obtain ⟨htab, hkind⟩ := bsc_tab
  obtain ⟨htabs, -, -⟩ := h.only.parts
  have hbad : liftBad u i (tblData u bscPage) = liftBad s i e :=
    liftBad_congr htabs (fun o ho => h.only.keep _ _ ho (.inl (by decide))) h.data i
  have hlive : liftLive u i = liftLive s i := by rw [liftLive, liftState_congr htabs]; rfl
  have hi0 : i % 2 ^ 24 = i := Nat.mod_eq_of_lt (by omega)
  rw [show i / 2 ^ 24 % 16 = 0 by omega] at hsel
  rw [show i / 2 ^ 28 % 2 = 0 by omega] at hbank
  rw [hi0] at hidx
  unfold tblCause
  simp only [hsel, htab, hidx, hbank]
  rw [if_neg (by simp [h.idle]), if_neg (by simp [indexOk, hkind, hi]), if_neg (by decide)]
  simp only [entryActive, hkind, hlive]
  by_cases hl : liftLive s i = true
  · rw [if_pos (by simp [hl]), if_pos hl]
  · rw [if_neg (by simp [hl]), if_neg hl, if_neg (by simp [entryBusy])]
    simp [isSnap, imageBad, hkind, hbad, h.data 383 (by decide)]

/-- A command that is not refused waits for its completion. -/
theorem Asked.accepted (hi : i < 4096) (hlive : liftLive s i = false) (hok : ebit e 383 = true → liftBad s i e = false) :
    tblGo u bscPage 2 = setBit { u with
      tblCmd := mapSet (fun _ => none) u.tblCmd bscPage (some { op := 2, addr := (rd u bscPage 0xF00).toNat, data := tblData u bscPage }) }
      bscPage 0xF08 0 true := by
  obtain ⟨-, hsel, -⟩ := h.parts
  have hcause := h.cause hi
  rw [if_neg (by simp [hlive]), if_neg (fun ⟨hv, hb⟩ => by rw [hok hv] at hb; cases hb)] at hcause
  unfold tblGo
  dsimp only
  rw [hcause, if_neg (by decide), hsel, show i / 2 ^ 24 % 16 = 0 by omega, bsc_tab.1]
omit h in
theorem tblGo_refused {c : Nat} (hcause : tblCause u bscPage 2 (rd u bscPage 0xF00).toNat (tblData u bscPage) = c) (hc : c ≠ 0) :
    tblGo u bscPage 2 = tblRefuse u bscPage c := by
  unfold tblGo
  dsimp only
  rw [hcause, if_pos hc]

end

/-- What software leaves when it has loaded a record and given the command. -/
def windowAsked (s : State) (r : Requester) (i x : Nat) : State :=
  written (forEach { written s bscPage 0xF00 i with resp := .done } (List.range 12) (loadWord r x)) bscPage 0xF04 2

theorem asked_of_loaded {s a t : State} {i x : Nat} {e : Entry} (hone : WindowOnly s a 0xF00) (honly : WindowOnly a t 0xF10)
    (haddr : (rd a bscPage 0xF00).toNat % 2 ^ 29 = i) (hbusy : bitAt a bscPage 0xF08 0 = false)
    (hword : ∀ j < 12, (rd t bscPage (0xF10 + 4 * j)).toNat = x / 2 ^ (32 * j) % 2 ^ 32) (hx : ∀ b < 384, x.testBit b = ebit e b) :
    Asked s (written t bscPage 0xF04 2) i e := by
  have hkeep : ∀ o, o ≠ 0xF04 → rd (written t bscPage 0xF04 2) bscPage o = rd t bscPage o := fun o ho => rd_written_off bscPage 0xF04 2 ho
  have hwide : WindowOnly a t 0xF00 := ⟨honly.only, fun p o ho hp => honly.keep p o ho (hp.imp_right fun h => by omega)⟩
  refine ⟨(hone.trans hwide).trans (windowOnly_written 2 (by decide) (by decide)), ?_, fun b hb => ?_, ?_⟩
  · rw [hkeep _ (by decide), honly.keep _ _ (by decide) (.inr (by decide))]
    exact haddr
  · refine (tblData_bits (x := x) (fun j hj => ?_) hb).trans (hx b hb)
    rw [hkeep _ (by omega)]
    exact hword j hj
  · rw [bitAt_congr ((hkeep 0xF08 (by decide)).trans (honly.keep _ _ (by decide) (.inr (by decide))))]
    exact hbusy

section
variable {s : State} {r : Requester} {i : Nat} {x : Nat} {e : Entry} (hopen : ∀ o, 0xF00 ≤ o → o < 0xF40 → o % 4 = 0 → opened s r bscPage o = true)
  (hfree : rd s bscPage 0xF0C = 0) (hidle : mapGet (fun _ => none) s.tblCmd bscPage = none) (hbusy : bitAt s bscPage 0xF08 0 = false) (hi : i < 4096)
include hopen hfree hi

theorem tblCommit_asked : tblCommand (forEach (regWrite s r bscPage 0xF00 i) (List.range 12) (loadWord r x)) r bscPage 2 =
    { tblGo (windowAsked s r i x) bscPage 2 with resp := .done } := by
  obtain ⟨hrow, hhigh, hlow, -⟩ := bsc_command
  have haddr := regWrite_windowWord (hopen 0xF00 (by decide) (by decide) (by decide)) hfree (by decide) (by decide) (by decide) (by decide) hrow hhigh hlow
    (show i < 2 ^ 32 by omega)
  have hone : WindowOnly s { written s bscPage 0xF00 i with resp := .done } 0xF00 :=
    (windowOnly_written i (Nat.le_refl _) (by decide)).answered _
  have hfree' : rd { written s bscPage 0xF00 i with resp := .done } bscPage 0xF0C = 0 := (rd_written_off bscPage 0xF00 i (by decide)).trans hfree
  obtain ⟨honly, -⟩ := loadWords_hold (x := x) (fun o h1 h2 h3 => (hone.opens _ _).trans (hopen o h1 h2 h3)) hfree' (Nat.le_refl 12)
  rw [haddr, tblCommand]
  exact regWrite_command ((honly.opens _ _).trans ((hone.opens _ _).trans (hopen _ (by decide) (by decide) (by decide))))
    ((honly.keep _ _ (by decide) (.inr (by decide))).trans hfree') (by decide)
include hbusy in
theorem windowAsked_holds (hx : ∀ b < 384, x.testBit b = ebit e b) : Asked s (windowAsked s r i x) i e := by
  have hone : WindowOnly s { written s bscPage 0xF00 i with resp := .done } 0xF00 :=
    (windowOnly_written i (Nat.le_refl _) (by decide)).answered _
  have hoff : ∀ o, o ≠ 0xF00 → rd { written s bscPage 0xF00 i with resp := .done } bscPage o = rd s bscPage o := fun o ho =>
    rd_written_off bscPage 0xF00 i ho
  obtain ⟨honly, hword⟩ := loadWords_hold (x := x) (fun o h1 h2 h3 => (hone.opens _ _).trans (hopen o h1 h2 h3)) ((hoff _ (by decide)).trans hfree) (Nat.le_refl 12)
  have hmask : ∀ b < 32, b < 29 → ((rowRW 0xF00 0x1FFFFFFF).rw ||| (rowRW 0xF00 0x1FFFFFFF).rws).testBit b = true := by decide
  have haddr : (rd { written s bscPage 0xF00 i with resp := .done } bscPage 0xF00).toNat % 2 ^ 29 = i :=
    (rd_written_mod (s := s) bsc_command.1 i (n := 29) (by decide) hmask).trans (Nat.mod_eq_of_lt (by omega))
  have hstat : bitAt { written s bscPage 0xF00 i with resp := .done } bscPage 0xF08 0 = false := (bitAt_congr (hoff 0xF08 (by decide)) 0).trans hbusy
  exact asked_of_loaded hone honly haddr hstat hword hx

include hbusy hidle

/-- A command that is refused leaves the lifts alone and shows why. -/
theorem liftArm_refused {c : Nat} (hc : c < 8) (h0 : c ≠ 0)
    (hcause : (if liftLive s i = true then 2 else if ebit e 383 = true ∧ liftBad s i e = true then 4 else 0) = c) :
    ∃ t, tblCommit s r bscPage i 12 e = t ∧ t.tabs = s.tabs ∧ t.lifts = s.lifts ∧ fld t bscPage 0xF08 5 3 = c ∧
      bitAt t bscPage 0xF08 2 = true ∧ bitAt t bscPage 0x020 30 = true := by
  have hask := windowAsked_holds (x := e.toNat) (e := e) hopen hfree hbusy hi fun b _ => rfl
  obtain ⟨htabs, hlifts, hcmd⟩ := hask.only.parts
  have hgo := tblGo_refused ((hask.cause hi).trans hcause) h0
  generalize hu : windowAsked s r i e.toNat = u at *
  refine ⟨{ tblRefuse u bscPage c with resp := .done }, ?_, ?_, ?_, ?_, ?_, ?_⟩
  · have hnone : mapGet (fun _ => none) (tblRefuse u bscPage c).tblCmd bscPage = none := by
      rw [show (tblRefuse u bscPage c).tblCmd = u.tblCmd by simp [tblRefuse], hcmd, hidle]
    have hcommand := tblCommit_asked (x := e.toNat) hopen hfree hi
    rw [hu, hgo] at hcommand
    unfold tblCommit
    dsimp only
    rw [show (fun (s : State) (i : Nat) => regWrite s r bscPage (0xF10 + 4 * i) (e.toNat / 2 ^ (32 * i) % 2 ^ 32)) = loadWord r e.toNat from rfl,
      hcommand]
    dsimp only
    rw [hnone, if_neg (by simp)]
  · exact (show (tblRefuse u bscPage c).tabs = u.tabs by simp [tblRefuse]).trans htabs
  · exact (show (tblRefuse u bscPage c).lifts = u.lifts by simp [tblRefuse]).trans hlifts
  · have hshow : fld (tblRefuse u bscPage c) bscPage 0xF08 5 3 = c % 2 ^ (5 + 1 - 3) :=
      (fld_congr (rd_raise _ bscPage 30 0 c 0 bscPage 0xF08 (.inr (by decide))) 5 3).trans (fld_setFld_same _ _ _ _ _ _ (by decide) (by decide))
    exact hshow.trans (Nat.mod_eq_of_lt hc)
  · refine (bitAt_raise_off _ bscPage 30 0 c 0 (q := bscPage) (o := 0xF08) (.inr (by decide)) 2).trans ?_
    rw [bitAt_setFld _ _ _ _ _ _ _ _ _ (by decide) (by decide), if_neg (by omega)]
    exact bitAt_setBit_same _ _ _ _ (by decide)
  · exact (bitAt_raise_cause _ bscPage 30 0 c 0 30 (by decide)).trans rfl

end

/-! ### The record is taken (R376, R377) -/

/-- The times of a lift that is taken anew. -/
def freshX (e : Entry) : LiftX :=
  { inst := liftInst e, left := if liftPeriod e ≠ 0 ∧ efld e 207 192 = 0 then none else some (if liftPeriod e = 0 then 0 else efld e 207 192) }
/-- A record stands in its table, with an empty status. -/
def recorded (s : State) (i : Nat) (e : Entry) : State := setLiftX (tset (tset s bscPage 0 0 i e) bscPage 1 0 i 0) i (freshX e)

section
variable {s : State} {i : Nat} {e : Entry}

theorem setLiftX_tabs (x : LiftX) : (setLiftX s i x).tabs = s.tabs := rfl
theorem recorded_parts : liftRec (recorded s i e) i = e ∧ liftX (recorded s i e) i = freshX e := by
  unfold recorded
  refine ⟨(liftRec_congr (setLiftX_tabs _) i).trans ?_, liftX_setLiftX _⟩
  rw [liftRec_tset_status, liftRec_tset]
theorem liftCommit_taken (hlive : liftLive s i = false) (hv : ebit e 383 = true) (hok : liftBad s i e = false) :
    liftCommit s i e = (0, if ebit e 106 = true then setLiftState (recorded s i e) i 2 else arm (recorded s i e) i) :=
  (if_neg (by simp [hlive])).trans ((if_neg (by simp [hv])).trans (if_neg (by simp [hok])))
theorem taken_shows {t : State} (h : t = if ebit e 106 = true then setLiftState (recorded s i e) i 2 else arm (recorded s i e) i) :
    liftRec t i = e ∧ liftState t i = (if ebit e 106 = true then 2 else 1) ∧ (liftX t i).inst = liftInst e := by
  obtain ⟨hrec, hx⟩ := recorded_parts (s := s) (i := i) (e := e)
  subst h
  by_cases h : ebit e 106 = true
  · obtain ⟨hst, hrec', hx', -⟩ := setLiftState_parts (s := recorded s i e) (i := i) 2 (by decide)
    rw [if_pos h, if_pos h, hst, hrec', hx', hrec, hx]
    exact ⟨rfl, rfl, rfl⟩
  · obtain ⟨hst, hrec', hx', -⟩ := setLiftState_parts (s := recorded s i e) (i := i) 1 (by decide)
    obtain ⟨hst', hrec'', hx''⟩ := aim_parts (s := setLiftState (recorded s i e) i 1) (i := i)
    rw [if_neg h, if_neg h, arm, hst', hrec'', hx'', hst, hrec', hx', hrec, hx]
    exact ⟨rfl, rfl, rfl⟩

end

/-- The end of a command on a record of the lifts (R376). -/
theorem tblRun_lift {s : State} {i : Nat} {w : BitVec 384} {c : TblCmd} (hop : c.op = 2) (hidx : tblIndex s bscPage c.addr = i) (hsel : tblSel c.addr = 0)
    (hdata : ∀ b < 384, ebit c.data b = ebit (w.setWidth 1920) b) (hlive : liftLive s i = false) (hv : ebit (w.setWidth 1920) 383 = true)
    (hok : liftBad s i (w.setWidth 1920) = false) : tblRun s bscPage c =
      if ebit (w.setWidth 1920) 106 = true then setLiftState (recorded s i (w.setWidth 1920)) i 2 else arm (recorded s i (w.setWidth 1920)) i := by
  obtain ⟨htab, hkind⟩ := bsc_tab
  have hput : ∀ bank, entryPut s bscPage 0 bank i (w.setWidth 1920) = ((liftCommit s i (w.setWidth 1920)).1 == 0, (liftCommit s i (w.setWidth 1920)).2) :=
    fun bank => by
      simp only [entryPut, hkind]
  unfold tblRun
  rw [hsel, htab]
  dsimp only
  rw [hop, if_neg (by decide), if_neg (by simp [isSnap]), hidx,
    show (if (2 : Nat) = 3 then (0 : Entry) else BitVec.ofNat 1920 (c.data.toNat % 2 ^ 384)) = w.setWidth 1920 from (if_neg (by decide)).trans (ofNat_low hdata),
    hput, liftCommit_taken hlive hv hok]
  exact if_pos rfl

/-- The window once a command of it is over. -/
def commandOver (s : State) : State :=
  setBit (setBit { s with tblCmd := mapSet (fun _ => none) s.tblCmd bscPage none, resp := .done } bscPage 0xF08 0 false) bscPage 0xF08 1 true
theorem commandOver_tabs (s : State) : (commandOver s).tabs = s.tabs := by simp [commandOver]
theorem rd_setBit_page {p q w : Nat} (s : State) (b : Nat) (v : Bool) (h : q ≠ p) (hw : w < 4096) : rd (setBit s p 0xF08 b v) q w = rd s q w :=
  rd_setBit_key _ _ _ _ _ _ _ (by omega)
theorem rd_commandOver (s : State) {q w : Nat} (h : q ≠ bscPage) (hw : w < 4096) : rd (commandOver s) q w = rd s q w :=
  (rd_setBit_page _ _ _ h hw).trans (rd_setBit_page _ _ _ h hw)

section
variable {s : State} {r : Requester} {i : Nat} {w : BitVec 384} (hopen : ∀ o, 0xF00 ≤ o → o < 0xF40 → o % 4 = 0 → opened s r bscPage o = true)
  (hfree : rd s bscPage 0xF0C = 0) (hidle : mapGet (fun _ => none) s.tblCmd bscPage = none) (hbusy : bitAt s bscPage 0xF08 0 = false) (hi : i < 4096)
include hopen hfree hidle hbusy hi

/-- R376, R377: a record that nothing refuses is taken. -/
theorem liftArm_taken (hlive : liftLive s i = false) (hv : ebit (w.setWidth 1920) 383 = true) (hok : liftBad s i (w.setWidth 1920) = false) :
    ∃ t, tblCommit s r bscPage i 12 (w.setWidth 1920) = t ∧ liftRec t i = w.setWidth 1920 ∧
      liftState t i = (if ebit (w.setWidth 1920) 106 then 2 else 1) ∧ (liftX t i).inst = liftInst (w.setWidth 1920) := by
  have hask := windowAsked_holds (x := (w.setWidth 1920).toNat) (e := w.setWidth 1920) hopen hfree hbusy hi fun b _ => rfl
  have hgo := hask.accepted hi hlive fun _ => hok
  have hcommand := tblCommit_asked (x := (w.setWidth 1920).toNat) hopen hfree hi
  obtain ⟨hidx, hsel, -⟩ := hask.parts
  obtain ⟨htabs, -, -⟩ := hask.only.parts
  generalize windowAsked s r i (w.setWidth 1920).toNat = u at *
  let c : TblCmd := { op := 2, addr := (rd u bscPage 0xF00).toNat, data := tblData u bscPage }
  have hcmd : mapGet (fun _ => none) (tblGo u bscPage 2).tblCmd bscPage = some c := by
    rw [hgo, show (setBit { u with tblCmd := mapSet (fun _ => none) u.tblCmd bscPage (some c) } bscPage 0xF08 0 true).tblCmd =
      mapSet (fun _ => none) u.tblCmd bscPage (some c) by simp]
    exact mapGet_mapSet_same ..
  refine ⟨_, rfl, ?_⟩
  have hdone : ∀ z : State, z = commandOver (tblGo u bscPage 2) →
      tblCommit s r bscPage i 12 (w.setWidth 1920) = tblRun z bscPage c := fun z hz => by
    subst hz
    unfold tblCommit
    dsimp only
    rw [show (fun (s : State) (i : Nat) => regWrite s r bscPage (0xF10 + 4 * i) ((w.setWidth 1920).toNat / 2 ^ (32 * i) % 2 ^ 32)) =
      loadWord r (w.setWidth 1920).toNat from rfl, hcommand]
    dsimp only
    rw [hcmd, hidle]
    refine (if_pos rfl).trans ?_
    unfold tblDone
    rw [hcmd]
    rfl
  generalize hz : commandOver (tblGo u bscPage 2) = z at *
  have hztabs : z.tabs = s.tabs := by
    rw [← hz, commandOver_tabs, hgo, ← htabs]
    simp
  have hzpair : ∀ o < 4096, rd z spnPairPage o = rd s spnPairPage o := fun o ho => by
    rw [← hz, rd_commandOver _ (by decide) ho, hgo, rd_setBit_page _ _ _ (by decide) ho]
    exact hask.only.keep _ _ ho (.inl (by decide))
  have hzidx : tblIndex z bscPage c.addr = i := by
    rw [show tblIndex z bscPage c.addr = tblIndex u bscPage c.addr by unfold tblIndex; rw [if_neg (by rw [bsc_tab.2]; decide), if_neg (by rw [bsc_tab.2]; decide)]]
    exact hidx.trans (Nat.mod_eq_of_lt (by omega))
  have hzlive : liftLive z i = false := by
    rw [← hlive, liftLive, liftState_congr hztabs]
    rfl
  rw [hdone z rfl]
  exact taken_shows (tblRun_lift rfl hzidx (hsel.trans (by omega)) hask.data hzlive hv ((liftBad_congr hztabs hzpair (fun _ _ => rfl) i).trans hok))

end

end Sys2Proof.Machine
end

section
/-! PROOFS. Lifts: dispatch, launch, their actions and the done FIFO (R382, R385, R396). -/

namespace Sys2Proof.Machine

section
variable {s : State} {i : Nat}

/-! ### Dispatch (R382) -/

theorem dispatch_armed (hst : liftState s i = 1) (hen : bitAt s bscPage 0x100 0 = true) (htb : tbValid s (liftTb (liftRec s i)) = true)
    (hdue : (liftX s i).launch ≤ now s + usUnits 2) (hrun : s.mode = .run) : dispatch s i =
      if (liftX s i).launch < now s ∧ ebit (liftRec s i) 105 = true then occurred s i 3 (lateNs s (liftX s i).launch)
      else if s.dispatchAt = some (now s) ∨ (liftList s).any (dispatchedBefore s i) = true ∨ 16 ≤ slotsUsed s (liftTarget (liftRec s i)) then s
      else setLiftState (setLiftX { s with dispatchAt := some (now s) } i { liftX s i with late := decide ((liftX s i).launch < now s) }) i 3 := by
  unfold dispatch
  dsimp only
  rw [if_neg (by omega), if_neg (by simp [hst, hen, htb, hrun]; omega)]
  simp only [decide_eq_true_eq]
theorem dispatch_early (hst : liftState s i = 1) (h : bitAt s bscPage 0x100 0 = false ∨ tbValid s (liftTb (liftRec s i)) = false ∨
    now s + usUnits 2 < (liftX s i).launch) : dispatch s i = s := by
  unfold dispatch
  dsimp only
  rw [if_neg (by omega), if_pos]
  rcases h with h | h | h
  · simp [h]
  · simp [h]
  · exact .inr (.inr (.inr (.inl h)))

/-! ### Launch (R382, R385) -/

section
variable {t : State} (hst : liftState s i = 3) (hwait : (liftX s i).waiting = false) (hdue : (liftX s i).launch ≤ now s) (hrun : s.mode = .run)
include hst hwait hdue hrun

theorem launch_ready : ¬(liftState s i ≠ 3 ∨ (liftX s i).waiting = true ∨ now s < (liftX s i).launch ∨ (s.mode != .run) = true) := by
  simp [hst, hwait, hrun]
  omega
theorem launch_untargeted (h : noTarget s (liftTarget (liftRec s i)) = true) : launch s i = occurred (recallLift (launched s i) i) i 5 0 :=
  (if_neg (launch_ready hst hwait hdue hrun)).trans (if_pos h)
theorem launch_missed (h : noTarget s (liftTarget (liftRec s i)) = false) (hlate : (liftX s i).late = true) (hdrop : ebit (liftRec s i) 105 = true) :
    launch s i = occurred (recallLift s i) i 3 (lateNs s (liftX s i).launch) :=
  (if_neg (launch_ready hst hwait hdue hrun)).trans ((if_neg (by rw [h]; decide)).trans (if_pos ⟨hlate, hdrop⟩))

section
variable (h : noTarget s (liftTarget (liftRec s i)) = false) (hgo : (liftX s i).late = false ∨ ebit (liftRec s i) 105 = false)
include h hgo

theorem launch_done (hp : perform s i = (some true, t)) : launch s i =
    if (liftX s i).late then occurred (launched t i) i 2 (lateNs s (liftX s i).launch) else occurred (launched t i) i 1 0 := by
  unfold launch
  dsimp only
  rw [if_neg (launch_ready hst hwait hdue hrun), if_neg (by rw [h]; decide), if_neg (by rcases hgo with hg | hg <;> simp [hg]), hp]
theorem launch_refused (hp : perform s i = (some false, t)) : launch s i = occurred (recallLift (launched t i) i) i 4 0 := by
  unfold launch
  dsimp only
  rw [if_neg (launch_ready hst hwait hdue hrun), if_neg (by rw [h]; decide), if_neg (by rcases hgo with hg | hg <;> simp [hg]), hp]
theorem launch_held (hp : perform s i = (none, t)) : launch s i = t := by
  unfold launch
  dsimp only
  rw [if_neg (launch_ready hst hwait hdue hrun), if_neg (by rw [h]; decide), if_neg (by rcases hgo with hg | hg <;> simp [hg]), hp]

end

end

theorem launchNoted_other (h : liftAction (liftRec s i) ≠ 5) : launchNoted s i = launch s i := if_neg fun hc => h hc.1

theorem launchNoted_sa (h : liftAction (liftRec s i) = 5) : launchNoted s i =
    if tget (launch s i) (liftTarget (liftRec s i)) 0 0 (efld (liftRec s i) 319 256 % 128) ≠ tget s (liftTarget (liftRec s i)) 0 0 (efld (liftRec s i) 319 256 % 128)
    then tell (launch s i) 9 0x80 [liftTarget (liftRec s i), efld (liftRec s i) 319 256 % 128, efld (liftRec s i) 319 256 / 128 % 2] else launch s i := by
  unfold launchNoted
  dsimp only
  simp only [h, true_and]

/-! ### What an action does (R378) -/

theorem perform_write (h : liftAction (liftRec s i) = 0) : perform s i = (some true, liftWrite s (liftTarget (liftRec s i)) (efld (liftRec s i) 155 144)
    (efld (liftRec s i) 319 256 % 2 ^ 32) (efld (liftRec s i) 255 224)) := by
  unfold perform
  simp only [h]
theorem perform_swap (h : liftAction (liftRec s i) = 2 ∨ liftAction (liftRec s i) = 3 ∨ liftAction (liftRec s i) = 4) : perform s i =
    if (bankOfPage s (liftTarget (liftRec s i))).retiring then (some false, swapRefused s (liftTarget (liftRec s i)))
    else (some true, swapMade s (liftTarget (liftRec s i))) := by
  have hswap : perform s i = (some (liftSwap s (liftTarget (liftRec s i))).1, (liftSwap s (liftTarget (liftRec s i))).2) := by
    unfold perform
    rcases h with h | h | h <;> simp only [h]
  rw [hswap, liftSwap]
  split <;> rfl
theorem perform_sa (h : liftAction (liftRec s i) = 5) : perform s i = (some true, tset s (liftTarget (liftRec s i)) 0 0 (efld (liftRec s i) 319 256 % 128)
    (esetFld (tget s (liftTarget (liftRec s i)) 0 0 (efld (liftRec s i) 319 256 % 128)) 78 78 (efld (liftRec s i) 319 256 / 128))) := by
  unfold perform
  simp only [h]
theorem perform_hold (h : liftAction (liftRec s i) = 9) (hq : marked s (efld (liftRec s i) 319 256 % 1024) = true) : perform s i =
    (some true, setCq (custodyDown s (efld (liftRec s i) 319 256 % 1024)) (efld (liftRec s i) 319 256 % 1024)
      { cqOf (custodyDown s (efld (liftRec s i) 319 256 % 1024)) (efld (liftRec s i) 319 256 % 1024) with lifted := true }) := by
  unfold perform
  simp only [h]
  rw [liftHold, if_neg (by simp [hq])]
theorem perform_step_locked (h : liftAction (liftRec s i) = 11) (hlock : stepLocked s (liftTarget (liftRec s i) % 4096 - 0x10) = true) :
    perform s i = (some false, stepRefused s (liftTarget (liftRec s i) % 4096 - 0x10)) := by
  unfold perform
  simp only [h]
  exact if_pos hlock
theorem perform_pulse_refused (h : liftAction (liftRec s i) = 12) (hmode : fld s tioPage (tioOff (efld (liftRec s i) 319 256 % 4)) 2 0 ≠ 5) :
    perform s i = (some false, s) := by
  unfold perform
  simp only [h]
  exact if_neg hmode

end

/-! ### The done FIFO (R396) -/

/-- A read of BSC_DONE takes the oldest completion out. -/
theorem readWord_done (s : State) (id : Nat) : readWord s id bscPage 0x110 = (BitVec.ofNat 32 (popDone s).1, clearRC (popDone s).2 bscPage 0x110 all32) := by
  have hrow : hasConfig bscPage 0x110 = false ∧ isHigh bscPage 0x110 = false ∧ isLow bscPage 0x110 = false ∧ kindOf bscPage = some .bsc := by decide +kernel
  obtain ⟨hcfg, hhigh, hlow, hkind⟩ := hrow
  have hpar : parCheck s bscPage 0x110 = s := by
    unfold parCheck
    rw [hcfg, Bool.false_and, if_neg Bool.false_ne_true]
  have hpop : readPop s bscPage 0x110 = s := by
    unfold readPop
    rw [hkind]
  have htake : take s id bscPage 0x110 = (BitVec.ofNat 32 (popDone s).1, (popDone s).2) := by
    unfold take
    exact if_pos ⟨hkind, rfl⟩
  unfold readWord
  rw [hpar, hpop]
  simp only [hhigh, hlow, Bool.false_eq_true, if_false, htake]

end Sys2Proof.Machine

namespace Sys2Proof
open Sys2Proof.Machine

/-- Settles O47: a record is taken through the window; dispatch and launch go by the lift's state, target, lateness and action. -/
theorem liftsArmDispatchAndLaunch : Obligations.LiftsArmDispatchAndLaunch := by
  unfold Obligations.LiftsArmDispatchAndLaunch
  refine ⟨fun s r i w hopen hfree hidle hbusy hlive hv hok => ?_, fun s r i w hopen hfree hidle hbusy hlive hv hbad => ?_,
    fun s r i w hopen hfree hidle hbusy hlive => ?_, ?_, fun s i hst h => completes (dispatch_early hst h), fun s i hst hsec hdue => completes ?_, ?_, ?_,
    fun s i o late ho hper hsolo hco => occurred_single late ho hper hsolo hco, fun s i o late h hroom => ?_, fun s i o late h hfull => ?_,
    fun s r h => completes ((busRead_opened rfl (by decide) h).trans (by rw [readWord_done]))⟩
  · obtain ⟨t, ht, hshow⟩ := liftArm_taken hopen hfree hidle hbusy i.isLt hlive hv hok
    exact ⟨t, completes ht, hshow⟩
  · obtain ⟨t, ht, hshow⟩ := liftArm_refused hopen hfree hidle hbusy i.isLt (c := 4) (by decide) (by decide)
      ((if_neg (by simp [hlive])).trans (if_pos ⟨hv, hbad⟩))
    exact ⟨t, completes ht, hshow⟩
  · obtain ⟨t, ht, hshow⟩ := liftArm_refused hopen hfree hidle hbusy i.isLt (c := 2) (e := w.setWidth 1920) (by decide) (by decide) (if_pos hlive)
    exact ⟨t, completes ht, hshow⟩
  · rintro s i e x rfl rfl hst hen htb hdue hrun
    have hgo := dispatch_armed hst hen htb hdue hrun
    refine ⟨fun hlate hdrop => completes (hgo.trans (if_pos ⟨hlate, hdrop⟩)), fun hkeep => ?_⟩
    have hnot : ¬((liftX s i.toNat).launch < now s ∧ ebit (liftRec s i.toNat) 105 = true) := fun ⟨hlate, hdrop⟩ =>
      hkeep.elim (fun h => absurd hlate (Nat.not_lt.mpr h)) fun h => by rw [h] at hdrop; cases hdrop
    refine ⟨fun hcycle hfirst hslots => completes (hgo.trans ((if_neg hnot).trans (if_neg ?_))), fun h => completes (hgo.trans ((if_neg hnot).trans (if_pos h)))⟩
    rintro (h | h | h)
    · exact hcycle h
    · rw [hfirst] at h; cases h
    · omega
  · exact (if_pos hst).trans (if_pos ⟨by rw [hsec]; rfl, hdue⟩)
  · rintro s i e x rfl rfl hst hwait hdue hrun
    refine ⟨fun hno h5 => completes ((launchNoted_other h5).trans (launch_untargeted hst hwait hdue hrun hno)),
      fun hyes hlate hdrop h5 => completes ((launchNoted_other h5).trans (launch_missed hst hwait hdue hrun hyes hlate hdrop)),
      fun hyes hgo h5 t => ⟨fun hp => completes ((launchNoted_other h5).trans (launch_done hst hwait hdue hrun hyes hgo hp)),
        fun hp => completes ((launchNoted_other h5).trans (launch_refused hst hwait hdue hrun hyes hgo hp)),
        fun hp => completes ((launchNoted_other h5).trans (launch_held hst hwait hdue hrun hyes hgo hp))⟩, ?_⟩
    rintro hyes hlate h5 c t u rfl rfl rfl
    have hl := launch_done hst hwait hdue hrun hyes (.inl hlate) (perform_sa h5)
    rw [if_neg (by rw [hlate]; decide)] at hl
    refine completes ((launchNoted_sa h5).trans ?_)
    rw [hl]
  · rintro s i p e rfl rfl
    exact ⟨perform_write, perform_swap, perform_hold, perform_step_locked, perform_pulse_refused⟩
  · rw [pushDone_room h hroom]
    exact ⟨by simp, (bitAt_raise_cause _ bscPage 0 0 0 0 0 (by decide)).trans rfl⟩
  · rw [pushDone_full h hfull]
    refine ⟨by simp, ?_, ?_⟩
    · rw [bitAt_raise_off _ bscPage 0 0 0 0 (q := bscPage) (o := 0x118) (.inr (by decide)), bitAt_raise_off _ bscPage 5 0 0 0 (q := bscPage) (o := 0x118) (.inr (by decide))]
      exact bitAt_setBit_same _ _ _ _ (by decide)
    · rw [bitAt_raise_cause _ bscPage 0 0 0 0 5 (by decide), bitAt_raise_cause _ bscPage 5 0 0 0 5 (by decide)]
      rfl

end Sys2Proof
end

section
/-! PROOFS. Lifts: cancellation and the agreement of coordinated groups (R389, R391 to R394). -/

namespace Sys2Proof.Machine

section
variable {s t : State}

/-! ### The command registers of Bascule -/

theorem bsc_rows : (regRow bscPage 0x108).any (fun row => !row.wide && (row.rw ||| row.rws ||| row.w1c ||| row.w1s ||| row.wo).testBit 31) = true ∧
    isHigh bscPage 0x108 = false ∧
    (regRow bscPage 0x124).any (fun row => !row.wide && (row.rw ||| row.rws ||| row.w1c ||| row.w1s ||| row.wo).testBit 31 &&
      (List.range 8).all (fun b => (row.rw ||| row.rws).testBit b)) = true ∧
    isHigh bscPage 0x124 = false := by decide +kernel

theorem or_top_lt (v : Word) : v.toNat ||| 2 ^ 31 < 2 ^ 32 := Nat.or_lt_two_pow v.isLt (by decide)
theorem or_top_31 (v : Word) : (v.toNat ||| 2 ^ 31).testBit 31 = true := by
  rw [Nat.testBit_or]
  exact (congrArg _ (by decide : (2 ^ 31).testBit 31 = true)).trans (Bool.or_true _)

theorem regWrite_cancel {r : Requester} (h : opened s r bscPage 0x108 = true) (v : Word) : regWrite s r bscPage 0x108 (v.toNat ||| 2 ^ 31) =
    { cancelGo (written s bscPage 0x108 (v.toNat ||| 2 ^ 31)) with resp := .done } := by
  obtain ⟨hany, hhigh, -⟩ := bsc_rows
  obtain ⟨row, hrow, hbits⟩ := (Option.any_eq_true _ _).mp hany
  simp only [Bool.and_eq_true, Bool.not_eq_true'] at hbits
  obtain ⟨hwide, htop⟩ := hbits
  obtain ⟨i, hi, hkind⟩ := Option.map_eq_some_iff.mp bsc_command.2.2.2.2.2.2
  rw [regWrite_block h hi hrow (by decide) (by decide) hwide hhigh (or_top_lt v)]
  refine responds ?_ _
  simp only [blockEffect, hkind]
  refine (if_neg (by decide)).trans ((if_pos rfl).trans (if_pos ?_))
  rw [bitOf_reached (or_top_lt v), or_top_31, htop]
  rfl
theorem regWrite_announce {r : Requester} (h : opened s r bscPage 0x124 = true) (v : Word) : regWrite s r bscPage 0x124 (v.toNat ||| 2 ^ 31) =
    { announceGroup (written s bscPage 0x124 (v.toNat ||| 2 ^ 31)) (v.toNat % 256) with resp := .done } := by
  obtain ⟨-, -, hany, hhigh⟩ := bsc_rows
  obtain ⟨row, hrow, hbits⟩ := (Option.any_eq_true _ _).mp hany
  simp only [Bool.and_eq_true, Bool.not_eq_true'] at hbits
  obtain ⟨⟨hwide, htop⟩, hlow⟩ := hbits
  obtain ⟨i, hi, hkind⟩ := Option.map_eq_some_iff.mp bsc_command.2.2.2.2.2.2
  have hgroup : (rd (written s bscPage 0x124 (v.toNat ||| 2 ^ 31)) bscPage 0x124).toNat % 256 = v.toNat % 256 := by
    refine (rd_written_mod (s := s) hrow _ (n := 8) (by decide) fun b _ hb => List.all_eq_true.mp hlow b (List.mem_range.mpr hb)).trans ?_
    have : (2 ^ 31 % 2 ^ 8 : Nat) = 0 := by decide
    rw [Nat.or_mod_two_pow, this, Nat.or_zero]
  rw [regWrite_block h hi hrow (by decide) (by decide) hwide hhigh (or_top_lt v)]
  refine responds ?_ _
  simp only [blockEffect, hkind]
  refine (if_neg (by decide)).trans ((if_neg (by decide)).trans ((if_pos rfl).trans ((if_pos ?_).trans (by rw [hgroup]))))
  rw [bitOf_reached (or_top_lt v), or_top_31, htop]
  rfl

/-! ### Cancellation of one lift (R389) -/

section
variable {i : Nat} (hone : bitAt s bscPage 0x108 20 = false) (hi : fld s bscPage 0x108 11 0 = i)
include hone hi

theorem cancelGo_idle (h : liftLive s i = false) : cancelGo s = setBit s bscPage 0x10C 2 true := by
  unfold cancelGo
  simp only [hone, hi, h, Bool.false_eq_true, if_false, cancelEnd]
theorem cancelGo_armed (hst : liftState s i = 1) (hco : ebit (liftRec s i) 106 = false) : cancelGo s = setBit (endLift s i 6) bscPage 0x10C 0 true := by
  have hlive : liftLive s i = true := by simp [liftLive, hst]
  unfold cancelGo
  simp only [hone, hi, hlive, Bool.false_eq_true, if_false, if_true]
  rw [if_neg (by simp [hst]), if_pos (by simp [hco]), cancelEnd, forEach, List.foldl_cons, List.foldl_nil]
theorem cancelGo_late (hst : liftState s i = 3) (hwait : (liftX s i).waiting = false) (hnear : (liftX s i).launch < now s + 256) :
    cancelGo s = setBit s bscPage 0x10C 1 true := by
  have hlive : liftLive s i = true := by simp [liftLive, hst]
  unfold cancelGo
  simp only [hone, hi, hlive, Bool.false_eq_true, if_false, if_true]
  exact if_pos (by simp [hst, hwait, hnear])

end

/-! ### Agreement (R391 to R394) -/

theorem coordOf_congr (h : t.tabs = s.tabs) (g : Nat) : coordOf t g = coordOf s g := by
  have hrec : (fun i => ebit (liftRec t i) 106) = fun i => ebit (liftRec s i) 106 := funext fun i => by rw [liftRec_congr h]
  unfold coordOf
  rw [groupLifts_congr h, hrec]
  simp only [liftRec_congr h]
theorem announceGroup_none {g : Nat} (h : coordOf s g = none) : announceGroup s g = s := by
  unfold announceGroup
  rw [h]
theorem announceGroup_some {g : Nat} {f : CoordFields} (h : coordOf s g = some f) : announceGroup s g =
    tryMatch (tellPartner (setGroup s g { groupOf s g with announced := true, committed := false, confirmed := false }) "ANNOUNCE" (coordBody f 0)) g := by
  unfold announceGroup
  rw [h]
theorem onCtrl_active {l : Nat} (h : activeLink s = some l) (f : State → State) : onCtrl s f = f (ctrlIn s l (ctrlLen "" [])) := by
  unfold onCtrl
  rw [h]

section
variable {g l : Nat} {mine his : CoordFields} (hmine : coordOf s g = some mine) (hhis : (groupOf s g).partner = some his) (hl : activeLink s = some l)
  (hprim : isPrimary s = true) (hann : (groupOf s g).announced = true) (hopen : (groupOf s g).committed = false)
include hmine hhis hl hprim hann hopen

theorem tryMatch_unlike (h : mine ≠ his) : tryMatch s g = resolveGroup (sendCtrl s l "REJECT" (groupBody g 1 0)).2 g 7 false := by
  unfold tryMatch
  simp only [hmine, hhis, hl]
  exact (if_neg (by simp [hprim, hann, hopen])).trans (if_pos h)
theorem tryMatch_commits (h : mine = his) (hearly : pastDeadline s mine = false) (hsend : sendCtrl s l "COMMIT" (groupBody g 0 0) = (true, t)) :
    tryMatch s g = forEach (setGroup t g { groupOf s g with committed := true, partner := none })
      ((groupLifts (setGroup t g { groupOf s g with committed := true, partner := none }) g).filter
        (fun i => liftState (setGroup t g { groupOf s g with committed := true, partner := none }) i == 2)) (fun s i => arm (setLiftStat s i 3 3 1) i) := by
  unfold tryMatch
  simp only [hmine, hhis, hl, hsend]
  exact (if_neg (by simp [hprim, hann, hopen])).trans ((if_neg (not_not_intro h)).trans ((if_neg (by simp [hearly])).trans (if_neg (by decide))))

end

end

end Sys2Proof.Machine

namespace Sys2Proof
open Sys2Proof.Machine

/-- Settles O48: one lift's state decides its cancellation; a group's agreement follows the messages on the active link. -/
theorem liftCancellationAndAgreement : Obligations.LiftCancellationAndAgreement := by
  unfold Obligations.LiftCancellationAndAgreement
  refine ⟨fun s r v h => completes (regWrite_cancel h v), fun s i hone hi => ⟨cancelGo_idle hone hi, cancelGo_armed hone hi, cancelGo_late hone hi⟩,
    ?_, ?_, fun s g l mine his hmine hhis hl hprim hann hopen => ⟨tryMatch_unlike hmine hhis hl hprim hann hopen, fun t hsame hearly hsend =>
      ⟨_, rfl, tryMatch_commits hmine hhis hl hprim hann hopen hsame hearly hsend⟩⟩, ?_, ?_, ?_,
    fun s l g hl hprim => completes ((onCtrl_active hl _).trans (if_pos (.inl hprim))), fun s g f hf => ?_⟩
  · rintro s u r v h rfl
    obtain ⟨x, b, hstore⟩ := storeWord_only s bscPage 0x124 (v.toNat ||| 2 ^ 31) all32
    have htabs : (written s bscPage 0x124 (v.toNat ||| 2 ^ 31)).tabs = s.tabs := by rw [written, hstore]
    have hgroup : groupOf (written s bscPage 0x124 (v.toNat ||| 2 ^ 31)) (v.toNat % 256) = groupOf s (v.toNat % 256) := by rw [written, hstore]; rfl
    refine ⟨fun hnone => completes ((regWrite_announce h v).trans (responds (announceGroup_none ((coordOf_congr htabs _).trans hnone)) _)),
      fun f hf => completes ((regWrite_announce h v).trans (responds ?_ _))⟩
    rw [announceGroup_some ((coordOf_congr htabs _).trans hf), hgroup]
  · rintro s t l f hl rfl
    refine ⟨fun hprim hpast => completes ((onCtrl_active hl _).trans (if_pos ⟨hprim, hpast⟩)),
      fun h => completes ((onCtrl_active hl _).trans (if_neg fun ⟨hprim, hpast⟩ => ?_))⟩
    rcases h with h | h <;> simp_all
  · rintro s t u l g hl rfl hsec hsome hdue rfl
    refine completes ((onCtrl_active hl _).trans (if_neg ?_))
    rintro (h | h | h)
    · rw [hsec] at h; cases h
    · exact hsome (List.isEmpty_iff.mp h)
    · obtain ⟨i, hi, hd⟩ := List.any_eq_true.mp h
      obtain ⟨hi, hst⟩ := List.mem_filter.mp hi
      rw [hdue i hi (beq_iff_eq.mp hst)] at hd
      cases hd
  · rintro s t l g c hl rfl
    exact ⟨fun hprim hcom => completes ((onCtrl_active hl _).trans (if_pos ⟨hprim, hcom⟩)),
      fun hsec => completes ((onCtrl_active hl _).trans (if_neg (by rw [hsec]; decide))),
      fun hprim => completes ((onCtrl_active hl _).trans (if_pos hprim))⟩
  · rintro s t l g n hl rfl
    refine ⟨fun hopen => completes ((onCtrl_active hl _).trans (if_pos (by simp [hopen]))), fun hcom hper => completes ((onCtrl_active hl _).trans ?_),
      fun hcom => completes ((onCtrl_active hl _).trans (if_pos hcom))⟩
    refine (if_neg (by simp [hcom])).trans (if_neg fun h => ?_)
    obtain ⟨i, hi, h0⟩ := List.any_eq_true.mp h
    exact hper i hi (beq_iff_eq.mp h0)
  · have hgo : deadlinePassed s g.toNat = if (groupOf s g.toNat).committed = true ∨ (!pastDeadline s f) = true ∨
        ((!isPrimary s) = true ∧ (groupOf s g.toNat).partner = some f) then s else resolveGroup s g.toNat 7 (failSolo s) := by
      unfold deadlinePassed
      rw [hf]
    refine ⟨fun hopen hpast hside => completes (hgo.trans (if_neg ?_)), fun h => completes (hgo.trans (if_pos ?_))⟩
    · rintro (h | h | ⟨hsec, hsame⟩)
      · rw [hopen] at h; cases h
      · rw [hpast] at h; cases h
      · rcases hside with h | h
        · rw [h] at hsec; cases hsec
        · exact h hsame
    · rcases h with h | h | ⟨hsec, hsame⟩
      · exact .inl h
      · exact .inr (.inl (by rw [h]; rfl))
      · exact .inr (.inr ⟨by rw [hsec]; rfl, hsame⟩)

end Sys2Proof
end

section
/-! PROOFS. Service images: load, start, migrate and release (R410 to R414). -/

namespace Sys2Proof.Machine

/-! ### A command register of SVC -/

theorem bitsOf_or_top (n : Nat) {hi lo : Nat} (h : hi < 31) : bitsOf (n ||| 2 ^ 31) hi lo = bitsOf n hi lo := by
  refine Nat.eq_of_testBit_eq fun j => ?_
  rw [testBit_bitsOf, testBit_bitsOf, Nat.testBit_or, Nat.testBit_two_pow]
  by_cases hj : j < hi + 1 - lo
  · rw [decide_eq_false (by omega : ¬31 = lo + j), Bool.or_false]
  · simp [hj]

theorem svc_rows : regRow svcPage 0x104 = some { off := 0x104, rw := 0x1F3F, w1s := 0x80000000 } ∧ isHigh svcPage 0x104 = false ∧
    regRow svcPage 0x108 = some { off := 0x108, rw := 0x3F3F, w1s := 0x80000000 } ∧ isHigh svcPage 0x108 = false ∧
    regRow svcPage 0x10C = some { off := 0x10C, rw := 0x3F, w1s := 0x80000000 } ∧ isHigh svcPage 0x10C = false ∧
    regRow svcPage 0x110 = some { off := 0x110, rw := 0x3F, w1s := 0x80000000 } ∧ isHigh svcPage 0x110 = false ∧
    (pageInfo svcPage).map (·.kind) = some .svc := by decide +kernel

section
variable {s : State} {r : Requester} {v : Word} {o : Nat} {row : RegRow}

/-- A command of SVC is given by bit 31 of its register. -/
theorem regWrite_svc (h : opened s r svcPage o = true) (hlo : 0x100 ≤ o) (hhi : o < 0xF00) (hrow : regRow svcPage o = some row) (hhigh : isHigh svcPage o = false)
    (hwide : row.wide = false) (htop : (row.rw ||| row.rws ||| row.w1c ||| row.w1s ||| row.wo).testBit 31 = true) :
    regWrite s r svcPage o (v.toNat ||| 2 ^ 31) = { (if o = 0x104 then loadGo (written s svcPage o (v.toNat ||| 2 ^ 31))
      else if o = 0x108 then migrateGo (written s svcPage o (v.toNat ||| 2 ^ 31))
      else if o = 0x10C then releaseGo (written s svcPage o (v.toNat ||| 2 ^ 31))
      else if o = 0x110 then startGo (written s svcPage o (v.toNat ||| 2 ^ 31)) else written s svcPage o (v.toNat ||| 2 ^ 31)) with resp := .done } := by
  obtain ⟨i, hi, hkind⟩ := Option.map_eq_some_iff.mp svc_rows.2.2.2.2.2.2.2.2
  rw [regWrite_block h hi hrow hlo hhi hwide hhigh (or_top_lt v)]
  refine responds ?_ _
  simp only [blockEffect, hkind]
  refine if_neg ?_
  rw [bitOf_reached (or_top_lt v), or_top_31, htop]
  decide

/-- A field that the command names. -/
theorem fld_commanded (hrow : regRow svcPage o = some row) {hi lo : Nat} (hhi : hi < 31)
    (hrw : ∀ b < 32, lo ≤ b → b ≤ hi → (row.rw ||| row.rws).testBit b = true) :
    fld (written s svcPage o (v.toNat ||| 2 ^ 31)) svcPage o hi lo = bitsOf v.toNat hi lo :=
  (fld_written hrow _ (by omega) hrw).trans (bitsOf_or_top _ hhi)

/-- A command register is stored, and nothing that a command reads of blocks and services changes. -/
structure Commanded (s u : State) : Prop where
  only : ∃ g b, u = { s with regs := g, parBad := b }
  keep : ∀ p o, o < 4096 → p ≠ svcPage ∨ 0x114 ≤ o → rd u p o = rd s p o

theorem commanded_written (n : Nat) (ho : o < 0x114) : Commanded s (written s svcPage o n) := by
  obtain ⟨g, b, hstore⟩ := storeWord_only s svcPage o n all32
  exact ⟨⟨g, b, hstore⟩, fun p w hw hp => rd_storeWord_other _ _ _ _ _ _ _ (by omega)⟩

section
variable {u : State} (h : Commanded s u)
include h

theorem Commanded.parts : u.svcOp = s.svcOp ∧ u.tabs = s.tabs ∧ u.blkImg = s.blkImg ∧ u.doms = s.doms := by
  obtain ⟨g, b, rfl⟩ := h.only
  exact ⟨rfl, rfl, rfl, rfl⟩
theorem Commanded.blkState {b : Nat} (hb : b < 64) : blkState u b = blkState s b :=
  fld_congr (h.keep _ _ (by decide) (.inl (by unfold ebkPage svcPage; omega))) 19 16
theorem Commanded.mapAt {b : Nat} (hb : b < 64) : mapAt u b = mapAt s b :=
  fld_congr (h.keep _ _ (by omega) (.inr (by omega))) _ _
theorem Commanded.imgOf (b : Nat) : imgOf u b = imgOf s b := by
  obtain ⟨-, -, himg, -⟩ := h.parts
  rw [Machine.imgOf, himg]
  rfl
theorem Commanded.blkOn (b : Nat) : blkOn u b = blkOn s b := by
  obtain ⟨g, b', rfl⟩ := h.only
  rfl
theorem Commanded.store (k : Nat) : storeOk u k = storeOk s k ∧ storeImg u k = storeImg s k := by
  obtain ⟨g, b, rfl⟩ := h.only
  exact ⟨rfl, rfl⟩
theorem Commanded.svcBlocks (id : Nat) : svcBlocks u id = svcBlocks s id :=
  List.filter_congr fun b hb => by rw [h.mapAt (List.mem_range.mp hb), h.blkState (List.mem_range.mp hb)]
theorem Commanded.loadCause {b : Nat} (hb : b < 64) (k : Nat) : loadCause u b k = loadCause s b k := by
  obtain ⟨hop, -⟩ := h.parts
  obtain ⟨hok, himg⟩ := h.store k
  unfold Machine.loadCause
  rw [hop, h.blkState hb, hok, himg, h.blkOn]
theorem Commanded.migrateCause {a d : Nat} (ha : a < 64) (hd : d < 64) : migrateCause u a d = migrateCause s a d := by
  obtain ⟨hop, -⟩ := h.parts
  unfold Machine.migrateCause
  rw [hop, h.blkState ha, h.blkState hd, h.mapAt ha, h.imgOf, h.imgOf, h.blkOn]

end

/-! ### Loads (R410) -/

theorem loadCause_cases (b k : Nat) : (s.svcOp.isSome = true → loadCause s b k = 1) ∧
    (s.svcOp = none → blkState s b = 3 ∨ blkState s b = 4 → loadCause s b k = 2) ∧
    (s.svcOp = none → blkState s b ≠ 3 → blkState s b ≠ 4 → loadCause s b k =
      if storeOk s k = true ∧ pairForbidden b (storeImg s k).service = true then 3 else if storeOk s k = false then 4 else if blkOn s b = true then 0 else 6) := by
  unfold loadCause
  refine ⟨fun h => if_pos h, fun h hst => (if_neg (by simp [h])).trans (if_pos hst), fun h h3 h4 => ?_⟩
  rw [if_neg (by simp [h]), if_neg (by omega)]
  cases storeOk s k <;> cases blkOn s b <;> simp
theorem pairForbidden_iff (b id : Nat) : pairForbidden b id = true ↔ (id = 10 ∧ b ≠ 0) ∨ (id ≠ 10 ∧ b = 0) := by
  unfold pairForbidden
  by_cases hb : b = 0
  · by_cases hi : id = 10 <;> simp [hb, hi]
  · have hb' : (b == 0) = false := beq_eq_false_iff_ne.mpr hb
    by_cases hi : id = 10
    · simp [hb, hi]
    · have hi' : (id == 10) = false := beq_eq_false_iff_ne.mpr hi
      simp [hb, hi, hb', hi']
theorem opRefuse_shows {cause src : Nat} (hc : cause < 16) (hsrc : src < 32) : fld (opRefuse s cause src) svcPage 0x114 7 4 = cause ∧
    bitAt (opRefuse s cause src) svcPage 0x114 2 = true ∧ bitAt (opRefuse s cause src) svcPage 0x020 src = true := by
  unfold opRefuse
  refine ⟨?_, ?_, ?_⟩
  · rw [fld_congr (rd_raise _ svcPage src 0 cause 0 svcPage 0x114 (.inr (by decide))), fld_setFld_same _ _ _ _ _ _ (by decide) (by decide)]
    exact Nat.mod_eq_of_lt hc
  · rw [bitAt_raise_off _ svcPage src 0 cause 0 (q := svcPage) (o := 0x114) (.inr (by decide)), bitAt_setFld _ _ _ _ _ _ _ _ _ (by decide) (by decide),
      if_neg (by omega)]
    exact bitAt_setBit_same _ _ _ _ (by decide)
  · rw [bitAt_raise_cause _ svcPage src 0 cause 0 src hsrc]
    simp

theorem issueCert_regs (r : Nat) : (issueCert s r).regs = s.regs ∧ (issueCert s r).blkImg = s.blkImg := by
  unfold issueCert
  split <;> exact ⟨rfl, rfl⟩
/-- A measurement is kept in the tables of SEC. -/
theorem extend_regs (r ty target version digest : Nat) : (extend s r ty target version digest).regs = s.regs ∧
    (extend s r ty target version digest).blkImg = s.blkImg := by
  have hpair : ∀ (t : State) (q : Prop) [Decidable q] (t' : State), (t'.regs, t'.blkImg) = (s.regs, s.blkImg) → (t.regs, t.blkImg) = (s.regs, s.blkImg) →
      ((if q then t' else t).regs, (if q then t' else t).blkImg) = (s.regs, s.blkImg) := fun t q _ t' h' h => by split <;> assumption
  have hcert : ∀ t : State, ((issueCert t r).regs, (issueCert t r).blkImg) = (t.regs, t.blkImg) := fun t => by
    rw [(issueCert_regs r).1, (issueCert_regs r).2]
  have hlog : ∀ (q : Prop) [Decidable q] (t : State) (n : Nat) (e : Entry), (t.regs, t.blkImg) = (s.regs, s.blkImg) →
      ((if q then tset t secPage 3 0 n e else t).regs, (if q then tset t secPage 3 0 n e else t).blkImg) = (s.regs, s.blkImg) :=
    fun q _ t n e h => hpair t q _ h h
  have hall : ((extend s r ty target version digest).regs, (extend s r ty target version digest).blkImg) = (s.regs, s.blkImg) :=
    hpair _ _ _ ((hcert _).trans (hlog _ _ _ _ rfl)) (hlog _ _ _ _ rfl)
  exact ⟨congrArg Prod.fst hall, congrArg Prod.snd hall⟩
theorem loadImage_shows {b k : Nat} : blkState (loadImage s b k) b = 2 ∧ imgOf (loadImage s b k) b = storeImg s k := by
  have hsvc : (storeImg s k).service < 256 := Nat.mod_lt _ (by decide)
  unfold loadImage
  dsimp only
  have hext := fun d => extend_regs (s := wr (setImg s b (storeImg s k)) (ebkPage b) 0x108
    (BitVec.ofNat 32 ((storeImg s k).service + (storeImg s k).version % 256 * 256 + 2 * 2 ^ 16))) 7 2 (storeImg s k).service (storeImg s k).version d
  constructor
  · rw [blkState, fld, rd_congr (hext _).1, rd_wr_same, BitVec.toNat_ofNat, bitsOf]
    omega
  · rw [imgOf, (hext _).2, show (wr (setImg s b (storeImg s k)) (ebkPage b) 0x108 (BitVec.ofNat 32 ((storeImg s k).service +
      (storeImg s k).version % 256 * 256 + 2 * 2 ^ 16))).blkImg = (setImg s b (storeImg s k)).blkImg by simp]
    exact mapGet_mapSet_same ..

end

/-! ### Migrations (R412) -/

theorem migrateCause_free {s : State} {a d : Nat} (hop : s.svcOp = none) (hd : blkState s d = 2) : migrateCause s a d =
    if pairForbidden d (mapAt s a) = true then 3 else if blkOn s d = false then 6
    else if blkState s a ≠ 3 ∨ (imgOf s d).service ≠ mapAt s a ∨ (imgOf s a).stateVer < (imgOf s d).stateMin then 8 else 0 := by
  unfold migrateCause
  rw [if_neg (by simp [hop]), if_neg (by omega)]
  simp only [hd, ne_eq, not_true_eq_false, false_or, Bool.not_eq_true']
theorem migrateCause_taken {s : State} {a d : Nat} (hop : s.svcOp = none) (hd : blkState s d = 3 ∨ blkState s d = 4) : migrateCause s a d = 2 :=
  (if_neg (by simp [hop])).trans (if_pos hd)

end Sys2Proof.Machine

namespace Sys2Proof
open Sys2Proof.Machine

/-- Settles O49: each command of SVC reads the blocks as they were, and its cause comes from the first rule that is broken. -/
theorem serviceLoadsAndMigration : Obligations.ServiceLoadsAndMigration := by
  unfold Obligations.ServiceLoadsAndMigration
  obtain ⟨hrow4, hhigh4, hrow8, hhigh8, hrowC, hhighC, hrow0, hhigh0, -⟩ := svc_rows
  refine ⟨?_, fun s b k => ?_, fun s cause src => opRefuse_shows, fun s b k h => ⟨completes ?_, completes ?_⟩, fun s b k _ => loadImage_shows, ?_, ?_,
    fun s a d hop hd ha hsvc hver hpair hon => ?_, fun s a d => ?_, ?_, ?_⟩
  · rintro s u r v b k h rfl rfl rfl
    have hcmd : Commanded s (written s svcPage 0x104 (v.toNat ||| 2 ^ 31)) := commanded_written _ (by decide)
    have hb : fld (written s svcPage 0x104 (v.toNat ||| 2 ^ 31)) svcPage 0x104 5 0 = v.toNat % 64 := fld_commanded hrow4 (by decide) (by decide)
    have hk : fld (written s svcPage 0x104 (v.toNat ||| 2 ^ 31)) svcPage 0x104 12 8 = v.toNat / 256 % 32 :=
      (fld_commanded hrow4 (by decide) (by decide)).trans (congrArg (· % 32) (Nat.shiftRight_eq_div_pow v.toNat 8))
    have hgo := regWrite_svc (v := v) h (by decide) (by decide) hrow4 hhigh4 rfl (by decide)
    have hcause := hcmd.loadCause (Nat.mod_lt v.toNat (by decide : 0 < 64)) (v.toNat / 256 % 32)
    refine ⟨fun h0 => completes (hgo.trans (responds ?_ _)), fun h0 => completes (hgo.trans (responds ?_ _))⟩
    · refine (if_pos rfl).trans ?_
      unfold loadGo
      dsimp only
      rw [hb, hk, hcause, if_neg (not_not_intro h0)]
    · refine (if_pos rfl).trans ?_
      unfold loadGo
      dsimp only
      rw [hb, hk, hcause, if_pos h0]
  · obtain ⟨hbusy, hrun, hfree⟩ := loadCause_cases (s := s) b k
    refine ⟨hbusy, hrun, fun hop h3 h4 => ⟨fun hok hpair => ?_, fun hbad => ?_, fun hok hpair => ?_⟩⟩
    · exact (hfree hop h3 h4).trans (if_pos ⟨hok, (pairForbidden_iff ..).mpr hpair⟩)
    · exact (hfree hop h3 h4).trans ((if_neg (by simp [hbad])).trans (if_pos hbad))
    · have hnot : ¬(storeOk s k = true ∧ pairForbidden b (storeImg s k).service = true) := fun ⟨_, hf⟩ => by
        have := (pairForbidden_iff ..).mp hf
        omega
      exact (hfree hop h3 h4).trans ((if_neg hnot).trans (if_neg (by simp [hok])))
  · unfold loadEnd
    rw [h]
    exact if_neg (by decide)
  · unfold loadEnd
    rw [h]
    exact if_pos rfl
  · rintro s u r v b h rfl rfl hst hnone hon
    have hcmd : Commanded s (written s svcPage 0x110 (v.toNat ||| 2 ^ 31)) := commanded_written _ (by decide)
    have hb : fld (written s svcPage 0x110 (v.toNat ||| 2 ^ 31)) svcPage 0x110 5 0 = v.toNat % 64 := fld_commanded hrow0 (by decide) (by decide)
    refine completes ((regWrite_svc (v := v) h (by decide) (by decide) hrow0 hhigh0 rfl (by decide)).trans (responds ?_ _))
    refine (if_neg (by decide)).trans ((if_neg (by decide)).trans ((if_neg (by decide)).trans ((if_pos rfl).trans ?_)))
    unfold startGo
    dsimp only
    rw [hb, hcmd.imgOf, hcmd.blkState (Nat.mod_lt _ (by decide)), hcmd.svcBlocks, hcmd.blkOn]
    exact if_neg (by simp [hst, hnone, hon])
  · rintro s u r v a d h rfl rfl rfl
    have hcmd : Commanded s (written s svcPage 0x108 (v.toNat ||| 2 ^ 31)) := commanded_written _ (by decide)
    have ha : fld (written s svcPage 0x108 (v.toNat ||| 2 ^ 31)) svcPage 0x108 5 0 = v.toNat % 64 := fld_commanded hrow8 (by decide) (by decide)
    have hd : fld (written s svcPage 0x108 (v.toNat ||| 2 ^ 31)) svcPage 0x108 13 8 = v.toNat / 256 % 64 :=
      (fld_commanded hrow8 (by decide) (by decide)).trans (congrArg (· % 64) (Nat.shiftRight_eq_div_pow v.toNat 8))
    have hgo := regWrite_svc (v := v) h (by decide) (by decide) hrow8 hhigh8 rfl (by decide)
    have hcause := hcmd.migrateCause (Nat.mod_lt v.toNat (by decide : 0 < 64)) (Nat.mod_lt (v.toNat / 256) (by decide : 0 < 64))
    refine ⟨fun h0 => completes (hgo.trans (responds ?_ _)), fun h0 => completes (hgo.trans (responds ?_ _))⟩
    · refine (if_neg (by decide)).trans ((if_pos rfl).trans ?_)
      unfold migrateGo
      dsimp only
      rw [ha, hd, hcause, if_neg (not_not_intro h0)]
    · refine (if_neg (by decide)).trans ((if_pos rfl).trans ?_)
      unfold migrateGo
      dsimp only
      rw [ha, hd, hcause, if_pos h0]
  · rw [migrateCause_free hop hd, if_neg (by simp [hpair]), if_neg (by simp [hon]), if_neg (by omega)]
  · refine ⟨fun hop => if_pos hop, fun hop hd => migrateCause_taken hop hd, fun hop hd hpair => (migrateCause_free hop hd).trans (if_pos hpair),
      fun hop hd hpair hoff => (migrateCause_free hop hd).trans ((if_neg (by simp [hpair])).trans (if_pos hoff)),
      fun hop hd hpair hon hbad => (migrateCause_free hop hd).trans ((if_neg (by simp [hpair])).trans ((if_neg (by simp [hon])).trans (if_pos hbad)))⟩
  · rintro s t u a d us hop rfl rfl
    refine completes ?_
    unfold migrated
    rw [hop]
    rfl
  · rintro s u r v b h rfl rfl
    have hcmd : Commanded s (written s svcPage 0x10C (v.toNat ||| 2 ^ 31)) := commanded_written _ (by decide)
    have hb : fld (written s svcPage 0x10C (v.toNat ||| 2 ^ 31)) svcPage 0x10C 5 0 = v.toNat % 64 := fld_commanded hrowC (by decide) (by decide)
    have hlt : v.toNat % 64 < 64 := Nat.mod_lt _ (by decide)
    have hgo := (regWrite_svc (v := v) h (by decide) (by decide) hrowC hhighC rfl (by decide)).trans
      (responds ((if_neg (by decide)).trans ((if_neg (by decide)).trans (if_pos rfl))) _)
    have hrel : releaseGo (written s svcPage 0x10C (v.toNat ||| 2 ^ 31)) = if s.svcOp.isSome = true then opRefuse (written s svcPage 0x10C (v.toNat ||| 2 ^ 31)) 1 3
        else if v.toNat % 64 = 0 ∨ svcBlocks s (mapAt s (v.toNat % 64)) = [v.toNat % 64] then opRefuse (written s svcPage 0x10C (v.toNat ||| 2 ^ 31)) 7 3
        else if blkState s (v.toNat % 64) ≠ 3 then opRefuseFree (written s svcPage 0x10C (v.toNat ||| 2 ^ 31))
        else opDone (takeBack (health (deal (unassign (written s svcPage 0x10C (v.toNat ||| 2 ^ 31)) (v.toNat % 64)) (mapAt s (v.toNat % 64))))
          (fun h => h.block == v.toNat % 64)) 2 := by
      unfold releaseGo
      dsimp only
      rw [hb, hcmd.mapAt hlt, hcmd.svcBlocks, hcmd.blkState hlt, hcmd.parts.1]
    refine ⟨fun hop h0 hlast hst => completes (hgo.trans (responds (hrel.trans ?_) _)), fun hop hno => completes (hgo.trans (responds (hrel.trans ?_) _)),
      fun hop => completes (hgo.trans (responds (hrel.trans (if_pos hop)) _))⟩
    · exact (if_neg (by simp [hop])).trans ((if_neg (by simp [h0, hlast])).trans (if_neg (not_not_intro hst)))
    · exact (if_neg (by simp [hop])).trans (if_pos hno)

end Sys2Proof
end

section
/-! PROOFS. Engine and block faults; the timers of OAM and TELEM (R405, R416, R417). -/

namespace Sys2Proof.Machine

section
variable {s : State}

/-! ### What an engine block's page keeps -/

theorem takeBack_svcOp (f : HandMsg → Bool) : (takeBack s f).svcOp = s.svcOp :=
  forEach_keeps (fun s : State => s.svcOp) (fun t _ => by simp) _ _
/-- The messages that leave an engine are counted on EMB's page. -/
theorem rd_takeBack (f : HandMsg → Bool) {p o : Nat} (h : p ≠ embPage) (ho : o < 4096) : rd (takeBack s f) p o = rd s p o :=
  forEach_keeps (fun s : State => rd s p o) (fun t _ => by
    rw [rd_raise _ _ _ _ _ _ _ _ (by omega), rd_inc_key _ _ _ _ _ (by omega)]) _ _
theorem rd_health {p o : Nat} (h : p ≠ svcPage) (ho : o < 4096) : rd (health s) p o = rd s p o := by
  unfold health
  dsimp only
  split
  · exact rd_wr_page _ _ _ _ _ _ h (by decide) ho
  · rw [rd_raise _ _ _ _ _ _ _ _ (by omega), rd_wr_page _ _ _ _ _ _ h (by decide) ho]

/-! ### An engine is held, and freed (R416) -/

section
variable {b e cause : Nat} (hb : b < 64)

theorem holdEngine_idle (h : bitAt s (ebkPage b) 0x104 e = false) : holdEngine s b e cause = s := if_pos (by simp [h])
include hb in
theorem holdEngine_running {t : State} (h : bitAt s (ebkPage b) 0x104 e = true)
    (ht : t = setBit (setBit s (ebkPage b) 0x104 e false) (ebkPage b) 0x104 (16 + e) true) {x : State}
    (hx : x = if cause = 2 then addSat (wr t (ebkPage b) (0x140 + 4 * e) (BitVec.ofNat 32 (3 + cause * 16))) (ebkPage b) 0x114 31 16 1
      else wr t (ebkPage b) (0x140 + 4 * e) (BitVec.ofNat 32 (3 + cause * 16))) {u : State}
    (hu : u = takeBack (health (raise x (ebkPage b) 0 0 e e)) (fun h => h.at b e)) :
    holdEngine s b e cause = if fld t (ebkPage b) 0x104 15 0 = 0 then holdBlock u b else u := by
  have hpage : ebkPage b ≠ embPage ∧ ebkPage b ≠ svcPage := by unfold ebkPage embPage svcPage; omega
  have hrd : rd u (ebkPage b) 0x104 = rd t (ebkPage b) 0x104 := by
    have hwr : rd (wr t (ebkPage b) (0x140 + 4 * e) (BitVec.ofNat 32 (3 + cause * 16))) (ebkPage b) 0x104 = rd t (ebkPage b) 0x104 :=
      rd_wr_off _ _ _ _ _ (by omega)
    rw [hu, rd_takeBack _ hpage.1 (by decide), rd_health hpage.2 (by decide), rd_raise _ _ _ _ _ _ _ _ (.inr (by omega)), hx]
    split
    · rw [rd_addSat_key _ _ _ _ _ _ _ _ (by omega), hwr]
    · exact hwr
  have hfld : fld u (ebkPage b) 0x104 15 0 = fld t (ebkPage b) 0x104 15 0 := fld_congr hrd 15 0
  rw [← hfld]
  subst hu hx ht
  exact if_neg (by simp [h])

include hb in
theorem holdEngine_uncounted {t u : State} {x : Word} (h : bitAt s (ebkPage b) 0x104 e = true)
    (ht : t = setBit (setBit s (ebkPage b) 0x104 e false) (ebkPage b) 0x104 (16 + e) true) (hc : cause ≠ 2) (hx : x = BitVec.ofNat 32 (3 + cause * 16))
    (hu : u = takeBack (health (raise (wr t (ebkPage b) (0x140 + 4 * e) x) (ebkPage b) 0 0 e e)) (fun h => h.at b e)) :
    holdEngine s b e cause = if fld t (ebkPage b) 0x104 15 0 = 0 then holdBlock u b else u :=
  holdEngine_running hb h ht ((congrArg _ hx).trans (if_neg hc).symm) hu
include hb in
/-- A local ECC error is counted as well. -/
theorem holdEngine_ecc {t u : State} {x : Word} (h : bitAt s (ebkPage b) 0x104 e = true)
    (ht : t = setBit (setBit s (ebkPage b) 0x104 e false) (ebkPage b) 0x104 (16 + e) true) (hx : x = BitVec.ofNat 32 (3 + 2 * 16))
    (hu : u = takeBack (health (raise (addSat (wr t (ebkPage b) (0x140 + 4 * e) x) (ebkPage b) 0x114 31 16 1) (ebkPage b) 0 0 e e)) (fun h => h.at b e)) :
    holdEngine s b e 2 = if fld t (ebkPage b) 0x104 15 0 = 0 then holdBlock u b else u := by
  refine holdEngine_running hb h ht ?_ hu
  rw [hx, if_pos rfl]

theorem rd_showEngine {j : Nat} : rd (showEngine s b j) (ebkPage b) 0x104 = rd s (ebkPage b) 0x104 := by
  unfold showEngine
  dsimp only
  split
  · rfl
  · exact rd_wr_off _ _ _ _ _ (by omega)
include hb in
/-- The engines still held are those that are not freed. -/
theorem fld_restartEngines (m : Nat) : fld (restartEngines s b m) (ebkPage b) 0x104 31 16 =
    fld s (ebkPage b) 0x104 31 16 - (m &&& fld s (ebkPage b) 0x104 31 16) := by
  have hlt : fld s (ebkPage b) 0x104 31 16 < 2 ^ 16 := Nat.mod_lt _ (by decide)
  unfold restartEngines
  dsimp only
  rw [fld_congr (rd_health (by unfold ebkPage svcPage; omega) (by decide)), runEngines,
    fld_congr (forEach_keeps (fun s : State => rd s (ebkPage b) 0x104) (fun t j => rd_showEngine) _ _),
    fld_setFld_apart _ _ _ _ _ _ _ _ (by decide) (by decide) (.inr (by decide)),
    fld_congr (forEach_keeps (fun s : State => rd s (ebkPage b) 0x104)
      (f := fun s e => freshEngine b (wr s (ebkPage b) (0x140 + 4 * e) 0) e) (fun t j => rd_wr_off _ _ _ _ _ (by omega)) _ _),
    fld_setFld_same _ _ _ _ _ _ (by decide) (by decide)]
  exact Nat.mod_eq_of_lt (Nat.lt_of_le_of_lt (Nat.sub_le _ _) hlt)

end

theorem ebk_rows : ∀ b < 64, regRow (ebkPage b) 0x110 = some { off := 0x110, w1s := 0xFFFF } ∧ isHigh (ebkPage b) 0x110 = false ∧
    (pageInfo (ebkPage b)).any (fun i => i.kind == .ebk && i.sub == b) = true := by decide +kernel

theorem regWrite_restart {r : Requester} {b m : Nat} (hb : b < 64) (hm : m < 2 ^ 16) (h : opened s r (ebkPage b) 0x110 = true) :
    regWrite s r (ebkPage b) 0x110 m = { restartEngines (written s (ebkPage b) 0x110 m) b m with resp := .done } := by
  obtain ⟨hrow, hhigh, hkind⟩ := ebk_rows b hb
  obtain ⟨i, hi, hkind⟩ := (Option.any_eq_true _ _).mp hkind
  simp only [Bool.and_eq_true, beq_iff_eq] at hkind
  obtain ⟨hkind, hsub⟩ := hkind
  have hmask : reached { off := 0x110, w1s := 0xFFFF } m % 2 ^ 16 = m := by
    have hbits : ∀ j < 16, ((0 : Nat) ||| 0 ||| 0 ||| 0xFFFF ||| 0).testBit j = true := by decide
    refine Nat.eq_of_testBit_eq fun j => ?_
    rw [Nat.testBit_mod_two_pow]
    by_cases hj : j < 16
    · have h := bitOf_reached (row := { off := 0x110, w1s := 0xFFFF }) (v := m) (b := j) (by omega)
      rw [hbits j hj, Bool.and_true] at h
      rw [decide_eq_true hj, Bool.true_and]
      exact h
    · rw [decide_eq_false hj, Bool.false_and, Nat.testBit_lt_two_pow (Nat.lt_of_lt_of_le hm (Nat.pow_le_pow_right (by decide) (Nat.not_lt.mp hj)))]
  rw [regWrite_block h hi hrow (by decide) (by decide) rfl hhigh (by omega)]
  refine responds ?_ _
  simp only [blockEffect, hkind, hsub]
  exact (if_neg (by decide)).trans ((if_pos rfl).trans (by rw [hmask]))

/-! ### A block is held (R417) -/

/-- What becomes of a serving block's service: `t` is the machine without the block's messages, `u` with the map that no longer names it. -/
theorem holdBlock_serving {t u : State} {b id : Nat} (hst : blkState s b = 3) (hop : s.svcOp = none) (hid : id = mapAt s b) (hins : id ≠ 0x0B)
    (ht : t = takeBack (raise (setFld (setBlkState s b 5) (ebkPage b) 0x104 15 0 0) (ebkPage b) 1 0 0 0xFFFF) (fun h => h.block == b))
    (hu : u = setMapAt t b 0) {x : State}
    (hx : (bitAt u svcPage 0x100 0 = false ∨ id = 0x0A ∨ storeFor u id = none) ∧ x = deal u id ∨
      ∃ slot d, bitAt u svcPage 0x100 0 = true ∧ id ≠ 0x0A ∧ storeFor u id = some slot ∧
        (List.range 64).find? (fun d => mapAt u d == 0 && d != b && blkOn u d && (blkState u d == 0 || blkState u d == 2) && !held u (ebkPage d)) = some d ∧
        x = raise (passBuckets (runBlock (loadImage u d slot) d id) id b d) svcPage 5 0 d) :
    holdBlock s b = recoverService (health x) id ((List.range 64).filter (fun j => (mapGet (fun _ => []) t.buckets id)[j]? == some b))
      (svcBlocks u id).isEmpty := by
  have htop : t.svcOp = none := by
    rw [ht, takeBack_svcOp, ← hop]
    simp [setBlkState]
  unfold holdBlock
  dsimp only
  rw [← hid, if_neg (by omega), if_neg (by omega), ← ht, htop, ← hu, if_neg Bool.false_ne_true, if_neg hins]
  rcases hx with ⟨hno, rfl⟩ | ⟨slot, d, hauto, hcore, hstore, hspare, rfl⟩
  · have hnone : (if (bitAt u svcPage 0x100 0 && id != 0x0A) = true then storeFor u id else none) = none := by
      rcases hno with h | h | h
      · exact if_neg (by simp [h])
      · exact if_neg (by simp [h])
      · rw [h]; split <;> rfl
    rw [hnone]
  · rw [if_pos (by simp [hauto, hcore]), hstore, hspare]

end

/-! ### Timers (R405) -/

theorem tell_served {s : State} {id : Nat} (h : svcBlocks s id ≠ []) (op : Nat) (body : List Nat) : tell s id op body = notify s id op body :=
  if_neg fun hc => h (List.isEmpty_iff.mp hc)
/-- A timer of a service runs where the service serves and the object exists. -/
theorem timer_off {s : State} {id k : Nat} (h : svcBlocks s id = [] ∨ ∀ o ∈ s.svcObjs, o.1 = id → o.2.1 ≠ k) :
    (svcBlocks s id).isEmpty = true ∨ (!(s.svcObjs.any (fun o => o.1 == id && o.2.1 == k))) = true := by
  rcases h with h | h
  · exact .inl (List.isEmpty_iff.mpr h)
  · refine .inr ?_
    rw [Bool.not_eq_true', List.any_eq_false]
    intro o ho hk
    simp only [Bool.and_eq_true, beq_iff_eq] at hk
    exact h o ho hk.1 hk.2
theorem timer_on {s : State} {id k : Nat} (hserve : svcBlocks s id ≠ []) (hobj : ∃ o ∈ s.svcObjs, o.1 = id ∧ o.2.1 = k) :
    ¬((svcBlocks s id).isEmpty = true ∨ (!(s.svcObjs.any (fun o => o.1 == id && o.2.1 == k))) = true) := by
  obtain ⟨o, ho, hid, hk⟩ := hobj
  rintro (h | h)
  · exact hserve (List.isEmpty_iff.mp h)
  · rw [Bool.not_eq_true', List.any_eq_false] at h
    exact h o ho (by simp [hid, hk])

end Sys2Proof.Machine

namespace Sys2Proof
open Sys2Proof.Machine

/-- Settles O50: a held engine's page keeps its other engines, which decides whether the block is held; a held block's service finds a spare or not. -/
theorem engineFaultsAndTimers : Obligations.EngineFaultsAndTimers := by
  unfold Obligations.EngineFaultsAndTimers
  refine ⟨fun s t u v w b e hrun ht hu hv hw => ⟨fun hleft => ⟨completes ?_, completes ?_, completes ?_⟩, fun hleft => ⟨completes ?_, completes ?_, completes ?_⟩⟩,
    fun s b e i h => ⟨completes (holdEngine_idle h), completes (holdEngine_idle h)⟩, fun s r b m h => completes (regWrite_restart b.isLt m.isLt h),
    fun s b m hb => fld_restartEngines hb m, fun s b => rfl, ?_, ?_, ?_, fun s p k missed => ⟨fun h => completes (if_pos (timer_off h)),
      fun h => completes (if_pos (timer_off h))⟩⟩
  · exact (holdEngine_uncounted b.isLt hrun ht (by decide) (by decide : (0x13 : Word) = BitVec.ofNat 32 (3 + 1 * 16)) hu).trans (if_neg hleft)
  · exact (holdEngine_uncounted b.isLt hrun ht (by decide) (by decide : (0x33 : Word) = BitVec.ofNat 32 (3 + 3 * 16)) hv).trans (if_neg hleft)
  · exact (holdEngine_ecc b.isLt hrun ht (by decide : (0x23 : Word) = BitVec.ofNat 32 (3 + 2 * 16)) hw).trans (if_neg hleft)
  · exact (holdEngine_uncounted b.isLt hrun ht (by decide) (by decide : (0x13 : Word) = BitVec.ofNat 32 (3 + 1 * 16)) hu).trans (if_pos hleft)
  · exact (holdEngine_uncounted b.isLt hrun ht (by decide) (by decide : (0x33 : Word) = BitVec.ofNat 32 (3 + 3 * 16)) hv).trans (if_pos hleft)
  · exact (holdEngine_ecc b.isLt hrun ht (by decide : (0x23 : Word) = BitVec.ofNat 32 (3 + 2 * 16)) hw).trans (if_pos hleft)
  · rintro s t u b id lost alone - hst hop hid hins ht hu rfl rfl
    exact ⟨fun hno => holdBlock_serving hst hop hid hins ht hu (.inl ⟨hno, rfl⟩), fun slot d hauto hcore hstore hspare =>
      holdBlock_serving hst hop hid hins ht hu (.inr ⟨slot, d, hauto, hcore, hstore, hspare, rfl⟩)⟩
  · intro s p hserve hobj
    refine ⟨completes ((if_neg (timer_on hserve hobj)).trans (if_neg (by decide))), completes ((if_neg (timer_on hserve hobj)).trans ((if_pos rfl).trans ?_))⟩
    exact tell_served (s := emit s (.serviceFrame 5 p.toNat)) hserve 0x80 [p.toNat]
  · intro s k hserve hobj
    exact completes ((if_neg (timer_on hserve hobj)).trans (tell_served (s := (fresh s).2) hserve 0x80 [k.toNat, (fresh s).1]))

end Sys2Proof
end

section
/-! PROOFS. Service messages and their answers (R404 to R409). -/

namespace Sys2Proof.Machine

section
variable {s : State} {m : SvcRequest}

/-! ### What EMB does with a message (R404, R408, R412) -/

theorem message_refused (h : embTakes s m = false) : message s m = s := if_pos (by simp [h])
theorem ceilDiv_16 (n : Nat) : ceilDiv n 16 = (n + 15) / 16 := rfl
theorem message_ring {n k : Nat} (ht : embTakes s m = true) (hr : m.ring = some (BitVec.ofNat 8 n)) (hn : n < 256) (hk : k = 1 + (m.body.length + 15) / 16) :
    message s m = if (!sqReady s n 2) = true ∨ slotsLeft s n < k ∨ 16 < k ∨ (!slotsFit s n k) = true then s
      else ringsGo (fetchEntry (askSlots s n k) n { index := (sqConsOf s n).toNat, count := k, msg := some m }) := by
  have hnat : (BitVec.ofNat 8 n).toNat = n := by rw [BitVec.toNat_ofNat]; exact Nat.mod_eq_of_lt hn
  unfold message
  rw [if_neg (by simp [ht]), hr]
  dsimp only
  rw [hnat, ceilDiv_16, ← hk]
theorem message_direct (ht : embTakes s m = true) (hr : m.ring = none) : message s m = embDeliver s m 0 := by
  unfold message
  rw [if_neg (by simp [ht]), hr]

section
variable (hr : m.ring = none) (hserve : serving s embPage = true)
include hr hserve

theorem message_unserved (h : svcBlocks s m.service.toNat = []) : message s m = if m.service.toNat = 0xF0 then respond s m 0 5 []
    else respond (raise (inc s embPage 0x108) embPage 1) m 0 3 [] := by
  have ht : embTakes s m = true := by simp [embTakes, hserve, h]
  rw [message_direct ht hr]
  unfold embDeliver bindingBad
  simp only [hr, h, List.isEmpty_nil, Bool.false_eq_true, if_false, if_true]

section
variable {b e : Nat} (hb : b = blockFor s m.service.toNat m.key.toNat) (he : e = engineFor s b m.key.toNat) (hown : m.service.toNat ≠ 0xF0)
  (hsome : svcBlocks s m.service.toNat ≠ [])
include hb hown hsome

theorem message_frozen (hf : frozen s b = true) (hroom : s.embHold.length < 1024) : message s m = { s with embHold := s.embHold ++ [(m, 0)] } := by
  subst hb
  have ht : embTakes s m = true := by simp [embTakes, hserve, hf, hroom]
  rw [message_direct ht hr]
  unfold embDeliver bindingBad
  simp only [hr, Bool.false_eq_true, if_false]
  exact (if_neg hown).trans ((if_neg (fun h => hsome (List.isEmpty_iff.mp h))).trans (if_pos hf))
include he in
theorem message_taken (hf : frozen s b = false) (heng : engines s b ≠ 0) : message s m =
    if m.busy ≠ 0 ∨ stalled s b e = true ∨ s.inHand.any (fun h => h.at b e) = true then
      showEngine { s with inHand := s.inHand ++ [{ block := b, engine := e, msg := m, index := 0 }] } b e
    else handleMsg s m 0 := by
  subst he hb
  have ht : embTakes s m = true := by simp [embTakes, hserve, hf, heng]
  rw [message_direct ht hr]
  unfold embDeliver bindingBad
  simp only [hr, Bool.false_eq_true, if_false]
  refine (if_neg hown).trans ((if_neg (fun h => hsome (List.isEmpty_iff.mp h))).trans ((if_neg (by simp [hf])).trans (if_neg ?_)))
  simp [ringHeld, hr]

end

end

/-! ### What a service answers (R407, R408) -/

theorem handleMsg_long (h : 240 < m.body.length) : handleMsg s m 0 = respond (countedFor s m.service.toNat) m 0 2 [] := if_pos h

/-- A message that an engine can handle at once gets the answer of its request; `m` is the row's message, `x` the one with its service and opcode. -/
theorem message_answered {id st : Nat} {body : List Nat} {t : State} {x : SvcRequest} (h : answerable s m id = true) (hid : x.service.toNat = id)
    (hx : x.key = m.key ∧ x.ring = m.ring ∧ x.busy = m.busy ∧ x.body = m.body)
    (hrun : svcRun (countedFor s id) id x.opcode.toNat m.key.toNat m.body = (st, body, t)) : message s x = respond t x 0 st body := by
  obtain ⟨hkey, hring, hbusy, hbody⟩ := hx
  simp only [answerable, Bool.and_eq_true, Bool.not_eq_true', bne_iff_ne, beq_iff_eq, decide_eq_true_eq] at h
  obtain ⟨⟨⟨⟨⟨⟨⟨⟨⟨hr, hserve⟩, hsome⟩, hf⟩, heng⟩, hfree⟩, hst⟩, hhand⟩, hlen⟩, hown⟩ := h
  have hsome' : svcBlocks s x.service.toNat ≠ [] := by
    rw [hid]
    intro hnil
    rw [hnil] at hsome
    cases hsome
  have hr' : x.ring = none := hring.trans (Option.isNone_iff_eq_none.mp hr)
  rw [message_taken hr' hserve rfl rfl (by rw [hid]; exact hown) hsome' (by rw [hid, hkey]; exact hf) (by rw [hid, hkey]; exact heng),
    hid, hkey, if_neg (by rw [hbusy, hfree, hst, hhand]; decide)]
  unfold handleMsg
  dsimp only
  rw [hid, hkey, hbody, if_neg (Nat.not_lt.mpr hlen), hrun]
/-- The same, for a request row that names its service. -/
theorem requestTo_answered {id op st : Nat} {body : List Nat} {t : State} (h : answerable s m id = true) (hid : id < 256) (hop : op < 256)
    (hrun : svcRun (countedFor s id) id op m.key.toNat m.body = (st, body, t)) : requestTo s m id op = respond t (asked m id op) 0 st body := by
  refine message_answered h ?_ ⟨rfl, rfl, rfl, rfl⟩ ?_
  · exact (BitVec.toNat_ofNat ..).trans (Nat.mod_eq_of_lt hid)
  · rw [show (BitVec.ofNat 8 op).toNat = op from (BitVec.toNat_ofNat ..).trans (Nat.mod_eq_of_lt hop)]
    exact hrun
/-- A common request keeps its service. -/
theorem request_answered {op st : Nat} {body : List Nat} {t : State} (h : answerable s m m.service.toNat = true) (hop : op < 256)
    (hrun : svcRun (countedFor s m.service.toNat) m.service.toNat op m.key.toNat m.body = (st, body, t)) :
    request s m op = respond t { m with opcode := BitVec.ofNat 8 op } 0 st body := by
  refine message_answered h rfl ⟨rfl, rfl, rfl, rfl⟩ ?_
  rw [show (BitVec.ofNat 8 op).toNat = op from (BitVec.toNat_ofNat ..).trans (Nat.mod_eq_of_lt hop)]
  exact hrun

/-- No service defines an opcode from 0x20 on. -/
theorem svcRun_undefined {id op key : Nat} {b : List Byte} (h : 0x20 ≤ op) : svcRun s id op key b = (1, [], s) := by
  unfold svcRun
  split <;> simp at h ⊢

theorem served_counted (id : Nat) : served (countedFor s id) id = served s id + 1 := by
  unfold served
  exact mapGet_mapSet_same (fun _ => 0) s.svcServed id (served s id + 1)
theorem svcQueue_short {b : List Byte} (h : b.length < 2) : svcQueue s b = (2, [], s) := if_pos (.inl h)
theorem svcQueue_found {b : List Byte} {q : Nat} {t : Nat × Bool} (hq : q = leNat (b.take 2)) (hlen : 2 ≤ b.length) (hport : queueNo q = true) (hlt : q < 1024)
    (h : oldestRecord s q = some t) : svcQueue s b = (0, [(cqOf s q).records.length, ((cqOf s q).records.flatMap (fun r => r.pages)).eraseDups.length,
      tb0Ns s (now s) - t.1], s) := by
  subst hq
  have hport' : isQueuePort (qPort (leNat (b.take 2))) = true := hport
  unfold svcQueue
  dsimp only
  rw [if_neg (by rw [hport']; simp; omega), h]
theorem svcResync_bad {b : List Byte} (h : b = [] ∨ 4 < (b.headD 0).toNat) : svcResync s b = (2, [], s) := by
  cases b with
  | nil => rfl
  | cons k rest => exact if_pos (h.elim (fun h => nomatch h) id)
theorem svcInspCancel_known {b : List Byte} {c : Nat} (h : (inspCancel s (leNat (b.take 2))).1 = some c) :
    svcInspCancel s b = (0, [leNat (b.take 2) % 256, leNat (b.take 2) / 256, c], (inspCancel s (leNat (b.take 2))).2) := by
  unfold svcInspCancel
  dsimp only
  rw [h]
theorem svcInspCancel_unknown {b : List Byte} (h : (inspCancel s (leNat (b.take 2))).1 = none) :
    svcInspCancel s b = (2, [], (inspCancel s (leNat (b.take 2))).2) := by
  unfold svcInspCancel
  dsimp only
  rw [h]

end

end Sys2Proof.Machine

namespace Sys2Proof
open Sys2Proof.Machine

/-- Settles O51: EMB's verdict on a message comes from the service's blocks; the answer is that of the request's own rule. -/
theorem serviceRequests : Obligations.ServiceRequests := by
  unfold Obligations.ServiceRequests
  refine ⟨fun s m => ?_, fun s m h => completes (message_refused h), fun s m n k ht hr hn hk => ⟨fun hready hleft hlen hfit => completes ?_, fun h => completes ?_⟩,
    fun s m b e hr hserve hb he => ⟨fun hf0 hnil => completes ?_, fun hf0 hnil => completes ?_, fun hf0 hsome => ⟨fun hf hroom => completes ?_,
      fun hf heng hwait => completes ?_, fun hf heng hfree hst hhand hlong => completes ?_⟩⟩,
    fun s m h => ⟨completes (request_answered h (by decide) rfl), completes (request_answered h (by decide) ?_), fun hcfg => completes (request_answered h (by decide) ?_),
      fun hcfg => completes (request_answered h (by decide) ?_), ?_⟩,
    fun s m h hop => completes (message_answered h rfl ⟨rfl, rfl, rfl, rfl⟩ (svcRun_undefined hop)),
    fun s m k rest h hbody hk => completes (requestTo_answered h (by decide) (by decide) ?_),
    fun s m h hbad => completes (requestTo_answered h (by decide) (by decide) (svcResync_bad hbad)), ?_, ?_, ?_, ?_, ?_, ?_, ?_, ?_⟩
  · exact ⟨rfl, rfl, rfl, rfl, rfl, rfl, rfl, rfl, rfl, rfl, rfl, rfl, rfl, rfl, rfl, rfl, rfl, rfl, rfl, rfl, rfl, rfl, rfl, rfl, rfl, rfl, rfl, rfl⟩
  · exact (message_ring ht hr hn hk).trans (if_neg (by simp [hready, hfit]; omega))
  · refine (message_ring ht hr hn hk).trans (if_pos ?_)
    rcases h with h | h | h | h
    · exact .inl (by rw [h]; rfl)
    · exact .inr (.inl h)
    · exact .inr (.inr (.inl h))
    · exact .inr (.inr (.inr (by rw [h]; rfl)))
  · have hid : m.service.toNat = 0xF0 := by rw [hf0]; rfl
    exact (message_unserved hr hserve (by rw [hid]; exact hnil)).trans (if_pos hid)
  · exact (message_unserved hr hserve hnil).trans (if_neg fun h => hf0 (BitVec.eq_of_toNat_eq h))
  · exact message_frozen hr hserve hb (fun h => hf0 (BitVec.eq_of_toNat_eq h)) hsome hf hroom
  · exact (message_taken hr hserve hb he (fun h => hf0 (BitVec.eq_of_toNat_eq h)) hsome hf heng).trans (if_pos hwait)
  · exact (message_taken hr hserve hb he (fun h => hf0 (BitVec.eq_of_toNat_eq h)) hsome hf heng).trans ((if_neg (by rw [hfree, hst, hhand]; decide)).trans
      (handleMsg_long hlong))
  · refine (show svcRun _ _ 0x01 _ _ = svcStats _ _ from rfl).trans ?_
    rw [svcStats, served_counted]
    rfl
  · refine (show svcRun _ _ 0x02 _ _ = svcGet _ _ from rfl).trans ?_
    exact if_neg (fun h => hcfg (List.isEmpty_iff.mp h))
  · refine (show svcRun _ _ 0x02 _ _ = svcGet _ _ from rfl).trans ?_
    exact if_pos (List.isEmpty_iff.mpr hcfg)
  · rintro u rfl
    exact completes (request_answered h (by decide) rfl)
  · refine (show svcRun _ 1 0x10 _ _ = svcResync _ _ from rfl).trans ?_
    rw [hbody]
    exact if_neg (Nat.not_lt.mpr hk)
  · rintro s m h u rfl
    exact completes (requestTo_answered h (by decide) (by decide) rfl)
  · exact fun s m h => ⟨completes (requestTo_answered h (by decide) (by decide) rfl), completes (requestTo_answered h (by decide) (by decide) rfl)⟩
  · rintro s a b m h rfl rfl
    exact ⟨completes (requestTo_answered h (by decide) (by decide) rfl), completes (requestTo_answered h (by decide) (by decide) rfl)⟩
  · exact fun s m q t h hq hlen hport hlt hold => completes (requestTo_answered h (by decide) (by decide)
      (svcQueue_found (s := countedFor s 4) hq hlen hport hlt hold))
  · exact fun s m hlen h => completes (requestTo_answered h (by decide) (by decide) (svcQueue_short hlen))
  · exact fun s m => ⟨fun h => completes (requestTo_answered h (by decide) (by decide) rfl), fun h => completes (requestTo_answered h (by decide) (by decide) rfl),
      fun h => ⟨completes (requestTo_answered h (by decide) (by decide) rfl), completes (requestTo_answered h (by decide) (by decide) rfl)⟩,
      fun h => completes (requestTo_answered h (by decide) (by decide) rfl), fun h => completes (requestTo_answered h (by decide) (by decide) rfl),
      fun h => completes (requestTo_answered h (by decide) (by decide) rfl)⟩
  · exact fun s m => ⟨fun h => ⟨completes (requestTo_answered h (by decide) (by decide) rfl), completes (requestTo_answered h (by decide) (by decide) rfl)⟩,
      fun h => ⟨completes (requestTo_answered h (by decide) (by decide) rfl), completes (requestTo_answered h (by decide) (by decide) rfl)⟩,
      fun h => completes (requestTo_answered h (by decide) (by decide) rfl), fun h => completes (requestTo_answered h (by decide) (by decide) rfl),
      fun h => completes (requestTo_answered h (by decide) (by decide) rfl), fun h => completes (requestTo_answered h (by decide) (by decide) rfl)⟩
  · intro s m h
    exact ⟨fun hlen => completes (requestTo_answered h (by decide) (by decide) (if_neg (not_not_intro hlen))),
      fun hlen => completes (requestTo_answered h (by decide) (by decide) (if_pos hlen)),
      fun c hc => completes (requestTo_answered h (by decide) (by decide) (svcInspCancel_known hc)),
      fun hc => completes (requestTo_answered h (by decide) (by decide) (svcInspCancel_unknown hc))⟩

end Sys2Proof
end

section
/-! PROOFS. Host rings: doorbells, index reads, enable and disable, moderation (R429 to R431, R441, R449). -/

namespace Sys2Proof.Machine

/-! ### What the host path rests on -/

/-- PCIe, power, resets, holds, every PG_CTL and the halt of the host path are as they were. -/
structure HostSame (s t : State) : Prop where
  parts : t.pcie = s.pcie ∧ t.doms = s.doms ∧ t.resets = s.resets ∧ t.d2d = s.d2d ∧ t.holds = s.holds
  keep : ∀ q o, o = 0x010 ∨ (q = rngPage ∧ o = 0x104) → rd t q o = rd s q o

namespace HostSame
variable {s t : State}

theorem here (s : State) : HostSame s s := ⟨⟨rfl, rfl, rfl, rfl, rfl⟩, fun _ _ _ => rfl⟩
theorem serving (h : HostSame s t) (p : Nat) : serving t p = serving s p := by
  obtain ⟨-, hdoms, hresets, hd2d, hholds⟩ := h.parts
  exact serving_congr (fun q => h.keep q 0x010 (.inl rfl)) hholds hdoms hresets hd2d p
theorem pcieLive (h : HostSame s t) : pcieLive t = pcieLive s := by
  obtain ⟨hpcie, -⟩ := h.parts
  rw [Machine.pcieLive, hpcie, h.serving]
  rfl
theorem halted (h : HostSame s t) : halted t = halted s := bitAt_congr (h.keep _ _ (.inr ⟨rfl, rfl⟩)) 0
theorem hostLive (h : HostSame s t) : hostLive t = hostLive s := by
  rw [Machine.hostLive, h.pcieLive, h.halted, h.serving]
  rfl
theorem wr (h : HostSame s t) {p o : Nat} (v : Word) (hp : p ≠ rngPage) (ho : 0x100 ≤ o) (ho' : o < 4096) : HostSame s (wr t p o v) := by
  obtain ⟨hpcie, hdoms, hresets, hd2d, hholds⟩ := h.parts
  refine ⟨by simp [hpcie, hdoms, hresets, hd2d, hholds], fun q w hw => (rd_wr_key _ _ _ _ _ _ ?_).trans (h.keep q w hw)⟩
  rcases hw with rfl | ⟨rfl, rfl⟩ <;> omega
theorem written (p o v : Nat) (hp : p ≠ rngPage) (ho : 0x100 ≤ o) (ho' : o < 4096) : HostSame s (written s p o v) := by
  obtain ⟨g, b, hstore⟩ := storeWord_only s p o v all32
  refine ⟨?_, fun q w hw => rd_storeWord_other _ _ _ _ _ _ _ ?_⟩
  · rw [Machine.written, hstore]
    exact ⟨rfl, rfl, rfl, rfl, rfl⟩
  · rcases hw with rfl | ⟨rfl, rfl⟩ <;> omega
theorem setSq (h : HostSame s t) (n : Nat) (x : SqRing) : HostSame s (setSq t n x) := ⟨h.parts, h.keep⟩
theorem setCqRing (h : HostSame s t) (n : Nat) (x : CqRing) : HostSame s (setCqRing t n x) :=
  let h' : HostSame s { t with cqs := mapSet (fun _ => ({} : CqRing)) t.cqs n x } := ⟨h.parts, h.keep⟩
  (h'.wr _ (by unfold cqPage rngPage; omega) (by decide) (by decide)).wr _ (by unfold cqPage rngPage; omega) (by decide) (by decide)

end HostSame

theorem toHost_live {s : State} (h : pcieLive s = true) (o : Output) : toHost s o = emit s o := if_pos h
theorem toHost_dead {s : State} (h : pcieLive s = false) (o : Output) : toHost s o = s := if_neg (by simp [h])

/-! ### The pages of the rings (R452, R453) -/

theorem sq_rows : ∀ n < 256, (regRow (sqPage n) 0x100).any (fun row => !row.wide) = true ∧ isHigh (sqPage n) 0x100 = false ∧
    (regRow (sqPage n) 0x104).any (fun row => row.rw ||| row.rws == 0x0F0FFFF7 && !row.wide) = true ∧ isHigh (sqPage n) 0x104 = false ∧
    (pageInfo (sqPage n)).any (fun i => i.kind == .sq && i.sub == n) = true := by decide +kernel
theorem cq_rows : ∀ n < 256, (regRow (cqPage n) 0x100).any (fun row => !row.wide) = true ∧ isHigh (cqPage n) 0x100 = false ∧
    (regRow (cqPage n) 0x104).any (fun row => row.rw ||| row.rws == 0x7FEF1 && !row.wide) = true ∧ isHigh (cqPage n) 0x104 = false ∧
    (pageInfo (cqPage n)).any (fun i => i.kind == .cq && i.sub == n) = true := by decide +kernel

section
variable {s : State} {r : Requester} {n : Nat} (hn : n < 256)
include hn

theorem regWrite_sqDoor (h : opened s r (sqPage n) 0x100 = true) :
    regWrite s r (sqPage n) 0x100 0 = { sqDoor (written s (sqPage n) 0x100 0) n with resp := .done } := by
  obtain ⟨hrow, hhigh, -, -, hkind⟩ := sq_rows n hn
  obtain ⟨row, hrow, hwide⟩ := (Option.any_eq_true _ _).mp hrow
  obtain ⟨i, hi, hkind, hsub⟩ := info_of_any hkind
  rw [regWrite_block h hi hrow (by decide) (by decide) (by simpa using hwide) hhigh (by decide)]
  refine responds ?_ _
  simp only [blockEffect, hkind, hsub]
  exact if_pos rfl
theorem regWrite_cqDoor (h : opened s r (cqPage n) 0x100 = true) :
    regWrite s r (cqPage n) 0x100 0 = { cqDoor (written s (cqPage n) 0x100 0) n with resp := .done } := by
  obtain ⟨hrow, hhigh, -, -, hkind⟩ := cq_rows n hn
  obtain ⟨row, hrow, hwide⟩ := (Option.any_eq_true _ _).mp hrow
  obtain ⟨i, hi, hkind, hsub⟩ := info_of_any hkind
  rw [regWrite_block h hi hrow (by decide) (by decide) (by simpa using hwide) hhigh (by decide)]
  refine responds ?_ _
  simp only [blockEffect, hkind, hsub]
  exact if_pos rfl

section
variable {on : Bool} {v : Nat} (hv : v = b2n on)
include hv

/-- The enable bit of a ring is written: what counts is how it changes. -/
theorem regUpdate_sq (h : opened s r (sqPage n) 0x104 = true) : regUpdate s r (sqPage n) 0x104 1 v =
    { (if bitAt s (sqPage n) 0x104 0 = on then written s (sqPage n) 0x104 (rewritten s (sqPage n) 0x104 1 v)
      else if on = true then sqEnable (written s (sqPage n) 0x104 (rewritten s (sqPage n) 0x104 1 v)) n
      else sqDisable (written s (sqPage n) 0x104 (rewritten s (sqPage n) 0x104 1 v)) n) with resp := .done } := by
  obtain ⟨-, -, hrow, hhigh, hkind⟩ := sq_rows n hn
  obtain ⟨row, hrow, hmask⟩ := (Option.any_eq_true _ _).mp hrow
  simp only [Bool.and_eq_true, beq_iff_eq, Bool.not_eq_true'] at hmask
  obtain ⟨i, hi, hkind, hsub⟩ := info_of_any hkind
  have hnow : bitOf (rd (written s (sqPage n) 0x104 (rewritten s (sqPage n) 0x104 1 v)) (sqPage n) 0x104).toNat 0 = on := by
    rw [bitOf_written hrow _ (by decide) (by rw [hmask.1]; decide), testBit_rewritten hrow _ _ (by decide), hv, if_pos (by decide)]
    cases on <;> rfl
  have hold : bitOf (rd s (sqPage n) 0x104).toNat 0 = bitAt s (sqPage n) 0x104 0 := rfl
  rw [regUpdate, regWrite_block h hi hrow (by decide) (by decide) hmask.2 hhigh (rewritten_lt _ _ _ _ (by decide))]
  refine responds ?_ _
  simp only [blockEffect, hkind, hsub]
  refine (if_neg (by decide)).trans ((if_pos rfl).trans ?_)
  rw [hnow, hold]
  cases on <;> cases bitAt s (sqPage n) 0x104 0 <;> simp
theorem regUpdate_cq (h : opened s r (cqPage n) 0x104 = true) : regUpdate s r (cqPage n) 0x104 1 v =
    { (if bitAt s (cqPage n) 0x104 0 = on then written s (cqPage n) 0x104 (rewritten s (cqPage n) 0x104 1 v)
      else if on = true then cqEnable (written s (cqPage n) 0x104 (rewritten s (cqPage n) 0x104 1 v)) n
      else cqDisable (written s (cqPage n) 0x104 (rewritten s (cqPage n) 0x104 1 v)) n) with resp := .done } := by
  obtain ⟨-, -, hrow, hhigh, hkind⟩ := cq_rows n hn
  obtain ⟨row, hrow, hmask⟩ := (Option.any_eq_true _ _).mp hrow
  simp only [Bool.and_eq_true, beq_iff_eq, Bool.not_eq_true'] at hmask
  obtain ⟨i, hi, hkind, hsub⟩ := info_of_any hkind
  have hnow : bitOf (rd (written s (cqPage n) 0x104 (rewritten s (cqPage n) 0x104 1 v)) (cqPage n) 0x104).toNat 0 = on := by
    rw [bitOf_written hrow _ (by decide) (by rw [hmask.1]; decide), testBit_rewritten hrow _ _ (by decide), hv, if_pos (by decide)]
    cases on <;> rfl
  have hold : bitOf (rd s (cqPage n) 0x104).toNat 0 = bitAt s (cqPage n) 0x104 0 := rfl
  rw [regUpdate, regWrite_block h hi hrow (by decide) (by decide) hmask.2 hhigh (rewritten_lt _ _ _ _ (by decide))]
  refine responds ?_ _
  simp only [blockEffect, hkind, hsub]
  refine (if_neg (by decide)).trans ((if_pos rfl).trans ?_)
  rw [hnow, hold]
  cases on <;> cases bitAt s (cqPage n) 0x104 0 <;> simp

end

end

/-- A field outside the mask that software may write stays. -/
theorem fld_rewritten_off {s : State} {p o mask v hi lo : Nat} {row : RegRow} (hrow : regRow p o = some row) (hhi : hi < 32)
    (hrw : ∀ b < 32, lo ≤ b → b ≤ hi → (row.rw ||| row.rws).testBit b = true ∧ mask.testBit b = false) :
    fld (written s p o (rewritten s p o mask v)) p o hi lo = fld s p o hi lo := by
  refine fld_congr_bits fun i hi => ?_
  obtain ⟨hb, hm⟩ := hrw (lo + i) (by omega) (by omega) (by omega)
  refine (bitOf_written hrow _ (by omega) hb).trans ?_
  rw [testBit_rewritten hrow _ _ (by omega), if_neg (by rw [hm]; decide), hb, Bool.and_true]
theorem bitAt_rewritten_off {s : State} {p o mask v b : Nat} {row : RegRow} (hrow : regRow p o = some row) (hb : b < 32)
    (hrw : (row.rw ||| row.rws).testBit b = true ∧ mask.testBit b = false) :
    bitAt (written s p o (rewritten s p o mask v)) p o b = bitAt s p o b := by
  refine (bitOf_written hrow _ hb hrw.1).trans ?_
  rw [testBit_rewritten hrow _ _ hb, if_neg (by rw [hrw.2]; decide), hrw.1, Bool.and_true]

/-! ### Doorbells and index reads (R430, R441) -/

section
variable {s u : State} {n : Nat} {x : SqRing} (hsame : HostSame s u) (hx : x = sqOf u n)
include hsame hx

theorem sqDoor_off (h : x.on = false ∨ halted s = true) : sqDoor u n = u := by
  subst hx
  refine if_pos (h.imp (fun h => by simp [h]) fun h => ?_)
  rw [hsame.halted]
  exact h
section
variable (hon : x.on = true) (hrun : halted s = false)
include hon hrun

theorem sqDoor_again (hread : x.reading = true) : sqDoor u n = setSq u n { x with again := true } := by
  subst hx
  exact (if_neg (by rw [hsame.halted, hrun]; simp [hon])).trans (if_pos hread)
theorem sqDoor_reads (hread : x.reading = false) : sqDoor u n = if pcieLive s = true then emit (setSq u n { x with reading := true, readDue := false })
    (.hostRead x.rcb 4) else setSq u n { x with reading := true, readDue := true } := by
  subst hx
  refine (if_neg (by rw [hsame.halted, hrun]; simp [hon])).trans ((if_neg (by simp [hread])).trans ?_)
  cases hp : pcieLive s with
  | true =>
    rw [toHost_live (((hsame.setSq _ _).pcieLive).trans hp), hsame.pcieLive, hp]
    rfl
  | false =>
    rw [toHost_dead (((hsame.setSq _ _).pcieLive).trans hp), hsame.pcieLive, hp]
    rfl

end

end

theorem cqDoor_off {s u : State} {n : Nat} (hsame : HostSame s u) (h : (cqRing u n).on = false ∨ halted s = true) : cqDoor u n = u := by
  refine if_pos (h.imp (fun h => by simp [h]) fun h => ?_)
  rw [hsame.halted]
  exact h
theorem cqDoor_reads {s u : State} {n : Nat} (hsame : HostSame s u) (hon : (cqRing u n).on = true) (hrun : halted s = false) : cqDoor u n =
    if pcieLive s = true then emit u (.hostRead (cqRing u n).rcb 4) else setCqRing u n { cqRing u n with readDue := true } := by
  refine (if_neg (by rw [hsame.halted, hrun]; simp [hon])).trans ?_
  cases hp : pcieLive s with
  | true =>
    rw [hsame.pcieLive, hp]
    exact toHost_live (hsame.pcieLive.trans hp) _
  | false =>
    rw [hsame.pcieLive, hp]
    exact toHost_dead ((hsame.setCqRing _ _).pcieLive.trans hp) _

section
variable {s : State} {n : Nat}

theorem prodIn_unasked (h : hostLive s = false ∨ (sqOf s n).on = false ∨ (sqOf s n).reading = false ∨ (sqOf s n).readDue = true) (v : HostRead Word) :
    prodIn s n v = s := if_pos (by rcases h with h | h | h | h <;> simp [h])
section
variable (hlive : hostLive s = true) (hon : (sqOf s n).on = true) (hread : (sqOf s n).reading = true) (hdue : (sqOf s n).readDue = false)
include hlive hon hread hdue

theorem prodIn_error : prodIn s n .error = halt s 10 n false (sqConsOf s n).toNat [] := if_neg (by simp [hlive, hon, hread, hdue])
theorem prodIn_ok (v : Word) : prodIn s n (.ok v) = if (sqOf s n).size < (v - sqConsOf s n).toNat then halt s 2 n false (sqConsOf s n).toNat []
    else if (sqOf s n).again = true then emit (setSq (wr s (sqPage n) 0x120 v) n { sqOf s n with again := false }) (.hostRead (sqOf s n).rcb 4)
    else setSq (wr s (sqPage n) 0x120 v) n { sqOf s n with reading := false } := if_neg (by simp [hlive, hon, hread, hdue])

end

theorem cqConsIn_unasked (h : hostLive s = false ∨ (cqRing s n).on = false) (v : HostRead Word) : cqConsIn s n v = s :=
  if_pos (by rcases h with h | h <;> simp [h])
section
variable (hlive : hostLive s = true) (hon : (cqRing s n).on = true)
include hlive hon

theorem cqConsIn_error : cqConsIn s n .error = halt s 10 n true 0 [] := if_neg (by simp [hlive, hon])
theorem cqConsIn_ok (v : Word) : cqConsIn s n (.ok v) = if (cqRing s n).size < (cqProd s n - v).toNat then halt s 11 n true 0 []
    else drainCq (wr s (cqPage n) 0x124 v) n (cqRing s n).held.length := if_neg (by simp [hlive, hon])

end

/-- Held records leave one after another while there is room. -/
theorem drainCq_front {c : Compl} {l : List Compl} (hheld : (cqRing s n).held = c :: l) (hlive : hostLive s = true) : drainCq s n (l.length + 1) =
    if c.records ≤ freeRecords s n then drainCq (writeCompl (setCqRing s n { cqRing s n with held := l }) n c) n l.length else s := by
  rw [drainCq]
  dsimp only
  rw [hheld]
  dsimp only
  rw [hlive, Bool.true_and]
  simp only [decide_eq_true_eq]

theorem modTimer_idle (h : (cqRing s n).since = none) : modTimer s n = s := by
  unfold modTimer
  dsimp only
  rw [h]
theorem modTimer_runs {b : Nat} (h : (cqRing s n).since = some b) : modTimer s n =
    if b + usUnits (fld s (cqPage n) 0x118 31 16) ≤ now s then setCqRing s n { cqRing s n with due := true } else s := by
  unfold modTimer
  dsimp only
  rw [h]

end

/-! ### Enable and disable (R429) -/

section
variable {s : State} {n : Nat}

theorem sqOf_setSq (x : SqRing) : sqOf (setSq s n x) n = x := mapGet_mapSet_same ..
theorem sqOf_congr {t : State} (h : t.sqs = s.sqs) (n : Nat) : sqOf t n = sqOf s n := by rw [sqOf, h]; rfl
theorem cqRing_congr {t : State} (h : t.cqs = s.cqs) (n : Nat) : cqRing t n = cqRing s n := by rw [cqRing, h]; rfl
theorem sqOf_written (p o v n : Nat) : sqOf (written s p o v) n = sqOf s n := by
  obtain ⟨g, b, hstore⟩ := storeWord_only s p o v all32
  rw [written, hstore]
  rfl
theorem cqRing_written (p o v n : Nat) : cqRing (written s p o v) n = cqRing s n := by
  obtain ⟨g, b, hstore⟩ := storeWord_only s p o v all32
  rw [written, hstore]
  rfl
theorem rd64_written_off (p o v : Nat) {w : Nat} (h : w ≠ o) (h4 : w + 4 ≠ o) : rd64 (written s p o v) p w = rd64 s p w := by
  rw [rd64, rd_written_off _ _ _ h, rd_written_off _ _ _ h4]
  rfl
theorem setCqRing_cqs (x : CqRing) : (setCqRing s n x).cqs = mapSet (fun _ => ({} : CqRing)) s.cqs n x := by simp [setCqRing]
theorem cqRing_setCqRing (x : CqRing) : cqRing (setCqRing s n x) n = x := by
  rw [cqRing, setCqRing_cqs]
  exact mapGet_mapSet_same ..
/-- A completion ring's state is stored beside its PG_STAT counts. -/
theorem rd_setCqRing (x : CqRing) {o : Nat} (h : o ≠ 0x11C) : rd (setCqRing s n x) (cqPage n) o = rd s (cqPage n) o := by
  unfold setCqRing setFld
  rw [rd_wr_off _ _ _ _ _ h, rd_wr_off _ _ _ _ _ h]
  rfl
theorem toHost_rings (o : Output) : (toHost s o).sqs = s.sqs ∧ (toHost s o).cqs = s.cqs ∧ (toHost s o).regs = s.regs := by
  unfold toHost
  split <;> exact ⟨rfl, rfl, rfl⟩
theorem setBlocking_rings (m : Nat) (on : Bool) : (setBlocking s m on).sqs = s.sqs ∧ (setBlocking s m on).cqs = s.cqs := by
  unfold setBlocking
  split
  · exact ⟨rfl, rfl⟩
  · obtain ⟨hsqs, hcqs, -⟩ := toHost_rings (s := setBit s (cqPage m) 0x11C 16 on) (.hostWrite ((cqRing s m).rcb + 0x44) (leBytes 4 (b2n on)))
    rw [hsqs, hcqs]
    simp
theorem bitAt_setBlocking (m : Nat) (on : Bool) : bitAt (setBlocking s m on) (cqPage m) 0x11C 16 = on := by
  unfold setBlocking
  split
  · assumption
  · obtain ⟨-, -, hregs⟩ := toHost_rings (s := setBit s (cqPage m) 0x11C 16 on) (.hostWrite ((cqRing s m).rcb + 0x44) (leBytes 4 (b2n on)))
    rw [bitAt_congr (rd_congr hregs _ _)]
    exact bitAt_setBit_same _ _ _ _ (by decide)
theorem unblock_sqs (m : Nat) : (unblock s m).sqs = s.sqs := by
  unfold unblock
  split
  · rfl
  · exact (setBlocking_rings m false).1

theorem sqEnable_shows : sqConsOf (sqEnable s n) n = 0 ∧ rd (sqEnable s n) (sqPage n) 0x120 = 0 ∧ sqOf (sqEnable s n) n = {
    on := true, typ := fld s (sqPage n) 0x104 2 1, size := ringSize (fld s (sqPage n) 0x104 7 4), cq := fld s (sqPage n) 0x104 15 8
    pipe := if 4 < fld s (sqPage n) 0x104 19 17 then 0 else fld s (sqPage n) 0x104 19 17, base := rd64 s (sqPage n) 0x108
    rcb := rd64 s (sqPage n) 0x110, noSnoop := bitAt s (sqPage n) 0x104 16, inflight := (sqOf s n).inflight } := by
  unfold sqEnable
  dsimp only
  refine ⟨?_, ?_, ?_⟩
  · rw [sqConsOf, rd_wr_off _ _ _ _ _ (by decide), rd_wr_off _ _ _ _ _ (by decide), rd_wr_same]
  · rw [rd_wr_off _ _ _ _ _ (by decide), rd_wr_same]
  · have hsqs : ∀ t : State, (wr (wr (wr t (sqPage n) 0x11C 0) (sqPage n) 0x120 0) (sqPage n) 0x118 1).sqs = t.sqs := fun t => by simp
    exact (sqOf_congr (hsqs _) n).trans (sqOf_setSq _)
theorem cqEnable_shows : cqProd (cqEnable s n) n = 0 ∧ cqCons (cqEnable s n) n = 0 ∧ cqRing (cqEnable s n) n = {
    on := true, size := ringSize (fld s (cqPage n) 0x104 7 4), vector := fld s (cqPage n) 0x104 17 9, irq := bitAt s (cqPage n) 0x104 18
    base := rd64 s (cqPage n) 0x108, rcb := rd64 s (cqPage n) 0x110, reserved := (cqRing s n).reserved } := by
  unfold cqEnable
  dsimp only
  refine ⟨?_, ?_, ?_⟩
  · rw [cqProd, rd_setCqRing _ (by decide), rd_wr_off _ _ _ _ _ (by decide), rd_wr_same]
  · rw [cqCons, rd_setCqRing _ (by decide), rd_wr_same]
  · have hfld : ∀ hi lo, fld (wr (wr s (cqPage n) 0x120 0) (cqPage n) 0x124 0) (cqPage n) 0x104 hi lo = fld s (cqPage n) 0x104 hi lo := fun hi lo =>
      fld_congr (by rw [rd_wr_off _ _ _ _ _ (by decide), rd_wr_off _ _ _ _ _ (by decide)]) hi lo
    have hbit : bitAt (wr (wr s (cqPage n) 0x120 0) (cqPage n) 0x124 0) (cqPage n) 0x104 18 = bitAt s (cqPage n) 0x104 18 :=
      bitAt_congr (by rw [rd_wr_off _ _ _ _ _ (by decide), rd_wr_off _ _ _ _ _ (by decide)]) 18
    rw [cqRing_setCqRing, hfld, hfld, hbit, rd64_wr_off _ _ _ _ _ (by decide) (by decide), rd64_wr_off _ _ _ _ _ (by decide) (by decide),
      rd64_wr_off _ _ _ _ _ (by decide) (by decide), rd64_wr_off _ _ _ _ _ (by decide) (by decide), cqRing_congr (t := wr (wr s (cqPage n) 0x120 0) (cqPage n) 0x124 0) (s := s) (by simp)]
theorem sqDisable_shows : sqOf (sqDisable s n) n = { sqOf s n with
      on := false, posted := [], fetched := [], waiting := false, reading := false, again := false, readDue := false } ∧
    ((sqOf s n).inflight = 0 → bitAt (sqDisable s n) (sqPage n) 0x118 0 = false) := by
  unfold sqDisable
  dsimp only
  constructor
  · have hsqs : ∀ (t : State) (c : Prop) [Decidable c], (if c then setBit t (sqPage n) 0x118 0 false else t).sqs = t.sqs := fun t c _ => by
      split <;> simp
    rw [sqOf_congr (hsqs _ _), sqOf_congr (unblock_sqs _)]
    have hheld : ∀ x : SqRing, (setHeld s n x).sqs = (setSq s n x).sqs := fun x => by simp [setHeld]
    exact (sqOf_congr (hheld _) n).trans (sqOf_setSq _)
  · intro h
    rw [if_pos h]
    exact bitAt_setBit_same _ _ _ _ (by decide)
theorem cqDisable_shows : cqRing (cqDisable s n) n = { cqRing s n with on := false, held := [], due := false, readDue := false } ∧
    bitAt (cqDisable s n) (cqPage n) 0x11C 16 = false := by
  unfold cqDisable
  exact ⟨(cqRing_congr (setBlocking_rings _ _).2 n).trans (cqRing_setCqRing _), bitAt_setBlocking _ _⟩

end

end Sys2Proof.Machine

namespace Sys2Proof
open Sys2Proof.Machine

/-- Settles O52: a doorbell and an index read go by the ring's state and the host path; enable samples the configuration, disable gives the rest up. -/
theorem ringsAndDoorbells : Obligations.RingsAndDoorbells := by
  unfold Obligations.RingsAndDoorbells
  refine ⟨?_, ?_, fun s n => ⟨fun h v => completes (cqConsIn_unasked h v), fun hlive hon => ⟨completes (cqConsIn_error hlive hon),
      fun v hfar => completes ((cqConsIn_ok hlive hon v).trans (if_pos hfar)), ?_⟩⟩, ?_,
    fun s n => ⟨fun h => completes (modTimer_idle h), fun b h => ⟨fun hdue => completes ((modTimer_runs h).trans (if_pos hdue)),
      fun hearly => completes ((modTimer_runs h).trans (if_neg (Nat.not_le.mpr hearly)))⟩⟩, ?_, ?_, ?_, ?_⟩
  · rintro s u r n x h rfl rfl
    have hsame : HostSame s (written s (sqPage n.toNat) 0x100 0) := .written _ _ _ (by unfold sqPage rngPage; omega) (by decide) (by decide)
    have hx : sqOf s n.toNat = sqOf (written s (sqPage n.toNat) 0x100 0) n.toNat := (sqOf_written ..).symm
    have hgo := regWrite_sqDoor n.isLt h
    refine ⟨fun hoff => completes (hgo.trans (responds (sqDoor_off hsame hx hoff) _)),
      fun hon hrun hread => completes (hgo.trans (responds (sqDoor_again hsame hx hon hrun hread) _)), fun hon hrun hread => ⟨fun hp => ?_, fun hp => ?_⟩⟩
    · exact completes (hgo.trans (responds ((sqDoor_reads hsame hx hon hrun hread).trans (if_pos hp)) _))
    · exact completes (hgo.trans (responds ((sqDoor_reads hsame hx hon hrun hread).trans (if_neg (by simp [hp]))) _))
  · rintro s n x rfl
    refine ⟨fun h v => completes (prodIn_unasked h v), fun hlive hon hread hdue => ⟨completes (prodIn_error hlive hon hread hdue), fun v hfar => ?_, fun v hnear => ?_⟩⟩
    · exact completes ((prodIn_ok hlive hon hread hdue v).trans (if_pos hfar))
    · have hok := (prodIn_ok hlive hon hread hdue v).trans (if_neg (Nat.not_lt.mpr hnear))
      exact ⟨fun ha => completes (hok.trans (if_neg (by simp [ha]))), fun ha => completes (hok.trans (if_pos ha))⟩
  · rintro v u hnear rfl
    have hok := (cqConsIn_ok hlive hon v).trans (if_neg (Nat.not_lt.mpr hnear))
    have hring : cqRing (wr s (cqPage n.toNat) 0x124 v) n.toNat = cqRing s n.toNat := cqRing_congr (by simp) _
    have hlive' : hostLive (wr s (cqPage n.toNat) 0x124 v) = true :=
      ((HostSame.here s).wr v (by unfold cqPage rngPage; omega) (by decide) (by decide)).hostLive.trans hlive
    refine ⟨fun hnil => completes (hok.trans (by rw [hnil]; rfl)), fun c l hheld => ?_⟩
    have hfront := drainCq_front (s := wr s (cqPage n.toNat) 0x124 v) (hring ▸ hheld) hlive'
    have hlen : (cqRing s n.toNat).held.length = l.length + 1 := by rw [hheld]; rfl
    rw [hlen, hfront, hring] at hok
    exact ⟨fun hfull => completes (hok.trans (if_neg (Nat.not_le.mpr hfull))), fun hroom => completes (hok.trans (if_pos hroom))⟩
  · rintro s u r n c h rfl
    have hsame : HostSame s (written s (cqPage n.toNat) 0x100 0) := .written _ _ _ (by unfold cqPage rngPage; omega) (by decide) (by decide)
    have hx : cqRing (written s (cqPage n.toNat) 0x100 0) n.toNat = cqRing s n.toNat := cqRing_written ..
    refine ⟨completes ?_, fun hoff => cqDoor_off hsame (hx ▸ hoff), fun hon hrun => ?_⟩
    · unfold cqRing'
      dsimp only
      rw [if_pos h, regWrite_cqDoor n.isLt h]
    · have hread := cqDoor_reads hsame (hx ▸ hon) hrun
      rw [hx] at hread
      exact ⟨fun hp => hread.trans (if_pos hp), fun hp => hread.trans (if_neg (by simp [hp]))⟩
  · rintro s u v r n h rfl rfl
    have hgo := regUpdate_sq n.isLt (on := true) (v := 1) rfl h
    obtain ⟨hcons, hprod, hring⟩ := sqEnable_shows (s := written s (sqPage n.toNat) 0x104 (rewritten s (sqPage n.toNat) 0x104 1 1)) (n := n.toNat)
    refine ⟨fun hon => completes (hgo.trans (responds (if_pos hon) _)), fun hoff => ⟨completes (hgo.trans (responds ((if_neg (by simp [hoff])).trans (if_pos rfl)) _)),
      hcons, hprod, ?_⟩⟩
    obtain ⟨-, -, hrow, -, -⟩ := sq_rows n.toNat n.isLt
    obtain ⟨row, hrow, hmask⟩ := (Option.any_eq_true _ _).mp hrow
    simp only [Bool.and_eq_true, beq_iff_eq] at hmask
    have hfld : ∀ hi lo, hi < 32 → (∀ b < 32, lo ≤ b → b ≤ hi → Nat.testBit 0x0F0FFFF7 b = true ∧ Nat.testBit 1 b = false) →
        fld (written s (sqPage n.toNat) 0x104 (rewritten s (sqPage n.toNat) 0x104 1 1)) (sqPage n.toNat) 0x104 hi lo = fld s (sqPage n.toNat) 0x104 hi lo :=
      fun hi lo hhi hrw => fld_rewritten_off hrow hhi (hmask.1 ▸ hrw)
    rw [hring, hfld 2 1 (by decide) (by decide), hfld 7 4 (by decide) (by decide), hfld 15 8 (by decide) (by decide), hfld 19 17 (by decide) (by decide),
      rd64_written_off _ _ _ (by decide) (by decide), rd64_written_off _ _ _ (by decide) (by decide), sqOf_written,
      bitAt_rewritten_off hrow (by decide) (by rw [hmask.1]; decide)]
  · rintro s u v r n h rfl rfl
    have hgo := regUpdate_cq n.isLt (on := true) (v := 1) rfl h
    obtain ⟨hprod, hcons, hring⟩ := cqEnable_shows (s := written s (cqPage n.toNat) 0x104 (rewritten s (cqPage n.toNat) 0x104 1 1)) (n := n.toNat)
    refine ⟨fun hon => completes (hgo.trans (responds (if_pos hon) _)), fun hoff => ⟨completes (hgo.trans (responds ((if_neg (by simp [hoff])).trans (if_pos rfl)) _)),
      hprod, hcons, ?_⟩⟩
    obtain ⟨-, -, hrow, -, -⟩ := cq_rows n.toNat n.isLt
    obtain ⟨row, hrow, hmask⟩ := (Option.any_eq_true _ _).mp hrow
    simp only [Bool.and_eq_true, beq_iff_eq] at hmask
    have hfld : ∀ hi lo, hi < 32 → (∀ b < 32, lo ≤ b → b ≤ hi → Nat.testBit 0x7FEF1 b = true ∧ Nat.testBit 1 b = false) →
        fld (written s (cqPage n.toNat) 0x104 (rewritten s (cqPage n.toNat) 0x104 1 1)) (cqPage n.toNat) 0x104 hi lo = fld s (cqPage n.toNat) 0x104 hi lo :=
      fun hi lo hhi hrw => fld_rewritten_off hrow hhi (hmask.1 ▸ hrw)
    rw [hring, hfld 7 4 (by decide) (by decide), hfld 17 9 (by decide) (by decide), rd64_written_off _ _ _ (by decide) (by decide),
      rd64_written_off _ _ _ (by decide) (by decide), cqRing_written, bitAt_rewritten_off hrow (by decide) (by rw [hmask.1]; decide)]
  · rintro s u v r n h rfl rfl
    have hgo := regUpdate_sq n.isLt (on := false) (v := 0) rfl h
    obtain ⟨hring, hdone⟩ := sqDisable_shows (s := written s (sqPage n.toNat) 0x104 (rewritten s (sqPage n.toNat) 0x104 1 0)) (n := n.toNat)
    rw [sqOf_written] at hring hdone
    exact ⟨fun hoff => completes (hgo.trans (responds (if_pos hoff) _)), fun hon => ⟨completes (hgo.trans (responds ((if_neg (by simp [hon])).trans
      (if_neg (by decide))) _)), hring, hdone⟩⟩
  · rintro s u v r n h rfl rfl
    have hgo := regUpdate_cq n.isLt (on := false) (v := 0) rfl h
    obtain ⟨hring, hdone⟩ := cqDisable_shows (s := written s (cqPage n.toNat) 0x104 (rewritten s (cqPage n.toNat) 0x104 1 0)) (n := n.toNat)
    rw [cqRing_written] at hring
    exact ⟨fun hoff => completes (hgo.trans (responds (if_pos hoff) _)), fun hon => ⟨completes (hgo.trans (responds ((if_neg (by simp [hon])).trans
      (if_neg (by decide))) _)), hring, hdone⟩⟩

end Sys2Proof
end

section
/-! PROOFS. Ring entries and frames for the host port (R431 to R441). -/

namespace Sys2Proof.Machine

/-! ### Entries as they are fetched (R431, R434, R437, R439) -/

section
variable {s : State} {n : Nat}

theorem txIn_unready (h : sqReady s n 0 = false) (v : HostRead (List (BitVec 128))) (d : HostRead (List Byte)) : txIn s n v d = s := if_pos (by simp [h])
theorem rxIn_unready (h : sqReady s n 1 = false) (v : HostRead (List (BitVec 128))) : rxIn s n v = s := if_pos (by simp [h])
theorem svcIn_unready (h : sqReady s n 2 = false) (v : HostRead (List (BitVec 128))) : svcIn s n v = s := if_pos (by simp [h])
theorem copyIn_unready (h : sqReady s n 3 = false) (v : HostRead (List (BitVec 128))) : copyIn s n v = s := if_pos (by simp [h])

theorem txIn_error (h : sqReady s n 0 = true) (d : HostRead (List Byte)) :
    txIn s n .error d = halt (askSlots s n 1) 10 n false (sqConsOf s n).toNat [] := if_neg (by simp [h])
theorem rxIn_error (h : sqReady s n 1 = true) : rxIn s n .error = halt (askSlots s n 1) 10 n false (sqConsOf s n).toNat [] := if_neg (by simp [h])
theorem svcIn_error (h : sqReady s n 2 = true) : svcIn s n .error = halt (askSlots s n 1) 10 n false (sqConsOf s n).toNat [] := if_neg (by simp [h])
theorem copyIn_error (h : sqReady s n 3 = true) : copyIn s n .error = halt (askSlots s n 1) 10 n false (sqConsOf s n).toNat [] := if_neg (by simp [h])

theorem txIn_ok (h : sqReady s n 0 = true) (l : List (BitVec 128)) (d : HostRead (List Byte)) : txIn s n (.ok l) d =
    if txCause s n (l.headD 0) (l.drop 1) ≠ 0 then
      halt (askSlots s n (sfld (l.headD 0) 3 0 + 1)) (txCause s n (l.headD 0) (l.drop 1)) n false (sqConsOf s n).toNat l
    else if (!slotsFit s n (sfld (l.headD 0) 3 0 + 1)) = true then s
    else fetchEntry (askSlots s n (sfld (l.headD 0) 3 0 + 1)) n
      { index := (sqConsOf s n).toNat, count := sfld (l.headD 0) 3 0 + 1, slots := l, data := d } := if_neg (by simp [h])

/-- Why an RX entry is malformed; 0 for none. -/
def rxCause (h : BitVec 128) : Nat := if sfld h 3 0 ≠ 0 then 1 else if sfld h 31 18 ≠ 0 then 3 else if sfld h 17 4 < 64 then 7 else 0
theorem rxIn_ok (hr : sqReady s n 1 = true) (h : BitVec 128) : rxIn s n (.ok [h]) =
    if rxCause h ≠ 0 then halt (askSlots s n 1) (rxCause h) n false (sqConsOf s n).toNat [h]
    else if (!slotsFit s n 1) = true then s
    else passSlots (askSlots s n 1) n 1 { sqOf s n with
      posted := (sqOf s n).posted ++ [{ index := sqConsOf s n, tag := sfld h 63 32, len := sfld h 17 4, addr := sfld h 127 64 }] } := if_neg (by simp [hr])

/-- Why an SVC entry is malformed; 0 for none. -/
def svcCause (s : State) (n : Nat) (h : BitVec 128) : Nat :=
  if slotsLeft s n < sfld h 23 20 + 1 then 1 else if sfld h 19 19 ≠ 0 ∨ sfld h 63 48 ≠ 0 ∨ sfld h 127 104 ≠ 0 then 3
  else if 16 * (sfld h 23 20 + 1 - 1) < sfld h 103 96 then 8 else 0
theorem svcIn_ok (hr : sqReady s n 2 = true) (l : List (BitVec 128)) : svcIn s n (.ok l) =
    if svcCause s n (l.headD 0) ≠ 0 then halt (askSlots s n (sfld (l.headD 0) 23 20 + 1)) (svcCause s n (l.headD 0)) n false (sqConsOf s n).toNat l
    else if (!embTakes s (slotMsg n (l.take (sfld (l.headD 0) 23 20 + 1)))) = true ∨ (!slotsFit s n (sfld (l.headD 0) 23 20 + 1)) = true then s
    else fetchEntry (askSlots s n (sfld (l.headD 0) 23 20 + 1)) n { index := (sqConsOf s n).toNat, count := sfld (l.headD 0) 23 20 + 1, slots := l,
                                                                    msg := some (slotMsg n (l.take (sfld (l.headD 0) 23 20 + 1))) } := if_neg (by simp [hr])

/-- Why a COPY entry is malformed; 0 for none. -/
def copyCause (s : State) (n : Nat) (a : BitVec 128) : Nat :=
  if sfld a 3 0 ≠ 1 ∨ sfld a 95 64 = 0 then 9 else if slotsLeft s n < 2 then 1 else if sfld a 31 15 ≠ 0 then 3 else 0
theorem copyIn_ok (hr : sqReady s n 3 = true) (a b : BitVec 128) : copyIn s n (.ok [a, b]) =
    if copyCause s n a ≠ 0 then halt (askSlots s n 2) (copyCause s n a) n false (sqConsOf s n).toNat [a, b]
    else if (!slotsFit s n 2) = true then s
    else fetchEntry (askSlots s n 2) n { index := (sqConsOf s n).toNat, count := 2, slots := [a, b] } := if_neg (by simp [hr])

/-! ### The start of fetched entries (R432, R440, R441) -/

theorem moveRings_none (h : nextRing s = none) (k : Nat) : moveRings k s = s := by
  cases k with
  | zero => rfl
  | succ k =>
    rw [moveRings, h]
theorem moveRings_some (h : nextRing s = some n) (k : Nat) : moveRings (k + 1) s =
    moveRings k (if entryMove s n = some true then startFront s n else blockEntry s n (sqOf s n).cq) := by
  rw [moveRings, h]
theorem entryMove_next (h : nextRing s = some n) : entryMove s n ≠ none := by
  obtain ⟨l, -, hl⟩ := List.exists_of_findSome?_eq_some h
  have hmove := List.find?_some hl
  intro hnone
  rw [hnone] at hmove
  cases hmove
theorem entryMove_starts {f : Fetched} {rest : List Fetched} (hf : (sqOf s n).fetched = f :: rest) (h : entryMove s n ≠ none) :
    entryMove s n = some true ↔ mayStart s n (recordsNeeded (sqOf s n).typ f) = true := by
  revert h
  unfold entryMove
  dsimp only
  rw [hf]
  dsimp only
  split
  · exact fun h => absurd rfl h
  · intro _
    split
    · next hm => simp [hm]
    · next hm =>
      split <;> simp [hm]

section
variable {f : Fetched} {rest : List Fetched} (hf : (sqOf s n).fetched = f :: rest)
include hf

theorem startFront_tx (h : (sqOf s n).typ = 0) : startFront s n = txStart s n f := by
  simp only [startFront, hf, h]
theorem startFront_svc {m : SvcRequest} (h : (sqOf s n).typ = 2) (hm : f.msg = some m) :
    startFront s n = embDeliver (startEntry s n (if m.noResp then 0 else 9)) m f.index := by
  have hrec : recordsNeeded 2 f = if m.noResp then 0 else 9 := by
    simp [recordsNeeded, hm]
  simp only [startFront, hf, h, hm, hrec]
theorem startFront_copy (h : (sqOf s n).typ = 3) : startFront s n = copyTake s n f := by
  simp only [startFront, hf, h]

end

/-! ### TX entries (R435, R436) -/

section
variable {f : Fetched} {u : State} (hu : u = forEach (startEntry s n (if sfld (f.slots.headD 0) 6 5 = 1 then 2 else 1)) (f.slots.drop 1)
  (fun s g => emit s (.hostRead (sfld g 63 0) (sfld g 77 64) (sqOf s n).noSnoop)))
include hu

theorem txStart_error (h : f.data = .error) : txStart s n f = complete (raise (countReason u 8 0xC5) rngPage 3 0xC5) n
    { typ := 0, status := 0xC5, index := f.index, tag := sfld (f.slots.headD 0) 95 64, records := if sfld (f.slots.headD 0) 6 5 = 1 then 2 else 1
      data := leBytes 16 0 } := by
  have hrec : recordsNeeded 0 f = if sfld (f.slots.headD 0) 6 5 = 1 then 2 else 1 := rfl
  unfold txStart
  simp only [h, hrec, ← hu]
  rfl

/-- The frame of a TX entry whose bytes have been read. -/
def txFrame (u : State) (n : Nat) (h : BitVec 128) (bytes : List Byte) : Frame :=
  { id := u.nextId, bytes := bytes, ingress := 112, ts := stampNow u % 2 ^ 64, tc := if sfld h 4 4 = 1 then sfld h 18 16 else 0
    tsTag := if sfld h 6 5 = 1 then some (n, sfld h 95 64) else none, ptp := if sfld h 6 5 = 2 then 1 else 0
    parser := if sfld h 4 4 = 1 then some (sqOf u n).pipe else none }
variable {bs bytes : List Byte} (hok : f.data = .ok bs) (hbytes : bytes = fitBytes (max 60 (sfld (f.slots.headD 0) 45 32)) (fitBytes (sfld (f.slots.headD 0) 45 32) bs))
include hok hbytes

theorem txStart_refused {t : State} (h : grant { u with nextId := u.nextId + 1 } .granules 5 (granulesOf (txFrame u n (f.slots.headD 0) bytes)) 8 = (none, t)) :
    txStart s n f = complete t n { typ := 0, status := grantVerdict u .granules 5 (granulesOf (txFrame u n (f.slots.headD 0) bytes)), index := f.index
                                   tag := sfld (f.slots.headD 0) 95 64, records := if sfld (f.slots.headD 0) 6 5 = 1 then 2 else 1, data := leBytes 16 0 } := by
  have hrec : recordsNeeded 0 f = if sfld (f.slots.headD 0) 6 5 = 1 then 2 else 1 := rfl
  unfold txFrame at h
  unfold txStart
  simp only [hok, hrec, ← hu, ← hbytes, h]
  rfl
theorem txStart_granted {b : Nat} {t : State}
    (h : grant { u with nextId := u.nextId + 1 } .granules 5 (granulesOf (txFrame u n (f.slots.headD 0) bytes)) 8 = (some b, t)) {c : Compl}
    (hc : c = { typ := 0, index := f.index, tag := sfld (f.slots.headD 0) 95 64, records := if sfld (f.slots.headD 0) 6 5 = 1 then 2 else 1
                data := leBytes 16 bytes.length }) {v : State}
    (hv : v = addCopy t { frame := txFrame u n (f.slots.headD 0) bytes, port := sfld (f.slots.headD 0) 15 8, buf := b }) : txStart s n f =
      if sfld (f.slots.headD 0) 4 4 = 0 then complete (pipeArrive t (sqOf t n).pipe { frame := txFrame u n (f.slots.headD 0) bytes, buf := b }) n c
      else if sfld (f.slots.headD 0) 6 5 ≠ 1 then complete v n c
      else { v with txWait := v.txWait ++ [{ ring := n, tag := sfld (f.slots.headD 0) 95 64, index := f.index, len := bytes.length
                                             sel := decide (sfld (f.slots.headD 0) 7 7 = 1), since := now v }] } := by
  have hrec : recordsNeeded 0 f = if sfld (f.slots.headD 0) 6 5 = 1 then 2 else 1 := rfl
  subst hc hv
  unfold txFrame at h ⊢
  unfold txStart
  simp only [hok, hrec, ← hu, ← hbytes, h]
  rfl
end

end

/-! ### Frames for the host port (R438) -/

section
variable {s : State} {n : Nat}

/-- A ring's turn changes neither its mode nor what it snoops. -/
theorem noSnoop_startEntry (k : Nat) : (sqOf (startEntry s n k) n).noSnoop = (sqOf s n).noSnoop := by
  have hheld : ∀ (t : State) (x : SqRing), (inc (setHeld t n x) (sqPage n) 0x124).sqs = (setSq t n x).sqs := fun t x => by simp [setHeld]
  have hcq : ∀ (t : State) (c : Prop) [Decidable c] (m : Nat) (x : CqRing), (if c then t else setCqRing t m x).sqs = t.sqs := fun t c _ m x => by
    split
    · rfl
    · simp [setCqRing]
  unfold startEntry
  dsimp only
  rw [sqOf_congr (unblock_sqs _), sqOf_congr (hcq _ _ _ _), sqOf_congr (hheld _ _), sqOf_setSq]
theorem noSnoop_setHeld {x : SqRing} (h : x.noSnoop = (sqOf s n).noSnoop) : (sqOf (setHeld s n x) n).noSnoop = (sqOf s n).noSnoop := by
  have hheld : (setHeld s n x).sqs = (setSq s n x).sqs := by simp [setHeld]
  rw [sqOf_congr hheld, sqOf_setSq, h]

section
variable {t g : State} {tc : Nat} {c tier : Nat} {f : QFrame}

theorem hostDeliver_none (h : chooseNow s 112 = (none, t, g)) : hostDeliver s tc = g := by
  unfold hostDeliver hostSelect
  rw [h]
theorem hostDeliver_other (h : chooseNow s 112 = (some (c, tier, f), t, g)) (hc : c ≠ tc) : hostDeliver s tc = s := by
  unfold hostDeliver hostSelect
  rw [h]
  exact if_pos (by simpa using fun h : tc = c => hc h.symm)
theorem hostDeliver_own (h : chooseNow s 112 = (some (c, tier, f), t, g)) (hc : c = tc) : hostDeliver s tc =
    if hostBar s f.frame ≠ 0 then hostDrop (chargeNow g 112 c tier f) (qIdx 112 c) f (hostBar s f.frame)
    else match (sqOf s (rxRing s f.frame)).posted with
      | [] => { t with rxWait := mapSet (fun _ => none) t.rxWait c (some (f.seq, now s)) }
      | b :: rest => if mayStart s (rxRing s f.frame) 2 then hostWriteOut (chargeNow g 112 c tier f) (qIdx 112 c) f b rest
        else { blockEntry t (rxRing s f.frame) (sqOf s (rxRing s f.frame)).cq with
          rxWait := mapSet (fun _ => none) (blockEntry t (rxRing s f.frame) (sqOf s (rxRing s f.frame)).cq).rxWait c (some (f.seq, now s)) } := by
  unfold hostDeliver hostSelect
  rw [h]
  exact if_neg (by simp [hc])

end

/-- The choice of a frame leaves the tables alone. -/
theorem creditTick_tabs (s : State) (port : Nat) : (creditTick s port).tabs = s.tabs :=
  forEach_keeps (fun s : State => s.tabs) (fun t c => by unfold creditQueue; split <;> rfl) _ s
theorem fillTokens_tabs (s : State) (port : Nat) : (fillTokens s port).tabs = s.tabs := by
  unfold fillTokens
  dsimp only
  split <;> rfl
theorem dwrrGo_tabs (port fuel : Nat) (s : State) (rr : Nat) : (dwrrGo s port fuel rr).2.tabs = s.tabs := by
  induction fuel generalizing s rr with
  | zero => rfl
  | succ fuel ih =>
    rw [dwrrGo]
    dsimp only
    have hite : ∀ (q : Prop) [Decidable q] (a b : Option Nat × State), a.2.tabs = s.tabs → b.2.tabs = s.tabs → (if q then a else b).2.tabs = s.tabs :=
      fun q _ a b ha hb => by split <;> assumption
    generalize (if schMode s port rr = 1 ∧ shaperAllows s port = true then eligible s port rr else none) = o
    cases o with
    | none => exact ih _ _
    | some f => exact hite _ _ _ rfl (ih _ _)
theorem pick_tabs (s : State) (port : Nat) : (pick s port).2.tabs = s.tabs := by
  unfold pick
  dsimp only
  split
  · rfl
  · split
    · rfl
    · split
      · rfl
      · split
        · next h => rw [h]
        · split
          · exact dwrrGo_tabs ..
          · rfl
theorem chooseNow_tabs (s : State) (port : Nat) : (chooseNow s port).2.2.tabs = s.tabs := by
  have hu : (fillTokens (creditTick s port) port).tabs = s.tabs := (fillTokens_tabs _ _).trans (creditTick_tabs _ _)
  unfold chooseNow
  generalize fillTokens (creditTick s port) port = u at hu ⊢
  dsimp only
  split
  · exact hu
  · exact (pick_tabs u port).trans hu
/-- A promotion is counted among the reasons of its region. -/
theorem tget_promoted (port c k : Nat) : tget (promoted s port c) rngPage 0 0 k = tget s rngPage 0 0 k := by
  have hraise : ∀ t : State, (raise (inc t (schPage port) 0x10C) (schPage port) 0 0x8C c).tabs = t.tabs := fun t => by simp
  have hcount : ∀ t : State, tget (countReason t 5 0x8C) rngPage 0 0 k = tget t rngPage 0 0 k := fun t =>
    mapGet_mapSet_other _ _ _ (by unfold tabKey rngPage; omega)
  refine (congrArg (fun m => mapGet tabReset m (tabKey rngPage 0 0 k)) (hraise _)).trans ((hcount _).trans rfl)
/-- R438: the charge for a frame counts at most one promotion, which is no steering of host codes. -/
theorem rxRing_chargeNow (port c tier : Nat) (qf : QFrame) (f : Frame) : rxRing (chargeNow s port c tier qf) f = rxRing s f := by
  have hcharge : ∀ (t : State) (len : Nat), (chargeTokens t port len).tabs = t.tabs := fun t len => by
    unfold chargeTokens
    split <;> rfl
  have hqueue : (chargeNow s port c tier qf).tabs = (if tier = 1 then promoted s port c else s).tabs := by
    have hite : ∀ (q : Prop) [Decidable q] (a : State) (n : Nat) (x : Queue), (if q then a else setQueue a n x).tabs = a.tabs := fun q _ a n x => by
      split <;> rfl
    exact (hite _ _ _ _).trans (hcharge _ _)
  rw [rxRing, tget, hqueue]
  split
  · exact congrArg (fun e => efld e 7 0) (tget_promoted port c f.hostCode)
  · rfl

/-- R438: the frame goes to the posted buffer. -/
theorem hostWriteOut_completes {u v w : State} {c : Nat} {f : QFrame} {b : RxBuf} {rest : List RxBuf} {d : List Byte × State} (hc : c < 8)
    (hn : n = rxRing u f.frame)
    (hv : v = takeHead { u with rxWait := mapSet (fun _ => none) u.rxWait c none } (qIdx 112 c) f)
    (hw : w = emit (startEntry (setHeld v n { sqOf v n with posted := rest }) n 2)
      (.hostWrite b.addr (f.frame.bytes.take (min b.len f.frame.bytes.length)) (sqOf v n).noSnoop))
    (hd : d = rxData (if b.len < f.frame.bytes.length then countReason w 8 0xC4 else w) f.frame (min b.len f.frame.bytes.length)) :
    hostWriteOut u (qIdx 112 c) f b rest = complete d.2 n {
      typ := 1, status := if b.len < f.frame.bytes.length then 0xC4 else 0, index := b.index.toNat, tag := b.tag, records := 2, data := d.1 } := by
  have htc : qTc (qIdx 112 c) = c := by unfold qTc qIdx; omega
  have hsnoop : (sqOf (startEntry (setHeld v n { sqOf v n with posted := rest }) n 2) n).noSnoop = (sqOf v n).noSnoop :=
    (noSnoop_startEntry 2).trans (noSnoop_setHeld rfl)
  unfold hostWriteOut
  dsimp only
  rw [htc, ← hn, ← hv, hsnoop, ← hw]
  simp only [decide_eq_true_eq]
  rw [← hd]

theorem hostBar_dead (h : hostLive s = false) (f : Frame) : hostBar s f = 0xC1 := if_pos (by simp [h])
theorem hostBar_live (h : hostLive s = true) (f : Frame) : hostBar s f =
    if (!ebit (tget s rngPage 0 0 f.hostCode) 8) = true ∨ (!(sqOf s (rxRing s f)).on) = true ∨ (sqOf s (rxRing s f)).typ ≠ 1 then 0xC3 else 0 :=
  if_neg (by simp [h])

theorem rxWaitOver_idle {tc : Nat} (h : headOf s (qIdx 112 tc) = none ∨ rxSince s tc = none) : rxWaitOver s tc = s := by
  unfold rxWaitOver
  rcases h with h | h
  · rw [h]
  · rw [h]
    cases headOf s (qIdx 112 tc) <;> rfl
theorem rxWaitOver_waits {tc b : Nat} {f : QFrame} (hf : headOf s (qIdx 112 tc) = some f) (hb : rxSince s tc = some b) : rxWaitOver s tc =
    if b + usUnits (fld s rngPage 0x100 15 0) ≤ now s then hostDrop s (qIdx 112 tc) f 0xC2 else s := by
  unfold rxWaitOver
  rw [hf, hb]

/-! ### The wait for a stamp (R436) -/

theorem tsLate_early {tag : Nat} (h : ∀ w ∈ s.txWait, w.tag = tag → now s < w.since + msUnits 10) : tsLate s tag = s := by
  have hnone : s.txWait.find? (fun w => w.tag == tag && decide (w.since + msUnits 10 ≤ now s)) = none := by
    refine List.find?_eq_none.mpr fun w hw hlate => ?_
    simp only [Bool.and_eq_true, beq_iff_eq, decide_eq_true_eq] at hlate
    exact absurd hlate.2 (Nat.not_le.mpr (h w hw hlate.1))
  unfold tsLate
  rw [hnone]
theorem tsLate_ends {tag : Nat} {w : TxWait} {rest : List TxWait} (hwait : s.txWait = w :: rest) (htag : w.tag = tag) (hlate : w.since + msUnits 10 ≤ now s)
    {u : State} (hu : u = raise (inc (countReason s 8 0xC6) rngPage 0x110) rngPage 4 0xC6) : tsLate s tag = complete { u with txWait := rest } w.ring
      { typ := 0, status := 0xC6, index := w.index, tag := tag, records := 2, data := leBytes 16 w.len } := by
  have hfirst : s.txWait.find? (fun w => w.tag == tag && decide (w.since + msUnits 10 ≤ now s)) = some w := by
    rw [hwait]
    exact List.find?_cons_of_pos (by simp [htag, hlate])
  have htake : takeFirst (fun x : TxWait => x.ring == w.ring && x.tag == tag) u.txWait = some (w, rest) := by
    rw [show u.txWait = s.txWait by rw [hu]; simp, hwait]
    exact if_pos (by simp [htag])
  unfold tsLate
  rw [hfirst]
  dsimp only
  rw [← hu]
  unfold endWait
  rw [htake]
  rfl

end

end Sys2Proof.Machine

namespace Sys2Proof
open Sys2Proof.Machine

/-- Settles O53: an entry's cause comes from the first rule that it breaks; what waits is decided by room, steering and buffers. -/
theorem ringEntriesAndHostFrames : Obligations.RingEntriesAndHostFrames := by
  unfold Obligations.RingEntriesAndHostFrames
  refine ⟨fun s n d => ⟨fun h v => completes (congrArg ringsGo (txIn_unready h v d)), fun h v => completes (rxIn_unready h v),
      fun h v => completes (congrArg ringsGo (svcIn_unready h v)), fun h v => completes (congrArg ringsGo (copyIn_unready h v)), ?_⟩,
    ?_, ?_, ?_, ?_, fun s k => ⟨fun h => moveRings_none h k, fun n h => ⟨fun hm => ?_, fun hm => ?_, entryMove_next h,
      fun f rest hf => entryMove_starts hf (entryMove_next h)⟩⟩,
    fun s n f rest hf => ⟨startFront_tx hf, fun m h hm => startFront_svc hf h hm, fun h => ⟨_, rfl, startFront_copy hf h⟩⟩, ?_, ?_,
    fun s t g tc h => completes (hostDeliver_none h), fun s f => ⟨rfl, fun h => hostBar_dead h f, fun h hbad => ?_, fun h hcode hon htyp => ?_⟩,
    fun s tc => ⟨fun h => completes (rxWaitOver_idle h), fun f b hf hb => ⟨fun hover => completes ((rxWaitOver_waits hf hb).trans (if_pos hover)),
      fun hearly => completes ((rxWaitOver_waits hf hb).trans (if_neg (Nat.not_le.mpr hearly)))⟩⟩,
    fun s tag => ⟨fun h => completes (tsLate_early h), fun w rest hwait htag hlate => ⟨_, rfl, completes (tsLate_ends hwait htag hlate rfl)⟩⟩⟩
  · rintro t rfl
    exact ⟨fun h => completes (congrArg ringsGo (txIn_error h d)), fun h => completes (rxIn_error h), fun h => completes (congrArg ringsGo (svcIn_error h)),
      fun h => completes (congrArg ringsGo (copyIn_error h))⟩
  · rintro s a n d l h k idx hready rfl rfl rfl rfl
    have hok := txIn_ok hready l d
    exact ⟨fun hbad => completes (congrArg ringsGo (hok.trans (if_pos hbad))),
      fun hgood hfull => completes (congrArg ringsGo (hok.trans ((if_neg (not_not_intro hgood)).trans (if_pos (by rw [hfull]; rfl))))),
      fun hgood hfit => completes (congrArg ringsGo (hok.trans ((if_neg (not_not_intro hgood)).trans (if_neg (by rw [hfit]; exact Bool.false_ne_true)))))⟩
  · rintro s a n h idx hready rfl rfl
    have hok := rxIn_ok hready h
    have hcause : ∀ c, rxCause h = c → c ≠ 0 → rxIn s n.toNat (.ok [h]) = halt (askSlots s n.toNat 1) c n.toNat false (sqConsOf s n.toNat).toNat [h] :=
      fun c hc h0 => by rw [hok, hc, if_pos h0]
    refine ⟨fun h1 => completes (hcause 1 (if_pos h1) (by decide)), fun h1 h3 => completes (hcause 3 ((if_neg (not_not_intro h1)).trans (if_pos h3)) (by decide)),
      fun h1 h3 h7 => completes (hcause 7 ((if_neg (not_not_intro h1)).trans ((if_neg (not_not_intro h3)).trans (if_pos h7))) (by decide)), fun h1 h3 h7 => ?_⟩
    have h0 : rxCause h = 0 := (if_neg (not_not_intro h1)).trans ((if_neg (not_not_intro h3)).trans (if_neg (Nat.not_lt.mpr h7)))
    exact ⟨fun hfull => completes (hok.trans ((if_neg (not_not_intro h0)).trans (if_pos (by simp [hfull])))),
      fun hfit => completes (hok.trans ((if_neg (not_not_intro h0)).trans (if_neg (by simp [hfit]))))⟩
  · rintro s a n l h k idx m hready rfl rfl rfl rfl rfl
    have hok := svcIn_ok hready l
    have hcause : ∀ c, svcCause s n.toNat (l.headD 0) = c → c ≠ 0 → ringsGo (svcIn s n.toNat (.ok l)) = ringsGo (halt (askSlots s n.toNat
        (sfld (l.headD 0) 23 20 + 1)) c n.toNat false (sqConsOf s n.toNat).toNat l) := fun c hc h0 => by rw [hok, hc, if_pos h0]
    refine ⟨fun h1 => completes (hcause 1 (if_pos h1) (by decide)), fun h1 => ⟨fun h3 => completes (hcause 3 ((if_neg (Nat.not_lt.mpr h1)).trans (if_pos h3))
      (by decide)), fun ha hb hc => ?_⟩⟩
    have h3 : ¬(sfld (l.headD 0) 19 19 ≠ 0 ∨ sfld (l.headD 0) 63 48 ≠ 0 ∨ sfld (l.headD 0) 127 104 ≠ 0) := by omega
    refine ⟨fun h8 => completes (hcause 8 ((if_neg (Nat.not_lt.mpr h1)).trans ((if_neg h3).trans (if_pos h8))) (by decide)), fun h8 => ?_⟩
    have h0 : svcCause s n.toNat (l.headD 0) = 0 := (if_neg (Nat.not_lt.mpr h1)).trans ((if_neg h3).trans (if_neg (Nat.not_lt.mpr h8)))
    have hgo := hok.trans (if_neg (not_not_intro h0))
    refine ⟨fun hno => completes (congrArg ringsGo (hgo.trans (if_pos ?_))), fun htake hfit => completes (congrArg ringsGo (hgo.trans (if_neg ?_)))⟩
    · exact hno.imp (fun h => by rw [h]; rfl) fun h => by rw [h]; rfl
    · rw [htake, hfit]
      decide
  · rintro s c n a b idx hready rfl rfl
    have hok := copyIn_ok hready a b
    have hcause : ∀ c, copyCause s n.toNat a = c → c ≠ 0 → ringsGo (copyIn s n.toNat (.ok [a, b])) =
        ringsGo (halt (askSlots s n.toNat 2) c n.toNat false (sqConsOf s n.toNat).toNat [a, b]) := fun c hc h0 => by rw [hok, hc, if_pos h0]
    refine ⟨fun h9 => completes (hcause 9 (if_pos h9) (by decide)), fun h1 hlen => ?_⟩
    have h9 : ¬(sfld a 3 0 ≠ 1 ∨ sfld a 95 64 = 0) := by omega
    refine ⟨fun hl => completes (hcause 1 ((if_neg h9).trans (if_pos hl)) (by decide)),
      fun hl h3 => completes (hcause 3 ((if_neg h9).trans ((if_neg (Nat.not_lt.mpr hl)).trans (if_pos h3))) (by decide)), fun hl h3 hfull => ?_, fun hl h3 hfit => ?_⟩
    · have h0 : copyCause s n.toNat a = 0 := (if_neg h9).trans ((if_neg (Nat.not_lt.mpr hl)).trans (if_neg (not_not_intro h3)))
      exact completes (congrArg ringsGo (hok.trans ((if_neg (not_not_intro h0)).trans (if_pos (by simp [hfull])))))
    · have h0 : copyCause s n.toNat a = 0 := (if_neg h9).trans ((if_neg (Nat.not_lt.mpr hl)).trans (if_neg (not_not_intro h3)))
      exact completes (congrArg ringsGo (hok.trans ((if_neg (not_not_intro h0)).trans (if_neg (by simp [hfit])))))
  · rw [moveRings_some h, if_pos hm]
  · rw [moveRings_some h, if_neg (by rw [hm]; simp)]
  · rintro s u n f h k c rfl rfl hu rfl
    refine ⟨fun herr => txStart_error hu herr, ?_⟩
    rintro bs bytes x hok hbytes rfl
    refine ⟨fun t hg => txStart_refused hu hok hbytes hg, fun b t hg => ?_⟩
    have hgo := fun v hv => txStart_granted hu hok hbytes hg rfl (v := v) hv
    refine ⟨fun hpipe => (hgo _ rfl).trans (if_pos hpipe), fun hport hts => (hgo _ rfl).trans ((if_neg hport).trans (if_pos hts)),
      fun v hv hport hts => (hgo v hv).trans ((if_neg hport).trans (if_neg (not_not_intro hts)))⟩
  · intro s t g tc c tier f hch
    refine ⟨fun hc => completes (hostDeliver_other hch hc), ?_⟩
    rintro hc u q n rfl rfl rfl
    have hgo := hostDeliver_own hch hc
    refine ⟨fun hbar => completes (hgo.trans (if_pos hbar)), fun hbar hnil => completes (hgo.trans ((if_neg (not_not_intro hbar)).trans (by rw [hnil]))), ?_⟩
    intro b rest v w d hbar hpost hv hw hd
    have hgo' := hgo.trans (if_neg (not_not_intro hbar))
    have htabs : g.tabs = s.tabs := by
      have h := chooseNow_tabs s 112
      rw [hch] at h
      exact h
    have hring : rxRing s f.frame = rxRing (chargeNow g 112 c tier f) f.frame := by
      rw [rxRing_chargeNow, rxRing, rxRing, tget, tget, htabs]
    rw [hpost] at hgo'
    refine ⟨fun hno => completes (hgo'.trans (if_neg (by simp [hno]))), fun hyes => completes (hgo'.trans ((if_pos hyes).trans ?_))⟩
    exact hostWriteOut_completes (hc ▸ tc.isLt) hring hv hw hd
  · rw [hostBar_live h, if_pos]
    exact hbad.imp (fun h => by rw [h]; rfl) (Or.imp (fun h => by rw [h]; rfl) id)
  · rw [hostBar_live h, if_neg (by simp [hcode, hon, htyp])]

end Sys2Proof
end

section
/-! PROOFS. The copy channels (R456 to R467): the order in which outputs are kept. -/

namespace Sys2Proof.Machine

/-- An entry of a copy from host memory whose first read waits to be issued. -/
def dueEntry : ChanEntry := { ring := 0, waitLift := false, srcSpace := 0, dstSpace := 3, tag := 0, len := 64, xform := 0, src := 0, dst := 0, running := true, due := true }
/-- Channel 0 has a read to issue, and another read has left the chip before. -/
def dueChannel : State := { chans := [(0, { entries := [dueEntry] })], out := [.hostRead 4096 4 false] }

theorem issueRead_dueChannel : (issueRead dueChannel 0).out = [.hostRead 0 64 false, .hostRead 4096 4 false] := by decide +kernel

end Sys2Proof.Machine

namespace Sys2Proof
open Sys2Proof.Machine

/-- Refutes O54: outputs are kept with the newest first, so the read that is issued goes before what left the chip earlier, not after it. -/
theorem not_copyChannelsAndScratch : ¬ Obligations.CopyChannelsAndScratch := by
  unfold Obligations.CopyChannelsAndScratch
  rintro ⟨-, -, hissue, -⟩
  obtain ⟨-, -, -, -, -, -, hout, -⟩ := hissue dueChannel 0 dueEntry [] (by decide +kernel) rfl rfl
  exact absurd (issueRead_dueChannel.symm.trans (hout rfl)) (by decide +kernel)

end Sys2Proof
end

section
/-! PROOFS. Injected faults (R495, R496): what a fault that lands leaves of the faults that stand. -/

namespace Sys2Proof.Machine

variable (s : State)

/-- A branch keeps the injection state where both its sides do. -/
@[simp] theorem inj_ite {q : Prop} [Decidable q] (t u : State) : (if q then t else u).inj = if q then t.inj else u.inj := apply_ite State.inj q t u

/-- What both sides of a branch have, the branch has. -/
theorem ite_cases {p : State → Prop} {q : Prop} [Decidable q] {t u : State} (ht : p t) (hu : p u) : p (if q then t else u) := by
  split <;> assumption

theorem forEach_inj {α : Type} {f : State → α → State} (h : ∀ s a, (f s a).inj = s.inj) (l : List α) (s : State) : (forEach s l f).inj = s.inj :=
  forEach_keeps (fun s => s.inj) h l s

/-! ### Time bases and spans -/

@[simp] theorem applyChange_inj (k : Nat) (g : TimeBase → TimeBase) : (applyChange s k g).inj = s.inj := by simp [applyChange, noteF]

@[simp] theorem setServo_inj (k st : Nat) : (setServo s k st).inj = s.inj := by simp [setServo]

@[simp] theorem markStepped_inj (k : Nat) : (markStepped s k).inj = s.inj := by simp [markStepped]

@[simp] theorem servoAgain_inj (k : Nat) : (servoAgain s k).inj = s.inj := by
  unfold servoAgain
  split <;> simp

@[simp] theorem applySet_inj (k : Nat) (g : TimeBase → TimeBase) : (applySet s k g).2.inj = s.inj := by
  unfold applySet
  split <;> simp [stepRefused]

@[simp] theorem applyHeld_inj (k : Nat) : (applyHeld s k).2.inj = s.inj := by
  unfold applyHeld
  dsimp only
  cases hset : (tbOf s k).heldSet <;> cases hnow : (tbOf s k).heldSetNow <;> cases hstep : (tbOf s k).heldStep <;>
    cases hrate : (tbOf s k).heldRate <;> cases hservo : (tbOf s k).heldServo <;> cases hslew : (tbOf s k).heldSlew <;> simp

theorem servoHold_inj (k : Nat) : (servoHold s k).inj = s.inj := by simp [servoHold, servoOut, requestChange]

theorem startResync_inj (k : Nat) : (startResync s k).inj = s.inj := by
  simp [startResync, forEach_inj (fun s j => show (flushRequest s j (byPipe k)).inj = s.inj by simp [flushRequest])]

/-! ### Custody -/

theorem custodyCount_inj (q reason : Nat) : (custodyCount s q reason).inj = s.inj := by simp [custodyCount]

@[simp] theorem readChain_inj (l : List Nat) (s : State) : (readChain s l).2.inj = s.inj := by
  induction l generalizing s with
  | nil => rfl
  | cons p l ih =>
    unfold readChain
    split
    · exact ih s
    · dsimp only
      split
      · simp [metaErr]
      · rw [ih]
        simp [mendWords, metaErr]

theorem walkChain_inj (j : Journal) (q : Nat) (l : List Record) (s : State) : (walkChain s j q l).2.inj = s.inj := by
  induction l generalizing s with
  | nil => rfl
  | cons r l ih =>
    unfold walkChain
    split
    · exact forEach_inj (fun s _ => custodyCount_inj s q 0xA7) _ _
    · dsimp only
      split
      · exact (forEach_inj (fun s _ => by simp [metaErr]) _ _).trans (readChain_inj _ s)
      · exact (ih _).trans (readChain_inj _ s)

theorem rewalk_inj (q : Nat) : (rewalk s q).inj = s.inj := by simp [rewalk, pruneAnchors, fresh, walkChain_inj]

/-! ### Engine blocks -/

theorem takeBack_inj (f : HandMsg → Bool) : (takeBack s f).inj = s.inj := by
  simp [takeBack, forEach_inj (fun (s : State) (_ : HandMsg) => show (raise (inc s embPage 0x104) embPage 0).inj = s.inj by simp)]

theorem health_inj : (health s).inj = s.inj := by simp [health]

theorem abandonFor_inj (b : Nat) : (abandonFor s b).inj = s.inj := by
  unfold abandonFor abandon
  cases s.svcOp with
  | none => rfl
  | some x => cases x <;> simp [opRefuse, setBlkState]

theorem issueCert_inj (r : Nat) : (issueCert s r).inj = s.inj := by simp [issueCert]

theorem extend_inj (r ty target version digest : Nat) : (extend s r ty target version digest).inj = s.inj := by
  unfold extend
  simp only [inj_ite, issueCert_inj, tset_frame4, ite_self]

theorem loadImage_inj (b slot : Nat) : (loadImage s b slot).inj = s.inj := by simp [loadImage, extend_inj]

theorem writeCompl_inj (n : Nat) (c : Compl) : (writeCompl s n c).inj = s.inj := by
  simp [writeCompl, setCqRing, forEach_inj]

theorem drainCq_inj (n fuel : Nat) (s : State) : (drainCq s n fuel).inj = s.inj := by
  induction fuel generalizing s with
  | zero => rfl
  | succ k ih =>
    unfold drainCq
    dsimp only
    cases (cqRing s n).held with
    | nil => rfl
    | cons c rest => simp [ih, writeCompl_inj, setCqRing]

theorem postCompl_inj (n reserved : Nat) (c : Compl) : (postCompl s n reserved c).inj = s.inj := by
  simp [postCompl, drainCq_inj, setCqRing]

theorem notify_inj (service opcode : Nat) (body : List Nat) : (notify s service opcode body).inj = s.inj := by
  unfold notify
  dsimp only
  split <;> simp [freeSlots, fresh, postCompl_inj]

theorem inspectLost_inj : (inspectLost s).inj = s.inj := by simp [inspectLost, forEach_inj, notify_inj]

theorem recoverService_inj (id : Nat) (lost : List Nat) (alone : Bool) : (recoverService s id lost alone).inj = s.inj := by
  unfold recoverService
  split
  · exact forEach_inj startResync_inj _ _
  · exact forEach_inj (fun s l => by simp [setLinkState]) _ _
  · exact forEach_inj servoHold_inj _ _
  · exact forEach_inj rewalk_inj _ _
  all_goals simp

/-- What a restart of engines leaves standing where every fault is sticky. -/
theorem freshEngine_faults (b e : Nat) (h : ∀ f ∈ s.inj.faults, f.2.2.2.2.2 = true) : (freshEngine b s e).inj.faults = s.inj.faults :=
  List.filter_eq_self.mpr fun f hf => by simp [h f hf]

/-- Every fault that stands is of the list, all of them sticky. -/
def StickyOnly (l : List (Nat × Nat × Nat × Nat × Nat × Bool)) (s : State) : Prop := s.inj.faults = l ∧ ∀ f ∈ l, f.2.2.2.2.2 = true

theorem wr_inj (p o : Nat) (v : Word) : (wr s p o v).inj = s.inj := by simp
theorem setMapAt_inj (b id : Nat) : (setMapAt s b id).inj = s.inj := by simp [setMapAt]
theorem runEngines_inj (b : Nat) : (runEngines s b).inj = s.inj := by simp [runEngines, showEngine, forEach_inj]
theorem deal_inj (id : Nat) : (deal s id).inj = s.inj := by simp [deal]
theorem passBuckets_inj (id a d : Nat) : (passBuckets s id a d).inj = s.inj := by simp [passBuckets]
theorem raise_inj (p src reason detail cell : Nat) : (raise s p src reason detail cell).inj = s.inj := by simp

theorem runBlock_eq (b id : Nat) : runBlock s b id =
    runEngines (setMapAt (forEach (wr s (ebkPage b) 0x108 (BitVec.ofNat 32 (id + (imgOf s b).version % 256 * 256 + 3 * 2 ^ 16))) (List.range 16)
      (freshEngine b)) b id) b := rfl

variable {s} {l : List (Nat × Nat × Nat × Nat × Nat × Bool)}

theorem stickyOnly_congr {t : State} (h : t.inj = s.inj) (hs : StickyOnly l s) : StickyOnly l t := ⟨(congrArg (·.faults) h).trans hs.1, hs.2⟩

theorem stickyOnly_runBlock (b id : Nat) (hs : StickyOnly l s) : StickyOnly l (runBlock s b id) := by
  have hfresh : ∀ (es : List Nat) (t : State), StickyOnly l t → StickyOnly l (forEach t es (freshEngine b)) := by
    intro es
    induction es with
    | nil => exact fun t ht => ht
    | cons e es ih => exact fun t ht => ih _ ⟨(freshEngine_faults t b e (by rw [ht.1]; exact ht.2)).trans ht.1, ht.2⟩
  have hwr : StickyOnly l (wr s (ebkPage b) 0x108 (BitVec.ofNat 32 (id + (imgOf s b).version % 256 * 256 + 3 * 2 ^ 16))) :=
    stickyOnly_congr (s := s) (by rw [wr_inj]) hs
  have hrun := hfresh (List.range 16) _ hwr
  rw [runBlock_eq]
  generalize forEach _ _ _ = t at hrun ⊢
  exact stickyOnly_congr (s := t) (by rw [runEngines_inj, setMapAt_inj]) hrun

theorem stickyOnly_recover (id : Nat) (lost : List Nat) (alone : Bool) (hs : StickyOnly l s) :
    StickyOnly l (if id = 0x0B then inspectLost (recoverService (health s) id lost alone) else recoverService (health s) id lost alone) :=
  stickyOnly_congr (by simp [inspectLost_inj, recoverService_inj, health_inj]) hs

theorem stickyOnly_spare (id b d slot : Nat) (hs : StickyOnly l s) :
    StickyOnly l (raise (passBuckets (runBlock (loadImage s d slot) d id) id b d) svcPage 5 0 d) :=
  stickyOnly_congr ((raise_inj ..).trans (passBuckets_inj ..)) (stickyOnly_runBlock d id (stickyOnly_congr (loadImage_inj s d slot) hs))

theorem stickyOnly_holdBlock (b : Nat) (hs : StickyOnly l s) : StickyOnly l (holdBlock s b) := by
  have hheld : StickyOnly l (takeBack (raise (setFld (setBlkState s b 5) (ebkPage b) 0x104 15 0 0) (ebkPage b) 1 0 0 0xFFFF) (fun h => h.block == b)) :=
    stickyOnly_congr (by simp [takeBack_inj, setBlkState]) hs
  unfold holdBlock
  dsimp only
  generalize takeBack _ _ = t at *
  have hzero : StickyOnly l (setMapAt t b 0) := stickyOnly_congr (setMapAt_inj ..) hheld
  have hdeal : StickyOnly l (deal (setMapAt t b 0) (mapAt s b)) := stickyOnly_congr (deal_inj ..) hzero
  refine ite_cases (p := StickyOnly l) hs (ite_cases (stickyOnly_congr (by simp [setBlkState, abandonFor_inj]) hs)
    (ite_cases (stickyOnly_congr (health_inj t) hheld) (stickyOnly_recover _ _ _ ?_)))
  split
  · exact stickyOnly_spare _ _ _ _ hzero
  · exact hdeal

theorem stickyOnly_holdEngine (b e cause : Nat) (hs : StickyOnly l s) : StickyOnly l (holdEngine s b e cause) := by
  unfold holdEngine
  refine ite_cases (p := StickyOnly l) hs (ite_cases (stickyOnly_holdBlock b ?_) ?_) <;>
    exact stickyOnly_congr (by simp [takeBack_inj, health_inj]) hs

/-! ### The fault that lands -/

theorem recordLost_inj (a : Nat) : (recordLost s a).inj = s.inj := by
  unfold recordLost
  dsimp only
  split <;> simp [fenceGranule, setUsage, setBuf, setPool, markGranules]

theorem stickyOnly_loseWord (p cell idx : Nat) (hs : StickyOnly l s) : StickyOnly l (loseWord s p cell idx) := by
  unfold loseWord
  split
  · exact hs
  · split
    · exact stickyOnly_congr (by simp [markGranules]) hs
    · exact stickyOnly_congr (recordLost_inj idx) hs
    · exact ite_cases (p := StickyOnly l) (stickyOnly_holdEngine _ _ _ hs) (stickyOnly_holdBlock _ (stickyOnly_congr (by simp) hs))
    all_goals exact stickyOnly_congr (by simp [failEntry]) hs

theorem correctWord_inj (p : Nat) : (correctWord s p).inj = s.inj := by
  unfold correctWord
  split <;> simp

theorem flit_bad_inj (d : D2dDir) (n : BitVec 16) : (flit s d n false).inj = s.inj := by simp [flit]

end Sys2Proof.Machine
end

section
/-! PROOFS. The chip watchdog, the unlocking of injection, injected faults, the patrol scrub and failover (R399, R493 to R496, R501). -/

namespace Sys2Proof.Machine

/-! ### The pages of chapter 17 -/

theorem insp_rows : regRow inspPage 0x110 = some { off := 0x110, rws := 0xFF, reset := 0x55 } ∧ isHigh inspPage 0x110 = false ∧
    regRow inspPage 0x118 = some { off := 0x118, rws := 0xFFFF, w1s := 0x80000000 } ∧ isHigh inspPage 0x118 = false ∧
    (pageInfo inspPage).map (·.kind) = some .insp := by decide +kernel
theorem inj_rows : regRow injPage 0x100 = some { off := 0x100, rws := 0x1F, w1s := 0x80000000 } ∧ isHigh injPage 0x100 = false ∧
    (pageInfo injPage).map (·.kind) = some .inj := by decide +kernel
theorem unlock_rows : regRow unlockPage 0x108 = some { off := 0x108, wo := all32 } ∧ isHigh unlockPage 0x108 = false ∧
    regRow unlockPage 0x10C = some { off := 0x10C, rw := 0x3F, w1s := 0x300 } ∧ isHigh unlockPage 0x10C = false ∧
    (pageInfo unlockPage).map (·.kind) = some .injUnlock := by decide +kernel

section
variable {s : State} {r : Requester} {v : Nat}

theorem regWrite_unlock {o : Nat} {row : RegRow} (h : opened s .host unlockPage o = true) (hlo : 0x100 ≤ o) (hhi : o < 0xF00)
    (hrow : regRow unlockPage o = some row) (hwide : row.wide = false) (hhigh : isHigh unlockPage o = false) (hv : v < 2 ^ 32) :
    regWrite s .host unlockPage o v = { unlockEffect (written s unlockPage o v) .host o (reached row v) with resp := .done } := by
  obtain ⟨i, hi, hkind⟩ := Option.map_eq_some_iff.mp unlock_rows.2.2.2.2
  rw [regWrite_block h hi hrow hlo hhi hwide hhigh hv]
  refine responds ?_ _
  simp only [blockEffect, hkind]

theorem regWrite_key (h : opened s .host unlockPage 0x108 = true) (key : Word) :
    regWrite s .host unlockPage 0x108 key.toNat = { injKeyIn (written s unlockPage 0x108 key.toNat) key.toNat with resp := .done } := by
  obtain ⟨hrow, hhigh, -⟩ := unlock_rows
  rw [regWrite_unlock h (by decide) (by decide) hrow rfl hhigh key.isLt, reached_of_wo key.isLt rfl]
  exact responds ((if_neg (not_not_intro rfl)).trans (if_pos rfl)) _

/-- The bits of INJ_UNLOCK.go with its minutes. -/
theorem minutes_bits : ∀ m : BitVec 6, (m.toNat + 0x100).testBit 8 = true ∧ (m.toNat + 0x100).testBit 9 = false ∧
    bitsOf (m.toNat + 0x100) 5 0 = m.toNat := by decide +kernel

theorem regWrite_go (h : opened s .host unlockPage 0x10C = true) (m : BitVec 6) :
    regWrite s .host unlockPage 0x10C (m.toNat + 0x100) = { injGo (written s unlockPage 0x10C (m.toNat + 0x100)) with resp := .done } := by
  obtain ⟨-, -, hrow, hhigh, -⟩ := unlock_rows
  obtain ⟨h8, h9, -⟩ := minutes_bits m
  have hm : m.toNat + 0x100 < 2 ^ 32 := by have := m.isLt; omega
  rw [regWrite_unlock h (by decide) (by decide) hrow rfl hhigh hm]
  simp only [unlockEffect, bitOf_reached hm, h8, h9]
  rfl

theorem regUpdate_lock (h : opened s .host unlockPage 0x10C = true) : regUpdate s .host unlockPage 0x10C 0x200 0x200 =
    { setBit (written s unlockPage 0x10C (rewritten s unlockPage 0x10C 0x200 0x200)) unlockPage 0x10C 16 false with resp := .done } := by
  obtain ⟨-, -, hrow, hhigh, -⟩ := unlock_rows
  have hv : rewritten s unlockPage 0x10C 0x200 0x200 < 2 ^ 32 := rewritten_lt s _ _ _ (by decide)
  have h9 : bitOf (reached { off := 0x10C, rw := 0x3F, w1s := 0x300 } (rewritten s unlockPage 0x10C 0x200 0x200)) 9 = true := by
    rw [bitOf_reached hv, testBit_rewritten hrow _ _ (by decide)]
    rfl
  have h8 : bitOf (reached { off := 0x10C, rw := 0x3F, w1s := 0x300 } (rewritten s unlockPage 0x10C 0x200 0x200)) 8 = false := by
    rw [bitOf_reached hv, testBit_rewritten hrow _ _ (by decide), if_neg (by decide)]
    exact congrArg (· && true) (Bool.and_false _)
  rw [regUpdate, regWrite_unlock h (by decide) (by decide) hrow rfl hhigh hv]
  simp only [unlockEffect, h8, h9]
  rfl

theorem regUpdate_kick (h : opened s r inspPage 0x118 = true) : regUpdate s r inspPage 0x118 0x80000000 0x80000000 =
    { written s inspPage 0x118 (rewritten s inspPage 0x118 0x80000000 0x80000000) with wdogAt := now s, resp := .done } := by
  obtain ⟨-, -, hrow, hhigh, hkind⟩ := insp_rows
  obtain ⟨i, hi, hkind⟩ := Option.map_eq_some_iff.mp hkind
  have hv : rewritten s inspPage 0x118 0x80000000 0x80000000 < 2 ^ 32 := rewritten_lt s _ _ _ (by decide)
  have h31 : bitOf (reached { off := 0x118, rws := 0xFFFF, w1s := 0x80000000 } (rewritten s inspPage 0x118 0x80000000 0x80000000)) 31 = true := by
    rw [bitOf_reached hv, testBit_rewritten hrow _ _ (by decide)]
    rfl
  have hnow : now (written s inspPage 0x118 (rewritten s inspPage 0x118 0x80000000 0x80000000)) = now s := by
    obtain ⟨g, b, hstore⟩ := storeWord_only s inspPage 0x118 (rewritten s inspPage 0x118 0x80000000 0x80000000) all32
    rw [written, hstore]
    rfl
  rw [regUpdate, regWrite_block h hi hrow (by decide) (by decide) rfl hhigh hv]
  refine responds (?_ : _ = ({ written s inspPage 0x118 (rewritten s inspPage 0x118 0x80000000 0x80000000) with wdogAt := now s } : State)) _
  rw [← hnow]
  simp only [blockEffect, hkind]
  exact (if_neg (by decide)).trans ((if_pos rfl).trans (if_pos (Or.inl h31)))

theorem regUpdate_inject (h : opened s r injPage 0x100 = true) {k : Nat} (hk : k < 16) : injectKind s r k =
    { inject (written s injPage 0x100 (rewritten s injPage 0x100 0x8000000F (k + 2 ^ 31))) with resp := .done } := by
  obtain ⟨hrow, hhigh, hkind⟩ := inj_rows
  obtain ⟨i, hi, hkind⟩ := Option.map_eq_some_iff.mp hkind
  have hv : rewritten s injPage 0x100 0x8000000F (k + 2 ^ 31) < 2 ^ 32 := rewritten_lt s _ _ _ (by decide)
  have h31 : bitOf (reached { off := 0x100, rws := 0x1F, w1s := 0x80000000 } (rewritten s injPage 0x100 0x8000000F (k + 2 ^ 31))) 31 = true := by
    rw [bitOf_reached hv, testBit_rewritten hrow _ _ (by decide), if_pos (by decide)]
    exact (by decide : ∀ k < 16, ((if (0x8000000F : Nat).testBit 31 then (k + 2 ^ 31).testBit 31 else false) && true) = true) k hk
  rw [injectKind, regUpdate, regWrite_block h hi hrow (by decide) (by decide) rfl hhigh hv]
  refine responds ?_ _
  simp only [blockEffect, hkind]
  exact if_pos ⟨trivial, h31⟩

/-! ### The nonce and the key (R494) -/

theorem drawNonce_shows : (drawNonce s).inj.nonce = some ((fresh s).1 % 2 ^ 64, now s) ∧ (drawNonce s).inj.keyAt = none ∧
    rd64 (drawNonce s) unlockPage 0x100 = (fresh s).1 % 2 ^ 64 := by
  refine ⟨by simp [drawNonce, fresh, now], rfl, ?_⟩
  exact (rd64_wr64 (fresh s).2 unlockPage 0x100 ((fresh s).1 % 2 ^ 64)).trans (Nat.mod_mod _ _)

theorem nonce_word : hasConfig unlockPage 0x100 = false ∧ kindOf unlockPage = some .injUnlock ∧ isHigh unlockPage 0x100 = false ∧ isLow unlockPage 0x100 = true ∧
    freeBits unlockPage 0x100 = none ∧ (regRow unlockPage 0x100).map (·.rc) = some 0 := by decide +kernel

theorem clearRC_none {p o mask : Nat} (h : (regRow p o).map (·.rc) = some 0) : clearRC s p o mask = s := by
  obtain ⟨row, hrow, hrc⟩ := Option.map_eq_some_iff.mp h
  unfold clearRC
  rw [hrow]
  exact if_pos (by rw [hrc, Nat.zero_and])

/-- A read of the nonce's low word draws it and captures its high word. -/
theorem readWord_nonce : readWord s 0 unlockPage 0x100 all32 =
    (view (drawNonce s) unlockPage 0x100, setRdShadow (drawNonce s) 0 unlockPage (some (unlockPage * 4096 + 0x100, view (drawNonce s) unlockPage 0x104))) := by
  obtain ⟨hconf, hkind, hhigh, hlow, hfree, hrc⟩ := nonce_word
  have hpar : parCheck s unlockPage 0x100 = s := by
    unfold parCheck
    rw [hconf, Bool.false_and, if_neg Bool.false_ne_true]
  have hpop : readPop s unlockPage 0x100 = drawNonce s := by
    unfold readPop
    rw [hkind]
    exact if_pos rfl
  have htake : take (drawNonce s) 0 unlockPage 0x100 = (view (drawNonce s) unlockPage 0x100, drawNonce s) := by
    unfold take
    rw [if_neg (by rw [hkind]; decide), if_neg (by decide), look_plain (.inr (by decide)) hfree]
  unfold readWord
  rw [hpar, hpop, hhigh]
  refine (if_neg Bool.false_ne_true).trans ?_
  dsimp only
  rw [htake]
  dsimp only
  rw [clearRC_none hrc, hlow]
  rfl

theorem injKeyIn_right {n t : Nat} (hn : s.inj.nonce = some (n, t)) (hf : bitAt s fusePage 0x108 1 = false) {key : Nat}
    (hkey : key = (n % 2 ^ 32) ^^^ 0x5A5A5A5A) (ht : now s ≤ t + msUnits 10) : injKeyIn s key = { s with inj := { s.inj with keyAt := some (now s) } } := by
  unfold injKeyIn
  rw [hn]
  exact (if_neg (by rw [hf]; decide)).trans (if_pos ⟨hkey, ht⟩)
theorem injKeyIn_wrong {n t : Nat} (hn : s.inj.nonce = some (n, t)) (hf : bitAt s fusePage 0x108 1 = false) {key : Nat}
    (h : key ≠ (n % 2 ^ 32) ^^^ 0x5A5A5A5A ∨ t + msUnits 10 < now s) : injKeyIn s key = { s with inj := { s.inj with keyAt := none } } := by
  unfold injKeyIn
  rw [hn]
  refine (if_neg (by rw [hf]; decide)).trans (if_neg fun ⟨hk, ht⟩ => ?_)
  rcases h with h | h
  · exact h hk
  · omega
theorem injKeyIn_unasked (h : s.inj.nonce = none ∨ bitAt s fusePage 0x108 1 = true) (key : Nat) : injKeyIn s key = s := by
  unfold injKeyIn
  cases hn : s.inj.nonce with
  | none => rfl
  | some x =>
    rcases h with h | h
    · rw [hn] at h; cases h
    · exact if_pos h

/-! ### Unlocking (R494) -/

theorem injGo_unlocks {t : Nat} {m : Nat} (hm : fld s unlockPage 0x10C 5 0 = m) (hk : s.inj.keyAt = some t) (ht : now s ≤ t + msUnits 10) (h1 : 1 ≤ m) (h60 : m ≤ 60) :
    injGo s = setBit { s with inj := { s.inj with keyAt := none, until' := now s + m * 60000 * 153600000 } } unlockPage 0x10C 16 true := by
  subst hm
  unfold injGo
  rw [hk]
  exact if_pos ⟨decide_eq_true ht, h1, h60⟩
theorem injGo_denied {m : Nat} (hm : fld s unlockPage 0x10C 5 0 = m)
    (h : s.inj.keyAt = none ∨ (∃ t ∈ s.inj.keyAt, t + msUnits 10 < now s) ∨ m = 0 ∨ 60 < m) : injGo s = raise (deny s) inspPage 3 := by
  subst hm
  unfold injGo
  refine if_neg fun ⟨hok, h1, h60⟩ => ?_
  rcases h with h | ⟨t, ht, hlate⟩ | h | h
  · rw [h] at hok; exact Bool.false_ne_true hok
  · rw [Option.mem_def.mp ht] at hok
    have := of_decide_eq_true hok
    omega
  · omega
  · omega

theorem unlock_sees (s : State) {o : Nat} (v : Nat) (ho : o < 4096) : (written s unlockPage o v).inj.nonce = s.inj.nonce ∧ bitAt (written s unlockPage o v) fusePage 0x108 1 = bitAt s fusePage 0x108 1 ∧
    now (written s unlockPage o v) = now s ∧ (written s unlockPage o v).inj = s.inj := by
  have hfuse : rd (written s unlockPage o v) fusePage 0x108 = rd s fusePage 0x108 := rd_storeWord_other _ _ _ _ _ _ _ (by unfold fusePage unlockPage; omega)
  obtain ⟨g, b, hstore⟩ := storeWord_only s unlockPage o v all32
  exact ⟨by rw [written, hstore], bitAt_congr hfuse 1, by rw [written, hstore]; rfl, by rw [written, hstore]⟩

/-! ### Faults injected (R495, R496) -/

theorem inject_locked (h : unlocked s = false) : inject s = injRefuse (deny s) 1 := if_pos (by rw [h]; rfl)
section
variable {k p : Nat} (hk : fld s injPage 0x100 3 0 = k) (hp : fld s injPage 0x104 15 0 = p) (hopen : unlocked s = true)
include hk hp hopen

theorem inject_uncarried (h : carries k p = false) : inject s = injRefuse s 2 := by
  subst hk hp
  exact (if_neg (by rw [hopen]; decide)).trans (if_pos (by rw [h]; rfl))
theorem inject_unpowered (h : carries k p = true) (hoff : pageOn s p = false) : inject s = injRefuse s 3 := by
  subst hk hp
  exact (if_neg (by rw [hopen]; decide)).trans ((if_neg (by rw [h]; decide)).trans (if_pos (by rw [hoff]; rfl)))

omit hk hp hopen in
/-- The state as it is, named by the faults that stand. -/
theorem faults_eta (h : s.inj.faults = []) : ({ s with inj := { s.inj with faults := [] } } : State) = s := by rw [← h]
/-- A fault that lands where none stands: the fault that stands after it is its own, where it is to last. -/
theorem inject_lands (h : carries k p = true) (hon : pageOn s p = true) (hnone : s.inj.faults = []) {x : List (Nat × Nat × Nat × Nat × Nat × Bool)}
    (hx : x = if (bitAt s injPage 0x100 4 || k == 7) = true then
      [(k, p, fld s injPage 0x104 31 16, fld s injPage 0x108 29 0, fld s injPage 0x10C 9 0, bitAt s injPage 0x100 4)] else []) :
    inject s = setBit (landFault { s with inj := { s.inj with faults := x } } k p (fld s injPage 0x104 31 16) (fld s injPage 0x108 29 0)
      (fld s injPage 0x10C 9 0 + (if fld s injPage 0x108 31 30 = 0 then 0 else 2 ^ 10)) (fld s injPage 0x10C 31 16)) injPage 0x110 1 true := by
  subst hk hp hx
  unfold inject
  simp only [hopen, h, hon, hnone, List.filter_nil]
  rfl
/-- A fault that is to land once leaves none standing. -/
theorem inject_once (h : carries k p = true) (hon : pageOn s p = true) (hnone : s.inj.faults = []) (hst : bitAt s injPage 0x100 4 = false) (h7 : k ≠ 7) :
    inject s = setBit (landFault s k p (fld s injPage 0x104 31 16) (fld s injPage 0x108 29 0)
      (fld s injPage 0x10C 9 0 + (if fld s injPage 0x108 31 30 = 0 then 0 else 2 ^ 10)) (fld s injPage 0x10C 31 16)) injPage 0x110 1 true := by
  refine (inject_lands hk hp hopen h hon hnone (x := []) ?_).trans (by rw [faults_eta hnone])
  rw [hst, beq_eq_false_iff_ne.mpr h7]
  rfl
end

theorem inject_dir {bit : Nat} (n : Nat) (h : bit < 2 ^ 10) :
    (if (bit + if n = 0 then 0 else 2 ^ 10) / 2 ^ 10 = 0 then D2dDir.toCor else .toFld) = if n = 0 then D2dDir.toCor else .toFld := by
  by_cases hn : n = 0
  · rw [if_pos hn, if_pos (by omega), if_pos hn]
  · rw [if_neg hn, if_neg (by omega), if_neg hn]

/-- What carries a fault of the SerDes or of a temperature. -/
theorem kind_of_carries {k p : Nat} (h : carries k p = true) : (k = 8 → kindOf p = some .sdq) ∧ (k = 9 → kindOf p = some .therm) := by
  unfold carries at h
  constructor <;>
  · rintro rfl
    cases hkind : kindOf p with
    | none => rw [hkind] at h; cases h
    | some i =>
      rw [hkind] at h
      exact congrArg some (beq_iff_eq.mp h)

theorem stickyOnly_landFault {l : List (Nat × Nat × Nat × Nat × Nat × Bool)} (hs : StickyOnly l s) {k p : Nat} (h8 : k ≠ 8) (h9 : k ≠ 9)
    (cell idx bit n : Nat) : StickyOnly l (landFault s k p cell idx bit n) := by
  unfold landFault
  split
  · exact stickyOnly_congr (correctWord_inj p) hs
  · exact stickyOnly_loseWord p cell idx hs
  · exact stickyOnly_loseWord p cell idx hs
  · exact stickyOnly_congr (flit_bad_inj _ 0) hs
  · exact hs
  · exact absurd rfl h8
  · exact absurd rfl h9
  · exact hs

/-- A lane without a port loses its signal for as long as was asked. -/
theorem laneLost_dark (quad lane us : Nat) : (now s + usUnits us, 4 * quad + lane) ∈ ((laneLost s quad lane us).inj.dark.map (fun d => (d.2, d.1))) ∨
    portOfLane s (4 * quad + lane) ≠ none := by
  refine Classical.or_iff_not_imp_right.mpr fun h => ?_
  have hport : ∀ x, portOfLane { s with inj := x } (4 * quad + lane) = none := fun _ => Classical.not_not.mp h
  unfold laneLost
  dsimp only
  rw [hport]
  simp [setLane]

/-! ### The patrol scrub (R399) -/

theorem scrub_one {p cell idx bit : Nat} {sticky : Bool} (hf : s.inj.faults = [(1, p, cell, idx, bit, sticky)]) (hkind : kindOf p = some .buf) :
    scrub s p = { addSat s p 0x100 15 0 1 with inj := { s.inj with faults := if sticky = true then s.inj.faults else [] } } := by
  have hcorrect : correctWord s p = addSat s p 0x100 15 0 1 := by
    unfold correctWord
    rw [hkind]
  have hinj : (addSat s p 0x100 15 0 1).inj = s.inj := by simp
  unfold scrub
  rw [hf]
  simp only [forEach, List.filter, beq_self_eq_true, Bool.true_and, Bool.true_or, List.foldl, if_true, hcorrect, hinj, hf]
  cases sticky <;> rfl
theorem scrub_clean {p : Nat} (h : ∀ f ∈ s.inj.faults, f.2.1 = p → f.1 ≠ 1 ∧ f.1 ≠ 2) : scrub s p = s := by
  have hnot : ∀ f ∈ s.inj.faults, (f.2.1 == p && (f.1 == 1 || f.1 == 2)) = false := by
    intro f hf
    by_cases hp : f.2.1 = p
    · simp [h f hf hp]
    · simp [hp]
  have hmine : s.inj.faults.filter (fun f => f.2.1 == p && (f.1 == 1 || f.1 == 2)) = [] := List.filter_eq_nil_iff.mpr fun f hf => by simp [hnot f hf]
  have hkeep : s.inj.faults.filter (fun f => f.2.2.2.2.2 || !(f.2.1 == p && (f.1 == 1 || f.1 == 2))) = s.inj.faults :=
    List.filter_eq_self.mpr fun f hf => by simp [hnot f hf]
  unfold scrub
  rw [hmine]
  simp only [forEach_nil, hkeep]

/-! ### Failover (R501) -/

/-- What a write of INSP_FAILOVER does for one region. -/
def failRegion (old v : Nat) (s : State) (r : Nat) : State :=
  if bitsOf old (2 * r + 1) (2 * r) = bitsOf v (2 * r + 1) (2 * r) then s
  else if bitsOf v (2 * r + 1) (2 * r) = 2 then failover s r
  else if bitsOf v (2 * r + 1) (2 * r) = 0 then failback s r else s

theorem regWrite_failover (h : opened s r inspPage 0x110 = true) (v : BitVec 8) : regWrite s r inspPage 0x110 v.toNat =
    { forEach (written s inspPage 0x110 v.toNat) [0, 1, 2, 3] (failRegion (rd s inspPage 0x110).toNat v.toNat) with resp := .done } := by
  obtain ⟨hrow, hhigh, -, -, hkind⟩ := insp_rows
  obtain ⟨i, hi, hkind⟩ := Option.map_eq_some_iff.mp hkind
  have hnow : ∀ g < 4, bitsOf (rd (written s inspPage 0x110 v.toNat) inspPage 0x110).toNat (2 * g + 1) (2 * g) = bitsOf v.toNat (2 * g + 1) (2 * g) := by
    intro g hg
    have rows : ∀ b < 8, (0 ||| 0xFF : Nat).testBit b = true := by decide
    exact fld_written hrow v.toNat (by omega) (fun b _ hl hh => rows b (by omega))
  rw [regWrite_block h hi hrow (by decide) (by decide) rfl hhigh (by have := v.isLt; omega)]
  refine responds ?_ _
  simp only [blockEffect, hkind]
  refine (if_pos rfl).trans ?_
  unfold failEffect
  show forEach _ [0, 1, 2, 3] _ = _
  simp only [forEach, List.foldl, failRegion, hnow 0 (by decide), hnow 1 (by decide), hnow 2 (by decide), hnow 3 (by decide)]

theorem failRegion_same {old v r : Nat} (h : bitsOf v (2 * r + 1) (2 * r) = bitsOf old (2 * r + 1) (2 * r)) (s : State) : failRegion old v s r = s :=
  if_pos h.symm
theorem failRegions_one {old v g : Nat} (hg : g < 4)
    (hrest : ∀ h < 4, h ≠ g → bitsOf v (2 * h + 1) (2 * h) = bitsOf old (2 * h + 1) (2 * h)) (s : State) :
    forEach s [0, 1, 2, 3] (failRegion old v) = failRegion old v s g := by
  have hstay : ∀ h < 4, h ≠ g → ∀ t, failRegion old v t h = t := fun h hlt hne => failRegion_same (hrest h hlt hne)
  simp only [forEach, List.foldl]
  cases g, hg using lt_four_cases <;> simp [hstay]

theorem bitsOf_low_byte (n : Nat) : ∀ g < 4, bitsOf (n % 256) (2 * g + 1) (2 * g) = bitsOf n (2 * g + 1) (2 * g) := by
  intro g hg
  refine Nat.eq_of_testBit_eq fun j => ?_
  rw [testBit_bitsOf, testBit_bitsOf, show (256 : Nat) = 2 ^ 8 from rfl, Nat.testBit_mod_two_pow]
  by_cases hj : j < 2
  · rw [decide_eq_true (by omega : 2 * g + j < 8), Bool.true_and]
  · simp [show ¬ j < 2 * g + 1 + 1 - 2 * g by omega]

end

end Sys2Proof.Machine

namespace Sys2Proof
open Sys2Proof.Machine

/-- Settles O56: each write of chapter 17's pages by what it stores, an injected fault by its kind, and the scrub by the faults of its page. -/
theorem watchdogInjectionAndFailover : Obligations.WatchdogInjectionAndFailover := by
  unfold Obligations.WatchdogInjectionAndFailover
  refine ⟨fun s => ⟨fun h => completes (if_pos (.inl h)), fun h => completes (if_pos (.inr h)), fun h0 hdue => completes (if_neg ?_)⟩, ?_, ?_,
    fun s => drawNonce_shows, ?_, ?_, ?_, ?_, fun s => ⟨fun ho hdue => completes (if_pos ⟨ho, hdue⟩), fun h => completes (if_neg ?_)⟩, ?_, ?_,
    fun s quad lane us => laneLost_dark quad lane us, ?_, fun s p h => completes (scrub_clean h), ?_⟩
  · rintro (h | h)
    · exact h0 h
    · omega
  · rintro s u r h rfl
    exact completes (regUpdate_kick h)
  · rintro s t h rfl
    refine completes ?_
    refine (busRead_opened rfl (by decide) h).trans ?_
    rw [show regId .host = 0 from rfl, readWord_nonce]
  · rintro s u key n t h rfl hn hfuse
    obtain ⟨hn', hf', hnow', hinj'⟩ := unlock_sees s (o := 0x108) key.toNat (by decide)
    rw [← hn'] at hn
    rw [← hf'] at hfuse
    refine ⟨fun hkey ht => completes ((regWrite_key h key).trans ?_), fun hbad => completes ((regWrite_key h key).trans ?_)⟩
    · rw [← hnow'] at ht ⊢
      rw [injKeyIn_right hn hfuse hkey ht, hinj']
    · rw [← hnow'] at hbad
      rw [injKeyIn_wrong hn hfuse hbad, hinj']
  · rintro s u key h rfl hno
    obtain ⟨hn', hf', -, -⟩ := unlock_sees s (o := 0x108) key.toNat (by decide)
    rw [← hn', ← hf'] at hno
    exact completes ((regWrite_key h key).trans (responds (injKeyIn_unasked hno _) _))
  · rintro s u v m h rfl rfl
    obtain ⟨-, -, hnow', hinj'⟩ := unlock_sees s (o := 0x10C) (m.toNat + 0x100) (by decide)
    have hm : fld (written s unlockPage 0x10C (m.toNat + 0x100)) unlockPage 0x10C 5 0 = m.toNat :=
      (fld_written unlock_rows.2.2.1 _ (by decide) (by decide)).trans (minutes_bits m).2.2
    refine ⟨fun t hk ht h1 h60 => completes ((regWrite_go h m).trans (responds ?_ _)), fun hno => completes ((regWrite_go h m).trans (responds ?_ _))⟩
    · rw [← hinj'] at hk
      rw [← hnow'] at ht ⊢
      rw [injGo_unlocks hm hk ht h1 h60, hinj']
    · rw [← hinj', ← hnow'] at hno
      exact injGo_denied hm hno
  · rintro s u h rfl
    exact completes (regUpdate_lock h)
  · rintro ⟨ho, hdue⟩
    rcases h with h | h
    · rw [h] at ho; cases ho
    · omega
  · intro s r u h hu
    have hgo : ∀ k < 16, injectKind s r k = { inject (u k) with resp := .done } := fun k hk => by rw [hu]; exact regUpdate_inject h hk
    exact ⟨completes (hgo 1 (by decide)), completes (hgo 2 (by decide)), completes (hgo 3 (by decide)), completes (hgo 4 (by decide)), completes (hgo 5 (by decide)),
      completes (hgo 6 (by decide)), completes (hgo 7 (by decide)), completes (hgo 8 (by decide)), completes (hgo 9 (by decide))⟩
  · rintro s k p hk hp
    refine ⟨inject_locked, inject_uncarried hk.symm hp.symm, inject_unpowered hk.symm hp.symm, ?_⟩
    rintro cell idx bit c dir hopen hcar hon rfl rfl rfl rfl rfl hnone
    have hland := inject_lands hk.symm hp.symm hopen hcar hon hnone rfl
    have hkinds := kind_of_carries hcar
    refine ⟨fun hst => Classical.or_iff_not_imp_right.mpr fun hno => ?_, fun hst h7 => ?_, fun hst => ?_⟩
    · rw [hland, hst]
      obtain ⟨hsdq, htherm⟩ := not_or.mp hno
      have hsticky := stickyOnly_landFault (s := { s with inj := { s.inj with faults := [(k, p, fld s injPage 0x104 31 16, fld s injPage 0x108 29 0, fld s injPage 0x10C 9 0, true)] } })
        ⟨rfl, fun f hf => by rw [List.mem_singleton.mp hf]⟩ (fun h8 => hsdq (hkinds.1 h8)) (fun h9 => htherm (hkinds.2 h9)) (fld s injPage 0x104 31 16) (fld s injPage 0x108 29 0)
        (fld s injPage 0x10C 9 0 + (if fld s injPage 0x108 31 30 = 0 then 0 else 2 ^ 10)) (fld s injPage 0x10C 31 16) (p := p)
      exact (stickyOnly_congr (by simp) hsticky).1
    · subst h7
      rw [hland, hst]
      rfl
    · have honce := fun h7 : k ≠ 7 => inject_once hk.symm hp.symm hopen hcar hon hnone hst h7
      refine ⟨?_, ?_, ?_, ?_, ?_, ?_, ?_⟩
      · rintro rfl
        exact honce (by decide)
      · rintro (rfl | rfl) <;> exact honce (by decide)
      · rintro rfl
        refine (honce (by decide)).trans (congrArg (fun d => setBit (flit s d 0 false) injPage 0x110 1 true) ?_)
        exact inject_dir _ (bitsOf_lt _ _ _)
      · rintro rfl
        exact honce (by decide)
      · rintro w rfl rfl
        exact honce (by decide)
      · rintro rfl
        exact honce (by decide)
      · rintro rfl
        exact honce (by decide)
  · rintro s p cell idx bit sticky hf hkind u rfl
    exact completes (scrub_one hf hkind)
  · rintro s u r v h rfl
    refine ⟨fun hv => completes ((regWrite_failover h v).trans (responds ?_ _)), fun g hg hrest hne => ?_⟩
    · refine forEach_fixed fun g hg => failRegion_same ?_ _
      rw [hv]
      exact bitsOf_low_byte _ g (by simp at hg; omega)
    · have hgo := (regWrite_failover h v).trans (responds (failRegions_one hg hrest (written s inspPage 0x110 v.toNat)) _)
      have hne' : ¬ bitsOf (rd s inspPage 0x110).toNat (2 * g + 1) (2 * g) = bitsOf v.toNat (2 * g + 1) (2 * g) := Ne.symm hne
      refine ⟨fun h2 => completes (hgo.trans (responds ((if_neg hne').trans (if_pos h2)) _)),
        fun h0 => completes (hgo.trans (responds ((if_neg hne').trans ((if_neg (by omega)).trans (if_pos h0))) _)),
        fun h1 => completes (hgo.trans (responds ((if_neg hne').trans ((if_neg (by omega)).trans (if_neg (by omega)))) _))⟩

end Sys2Proof
end

section
/-! PROOFS. Inspection requests and the live test controls (R497 to R500). -/

namespace Sys2Proof.Machine

/-! ### The ends of a request (R498, R499) -/

section
variable {s : State} {i : Inspection} {id : Nat}

theorem inspPrepared_none (h : s.insp.find? (fun j => j.id == id && j.phase == 0) = none) : inspPrepared s id = s := by
  unfold inspPrepared
  rw [h]

section
variable (h : s.insp.find? (fun j => j.id == id && j.phase == 0) = some i)
include h

/-- A windowed request waits for its lift. -/
theorem inspPrepared_lift {l : Nat} (hl : i.lift = some l) : inspPrepared s id = if liftState s l ≠ 4 then s
    else if efld (liftStat s l) 7 4 ≠ 1 then inspResult (dropInsp s id) id 7 0
    else if (!mayRun s i) = true then s else inspRun (outOfService s i) i := by
  unfold inspPrepared
  rw [h]
  dsimp only
  rw [hl]
/-- Another waits for its preparation. -/
theorem inspPrepared_plain (hl : i.lift = none) : inspPrepared s id = if (!mayRun s i) = true then s
    else if i.force = true then inspRun (outOfService s i) i
    else if (!i.prep) = true then
      if (prepStart s i).1 = 4 then inspResult (dropInsp s id) id 4 0 else setInsp (prepStart s i).2 { i with prep := (prepStart s i).1 == 0 }
    else if prepReady s i = true then inspRun s i else s := by
  unfold inspPrepared
  rw [h]
  dsimp only
  rw [hl]

end

theorem inspDone_none {errors first : Nat} (h : s.insp.find? (fun j => j.id == id && j.phase == 1) = none) : inspDone s id errors first = s := by
  unfold inspDone
  rw [h]
theorem inspDone_some {errors first : Nat} (h : s.insp.find? (fun j => j.id == id && j.phase == 1) = some i) : inspDone s id errors first =
    if errors = 0 then inspResult (backInService (dropInsp (testEnd s i errors first true) id) i) id 0 0
    else inspResult (raise (if i.action = 7 ∨ i.action = 8 then setRecovery (dropInsp (testEnd s i errors first true) id)
      else dropInsp (testEnd s i errors first true) id) inspPage 1 0 i.cell) id 1 first := by
  unfold inspDone
  rw [h]
theorem inspLapse_none (h : s.insp.find? (fun j => j.id == id) = none) : inspLapse s id = s := by
  unfold inspLapse
  rw [h]
theorem inspLapse_some (h : s.insp.find? (fun j => j.id == id) = some i) :
    inspLapse s id = if (i.phase = 1 ∧ i.windowed = true) ∨ i.deadline ≠ 0 then inspResult (inspLeave s i) id 6 0 else s := by
  unfold inspLapse
  rw [h]

end

/-! ### The results -/

theorem insp_ite {q : Prop} [Decidable q] (t u : State) : (if q then t else u).insp = if q then t.insp else u.insp := apply_ite State.insp q t u

theorem forEach_insp {α : Type} {f : State → α → State} (h : ∀ s a, (f s a).insp = s.insp) (l : List α) (s : State) : (forEach s l f).insp = s.insp :=
  forEach_keeps (fun s => s.insp) h l s

theorem writeCompl_insp (s : State) (n : Nat) (c : Compl) : (writeCompl s n c).insp = s.insp := by
  simp [writeCompl, setCqRing, insp_ite, forEach_insp]

theorem drainCq_insp (n fuel : Nat) (s : State) : (drainCq s n fuel).insp = s.insp := by
  induction fuel generalizing s with
  | zero => rfl
  | succ k ih =>
    unfold drainCq
    dsimp only
    cases (cqRing s n).held with
    | nil => rfl
    | cons c rest => simp [ih, writeCompl_insp, setCqRing, insp_ite]

theorem notify_insp (s : State) (service opcode : Nat) (body : List Nat) : (notify s service opcode body).insp = s.insp := by
  unfold notify
  dsimp only
  split <;> simp [freeSlots, fresh, postCompl, drainCq_insp, setCqRing, insp_ite]

/-- Outputs that have left stay. -/
theorem forEach_out {α : Type} {f : State → α → State} (h : ∀ s a, s.out ⊆ (f s a).out) (l : List α) (s : State) : s.out ⊆ (forEach s l f).out := by
  induction l generalizing s with
  | nil => exact List.Subset.refl _
  | cons a l ih => exact List.Subset.trans (h s a) (ih (f s a))
theorem emit_out (s : State) (o : Output) : s.out ⊆ (emit s o).out := List.subset_cons_self _ _

theorem posted_out {s t : State} (h : s.out ⊆ t.out) (p o n : Nat) (v : Word) (x : Output) (y : CqRing) :
    s.out ⊆ (setCqRing (emit (wr t p o v) x) n y).out := by
  have hsame : (setCqRing (emit (wr t p o v) x) n y).out = x :: t.out := by simp [setCqRing, emit]
  rw [hsame]
  exact List.subset_cons_of_subset x h

theorem writeCompl_out (s : State) (n : Nat) (c : Compl) : s.out ⊆ (writeCompl s n c).out :=
  posted_out (ite_cases (p := fun t => s.out ⊆ t.out) (emit_out s _)
    (List.Subset.trans (forEach_out (fun s _ => emit_out s _) _ s) (emit_out _ _))) _ _ _ _ _ _

theorem drainCq_out (n fuel : Nat) (s : State) : s.out ⊆ (drainCq s n fuel).out := by
  induction fuel generalizing s with
  | zero => exact List.Subset.refl _
  | succ k ih =>
    unfold drainCq
    dsimp only
    cases (cqRing s n).held with
    | nil => exact List.Subset.refl _
    | cons c rest =>
      refine ite_cases (p := fun t => s.out ⊆ t.out) ?_ (List.Subset.refl _)
      refine List.Subset.trans ?_ (ih _)
      exact List.Subset.trans (by simp [setCqRing]) (writeCompl_out _ n c)

theorem notify_leaves (s : State) (service opcode : Nat) (body : List Nat) : Output.notify service opcode body ∈ (notify s service opcode body).out := by
  have hhead : Output.notify service opcode body ∈ (emit s (.notify service opcode body)).out := List.mem_cons_self
  have hboth : ∀ {q : Prop} [Decidable q] {t u : State}, Output.notify service opcode body ∈ t.out → Output.notify service opcode body ∈ u.out →
      Output.notify service opcode body ∈ (if q then t else u).out := ite_cases (p := fun u => Output.notify service opcode body ∈ u.out)
  unfold notify
  dsimp only
  generalize emit s _ = t at hhead ⊢
  split
  · simpa using hhead
  · refine hboth (by simpa [freeSlots, fresh] using hhead) (hboth (by simpa [freeSlots, fresh] using hhead) ?_)
    unfold postCompl
    exact hboth (by simpa [freeSlots, fresh, setCqRing] using hhead) (hboth (by simpa [freeSlots, fresh, setCqRing] using hhead)
      (drainCq_out _ _ _ (by simpa [freeSlots, fresh, setCqRing] using hhead)))

theorem inspResult_shows (s : State) (id code a : Nat) : (inspResult s id code a).insp = s.insp ∧
    Output.notify 11 0x80 ([id % 256, id / 256 % 256, code, 0, 0, 0, 0, 0] ++ (leBytes 8 a).map (·.toNat)) ∈ (inspResult s id code a).out :=
  ⟨notify_insp .., notify_leaves ..⟩

/-! ### The live test controls (R500) -/

/-- The request that a write of TEST_CTL0 stands for. -/
def directTest (s : State) (p : Nat) (v : Word) : Inspection :=
  { id := s.nextId % 65536, action := bitsOf v.toNat 4 0, page := p, cell := bitsOf v.toNat 23 8, force := true, param := (rd (wr s p 0x050 v) p 0x054).toNat }

section
variable {s : State} {r : Requester} {p o : Nat} {v : Word}

theorem test_rows (h : hasTest p = true) : (regRow p 0x050).map (·.wide) = some false ∧ (regRow p 0x054).map (·.wide) = some false := by
  unfold hasTest kindOf at h
  cases hi : pageInfo p with
  | none => rw [hi] at h; cases h
  | some i =>
    rw [hi] at h
    have htest : i.kind.test = true := h
    unfold regRow
    rw [hi]
    simp only [htest]
    exact ⟨rfl, rfl⟩

theorem isHigh_test (h : (regRow p 0x050).map (·.wide) = some false) : isHigh p 0x054 = false := by
  obtain ⟨row, hrow, hwide⟩ := Option.map_eq_some_iff.mp h
  exact isHigh_of_row hrow hwide
theorem isHigh_test0 : isHigh p 0x050 = false := by
  have hlow : isLow p 0x04C = false := by
    unfold isLow regRow
    cases pageInfo p <;> rfl
  simp [isHigh, hlow]

/-- A word of the live test controls is stored and acted on. -/
theorem regWrite_test (h : opened s r p o = true) (ho : o = 0x050 ∨ o = 0x054) (hrow : (regRow p o).map (·.wide) = some false) (hhigh : isHigh p o = false) :
    regWrite s r p o v.toNat = { testWrite (written s p o v.toNat) r p o v with resp := .done } := by
  obtain ⟨row, hrow, hwide⟩ := Option.map_eq_some_iff.mp hrow
  have hl : (isLow p o && writable p o) = false := by simp [isLow, hrow, hwide]
  have hword : (if 0x050 ≤ o ∧ o < 0x060 then ((rd s p o).toNat &&& (all32 ^^^ all32)) ||| (v.toNat &&& all32)
      else v.toNat &&& all32 &&& (row.rw ||| row.rws ||| row.w1c ||| row.w1s ||| row.wo)) = v.toNat := by
    rw [if_pos (by omega), Nat.xor_self, Nat.and_zero, Nat.zero_or, and_all32 v.isLt]
  rw [regWrite_opened v.toNat (by omega) h (lockedOut_low s r p o (by omega)) (by omega) hl hhigh, Nat.mod_eq_of_lt v.isLt, putWord_row hrow, hword, effect_head (by omega)]
  refine responds ?_ _
  have hv : BitVec.ofNat 32 v.toNat = v := by simp
  rcases ho with rfl | rfl
  · exact congrArg (testWrite _ r p 0x050) hv
  · exact congrArg (testWrite _ r p 0x054) hv

theorem testWrite_same (h : rd s p o = v) : testWrite s r p o v = s := if_pos h
theorem testWrite_denied (h : rd s p o ≠ v) (hmay : mayTest s r = false) : testWrite s r p o v = deny s :=
  (if_neg h).trans (if_pos (by rw [hmay]; rfl))
section
variable (h : rd s p o ≠ v) (hmay : mayTest s r = true)
include h hmay

theorem testWrite_stored (hplain : o ≠ 0x050 ∨ runsActions s r = true) : testWrite s r p o v = wr s p o v :=
  (if_neg h).trans ((if_neg (by rw [hmay]; decide)).trans (if_pos hplain))

end

section
variable (h : rd s p 0x050 ≠ v) (hmay : mayTest s r = true) (hruns : runsActions s r = false) (hact : bitsOf v.toNat 4 0 ≠ fld s p 0x050 4 0)
  (hfree : ∀ i ∈ s.insp, i.page ≠ p)
include h hmay hruns hact hfree

/-- An action is changed where no request stands on the page: the test it names starts, or none runs. -/
theorem testWrite_changed : testWrite s r p 0x050 v =
    if bitsOf v.toNat 4 0 = 0 ∨ (!inspTargetOk (bitsOf v.toNat 4 0) p (bitsOf v.toNat 23 8)) = true then setFld (wr (wr s p 0x050 v) p 0x050 v) p 0x050 5 5 0
    else inspRun (outOfService { wr s p 0x050 v with nextId := s.nextId + 1, insp := s.insp ++ [directTest s p v] } (directTest s p v)) (directTest s p v) := by
  have hnone : (wr s p 0x050 v).insp.filter (fun i => i.phase == 1 && i.page == p) = [] := by
    rw [(show (wr s p 0x050 v).insp = s.insp by simp)]
    exact List.filter_eq_nil_iff.mpr fun i hi => by simp [hfree i hi]
  unfold testWrite
  rw [if_neg h, if_neg (by rw [hmay]; decide), if_neg (by rw [hruns]; decide)]
  dsimp only
  rw [if_neg hact, hnone]
  rfl

end

end

end Sys2Proof.Machine

namespace Sys2Proof
open Sys2Proof.Machine

/-- Settles O57: each request and event by the branch that its state selects. -/
theorem inspectionAndTestControls : Obligations.InspectionAndTestControls := by
  unfold Obligations.InspectionAndTestControls
  refine ⟨fun s i sec ns => ⟨fun h => if_pos ?_, fun htarget hon hns => ?_⟩, fun s id h => completes (inspPrepared_none h), fun s id i h => ⟨fun l hl => ?_, fun hbusy hready => ?_, fun hl hrun => ?_⟩,
    fun s id e a => ⟨fun h => completes (inspDone_none h), ?_⟩, fun s id => ⟨fun h => completes (inspLapse_none h), fun i h => ?_⟩, fun s i => ⟨?_, rfl⟩, ?_, fun s r p o v => ?_, inspResult_shows⟩
  · rcases h with h | h | h
    · exact .inl (by rw [h]; rfl)
    · exact .inr (.inl (by rw [h]; rfl))
    · exact .inr (.inr h)
  · have hgood : ¬ ((!inspTargetOk i.action i.page i.cell) = true ∨ (!pageOn s i.page) = true ∨ 999999999 < ns) := by
      rw [htarget, hon]
      simp only [Bool.not_true, Bool.false_eq_true, false_or]
      omega
    unfold inspAccept
    dsimp only
    rw [if_neg hgood]
    refine ⟨fun h => ?_, fun hfree hroom => ?_⟩
    · by_cases hu : underInsp s i = true
      · exact if_pos hu
      · exact (if_neg hu).trans (if_pos (h.resolve_left hu))
    rw [if_neg (by rw [hfree]; decide), if_neg (by omega)]
    refine ⟨fun h => if_pos h, fun h hw hdue => ?_, fun h hw hopen => ?_, fun h hw hf => ?_, fun h hw hf hl => ?_, ?_⟩
    · exact (if_neg (by rw [h]; decide)).trans ((if_pos hw).trans (if_pos hdue))
    · rw [if_neg (by rw [h]; decide), if_pos hw, if_neg (by omega)]
      refine ⟨fun hc => if_pos (.inl hc), fun l t hc hwin hl ht => ?_⟩
      rw [if_neg (by rw [hc]; simp only [Bool.false_eq_true, false_or]; omega), hl]
      dsimp only
      rw [ht]
      rfl
    · rw [if_neg (by rw [h]; decide), if_neg (by rw [hw]; decide), if_pos hf]
      exact ⟨fun hrun => if_pos hrun, fun hrun => if_neg (by rw [hrun]; decide)⟩
    · rw [if_neg (by rw [h]; decide), if_neg (by rw [hw]; decide), if_neg (by rw [hf]; decide), if_pos (by rw [hl]; rfl)]
    · intro k t h hw hf hl ht
      rw [if_neg (by rw [h]; decide), if_neg (by rw [hw]; decide), if_neg (by rw [hf]; decide), if_neg (by rw [hl]; decide), ht]
      exact ⟨fun h4 => if_pos h4, fun h4 => if_neg h4⟩
  · have hgo := inspPrepared_lift h hl
    exact ⟨fun hst => completes (hgo.trans (if_pos hst)), fun hst ho => completes (hgo.trans ((if_neg (not_not_intro hst)).trans (if_pos ho))),
      fun hst ho hrun => completes (hgo.trans ((if_neg (not_not_intro hst)).trans ((if_neg (not_not_intro ho)).trans (if_neg (by rw [hrun]; decide)))))⟩
  · cases hl : i.lift with
    | none => exact completes ((inspPrepared_plain h hl).trans (if_pos (by rw [hbusy]; rfl)))
    | some l =>
      refine completes ((inspPrepared_lift h hl).trans ?_)
      by_cases hst : liftState s l = 4
      · exact (if_neg (not_not_intro hst)).trans ((if_neg (not_not_intro (hready l hl))).trans (if_pos (by rw [hbusy]; rfl)))
      · exact if_pos hst
  · have hgo := (inspPrepared_plain h hl).trans (if_neg (by rw [hrun]; decide))
    refine ⟨fun hf => completes (hgo.trans (if_pos hf)), fun hf hp hr => ?_, fun hf hp hr => ?_, fun k t hf hp ht => ?_⟩
    · exact completes (hgo.trans ((if_neg (by rw [hf]; decide)).trans ((if_neg (by rw [hp]; decide)).trans (if_pos hr))))
    · exact completes (hgo.trans ((if_neg (by rw [hf]; decide)).trans ((if_neg (by rw [hp]; decide)).trans (if_neg (by rw [hr]; decide)))))
    · have hgo := hgo.trans ((if_neg (by rw [hf]; decide)).trans (if_pos (by rw [hp]; rfl)))
      rw [ht] at hgo
      exact ⟨fun h4 => completes (hgo.trans (if_pos h4)), fun h4 => completes (hgo.trans (if_neg h4))⟩
  · rintro i t h rfl
    have hgo := inspDone_some (errors := e.toNat) (first := a.toNat) h
    have hne : e ≠ 0 → ¬ e.toNat = 0 := fun h0 h => h0 (BitVec.eq_of_toNat_eq h)
    refine ⟨fun h0 => completes (hgo.trans (if_pos (by rw [h0]; rfl))), fun h0 h7 h8 => ?_, fun h0 hact => ?_⟩
    · rw [if_neg (hne h0), if_neg (fun h => h.elim h7 h8)] at hgo
      exact completes hgo
    · rw [if_neg (hne h0), if_pos hact] at hgo
      exact completes hgo
  · refine ⟨fun hend => completes ((inspLapse_some h).trans (if_pos hend.symm)), fun hd hw => completes ((inspLapse_some h).trans (if_neg ?_))⟩
    rintro (⟨h1, hwin⟩ | hne)
    · rcases hw with hw | hw
      · exact hw h1
      · rw [hw] at hwin; cases hwin
    · exact hne hd
  · exact List.all_eq_true.mpr fun j hj => (List.mem_filter.mp hj).2
  · rintro s a r p c0 c1 htest h54 rfl h50
    obtain ⟨hrow0, hrow4⟩ := test_rows htest
    refine completes ?_
    rw [regWrite_test h54 (.inr rfl) hrow4 (isHigh_test hrow0)]
    exact regWrite_test h50 (.inl rfl) hrow0 isHigh_test0
  · refine ⟨testWrite_same, testWrite_denied, testWrite_stored, fun h hmay hruns hact h0 hfree => ?_, ?_⟩
    · exact (testWrite_changed h hmay hruns hact hfree).trans (if_pos (.inl h0))
    · rintro i t h hmay hruns hact h0 hok hfree rfl rfl
      exact (testWrite_changed h hmay hruns hact hfree).trans (if_neg (by rw [hok]; simp [h0]))

end Sys2Proof
end

section
/-! PROOFS. RESET_N, the supplies and the temperature (R556 to R563). -/

namespace Sys2Proof.Machine

/-! ### RESET_N (R556) -/

section
variable {s : State}

theorem resetRise_high (h : s.pins.resetN = true) : resetRise s = s := if_pos h
theorem resetRise_low (h : s.pins.resetN = false) : resetRise s =
    if s.mode = .run then { s with pins := { s.pins with resetN := true } } else coldStart { s with pins := { s.pins with resetN := true } } true :=
  if_neg (by rw [h]; decide)
theorem resetFall_low (h : s.pins.resetN = false) : resetFall s = s := if_pos (by rw [h]; rfl)
theorem resetFall_high (h : s.pins.resetN = true) : resetFall s = if s.mode ≠ .run then { s with pins := { s.pins with resetN := false } }
    else enterHold (selfRefresh (forEach (abortDrain { s with pins := { s.pins with resetN := false } })
      (custodyQueues { s with pins := { s.pins with resetN := false } }) (fun s q =>
        if marked s q ∧ bitAt s cstPage 0x104 0 then dramToRecords s q else s)) true) 6 :=
  if_neg (by rw [h]; decide)
theorem custodyQueues_abortDrain : custodyQueues (abortDrain s) = custodyQueues s := by
  unfold abortDrain
  split <;> simp [custodyQueues]

/-! ### Starts (R563) and supplies (R557) -/

theorem coldStart_waits {b : Bool} (h : aonWarm s = false ∨ (fld s pwrPage 0x10C 2 0 = 4 ∧ aonCool s = false)) : coldStart s b =
    { s with mode := .inReset, boot := { s.boot with kept := s.mode == .custodyHold || (s.mode == .inReset && s.boot.kept) } } := by
  refine if_pos (h.imp (fun h => by rw [h]; rfl) fun ⟨h4, hc⟩ => ⟨h4, by rw [hc]; rfl⟩)
theorem coldStart_goes {b : Bool} (hwarm : aonWarm s = true) (h : fld s pwrPage 0x10C 2 0 ≠ 4 ∨ aonCool s = true) : coldStart s b =
    coldReset (setBit s pwrPage 0x10C 8 (b && s.mode == .custodyHold)) (s.mode == .custodyHold || (s.mode == .inReset && s.boot.kept)) := by
  refine if_neg ?_
  rintro (hcold | ⟨h4, hhot⟩)
  · rw [hwarm] at hcold; cases hcold
  · rcases h with h | h
    · exact h h4
    · rw [h] at hhot; cases hhot

theorem stageCut_keeps : (stageCut s).dimms = s.dimms ∧ (stageCut s).boot.aonLost = s.boot.aonLost := by
  unfold stageCut
  split
  · split
    · exact ⟨rfl, rfl⟩
    · split <;> exact ⟨rfl, rfl⟩
  · exact ⟨rfl, rfl⟩

theorem coldReset_shows (k : Bool) : (coldReset s k).baseCount = 0 ∧ (coldReset s k).mode = .run ∧ (coldReset s k).tbs = [] ∧
    (coldReset s k).doms = startDoms ∧ (coldReset s k).resets = [.cold] ∧ (coldReset s k).dimms = s.dimms := by
  refine ⟨rfl, rfl, rfl, rfl, rfl, ?_⟩
  unfold coldReset
  cases k <;> exact stageCut_keeps.1
theorem coldReset_unkept : (coldReset s false).cqueues = [] ∧ (coldReset s false).page = {} ∧ (coldReset s false).cust.slots = [] ∧
    (coldReset s false).cust.anchors = [] ∧ (coldReset s false).boot.aonLost = s.boot.aonLost := ⟨rfl, rfl, rfl, rfl, stageCut_keeps.2⟩

theorem loseDimms_records (q : Nat) : (cqOf (loseDimms s) q).records = [] := by
  have hall : ∀ m : SMap CQueue, ∀ e ∈ mapUpdate cqDflt (fun _ c => { c with records := [], tail := none, st := 0, anchors := [], appended := 0 }) m, e.2.records = [] := by
    intro m
    induction m with
    | nil => exact fun e he => absurd he List.not_mem_nil
    | cons x m ih =>
      unfold mapUpdate
      split
      · exact ih
      · exact fun e he => (List.mem_cons.mp he).elim (fun h => by rw [h]) (ih e)
  exact mapGet_all (P := fun c : CQueue => c.records = []) (fun _ => rfl) (hall s.cqueues) q

/-- Every switched domain is OFF without supplies. -/
theorem downDoms_off : ∀ d < 176, mapGet (fun _ => ({} : Dom)) ((List.range 176).map (fun d => (d, ({ st := .off } : Dom)))) d = { st := .off } := by decide +kernel

/-- The rails with what stands in them are gone: before hold is reached, or out of it. -/
theorem supplyFail_shows (b : Bool) : ∃ u, supplyFail s b = u ∧ u.page = {} ∧ u.cust.slots = [] ∧ u.cust.anchors = [] ∧
    u.pins.custodyHold = false ∧ (∀ q, (cqOf u q).records = []) ∧ u.boot.aonLost = true ∧
    (s.mode = .custodyHold → b = false → u.mode = .custodyHold ∧ u.aonFailed = true) ∧
    (s.mode ≠ .custodyHold ∨ b = true → u.mode = .inReset ∧ u.pins.resetN = false ∧ (∀ d < 176, domOn u d = false)) := by
  refine ⟨_, rfl, ?_⟩
  by_cases hheld : s.mode = .custodyHold ∧ b = false
  · have heq : supplyFail s b = { loseDimms s with pins := { s.pins with custodyHold := false }, boot := { s.boot with kept := false, aonLost := true }, aonFailed := true } :=
      if_pos ⟨hheld.1, by rw [hheld.2]; rfl⟩
    rw [heq]
    refine ⟨rfl, rfl, rfl, rfl, loseDimms_records, rfl, fun _ _ => ⟨hheld.1, rfl⟩, fun h => absurd hheld ?_⟩
    rintro ⟨hm, hb⟩
    rcases h with h | h
    · exact h hm
    · rw [hb] at h; cases h
  · obtain ⟨w, hw, hlost, hpins⟩ : ∃ w : State, supplyFail s b = { wr (coldReset w false) pwrPage 0x10C 0 with mode := .inReset, resets := [], doms := (List.range 176).map (fun d => (d, ({ st := .off } : Dom))), pins := { (coldReset w false).pins with resetN := false } } ∧
        w.boot.aonLost = true ∧ w.pins.custodyHold = false := by
      refine ⟨_, if_neg fun h => hheld ⟨h.1, by simpa using h.2⟩, rfl, rfl⟩
    rw [hw]
    refine ⟨rfl, rfl, rfl, Bool.and_false _, fun q => rfl, stageCut_keeps.2.trans hlost, fun hm hb => absurd ⟨hm, hb⟩ hheld, fun _ => ⟨rfl, rfl, ?_⟩⟩
    exact fun d hd => by rw [domOn, decide_eq_false (Nat.not_le.mpr hd)]; exact beq_eq_false_iff_ne.mpr (by rw [domOf, downDoms_off d hd]; decide)

end

/-! ### Temperature (R561 to R563) -/

section
variable {s : State} {l : List (BitVec 16 × Bool)} {a b : BitVec 8}

theorem thermSample_idle (h : ¬(s.mode = .inReset ∧ s.pins.resetN = true)) (hoff : s.mode ≠ .run ∨ domOn s 173 = false) : thermSample s l a b =
    { s with therm := { s.therm with aonDeck := signedOf 8 a.toNat, aonAbut := signedOf 8 b.toNat } } := by
  refine (if_neg h).trans (if_pos (hoff.imp_right fun hoff => ?_))
  rw [show domOn { s with therm := { s.therm with aonDeck := signedOf 8 a.toNat, aonAbut := signedOf 8 b.toNat } } 173 = domOn s 173 from rfl, hoff]
  rfl

/-- The flags of a list, as a number. -/
def marks {α : Type} (p : α → Bool) : List α → Nat
  | [] => 0
  | x :: l => b2n (p x) + 2 * marks p l

theorem sum_numbered {α : Type} (p : α → Bool) (l : List α) (n : Nat) :
    ((numbered n l).map (fun e => if p e.2 = true then 2 ^ e.1 else 0)).sum = 2 ^ n * marks p l := by
  induction l generalizing n with
  | nil => rfl
  | cons x l ih =>
    simp only [numbered, List.map_cons, List.sum_cons, ih, marks, Nat.pow_succ, Nat.mul_add, Nat.mul_assoc]
    cases p x <;> simp [b2n]
theorem testBit_marks {α : Type} (p : α → Bool) (l : List α) (i : Nat) : (marks p l).testBit i = l[i]?.any p := by
  induction l generalizing i with
  | nil => simp [marks]
  | cons x l ih =>
    cases i with
    | zero => cases hp : p x <;> simp [marks, b2n, hp, Nat.testBit_zero]
    | succ i =>
      rw [Nat.testBit_succ, List.getElem?_cons_succ, ← ih]
      congr 1
      cases hp : p x <;> simp [marks, b2n, hp]
      omega

/-- The sensors that a sample finds bad. -/
def badSensors (l : List (BitVec 16 × Bool)) : Nat := ((numbered 0 l).map (fun e => if (sensorOk e.2).isNone = true then 2 ^ e.1 else 0)).sum

theorem fld_one (s : State) (p o i : Nat) : fld s p o i i = if bitAt s p o i = true then 1 else 0 := by
  rw [fld, bitsOf, Nat.add_sub_cancel_left, bitAt, Nat.testBit_eq_decide_div_mod_eq, Nat.shiftRight_eq_div_pow]
  rcases Nat.mod_two_eq_zero_or_one ((rd s p o).toNat / 2 ^ i) with h | h <;> simp [h]
theorem testBit_of_fld {s : State} {p o hi i : Nat} (h : i ≤ hi) : (fld s p o hi 0).testBit i = bitAt s p o i := by
  rw [fld, testBit_bitsOf, decide_eq_true (by omega), Bool.true_and, Nat.zero_add]
  rfl

theorem hottest_sensor {l : List (BitVec 16 × Bool)} (h : l.length ≤ 30) : (hottest l).2 < 2 ^ 5 := by
  have hnum : ∀ (l : List (BitVec 16 × Bool)) (n : Nat), ∀ e ∈ numbered n l, e.1 < n + l.length := by
    intro l
    induction l with
    | nil => exact fun n e he => absurd he List.not_mem_nil
    | cons x l ih =>
      intro n e he
      rcases List.mem_cons.mp he with rfl | he
      · simp
      · have := ih (n + 1) e he
        rw [List.length_cons]
        omega
  have hfold : ∀ (v : List (Int × Nat)) (a : Int × Nat), a.2 < 2 ^ 5 → (∀ e ∈ v, e.2 < 2 ^ 5) → (v.foldl (fun a e => if a.1 < e.1 then e else a) a).2 < 2 ^ 5 := by
    intro v
    induction v with
    | nil => exact fun a ha _ => ha
    | cons x v ih =>
      refine fun a ha hv => ih _ ?_ fun e he => hv e (List.mem_cons_of_mem _ he)
      show (if a.1 < x.1 then x else a).2 < 2 ^ 5
      split
      · exact hv x List.mem_cons_self
      · exact ha
  have hdie : ∀ (c : Bool) (n : Nat), n < 2 ^ 5 → ∀ e ∈ (if c = true then [] else [((1100 : Int), n)]), e.2 < 2 ^ 5 := by
    intro c n hn e he
    cases c
    · rw [List.mem_singleton.mp he]; exact hn
    · exact absurd he List.not_mem_nil
  refine hfold _ _ (by decide) fun e he => ?_
  rcases List.mem_append.mp he with he | he
  · rcases List.mem_append.mp he with he | he
    · obtain ⟨x, hx, hmap⟩ := List.mem_filterMap.mp he
      obtain ⟨t, -, rfl⟩ := Option.map_eq_some_iff.mp hmap
      have := hnum l 0 x hx
      show x.1 < 32
      omega
    · exact hdie _ 0 (by decide) e he
  · exact hdie _ 28 (by decide) e he

/-- A sensor's reading is shown with its validity. -/
def showSensor (s : State) (e : Nat × (BitVec 16 × Bool)) : State :=
  wr s thermPage (0x140 + 4 * e.1) (BitVec.ofNat 32 (e.2.1.toNat + b2n (sensorOk e.2).isSome * 2 ^ 31))

/-- A sample in run mode is reported, with the sensors that it finds bad. -/
theorem thermSample_run (hrun : s.mode = .run) (hon : domOn s 173 = true) (hforced : s.therm.forced = none) :
    ∃ t, thermSample s l a b = reportTemp t (hottest (l.take 30)).1 (hottest (l.take 30)).2 ∧ t.mode = .run ∧
      t.therm.aonDeck = signedOf 8 a.toNat ∧ fld t thermPage 0x114 29 0 = badSensors (l.take 30) % 2 ^ 30 := by
  have hkeep : ∀ (u : State), (forEach u (numbered 0 (l.take 30)) showSensor).mode = u.mode ∧ (forEach u (numbered 0 (l.take 30)) showSensor).therm = u.therm := fun u =>
    ⟨forEach_keeps (fun s => s.mode) (fun s e => by simp [showSensor]) _ u, forEach_keeps (fun s => s.therm) (fun s e => by simp [showSensor]) _ u⟩
  have hset : ∀ (w : State) (n : Nat), (setFld w thermPage 0x114 29 0 n).mode = w.mode ∧ (setFld w thermPage 0x114 29 0 n).therm = w.therm := fun w n => by simp
  have hwr : ∀ (w : State) (x : Word), (wr w thermPage 0x1C0 x).mode = w.mode ∧ (wr w thermPage 0x1C0 x).therm = w.therm := fun w x => by simp
  unfold thermSample
  dsimp only
  rw [if_neg (by rw [hrun]; rintro ⟨h, -⟩; cases h), if_neg (fun h => h.elim (fun h => h hrun) fun h => by
    rw [show domOn { s with therm := { s.therm with aonDeck := signedOf 8 a.toNat, aonAbut := signedOf 8 b.toNat } } 173 = domOn s 173 from rfl, hon] at h; cases h)]
  generalize hu : setFld (forEach _ _ _) thermPage 0x114 29 0 _ = u
  have hmode : u.mode = s.mode := by rw [← hu]; exact (hset _ _).1.trans ((hkeep _).1.trans (hwr _ _).1)
  have htherm : u.therm = { s.therm with aonDeck := signedOf 8 a.toNat, aonAbut := signedOf 8 b.toNat } := by
    rw [← hu]; exact (hset _ _).2.trans ((hkeep _).2.trans (hwr _ _).2)
  have hbad : fld u thermPage 0x114 29 0 = badSensors (l.take 30) % 2 ^ 30 := by
    rw [← hu]
    exact fld_setFld_same _ _ _ _ _ _ (by decide) (by decide)
  have hthen : ∀ (q : Prop) [Decidable q], (if q then u else raise (setBit u thermPage 0x10C 1 true) thermPage 3).therm = u.therm ∧
      (if q then u else raise (setBit u thermPage 0x10C 1 true) thermPage 3).mode = u.mode ∧
      rd (if q then u else raise (setBit u thermPage 0x10C 1 true) thermPage 3) thermPage 0x114 = rd u thermPage 0x114 := by
    intro q _
    split
    · exact ⟨rfl, rfl, rfl⟩
    · exact ⟨by simp, by simp, (rd_raise _ _ _ _ _ _ _ _ (.inr (by decide))).trans (rd_setBit_key _ _ _ _ _ _ _ (by decide))⟩
  have hnone : ∀ (q : Prop) [Decidable q], (if q then u else raise (setBit u thermPage 0x10C 1 true) thermPage 3).therm.forced = none := fun q _ => by
    rw [(hthen q).1, htherm]
    exact hforced
  rw [hnone]
  exact ⟨_, rfl, (hthen _).2.1.trans (hmode.trans hrun), by rw [(hthen _).1, htherm], (fld_congr (hthen _).2.2 29 0).trans hbad⟩

/-- A temperature that is reported shows in its registers; what follows from it comes after. -/
theorem reportTemp_shows (s : State) (t : Int) (k : Nat) : ∃ u, reportTemp s t k = report120 u ∧
    (fld u thermPage 0x100 15 0 = unsignedOf 16 t % 2 ^ 16 ∧ fld u thermPage 0x100 20 16 = k % 2 ^ 5) ∧
    u.therm = { s.therm with reported := t } ∧ rd u thermPage 0x114 = rd s thermPage 0x114 ∧ u.mode = s.mode := by
  refine ⟨_, rfl, ?_⟩
  dsimp only
  generalize hw : setFld (setFld { s with therm := { s.therm with reported := t } } thermPage 0x100 15 0 (unsignedOf 16 t)) thermPage 0x100 20 16 k = w
  have hpeak : ∀ o : Nat, o ≠ 0x104 → rd (if signedOf 16 (fld w thermPage 0x104 15 0) < t then setFld w thermPage 0x104 15 0 (unsignedOf 16 t) else w) thermPage o = rd w thermPage o := by
    intro o ho
    split
    · exact rd_setFld_key _ _ _ _ _ _ _ _ (by omega)
    · rfl
  have hpeak' : (if signedOf 16 (fld w thermPage 0x104 15 0) < t then setFld w thermPage 0x104 15 0 (unsignedOf 16 t) else w).therm = w.therm ∧
      (if signedOf 16 (fld w thermPage 0x104 15 0) < t then setFld w thermPage 0x104 15 0 (unsignedOf 16 t) else w).mode = w.mode := by
    split <;> simp
  generalize (if signedOf 16 (fld w thermPage 0x104 15 0) < t then setFld w thermPage 0x104 15 0 (unsignedOf 16 t) else w) = v at hpeak hpeak' ⊢
  have hwarn : ∀ (q : Prop) [Decidable q] (o : Nat), 0x044 < o → rd (if q then raise v thermPage 0 else v) thermPage o = rd v thermPage o := by
    intro q _ o ho
    split
    · exact rd_raise _ _ _ _ _ _ _ _ (.inr (by omega))
    · rfl
  have hwarn' : ∀ (q : Prop) [Decidable q], (if q then raise v thermPage 0 else v).therm = v.therm ∧ (if q then raise v thermPage 0 else v).mode = v.mode := by
    intro q _
    split <;> simp
  have hword : ∀ (q : Prop) [Decidable q], rd (if q then raise v thermPage 0 else v) thermPage 0x100 = rd w thermPage 0x100 := fun q _ =>
    (hwarn q 0x100 (by decide)).trans (hpeak 0x100 (by decide))
  refine ⟨⟨(fld_congr (hword _) 15 0).trans ?_, (fld_congr (hword _) 20 16).trans ?_⟩, ?_, ?_, ?_⟩
  · rw [← hw, fld_setFld_apart _ _ _ _ _ _ _ _ (by decide) (by decide) (by decide), fld_setFld_same _ _ _ _ _ _ (by decide) (by decide)]
  · rw [← hw, fld_setFld_same _ _ _ _ _ _ (by decide) (by decide)]
  · rw [(hwarn' _).1, hpeak'.1, ← hw]
    simp
  · rw [hwarn _ 0x114 (by decide), hpeak 0x114 (by decide), ← hw, rd_setFld_key _ _ _ _ _ _ _ _ (by decide), rd_setFld_key _ _ _ _ _ _ _ _ (by decide)]
    rfl
  · rw [(hwarn' _).2, hpeak'.2, ← hw]
    simp

theorem reportTemp_cool {t : Int} {k : Nat} (ht : t < 1200) : (reportTemp s t k).therm.reported = t ∧ fld (reportTemp s t k) thermPage 0x100 15 0 = unsignedOf 16 t % 2 ^ 16 ∧
    fld (reportTemp s t k) thermPage 0x100 20 16 = k % 2 ^ 5 ∧ rd (reportTemp s t k) thermPage 0x114 = rd s thermPage 0x114 ∧
    (reportTemp s t k).therm.aonDeck = s.therm.aonDeck ∧ (reportTemp s t k).mode = s.mode := by
  obtain ⟨u, hu, hshow, htherm, hrd, hmode⟩ := reportTemp_shows s t k
  rw [hu, report120, if_pos (.inl (by rw [htherm]; exact ht))]
  exact ⟨by rw [htherm], hshow.1, hshow.2, hrd, by rw [htherm], hmode⟩

theorem reportTemp_trips {t : Int} {k : Nat} (ht : 1200 ≤ t) (hrun : s.mode = .run) : ∃ u, reportTemp s t k = enterHold u 4 := by
  obtain ⟨u, hu, -, htherm, -, hmode⟩ := reportTemp_shows s t k
  have hno : ¬(u.therm.reported < 1200 ∨ u.mode ≠ .run) := by
    rw [htherm, hmode, hrun]
    rintro (h | h)
    · exact absurd ht (Int.not_le.mpr h)
    · exact h rfl
  rw [hu, report120, if_neg hno]
  dsimp only
  split
  · exact ⟨_, rfl⟩
  · exact powerFail_enters _ 6 4

end

end Sys2Proof.Machine

namespace Sys2Proof
open Sys2Proof.Machine

/-- Settles O60: the pin, the supplies and the sample by the mode they meet. -/
theorem resetPinSuppliesAndTemperature : Obligations.ResetPinSuppliesAndTemperature := by
  unfold Obligations.ResetPinSuppliesAndTemperature
  refine ⟨?_, fun s h => completes (resetRise_high h), ?_, fun s h => completes (resetFall_low h), ?_, ?_, fun s k => ?_, fun s b => ?_, ?_, ?_, ?_, ?_, ?_, ?_, ?_, ?_, ?_⟩
  · rintro s u h rfl
    exact ⟨fun hrun => completes ((resetRise_low h).trans (if_pos hrun)), fun hrun => completes ((resetRise_low h).trans (if_neg hrun))⟩
  · rintro s u h rfl hrun
    rw [custodyQueues_abortDrain]
    exact completes ((resetFall_high h).trans (if_neg (not_not_intro hrun)))
  · rintro s u h hrun rfl
    exact completes ((resetFall_high h).trans (if_pos hrun))
  · rintro s b k rfl
    exact ⟨coldStart_waits, coldStart_goes⟩
  · obtain ⟨h1, h2, h3, h4, h5, h6⟩ := coldReset_shows (s := s) k
    refine ⟨h1, h2, h3, h4, h5, h6, ?_⟩
    rintro rfl
    obtain ⟨hcq, hpage, hslots, hanch, -⟩ := coldReset_unkept (s := s)
    exact ⟨hcq, hpage, hslots, hanch⟩
  · obtain ⟨u, hu, h⟩ := supplyFail_shows (s := s) b
    exact ⟨u, completes hu, h⟩
  · rintro s l a b u hrun hoff rfl
    exact completes (thermSample_idle (by rw [hrun]; rintro ⟨h, -⟩; cases h) (.inr hoff))
  · intro s a b hrun hon hforced _ _
    obtain ⟨t, ht, hmode, hdeck, -⟩ := thermSample_run (l := []) (a := a) (b := b) hrun hon hforced
    have hcool : ((hottest []).1 : Int) < 1200 := by decide
    obtain ⟨hrep, hfld, -, -, hdeck', hmode'⟩ := reportTemp_cool (s := t) (k := (hottest []).2) hcool
    exact ⟨_, completes ht, hrep, hfld, hdeck'.trans hdeck, hmode'.trans hmode⟩
  · intro s l a b hrun hon hforced hcool
    obtain ⟨t, ht, hmode, -, hbad⟩ := thermSample_run (l := l) (a := a) (b := b) hrun hon hforced
    obtain ⟨hrep, -, hsens, hrd, -, -⟩ := reportTemp_cool (s := t) (k := (hottest (l.take 30)).2) hcool
    refine ⟨_, completes ht, hrep, ?_, fun i r hi hr => ?_⟩
    · exact hsens.trans (Nat.mod_eq_of_lt (hottest_sensor (List.length_take_le 30 l)))
    · rw [fld_congr hrd, fld_one]
      have hi' : (l.take 30)[i]? = some r := by rw [List.getElem?_take, if_pos hi, hr]
      have hbit : bitAt t thermPage 0x114 i = (sensorOk r).isNone := by
        refine (testBit_of_fld (hi := 29) (by omega)).symm.trans ?_
        rw [hbad, Nat.testBit_mod_two_pow, decide_eq_true hi, Bool.true_and, badSensors, sum_numbered (fun r => (sensorOk r).isNone), Nat.pow_zero, Nat.one_mul, testBit_marks, hi']
        rfl
      rw [hbit]
  · intro s l a b hrun h
    refine completes (thermSample_idle ?_ (.inl hrun))
    rintro ⟨hm, hr⟩
    rcases h with h | h
    · rw [h] at hr; cases hr
    · rw [h] at hm; cases hm
  · intro s t k ht hrun
    obtain ⟨u, hu⟩ := reportTemp_trips (k := k) ht hrun
    rw [hu, fld, (enterHold_holds u 4).2.1]
    exact ⟨rfl, rfl⟩
  · intro s h hhot hon
    refine ⟨_, rfl, completes (if_neg ?_)⟩
    rintro (ht | hc | hoff)
    · rw [h] at ht; cases ht
    · omega
    · rw [hon] at hoff; cases hoff
  · intro s h
    exact completes (if_pos (h.imp_right fun h => h.imp_right fun h => by rw [h]; rfl))
  · intro s h
    exact completes (if_pos (.inl (by rw [h]; rfl)))
  · intro s h
    refine ⟨fun hcool => completes (if_neg ?_), fun hhot => completes (if_pos (.inr hhot))⟩
    rintro (hn | hhot)
    · rw [h] at hn; cases hn
    · omega

end Sys2Proof
end

section
/-! PROOFS. SEC commands, the stages of a start and signatures for SPAN (R523 to R543). -/

namespace Sys2Proof.Machine

theorem sec_rows : regRow secPage 0x100 = some { off := 0x100, rw := 0xFF, w1s := 0x80000000 } ∧ isHigh secPage 0x100 = false ∧
    (pageInfo secPage).map (·.kind) = some .sec := by decide +kernel
theorem boot_rows : regRow bootPage 0x11C = some { off := 0x11C, w1s := 0x1 } ∧ isHigh bootPage 0x11C = false ∧
    (pageInfo bootPage).map (·.kind) = some .boot := by decide +kernel

/-! ### A command is given (R542) -/

section
variable {s : State} {r : Requester}

/-- The bits of SEC_CMD with its go bit. -/
theorem cmd_bits : ∀ k < 16, (k + 2 ^ 31).testBit 31 = true ∧ (k + 2 ^ 31) % 2 ^ 8 = k := by decide

theorem regWrite_sec (h : opened s r secPage 0x100 = true) {k : Nat} (hk : k < 16) : regWrite s r secPage 0x100 (k + 2 ^ 31) =
    { secEffect (written s secPage 0x100 (k + 2 ^ 31)) (rd s secPage 0x100).toNat (reached { off := 0x100, rw := 0xFF, w1s := 0x80000000 } (k + 2 ^ 31))
        (rd (written s secPage 0x100 (k + 2 ^ 31)) secPage 0x100).toNat with resp := .done } := by
  obtain ⟨hrow, hhigh, hkind⟩ := sec_rows
  obtain ⟨i, hi, hkind⟩ := Option.map_eq_some_iff.mp hkind
  rw [regWrite_block h hi hrow (by decide) (by decide) rfl hhigh (by omega)]
  refine responds ?_ _
  simp only [blockEffect, hkind]
  exact if_pos trivial

theorem boot_written (o v : Nat) : (written s secPage o v).boot = s.boot := by
  obtain ⟨g, b, hstore⟩ := storeWord_only s secPage o v all32
  rw [written, hstore]

/-- Its go bit is among what the write reaches, and its code is stored. -/
theorem cmd_stored {k : Nat} (hk : k < 16) : bitOf (reached { off := 0x100, rw := 0xFF, w1s := 0x80000000 } (k + 2 ^ 31)) 31 = true ∧
    (rd (written s secPage 0x100 (k + 2 ^ 31)) secPage 0x100).toNat % 256 = k := by
  obtain ⟨hgo, hcode⟩ := cmd_bits k hk
  refine ⟨?_, (rd_written_mod sec_rows.1 _ (n := 8) (by decide) (by decide)).trans hcode⟩
  rw [bitOf_reached (by omega), hgo]
  rfl

/-- A command is taken while none runs. -/
theorem secCommand_taken (h : opened s r secPage 0x100 = true) (hidle : s.boot.cmd = none) {k : Nat} (hk : k < 16) {g : SecCmd → SecCmd} {c : SecCmd}
    (hg : g { code := k } = c) : secCommand s r k g =
      { setBit { written s secPage 0x100 (k + 2 ^ 31) with boot := { s.boot with cmd := some c } } secPage 0x104 0 true with resp := .done } := by
  obtain ⟨hgo, hcode⟩ := cmd_stored (s := s) hk
  have hnone : (written s secPage 0x100 (k + 2 ^ 31)).boot.cmd.isSome = false := by rw [boot_written, hidle]; rfl
  have hboot := boot_written (s := s) 0x100 (k + 2 ^ 31)
  have hwrite : regWrite s r secPage 0x100 (k + 2 ^ 31) = { setBit { written s secPage 0x100 (k + 2 ^ 31) with boot := { (written s secPage 0x100 (k + 2 ^ 31)).boot with cmd := some { code := k } } }
      secPage 0x104 0 true with resp := .done } := by
    rw [regWrite_sec h hk]
    refine responds ?_ _
    simp only [secEffect, hgo, hnone, secGo, hcode]
    rfl
  unfold secCommand
  rw [hidle, hwrite]
  generalize written s secPage 0x100 (k + 2 ^ 31) = w at *
  subst hg
  rw [← hboot]
  exact (if_pos rfl).trans (if_pos rfl)

/-- Another is refused while one runs, which goes on. -/
theorem secCommand_busy (h : opened s r secPage 0x100 = true) (hbusy : s.boot.cmd.isSome = true) {k : Nat} (hk : k < 16) (g : SecCmd → SecCmd) :
    secCommand s r k g = { setFld (wr (written s secPage 0x100 (k + 2 ^ 31)) secPage 0x100 (rd s secPage 0x100)) secPage 0x104 15 8 0x0C with resp := .done } := by
  obtain ⟨hgo, -⟩ := cmd_stored (s := s) hk
  have hsome : (written s secPage 0x100 (k + 2 ^ 31)).boot.cmd.isSome = true := by rw [boot_written]; exact hbusy
  unfold secCommand
  rw [show s.boot.cmd.isNone = false by rw [← Option.not_isSome, hbusy]; rfl]
  refine (if_neg Bool.false_ne_true).trans ?_
  rw [regWrite_sec h hk]
  refine responds ?_ _
  unfold secEffect
  rw [if_neg (by rw [hgo]; decide), if_pos hsome]
  unfold secGo
  have hword : BitVec.ofNat 32 (rd s secPage 0x100).toNat = rd s secPage 0x100 := by simp
  rw [hword]
  exact if_pos hsome

theorem secDone_none (h : s.boot.cmd = none) : secDone s = s := by
  unfold secDone
  rw [h]
theorem secDone_some {c : SecCmd} {x : Nat × State} {t : State} (h : s.boot.cmd = some c) (hx : x = runSec { s with boot := { s.boot with cmd := none } } c)
    (ht : t = raise (wr x.2 secPage 0x104 (BitVec.ofNat 32 (2 + x.1 * 256))) secPage 0) :
    secDone s = forEach { t with boot := { t.boot with asked := [] } } t.boot.asked spxServe := by
  subst ht hx
  unfold secDone
  rw [h]

end

/-! ### What a command comes to (R543) -/

section
variable {s : State} {c : SecCmd} (hbus : c.busError = false)
include hbus

theorem runSec_unknown (h : 10 < c.code) : runSec s c = (1, s) := by
  obtain ⟨n, hn⟩ : ∃ n, c.code = n + 11 := ⟨c.code - 11, by omega⟩
  unfold runSec
  rw [hbus, hn]
  rfl
theorem runSec_quote (h : c.code = 1) : runSec s c = doQuote s := by unfold runSec; rw [hbus, h]; rfl
theorem runSec_stage (h : c.code = 2) : runSec s c = doStage s c.bundle c.flashOk := by unfold runSec; rw [hbus, h]; rfl
theorem runSec_select (h : c.code = 3) : runSec s c = doSelect s := by unfold runSec; rw [hbus, h]; rfl
theorem runSec_bootOk (h : c.code = 4) : runSec s c = doBootOk s := by unfold runSec; rw [hbus, h]; rfl
theorem runSec_spxUpdate (h : c.code = 5) : runSec s c = doSpxUpdate s := by unfold runSec; rw [hbus, h]; rfl
theorem runSec_fwApply (h : c.code = 6) : runSec s c = doFwApply s := by unfold runSec; rw [hbus, h]; rfl
theorem runSec_certRead (h : c.code = 7) : runSec s c = doCertRead s := by unfold runSec; rw [hbus, h]; rfl
theorem runSec_fuseOwner (h : c.code = 8) : runSec s c = doFuseOwner s := by unfold runSec; rw [hbus, h]; rfl
theorem runSec_debug (h : c.code = 9) : runSec s c = doDebug s c.sigAskineOk c.sigOwnerOk := by unfold runSec; rw [hbus, h]; rfl
theorem runSec_nonce (h : c.code = 10) : runSec s c = doNonce s := by unfold runSec; rw [hbus, h]; rfl

end

section
variable {s : State}

/-! ### QUOTE (R534) -/

theorem doQuote_signs (h : s.boot.locked = false) : doQuote s = (0, putBuffer s (quoteBody s ++
    leBytes 64 (deviceSign (Config.sha512 ((quoteBody s).map (·.toNat)) % 2 ^ 512)))) := by
  unfold doQuote
  rw [if_neg (by rw [h]; decide)]

/-! ### STAGE (R537) -/

section
variable {b : Bundle} {k : Bool} {t : State} (hlen : (rd s secPage 0x110).toNat ≤ 2 ^ 26)
  (ht : t = toHost s (.hostRead (rd64 s secPage 0x108) (rd s secPage 0x110).toNat))
include hlen ht

theorem doStage_error : doStage s .error k = (7, t) := by
  subst ht
  exact if_neg (by omega)
/-- A bundle that was read is judged, and goes into the slot that is not booted. -/
theorem doStage_read : doStage s (.ok b) k = if bundleCause t b ≠ 0 then (bundleCause t b, t)
    else if ((List.range 32).filter (fun k => !storeOk t k)).length < ((compsOf b 2).filter (fun c => (storedAs t c.digest.toNat).isNone)).length then (6, t)
    else if (!k) = true then (8, setOther t none) else (0, forEach (setOther t (some b)) (compsOf b 2) storePut) := by
  subst ht
  exact if_neg (by omega)

end

/-! ### FW_APPLY (R538) -/

theorem doFwApply_refused (h : ((rd s secPage 0x108).toNat ≠ 3 ∧ (rd s secPage 0x108).toNat ≠ 4) ∨ 0xFFFF < (rd s secPage 0x10C).toNat) : doFwApply s = (2, s) := if_pos h
theorem doFwApply_staged {d : Component} (ht : (rd s secPage 0x108).toNat = 3 ∨ (rd s secPage 0x108).toNat = 4) (hm : (rd s secPage 0x10C).toNat ≤ 0xFFFF)
    (h0 : rd s secPage 0x10C ≠ 0) (hd : (staged s).bind (compOf · (rd s secPage 0x108).toNat) = some d) : doFwApply s =
      if (rd s secPage 0x108).toNat = 4 then (0, { s with boot := { s.boot with phyMask := s.boot.phyMask ||| (rd s secPage 0x10C).toNat, phyNew := some d } })
      else (0, forEach (takeComp s d) ([0, 1, 2, 3].filter (fun r => bitsOf (rd s secPage 0x10C).toNat (4 * r + 3) (4 * r) != 0)) (fun s r => extendBy s r d)) := by
  unfold doFwApply
  dsimp only
  rw [if_neg (by omega), hd]
  exact if_neg fun h => h0 (BitVec.eq_of_toNat_eq h)

/-! ### The data buffer -/

theorem putBytes_keeps (bs : List Byte) (i fuel : Nat) (s : State) : (putBytes bs i fuel s).boot = s.boot ∧ now (putBytes bs i fuel s) = now s := by
  induction fuel generalizing bs i s with
  | zero => cases bs <;> exact ⟨rfl, rfl⟩
  | succ n ih =>
    cases bs with
    | nil => exact ⟨rfl, rfl⟩
    | cons x bs =>
      obtain ⟨hboot, hnow⟩ := ih ((x :: bs).drop 64) (i + 1) (tset s secPage 0 0 i (esetFld (tget s secPage 0 0 i) (8 * ((x :: bs).take 64).length - 1) 0 (leNat ((x :: bs).take 64))))
      exact ⟨hboot, hnow⟩
theorem putBuffer_keeps (bs : List Byte) (s : State) : (putBuffer s bs).boot = s.boot ∧ now (putBuffer s bs) = now s := putBytes_keeps bs 0 64 s

theorem doNonce_draws : doNonce s = (0, { putBuffer (fresh s).2 (leBytes 8 ((fresh s).1 % 2 ^ 64)) with
    boot := { s.boot with nonce := some ((fresh s).1 % 2 ^ 64, now s) } }) := by
  obtain ⟨hboot, hnow⟩ := putBuffer_keeps (leBytes 8 ((fresh s).1 % 2 ^ 64)) (fresh s).2
  unfold doNonce
  dsimp only
  rw [hboot, hnow]
  rfl

/-! ### Fuses and debug (R539 to R541) -/

theorem doFuseOwner_wrong (h : rd s secPage 0x108 ≠ 0x4F574E52) : doFuseOwner s = (2, s) := if_pos h
section
variable (h : rd s secPage 0x108 = 0x4F574E52)
include h
theorem doFuseOwner_again (ho : ownerSet s = true) : doFuseOwner s = (9, s) := (if_neg (not_not_intro h)).trans (if_pos ho)
theorem doFuseOwner_burns (ho : ownerSet s = false) : (doFuseOwner s).1 = 0 ∧ ownerSet (doFuseOwner s).2 = true := by
  unfold doFuseOwner
  rw [if_neg (not_not_intro h), if_neg (by rw [ho]; decide)]
  exact ⟨rfl, bitAt_setBit_same _ _ _ _ (by decide)⟩
end

/-- How DEBUG ends: done, or refused with nothing changed. -/
def DebugEnd (s : State) (x : Nat × State) : Prop := x.1 ∈ [0, 2, 3, 0x0C] ∧ (x.1 ≠ 0 → x.2 = s)

theorem doDebug_ends (a o : Bool) : DebugEnd s (doDebug s a o) := by
  have hboth : ∀ (q : Prop) [Decidable q] (x y : Nat × State), DebugEnd s x → DebugEnd s y → DebugEnd s (if q then x else y) := by
    intro q _ x y hx hy
    split
    · exact hx
    · exact hy
  have hrefused : ∀ n ∈ [2, 3, 0x0C], DebugEnd s (n, s) := fun n hn => ⟨List.mem_cons_of_mem _ hn, fun _ => rfl⟩
  have hdone : ∀ t, DebugEnd s (0, t) := fun t => ⟨List.mem_cons_self, fun h => absurd rfl h⟩
  unfold doDebug
  exact hboth _ _ _ (hrefused 2 (by decide)) (hboth _ _ _ (hrefused 0x0C (by decide)) (hboth _ _ _ (hrefused 3 (by decide)) (hdone _)))

/-! ### Bundles and the choice of a slot (R525 to R528) -/

theorem bundleCause_unsigned {b : Bundle} (h : sigOk s b = false) : bundleCause s b = 3 := if_pos (by rw [h]; rfl)
section
variable {b : Bundle} (hsig : sigOk s b = true)
include hsig
theorem bundleCause_digest (h : ∃ c ∈ b.components, c.digestOk = false) : bundleCause s b = 4 := by
  obtain ⟨c, hc, hd⟩ := h
  exact (if_neg (by rw [hsig]; decide)).trans (if_pos (List.any_eq_true.mpr ⟨c, hc, by rw [hd]; rfl⟩))
theorem bundleCause_counter (hd : ∀ c ∈ b.components, c.digestOk = true) (hshape : bundleShape b = true)
    (h : ∃ c ∈ b.components, c.svn.toNat < counterOf s c.counter.toNat) : bundleCause s b = 5 := by
  obtain ⟨c, hc, hlt⟩ := h
  refine (if_neg (by rw [hsig]; decide)).trans ((if_neg fun h => ?_).trans ((if_neg (by rw [hshape]; decide)).trans
    (if_pos (List.any_eq_true.mpr ⟨c, hc, decide_eq_true hlt⟩))))
  obtain ⟨d, hd', hbad⟩ := List.any_eq_true.mp h
  rw [hd d hd'] at hbad
  cases hbad
end

theorem chooseSlot_neither {t : Nat} (hp : slotValid s (fld s bootPage 0x104 0 0) = false) (ho : slotValid s (1 - fld s bootPage 0x104 0 0) = false) :
    chooseSlot s t = none := (if_pos (by rw [hp]; rfl)).trans (if_neg (by rw [ho]; decide))
theorem chooseSlot_preferred {t : Nat} (hp : slotValid s (fld s bootPage 0x104 0 0) = true) (ho : slotValid s (1 - fld s bootPage 0x104 0 0) = false) :
    chooseSlot s t = some (fld s bootPage 0x104 0 0, false) := (if_neg (by rw [hp]; decide)).trans (if_pos (by rw [ho]; rfl))
theorem chooseSlot_other {t : Nat} (hp : slotValid s (fld s bootPage 0x104 0 0) = false) (ho : slotValid s (1 - fld s bootPage 0x104 0 0) = true) :
    chooseSlot s t = some (1 - fld s bootPage 0x104 0 0, !s.boot.aonLost) := (if_pos (by rw [hp]; rfl)).trans (if_pos ho)
theorem chooseSlot_trials {t : Nat} (hp : slotValid s (fld s bootPage 0x104 0 0) = true) (ho : slotValid s (1 - fld s bootPage 0x104 0 0) = true)
    (hl : s.boot.aonLost = false) : chooseSlot s t =
      some (if max 1 (fld s bootPage 0x108 3 0) < t then (1 - fld s bootPage 0x104 0 0, true) else (fld s bootPage 0x104 0 0, false)) := by
  refine (if_neg (by rw [hp]; decide)).trans ((if_neg (by rw [ho]; decide)).trans ((if_neg (by rw [hl]; decide)).trans ?_))
  split <;> rfl
theorem chooseSlot_newer {t : Nat} {a b : Bundle} (ha : slotOf s (fld s bootPage 0x104 0 0) = some a) (hb : slotOf s (1 - fld s bootPage 0x104 0 0) = some b)
    (hp : slotValid s (fld s bootPage 0x104 0 0) = true) (ho : slotValid s (1 - fld s bootPage 0x104 0 0) = true) (hl : s.boot.aonLost = true) : chooseSlot s t =
      some (if a.generation.toNat < b.generation.toNat then 1 - fld s bootPage 0x104 0 0 else fld s bootPage 0x104 0 0, false) := by
  unfold chooseSlot
  rw [if_neg (by rw [hp]; decide), if_neg (by rw [ho]; decide), if_pos hl]
  simp only [ha, hb]
  split <;> rfl

/-! ### The stages of a start (R523 to R530) -/

theorem hostGo_idle {b : HostRead Bundle} (h : s.boot.stage ≠ 0 ∨ s.pins.bootSrc = 0) : hostGo s b = s := if_pos h
theorem hostGo_reads {b : Bundle} {t : State} (h0 : s.boot.stage = 0) (hsrc : s.pins.bootSrc ≠ 0)
    (ht : t = toHost s (.hostRead (rd64 s bootPage 0x110) (rd s bootPage 0x118).toNat)) :
    hostGo s (.ok b) = { t with boot := { s.boot with hostBundle := some b } } ∧ hostGo s .error = setFld t bootPage 0x100 11 8 2 := by
  subst ht
  have hno : ¬(s.boot.stage ≠ 0 ∨ s.pins.bootSrc = 0) := by
    rintro (h | h)
    · exact h h0
    · exact hsrc h
  have hboot : (toHost s (.hostRead (rd64 s bootPage 0x110) (rd s bootPage 0x118).toNat)).boot = s.boot := by
    unfold toHost
    split <;> rfl
  refine ⟨(if_neg hno).trans ?_, if_neg hno⟩
  rw [← hboot]

theorem bootHost_goes {r : Requester} {b : HostRead Bundle} (h : opened s r bootPage 0x11C = true) :
    bootHost s r b = hostGo { written s bootPage 0x11C 1 with resp := .done } b := by
  obtain ⟨hrow, hhigh, hkind⟩ := boot_rows
  obtain ⟨i, hi, hkind⟩ := Option.map_eq_some_iff.mp hkind
  have hwrite : regWrite s r bootPage 0x11C 1 = { written s bootPage 0x11C 1 with resp := .done } := by
    rw [regWrite_block h hi hrow (by decide) (by decide) rfl hhigh (by decide)]
    refine responds ?_ _
    simp only [blockEffect, hkind]
  unfold bootHost
  rw [h, hwrite]
  rfl

section
variable {k : Bool}
theorem bootStep_waits (h : s.mode ≠ .run ∨ domOn s 172 = false ∨ 2 < s.boot.stage ∨ (s.boot.stage ≠ 0 ∧ s.boot.running = none)) : bootStep s k = s := by
  by_cases hgo : s.mode ≠ .run ∨ (!domOn s 172) = true
  · exact if_pos hgo
  · obtain ⟨hrun, hon⟩ := not_or.mp hgo
    have hstage : 2 < s.boot.stage ∨ (s.boot.stage ≠ 0 ∧ s.boot.running = none) := by
      rcases h with h | h | h
      · exact absurd h hrun
      · exact absurd (by rw [h]; rfl) hon
      · exact h
    refine (if_neg hgo).trans ?_
    split
    · omega
    · next h1 hb =>
      rw [h1, hb] at hstage
      rcases hstage with h | ⟨-, h⟩
      · omega
      · cases h
    · next h2 hb =>
      rw [h2, hb] at hstage
      rcases hstage with h | ⟨-, h⟩
      · omega
      · cases h
    · rfl
theorem bootStep_runs (hrun : s.mode = .run) (hon : domOn s 172 = true) :
    (s.boot.stage = 0 → bootStep s k = bootRom s k) ∧ (∀ b : Bundle, s.boot.stage = 1 → s.boot.running = some b → bootStep s k = bootFirst s b) ∧
    (∀ b : Bundle, s.boot.stage = 2 → s.boot.running = some b → bootStep s k = bootSecond s b) := by
  have hgo : ¬(s.mode ≠ .run ∨ (!domOn s 172) = true) := by
    rintro (h | h)
    · exact h hrun
    · rw [hon] at h; cases h
  refine ⟨fun h0 => (if_neg hgo).trans ?_, fun b h1 hb => (if_neg hgo).trans ?_, fun b h2 hb => (if_neg hgo).trans ?_⟩
  · rw [h0]
    rfl
  · rw [h1, hb]
    rfl
  · rw [h2, hb]
    rfl
end

theorem issueCert_log (r : Nat) : (issueCert s r).logLen = s.logLen := by
  unfold issueCert
  split <;> rfl
theorem extend_log (r ty target version digest : Nat) : (extend s r ty target version digest).logLen = s.logLen + 1 := by
  have hite : ∀ (q : Prop) [Decidable q] (x y : State), x.logLen = s.logLen + 1 → y.logLen = s.logLen + 1 → (if q then x else y).logLen = s.logLen + 1 := by
    intro q _ x y hx hy
    split
    · exact hx
    · exact hy
  have hentry : ∀ (q : Prop) [Decidable q] (u : State) (n : Nat) (e : Entry), u.logLen = s.logLen →
      ({ (if q then tset u secPage 3 0 n e else u) with logLen := (if q then tset u secPage 3 0 n e else u).logLen + 1 } : State).logLen = s.logLen + 1 := by
    intro q _ u n e hu
    show (if q then tset u secPage 3 0 n e else u).logLen + 1 = s.logLen + 1
    split
    · exact congrArg (· + 1) hu
    · exact congrArg (· + 1) hu
  exact hite _ _ _ ((issueCert_log _).trans (hentry _ _ _ _ rfl)) (hentry _ _ _ _ rfl)

theorem romRuns_shows (b : Bundle) : (romRuns s b).boot.stage = 1 ∧ (romRuns s b).boot.running = some b ∧
    (romRuns s b).logLen = s.logLen + 2 + (if (compOf b 1).isSome then 1 else 0) := by
  refine ⟨rfl, rfl, ?_⟩
  unfold romRuns
  cases compOf b 1 with
  | none => simp only [extend_log]; rfl
  | some c => simp only [extendBy, extend_log]; rfl

/-! ### Signatures for SPAN (R535) -/

theorem spxAsk_refused {q : SpxReq} (h : runsSpan s q.block = false) : spxAsk s q = emit s (.response 0xF0 q.op q.block 5 none []) := if_pos (by rw [h]; rfl)
theorem spxServe_sign (b r d : Nat) : spxServe s { block := b, op := 0x10, args := [r, d] } =
    if s.boot.locked = true then emit s (.response 0xF0 0x10 b 0x0A none [])
    else if (!(List.range 8).any (fun l => linkRegion l == r && bitAt s (spnLinkPage l) 0x100 0)) = true then emit s (.response 0xF0 0x10 b 5 none [])
    else emit s (.response 0xF0 0x10 b 0 none [regionSign s r d]) := by
  unfold spxServe
  rw [if_neg (not_not_intro rfl)]
  rfl
theorem spxServe_verify (b : Nat) (l : List Nat) : spxServe s { block := b, op := 0x11, args := l } = emit s (.response 0xF0 0x11 b 0 none l) := by
  unfold spxServe
  exact if_pos (show 0x11 ≠ 0x10 by decide)
section
variable {q : SpxReq} (h : runsSpan s q.block = true)
include h
theorem spxAsk_served (hc : ∀ k ∈ s.boot.cmd, k.code ≠ 5) : spxAsk s q = spxServe s q := by
  refine (if_neg (by rw [h]; decide)).trans (if_pos ?_)
  cases hcmd : s.boot.cmd with
  | none => rfl
  | some k => simp [hc k hcmd]
theorem spxAsk_restarting {k : SecCmd} (hk : s.boot.cmd = some k) (h5 : k.code = 5) : spxAsk s q = if 64 ≤ s.boot.asked.length then emit s (.response 0xF0 q.op q.block 4 none [])
    else { s with boot := { s.boot with asked := s.boot.asked ++ [q] } } := by
  refine (if_neg (by rw [h]; decide)).trans (if_neg ?_)
  rw [hk]
  simp [h5]
end

end

end Sys2Proof.Machine

namespace Sys2Proof
open Sys2Proof.Machine

/-- Settles O59: a command by whether one runs, what it comes to by its code, and each stage by what the machine has reached. -/
theorem securityCommandsAndBoot : Obligations.SecurityCommandsAndBoot := by
  unfold Obligations.SecurityCommandsAndBoot
  refine ⟨?_, ?_, fun s => ⟨fun h => completes (secDone_none h), fun c x t h hx ht => completes (secDone_some h hx ht)⟩, ?_,
    fun s b => ⟨bundleCause_unsigned, bundleCause_digest, bundleCause_counter⟩, fun s r b h => completes (bootHost_goes h), fun s b h0 hsrc t ht => hostGo_reads h0 hsrc ht,
    fun s b h => hostGo_idle h, fun s k => ⟨fun h => completes (bootStep_waits h), fun hrun hon => ?_⟩, ?_, fun s b => romRuns_shows b,
    fun s h => completes (if_pos h), fun s h => completes (if_pos h), ?_, fun s h => completes (if_neg (not_not_intro h)), ?_⟩
  · intro s r w f h hidle hw hf
    have hgo : ∀ k < 16, ∀ (g : SecCmd → SecCmd) (c : SecCmd), g { code := k } = c → secCommand s r k g = f k c := fun k hk g c hg => by
      rw [hf, hw]
      exact secCommand_taken h hidle hk hg
    exact ⟨completes (hgo 1 (by decide) _ _ rfl), fun b k => completes (hgo 2 (by decide) _ _ rfl), completes (hgo 3 (by decide) _ _ rfl), completes (hgo 4 (by decide) _ _ rfl),
      completes (hgo 5 (by decide) _ _ rfl), completes (hgo 6 (by decide) _ _ rfl), completes (hgo 7 (by decide) _ _ rfl), completes (hgo 8 (by decide) _ _ rfl),
      fun a o => completes (hgo 9 (by decide) _ _ rfl), completes (hgo 10 (by decide) _ _ rfl)⟩
  · intro s r f h hbusy hf
    have hgo : ∀ k < 16, ∀ g : SecCmd → SecCmd, secCommand s r k g = f k := fun k hk g => by
      rw [hf]
      exact secCommand_busy h hbusy hk g
    exact ⟨completes (hgo 1 (by decide) _), fun b k => completes (hgo 2 (by decide) _), completes (hgo 3 (by decide) _), completes (hgo 4 (by decide) _),
      completes (hgo 5 (by decide) _), completes (hgo 6 (by decide) _), completes (hgo 7 (by decide) _), completes (hgo 8 (by decide) _),
      fun a o => completes (hgo 9 (by decide) _), completes (hgo 10 (by decide) _)⟩
  · intro s c
    refine ⟨fun hbus => if_pos hbus, runSec_unknown, fun hbus h hl => (runSec_quote hbus h).trans (if_pos hl),
      fun hbus h hl => (runSec_quote hbus h).trans (doQuote_signs hl), fun hbus h hlen => (runSec_stage hbus h).trans (if_pos hlen),
      fun t hbus h hlen ht => ?_, fun hbus h hbad => (runSec_select hbus h).trans (if_pos (hbad.imp_right fun h => by rw [h]; rfl)),
      fun hbus h h1 hok => (runSec_select hbus h).trans (if_neg ?_), fun d hbus h hd => (runSec_spxUpdate hbus h).trans ?_,
      fun hbus h hbad => (runSec_fwApply hbus h).trans (doFwApply_refused hbad), fun d hbus h hm h0 hd => ⟨fun h4 => ?_, fun h3 => ?_⟩,
      fun hbus h hbig => (runSec_certRead hbus h).trans (if_pos hbig), fun hbus h h0 => (runSec_certRead hbus h).trans ?_,
      fun hbus h hkey ho => (runSec_fuseOwner hbus h).trans (doFuseOwner_again hkey ho), fun hbus h hkey => (runSec_fuseOwner hbus h).trans (doFuseOwner_wrong hkey),
      fun hbus h hkey ho => ?_, fun hbus h => ?_, fun hbus h => (runSec_nonce hbus h).trans doNonce_draws, fun hbus h => ?_⟩
    · refine ⟨fun hb => ?_, fun b hb hc => ?_, fun b hb hc hfull => ?_, fun b hb hc hroom => ?_⟩
      · rw [runSec_stage hbus h, hb]
        exact doStage_error hlen ht
      · rw [runSec_stage hbus h, hb, doStage_read hlen ht]
        exact if_pos hc
      · rw [runSec_stage hbus h, hb, doStage_read hlen ht]
        exact (if_neg (not_not_intro hc)).trans (if_pos hfull)
      · rw [runSec_stage hbus h, hb, doStage_read hlen ht, if_neg (not_not_intro hc), if_neg (Nat.not_lt.mpr hroom)]
        exact ⟨fun hf => if_pos (by rw [hf]; rfl), fun hf => if_neg (by rw [hf]; decide)⟩
    · rintro (hbig | hbad)
      · omega
      · rw [hok] at hbad; cases hbad
    · unfold doSpxUpdate
      rw [hd]
    · rw [runSec_fwApply hbus h, doFwApply_staged (.inr (congrArg BitVec.toNat h4)) hm h0 hd]
      exact if_pos (congrArg BitVec.toNat h4)
    · rw [runSec_fwApply hbus h, doFwApply_staged (.inl (congrArg BitVec.toNat h3)) hm h0 hd]
      exact if_neg (by rw [h3]; decide)
    · have h0' : (rd s secPage 0x108).toNat = 0 := congrArg BitVec.toNat h0
      exact (if_neg (by omega)).trans (if_pos h0')
    · rw [runSec_fuseOwner hbus h]
      exact doFuseOwner_burns hkey ho
    · rw [runSec_debug hbus h]
      exact doDebug_ends _ _
    · rw [runSec_bootOk hbus h]
      exact ⟨fld_setFld_same _ _ _ _ _ _ (by decide) (by decide), rfl⟩
  · obtain ⟨hrom, hfirst, hsecond⟩ := bootStep_runs (k := k) hrun hon
    exact ⟨fun h => completes (hrom h), fun b h hb => completes (hfirst b h hb), fun b h hb => completes (hsecond b h hb)⟩
  · exact fun s t => ⟨chooseSlot_neither, chooseSlot_preferred, fun hp ho hl => (chooseSlot_other hp ho).trans (by rw [hl]; rfl), chooseSlot_trials,
      fun hp ho hl => (chooseSlot_other hp ho).trans (by rw [hl]; rfl), fun a b => chooseSlot_newer⟩
  · intro s h
    have hgo : trained s = _ := if_neg (not_not_intro h)
    exact ⟨_, rfl, fun hk => completes (hgo.trans (if_neg (by rw [hk]; decide))), fun hk => completes (hgo.trans (if_pos hk))⟩
  · intro s b r d o n x c w
    have hverify : runsSpan s b.toNat = true → (∀ k ∈ s.boot.cmd, k.code ≠ 5) → spxAsk s { block := b.toNat, op := 0x11, args := [x.toNat, b2n c, b2n w] } =
        emit s (.response 0xF0 0x11 b.toNat 0 none [x.toNat, b2n c, b2n w]) := fun h hc =>
      (spxAsk_served (q := { block := b.toNat, op := 0x11, args := [x.toNat, b2n c, b2n w] }) h hc).trans (spxServe_verify b.toNat _)
    have hsign := fun (h : runsSpan s b.toNat = true) (hc : ∀ k ∈ s.boot.cmd, k.code ≠ 5) =>
      (spxAsk_served (q := { block := b.toNat, op := 0x10, args := [r.toNat, d.toNat] }) h hc).trans (spxServe_sign b.toNat r.toNat d.toNat)
    have hasked := fun (q : SpxReq) (h : runsSpan s q.block = true) (k : SecCmd) (hk : s.boot.cmd = some k) (h5 : k.code = 5) => spxAsk_restarting h hk h5
    refine ⟨fun h => ⟨completes (spxAsk_refused h), completes (spxAsk_refused h)⟩, fun h hc => ⟨completes (hverify h hc), fun hl => completes ((hsign h hc).trans ?_), fun hl hno => completes ((hsign h hc).trans ?_), fun l hl hlt hr hen => completes ((hsign h hc).trans ?_)⟩,
      fun k h hk h5 => ⟨fun hfull => ?_, fun hroom => ?_⟩⟩
    · exact if_pos hl
    · refine (if_neg (by rw [hl]; decide)).trans (if_pos ?_)
      rw [Bool.not_eq_true', List.any_eq_false]
      intro l hl
      simp only [Bool.and_eq_true, beq_iff_eq, not_and]
      exact fun hr => by rw [hno l (List.mem_range.mp hl) hr]; decide
    · refine (if_neg (by rw [hl]; decide)).trans (if_neg ?_)
      rw [List.any_eq_true.mpr ⟨l, List.mem_range.mpr hlt, by rw [hen, Bool.and_true]; exact beq_iff_eq.mpr hr⟩]
      decide
    · exact ⟨completes ((hasked { block := b.toNat, op := 0x10, args := [r.toNat, d.toNat] } h k hk h5).trans (if_pos hfull)), completes ((hasked { block := b.toNat, op := 0x11, args := [x.toNat, b2n c, b2n w] } h k hk h5).trans (if_pos hfull))⟩
    · exact ⟨completes ((hasked { block := b.toNat, op := 0x10, args := [r.toNat, d.toNat] } h k hk h5).trans (if_neg (Nat.not_le.mpr hroom))),
        completes ((hasked { block := b.toNat, op := 0x11, args := [x.toNat, b2n c, b2n w] } h k hk h5).trans (if_neg (Nat.not_le.mpr hroom)))⟩

end Sys2Proof
end

section
/-! PROOFS. The chip mode (R31, R506): what runs while footway mode switches the pipelines off leaves the mode as it is. Frames and custody. -/

namespace Sys2Proof.Machine

variable (s : State)

/-- A branch keeps the mode where both its sides do. -/
@[simp] theorem mode_ite {q : Prop} [Decidable q] (t u : State) : (if q then t else u).mode = if q then t.mode else u.mode := apply_ite State.mode q t u

/-- What keeps the mode for every item keeps it for the list. -/
@[simp] theorem forEach_mode {α : Type} {f : State → α → State} (l : List α) (s : State) (h : ∀ s a, (f s a).mode = s.mode) : (forEach s l f).mode = s.mode :=
  forEach_keeps (fun s => s.mode) h l s

/-! ### Buffers -/

@[simp] theorem setPool_mode (q : Pool) (x : PoolSt) : (setPool s q x).mode = s.mode := by cases q <;> simp [setPool]

@[simp] theorem setBuf_mode (q : Pool) (b : Nat) (x : Buf) : (setBuf s q b x).mode = s.mode := by simp [setBuf]

@[simp] theorem setUsage_mode (q : Pool) (i u : Nat) : (setUsage s q i u).mode = s.mode := by simp [setUsage]

@[simp] theorem mendWords_mode (w : Nat × Nat → Bool) : (mendWords s w).mode = s.mode := by simp [mendWords]

@[simp] theorem rewriteMeta_mode (p : Nat) : (rewriteMeta s p).mode = s.mode := by simp [rewriteMeta]

@[simp] theorem linkPage_mode (p nx : Nat) : (linkPage s p nx).mode = s.mode := by simp [linkPage]

@[simp] theorem linkPages_mode (l : List Nat) (s : State) : (linkPages s l).mode = s.mode := by
  induction l generalizing s with
  | nil => rfl
  | cons p l ih =>
    cases l with
    | nil => rfl
    | cons r l => simp [linkPages, ih]

@[simp] theorem grantBuf_mode (q : Pool) (i size : Nat) : (grantBuf s q i size).2.mode = s.mode := by cases q <;> simp [grantBuf]

@[simp] theorem grantFailed_mode (q : Pool) (reason region : Nat) (as : Option Nat) : (grantFailed s q reason region as).mode = s.mode := by simp [grantFailed]

@[simp] theorem grant_mode (q : Pool) (i size region : Nat) (as : Option Nat) : (grant s q i size region as).2.mode = s.mode := by
  unfold grant
  dsimp only
  split <;> simp

@[simp] theorem signalXoff_mode (port : Nat) (cls : Option Nat) (on : Bool) : (signalXoff s port cls on).mode = s.mode := by cases cls <;> simp [signalXoff]

@[simp] theorem moveCount_mode (port : Nat) (cls : Option Nat) (up : Bool) (g : Nat) : (moveCount s port cls up g).mode = s.mode := by simp [moveCount]

@[simp] theorem uncharge_mode (x : Buf) : (uncharge s x).mode = s.mode := by
  unfold uncharge
  dsimp only
  split <;> simp

@[simp] theorem badOp_mode (q : Pool) (b op by_ reason : Nat) : (badOp s q b op by_ reason).mode = s.mode := by cases q <;> simp [badOp]

@[simp] theorem fenceGranule_mode (a : Nat) : (fenceGranule s a).mode = s.mode := by simp [fenceGranule]

@[simp] theorem freeBuf_mode (q : Pool) (b : Nat) : (freeBuf s q b).mode = s.mode := by cases q <;> simp [freeBuf]

@[simp] theorem opRelease_mode (q : Pool) (b by_ : Nat) : (opRelease s q b by_).mode = s.mode := by simp [opRelease]

@[simp] theorem opDrop_mode (q : Pool) (b by_ : Nat) : (opDrop s q b by_).mode = s.mode := by simp [opDrop]

@[simp] theorem convertStamp_mode (k stamp : Nat) : (convertStamp s k stamp).2.mode = s.mode := by simp [convertStamp]

@[simp] theorem grantPages_mode (req region : Nat) (as : Option Nat) (n : Nat) (acc : List Nat) (s : State) :
    (grantPages s req region as n acc).2.mode = s.mode := by
  induction n generalizing s acc with
  | zero => rfl
  | succ n ih =>
    have hgrant := grant_mode s .pages req 1 region as
    unfold grantPages
    split
    next _ t h => rw [h] at hgrant; simpa using hgrant
    next p t h => rw [h] at hgrant; rw [ih, ← hgrant]

/-! ### Queues and their frames -/

@[simp] theorem creditQueue_mode (port c : Nat) : (creditQueue s port c).mode = s.mode := by simp [creditQueue]

@[simp] theorem setFrames_mode (q : Nat) (l : List QFrame) : (setFrames s q l).mode = s.mode := by simp [setFrames]

@[simp] theorem qCount_mode (q k n : Nat) : (qCount s q k n).mode = s.mode := by simp [qCount]

@[simp] theorem qDrop_mode (q : Nat) (f : Frame) : (qDrop s q f).mode = s.mode := by simp [qDrop]

@[simp] theorem report_mode (q : Nat) (n : Word) : (report s q n).mode = s.mode := by simp [report]

@[simp] theorem dropBuf_mode (q : Nat) (f : QFrame) : (dropBuf s q f).mode = s.mode := by
  unfold dropBuf
  split <;> simp

@[simp] theorem freePages_mode (req : Nat) (mine kept : List Nat) : (freePages s req mine kept).mode = s.mode := by simp [freePages]

@[simp] theorem pruneAnchors_mode (q : Nat) : (pruneAnchors s q).mode = s.mode := by simp [pruneAnchors]

@[simp] theorem releaseRecord_mode (q : Nat) (mine : List Nat) : (releaseRecord s q mine).mode = s.mode := by simp [releaseRecord]

@[simp] theorem rxDrop_mode (port : Nat) : (rxDrop s port).mode = s.mode := by simp [rxDrop]

@[simp] theorem jobDone_mode (job : Option Nat) (a : Bool) : (jobDone s job a).mode = s.mode := by
  unfold jobDone
  split
  · rfl
  · split <;> simp

@[simp] theorem discard_mode (q : Nat) (f : QFrame) (region reason : Nat) : (discard s q f region reason).mode = s.mode := by simp [discard]

@[simp] theorem refuse_mode (c : Copy) : (refuse s c).mode = s.mode := by simp [refuse]

/-! ### Records and custody queues -/

@[simp] theorem appendRecord_mode (req region : Nat) (tail : Option (Nat × Nat)) (size : Nat) (as : Option Nat) :
    (appendRecord s req region tail size as).2.mode = s.mode := by
  have hpages := grantPages_mode req region as (ceilDiv (size - room tail) 4096) [] s
  unfold appendRecord
  dsimp only
  split
  · simp
  · split
    next t h => rw [h] at hpages; exact hpages
    next l t h => rw [h] at hpages; simpa using hpages

@[simp] theorem setAnchor_mode (n : Nat) (a : Option Anchor) : (setAnchor s n a).mode = s.mode := by simp [setAnchor]

@[simp] theorem writeAnchor_mode (n : Nat) (a : Anchor) : (writeAnchor s n a).mode = s.mode := by simp [writeAnchor]

@[simp] theorem addAnchor_mode (q page : Nat) : (addAnchor s q page).mode = s.mode := by
  unfold addAnchor
  dsimp only
  split
  · simp
  · split <;> simp

@[simp] theorem tagPage_mode (q : Nat) (s : State) (p : Nat) : (tagPage q s p).mode = s.mode := by simp [tagPage]

@[simp] theorem stampAnchor_mode (q page ts : Nat) : (stampAnchor s q page ts).mode = s.mode := by
  unfold stampAnchor
  split
  · rfl
  · split <;> simp

@[simp] theorem tagPages_mode (q : Nat) (pages : List Nat) (ts : Nat) : (tagPages s q pages ts).mode = s.mode := by simp [tagPages]

@[simp] theorem custodyCount_mode (q reason : Nat) : (custodyCount s q reason).mode = s.mode := by simp [custodyCount]

@[simp] theorem dropHead_mode (q reason : Nat) : (dropHead s q reason).mode = s.mode := by
  unfold dropHead
  dsimp only
  split
  · split <;> simp
  · simp

@[simp] theorem evictHead_mode (fuel : Nat) (s : State) (q had : Nat) : (evictHead fuel s q had).mode = s.mode := by
  induction fuel generalizing s with
  | zero => rfl
  | succ n ih => simp [evictHead, ih]

@[simp] theorem evictFor_mode (quota q need opened : Nat) (s : State) : (evictFor quota q need opened s).2.mode = s.mode := by
  induction need generalizing opened s with
  | zero => rfl
  | succ n ih =>
    unfold evictFor
    split
    · exact ih _ _
    · dsimp only
      split <;> simp [ih]

@[simp] theorem quotaVerdict_mode (q size : Nat) (tail : Option (Nat × Nat)) : (quotaVerdict s q size tail).2.mode = s.mode := by
  unfold quotaVerdict
  dsimp only
  split
  · rfl
  · split <;> simp

@[simp] theorem writeCustody_mode (q : Nat) (f : Frame) (exempt : Bool) (old : Option (Nat × Bool)) (seq : Word) :
    (writeCustody s q f exempt old seq).2.mode = s.mode := by
  have hquota : (if exempt then (0, s) else quotaVerdict s q (recSize f) (cqOf s q).tail).2.mode = s.mode := by
    split <;> simp
  unfold writeCustody
  split
  · simp
  · split
    · simp
    · dsimp only
      generalize (if exempt then (0, s) else quotaVerdict s q (recSize f) (cqOf s q).tail) = v at hquota
      have hrecord := appendRecord_mode v.2 4 6 (cqOf v.2 q).tail (recSize f) none
      split
      · simpa using hquota
      · split
        next t h => rw [h] at hrecord; simpa using hrecord.trans hquota
        next l tail t h => rw [h] at hrecord; simpa using hrecord.trans hquota

@[simp] theorem handOne_mode (exempt : Bool) (q : Nat) (s : State) (f : QFrame) : (handOne exempt q s f).mode = s.mode := by simp [handOne]

theorem writeAhead_mode (q : Nat) (w : State → State) (old : List Record) (tail : Option (Nat × Nat)) (h : ∀ s, (w s).mode = s.mode) :
    (writeAhead s q w old tail).mode = s.mode := by
  unfold writeAhead
  extract_lets c t n
  have ht : t.mode = s.mode := by simp [t, h]
  split
  next => exact ht
  next u v _ _ =>
    have hu : u.mode = s.mode := by
      simp only [u]
      split <;> simp [ht]
    have hv : v.mode = s.mode := by
      simp only [v]
      split
      · split <;> simp [hu]
      · exact hu
    simp [hv]

@[simp] theorem handOver_mode (q : Nat) : (handOver s q).mode = s.mode := by simp [handOver, writeAhead_mode]

@[simp] theorem custodyDown_mode (q : Nat) : (custodyDown s q).mode = s.mode := by simp [custodyDown]

@[simp] theorem flushQueue_mode (q : Nat) : (flushQueue s q).mode = s.mode := by simp [flushQueue]

@[simp] theorem portDown_mode (port : Nat) : (portDown s port).mode = s.mode := by simp [portDown]

@[simp] theorem portPause_mode (port : Nat) : (portPause s port).mode = s.mode := by simp [portPause]

@[simp] theorem gatFree_mode (port : Nat) : (gatFree s port).mode = s.mode := by simp [gatFree]

@[simp] theorem setColl_mode (port : Nat) (c : Coll) : (setColl s port c).mode = s.mode := by simp [setColl]

@[simp] theorem mirrorAbort_mode (n : Nat) : (mirrorAbort s n).mode = s.mode := by simp [mirrorAbort]

@[simp] theorem abortTx_mode (port : Nat) : (abortTx s port).mode = s.mode := by
  unfold abortTx
  dsimp only
  split <;> simp

end Sys2Proof.Machine
end

section
/-! PROOFS. The chip mode (R31, R506): what runs while footway mode switches the pipelines off leaves the mode as it is. Captures, mirrors, spans, line ports. -/

namespace Sys2Proof.Machine

variable (s : State)

theorem inc_mode (p o : Nat) : (inc s p o).mode = s.mode := by simp

theorem wr64_mode (p o v : Nat) : (wr64 s p o v).mode = s.mode := by simp

theorem addCounter_mode (p sel idx c k : Nat) : (addCounter s p sel idx c k).mode = s.mode := by simp

/-! ### Rings and captures -/

@[simp] theorem setCqRing_mode (n : Nat) (x : CqRing) : (setCqRing s n x).mode = s.mode := by simp [setCqRing]

@[simp] theorem writeCompl_mode (n : Nat) (c : Compl) : (writeCompl s n c).mode = s.mode := by simp [writeCompl]

@[simp] theorem drainCq_mode (n fuel : Nat) (s : State) : (drainCq s n fuel).mode = s.mode := by
  induction fuel generalizing s with
  | zero => rfl
  | succ k ih =>
    unfold drainCq
    dsimp only
    split <;> simp [ih]

@[simp] theorem postCompl_mode (n reserved : Nat) (c : Compl) : (postCompl s n reserved c).mode = s.mode := by simp [postCompl]

@[simp] theorem entryDone_mode (n : Nat) : (entryDone s n).mode = s.mode := by simp [entryDone]

@[simp] theorem complete_mode (n : Nat) (c : Compl) : (complete s n c).mode = s.mode := by simp [complete]

@[simp] theorem setCap_mode (n : Nat) (c : CapPart) : (setCap s n c).mode = s.mode := by simp [setCap]

@[simp] theorem setCapState_mode (n st : Nat) : (setCapState s n st).mode = s.mode := by simp [setCapState]

@[simp] theorem capDisable_mode (n : Nat) : (capDisable s n).mode = s.mode := by simp [capDisable]

@[simp] theorem capFreeze_mode (n : Nat) : (capFreeze s n).mode = s.mode := by simp [capFreeze]

@[simp] theorem capTrigger_mode (n : Nat) : (capTrigger s n).mode = s.mode := by
  unfold capTrigger
  split
  · simp
  · split <;> simp

theorem capHeader_snd (n : Nat) (i : CopyInfo) (stored : Nat) : (capHeader s n i stored).2 = (convertStamp s (fld s capPage (capOff n) 4 1) i.ts).2 := rfl

@[simp] theorem capHeader_mode (n : Nat) (i : CopyInfo) (stored : Nat) : (capHeader s n i stored).2.mode = s.mode := by
  rw [capHeader_snd, convertStamp_mode]

@[simp] theorem capLost_mode (n : Nat) : (capLost s n).mode = s.mode := by simp [capLost]

@[simp] theorem capMove_mode (n len : Nat) (l : List Nat) : (capMove s n len l).1.mode = s.mode := by
  unfold capMove
  extract_lets touched
  refine List.foldlRecOn (motive := fun (a : State × List Nat) => a.1.mode = s.mode) _ _ rfl fun a ha e _ => ?_
  split
  · have hgrant := grant_mode a.1 .pages 5 1 6 none
    split
    next p t h => rw [h] at hgrant; exact (opRelease_mode _ _ _ _).trans (hgrant.trans ha)
    next t h => rw [h] at hgrant; exact hgrant.trans ha
  · exact ha

@[simp] theorem capWrite_mode (n : Nat) (i : CopyInfo) (bytes : List Byte) : (capWrite s n i bytes).mode = s.mode := by
  unfold capWrite
  extract_lets o len m u src c padded h r v ring next kept w recs
  split
  · simp
  · split
    · simp
    · have hu : u.mode = s.mode := capMove_mode s _ _ _
      have hv : v.mode = u.mode := (mendWords_mode _ _).trans (capHeader_mode _ _ _ _)
      have hw : w.mode = v.mode := by
        simp only [w]
        split <;> simp
      exact (inc_mode _ _ _).trans ((wr64_mode _ _ _ _).trans ((wr64_mode _ _ _ _).trans ((setCap_mode _ _ _).trans (hw.trans (hv.trans hu)))))


/-! ### The FDB -/

@[simp] theorem fdbWrite_mode (k idx : Nat) (e : Entry) : (fdbWrite s k idx e).mode = s.mode := by simp [fdbWrite]

@[simp] theorem flushRequest_mode (k v : Nat) : (flushRequest s k v).mode = s.mode := by simp [flushRequest]

@[simp] theorem flushOnDown_mode (port : Nat) : (flushOnDown s port).mode = s.mode := by simp [flushOnDown]

@[simp] theorem flushPartner_mode : (flushPartner s).mode = s.mode := by simp [flushPartner]

/-! ### Span links and sessions -/

@[simp] theorem setLink_mode (l : Nat) (x : SpanLink) : (setLink s l x).mode = s.mode := by simp [setLink]

@[simp] theorem setSpace_mode (l c : Nat) (x : SpanSpace) : (setSpace s l c x).mode = s.mode := by simp [setSpace]

@[simp] theorem setPairState_mode (n : Nat) : (setPairState s n).mode = s.mode := by simp [setPairState]

@[simp] theorem setLinkState_mode (l n : Nat) : (setLinkState s l n).mode = s.mode := by simp [setLinkState]

@[simp] theorem sendCtrl_mode (l : Nat) (kind : String) (fields : List Nat) : (sendCtrl s l kind fields).2.mode = s.mode := by
  unfold sendCtrl
  split <;> simp

@[simp] theorem releaseSent_mode (l : Nat) (x : SpanSent) : (releaseSent s l x).mode = s.mode := by
  unfold releaseSent
  cases x.buf <;> simp

@[simp] theorem freeOwn_mode (l : Nat) (gone : List SpanSent) : (freeOwn s l gone).mode = s.mode := by simp [freeOwn]

@[simp] theorem copyHeld_mode (l : Nat) : (copyHeld s l).mode = s.mode := by
  refine forEach_mode _ s fun s c => forEach_mode _ s fun s e => ?_
  split
  · rfl
  next f _ =>
    have hrecord := appendRecord_mode s (8 + linkRegion l) 6 (linkOf s l).tail (recSize f) none
    split
    next t h => rw [h] at hrecord; exact hrecord
    next pages tail t h => rw [h] at hrecord; simpa using hrecord

@[simp] theorem splitCheck_mode : (splitCheck s).mode = s.mode := by simp [splitCheck]

@[simp] theorem updateActive_mode : (updateActive s).mode = s.mode := by
  unfold updateActive
  generalize activeLink s = a, bestLink s = b
  extract_lets old new t
  have ht : t.mode = s.mode := by
    cases a <;> simp [t, old]
  split
  · rfl
  · cases b with
    | none => exact ht
    | some n =>
      simp only [new]
      split
      · simp [ht]
      · split <;> simp [ht]

@[simp] theorem spanLost_mode (l : Nat) : (spanLost s l).mode = s.mode := by simp [spanLost]

@[simp] theorem heldRecord_mode (q : Nat) (s : State) (f : Frame) : (heldRecord q s f).mode = s.mode := by simp [heldRecord]

@[simp] theorem heldToCustody_mode (l : Nat) : (heldToCustody s l).mode = s.mode := by
  unfold heldToCustody
  split
  · rfl
  · exact forEach_mode _ s fun s c => by simp [writeAhead_mode]

@[simp] theorem dropOoo_mode (l : Nat) : (dropOoo s l).mode = s.mode := by simp [dropOoo]

@[simp] theorem endSession_mode : (endSession s).mode = s.mode := by simp [endSession]

/-! ### Mirror copies -/

@[simp] theorem mirrorRefuse_mode (n : Nat) : (mirrorRefuse s n).mode = s.mode := by simp [mirrorRefuse]

@[simp] theorem mirrorSample_mode (n : Nat) (f : Frame) (region : Nat) : (mirrorSample s n f region).2.mode = s.mode := by
  unfold mirrorSample
  dsimp only
  split
  · rfl
  · split <;> simp

@[simp] theorem addCopy_mode (c : Copy) : (addCopy s c).mode = s.mode := by simp [addCopy]

@[simp] theorem mirrorMake_mode (n : Nat) (f : Frame) (i : CopyInfo) : (mirrorMake s n f i).mode = s.mode := by
  unfold mirrorMake
  dsimp only
  split
  · simp
  · split
    · simp
    · split
      next t h =>
        have ht : t.mode = s.mode := (congrArg (fun r => r.2.mode) h).symm.trans (grant_mode s .granules 7 _ 5 none)
        simp only [mirrorRefuse_mode, mode_ite, qDrop_mode, ite_self, ht]
      next b t h =>
        have ht : t.mode = s.mode := (congrArg (fun r => r.2.mode) h).symm.trans (grant_mode s .granules 7 _ 5 none)
        simp only [mode_ite, capTrigger_mode, opRelease_mode, capWrite_mode, addCopy_mode, addCounter_mode, ite_self, ht]

@[simp] theorem mirrorCopy_mode (n : Nat) (f : Frame) (i : CopyInfo) (region : Nat) : (mirrorCopy s n f i region).mode = s.mode := by simp [mirrorCopy]

@[simp] theorem releaseIngress_mode (b : Nat) : (releaseIngress s b).mode = s.mode := by simp [releaseIngress]

/-! ### Line ports -/

@[simp] theorem synceDown_mode (port : Nat) : (synceDown s port).mode = s.mode := by simp [synceDown]

@[simp] theorem setLink'_mode (port n : Nat) : (setLink' s port n).mode = s.mode := by simp [setLink']

@[simp] theorem countFlap_mode (port : Nat) : (countFlap s port).mode = s.mode := by simp [countFlap]

@[simp] theorem clearLpi_mode (port : Nat) : (clearLpi s port).mode = s.mode := by simp [clearLpi]

@[simp] theorem leftUp_mode (port : Nat) : (leftUp s port).mode = s.mode := by
  unfold leftUp
  dsimp only
  split <;> simp

@[simp] theorem linkNotGood_mode (port : Nat) : (linkNotGood s port).mode = s.mode := by simp [linkNotGood]

@[simp] theorem applyTaps_mode (lane v : Nat) : (applyTaps s lane v).mode = s.mode := by simp [applyTaps]

@[simp] theorem coefficients_mode (port : Nat) : (coefficients s port).mode = s.mode := by simp [coefficients, fresh]

@[simp] theorem trainEnd_mode (port : Nat) : (trainEnd s port).mode = s.mode := by
  unfold trainEnd
  split
  · refine (forEach_mode _ _ fun s l => ?_).trans (coefficients_mode s port)
    split <;> simp
  · rfl

@[simp] theorem setPlls_mode (quad : Nat) : (setPlls s quad).mode = s.mode := by simp [setPlls]

@[simp] theorem linkDisable_mode (port : Nat) : (linkDisable s port).mode = s.mode := by simp [linkDisable]

@[simp] theorem portCount_mode (port k n : Nat) : (portCount s port k n).mode = s.mode := by simp [portCount]

@[simp] theorem linkOff_mode (l : Nat) : (linkOff s l).mode = s.mode := by
  unfold linkOff
  dsimp only
  split <;> simp

@[simp] theorem pairStop_mode : (pairStop s).mode = s.mode := by simp [pairStop]

end Sys2Proof.Machine
end

section
/-! PROOFS. The chip mode (R31, R506): what runs while footway mode switches the pipelines off leaves the mode as it is. Custody saved, work discarded, state wiped. -/

namespace Sys2Proof.Machine

variable (s : State)

/-! ### Custody is saved -/

@[simp] theorem spillDone_mode (q : Nat) : (spillDone s q).mode = s.mode := by simp [spillDone]

@[simp] theorem dramToRecords_mode (q : Nat) : (dramToRecords s q).mode = s.mode := by simp [dramToRecords]

@[simp] theorem putJournal_mode (j : Journal) (s : State) (k : Nat) : (putJournal j s k).mode = s.mode := by simp [putJournal]

@[simp] theorem writeJournal_mode (cause lost : Nat) : (writeJournal s cause lost).mode = s.mode := by simp [writeJournal]

@[simp] theorem flushToCustody_mode : (flushToCustody s).2.mode = s.mode := by simp [flushToCustody]

@[simp] theorem selfRefresh_mode (on : Bool) : (selfRefresh s on).mode = s.mode := by simp [selfRefresh, setDimm]

@[simp] theorem abortDrain_mode : (abortDrain s).mode = s.mode := by
  unfold abortDrain
  split <;> simp

@[simp] theorem saveCustody_mode (cause : Nat) : (saveCustody s cause).mode = s.mode := by simp [saveCustody]

/-! ### Lifts, copies, services -/

@[simp] theorem setLiftState_mode (i n : Nat) : (setLiftState s i n).mode = s.mode := by simp [setLiftState, setLiftStat]

@[simp] theorem setGuard_mode (a p : Nat) (on : Bool) : (setGuard s a p on).mode = s.mode := by
  unfold setGuard
  split <;> simp [setGat]

@[simp] theorem recallLift_mode (i : Nat) : (recallLift s i).mode = s.mode := by simp [recallLift]

@[simp] theorem recallTargets_mode (hit : Nat → Bool) : (recallTargets s hit).mode = s.mode := by simp [recallTargets]

@[simp] theorem copyDone_mode (c st : Nat) : (copyDone s c st).mode = s.mode := by
  unfold copyDone
  split <;> simp

@[simp] theorem setBlkState_mode (b n : Nat) : (setBlkState s b n).mode = s.mode := by simp [setBlkState]

@[simp] theorem opRefuse_mode (cause src : Nat) : (opRefuse s cause src).mode = s.mode := by simp [opRefuse]

@[simp] theorem abandon_mode (cause : Nat) : (abandon s cause).mode = s.mode := by
  unfold abandon
  split <;> simp

@[simp] theorem abandonFor_mode (b : Nat) : (abandonFor s b).mode = s.mode := by
  unfold abandonFor
  split <;> simp

@[simp] theorem stopEngines_mode : (stopEngines s).mode = s.mode := by simp [stopEngines]

/-! ### Work is discarded -/

@[simp] theorem tally_mode (r code : Nat) : (tally s r code).mode = s.mode := by simp [tally]

@[simp] theorem killTx_mode (reason region port : Nat) : (killTx s reason region port).mode = s.mode := by
  unfold killTx
  split <;> simp

@[simp] theorem endCopies_mode (id : Nat) (fix : Frame → Frame) : (endCopies s id fix).mode = s.mode := by simp [endCopies]

@[simp] theorem endMirror_mode (id : Nat) (fix : Frame → Frame) : (endMirror s id fix).mode = s.mode := by simp [endMirror]

@[simp] theorem killRx_mode (reason port : Nat) : (killRx s reason port).mode = s.mode := by
  unfold killRx
  split <;> simp

@[simp] theorem emptyPipe_mode (reason k : Nat) : (emptyPipe s reason k).mode = s.mode := by simp [emptyPipe]

@[simp] theorem emptyQueues_mode (reason port : Nat) : (emptyQueues s reason port).mode = s.mode := by simp [emptyQueues]

@[simp] theorem emptyAdmit_mode (reason : Nat) : (emptyAdmit s reason).mode = s.mode := by simp [emptyAdmit]

@[simp] theorem emptyD2d_mode (reason : Nat) : (emptyD2d s reason).mode = s.mode := by simp [emptyD2d]

@[simp] theorem emptyRecirc_mode (reason k : Nat) : (emptyRecirc s reason k).mode = s.mode := by simp [emptyRecirc]

@[simp] theorem emptyWhere_mode (reason : Nat) (which : Queue → QFrame → Bool) : (emptyWhere s reason which).mode = s.mode := by simp [emptyWhere]

@[simp] theorem emptyGroup_mode (reason g : Nat) : (emptyGroup s reason g).mode = s.mode := by simp [emptyGroup]

@[simp] theorem emptyGranules_mode (reason : Nat) : (emptyGranules s reason).mode = s.mode := by simp [emptyGranules]

@[simp] theorem emptyMirror_mode (reason : Nat) : (emptyMirror s reason).mode = s.mode := by simp [emptyMirror]

@[simp] theorem emptyWaiting_mode (reason : Nat) : (emptyWaiting s reason).mode = s.mode := by
  refine forEach_mode _ _ fun s c => ?_
  split <;> simp

@[simp] theorem discardWork_mode (reason : Nat) (hit : Nat → Bool) : (discardWork s reason hit).mode = s.mode := by simp [discardWork]

/-! ### State is wiped -/

@[simp] theorem resetPipe_mode (hit : Nat → Bool) (k : Nat) : (resetPipe s hit k).mode = s.mode := by simp [resetPipe]

@[simp] theorem resetPort_mode (p : Nat) : (resetPort s p).mode = s.mode := by simp [resetPort]

@[simp] theorem resetQueues_mode (port : Nat) : (resetQueues s port).mode = s.mode := by simp [resetQueues]

@[simp] theorem resetSched_mode (port : Nat) : (resetSched s port).mode = s.mode := by simp [resetSched]

@[simp] theorem resetRsq_mode : (resetRsq s).mode = s.mode := by simp [resetRsq]

@[simp] theorem resetBpm_mode : (resetBpm s).mode = s.mode := by simp [resetBpm]

@[simp] theorem resetPpm_mode (reason : Nat) : (resetPpm s reason).mode = s.mode := by simp [resetPpm]

@[simp] theorem resetRings_mode : (resetRings s).mode = s.mode := by simp [resetRings]

@[simp] theorem resetDma_mode : (resetDma s).mode = s.mode := by simp [resetDma]

@[simp] theorem resetInsp_mode : (resetInsp s).mode = s.mode := by simp [resetInsp]

@[simp] theorem resetCst_mode : (resetCst s).mode = s.mode := by simp [resetCst]

@[simp] theorem resetSpan_mode (hit : Nat → Bool) : (resetSpan s hit).mode = s.mode := by simp [resetSpan]

@[simp] theorem wipeHidden_mode (reason : Nat) (hit : Nat → Bool) : (wipeHidden s reason hit).mode = s.mode := by simp [wipeHidden]

@[simp] theorem lowOutputs_mode : (lowOutputs s).mode = s.mode := by simp [lowOutputs]

@[simp] theorem goOff_mode (reason : Nat) (hit : Nat → Bool) : (goOff s reason hit).mode = s.mode := by simp [goOff]

end Sys2Proof.Machine
end

section
/-! PROOFS. Footway mode (R504 to R512). -/

namespace Sys2Proof.Machine

variable {s : State}

/-! ### The services that start on the way out (R510) keep the power domains and FW_STAT -/

@[simp] theorem doms_ite {q : Prop} [Decidable q] (t u : State) : (if q then t else u).doms = if q then t.doms else u.doms := apply_ite State.doms q t u

theorem forEach_doms {α : Type} {f : State → α → State} (h : ∀ s a, (f s a).doms = s.doms) (l : List α) (s : State) : (forEach s l f).doms = s.doms :=
  forEach_keeps (fun s => s.doms) h l s

theorem issueCert_doms (s : State) (r : Nat) : (issueCert s r).doms = s.doms := by simp [issueCert]

theorem extend_doms (s : State) (r ty target version digest : Nat) : (extend s r ty target version digest).doms = s.doms := by
  have htset (t : State) (p sel bank idx : Nat) (e : Entry) : (tset t p sel bank idx e).doms = t.doms := by simp
  unfold extend
  simp only [doms_ite, issueCert_doms, htset, ite_self]

theorem loadImage_doms (s : State) (b slot : Nat) : (loadImage s b slot).doms = s.doms := by simp [loadImage, extend_doms]

theorem runBlock_doms (s : State) (b id : Nat) : (runBlock s b id).doms = s.doms := by
  have hengine (s : State) (e : Nat) : (freshEngine b s e).doms = s.doms := rfl
  simp [runBlock_eq, runEngines, setMapAt, showEngine, forEach_doms, hengine]

theorem health_doms (s : State) : (health s).doms = s.doms := by simp [health]

theorem deal_doms (s : State) (id : Nat) : (deal s id).doms = s.doms := by simp [deal]

theorem startServices_doms (s : State) : (startServices s).doms = s.doms := by
  refine (health_doms _).trans ((forEach_doms deal_doms _ _).trans (forEach_doms (fun s b => ?_) _ _))
  dsimp only
  split
  · split
    · rw [runBlock_doms, loadImage_doms]
    · rfl
  · rfl

/-- FW_STAT, the state of footway mode. -/
def fwStat (s : State) : Word := rd s fwPage 0x108

theorem fwStat_congr {t : State} (h : t.regs = s.regs) : fwStat t = fwStat s := rd_congr h _ _

theorem ebk_apart {b o : Nat} (hb : b < 64) (ho : o < 4096) : fwPage * 4096 + 0x108 ≠ ebkPage b * 4096 + o := by
  simp only [fwPage, ebkPage]
  omega

theorem showEngine_fwStat (s : State) {b e : Nat} (hb : b < 64) (he : e < 16) : fwStat (showEngine s b e) = fwStat s := by
  unfold showEngine
  dsimp only
  split
  · rfl
  · exact rd_setFld_key _ _ _ _ _ _ _ _ (ebk_apart hb (by omega))

theorem runEngines_fwStat (s : State) {b : Nat} (hb : b < 64) : fwStat (runEngines s b) = fwStat s :=
  List.foldlRecOn (motive := fun t => fwStat t = fwStat s) _ _ (rd_setFld_key _ _ _ _ _ _ _ _ (ebk_apart hb (by omega)))
    fun _ ht _ he => (showEngine_fwStat _ hb (List.mem_range.mp he)).trans ht

theorem runBlock_fwStat (s : State) {b : Nat} (id : Nat) (hb : b < 64) : fwStat (runBlock s b id) = fwStat s := by
  rw [runBlock_eq, runEngines_fwStat _ hb]
  refine (rd_setFld_key _ _ _ _ _ _ _ _ (by simp only [fwPage, svcPage]; omega)).trans ?_
  refine (fwStat_congr (forEach_regs (f := freshEngine b) (fun _ _ => rfl) _ _)).trans ?_
  exact rd_wr_key _ _ _ _ _ _ (ebk_apart hb (by omega))

theorem loadImage_fwStat (s : State) {b : Nat} (slot : Nat) (hb : b < 64) : fwStat (loadImage s b slot) = fwStat s :=
  (fwStat_congr (extend_regs _ _ _ _ _).1).trans (rd_wr_key _ _ _ _ _ _ (ebk_apart hb (by omega)))

theorem startServices_fwStat (s : State) : fwStat (startServices s) = fwStat s := by
  refine (rd_health (by decide) (by decide)).trans ?_
  refine (fwStat_congr (forEach_regs (f := deal) (fun _ _ => rfl) _ _)).trans ?_
  refine List.foldlRecOn (motive := fun t => fwStat t = fwStat s) _ _ rfl fun t ht b hb => ?_
  have hb := List.mem_range.mp hb
  dsimp only
  split
  · split
    · rw [runBlock_fwStat _ _ hb, loadImage_fwStat _ _ hb, ht]
    · exact ht
  · exact ht

/-! ### What footway mode rests on -/

theorem foot_rows : regRow fwPage 0x104 = some { off := 0x104, w1s := 0xF } ∧ isHigh fwPage 0x104 = false ∧
    (pageInfo fwPage).map (·.kind) = some .fw := by decide +kernel

theorem fwState_congr {t : State} (h : fwStat t = fwStat s) : fwState t = fwState s := fld_congr h _ _

theorem fwState_setFw {n : Nat} (h : n < 8) (t : State) : fwState (setFw t n) = n := (fld_setFld_same _ _ _ _ _ _ (by decide) (by decide)).trans (Nat.mod_eq_of_lt h)

theorem portPage_ne_fw {p : Nat} (h : p ≤ 105) : portPage p ≠ fwPage := by
  simp only [portPage, macPage, fpPage, fwPage]
  split
  · omega
  · split
    · omega
    · split <;> omega

section
variable {t : State} (heports : t.eports = s.eports) (htabs : t.tabs = s.tabs)

include htabs in
theorem writtenPorts_congr : writtenPorts t = writtenPorts s := by
  unfold writtenPorts tget
  rw [htabs]

include heports

theorem lanesOf_congr (p : Nat) : lanesOf t p = lanesOf s p := by
  unfold lanesOf eportOf
  rw [heports]

include htabs

theorem fwPower_congr : fwPower t = fwPower s := by
  have hdoms : portDoms t = portDoms s := funext fun p => by
    unfold portDoms
    rw [lanesOf_congr heports]
  unfold fwPower domsKept
  rw [hdoms, writtenPorts_congr htabs]

/-- The cause that a commit is refused with rests on the tables, the lanes and the ports' enables. -/
theorem commitCause_congr (hregs : ∀ p, p ≠ fwPage → rd t p 0x100 = rd s p 0x100) (b : Bool) : commitCause t b = commitCause s b := by
  have henable : (fun p => decide (105 < p) || (!b && !bitAt t (portPage p) 0x100 0)) = fun p => decide (105 < p) || (!b && !bitAt s (portPage p) 0x100 0) :=
    funext fun p => by
      by_cases hp : 105 < p
      · simp [hp]
      · rw [bitAt_congr (hregs _ (portPage_ne_fw (by omega)))]
  have hlanes : lanesOf t = lanesOf s := funext (lanesOf_congr heports)
  unfold commitCause
  rw [henable, writtenPorts_congr htabs, fwPower_congr heports htabs, hlanes]

end

/-- What a write of FW_CTL leaves as it is. -/
theorem written_leaves (v : Nat) : (written s fwPage 0x104 v).tabs = s.tabs ∧ (written s fwPage 0x104 v).eports = s.eports ∧
    (written s fwPage 0x104 v).doms = s.doms ∧ (written s fwPage 0x104 v).fwTabs = s.fwTabs ∧ (written s fwPage 0x104 v).therm = s.therm ∧
    (written s fwPage 0x104 v).holds = s.holds := by
  obtain ⟨g, b, hstore⟩ := storeWord_only s fwPage 0x104 v all32
  rw [written, hstore]
  exact ⟨rfl, rfl, rfl, rfl, rfl, rfl⟩

theorem written_fwStat (v : Nat) : fwStat (written s fwPage 0x104 v) = fwStat s := rd_written_off _ _ _ (by decide)

theorem written_fwState (v : Nat) : fwState (written s fwPage 0x104 v) = fwState s := fwState_congr (written_fwStat v)

variable {r : Requester}

theorem regWrite_foot (h : opened s r fwPage 0x104 = true) {v : Nat} (hv : v < 2 ^ 32) : regWrite s r fwPage 0x104 v =
    { fwEffect (written s fwPage 0x104 v) 0x104 (reached { off := 0x104, w1s := 0xF } v) with resp := .done } := by
  obtain ⟨hrow, hhigh, hkind⟩ := foot_rows
  obtain ⟨i, hi, hkind⟩ := Option.map_eq_some_iff.mp hkind
  rw [regWrite_block h hi hrow (by decide) (by decide) rfl hhigh hv]
  refine responds ?_ _
  simp only [blockEffect, hkind]

theorem fwEffect_commit (t : State) : fwEffect t 0x104 (reached { off := 0x104, w1s := 0xF } 1) = fwCommit t false := rfl

theorem fwEffect_exit (t : State) : fwEffect t 0x104 (reached { off := 0x104, w1s := 0xF } 4) = fwExit t := rfl

theorem fwEffect_handover (t : State) : fwEffect t 0x104 (reached { off := 0x104, w1s := 0xF } 8) = fwHandover t := rfl

/-! ### The configuration is committed (R505) -/

/-- A commit in IDLE. -/
theorem fwCommit_idle (h : fwState s = 0) (b : Bool) {u : State} (hu : u = setFld (written s fwPage 0x104 1) fwPage 0x108 31 16 (fwPower s)) :
    fwCommit (written s fwPage 0x104 1) b =
      if commitCause s b = 0 then { setBit u fwPage 0x100 8 true with fwTabs := s.tabs.filter (fun e => keyPage e.1 == fwPage) }
      else fwRefuse u (commitCause s b) := by
  obtain ⟨htabs, heports, -, -, -, -⟩ := written_leaves (s := s) 1
  have hpower := fwPower_congr heports htabs
  have hu' : setFld (written s fwPage 0x104 1) fwPage 0x108 31 16 (fwPower (written s fwPage 0x104 1)) = u := by rw [hpower, hu]
  have hutabs : u.tabs = s.tabs := by rw [hu, ← htabs]; rfl
  have hcause : commitCause u b = commitCause s b := commitCause_congr (by rw [hu, ← heports]; rfl) hutabs (fun p hp => by
    rw [hu, rd_setFld_key _ _ _ _ _ _ _ _ (by omega)]
    exact rd_storeWord_other _ _ _ _ _ _ _ (by omega)) b
  unfold fwCommit
  rw [if_neg (by rw [written_fwState]; exact not_not_intro h), hu']
  dsimp only
  rw [hcause, hutabs]

theorem commitCause_hot (h : 450 < fwPower s) (b : Bool) : commitCause s b ≠ 0 := by
  unfold commitCause
  dsimp only
  split
  · decide
  · split
    · decide
    · decide

theorem commitCause_wide (h : 8 < ((writtenPorts s).filter (· < 64)).length) (b : Bool) : commitCause s b = 3 := if_pos (.inl h)

/-! ### Footway mode is entered (R504, R509) -/

theorem fwEvent_taken {c : Nat} (hc : 1 ≤ c ∧ c ≤ 4) (h : fwState s = 0 ∨ fwState s = 3) (hp : fwPermitted s = true) : fwEvent s c = fwEnter s c :=
  (if_neg (by omega)).trans (if_pos hp)

theorem fwEvent_denied (h : fwState s = 0 ∨ fwState s = 3) (hp : fwPermitted s = false) : fwEvent s 1 = warmReset s ∧ fwEvent s 2 = thermTrigger s ∧
    fwEvent s 3 = fwRefuse s 1 ∧ fwEvent s 4 = s := by
  have hdenied (c : Nat) : 1 ≤ c ∧ c ≤ 4 → fwEvent s c = match c with | 1 => warmReset s | 2 => thermTrigger s | 3 => fwRefuse s 1 | _ => s :=
    fun hc => (if_neg (by omega)).trans (if_neg (Bool.eq_false_iff.mp hp))
  exact ⟨hdenied 1 (by decide), hdenied 2 (by decide), hdenied 3 (by decide), hdenied 4 (by decide)⟩

theorem fwEvent_idle {c : Nat} (h : fwState s = 1 ∨ fwState s = 2 ∨ c = 0 ∨ 4 < c) : fwEvent s c = s := if_pos (by omega)

theorem domOf_raise (t : State) (p src reason detail cell d : Nat) : domOf (raise t p src reason detail cell) d = domOf t d := by simp [domOf]

theorem domOf_setFw (t : State) (n d : Nat) : domOf (setFw t n) d = domOf t d := by simp [domOf, setFw]

/-- Footway mode forwards with every domain outside the kept set OFF, in the mode that the chip was in. -/
theorem fwEnter_leaves (s : State) (c : Nat) : fwState (fwEnter s c) = 2 ∧ (∀ d < 176, d ∉ keptDoms s → domOn (fwEnter s c) d = false) ∧
    (fwEnter s c).mode = s.mode := by
  refine ⟨?_, fun d hd hkept => ?_, ?_⟩
  · exact (fwState_congr (rd_raise _ _ _ _ _ _ _ _ (by decide))).trans (fwState_setFw (by decide) _)
  · have hoff (t : State) : domOf (forEach t ((List.range 176).filter (fun d => !(keptDoms s).contains d)) (presetDom .off)) d = { st := .off } :=
      domOf_presets _ _ _ (List.mem_filter.mpr ⟨List.mem_range.mpr hd, by simpa using hkept⟩)
    have hst : (domOf (fwEnter s c) d).st = .off := by
      unfold fwEnter
      rw [domOf_raise, domOf_setFw]
      exact congrArg (·.st) (hoff _)
    rw [domOn, hst, decide_eq_false (by omega)]
    rfl
  · simp [fwEnter, setFw, presetDom]

theorem thermFootway_hot (h : 1150 ≤ s.therm.reported) (hrun : s.mode = .run) (hst : fwState s ≠ 2) : thermFootway s = thermTrigger s :=
  if_neg (by simp [hrun, hst]; omega)

/-! ### Frames are forwarded by the footway table (R507) -/

section
variable {f : Frame}

theorem fwForward_inactive (h : fwActive s f.ingress = false) : fwForward s f = s := if_pos (by rw [h]; rfl)

variable (hact : fwActive s f.ingress = true)
include hact

theorem fwForward_unmatched (h : fwFind s f.ingress f.bytes = none) : fwForward s f = fwDrop s 0xF0 := by
  simp [fwForward, hact, h]

variable {e : Entry} (hfind : fwFind s f.ingress f.bytes = some e)
include hfind

theorem fwForward_discard (h : ebit e 103 = true) : fwForward s f = s := by simp [fwForward, hact, hfind, h]

variable (hkeep : ebit e 103 = false) {t : State}
include hkeep

theorem fwForward_limited (h : fwTake s (ebit e 104) (frameLen f) = (false, t)) : fwForward s f = fwDrop t 0xF2 := by
  simp [fwForward, hact, hfind, hkeep, h]

theorem fwForward_sent (h : fwTake s (ebit e 104) (frameLen f) = (true, t)) {l : List Nat}
    (hl : l = (onesOf 16 (efld e 102 87)).filter (fun i => (fwSlot s i).2.1 && (fwSlot s i).1 != f.ingress)) : fwForward s f =
      forEach (if l.any (fun i => fifoBytes s i + frameLen f ≤ 32768) then inc t fwPage 0x110 else t) l (fwPut (ebit e 104) f) := by
  simp [fwForward, hact, hfind, hkeep, h, hl]

end

theorem fwPut_full {f : Frame} {i : Nat} (h : 32768 < fifoBytes s i + frameLen f) (prio : Bool) : fwPut prio f s i = fwDrop s 0xF1 := if_pos h

theorem fifoBytes_fwPut {f : Frame} {i : Nat} (h : fifoBytes s i + frameLen f ≤ 32768) (prio : Bool) :
    fifoBytes (fwPut prio f s i) i = fifoBytes s i + frameLen f := by
  unfold fwPut
  rw [if_neg (by omega)]
  split
  · simp [fifoBytes, mapGet_mapSet_same]
    omega
  · simp [fifoBytes, mapGet_mapSet_same]
    omega

theorem fwTake_within (h : s.foot.slot = now s / msUnits 1) (prio : Bool) (n : Nat) : (fwTake s prio n).1 =
    decide ((if prio then s.foot.urgent else s.foot.all).1 < 2000 ∧ (if prio then s.foot.urgent else s.foot.all).2 + n ≤ 2500000) := by
  unfold fwTake
  dsimp only
  rw [if_pos h]
  generalize (if prio then s.foot.urgent else s.foot.all) = used
  split
  · exact (decide_eq_false (by omega)).symm
  · exact (decide_eq_true (by omega)).symm

/-! ### Footway mode is left (R510, R511) -/

theorem fwPersists_written (v : Nat) : fwPersists (written s fwPage 0x104 v) = fwPersists s := by
  obtain ⟨-, -, -, -, htherm, hholds⟩ := written_leaves (s := s) v
  rw [fwPersists, htherm, hholds, fld_congr (written_fwStat v)]
  rfl

theorem fwExit_persisting (h : fwState s = 2) (hp : fwPersists s = true) : fwExit s = fwRefuse s 6 := (if_neg (not_not_intro h)).trans (if_pos hp)

theorem fwExit_elsewhere (h : fwState s ≠ 2) : fwExit s = s := if_pos h

/-- The domains that were not ON are put ON; what starts is EXITING. -/
theorem fwExit_leaves (h : fwState s = 2) (hp : fwPersists s = false) : fwState (fwExit s) = 3 ∧ ∀ d < 176, domOn (fwExit s) d = true := by
  have hon (d : Nat) (hd : d < 176) : (domOf (forEach s ((List.range 176).filter (fun d => (domOf s d).st != .on)) (presetDom .on)) d).st = .on := by
    by_cases hst : (domOf s d).st = .on
    · refine List.foldlRecOn (motive := fun t => (domOf t d).st = .on) _ _ hst fun t ht a _ => ?_
      rw [presetDom, domOf_setDom]
      split
      · rfl
      · exact ht
    · rw [domOf_presets _ _ _ (List.mem_filter.mpr ⟨List.mem_range.mpr hd, by simpa using hst⟩)]
  unfold fwExit
  rw [if_neg (not_not_intro h), if_neg (Bool.eq_false_iff.mp hp)]
  dsimp only
  generalize forEach s ((List.range 176).filter (fun d => (domOf s d).st != .on)) (presetDom .on) = t at hon ⊢
  have hdoms : (startServices (setFw t 3)).doms = t.doms := (startServices_doms _).trans (by simp [setFw])
  refine ⟨(fwState_congr (startServices_fwStat _)).trans (fwState_setFw (by decide) t), fun d hd => ?_⟩
  rw [domOn, decide_eq_false (by omega), domOf, hdoms, ← domOf, hon d hd]
  rfl

theorem fwPersists_cool (hcause : fld s fwPage 0x108 6 4 = 2) (h : s.therm.reported < 1050) : fwPersists s = false := by
  rw [fwPersists, hcause, decide_eq_false (by omega)]
  rfl

theorem fwAutoExit_cool (hcause : fld s fwPage 0x108 6 4 = 2) (hauto : bitAt s fwPage 0x100 0 = true) (h : s.therm.reported < 1050) :
    fwAutoExit s = fwExit s := if_pos ⟨hcause, hauto, h⟩

theorem fwAutoExit_stays (h : fld s fwPage 0x108 6 4 ≠ 2 ∨ bitAt s fwPage 0x100 0 = false ∨ 1050 ≤ s.therm.reported ∨ fwState s ≠ 2) :
    fwAutoExit s = s := by
  unfold fwAutoExit
  split
  next hq =>
    obtain ⟨hcause, hauto, hcool⟩ := hq
    rcases h with h | h | h | h
    · exact absurd hcause h
    · rw [h] at hauto
      exact absurd hauto Bool.false_ne_true
    · omega
    · exact fwExit_elsewhere h
  · rfl

/-! ### The pipelines take over again (R512) -/

theorem fwHandover_elsewhere (h : fwState s ≠ 3) : fwHandover s = s := if_pos h

theorem fwHandover_unready (h : fwState s = 3) (hr : (fwPorts s).all (fwReady s) = false) : fwHandover s = fwRefuse s 7 :=
  (if_neg (not_not_intro h)).trans (if_pos (by rw [hr]; rfl))

theorem fwHandover_ready (h : fwState s = 3) (hr : (fwPorts s).all (fwReady s) = true) : fwHandover s =
    raise (setFw { forEach s (List.range 16) fwFlush with foot := {} } 0) fwPage 2 :=
  (if_neg (not_not_intro h)).trans (if_neg (by rw [hr]; decide))

theorem ready_written (v : Nat) : (fwPorts (written s fwPage 0x104 v)).all (fwReady (written s fwPage 0x104 v)) = (fwPorts s).all (fwReady s) := by
  obtain ⟨-, -, hdoms, htabs, -, -⟩ := written_leaves (s := s) v
  have hslot : fwSlot (written s fwPage 0x104 v) = fwSlot s := funext fun i => by rw [fwSlot, htabs, ← fwSlot]
  have hready : fwReady (written s fwPage 0x104 v) = fwReady s := funext fun p => by
    unfold fwReady domOn domOf
    rw [hdoms]
  rw [fwPorts, hslot, hready, ← fwPorts]

/-! ### The register commands of FW_CTL -/

theorem footwayCommit_completes (h : opened s r fwPage 0x104 = true) : exec (.footwayCommit r) s =
    .next (closed s { fwCommit (written s fwPage 0x104 1) false with resp := .done }) :=
  completes ((regWrite_foot h (by decide)).trans (responds (fwEffect_commit _) _))

theorem footwayExit_completes (h : opened s r fwPage 0x104 = true) : exec (.footwayExit r) s =
    .next (closed s { fwExit (written s fwPage 0x104 4) with resp := .done }) :=
  completes ((regWrite_foot h (by decide)).trans (responds (fwEffect_exit _) _))

theorem footwayHandover_completes (h : opened s r fwPage 0x104 = true) : exec (.footwayHandover r) s =
    .next (closed s { fwHandover (written s fwPage 0x104 8) with resp := .done }) :=
  completes ((regWrite_foot h (by decide)).trans (responds (fwEffect_handover _) _))

end Sys2Proof.Machine

namespace Sys2Proof
open Sys2Proof.Machine

/-- Settles O58: a commit, an exit and a handover are writes of FW_CTL, whose effect rests on FW_STAT, the tables, the domains and the sensors, which the
write leaves; entry switches the domains off and keeps the mode, as each of its parts does; frames go by the cases of the footway table. -/
theorem footwayMode : Obligations.FootwayMode := by
  unfold Obligations.FootwayMode
  refine ⟨fun s u r h hu hst => ⟨fun hc => ?_, fun hc => ?_⟩, fun s r h hst => ?_, fun s b => ⟨fun h => commitCause_hot h b, fun h => commitCause_wide h b⟩,
    fun s c hlo hhi => ⟨fun hp hst => completes (fwEvent_taken ⟨hlo, hhi⟩ hst hp), fun hst => completes (fwEvent_idle (by omega)), fun hp hst => ?_⟩,
    fun s c hc => completes (fwEvent_idle (by omega)), fwEnter_leaves,
    fun s hhot hrun hst => ⟨_, rfl, fun hp => completes ((thermFootway_hot hhot hrun hst).trans (if_pos hp)),
      fun hp => completes ((thermFootway_hot hhot hrun hst).trans (if_neg (Bool.eq_false_iff.mp hp)))⟩,
    fun s h => completes (if_pos h), fun s p bs => ⟨fun h => completes (fwForward_inactive h), fun hact => ⟨fun h => completes (fwForward_unmatched hact h),
      fun e hfind hd => completes (fwForward_discard hact hfind hd), fun e f l t hfind hd hf hl => ?_⟩⟩,
    fun s prio f i _ => ⟨fun h => fwPut_full h prio, fun h => fifoBytes_fwPut h prio⟩, fun s prio n h => fwTake_within h prio n,
    fun s u r h hu hst => ?_, fun s u r h hu hst => ?_,
    fun s => ⟨fun hcause hauto hcool hst => ⟨completes (fwAutoExit_cool hcause hauto hcool), (fwExit_leaves hst (fwPersists_cool hcause hcool)).1⟩,
      fun h => completes (fwAutoExit_stays h)⟩, fun s u r h hu hst => ?_, fun s u r h hu hst => ⟨fun hr => ?_, fun hr => ?_⟩⟩
  · rw [footwayCommit_completes h, fwCommit_idle hst false hu, if_pos hc]
  · rw [footwayCommit_completes h, fwCommit_idle hst false hu, if_neg hc]
  · rw [footwayCommit_completes h, fwCommit, if_pos (by rwa [written_fwState])]
  · obtain ⟨hpower, htherm, hsoft, hboot⟩ := fwEvent_denied hst hp
    refine ⟨fun hc => ?_, fun hc => ?_, fun hc => ?_, fun hc => ⟨_, rfl, fun ht => ?_⟩⟩ <;> subst hc
    · exact completes hsoft
    · exact completes hpower
    · exact completes hboot
    · exact completes (htherm.trans (if_neg (Bool.eq_false_iff.mp ht)))
  · have hrun : exec (.footwayFrame p bs) s = .next (closed s (fwForward s f)) := by
      rw [hf]
      rfl
    have hact' : fwActive s f.ingress = true := by rwa [hf]
    have hfind' : fwFind s f.ingress f.bytes = some e := by rwa [hf]
    have hin : f.ingress = p.toNat := by rw [hf]
    rw [hrun]
    refine ⟨fun ht => completes (fwForward_limited hact' hfind' hd ht), fun ht => ?_⟩
    rw [fwForward_sent hact' hfind' hd ht (hl.trans (by rw [hin]))]
  · have hst' : fwState u = 2 := by rw [hu, written_fwState, hst]
    have hpersists : fwPersists u = fwPersists s := by rw [hu, fwPersists_written]
    rw [footwayExit_completes h, ← hu]
    refine ⟨fun hp => ?_, fun hp => ⟨rfl, (fwExit_leaves hst' (hpersists.trans hp)).2⟩⟩
    rw [fwExit_persisting hst' (hpersists.trans hp)]
  · rw [footwayExit_completes h, ← hu, fwExit_elsewhere (by rwa [hu, written_fwState])]
  · rw [footwayHandover_completes h, ← hu, fwHandover_elsewhere (by rwa [hu, written_fwState])]
  · rw [footwayHandover_completes h, ← hu, fwHandover_unready (by rwa [hu, written_fwState]) (by rwa [hu, ready_written])]
  · refine ⟨_, rfl, ?_⟩
    rw [footwayHandover_completes h, ← hu, fwHandover_ready (by rwa [hu, written_fwState]) (by rwa [hu, ready_written])]

end Sys2Proof
end
